-- ==== Sys2Proof/Word.lean ====
section
/-!
DEFINITION. The word types and the plain vocabulary shared by commands and state: modes, roles, slot states, addresses
and the other closed sets of names the spec uses.
-/
namespace Sys2Proof

/-- A register word (20 R434). -/
abbrev Word := BitVec 32

/-- A byte. -/
abbrev Byte := BitVec 8

/-- Operating modes with their SYS_MODE.CUR codes (01 R3 table, 02 R24). -/
inductive Mode where
  | boot | provision | acquire | serve | holdover | standby | recovery | quiesce
  deriving DecidableEq, Repr

/-- Role of a host slot (16 R353). -/
inductive Role where
  | owner | operator | auditor | none_
  deriving DecidableEq, Repr

/-- State of a reference slot (04 R76). -/
inductive SlotState where
  | disabled | monitor | qualifying | qualified | selected | disputed | softFail | failed
  deriving DecidableEq, Repr

/-- Kind of an announced leap second (03 TIME_UTC). -/
inductive LeapKind where
  | leap61 | leap59
  deriving DecidableEq, Repr

/-- State of the lease logic (15 R338). -/
inductive LeaseState where
  | off | cold | follow | hold | retake | conflict | handover
  deriving DecidableEq, Repr

/-- State of a key-ring entry (17 R378). -/
inductive KeyState where
  | current | previous | staged
  deriving DecidableEq, Repr

/-- An IPv4 or IPv6 address. -/
inductive NetAddr where
  | v4 (a : BitVec 32)
  | v6 (a : BitVec 128)
  deriving DecidableEq, Repr

/-- PTP message types: those the engine sends, and any other a negotiation TLV may name (14 R310, R315). -/
inductive PtpKind where
  | sync | announce | delayResp | signaling | delayReq
  | other (code : BitVec 4)
  deriving DecidableEq, Repr

/-- A unicast negotiation TLV the engine sends (14 R310, R311). -/
inductive PtpTlv where
  | request (kind : PtpKind) (log : Int) (dur : Nat)
  | grant (kind : PtpKind) (log : Int) (dur : Nat)
  | cancel (kind : PtpKind)
  | ackCancel (kind : PtpKind)
  deriving DecidableEq, Repr

/-- A key command once its arguments are accepted (17 R379, R381). -/
inductive KeyOp where
  | installNts (slot : Fin 8) (num : Nat) (cur : Bool) (key : List (BitVec 8))
  | installPtp (slot : Fin 8) (spp num : Nat) (cur : Bool) (key : List (BitVec 8))
  | rotate (slot : Fin 8) (ptp : Bool) (spp num : Nat)
  | invalidate (slot : Fin 8) (ptp : Bool) (spp num : Nat) (hard all : Bool)
  deriving DecidableEq, Repr

/-- Frames of device control (queue 6), PAUSE frames, and calibration frames with the raw stamp they carry (11 R239 R242,
12 R253, 15 R347). -/
inductive CtlFrame where
  | pause (quanta : Nat)
  | esmc (event : Bool) (ssm : Nat) (essm : Option Nat)
  | announce (addr : NetAddr) (vlan : Nat)
  | calibration (stamp : Nat)
  deriving DecidableEq, Repr

/-- A command in progress: host slot and tag. -/
structure CmdRef where
  /-- host slot (18 R402). -/
  slot : Fin 8 := 0
  /-- tag (18 R402). -/
  tag : BitVec 16 := 0#16
  deriving DecidableEq, Repr

/-- A host transmit descriptor. -/
structure TxDesc where
  /-- owner (11 R233). -/
  slot : Fin 8 := 0
  /-- BUF_ADDR, 64 bits (11 R233). -/
  buf : BitVec 64 := 0#64
  /-- 16 bits (11 R233). -/
  len : Nat := 0
  /-- 8 bits (11 R233). -/
  queue : Nat := 0
  /-- bit 0 TS_REQ, bit 1 IRQ, bit 7 DONE, other bits reserved (11 R233). -/
  flags : BitVec 8 := 0#8
  /-- a byte of the reserved 16 is not 0 (11 R233). -/
  resv : Bool := false
  /-- 16 bits (11 R233). -/
  tsId : BitVec 16 := 0#16
  /-- source address the check of R235 looks at (11 R235). -/
  src : Option NetAddr := none
  deriving DecidableEq, Repr

/-- A Footbridge frame. -/
structure FbFrame where
  /-- TYPE 1 heartbeat 2 OFFER 3 ACCEPT 4 ABORT (15 R331). -/
  kind : Nat := 1
  /-- FLAGS bit 0 (15 R331). -/
  unitB : Bool := false
  /-- FLAGS bit 1 (15 R331). -/
  lease : Bool := false
  /-- FLAGS bit 2 (15 R331). -/
  ready : Bool := false
  /-- FLAGS bit 3 (15 R331). -/
  tracking : Bool := false
  /-- 8 bits (15 R331). -/
  mode : Mode := .boot
  /-- 32 bits (15 R331). -/
  hbSeq : BitVec 32 := 0#32
  /-- 32 bits (15 R331). -/
  ackSeq : BitVec 32 := 0#32
  /-- 32 bits (15 R331). -/
  epoch : BitVec 32 := 0#32
  /-- 16 bits, ms (15 R331). -/
  leaseMs : Nat := 0
  /-- 16 bits, ps (15 R331). -/
  txOfs : Nat := 0
  /-- 32 bits, us (15 R331). -/
  guardUs : Nat := 0
  /-- 32 bits (15 R331). -/
  errb : Nat := 0
  /-- 32 bits signed, ps (15 R331). -/
  mLast : Int := 0
  /-- 48 bits (15 R331). -/
  markSec : Nat := 0
  /-- 16 bits (15 R331). -/
  markMs : Nat := 0
  /-- 48 bits (15 R331). -/
  hSec : Nat := 0
  /-- 32 bits (15 R331). -/
  hNs : Nat := 0
  deriving DecidableEq, Repr

/-- Time solution report. -/
structure SolReport where
  /-- epoch, 2^-48 ns (10 R209). -/
  cnt : Nat := 0
  /-- 64 bits signed, ps (10 R209). -/
  offset : Int := 0
  /-- 32 bits, 0.25 ns (10 R209). -/
  unc : Nat := 0
  /-- Firmware has computed the uncertainty (10 R208). -/
  uncKnown : Bool := true
  /-- 0-2 (10 R209). -/
  fix : Nat := 0
  /-- 1 bit (10 R209). -/
  dual : Bool := false
  /-- 1 bit (10 R209). -/
  utcValid : Bool := false
  /-- 1 bit (10 R209). -/
  leap61 : Bool := false
  /-- 1 bit (10 R209). -/
  leap59 : Bool := false
  /-- 0-2 (10 R209). -/
  traim : Nat := 0
  /-- 8 bits (10 R209). -/
  used : Nat := 0
  /-- 8 bits (10 R209). -/
  excluded : Nat := 0
  /-- 3 bits (10 R209). -/
  systems : Nat := 0
  /-- 16 bits (10 R209). -/
  tdop : Nat := 0
  /-- 2 bits (10 R209). -/
  guard : Nat := 0
  /-- 8 bits (10 R209). -/
  distCnt : Nat := 0
  /-- 2 bits (10 R209). -/
  agc : Nat := 0
  /-- 16 bits signed (10 R209). -/
  utcOffset : Int := 0
  /-- 48 bits (10 R209). -/
  leapAt : Nat := 0
  deriving DecidableEq, Repr

/-- ATOM UART parser configuration. -/
structure GuyUart where
  /-- 3 bits code (06 R143). -/
  baud : Nat := 0
  /-- s (06 R127 R143). -/
  poll : Nat := 0
  /-- up to 16 bytes (06 R127). -/
  query : List (BitVec 8) := []
  /-- bytes (06 R127). -/
  respLen : Nat := 0
  /-- byte offset (06 R127). -/
  lockOfs : Nat := 0
  /-- 8 bits (06 R127). -/
  lockMask : BitVec 8 := 0#8
  /-- 1 bit (06 R127). -/
  polarity : Bool := false
  /-- byte offset (06 R127). -/
  tempOfs : Nat := 0
  /-- 0 int16 LE, 1 int16 BE, 2 ASCII (06 R143). -/
  format : Nat := 0
  /-- 0 0.01, 1 0.1, 2 1 degC (06 R143). -/
  scale : Nat := 0
  deriving DecidableEq, Repr

/-- A bound programmable counter. -/
structure PerfBind where
  /-- 7 REG, 8 SERV_PREFIX (22 R461). -/
  cls : Nat := 7
  /-- 8 bits (22 R461). -/
  event : Nat := 0
  /-- 4 bits (22 R461). -/
  ports : BitVec 4 := 0#4
  /-- prefix length (22 R461). -/
  len : Nat := 0
  /-- prefix (22 R461). -/
  pre : NetAddr := .v4 0#32
  /-- window offset (22 R461). -/
  lo : Nat := 0
  /-- window offset (22 R461). -/
  hi : Nat := 0
  /-- 8 bits (22 R461). -/
  master : Nat := 0xFF
  /-- role mask (22 R461). -/
  roles : BitVec 4 := 0#4
  deriving DecidableEq, Repr

end Sys2Proof
end

