-- ==== Sys2Proof/Syntax.lean ====
section
/-!
DEFINITION. The commands of the block: one constructor per row of spec/opcode_table.json, with typed operands. The table
gives its rows no bits, so no word spells a command. Request payloads of ICP commands keep the widths of their command
tables; `rsv` says that a payload byte or bit the table calls zero is not zero.
-/
namespace Sys2Proof

/-! ## Operands of event rows -/

/-- What verifies a quantity of a GNSS satellite or channel in one second (10 R212). -/
structure DistIn where
  /-- Channel. -/
  chan : Fin 128
  /-- C/N0, 0.01 dB-Hz. -/
  cn0 : Nat
  /-- LOCK bit. -/
  lock : Bool
  deriving DecidableEq, Repr

/-- An ESMC PDU as received (11 R241): the fields the acceptance checks look at. -/
structure EsmcPdu where
  /-- Slow-protocol subtype. -/
  subtype : BitVec 8
  /-- ITU-OUI. -/
  oui : BitVec 24
  /-- ITU subtype. -/
  itu : BitVec 16
  /-- Version. -/
  version : BitVec 4
  /-- SSM code of the QL TLV (type 0x01), when the PDU carries one. -/
  ssm : Option (BitVec 4)
  /-- Enhanced SSM code of an extended QL TLV. -/
  essm : Option (BitVec 8)
  deriving DecidableEq, Repr

/-- The NTP payload of a request (13 R271, R272), parsed. -/
structure NtpReq where
  /-- NTP payload length, bytes. -/
  len : Nat
  /-- Mode field. -/
  mode : BitVec 3
  /-- Version field. -/
  version : BitVec 3
  /-- Poll field. -/
  poll : BitVec 8
  /-- Transmit timestamp. -/
  xmit : BitVec 64
  /-- Every extension field's length is a multiple of 4, at least 16 and within the payload. -/
  extOk : Bool
  /-- Bodies of the Unique Identifier fields. -/
  uids : List (List Byte)
  /-- Bodies of the NTS Cookie fields, each with its field length. -/
  cookies : List (List Byte)
  /-- Field lengths of the NTS Cookie Placeholder fields. -/
  placeholders : List Nat
  /-- Nonce and ciphertext of the authenticator field when it is the last field. -/
  auth : Option (List Byte × List Byte)
  /-- The bytes of the header and of the fields before the authenticator. -/
  aad : List Byte
  deriving DecidableEq, Repr

/-- A TLV of a PTP Signaling message (14 R310). -/
inductive SigTlv where
  | request (kind : PtpKind) (log : Int) (dur : Nat)
  | cancel (kind : PtpKind)
  | granted (kind : PtpKind) (log : Int) (dur : Nat)
  deriving DecidableEq, Repr

/-- The AUTHENTICATION TLV of a received PTP message (14 R318). -/
structure PtpAuth where
  /-- Number of AUTHENTICATION TLVs. -/
  count : Nat
  /-- It is the last TLV. -/
  last : Bool
  /-- SPP. -/
  spp : BitVec 8
  /-- secParamIndicator. -/
  secParam : BitVec 8
  /-- keyID. -/
  keyId : BitVec 32
  /-- The bytes covered and the ICV. -/
  bytes : List Byte
  /-- The ICV. -/
  icv : List Byte
  deriving DecidableEq, Repr

/-- The body of a received PTP message. -/
inductive PtpBody where
  | delayReq
  | signaling (tlvs : List SigTlv)
  | announce (cls acc : BitVec 8) (var : BitVec 16) (p1 p2 : BitVec 8) (gm : BitVec 64) (steps : BitVec 16) (utc : Int) (l61 l59 : Bool)
  | sync (twoStep : Bool) (originPs : Int)
  | followUp (originPs : Int)
  | delayResp (rxPs : Int) (forUs : Bool)
  | management
  | other
  deriving DecidableEq, Repr

/-- A received PTP message (14 R304, R318, R322). -/
structure PtpRx where
  /-- domainNumber. -/
  domain : BitVec 8
  /-- versionPTP major number. -/
  version : BitVec 4
  /-- sequenceId. -/
  seq : BitVec 16
  /-- clockIdentity of the sender. -/
  ident : BitVec 64
  /-- portNumber of the sender. -/
  pnum : BitVec 16
  /-- correctionField, 2^-16 ns. -/
  corr : Int
  /-- AUTHENTICATION TLV, when one is present. -/
  auth : Option PtpAuth
  /-- Body by messageType. -/
  body : PtpBody
  deriving DecidableEq, Repr

/-- The UDP payload of a received datagram. -/
inductive UdpBody where
  | ntp (r : NtpReq)
  | ptp (m : PtpRx)
  | other
  deriving DecidableEq, Repr

/-- What a received frame carries, as classification sees it: `slow` is any frame of EtherType 0x8809, `calibration` one of
EtherType 0x88B5 with the raw stamp it carries (11 R229, R230; 12 R253; 13 R271; 14 R304). -/
inductive RxBody where
  | macControl (opcode quanta : BitVec 16)
  | slow (pdu : EsmcPdu)
  | udp (src dst : NetAddr) (sport dport : BitVec 16) (dscp : BitVec 6) (frag csumBad : Bool) (body : UdpBody)
  | l2ptp (m : PtpRx)
  | arpNd (target : NetAddr)
  | calibration (stamp : Nat)
  | other
  deriving DecidableEq, Repr

/-- A received frame (11 R229; 12 R249). -/
structure RxFrame where
  /-- Port. -/
  port : Fin 4
  /-- Length, destination address to FCS. -/
  len : Nat
  /-- FCS and PCS code checks pass. -/
  fcsOk : Bool
  /-- Destination MAC address. -/
  dmac : BitVec 48
  /-- Source MAC address. -/
  smac : BitVec 48
  /-- VLAN IDs of the tags carried. -/
  vlans : List (BitVec 12)
  /-- Priority of the first tag. -/
  prio : BitVec 3
  /-- Ingress fill at the start of the frame, bytes: how the buffer drains has no rule. -/
  fill : Nat
  /-- Consumer index of the receiving slot's ring as the host has written it last (18 R400). -/
  hostCi : BitVec 32
  /-- BUF_ADDR the host has put into the next descriptor of that ring. -/
  buf : BitVec 64
  /-- Tick, within the present steering period, of the recovered-clock edge that delivered the frame's first block. -/
  off : BitVec 16
  /-- Fine phase of that edge, 1/64 tick. -/
  phase : BitVec 6
  /-- Octet position of the frame's start within the block. -/
  octet : BitVec 3
  /-- Bit position of the deserialiser's gearbox. -/
  gearbox : BitVec 7
  /-- Block position in the FEC frame, 0-31 (BASE-R FEC). -/
  fecPos : BitVec 5
  /-- Body. -/
  body : RxBody
  deriving DecidableEq, Repr

/-- The header and length of a request message as the mailbox engine finds it (18 R402). -/
structure ReqHdr where
  /-- MAJOR. -/
  major : BitVec 8
  /-- MINOR. -/
  minor : BitVec 8
  /-- OPCODE. -/
  op : BitVec 16
  /-- TAG. -/
  tag : BitVec 16
  /-- LENGTH. -/
  len : BitVec 16
  /-- FLAGS. -/
  flags : BitVec 16
  /-- Some header byte the table calls zero is not zero. -/
  rsv : Bool
  deriving DecidableEq, Repr

/-- Why a PCIe slot is lost (18 R411). -/
inductive LossKind where
  | linkDown
  | perst
  | flr (pf : Fin 8)
  deriving DecidableEq, Repr

/-- What a drift window delivers (04 R90): per slot the mean frequency against the flywheel prediction, 10^-15. -/
structure DriftIn where
  /-- Values of slots 0-11. -/
  y : Vector Int 12
  deriving DecidableEq, Repr

/-! ## Request payloads of ICP commands -/

/-- `ICP_LEAP_SET` (03 R69). -/
structure LeapSetArgs where
  leapAt : BitVec 48
  offset : BitVec 16
  action : BitVec 8
  rsv : Bool
  deriving DecidableEq, Repr

/-- `ICP_TIME_STEP` (05). -/
structure TimeStepArgs where
  kind : BitVec 8
  /-- Relative: offset in ns, signed. -/
  offsetNs : BitVec 64
  /-- Relative: fraction in 2^-16 ns. -/
  fraction : BitVec 16
  /-- Absolute: TIME_SEC, TIME_FRAC, TIME_NS. -/
  sec : BitVec 48
  frac : BitVec 16
  ns : BitVec 32
  rsv : Bool
  deriving DecidableEq, Repr

/-- `ICP_SLOT_CONFIG` (16 R370). -/
structure SlotConfigArgs where
  slot : BitVec 8
  bind : BitVec 8
  role : BitVec 8
  purge : Bool
  rsv : Bool
  deriving DecidableEq, Repr

/-- `ICP_REF_CONFIG` (04 R101). -/
structure RefConfigArgs where
  slot : BitVec 8
  enable : BitVec 8
  holdoff : BitVec 16
  instUnc : BitVec 32
  noiseUnc : BitVec 16
  rankFloor : BitVec 8
  qualRankMax : BitVec 8
  rsv : Bool
  deriving DecidableEq, Repr

/-- `ICP_REF_PPS_INPUT` (04 R101). -/
structure RefPpsArgs where
  slot : BitVec 8
  input : BitVec 8
  edge : BitVec 8
  todSel : BitVec 8
  freqSel : BitVec 8
  baud : BitVec 8
  ppsWin : BitVec 32
  cable : BitVec 32
  rsv : Bool
  deriving DecidableEq, Repr

/-- `ICP_REF_THRESH` (04 R101). -/
structure RefThreshArgs where
  freqWin : BitVec 32
  freqWinCold : BitVec 32
  driftY : BitVec 32
  driftRate : BitVec 32
  disagree : BitVec 32
  compareWin : BitVec 16
  pathStep : BitVec 32
  rsv : Bool
  deriving DecidableEq, Repr

/-- `ICP_SEL_CONFIG` (05). -/
structure SelConfigArgs where
  pref : BitVec 8
  revertive : BitVec 8
  revertWait : BitVec 16
  upgradeMargin : BitVec 8
  rsv : Bool
  deriving DecidableEq, Repr

/-- `ICP_LANTERN_CONFIG` (05): four pins of FUNC, INV and MIN_HOLD in ms. -/
structure LanternArgs where
  pins : Vector (BitVec 8 × Bool × BitVec 16) 4
  rsv : Bool
  deriving DecidableEq, Repr

/-- `ICP_HOLD_CONFIG` (06 R143). -/
structure HoldConfigArgs where
  oosLimit : BitVec 32
  policy : BitVec 8
  learnRankMax : BitVec 8
  learnMin : BitVec 16
  learnRestore : BitVec 8
  tempSpan : BitVec 8
  rsv : Bool
  deriving DecidableEq, Repr

/-- `ICP_HOLD_OSC_CONFIG` (06 R143). -/
structure HoldOscArgs where
  osc : BitVec 8
  enable : BitVec 8
  tempSrc : BitVec 8
  uY : BitVec 32
  uA1 : BitVec 32
  uA2 : BitVec 32
  uCT : BitVec 32
  noiseY : BitVec 32
  rsv : Bool
  deriving DecidableEq, Repr

/-- `ICP_ATOM_UART_CONFIG` (06 R143). -/
structure AtomUartArgs where
  baud : BitVec 8
  poll : BitVec 8
  qlen : BitVec 8
  respLen : BitVec 8
  query : Vector Byte 16
  lockOfs : BitVec 8
  lockMask : BitVec 8
  polarity : BitVec 8
  tempOfs : BitVec 8
  format : BitVec 8
  scale : BitVec 8
  rsv : Bool
  deriving DecidableEq, Repr

/-- `ICP_PPS_CONFIG` (07 R164). -/
structure PpsArgs where
  out : BitVec 8
  enable : BitVec 8
  inv : Bool
  acqQuiet : Bool
  widthNs : BitVec 32
  cable : BitVec 32
  rsv : Bool
  deriving DecidableEq, Repr

/-- `ICP_FREQ_CONFIG` (07 R164). -/
structure FreqArgs where
  out : BitVec 8
  enable : BitVec 8
  standard : BitVec 8
  acqQuiet : Bool
  hz : BitVec 32
  cable : BitVec 32
  rsv : Bool
  deriving DecidableEq, Repr

/-- `ICP_TOD_CONFIG` (07 R164). -/
structure TodArgs where
  out : BitVec 8
  enable : BitVec 8
  baud : BitVec 8
  scale : BitVec 8
  delay : BitVec 16
  rsv : Bool
  deriving DecidableEq, Repr

/-- `ICP_OUT_CALIBRATE` (07 R164). -/
structure OutCalArgs where
  freq : BitVec 8
  out : BitVec 8
  pin : BitVec 8
  cable : BitVec 32
  edges : BitVec 32
  rsv : Bool
  deriving DecidableEq, Repr

/-- `ICP_MILE_ARM` (07 R164). -/
structure MileArmArgs where
  pin : BitVec 8
  kind : BitVec 8
  cont : Bool
  pol : Bool
  irq : Bool
  tai : Bool
  width : BitVec 16
  target : BitVec 64
  targetNs : BitVec 32
  per : BitVec 32
  perFrac : BitVec 16
  count : BitVec 32
  rsv : Bool
  deriving DecidableEq, Repr

/-- `ICP_MILE_CAPTURE_CONFIG` (07 R164). -/
structure MileCapArgs where
  pin : BitVec 8
  edge : BitVec 8
  irq : Bool
  inDelay : BitVec 32
  rsv : Bool
  deriving DecidableEq, Repr

/-- `ICP_TDC_CONFIG` (08 R178). -/
structure TdcArgs where
  ch : BitVec 8
  mode : BitVec 8
  cont : Bool
  irq : Bool
  internal : Bool
  start : BitVec 8
  stop : BitVec 8
  startFall : Bool
  stopFall : Bool
  timeout : BitVec 32
  n : BitVec 32
  rsv : Bool
  deriving DecidableEq, Repr

/-- `ICP_GNSS_FE_CONFIG` (09 R201). -/
structure FeConfigArgs where
  stream : BitVec 8
  enable : BitVec 8
  format : BitVec 8
  qInv : Bool
  iqSwap : Bool
  capPhase : BitVec 8
  feLat : BitVec 8
  ifHz : BitVec 32
  rsv : Bool
  deriving DecidableEq, Repr

/-- `ICP_GNSS_FE_SPI` (09 R201). -/
structure FeSpiArgs where
  cs : BitVec 8
  mode : BitVec 8
  div : BitVec 8
  len : BitVec 8
  bytes : Vector Byte 64
  deriving DecidableEq, Repr

/-- `ICP_GNSS_POSITION` (10 R223). -/
structure PositionArgs where
  mode : BitVec 8
  survey : BitVec 32
  x : BitVec 64
  y : BitVec 64
  z : BitVec 64
  unc : BitVec 32
  rsv : Bool
  deriving DecidableEq, Repr

/-- `ICP_GNSS_INTEGRITY_CONFIG` (10 R223). -/
structure IntegrityArgs where
  traimLimit : BitVec 16
  maxExcl : BitVec 8
  distMin : BitVec 8
  distLimit : BitVec 16
  agcDev : BitVec 16
  rsv : Bool
  deriving DecidableEq, Repr

/-- `ICP_GNSS_GUARD_CONFIG` (10 R223). -/
structure GuardArgs where
  spoofLimit : BitVec 32
  window : BitVec 32
  enable : Bool
  latch : Bool
  rsv : Bool
  deriving DecidableEq, Repr

/-- `ICP_GNSS_BURST` (10 R223). -/
structure BurstArgs where
  enable : BitVec 8
  w : BitVec 16
  lead : BitVec 16
  rsv : Bool
  deriving DecidableEq, Repr

/-- `ICP_PORT_CONFIG` (11 R246). -/
structure PortConfigArgs where
  port : BitVec 8
  mode : BitVec 8
  fec : Bool
  an : Bool
  setMac : Bool
  maxFrame : BitVec 16
  linkHold : BitVec 16
  mac : BitVec 48
  rsv : Bool
  deriving DecidableEq, Repr

/-- `ICP_PORT_PAUSE_CONFIG` (11 R246). -/
structure PauseArgs where
  port : BitVec 8
  scope : BitVec 8
  txPause : Bool
  wd : BitVec 16
  xoff : BitVec 8
  xon : BitVec 8
  rsv : Bool
  deriving DecidableEq, Repr

/-- `ICP_PORT_ESMC_CONFIG` (11 R246). -/
structure EsmcArgs where
  port : BitVec 8
  en : Bool
  qlMode : Bool
  ext : Bool
  ssm : BitVec 8
  essm : BitVec 8
  rsv : Bool
  deriving DecidableEq, Repr

/-- `ICP_PORT_RING_CONFIG` (11 R246). -/
structure RingArgs where
  port : BitVec 8
  dir : BitVec 8
  enable : BitVec 8
  count : BitVec 16
  bufKiB : BitVec 16
  base : BitVec 64
  wb : BitVec 64
  rsv : Bool
  deriving DecidableEq, Repr

/-- `ICP_WAYP_CAL_SET` (12 R266). -/
structure CalSetArgs where
  port : BitVec 8
  conn : Bool
  txLat : BitVec 32
  rxLat : BitVec 32
  unc : BitVec 16
  rsv : Bool
  deriving DecidableEq, Repr

/-- `ICP_SERV_ADDR_SET` (13 R300). -/
structure AddrSetArgs where
  idx : BitVec 8
  ntp : Bool
  nts : Bool
  kod : Bool
  limitEn : Bool
  ipv6 : Bool
  smear : Bool
  ports : BitVec 8
  prefix6 : BitVec 8
  vlan : BitVec 16
  addr : BitVec 128
  rate : BitVec 32
  burst : BitVec 16
  w : BitVec 32
  rsv : Bool
  deriving DecidableEq, Repr

/-- `ICP_SERV_CONFIG` (13 R300). -/
structure ServConfigArgs where
  creditMax : BitVec 16
  maxCookies : BitVec 8
  nakEn : Bool
  rsv : Bool
  deriving DecidableEq, Repr

/-- `ICP_NTS_MINT` (13 R300). -/
structure MintArgs where
  count : BitVec 8
  alg : BitVec 16
  c2s : Vector Byte 32
  s2c : Vector Byte 32
  rsv : Bool
  deriving DecidableEq, Repr

/-- `ICP_PTP_INSTANCE_SET` (14 R327). -/
structure InstArgs where
  idx : BitVec 8
  profile : BitVec 8
  domain : BitVec 8
  transport : BitVec 8
  unicast : Bool
  auth : Bool
  errbTlv : Bool
  nonfwd : Bool
  addrIdx : BitVec 8
  ports : BitVec 8
  spp : BitVec 8
  logAnn : BitVec 8
  logSync : BitVec 8
  prio1 : BitVec 8
  prio2 : BitVec 8
  oosClass : BitVec 8
  accFloor : BitVec 8
  durMax : BitVec 16
  mcastDresp : BitVec 16
  rsv : Bool
  deriving DecidableEq, Repr

/-- One grant export record (14 R323). -/
structure GrantRec where
  addr : BitVec 128
  pidCrc : BitVec 32
  mac : BitVec 48
  inst : BitVec 8
  port : BitVec 2
  ipv6 : Bool
  logSync : BitVec 4
  logAnn : BitVec 4
  logDresp : BitVec 4
  remain : BitVec 16
  dur : BitVec 16
  deriving DecidableEq, Repr

/-- `ICP_PTP_CLIENT_CONFIG` (14 R327). -/
structure ClientArgs where
  client : BitVec 8
  enable : BitVec 8
  profile : BitVec 8
  transport : BitVec 8
  port : BitVec 8
  domain : BitVec 8
  unicast : Bool
  auth : Bool
  nonfwd : Bool
  spp : BitVec 8
  logAnn : BitVec 8
  logSync : BitVec 8
  logDreq : BitVec 8
  cands : BitVec 8
  duration : BitVec 16
  addrs : Vector NetAddr 4
  rsv : Bool
  deriving DecidableEq, Repr

/-- `ICP_FB_CONFIG` (15 R351). -/
structure FbConfigArgs where
  enable : BitVec 8
  autoHo : Bool
  annCount : BitVec 8
  leaseMs : BitVec 16
  xtalPpm : BitVec 16
  guardBase : BitVec 32
  annGap : BitVec 16
  readyPs : BitVec 32
  rsv : Bool
  deriving DecidableEq, Repr

/-- `ICP_NTS_KEY_INSTALL` (17 R393). -/
structure NtsInstallArgs where
  num : BitVec 32
  cur : Bool
  key : Vector Byte 32
  rsv : Bool
  deriving DecidableEq, Repr

/-- `ICP_NTS_KEY_INVALIDATE` (17 R393). -/
structure NtsInvArgs where
  num : BitVec 32
  kind : BitVec 8
  all : Bool
  rsv : Bool
  deriving DecidableEq, Repr

/-- `ICP_PTP_KEY_INSTALL` (17 R393). -/
structure PtpInstallArgs where
  spp : BitVec 8
  cur : Bool
  len : BitVec 8
  keyId : BitVec 32
  key : Vector Byte 64
  rsv : Bool
  deriving DecidableEq, Repr

/-- `ICP_PTP_KEY_INVALIDATE` (17 R393). -/
structure PtpInvArgs where
  spp : BitVec 8
  kind : BitVec 8
  all : Bool
  keyId : BitVec 32
  rsv : Bool
  deriving DecidableEq, Repr

/-- `ICP_FW_WRITE` (17 R393). -/
structure FwWriteArgs where
  offset : BitVec 32
  data : List Byte
  /-- LENGTH field of the payload. -/
  len : BitVec 16
  rsv : Bool
  deriving DecidableEq, Repr

/-- `ICP_TRAIL_READ` (21 R456). -/
structure TrailReadArgs where
  area : BitVec 8
  max : BitVec 16
  start : BitVec 32
  rsv : Bool
  deriving DecidableEq, Repr

/-- `ICP_FAULT_INJECT` (21 R456). -/
structure InjectArgs where
  source : BitVec 8
  action : BitVec 8
  duration : BitVec 32
  rsv : Bool
  deriving DecidableEq, Repr

/-- `ICP_PERF_READ` (22 R466). -/
structure PerfReadArgs where
  kind : BitVec 8
  clear : Bool
  first : BitVec 16
  count : BitVec 16
  master : BitVec 8
  roles : BitVec 8
  classes : BitVec 16
  /-- The 28 further bytes of BIND: class, EVENT, PORTS, LEN, PREFIX, LO, HI. -/
  cls : BitVec 8
  event : BitVec 8
  ports : BitVec 8
  plen : BitVec 8
  pre : NetAddr
  lo : BitVec 32
  hi : BitVec 32
  rsv : Bool
  deriving DecidableEq, Repr

/-- `ICP_PERF_DUMP_CONFIG` (22 R466). -/
structure DumpConfigArgs where
  period : BitVec 16
  first : BitVec 16
  last : BitVec 16
  base : BitVec 64
  rsv : Bool
  deriving DecidableEq, Repr

/-- `ICP_PERTURB_ARM` (22 R466). -/
structure PerturbArgs where
  kind : BitVec 8
  action : BitVec 8
  duration : BitVec 16
  cfg0 : BitVec 32
  cfg1 : BitVec 32
  rsv : Bool
  deriving DecidableEq, Repr

/-! ## The commands -/

/-- The commands of the block, one constructor per row of the opcode table, in the table's order. `rd` is the reader of a
register (host slots 0-7, 8 the management processor), `off` the tick of a read within the present steering period, `us`
the AON time in microseconds. -/
inductive Instr where
  /-- POWER_ON_RESET (R472). -/
  | powerOnReset (provN unitB : Bool)
  /-- RESET_N_ASSERT (R476). -/
  | resetNAssert (provN unitB : Bool)
  /-- WATCHDOG_EXPIRY (R43). -/
  | watchdogExpiry
  /-- WDOG_WARN (R427). -/
  | wdogWarn
  /-- RIDGEPOLE_LOSS_OF_LOCK (R50). -/
  | ridgepoleLossOfLock
  /-- OSC_MAIN_CHECK (R40). -/
  | oscMainCheck (khz : Nat)
  /-- RIDGEPOLE_LOCK (R39). -/
  | ridgepoleLock
  /-- TRAILHEAD_START (R39). -/
  | trailheadStart (pufFails : Fin 4)
  /-- FIRMWARE_START (R39). -/
  | firmwareStart (want : BitVec 10)
  /-- SLOT_LOSS (R411). -/
  | slotLoss (k : LossKind)
  /-- FAULT_LINE_RISE (R444). -/
  | faultLineRise (src : Fin 64)
  /-- POWER_GOOD_TIMEOUT (R36). -/
  | powerGoodTimeout (dom : Fin 10)
  /-- DOMAIN_POWER_UP_DONE (R35). -/
  | domainPowerUpDone (dom : Fin 10)
  /-- STEERING_BOUNDARY (R12). -/
  | steeringBoundary
  /-- SECOND_BOUNDARY (R147). -/
  | secondBoundary
  /-- SLOT_EVALUATION (R77). -/
  | slotEvaluation (f0 f1 : Int)
  /-- HOLDOFF_EXPIRY (R87). -/
  | holdoffExpiry (n : Fin 12)
  /-- REVERT_WAIT_EXPIRY (R105). -/
  | revertWaitExpiry
  /-- DRIFT_WINDOW_END (R90). -/
  | driftWindowEnd (d : DriftIn)
  /-- ASYM_CHECK_END (R97). -/
  | asymCheckEnd (n : Fin 12)
  /-- TODIN_MESSAGE (R74). -/
  | todinMessage (line : Fin 2) (ms : Nat) (bytes : List Byte)
  /-- TOD_QUALITY_TIMEOUT (R74). -/
  | todQualityTimeout (n : Fin 12)
  /-- STEP_PERMIT_EXPIRY (R114). -/
  | stepPermitExpiry
  /-- LANTERN_HOLD_EXPIRY (R119). -/
  | lanternHoldExpiry (pin : Fin 4)
  /-- LEAP_APPLY (R59). -/
  | leapApply
  /-- SMEAR_WINDOW_EDGE (R293). -/
  | smearWindowEdge (slot : Fin 8) (idx : Fin 32)
  /-- TIME_INCR_COMMIT (R53). -/
  | timeIncrCommit (hi : Word)
  /-- TIME_SLEW_COMMIT (R53). -/
  | timeSlewCommit (hi : Word)
  /-- NOW_LATCH_READ (R55). -/
  | nowLatchRead (rd : Fin 9) (off : BitVec 16)
  /-- ODOMETER_READ (R55). -/
  | odometerRead (rd : Fin 9) (off : BitVec 16)
  /-- SNAPSHOT_GO (R56). -/
  | snapshotGo (rd : Fin 9) (off : BitVec 16)
  /-- SNAPSHOT_READ (R56). -/
  | snapshotRead (rd : Fin 9)
  /-- CAIRN_PERIODIC_RECORD (R66). -/
  | cairnPeriodicRecord
  /-- CAIRN_SIGN_DONE (R67). -/
  | cairnSignDone (ok : Bool)
  /-- LEARN_WINDOW_END (R132). -/
  | learnWindowEnd (freq : Int)
  /-- ATOM_ABSENT (R125). -/
  | atomAbsent
  /-- ATOM_UART_POLL (R127). -/
  | atomUartPoll
  /-- ATOM_UART_RESPONSE (R127). -/
  | atomUartResponse (bytes : List Byte)
  /-- TEMP_LOST (R126). -/
  | tempLost (uart : Bool)
  /-- GUYLINE_MODEL_SAVE (R134). -/
  | guylineModelSave
  /-- TEMP_SAMPLE (R487). -/
  | tempSample (temp : Option Int)
  /-- TODOUT_MESSAGE (R151). -/
  | todoutMessage (line : Fin 2)
  /-- OE_TIMING_CHANGE (R154). -/
  | oeTimingChange (off : BitVec 16) (ck : Nat)
  /-- MILESTONE_FIRE (R157). -/
  | milestoneFire (n : Fin 16)
  /-- EVT_CAPTURE (R159). -/
  | evtCapture (n : Fin 16) (off : BitVec 16) (eighth : BitVec 3) (falling : Bool)
  /-- MILE_ARM_WRITE (R156). -/
  | mileArmWrite (rd : Fin 9) (n : Fin 16) (val : Word)
  /-- CAPTURE_POP (R160). -/
  | capturePop (rd : Fin 9) (n : Fin 16)
  /-- MEAS_EPOCH (R161). -/
  | measEpoch
  /-- OUT_CALIBRATE_DONE (R164). -/
  | outCalibrateDone (loopPs rms : Word) (ok : Bool)
  /-- TDC_RESULT (R173). -/
  | tdcResult (ch : Fin 8) (deltaFs : Int) (gap tbOpen : Bool)
  /-- TDC_TIMEOUT (R173). -/
  | tdcTimeout (ch : Fin 8)
  /-- TDC_DLL_UNLOCK (R168). -/
  | tdcDllUnlock (ch : Fin 8)
  /-- TDC_DLL_LOCK (R168). -/
  | tdcDllLock (ch : Fin 8)
  /-- TDC_CALIBRATION (R167). -/
  | tdcCalibration (ch : Fin 8)
  /-- TIMEBASE_PRESENCE (R174). -/
  | timebasePresence (which : Fin 2) (present : Bool)
  /-- TDC_ARM_WRITE (R172). -/
  | tdcArmWrite (rd : Fin 9) (ch : Fin 8) (val : Word)
  /-- TDC_RESULT_POP (R176). -/
  | tdcResultPop (rd : Fin 9) (ch : Fin 8)
  /-- DUMP_BOUNDARY (R193). -/
  | dumpBoundary (ch : Fin 128) (samples : List (BitVec 4))
  /-- FORCED_BOUNDARY (R193). -/
  | forcedBoundary (ch : Fin 128) (samples : List (BitVec 4))
  /-- FE_MAG_PERIOD (R183). -/
  | feMagPeriod (st : Fin 2) (samples : List (BitVec 4))
  /-- CHANNEL_ENABLE (R195). -/
  | channelEnable (ch : Fin 128) (ctrl : Word) (w : List (BitVec 9 × Word))
  /-- CHANNEL_APPLY (R190). -/
  | channelApply (ch : Fin 128) (w : List (BitVec 9 × Word))
  /-- GNSS_SPI_DONE (R185). -/
  | gnssSpiDone (rx : List Byte)
  /-- MEAS_BANK_CLAIM (R205). -/
  | measBankClaim (bank : Option (Fin 2))
  /-- GNSS_SOLUTION (R209). -/
  | gnssSolution (rep : SolReport) (residuals : List (List Nat))
  /-- DISTORTION_CHECK (R212). -/
  | distortionCheck (inp : List DistIn)
  /-- AGC_CHECK (R213). -/
  | agcCheck
  /-- GUARD_WINDOW_END (R215). -/
  | guardWindowEnd
  /-- SURVEY_COMPLETE (R210). -/
  | surveyComplete (x y z : BitVec 64) (unc : Word)
  /-- SNAPSHOT_ENTER (R218). -/
  | snapshotEnter
  /-- BURST_WINDOW_OPEN (R219). -/
  | burstWindowOpen
  /-- BURST_WINDOW_CLOSE (R219). -/
  | burstWindowClose
  /-- SNAPSHOT_EXIT (R220). -/
  | snapshotExit
  /-- FRAME_RECEIVE (R229). -/
  | frameReceive (f : RxFrame)
  /-- XOFF_REPEAT (R239). -/
  | xoffRepeat (p : Fin 4)
  /-- XON_SEND (R239). -/
  | xonSend (p : Fin 4)
  /-- PAUSE_TIMER_EXPIRY (R237). -/
  | pauseTimerExpiry (p : Fin 4)
  /-- PAUSE_WATCHDOG_TRIP (R238). -/
  | pauseWatchdogTrip (p : Fin 4)
  /-- PCS_LOSS (R228). -/
  | pcsLoss (p : Fin 4)
  /-- LINK_UP (R228). -/
  | linkUp (p : Fin 4)
  /-- SERDES_PLL_LOSS (R243). -/
  | serdesPllLoss (p : Fin 4)
  /-- SYNCE_PHASE_MEASURE (R240). -/
  | syncePhaseMeasure (p : Fin 4) (phasePs : Int) (cdrLock ppmOk : Bool)
  /-- ESMC_EVENT_PDU (R242). -/
  | esmcEventPdu (p : Fin 4)
  /-- HOST_TX_DESCRIPTOR (R233). -/
  | hostTxDescriptor (p : Fin 4) (d : TxDesc)
  /-- HOST_FRAME_SENT (R234). -/
  | hostFrameSent (p : Fin 4)
  /-- RESERVATION_RETRY (R256). -/
  | reservationRetry (p : Fin 4)
  /-- RESERVATION_DEADLINE (R21). -/
  | reservationDeadline (p : Fin 4) (id : Nat)
  /-- LAUNCH_POOL_DEADLINE (R257). -/
  | launchPoolDeadline (p : Fin 4) (late : Bool)
  /-- FRAME_LAUNCH (R257). -/
  | frameLaunch (p : Fin 4)
  /-- TSQ_POP (R262). -/
  | tsqPop (rd : Fin 9) (p : Fin 4)
  /-- TSQ_LOST_READ (R262). -/
  | tsqLostRead (rd : Fin 9) (p : Fin 4)
  /-- WAYP_CAL_DONE (R266). -/
  | waypCalDone (p : Fin 4)
  /-- NTS_CRYPTO_DONE (R282). -/
  | ntsCryptoDone (id : Nat)
  /-- CREDIT_RATE_UPDATE (R276). -/
  | creditRateUpdate
  /-- TOLLGATE_SCRUB_VISIT (R275). -/
  | tollgateScrubVisit (b : BitVec 18)
  /-- CRYPTO_SELF_TEST (R295). -/
  | cryptoSelfTest (aesOk : BitVec 8) (shaOk : BitVec 4)
  /-- GRANT_VISIT (R314). -/
  | grantVisit (idx : BitVec 17) (off : BitVec 16)
  /-- MCAST_VISIT (R314). -/
  | mcastVisit (k : Fin 16) (p : Fin 4) (off : BitVec 16)
  /-- CLIENT_RENEWAL (R320). -/
  | clientRenewal (c : Fin 2) (cand : Fin 4) (kind : Fin 3)
  /-- CLIENT_REQUEST_RETRY (R320). -/
  | clientRequestRetry (c : Fin 2) (cand : Fin 4)
  /-- CLIENT_DELAY_REQ_SEND (R322). -/
  | clientDelayReqSend (c : Fin 2)
  /-- CLIENT_ANNOUNCE_TIMEOUT (R321). -/
  | clientAnnounceTimeout (c : Fin 2) (cand : Nat)
  /-- HEARTBEAT_SEND (R330). -/
  | heartbeatSend (off : BitVec 16) (ck : Nat)
  /-- HEARTBEAT_RECEIVE (R330). -/
  | heartbeatReceive (f : FbFrame) (off : BitVec 16) (ck : Nat)
  /-- HEARTBEAT_MISS (R330). -/
  | heartbeatMiss (ck : Nat)
  /-- FB_LINK_DOWN (R330). -/
  | fbLinkDown (ck : Nat)
  /-- FB_OFFER (R343). -/
  | fbOffer (f : FbFrame) (ck : Nat)
  /-- FB_ACCEPT (R343). -/
  | fbAccept (f : FbFrame) (ck : Nat)
  /-- FB_ABORT (R344). -/
  | fbAbort (off : BitVec 16)
  /-- ACCEPT_TIMEOUT (R344). -/
  | acceptTimeout (ck : Nat)
  /-- HANDOVER_INSTANT (R343). -/
  | handoverInstant (off : BitVec 16) (ck : Nat)
  /-- PLANNED_TAKE (R343). -/
  | plannedTake (off : BitVec 16) (ck : Nat)
  /-- HANDOVER_RETAKE (R344). -/
  | handoverRetake (off : BitVec 16) (ck : Nat)
  /-- LEASE_RELINQUISH (R333). -/
  | leaseRelinquish (off : BitVec 16) (ck : Nat)
  /-- EXPIRY_TAKE (R334). -/
  | expiryTake (ck : Nat)
  /-- RELINQUISH_TAKE (R334). -/
  | relinquishTake (ck : Nat)
  /-- COLD_START_TAKE (R338). -/
  | coldStartTake (ck : Nat)
  /-- RETAKE_TAKE (R338). -/
  | retakeTake (ck : Nat)
  /-- DEFERRED_TAKE (R335). -/
  | deferredTake (ck : Nat)
  /-- PEEROWN_CHANGE (R336). -/
  | peerownChange (high : Bool) (ck : Nat)
  /-- ADDRESS_ANNOUNCE_ROUND (R347). -/
  | addressAnnounceRound
  /-- REMASK_VISIT (R377). -/
  | remaskVisit (k : Fin 64) (flips : List (BitVec 8))
  /-- RNG_RESEED (R375). -/
  | rngReseed (failed : Bool) (passed : Nat)
  /-- ECDSA_SELF_TEST (R386). -/
  | ecdsaSelfTest (ok : Bool)
  /-- KEY_STORE_COMMIT (R384). -/
  | keyStoreCommit (ok : Bool)
  /-- KEY_DRAINED (R381). -/
  | keyDrained (k : Fin 64)
  /-- KEY_COMMAND_TIMEOUT (R380). -/
  | keyCommandTimeout (off : BitVec 16)
  /-- VAULT_RELOAD (R385). -/
  | vaultReload
  /-- QUIESCE_DRAINED (R46). -/
  | quiesceDrained (off : BitVec 16)
  /-- REQUEST_PI_WRITE (R400). -/
  | requestPiWrite (slot : Fin 8) (val : Word)
  /-- COMMAND_DISPATCH (R407). -/
  | commandDispatch (slot : Fin 8) (hdr : ReqHdr)
  /-- COMPLETION_CI_WRITE (R408). -/
  | completionCiWrite (slot : Fin 8) (val : Word)
  /-- MBOX_ENABLE (R412). -/
  | mboxEnable (slot : Fin 8) (val : Word)
  /-- SLEEP_SET (R410). -/
  | sleepSet (slot : Fin 8)
  /-- SLEEP_CLEAR (R410). -/
  | sleepClear (slot : Fin 8)
  /-- MODERATION_TIMEOUT (R409). -/
  | moderationTimeout (slot : Fin 8) (off : BitVec 16)
  /-- HOST_SPI_WRITE (R396). -/
  | hostSpiWrite (addr : BitVec 24) (data : List Word) (part : Bool)
  /-- HOST_SPI_READ (R396). -/
  | hostSpiRead (addr : BitVec 24) (n : Nat) (late : List Nat)
  /-- HOST_SPI_STATUS (R396). -/
  | hostSpiStatus
  /-- SMBUS_SET_POINTER (R397). -/
  | smbusSetPointer (p : BitVec 32) (pec : Option (BitVec 8))
  /-- SMBUS_BLOCK_WRITE (R397). -/
  | smbusBlockWrite (data : List (BitVec 8)) (pec : Option (BitVec 8))
  /-- SMBUS_BLOCK_READ (R397). -/
  | smbusBlockRead (pec : Bool)
  /-- SMBUS_ALERT_RESPONSE (R397). -/
  | smbusAlertResponse
  /-- REGISTER_WRITE (R416). -/
  | registerWrite (rd : Fin 9) (addr : BitVec 20) (be : BitVec 4) (val : Word)
  /-- ALIAS_SET_WRITE (R417). -/
  | aliasSetWrite (rd : Fin 9) (addr : BitVec 20) (val : Word)
  /-- ALIAS_CLR_WRITE (R417). -/
  | aliasClrWrite (rd : Fin 9) (addr : BitVec 20) (val : Word)
  /-- ALIAS_TGL_WRITE (R417). -/
  | aliasTglWrite (rd : Fin 9) (addr : BitVec 20) (val : Word)
  /-- LOCK_SET (R418). -/
  | lockSet (rd : Fin 9) (blk : Fin 16)
  /-- STICKY_READ (R420). -/
  | stickyRead (rd : Fin 9) (addr : BitVec 20)
  /-- REPORT_READ (R421). -/
  | reportRead (rd : Fin 9) (addr : BitVec 20)
  /-- REPORT_ACK (R422). -/
  | reportAck (rd : Fin 9) (blk : Fin 16) (val : Word)
  /-- MULTIWORD_FIRST_READ (R18). -/
  | multiwordFirstRead (rd : Fin 9) (addr : BitVec 20) (off : BitVec 16)
  /-- IND_DATA_READ (R424). -/
  | indDataRead (rd : Fin 9)
  /-- IND_DATA_WRITE (R424). -/
  | indDataWrite (rd : Fin 9) (val : Word)
  /-- ICU_CLAIM (R431). -/
  | icuClaim (rd : Fin 9)
  /-- ICU_COMPLETE (R432). -/
  | icuComplete (rd : Fin 9) (val : Word)
  /-- ICU_PEND_RAISE (R429). -/
  | icuPendRaise (rd : Fin 9) (k : Fin 8) (val : Word)
  /-- ICU_PEND_WITHDRAW (R429). -/
  | icuPendWithdraw (rd : Fin 9) (k : Fin 8) (val : Word)
  /-- INJECTION_END (R447). -/
  | injectionEnd (src : Fin 64) (ck : Nat)
  /-- INJECTION_RESAMPLE (R447). -/
  | injectionResample (src : Fin 64) (ck : Nat)
  /-- TRAIL_FLUSH_PERIODIC (R455). -/
  | trailFlushPeriodic
  /-- TRAIL_FLUSH_DONE (R455). -/
  | trailFlushDone (fail : Option Nat)
  /-- PERF_DUMP (R462). -/
  | perfDump (off : BitVec 16)
  /-- PERTURB_EXPIRY (R464). -/
  | perturbExpiry (k : Fin 4) (off : BitVec 16)
  /-- ICP_HELLO (R405). -/
  | icpHello (c : CmdRef) (majors : Word)
  /-- ICP_MODE_GET (R47). -/
  | icpModeGet (c : CmdRef)
  /-- ICP_PROVISION_DONE (R48). -/
  | icpProvisionDone (c : CmdRef)
  /-- ICP_QUIESCE (R46). -/
  | icpQuiesce (c : CmdRef) (force gate rsv : Bool)
  /-- ICP_RESUME (R47). -/
  | icpResume (c : CmdRef)
  /-- ICP_POWER_GATE (R48). -/
  | icpPowerGate (c : CmdRef) (mask : BitVec 10) (on rsv : Bool)
  /-- ICP_SYS_RESET (R48). -/
  | icpSysReset (c : CmdRef) (confirm : Word)
  /-- ICP_MODE_CONFIG (R48). -/
  | icpModeConfig (c : CmdRef) (phase : Word) (dwell : BitVec 16) (rsv : Bool)
  /-- ICP_TIME_GET (R69). -/
  | icpTimeGet (c : CmdRef) (off : BitVec 16)
  /-- ICP_LEAP_SET (R70). -/
  | icpLeapSet (c : CmdRef) (a : LeapSetArgs)
  /-- ICP_TIME_STEP (R113). -/
  | icpTimeStep (c : CmdRef) (a : TimeStepArgs)
  /-- ICP_STEP_PERMIT (R114). -/
  | icpStepPermit (c : CmdRef) (window : BitVec 16) (rsv : Bool)
  /-- ICP_SLOT_CONFIG (R355). -/
  | icpSlotConfig (c : CmdRef) (a : SlotConfigArgs)
  /-- ICP_SLOT_INFO (R370). -/
  | icpSlotInfo (c : CmdRef)
  /-- ICP_SLOT_LIST (R370). -/
  | icpSlotList (c : CmdRef)
  /-- ICP_REF_CONFIG (R102). -/
  | icpRefConfig (c : CmdRef) (a : RefConfigArgs)
  /-- ICP_REF_PPS_INPUT (R102). -/
  | icpRefPpsInput (c : CmdRef) (a : RefPpsArgs)
  /-- ICP_REF_THRESH (R102). -/
  | icpRefThresh (c : CmdRef) (a : RefThreshArgs)
  /-- ICP_REF_STATUS (R101). -/
  | icpRefStatus (c : CmdRef)
  /-- ICP_REF_CLEAR (R102). -/
  | icpRefClear (c : CmdRef) (slot : BitVec 8) (rsv : Bool)
  /-- ICP_REF_ASYM (R102). -/
  | icpRefAsym (c : CmdRef) (slot : BitVec 8) (comp unc : Word) (rsv : Bool)
  /-- ICP_SEL_CONFIG (R104). -/
  | icpSelConfig (c : CmdRef) (a : SelConfigArgs)
  /-- ICP_SWB_CONFIG (R115). -/
  | icpSwbConfig (c : CmdRef) (slope acq : Word)
  /-- ICP_LANTERN_CONFIG (R123). -/
  | icpLanternConfig (c : CmdRef) (a : LanternArgs)
  /-- ICP_HOLD_CONFIG (R144). -/
  | icpHoldConfig (c : CmdRef) (a : HoldConfigArgs)
  /-- ICP_HOLD_OSC_CONFIG (R144). -/
  | icpHoldOscConfig (c : CmdRef) (a : HoldOscArgs)
  /-- ICP_HOLD_STATUS (R143). -/
  | icpHoldStatus (c : CmdRef)
  /-- ICP_HOLD_RESET (R134). -/
  | icpHoldReset (c : CmdRef) (main atom rsv : Bool)
  /-- ICP_ATOM_UART_CONFIG (R144). -/
  | icpAtomUartConfig (c : CmdRef) (a : AtomUartArgs)
  /-- ICP_PPS_CONFIG (R165). -/
  | icpPpsConfig (c : CmdRef) (a : PpsArgs)
  /-- ICP_FREQ_CONFIG (R165). -/
  | icpFreqConfig (c : CmdRef) (a : FreqArgs)
  /-- ICP_TOD_CONFIG (R165). -/
  | icpTodConfig (c : CmdRef) (a : TodArgs)
  /-- ICP_OUT_CALIBRATE (R164). -/
  | icpOutCalibrate (c : CmdRef) (a : OutCalArgs)
  /-- ICP_MILE_ARM (R165). -/
  | icpMileArm (c : CmdRef) (a : MileArmArgs)
  /-- ICP_MILE_DISARM (R157). -/
  | icpMileDisarm (c : CmdRef) (pin : BitVec 8) (rsv : Bool)
  /-- ICP_MILE_CAPTURE_CONFIG (R165). -/
  | icpMileCaptureConfig (c : CmdRef) (a : MileCapArgs)
  /-- ICP_EPOCH_CONFIG (R161). -/
  | icpEpochConfig (c : CmdRef) (rate enable : BitVec 8) (rsv : Bool)
  /-- ICP_OUT_STATUS (R164). -/
  | icpOutStatus (c : CmdRef)
  /-- ICP_TDC_CONFIG (R179). -/
  | icpTdcConfig (c : CmdRef) (a : TdcArgs)
  /-- ICP_TDC_MEASURE (R178). -/
  | icpTdcMeasure (c : CmdRef) (ch : BitVec 8) (rsv : Bool)
  /-- ICP_TDC_TIMEBASE (R179). -/
  | icpTdcTimebase (c : CmdRef) (enable nom : BitVec 8) (rsv : Bool)
  /-- ICP_TDC_CAL_CONFIG (R179). -/
  | icpTdcCalConfig (c : CmdRef) (period : BitVec 16) (rsv : Bool)
  /-- ICP_TDC_SKEW (R179). -/
  | icpTdcSkew (c : CmdRef) (ch : BitVec 8) (skew : Word) (rsv : Bool)
  /-- ICP_TDC_STATUS (R178). -/
  | icpTdcStatus (c : CmdRef)
  /-- ICP_GNSS_FE_CONFIG (R202). -/
  | icpGnssFeConfig (c : CmdRef) (a : FeConfigArgs)
  /-- ICP_GNSS_FE_SPI (R202). -/
  | icpGnssFeSpi (c : CmdRef) (a : FeSpiArgs)
  /-- ICP_GNSS_SIGNALS (R201). -/
  | icpGnssSignals (c : CmdRef) (sigs : BitVec 16) (clusters : BitVec 8) (rsv : Bool)
  /-- ICP_GNSS_CHAN_STATUS (R201). -/
  | icpGnssChanStatus (c : CmdRef) (first count : BitVec 8) (rsv : Bool)
  /-- ICP_GNSS_MEAS_GET (R205). -/
  | icpGnssMeasGet (c : CmdRef)
  /-- ICP_GNSS_POSITION (R210). -/
  | icpGnssPosition (c : CmdRef) (a : PositionArgs)
  /-- ICP_GNSS_SOL_STATUS (R209). -/
  | icpGnssSolStatus (c : CmdRef)
  /-- ICP_GNSS_DELAY (R224). -/
  | icpGnssDelay (c : CmdRef) (d0 d1 unc : Word) (rsv : Bool)
  /-- ICP_GNSS_INTEGRITY_CONFIG (R224). -/
  | icpGnssIntegrityConfig (c : CmdRef) (a : IntegrityArgs)
  /-- ICP_GNSS_GUARD_CONFIG (R224). -/
  | icpGnssGuardConfig (c : CmdRef) (a : GuardArgs)
  /-- ICP_GNSS_GUARD_RELEASE (R217). -/
  | icpGnssGuardRelease (c : CmdRef)
  /-- ICP_GNSS_BURST (R218). -/
  | icpGnssBurst (c : CmdRef) (a : BurstArgs)
  /-- ICP_PORT_CONFIG (R247). -/
  | icpPortConfig (c : CmdRef) (a : PortConfigArgs)
  /-- ICP_PORT_STATUS (R246). -/
  | icpPortStatus (c : CmdRef) (port : BitVec 8) (rsv : Bool)
  /-- ICP_PORT_PAUSE_CONFIG (R247). -/
  | icpPortPauseConfig (c : CmdRef) (a : PauseArgs)
  /-- ICP_PORT_ESMC_CONFIG (R247). -/
  | icpPortEsmcConfig (c : CmdRef) (a : EsmcArgs)
  /-- ICP_PORT_RING_CONFIG (R247). -/
  | icpPortRingConfig (c : CmdRef) (a : RingArgs)
  /-- ICP_WAYP_CONFIG (R254). -/
  | icpWaypConfig (c : CmdRef) (margin : BitVec 16) (rsv : Bool)
  /-- ICP_WAYP_TSQ_LIMIT (R267). -/
  | icpWaypTsqLimit (c : CmdRef) (slot port limit : BitVec 8) (rsv : Bool)
  /-- ICP_WAYP_CAL_PULSE (R253). -/
  | icpWaypCalPulse (c : CmdRef) (port : BitVec 8) (n : BitVec 16) (rsv : Bool)
  /-- ICP_WAYP_LOOPBACK (R266). -/
  | icpWaypLoopback (c : CmdRef) (tx rx : BitVec 8) (n : BitVec 16) (rsv : Bool)
  /-- ICP_WAYP_CAL_SET (R266). -/
  | icpWaypCalSet (c : CmdRef) (a : CalSetArgs)
  /-- ICP_SERV_ADDR_SET (R301). -/
  | icpServAddrSet (c : CmdRef) (a : AddrSetArgs)
  /-- ICP_SERV_ADDR_DEL (R301). -/
  | icpServAddrDel (c : CmdRef) (idx : BitVec 8) (rsv : Bool)
  /-- ICP_SERV_ADDR_LIST (R300). -/
  | icpServAddrList (c : CmdRef)
  /-- ICP_SERV_CONFIG (R301). -/
  | icpServConfig (c : CmdRef) (a : ServConfigArgs)
  /-- ICP_SERV_SLOT_LIMIT (R278). -/
  | icpServSlotLimit (c : CmdRef) (slot : BitVec 8) (limit : BitVec 16) (rsv : Bool)
  /-- ICP_SERV_STATUS (R359). -/
  | icpServStatus (c : CmdRef)
  /-- ICP_NTS_MINT (R285). -/
  | icpNtsMint (c : CmdRef) (a : MintArgs)
  /-- ICP_PTP_CLOCK_CONFIG (R327). -/
  | icpPtpClockConfig (c : CmdRef) (ident : BitVec 64)
  /-- ICP_PTP_INSTANCE_SET (R328). -/
  | icpPtpInstanceSet (c : CmdRef) (a : InstArgs)
  /-- ICP_PTP_INSTANCE_DEL (R327). -/
  | icpPtpInstanceDel (c : CmdRef) (idx : BitVec 8) (rsv : Bool)
  /-- ICP_PTP_QUOTA (R328). -/
  | icpPtpQuota (c : CmdRef) (slot : BitVec 8) (grants rate : Word) (rsv : Bool)
  /-- ICP_PTP_BUDGET (R312). -/
  | icpPtpBudget (c : CmdRef) (budget : Word)
  /-- ICP_PTP_STATUS (R327). -/
  | icpPtpStatus (c : CmdRef)
  /-- ICP_PTP_GRANT_READ (R323). -/
  | icpPtpGrantRead (c : CmdRef) (first : Word) (count : BitVec 16) (rsv : Bool)
  /-- ICP_PTP_GRANT_LOAD (R323). -/
  | icpPtpGrantLoad (c : CmdRef) (count : BitVec 16) (recs : List GrantRec) (rsv : Bool)
  /-- ICP_PTP_GRANT_CANCEL (R327). -/
  | icpPtpGrantCancel (c : CmdRef) (inst : BitVec 8) (rsv : Bool)
  /-- ICP_PTP_CLIENT_CONFIG (R320). -/
  | icpPtpClientConfig (c : CmdRef) (a : ClientArgs)
  /-- ICP_FB_CONFIG (R352). -/
  | icpFbConfig (c : CmdRef) (a : FbConfigArgs)
  /-- ICP_FB_STATUS (R351). -/
  | icpFbStatus (c : CmdRef)
  /-- ICP_FB_HANDOVER (R343). -/
  | icpFbHandover (c : CmdRef) (lead : BitVec 16) (rsv : Bool)
  /-- ICP_FB_ASYM (R341). -/
  | icpFbAsym (c : CmdRef) (asym : Word)
  /-- ICP_FB_TAKE (R352). -/
  | icpFbTake (c : CmdRef) (confirm : Word)
  /-- ICP_NTS_KEY_INSTALL (R379). -/
  | icpNtsKeyInstall (c : CmdRef) (a : NtsInstallArgs)
  /-- ICP_NTS_KEY_ROTATE (R379). -/
  | icpNtsKeyRotate (c : CmdRef) (num : Word)
  /-- ICP_NTS_KEY_INVALIDATE (R381). -/
  | icpNtsKeyInvalidate (c : CmdRef) (a : NtsInvArgs)
  /-- ICP_NTS_KEY_LIST (R393). -/
  | icpNtsKeyList (c : CmdRef)
  /-- ICP_PTP_KEY_INSTALL (R379). -/
  | icpPtpKeyInstall (c : CmdRef) (a : PtpInstallArgs)
  /-- ICP_PTP_KEY_ROTATE (R379). -/
  | icpPtpKeyRotate (c : CmdRef) (spp : BitVec 8) (keyId : Word) (rsv : Bool)
  /-- ICP_PTP_KEY_INVALIDATE (R381). -/
  | icpPtpKeyInvalidate (c : CmdRef) (a : PtpInvArgs)
  /-- ICP_PTP_KEY_LIST (R393). -/
  | icpPtpKeyList (c : CmdRef)
  /-- ICP_ID_GET (R386). -/
  | icpIdGet (c : CmdRef)
  /-- ICP_ATTEST (R387). -/
  | icpAttest (c : CmdRef) (nonce : Vector Byte 32)
  /-- ICP_KEY_ENROLL (R373). -/
  | icpKeyEnroll (c : CmdRef) (confirm : Word)
  /-- ICP_ID_CERT_SET (R386). -/
  | icpIdCertSet (c : CmdRef) (len : BitVec 16) (cert : List Byte) (rsv : Bool)
  /-- ICP_VAULT_CONFIG (R377). -/
  | icpVaultConfig (c : CmdRef) (period : BitVec 16) (rsv : Bool)
  /-- ICP_VAULT_STATUS (R393). -/
  | icpVaultStatus (c : CmdRef)
  /-- ICP_FW_STATUS (R393). -/
  | icpFwStatus (c : CmdRef)
  /-- ICP_FW_BEGIN (R389). -/
  | icpFwBegin (c : CmdRef) (bank : BitVec 8) (rsv : Bool)
  /-- ICP_FW_WRITE (R389). -/
  | icpFwWrite (c : CmdRef) (a : FwWriteArgs)
  /-- ICP_FW_FINISH (R389). -/
  | icpFwFinish (c : CmdRef) (activate rsv : Bool)
  /-- ICP_FW_COMMIT (R390). -/
  | icpFwCommit (c : CmdRef) (force rsv : Bool)
  /-- ICP_FAULT_STATUS (R456). -/
  | icpFaultStatus (c : CmdRef)
  /-- ICP_FAULT_CONFIG (R445). -/
  | icpFaultConfig (c : CmdRef) (source severity : BitVec 8) (rsv : Bool)
  /-- ICP_FAULT_INJECT (R446). -/
  | icpFaultInject (c : CmdRef) (a : InjectArgs)
  /-- ICP_TRAIL_READ (R456). -/
  | icpTrailRead (c : CmdRef) (a : TrailReadArgs)
  /-- ICP_TRAIL_FLUSH (R456). -/
  | icpTrailFlush (c : CmdRef) (period : BitVec 16) (rsv : Bool)
  /-- ICP_CAIRN_CONFIG (R70). -/
  | icpCairnConfig (c : CmdRef) (period : BitVec 16) (events flash rsv : Bool)
  /-- ICP_CAIRN_LAST (R70). -/
  | icpCairnLast (c : CmdRef)
  /-- ICP_PERF_READ (R460). -/
  | icpPerfRead (c : CmdRef) (a : PerfReadArgs)
  /-- ICP_PERF_DUMP_CONFIG (R462). -/
  | icpPerfDumpConfig (c : CmdRef) (a : DumpConfigArgs)
  /-- ICP_PERF_ACL (R467). -/
  | icpPerfAcl (c : CmdRef) (op aud : BitVec 16)
  /-- ICP_PERTURB_ARM (R464). -/
  | icpPerturbArm (c : CmdRef) (a : PerturbArgs)
  /-- ICP_PERTURB_LIVE (R465). -/
  | icpPerturbLive (c : CmdRef) (val : Word)
  /-- COMMANDED_RESET (R48). -/
  | commandedReset
  /-- PCS_UP (R228). -/
  | pcsUp (p : Fin 4)
  /-- AUTONEG_RESTART (R228). -/
  | autonegRestart (p : Fin 4)
  /-- SERDES_PLL_RELOCK (R243). -/
  | serdesPllRelock (p : Fin 4)
  /-- FINE_PHASE_TRACK_LOST (R263). -/
  | finePhaseTrackLost (p : Fin 4)
  /-- FINE_PHASE_TRACK_REGAINED (R263). -/
  | finePhaseTrackRegained (p : Fin 4)
  /-- PCIE_CONFIG_WRITE (R408). -/
  | pcieConfigWrite (pf : Fin 8) (busMaster d0 pmeEn l2 : Bool)
  /-- PERST_N_RELEASE (R44). -/
  | perstNRelease
  deriving DecidableEq, Repr

end Sys2Proof
end

