-- ==== Sys2Proof/Config.lean ====
section
/-!
DEFINITION. What one device fixes, and the values the spec leaves open. Every constant is opaque: nothing can evaluate it,
so a claim about it holds for whatever value the hardware has (log 3, 4, 5).
-/
namespace Sys2Proof.Config
open Sys2Proof

/-- Byte `i` of draw `n` of the random bit generator (17 R375). -/
opaque random : Nat → Nat → BitVec 8

/-- The 64-bit die identifier in OTP (20 SYS_UID). -/
opaque uid : BitVec 64

/-- The SHA-384 hash of the image public key programmed in OTP (02 R42, 17 R388). -/
opaque otpKeyHash : List (BitVec 8)

/-- A public key accepts an ECDSA P-384 signature of a message (17 R388). -/
opaque ecdsaVerify : List (BitVec 8) → List (BitVec 8) → List (BitVec 8) → Bool

/-- SHA-384 digest, byte `i` (17 R386, R387). -/
opaque sha384 : List (BitVec 8) → Nat → BitVec 8

/-- ECDSA P-384 signature of a message under a private scalar with 32 bytes of added random input, byte `i` of r and s (17 R386). -/
opaque ecdsaSign : Nat → List (BitVec 8) → List (BitVec 8) → Nat → BitVec 8

/-- SEC1 uncompressed encoding of a multiple of the P-384 generator, byte `i` (17 R386). -/
opaque publicKey : Nat → Nat → BitVec 8

/-- Byte `i` of the root secret that the helper data of enrolment `e` yields: SHA-256 of the corrected start-up values (17 R372). -/
opaque root : Nat → Nat → BitVec 8

/-- HKDF-SHA256 of keying material, salt and info, byte `i` (17 R372, R374). -/
opaque hkdf : List (BitVec 8) → List (BitVec 8) → List (BitVec 8) → Nat → BitVec 8

/-- AES-SIV seal: key, nonce, associated data, plaintext; byte `i` of tag and ciphertext (13 R280). -/
opaque sivSeal : List (BitVec 8) → List (BitVec 8) → List (BitVec 8) → List (BitVec 8) → Nat → BitVec 8

/-- AES-SIV open: key, nonce, associated data, tag and ciphertext; the plaintext when the tag verifies (13 R282). -/
opaque sivOpen : List (BitVec 8) → List (BitVec 8) → List (BitVec 8) → List (BitVec 8) → Option (List (BitVec 8))

/-- HMAC-SHA-256 of a message under a key, byte `i`; the -128 form is its first 16 bytes (14 R317, 17 R383). -/
opaque hmac : List (BitVec 8) → List (BitVec 8) → Nat → BitVec 8

/-- SipHash-2-4 of a message under the key of draw `n` (13 R273, 14 R308). -/
opaque siphash : Nat → List (BitVec 8) → BitVec 64

/-- The servo filter of management firmware: its phase correction for a steering period, 10^-21 s, from the selected slot's
recent phase errors in ps and the INCR in force (01 step 3, 05 R110; its method is not given, log 5). -/
opaque servo : List Int → Int → Int

/-- Coefficients of a least-squares fit of a flywheel model over its windows (end in Odometer s, frequency, temperature): Y0,
A1, A2, CT, T_FIT (06 R132, R133; the numerical method is firmware's, log 5). -/
opaque guyFit : List (Nat × Int × Int) → Int × Int × Int × Int × Int

/-- Uncertainties of that fit: U_Y, U_A1, U_A2, U_CT (06 R128, R133; log 5). -/
opaque guyFitU : List (Nat × Int × Int) → Nat × Nat × Nat × Nat

/-- How far the marker of heartbeat `n` lies after its millisecond, ps, before reduction to 0-7,999: the phase of the symbol
clock against the counter is not given (15 R330). -/
opaque symbolPhase : Nat → Nat

/-- Chip `i` of the primary code of a component and a PRN is -1; the codes are those of the systems' own interface documents
(09 R186, log 180). -/
opaque primaryCode : Nat → Nat → Nat → Bool

/-- Position within its FEC frame of the transmit block that starts at Odometer 0, for a port (12 R251; its phase is the
encoder's). -/
opaque fecPhase : Nat → Nat

/-- originTimestamp, ns, of Announce and Delay_Req message `n`: no rule gives it (14 R315). -/
opaque ptpOrigin : Nat → Nat

/-- sequenceId of Signaling message `n`: no rule gives it (14 R310). -/
opaque signalingSeq : Nat → BitVec 16

/-- The kind byte `ICP_VAULT_STATUS` gives for Canister slot `i`: its codes are not given (17 R393). -/
opaque kindCode : Nat → BitVec 8

end Sys2Proof.Config
end

