-- ==== Sys2Proof/Machine/State.lean ====
section
/-!
DEFINITION. The whole state of the block as plain data, one structure per block of the spec, every field with the
rule that names it; the reasons a step can stop; and the state right after power-on reset.
-/
namespace Sys2Proof.Machine
open Sys2Proof

/-- Reasons a step could stop with a fault. -/
inductive Fault where
  /-- No meaning of this model raises a fault: every row has an effect in the spec. The name is kept for a command whose
  operands Syntax admits but WellFormed refuses. Safe: the machine stops where the hardware cannot be. -/
  | illFormed
  deriving DecidableEq, Repr

/-- Reasons a step is refused. -/
inductive Refusal where
  /-- Raised by Dispatch for a row without a meaning, and by nothing else. Safe. -/
  | notModelled (mnemonic : String)
  deriving DecidableEq, Repr

/-- ICP_QUIESCE in progress. -/
structure Quiesce where
  /-- requesting slot and tag (02 R46). -/
  cmd : CmdRef := {}
  /-- FORCE (02 R46). -/
  force : Bool := false
  /-- GATE (02 R46). -/
  gate : Bool := false
  /-- step of R46 reached (02 R46). -/
  step : Nat := 1
  /-- requests dropped during the drain (02 R46 R47). -/
  dropped : Nat := 0
  /-- Odometer tick at which admission stopped (02 R46). -/
  startUs : Nat := 0
  /-- drain time, us (02 R47). -/
  drainUs : Nat := 0
  /-- steps 1 to 5 done: QUIESCE at the next evaluation (02 R46). -/
  done : Bool := false
  deriving DecidableEq, Repr

/-- ICP_POWER_GATE power-up being carried out. -/
structure PowerReq where
  /-- requesting command (02 R47). -/
  cmd : Option CmdRef := none
  /-- domains still to come up (02 R34). -/
  left : BitVec 10 := 0#10
  deriving DecidableEq, Repr

/-- A step waiting for its boundary. -/
structure StepReq where
  /-- signed, 2^-48 ns (03 R54, 05 R111 R113). -/
  offset : Int := 0
  /-- the counter value of an absolute step, 2^-48 ns (05 R113). -/
  abs : Option Nat := none
  /-- steering boundaries still to pass (05 R113). -/
  wait : Nat := 1
  /-- ICP_TIME_STEP waiting for its completion (05 R113). -/
  cmd : Option CmdRef := none
  deriving DecidableEq, Repr

/-- TIME_NOW shadows of one reader. -/
structure NowLatch where
  /-- 30 bits (03 R55). -/
  ns : Nat := 0
  /-- 16 bits (03 R55). -/
  frac : Nat := 0
  /-- 48 bits (03 R55). -/
  sec : Nat := 0
  /-- 64 bits (03 R55). -/
  odo : BitVec 64 := 0#64
  /-- 32 bits (20 TIME_NOW_ERRB). -/
  errb : Nat := 0xFFFFFFFF
  /-- a TIME_NOW latch has been taken (03 R55). -/
  latched : Bool := false
  /-- TIME_ODO_HI (03 R55). -/
  odoHi : BitVec 32 := 0#32
  deriving DecidableEq, Repr

/-- TIME_SNAP registers. -/
structure Snap where
  /-- 30 bits (03 R56). -/
  ns : Nat := 0
  /-- 16 bits (03 R56). -/
  frac : Nat := 0
  /-- 48 bits (03 R56). -/
  sec : Nat := 0
  /-- 64 bits (03 R56). -/
  odo : BitVec 64 := 0#64
  /-- 32 bits (20 TIME_SNAP_ERRB). -/
  errb : Nat := 0xFFFFFFFF
  /-- 3 bits (20 TIME_SNAP_STAT). -/
  mode : Nat := 0
  /-- 8 bits (20 TIME_SNAP_STAT). -/
  sel : Nat := 0xFF
  /-- 1 bit (03 TIME_SNAP_CTRL). -/
  valid : Bool := false
  deriving DecidableEq, Repr

/-- The leap last applied. -/
structure LeapDone where
  /-- LEAP_AT (03 R59). -/
  leapAt : Nat := 0
  /-- LEAP61 or LEAP59 (03 R59). -/
  kind : LeapKind := .leap61
  /-- OFFSET before the leap (03 R61). -/
  before : Int := 0
  /-- TAI time in ns at which it was announced (13 R293). -/
  announced : Nat := 0
  deriving DecidableEq, Repr

/-- A running asymmetry check. -/
structure AsymCheck where
  /-- evaluations left (04 R97). -/
  left : Nat := 64
  /-- step of the mean path delay, ps (04 R96). -/
  stepPs : Int := 0
  /-- phase against the flywheel at each second of the check, ps (04 R97). -/
  offsets : List Int := []
  /-- phase against the flywheel before the step, ps (04 R97). -/
  before : Int := 0
  deriving DecidableEq, Repr

/-- One STAT pin. -/
structure Lantern where
  /-- 8 bits (05 R118). -/
  func : Nat := 0
  /-- 1 bit (05 R118). -/
  inv : Bool := false
  /-- 1 bit, pin level (05 R118). -/
  level : Bool := false
  /-- 10 bits, ms (05 R119). -/
  minHold : Nat := 0
  /-- a MIN_HOLD stretch runs (05 R119). -/
  holding : Bool := false
  /-- level of the function now (05 R119). -/
  want : Bool := false
  deriving DecidableEq, Repr

/-- One learning window. -/
structure GuyWin where
  /-- end, Odometer s (06 R131). -/
  endS : Nat := 0
  /-- mean frequency, 10^-18 (06 R131). -/
  freq : Int := 0
  /-- mean temperature, 0.01 degC (06 R131). -/
  temp : Int := 0
  deriving DecidableEq, Repr

/-- A running loop-back measurement. -/
structure OutCal where
  /-- requesting command (07 R164). -/
  cmd : CmdRef := {}
  /-- kind: PPSOUT or FREQOUT (07 R164). -/
  freq : Bool := false
  /-- output number (07 R164). -/
  out : Nat := 0
  /-- loop-back EVT pin (07 R164). -/
  pin : Nat := 0
  /-- loop cable delay, ps (07 R164). -/
  cable : Int := 0
  /-- edges averaged (07 R164). -/
  edges : Nat := 1
  deriving DecidableEq, Repr

/-- One provisioned calibration record entry. -/
structure CalRec where
  /-- 0 port 1 PPS OUT_DELAY 2 FREQ OUT_DELAY 3 EVT IN_DELAY 4 TDC skew (02 R48, 07 R146 R164, 08 R179, 12 R253). -/
  kind : Nat := 0
  /-- index (port x 8 + mode x 2 + FEC for a port) (12 R253). -/
  idx : Nat := 0
  /-- TX_LAT or the delay, ps (12 R253). -/
  a : Int := 0
  /-- RX_LAT, ps (12 R253). -/
  b : Int := 0
  /-- uncertainty, 0.25 ns (12 R253). -/
  c : Nat := 0
  /-- PLANE_CONN (12 R253). -/
  conn : Bool := false
  /-- SerDes equaliser settings, 16 bytes (23 R481). -/
  eq : List (BitVec 8) := []
  deriving DecidableEq, Repr

/-- One Cairn traceability record. -/
structure CairnRec where
  /-- 16 bits (03 R67). -/
  flags : BitVec 16 := 0#16
  /-- 8 bits (03 R67). -/
  sel : Nat := 0xFF
  /-- 8 bits (03 R67). -/
  mode : Nat := 0
  /-- 32 bits, SEQ[63:32] (03 R67). -/
  pcycle : Nat := 0
  /-- 32 bits, SEQ[31:0] (03 R67). -/
  seq : Nat := 0
  /-- TIME_SEC, TIME_NS, TIME_FRAC: 2^-48 ns (03 R67). -/
  cnt : Nat := 0
  /-- 16 bits signed (03 R67). -/
  utcOffset : Int := 0
  /-- LEAP bits (03 R67). -/
  leap : BitVec 8 := 0#8
  /-- 32 bits (03 R67). -/
  errb : Nat := 0
  /-- 6 x 32 bits (03 R67). -/
  terms : Vector Nat 6 := Vector.replicate 6 0
  /-- 32 bits (03 R67). -/
  holdAge : Nat := 0
  /-- 32 bits (03 R67). -/
  errbMax : Nat := 0
  /-- 32 bits (03 R67). -/
  ophrs : Nat := 0
  /-- rank of slots 0-11 (03 R67). -/
  ranks : List Nat := []
  /-- state code of slots 0-11 (03 R67). -/
  states : List Nat := []
  /-- 64 bits (03 R67). -/
  odo : Nat := 0
  /-- 8 bytes, KEY_ID of the identity at the boundary (03 R67 R69). -/
  keyId : List (BitVec 8) := []
  /-- SIG_R and SIG_S, none while unsigned or on a failed signature (03 R67 R68). -/
  sig : Option (List (BitVec 8)) := none
  deriving DecidableEq, Repr

/-- AON region: sequencer, reset cause, meters, straps. -/
structure AonSt where
  /-- 8 bits (02 R38). -/
  cause : Nat := 0x01
  /-- 2 bits (02 R38). -/
  bank : Nat := 3
  /-- 2 bits (02 R38). -/
  pufTries : Nat := 0
  /-- 1 bit (02 R38, 23 R476). -/
  provN : Bool := true
  /-- 1 bit (02 R38, 23 R476). -/
  unitB : Bool := false
  /-- 2 bits (02 R38). -/
  bankFail : Nat := 0
  /-- 8 bits (02 R38). -/
  bootTries : Nat := 0
  /-- 10 bits (02 R35 R39). -/
  pwrOn : BitVec 10 := 0x20D#10
  /-- 1 bit (02 R35). -/
  pwrBusy : Bool := false
  /-- record, request being carried out (02 R34 R35). -/
  pwrReq : Option PowerReq := none
  /-- 32 bits, saturating (02 R38). -/
  pcycle : Nat := 1
  /-- 32 bits, saturating s (20 R441). -/
  ophrs : Nat := 0
  /-- 6 bits (20 R441). -/
  fatalSource : Nat := 0
  /-- 1 bit (20 R441). -/
  fatalValid : Bool := false
  /-- 3 bits (20 R441). -/
  fatalMode : Mode := .boot
  /-- 1 bit, fatal reaction since the last reset (05 R118). -/
  fatalInForce : Bool := false
  /-- 1 bit, Ridgepole lock (02 R39, 03 R50). -/
  locked : Bool := false
  /-- 1 bit (02 R40). -/
  oscPresent : Bool := false
  /-- identified OSC_MAIN frequency (02 R39 step 2). -/
  oscMHz : Nat := 0
  /-- s, second of the last OSC_ABSENT record (02 R40). -/
  oscAbsentAt : Option Nat := none
  /-- 1-9 (02 R39). -/
  bootStep : Nat := 1
  /-- 10 bits, domains that did not reach power-good at this start (02 R36 R39). -/
  pgFailed : BitVec 10 := 0#10
  deriving DecidableEq, Repr

/-- TIME block: counter, steering, shadows, UTC. -/
structure TimeSt where
  /-- 64 bits (00 R8, 03 R55). -/
  odo : Nat := 0
  /-- 64 bits, tick of the last steering boundary (01 R12). -/
  bOdo : Nat := 0
  /-- TIME_SEC (48), TIME_NS (30) and 48 fraction bits, in 2^-48 ns, at the last boundary (03 R51). -/
  cnt : Nat := 0
  /-- 52 bits, in force (03 R52). -/
  incr : Nat := 0x147AE147AE148
  /-- 52 bits, for the next period (01 R12). -/
  incrNext : Nat := 0x147AE147AE148
  /-- 52 bits, last committed (20 R439). -/
  incrReg : Nat := 0x147AE147AE148
  /-- 32 bits, written low word (03 R53). -/
  incrLo : BitVec 32 := 0x147AE148#32
  /-- 40 bits signed, in force (03 R51). -/
  slew : Int := 0
  /-- 40 bits signed (01 R12). -/
  slewNext : Int := 0
  /-- 40 bits signed, last committed (20 R439). -/
  slewReg : Int := 0
  /-- 32 bits (03 R53). -/
  slewLo : BitVec 32 := 0#32
  /-- 1 bit (03 TIME_STAT). -/
  valid : Bool := false
  /-- steps waiting for their boundary (03 R54, 05 R111 R113). -/
  steps : List StepReq := []
  /-- six shadow words and held flag per slot and for the management processor (03 R55). -/
  now : Vector NowLatch 9 := Vector.replicate 9 {}
  /-- TIME_SNAP registers (03 R56). -/
  snap : Snap := {}
  /-- 16 bits signed (03 TIME_UTC). -/
  utcOffset : Int := 0
  /-- LEAP61 / LEAP59 (03 TIME_UTC). -/
  leap : Option LeapKind := none
  /-- 1 bit SRC (03 TIME_UTC). -/
  utcManual : Bool := false
  /-- 1 bit (03 TIME_UTC). -/
  utcKnown : Bool := false
  /-- 48 bits (20 R439). -/
  leapAt : Nat := 0
  /-- TAI time in ns at which the announcement became valid (13 R293). -/
  announcedAt : Nat := 0
  /-- record of the leap last applied (LEAP_AT, kind, offset before) (03 R57 R61). -/
  lastLeap : Option LeapDone := none
  /-- count (03 R57). -/
  utcMismatch : Nat := 0
  /-- count (03 R58). -/
  leapInvalid : Nat := 0
  /-- 32 bits, 0.25 ns (03 R65). -/
  errb : Nat := 0xFFFFFFFF
  /-- 6 x 32 bits (03 R62). -/
  terms : Vector Nat 6 := Vector.replicate 6 0
  /-- 1 bit, a selection since reset (03 R65). -/
  selectedOnce : Bool := false
  /-- 1 bit, ERRB saturated until the next boundary (03 R65). -/
  stepped : Bool := false
  /-- a step has put the counter exactly on a second boundary, not yet acted on (07 R148). -/
  landed : Bool := false
  /-- 4 x 16 bits, LK (20 R439). -/
  calUnc : Vector Nat 4 := Vector.replicate 4 16
  /-- 16 bits, LK (03 R64, 20 R439). -/
  calUncOut : Nat := 1
  /-- counter value of the last evaluation with a slot selected (13 R286). -/
  refTs : Nat := 0
  deriving DecidableEq, Repr

/-- Cairn records. -/
structure CairnSt where
  /-- 12 bits, s (03 R70). -/
  period : Nat := 1
  /-- 1 bit (03 R70). -/
  events : Bool := true
  /-- 1 bit (03 R70). -/
  flash : Bool := true
  /-- 32 bits (03 R67). -/
  seq : Nat := 0
  /-- 1 bit, an event waits for its boundary (03 R66). -/
  pendingEvent : Bool := false
  /-- count, limit 16 (03 R66). -/
  eventsThisSec : Nat := 0
  /-- 1 bit, FLAGS bit 4 (03 R67). -/
  steppedSince : Bool := false
  /-- 32 bits, largest since the previous record (03 R67). -/
  errbMax : Nat := 0
  /-- latest record (03 R69). -/
  last : Option CairnRec := none
  /-- records being signed (03 R66 R67). -/
  unsigned : List CairnRec := []
  /-- a second boundary that is a multiple of PERIOD fell in the steering period that has ended (03 R66). -/
  due : Bool := false
  /-- records dropped in the present run (03 R68). -/
  gapRun : Nat := 0
  /-- SEQ of the first record of the run (03 R68, 21 R453). -/
  gapFirst : Nat := 0
  deriving DecidableEq, Repr

/-- One reference slot. -/
structure SignSlot where
  /-- 0 DISABLED, 1 MONITOR, 2 candidate (04 R101). -/
  enable : Nat := 0
  /-- 4 bits (04 R76). -/
  state : SlotState := .disabled
  /-- 8 bits (04 SIGN_SLOTn_STAT). -/
  cause : Nat := 0x01
  /-- 8 bits (04 SIGN_SLOTn_STAT). -/
  lastCause : Nat := 0
  /-- 4 bits (04 SIGN_SLOTn_STAT). -/
  rank : Nat := 15
  /-- 1 bit (04 SIGN_SLOTn_STAT). -/
  kept : Bool := false
  /-- 1 bit (04 SIGN_SLOTn_STAT). -/
  present : Bool := false
  /-- 1 bit (04 R90). -/
  driftArmed : Bool := false
  /-- 32 bits, 0.25 ns saturating (04 R78). -/
  unc : Nat := 0
  /-- ps signed, latest phase error (04 R100 registers). -/
  phase : Int := 0
  /-- 32 bits signed, 10^-12 (04 SIGN_SLOTn_FREQ). -/
  freq : Int := 0
  /-- 32 bits signed, 10^-15 (04 SIGN_SLOTn_DRIFT). -/
  drift : Int := 0
  /-- y of the window before (04 R90). -/
  driftPrev : Option Int := none
  /-- cause code 0x21 or 0x22 while condemned for drift (04 R90). -/
  driftBad : Nat := 0
  /-- 1 bit, QUALITY condition latched (04 R90). -/
  qFail : Bool := false
  /-- 16 bits, hold-off seconds remaining (04 R87). -/
  timer : Nat := 0
  /-- 1 bit (04 R87). -/
  timerRun : Bool := false
  /-- 16 bits saturating (04 SIGN_SLOTn_TIMER). -/
  secsInState : Nat := 0
  /-- 12 bits (04 SIGN_SLOTn_DISP). -/
  disp : BitVec 12 := 0#12
  /-- 8 bits (04 SIGN_SLOTn_DISP). -/
  judge : Nat := 0xFF
  /-- 16 bits (04 SIGN_SLOTn_QMSG). -/
  qmsg : BitVec 16 := 0#16
  /-- 1 bit (04 SIGN_SLOTn_QMSG). -/
  qUnknown : Bool := true
  /-- s (04 R87). -/
  holdoff : Nat := 60
  /-- 32 bits, 0.25 ns (04 R101). -/
  instUnc : Nat := 0
  /-- 16 bits, 0.25 ns (04 R71). -/
  noiseUnc : Nat := 4
  /-- 4 bits (04 R101). -/
  rankFloor : Nat := 0
  /-- 4 bits (04 R87). -/
  qualRankMax : Nat := 14
  /-- last 16 phase errors with the remaining pull of the time, ps (03 R62, 05 R109). -/
  meas : List (Int × Int) := []
  /-- phase against the flywheel per evaluation, ps, newest first (04 R88 R92). -/
  fly : List Int := []
  /-- phase against the flywheel of the latest measurement since the last evaluation, ps (04 R88 R92). -/
  flyNow : Option Int := none
  /-- counter seconds nearest the last two pulses, newest first (04 R75 R86). -/
  edges : List Nat := []
  /-- a pulse has come since the last evaluation (04 R98). -/
  pulsed : Bool := false
  /-- s of agreement (04 R95). -/
  agree : Nat := 0
  /-- evaluations since the slot entered QUALIFIED, SELECTED or DISPUTED (04 R92). -/
  cmpRun : Nat := 0
  /-- cause of a disagreement in force (0x30, 0x31; 0x32 once a disabled guard leaves its verdict to R95), 0 none (04 R93 R94, 10 R224). -/
  pairCause : Nat := 0
  /-- the other slots of the pairs for which the selection was kept (04 R94). -/
  dispWith : BitVec 12 := 0#12
  /-- 12 bits, slots disputed in the same verdict (04 R95). -/
  jointWith : BitVec 12 := 0#12
  /-- 12 bits, worse-ranked slots of pairs that bar this one from selection (04 R94). -/
  barWith : BitVec 12 := 0#12
  /-- consecutive pulses outside PPS_WIN (04 R89). -/
  outOfWin : Nat := 0
  /-- consecutive missed edges (04 R86). -/
  missed : Nat := 0
  /-- last pulse within PPS_WIN (04 R87). -/
  lastInWin : Bool := false
  /-- latched until ICP_REF_CLEAR (04 R89). -/
  phaseJump : Bool := false
  /-- latched (04 R97). -/
  pathAsym : Bool := false
  /-- 0.25 ns, path-step contributions held (03 R63, 04 R96). -/
  contrib : Nat := 0
  /-- contributions held at the switch away, counted until SWB reaches 0 (03 R63). -/
  contribTail : Nat := 0
  /-- running asymmetry check (04 R97). -/
  asymCheck : Option AsymCheck := none
  /-- ps signed (04 R101). -/
  asymComp : Int := 0
  /-- 0.25 ns (04 R101). -/
  asymUnc : Nat := 0
  /-- up to 80 mean path delays, ps, newest first (04 R96). -/
  mpd : List Int := []
  /-- 0 differential 1 single-ended (04 R101). -/
  input : Bool := false
  /-- PPS edge (04 R101). -/
  edgeFall : Bool := false
  /-- 0 none 1 TODIN0 2 TODIN1 (04 R73). -/
  todSel : Nat := 0
  /-- 0 none 1 FREQIN0 2 FREQIN1 (04 R73). -/
  freqSel : Nat := 0
  /-- 3 bits (04 R101). -/
  todBaud : Nat := 4
  /-- us (04 R89). -/
  ppsWin : Nat := 10
  /-- ps signed (04 R101). -/
  cable : Int := 0
  /-- s, label of the latest edge (04 R74). -/
  label : Nat := 0
  /-- the present interval already has a message (04 R74). -/
  labelled : Bool := false
  /-- consecutive labels that differ (04 R98). -/
  labelBad : Nat := 0
  /-- consecutive labels that agree (04 R98). -/
  labelGood : Nat := 0
  /-- offset and announcement of the latest ToD message (03 R57, 07 R152). -/
  utc : Option (Int × Option (Nat × LeapKind)) := none
  /-- TOD_MISMATCH condition (04 R98). -/
  todMismatch : Bool := false
  /-- count TOD_LATE (04 R74). -/
  todLate : Nat := 0
  /-- count TOD_DUP (04 R74). -/
  todDup : Nat := 0
  /-- cause code of a loss condition that holds, 0 none (04 R86). -/
  loss : Nat := 0
  /-- states entered at this boundary (SLOT_n raised once) (05 R117). -/
  entered : BitVec 8 := 0#8
  deriving DecidableEq, Repr


/-- The twelve reference slots at reset: NOISE_UNC by slot type (04 R71). -/
def signSlotsReset : Vector SignSlot 12 :=
  #v[{ noiseUnc := 4 }, { noiseUnc := 4 }, { noiseUnc := 4 }, { noiseUnc := 4 }, { noiseUnc := 4 },
     { noiseUnc := 0 }, { noiseUnc := 0 }, { noiseUnc := 0 }, { noiseUnc := 0 },
     { noiseUnc := 8 }, { noiseUnc := 8 }, { noiseUnc := 1 }]

/-- Functions of STAT0-3 at reset (05 R118). -/
def lanternReset : Vector Lantern 4 := #v[{ func := 0x02 }, { func := 0x03 }, { func := 0x05 }, { func := 0x06 }]

/-- SIGN block. -/
structure SignSt where
  /-- 12 slots (04 R71). -/
  slots : Vector SignSlot 12 := signSlotsReset
  /-- ppb (04 R88). -/
  freqWin : Nat := 200
  /-- ppb (04 R88). -/
  freqWinCold : Nat := 10000
  /-- 10^-12 (04 R90). -/
  driftY : Nat := 100
  /-- 10^-12 (04 R90). -/
  driftRate : Nat := 20
  /-- 0.001 ppb (04 R92). -/
  disagree : Nat := 1000
  /-- s (04 R92). -/
  compareWin : Nat := 100
  /-- ns (04 R96). -/
  pathStepNs : Nat := 100
  /-- 4 bits SIGN_STAT.SEL (04 SIGN_STAT). -/
  sel : Option (Fin 12) := none
  /-- 4 bits SIGN_SEL.PREV (05 SIGN_SEL). -/
  selPrev : Option (Fin 12) := none
  /-- 4 bits (05 R105). -/
  pref : Option (Fin 12) := none
  /-- 1 bit (05 R105). -/
  revertive : Bool := true
  /-- s (05 R105). -/
  revertWait : Nat := 0
  /-- 4 bits (05 R105). -/
  upgradeMargin : Nat := 0
  /-- 1 bit (05 R104). -/
  prefChanged : Bool := false
  /-- 8 bits (05 R107). -/
  swCause : Nat := 0
  /-- 8 bits modulo 256 (05 SIGN_SEL). -/
  swCount : Nat := 0
  /-- 16 bits saturating s (05 SIGN_SEL_TIMER). -/
  sinceSw : Nat := 0
  /-- last switch to none was made in SERVE or HOLDOVER (05 R107). -/
  lostInServe : Bool := false
  /-- remaining pull, 10^-21 s (05 R109). -/
  p : Int := 0
  /-- a step cancelled P: take a new P at the next evaluation (05 R113). -/
  repull : Bool := false
  /-- 17 bits, 0.1 ns/s (05 R110). -/
  slope : Nat := 500
  /-- SLOPE for the period after the command (05 R115). -/
  slopeNext : Nat := 500
  /-- 20 bits, ns (05 R111). -/
  acqStepMin : Nat := 100
  /-- 1 bit (05 SIGN_SWB_STAT). -/
  clipped : Bool := false
  /-- STEP_PERMIT open (05 R114). -/
  permit : Bool := false
  /-- 10 bits, s (05 SIGN_SWB_STAT). -/
  permitLeft : Nat := 0
  /-- FUNC, INV, LEVEL, MIN_HOLD of STAT0-3 (05 R118). -/
  lantern : Vector Lantern 4 := lanternReset
  /-- settings applied at the next boundary (05 R123). -/
  lanternPending : Option (Vector Lantern 4) := none
  /-- JUDGE_ATOM (04 SIGN_STAT). -/
  judgePrev : Bool := false
  deriving DecidableEq, Repr

/-- Coefficients a start restored. -/
structure GuyRest where
  /-- 64 bits signed (06 R134). -/
  a1 : Int := 0
  /-- 32 bits signed (06 R134). -/
  a2 : Int := 0
  /-- 32 bits signed (06 R134). -/
  ct : Int := 0
  /-- 32 bits (06 R134). -/
  uA1 : Nat := 0
  /-- 32 bits (06 R134). -/
  uA2 : Nat := 0
  /-- 32 bits (06 R134). -/
  uCT : Nat := 0
  /-- 16 bits signed (06 R134). -/
  tFit : Int := 0
  deriving DecidableEq, Repr

/-- One Guyline flywheel model. -/
structure GuyModel where
  /-- 64 bits signed, 10^-18 (06 R128 R142). -/
  y0 : Int := 0
  /-- 64 bits signed, 10^-24 per s (06 R128 R133 R142). -/
  a1 : Int := 0
  /-- 32 bits signed, 10^-30 per s^2 (06 R128 R133 R142). -/
  a2 : Int := 0
  /-- 32 bits signed, 10^-18 per K (06 R128 R133 R142). -/
  ct : Int := 0
  /-- 32 bits, 10^-18, saturating (06 R128 R133 R142). -/
  uY : Nat := 1000000000
  /-- 32 bits, saturating (06 R133 R142). -/
  uA1 : Nat := 1200000000
  /-- 32 bits, saturating (06 R133 R142). -/
  uA2 : Nat := 1000000000
  /-- 32 bits, saturating (06 R133 R142). -/
  uCT : Nat := 100000000
  /-- 32 bits, set by configuration (06 R128 R143). -/
  noiseY : Nat := 10000000
  /-- 32 bits, U_Y prior (06 R133 R143). -/
  pUY : Nat := 1000000000
  /-- 32 bits, U_A1 prior (06 R133 R143). -/
  pUA1 : Nat := 1200000000
  /-- 32 bits, U_A2 prior (06 R133 R143). -/
  pUA2 : Nat := 1000000000
  /-- 32 bits, U_CT prior (06 R133 R143). -/
  pUCT : Nat := 100000000
  /-- 16 bits signed, 0.01 degC (06 R128 R142). -/
  tFit : Int := 0
  /-- 16 bits, 0.01 K (06 R142). -/
  tSpan : Nat := 0
  /-- committed windows (end in Odometer s, mean frequency, mean temperature) of the last 30 days, newest first (06 R132). -/
  wins : List GuyWin := []
  /-- 16 bits, saturating (06 R142). -/
  winCount : Nat := 0
  /-- 1 bit (06 R133 R142). -/
  a1Fit : Bool := false
  /-- 1 bit (06 R133 R142). -/
  a2Fit : Bool := false
  /-- 1 bit (06 R133 R142). -/
  ctFit : Bool := false
  /-- restored coefficients; RESTORED while there are any (06 R134 R142). -/
  rest : Option GuyRest := none
  /-- Odometer tick of the epoch t0; EPOCH shows its seconds (06 R129 R132 R142). -/
  t0 : Nat := 0
  /-- complete window held and not yet used (06 R132). -/
  held : Option GuyWin := none
  /-- the current window is eligible so far (06 R131). -/
  eligible : Bool := false
  /-- temperature readings of the current window, one a second, 0.01 degC (06 R131). -/
  winTemps : List Int := []
  /-- TEMP_SRC 0 DIE, 1 ATOM_UART (06 R126 R143). -/
  tempAtom : Bool := false
  /-- TEMP_SRC was set by command (else the default of R126 follows the parser) (06 R126). -/
  tempSet : Bool := false
  /-- 1 bit MAIN_VALID / ATOM_VALID (06 R133 R142). -/
  valid : Bool := false
  deriving DecidableEq, Repr

/-- HOLD accounting of the running holdover. -/
structure HoldAnchor where
  /-- 64 bits, entry tick (06 R129). -/
  entryOdo : Nat := 0
  /-- flywheel in use (06 R135). -/
  flyAtom : Bool := false
  /-- HOLD carried from ATOM at tau_L, in units of holdUnit (06 R136). -/
  base : Nat := 0
  /-- 64 bits, tick of the (re-)anchoring (06 R129 R136). -/
  anchorOdo : Nat := 0
  /-- temperature part of HOLD, 10^-20 s (06 R129). -/
  tempTerm : Nat := 0
  deriving DecidableEq, Repr


/-- The ATOM model at reset: the prior defaults of 06 R143. -/
def guyAtomReset : GuyModel :=
  { uY := 10000000, uA1 := 5000000, uA2 := 1000000, uCT := 100000, noiseY := 500000,
    pUY := 10000000, pUA1 := 5000000, pUA2 := 1000000, pUCT := 100000 }

/-- Guyline holdover. -/
structure GuySt where
  /-- MAIN model (06 R124). -/
  main : GuyModel := {}
  /-- ATOM model (06 R124). -/
  atom : GuyModel := guyAtomReset
  /-- operating-hours meter at the latest save, s (06 R134). -/
  savedAt : Nat := 0
  /-- 1 bit (06 R142). -/
  atomEn : Bool := false
  /-- 1 bit (06 R142). -/
  atomPresent : Bool := false
  /-- 1 bit (06 R142). -/
  atomLock : Bool := true
  /-- consecutive missing ATOM_IN edges (06 R125). -/
  missEdges : Nat := 0
  /-- OSC_MAIN against ATOM_IN of the last second, 10^-15 signed; TIME_GUY_ATOM saturates it to 32 bits (06 R124 R130 TIME_GUY_ATOM). -/
  atomFreq : Int := 0
  /-- last 10 s of OSC_MAIN against ATOM_IN, 10^-15, newest first (06 R136). -/
  atomFreqHist : List Int := []
  /-- time of the flywheel as its model predicts it, at the last steering boundary, 2^-48 ns (04 R88 R92, 10 R214). -/
  flyTime : Int := 0
  /-- 52 bits, its predicted advance per Odometer tick in the present steering period (04 R88). -/
  flyInc : Nat := 0x147AE147AE148
  /-- OSC_MAIN against ATOM_IN in the seconds of the current learning window, 10^-15 (06 R124 R131). -/
  atomWin : List Int := []
  /-- 64 bits, tick at which ATOM_VALID last cleared (06 R136). -/
  atomLostOdo : Nat := 0
  /-- 16 bits signed, last valid die reading (06 TIME_GUY_TEMP). -/
  dieTemp : Int := 0
  /-- 16 bits signed, last valid ATOM_UART temperature (06 TIME_GUY_TEMP). -/
  uartTemp : Int := 0
  /-- 1 bit (06 R126 TEMP_OK). -/
  dieTempOk : Bool := false
  /-- 1 bit (06 R126 TEMP_OK). -/
  uartTempOk : Bool := false
  /-- polls begun since the last valid temperature (06 R126). -/
  uartMiss : Nat := 0
  /-- seconds without a die reading (06 R126). -/
  dieMiss : Nat := 0
  /-- parser configuration (06 R127). -/
  uart : Option GuyUart := none
  /-- query bytes last sent on ATOM_TXD (06 R127). -/
  queryOut : List (BitVec 8) := []
  /-- a response is awaited in this poll period (06 R127). -/
  awaiting : Bool := false
  /-- 32 bits, 0.25 ns (06 R138). -/
  oosLimit : Nat := 6000
  /-- 1 bit (06 TIME_GUY_CFG). -/
  policyContinue : Bool := false
  /-- 4 bits (06 TIME_GUY_CFG). -/
  learnRankMax : Nat := 5
  /-- 10 bits (06 TIME_GUY_CFG). -/
  learnMin : Nat := 24
  /-- 7 bits (06 TIME_GUY_CFG). -/
  learnRestore : Nat := 4
  /-- 7 bits, K (06 TIME_GUY_CFG). -/
  tempSpan : Nat := 10
  /-- running holdover (06 R129 R135). -/
  hold : Option HoldAnchor := none
  /-- 32 bits saturating, s (06 R137). -/
  age : Nat := 0
  /-- 1 bit HOLDOVER_OOS (06 R138). -/
  oos : Bool := false
  /-- HOLD of the last holdover boundary, 0.25 ns (06 R140). -/
  lastHold : Nat := 0
  /-- 32 bits signed, 0.25 ns (06 TIME_GUY_RET). -/
  ret : Int := 0
  /-- 32 bits, 0.25 ns (06 TIME_GUY_RET_HOLD). -/
  retHold : Nat := 0
  /-- 1 bit (06 R140). -/
  modelExceeded : Bool := false
  deriving DecidableEq, Repr

/-- One PPSOUT output. -/
structure PpsOut where
  /-- 1 bit (07 R163 MILE_PPSk_CFG). -/
  en : Bool := false
  /-- 1 bit (07 R163). -/
  inv : Bool := false
  /-- 1 bit (07 R163). -/
  acqQuiet : Bool := false
  /-- 29 bits, 100 ns (07 R147). -/
  width : Nat := 1000
  /-- ps signed (07 R146). -/
  cable : Int := 0
  /-- ps signed, from the calibration record (07 R146). -/
  outDelay : Int := 0
  /-- Odometer position of the last launch, 1/256 tick (07 R145 R146). -/
  launch : Int := 0
  /-- Odometer position at which the pulse in progress ends, 1/256 tick (07 R145 R147). -/
  pulseEnd : Option Int := none
  /-- Odometer position of the start of the last edge, 1/256 tick (07 R148). -/
  lastStart : Option Int := none
  /-- a step was applied since the last edge (07 R148). -/
  resync : Bool := false
  /-- pulses emitted (the pin's history) (07 R147). -/
  edges : Nat := 0
  deriving DecidableEq, Repr

/-- One FREQOUT output. -/
structure FreqOut where
  /-- 1 bit (07 R163 MILE_FREQj_CFG). -/
  en : Bool := false
  /-- 1 bit (07 R163). -/
  hcsl : Bool := false
  /-- 1 bit (07 R163). -/
  acqQuiet : Bool := false
  /-- 32 bits, Hz (07 R163 MILE_FREQj_HZ). -/
  hz : Nat := 0
  /-- F to take effect at the next second boundary (07 R150). -/
  hzNext : Option Nat := none
  /-- ps signed (07 R146). -/
  cable : Int := 0
  /-- ps signed (07 R146). -/
  outDelay : Int := 0
  /-- 1 bit (07 MILE_STAT.FREQ_RUN). -/
  run : Bool := false
  /-- counter value of the last start or restart of the grid, 2^-48 ns (07 R149 R150). -/
  rephase : Nat := 0
  /-- counter value at which the low level before that restart begins, 2^-48 ns (07 R150). -/
  lowStart : Int := 0
  /-- the level that ends there is high (07 R150). -/
  tailHigh : Bool := false
  deriving DecidableEq, Repr

/-- One TODOUT line. -/
structure TodOut where
  /-- 1 bit (07 R163 MILE_TODj_CFG). -/
  en : Bool := false
  /-- 1 bit (07 R163). -/
  utc : Bool := false
  /-- 3 bits (07 R151). -/
  baud : Nat := 4
  /-- 10 bits, ms (07 R151). -/
  delay : Nat := 100
  /-- message last sent, 20 bytes (07 R152). -/
  last : List (BitVec 8) := []
  /-- Odometer tick of the first start bit of that message (07 R151). -/
  start : Nat := 0
  /-- counter value at which the message composed at the second boundary starts, 2^-48 ns, and the message (07 R151 R153). -/
  pending : Option (Nat × List (BitVec 8)) := none
  deriving DecidableEq, Repr

/-- One capture. -/
structure CapEntry where
  /-- counter value of the edge, 2^-48 ns (07 R159). -/
  cnt : Nat := 0
  /-- 64 bits (07 R159). -/
  odo : Nat := 0
  /-- 1 bit (07 R159). -/
  falling : Bool := false
  /-- 3 bits (07 R159). -/
  mode : Nat := 0
  deriving DecidableEq, Repr

/-- One Milestone channel. -/
structure EvtCh where
  /-- 2 bits (07 MILE_EVTn_CFG). -/
  dir : Nat := 0
  /-- 2 bits (07 MILE_EVTn_CFG). -/
  kind : Nat := 0
  /-- 1 bit ARM / ARMED (07 MILE_EVTn_CFG STAT). -/
  armed : Bool := false
  /-- 1 bit (07 MILE_EVTn_CFG). -/
  cont : Bool := false
  /-- 1 bit (07 MILE_EVTn_CFG). -/
  pol : Bool := false
  /-- 2 bits (07 MILE_EVTn_CFG). -/
  edge : Nat := 0
  /-- 1 bit (07 MILE_EVTn_CFG). -/
  irq : Bool := false
  /-- 16 bits ticks (07 MILE_EVTn_CFG). -/
  width : Nat := 0
  /-- 32 bits (07 R163 MILE_EVTn_TGT_LO). -/
  tgtLo : BitVec 32 := 0#32
  /-- 16 bits used: TGT[39:32], FINE (07 R163 MILE_EVTn_TGT_HI). -/
  tgtHi : BitVec 32 := 0#32
  /-- 32 bits (07 R163 MILE_EVTn_PER). -/
  per : BitVec 32 := 0#32
  /-- 16 bits used (07 R163 MILE_EVTn_PER_FRAC). -/
  perFrac : BitVec 32 := 0#32
  /-- 32 bits, edges remaining (07 R163 MILE_EVTn_COUNT). -/
  count : Nat := 0
  /-- edges emitted of a PERIODIC_ODO schedule, index within the second of a PERIODIC_TIME one (07 R155). -/
  k : Nat := 0
  /-- second of the running PERIODIC_TIME schedule (07 R155). -/
  startSec : Nat := 0
  /-- TAI target held by firmware, 2^-48 ns (07 R158). -/
  tai : Option Nat := none
  /-- Odometer position of TGT of the running schedule, 1/256 tick (07 R155 R157). -/
  base : Int := 0
  /-- 64 bits, tick before which no edge of the schedule falls (07 R157). -/
  notBefore : Nat := 0
  /-- Odometer position at which the pulse in progress ends, 1/256 tick (07 R145 R157). -/
  pulseEnd : Option Int := none
  /-- Odometer position of the last edge, 1/256 tick (07 R145 R155). -/
  lastStart : Option Int := none
  /-- ps signed (07 R159 R163 MILE_EVTn_IN_DELAY). -/
  inDelay : Int := 0
  /-- up to 16 entries, oldest first (07 R160). -/
  fifo : List CapEntry := []
  /-- Odometer position of the previous accepted edge, 1/8 tick (07 R159). -/
  lastEdge : Option Nat := none
  /-- shadow registers of the popped entry (07 R160). -/
  shadow : CapEntry := {}
  /-- 1 bit VALID of CAP_FLAGS (07 R160). -/
  shadowValid : Bool := false
  deriving DecidableEq, Repr

/-- MILE block. -/
structure MileSt where
  /-- 4 outputs (07 R147). -/
  pps : Vector PpsOut 4 := Vector.replicate 4 {}
  /-- 2 outputs (07 R149). -/
  freq : Vector FreqOut 2 := Vector.replicate 2 {}
  /-- 2 lines (07 R151). -/
  tod : Vector TodOut 2 := Vector.replicate 2 {}
  /-- 16 channels (07 R155). -/
  evt : Vector EvtCh 16 := Vector.replicate 16 {}
  /-- 6 bits, Hz (07 R163 MILE_EPOCH_CFG). -/
  epochRate : Nat := 0
  /-- 1 bit (07 R163 MILE_EPOCH_CFG). -/
  epochEn : Bool := false
  /-- RATE and EN to take effect at the next second boundary (07 R161). -/
  epochNext : Option (Nat × Bool) := none
  /-- index within the second of the next epoch (07 R161). -/
  epochK : Nat := 0
  /-- MEAS_EPOCH events raised (07 R161). -/
  epochs : Nat := 0
  /-- 1 bit, level of OE_TIMING (07 MILE_STAT.OE, R154). -/
  oe : Bool := false
  /-- running loop-back measurement (requesting slot, tag, arguments) (07 R164 R171). -/
  outCal : Option OutCal := none
  /-- count TOD_BAD (07 R153). -/
  todBad : Nat := 0
  deriving DecidableEq, Repr

/-- One meter result. -/
structure TdcRes where
  /-- 48 bits signed, ps (08 R173 R177). -/
  value : Int := 0
  /-- 9 bits used, VALID clear (08 TDC_CHn_FLAGS). -/
  flags : BitVec 32 := 0#32
  deriving DecidableEq, Repr

/-- One meter channel. -/
structure TdcCh where
  /-- 2 bits (08 TDC_CHn_CFG). -/
  mode : Nat := 0
  /-- 1 bit (08 TDC_CHn_CFG). -/
  arm : Bool := false
  /-- 1 bit (08 TDC_CHn_CFG). -/
  cont : Bool := false
  /-- 1 bit (08 TDC_CHn_CFG). -/
  irq : Bool := false
  /-- 1 bit TB_SEL (08 TDC_CHn_CFG). -/
  tbInternal : Bool := false
  /-- 6 bits (08 TDC_CHn_CFG). -/
  startSrc : Nat := 0
  /-- 1 bit (08 TDC_CHn_CFG). -/
  startFall : Bool := false
  /-- 6 bits (08 TDC_CHn_CFG). -/
  stopSrc : Nat := 0
  /-- 1 bit (08 TDC_CHn_CFG). -/
  stopFall : Bool := false
  /-- 21 bits, us (08 R177 TDC_CHn_TIMEOUT). -/
  timeout : Nat := 0
  /-- 24 bits (08 R177 TDC_CHn_COUNT). -/
  count : Nat := 0
  /-- 16 bits signed, ps (08 R177 TDC_CHn_SKEW). -/
  skew : Int := 0
  /-- 1 bit (08 TDC_CHn_STAT). -/
  busy : Bool := false
  /-- up to 8 entries, oldest first (08 R176). -/
  fifo : List TdcRes := []
  /-- RES_LO, RES_HI and FLAGS of the popped entry (08 R176). -/
  shadow : TdcRes := {}
  /-- 1 bit (08 TDC_CHn_FLAGS). -/
  shadowValid : Bool := false
  /-- latest result delivered to firmware (channels 0-5) (08 R170). -/
  last : Option TdcRes := none
  /-- 1 bit (08 TDC_STAT). -/
  dllLock : Bool := false
  /-- the DLL has left lock and not regained it (08 R168). -/
  dllOut : Bool := false
  /-- the DLL was out of lock during the present measurement (08 R173). -/
  dllBad : Bool := false
  deriving DecidableEq, Repr

/-- TDC block. -/
structure TdcSt where
  /-- 8 channels (08 R170 R177). -/
  ch : Vector TdcCh 8 := Vector.replicate 8 {}
  /-- 2 bits (08 R177 TDC_TB_CFG). -/
  tbNom : Nat := 0
  /-- 1 bit (08 R177 TDC_TB_CFG). -/
  tbEn : Bool := false
  /-- 1 bit (08 TDC_STAT). -/
  tbPresent : Bool := false
  /-- 1 bit (08 TDC_STAT). -/
  f1Present : Bool := false
  /-- what the monitor of FREQIN0 last said, whatever its enable (08 R174 R175). -/
  tbSeen : Bool := false
  /-- Odometer tick at which FREQIN0 last went absent (08 R175). -/
  tbGoneAt : Nat := 0
  /-- 12 bits, s (08 R167). -/
  calPeriod : Nat := 10
  /-- Odometer ticks at which the four lines in service of each channel were calibrated, longest in service first (08 R167, TDC_STAT.CAL_AGE). -/
  lines : Vector (List Nat) 8 := Vector.replicate 8 (List.replicate 4 0)
  /-- ICP_TDC_MEASURE waiting on channel 6, 7 (slot and tag) (08 R178). -/
  measure : Vector (Option CmdRef) 2 := Vector.replicate 2 none
  /-- 1 bit, held by ICP_OUT_CALIBRATE (08 R171). -/
  ch6Held : Bool := false
  deriving DecidableEq, Repr

/-- One GNSS sample stream. -/
structure FeStream where
  /-- 1 bit (09 GNSS_FEs_CFG). -/
  en : Bool := false
  /-- 1 bit (09 GNSS_FEs_CFG). -/
  format : Bool := false
  /-- 1 bit (09 GNSS_FEs_CFG). -/
  qInv : Bool := false
  /-- 1 bit (09 GNSS_FEs_CFG). -/
  iqSwap : Bool := false
  /-- 4 bits (09 GNSS_FEs_CFG). -/
  capPhase : Nat := 0
  /-- 4 bits (09 GNSS_FEs_CFG). -/
  feLat : Nat := 0
  /-- 32 bits signed, Hz (09 R186 GNSS_FEs_IF). -/
  ifHz : Int := 0
  /-- 16 bits (09 R183 GNSS_FEs_MAG). -/
  magI : Nat := 0
  /-- 16 bits (09 R183 GNSS_FEs_MAG). -/
  magQ : Nat := 0
  /-- 1 bit (09 R183 GNSS_STAT). -/
  stuck : Bool := false
  /-- consecutive periods the I count was 0 or 62,500 (09 R183). -/
  badRunI : Nat := 0
  /-- consecutive periods the Q count was 0 or 62,500 (09 R183). -/
  badRunQ : Nat := 0
  /-- sign of the last I value (09 R183). -/
  lastI : Bool := false
  /-- sign of the last Q value (09 R183). -/
  lastQ : Bool := false
  /-- consecutive samples of that sign (09 R183). -/
  signI : Nat := 0
  /-- consecutive samples of that sign (09 R183). -/
  signQ : Nat := 0
  /-- consecutive periods in which neither condition held (09 R183). -/
  goodRun : Nat := 0
  /-- unflagged seconds of p, units of 1/125,000, newest first, up to 86,400 (10 R213). -/
  agcBase : List Nat := []
  /-- consecutive seconds beyond (or within) AGC_DEV (10 R213). -/
  agcRun : Nat := 0
  /-- 1 bit (10 R213 GNSS_GUARD_STAT.AGC). -/
  agcFlag : Bool := false
  deriving DecidableEq, Repr

/-- One dump record. -/
structure DumpRec where
  /-- where the record lies in management SRAM (09 R197). -/
  addr : Nat := 0
  /-- 8 bits (09 R196). -/
  chan : Nat := 0
  /-- 8 bits (09 R196). -/
  flags : BitVec 8 := 0#8
  /-- 16 bits (09 R196). -/
  seq : Nat := 0
  /-- 32 bits (09 R196). -/
  samples : Nat := 0
  /-- 64 bits (09 R196). -/
  scnt : Nat := 0
  /-- 16 bits (09 R196). -/
  chip : Nat := 0
  /-- 4 bits (09 R196). -/
  sig : Nat := 0
  /-- 6 bits (09 R196). -/
  prn : Nat := 0
  /-- 32 bits (09 R196). -/
  chipFrac : Nat := 0
  /-- 32 bits (09 R196). -/
  carrCyc : BitVec 32 := 0#32
  /-- 32 bits (09 R196). -/
  carrFrac : BitVec 32 := 0#32
  /-- eight in-phase and quadrature sums, 32 bits signed (09 R194 R196). -/
  lanes : List (Int × Int) := []
  deriving DecidableEq, Repr

/-- One dump ring in management SRAM. -/
structure DumpRing where
  /-- 32 bits (09 GNSS_RINGc_BASE). -/
  base : BitVec 32 := 0#32
  /-- 13 bits, records (09 R197). -/
  size : Nat := 1024
  /-- 13 bits, DUMP_READY threshold (09 GNSS_RINGc_SIZE). -/
  thr : Nat := 0
  /-- 12 bits (09 GNSS_RINGc_IDX). -/
  widx : Nat := 0
  /-- 12 bits (09 GNSS_RINGc_IDX). -/
  ridx : Nat := 0
  /-- 32 bits saturating (09 GNSS_RINGc_LOST). -/
  lost : Nat := 0
  /-- records held, oldest first (09 R197). -/
  recs : List DumpRec := []
  deriving DecidableEq, Repr

/-- Staged channel values. -/
structure GnssStaged where
  /-- 0 TRACK 1 SEARCH (09 R192 CH_CTRL.MODE). -/
  mode : Bool := false
  /-- 48 bits (09 R188). -/
  codeRate : Nat := 0
  /-- 32 bits signed (09 R189). -/
  carrRate : BitVec 32 := 0#32
  /-- 32 bits signed, 2^-16 chip (09 R190). -/
  codeAdj : BitVec 32 := 0#32
  /-- 32 bits signed, 2^-32 cycle (09 R190). -/
  carrAdj : BitVec 32 := 0#32
  /-- VE E L VL D1 D2 D3, 16 bits signed, 1/256 chip (09 R191). -/
  lanes : List Int := [-128, -32, 32, 128, -64, 64, 192]
  /-- 9 bits (09 R192). -/
  searchStep : Nat := 1
  deriving DecidableEq, Repr

/-- One tracking channel. -/
structure GnssCh where
  /-- 1 bit (09 CH_CTRL). -/
  en : Bool := false
  /-- 4 bits (09 CH_CTRL). -/
  sig : Nat := 0
  /-- 6 bits (09 CH_CTRL). -/
  prn : Nat := 0
  /-- 1 bit (09 CH_STAT). -/
  run : Bool := false
  /-- 1 bit APPLY (09 CH_STAT, CH_CMD). -/
  pending : Bool := false
  /-- 1 bit (09 CH_STAT). -/
  stale : Bool := false
  /-- 1 bit (09 CH_STAT). -/
  rateClamp : Bool := false
  /-- 1 bit (09 CH_STAT). -/
  adjErr : Bool := false
  /-- 1 bit (09 CH_STAT). -/
  cfgErr : Bool := false
  /-- which of the three hardware has set since the latest report of CH_STAT (19 R422). -/
  again : BitVec 3 := 0#3
  /-- staged values (09 R190). -/
  staged : GnssStaged := {}
  /-- mode in force (09 R192). -/
  curMode : Bool := false
  /-- 48 bits, rate in force (09 CUR_CODE_RATE). -/
  codeRate : Nat := 0
  /-- rate in force (09 CUR_CARR_RATE). -/
  carrRate : BitVec 32 := 0#32
  /-- offsets in force (09 R191). -/
  lanesCur : List Int := [-128, -32, 32, 128, -64, 64, 192]
  /-- search step in force (09 R192). -/
  stepCur : Nat := 1
  /-- code phase, 2^-48 chip (index 16 bits, fraction 48) (09 R188). -/
  code : Nat := 0
  /-- carrier cycles 32 and fraction 32 (09 R189). -/
  carr : BitVec 64 := 0#64
  /-- 32 bits (09 EPOCH_CNT). -/
  epochCnt : BitVec 32 := 0#32
  /-- SCNT of the sample the phases stand at (09 R193). -/
  scnt : Nat := 0
  /-- samples since the last boundary (09 R193). -/
  since : Nat := 0
  /-- 16 bits (09 DUMP_CNT). -/
  seq : Nat := 0
  /-- a CODE_ADJ has moved the phase back past the boundary just closed (09 R193). -/
  skip : Bool := false
  /-- projection of each lane on prompt over the dumps of the present second (10 R212). -/
  corr : List Int := []
  /-- 16 bits saturating (09 DUMP_CNT). -/
  lost : Nat := 0
  /-- next record carries LOST_BEFORE (09 R197). -/
  lostBefore : Bool := false
  /-- next record carries RESUMED (10 R219). -/
  resumed : Bool := false
  /-- 16 bits, 0.01 dB-Hz (10 R204). -/
  cn0 : Nat := 0
  /-- LOCK bit kept by firmware (10 R204). -/
  lock : Bool := false
  /-- seconds beyond (or within) DIST_LIMIT (10 R212). -/
  distRun : Nat := 0
  /-- flagged distorted (10 R212). -/
  dist : Bool := false
  /-- 32 bits, second count when EN rose (09 R201). -/
  secs : Nat := 0
  deriving DecidableEq, Repr

/-- A front-end SPI transaction waiting or in progress. -/
structure SpiTxn where
  /-- the host command, none for firmware (09 R185). -/
  cmd : Option CmdRef := none
  /-- chip select (09 R184). -/
  cs : Bool := false
  /-- SPI mode 3, else mode 0 (09 R184). -/
  mode3 : Bool := false
  /-- 8 bits, DIV (09 R184). -/
  div : Nat := 7
  /-- bytes to send (09 R184). -/
  bytes : List (BitVec 8) := []
  deriving DecidableEq, Repr

/-- One measurement entry. -/
structure MeasEntry where
  /-- 8 bits (10 R207). -/
  chan : Nat := 0
  /-- 8 bits (10 R207). -/
  flags : BitVec 8 := 0#8
  /-- 4 bits (10 R207). -/
  sig : Nat := 0
  /-- 6 bits (10 R207). -/
  prn : Nat := 0
  /-- chip index and fraction (10 R207). -/
  code : Nat := 0
  /-- 32 bits (10 R207). -/
  epochCnt : BitVec 32 := 0#32
  /-- cycles and fraction (10 R207). -/
  carr : BitVec 64 := 0#64
  /-- 32 bits (10 R207). -/
  carrRate : BitVec 32 := 0#32
  /-- 16 bits (10 R207). -/
  cn0 : Nat := 0
  deriving DecidableEq, Repr

/-- One measurement bank. -/
structure MeasBank where
  /-- 1 bit B0_FULL / B1_FULL (10 GNSS_MEAS_STAT). -/
  full : Bool := false
  /-- 32 bits (10 R206). -/
  seq : Nat := 0
  /-- 16 bits (10 R206). -/
  flags : BitVec 16 := 0#16
  /-- 8 bits (10 R206). -/
  validCnt : Nat := 0
  /-- 8 bits (10 R206). -/
  mode : Nat := 0
  /-- counter time of the epoch, 2^-48 ns (10 R206). -/
  cnt : Nat := 0
  /-- 16 bits, 1/256 tick (10 R203 R206). -/
  latOfs : Nat := 0
  /-- 64 bits (10 R206). -/
  odo : Nat := 0
  /-- 64 bits (10 R206). -/
  scnt : Nat := 0
  /-- Hz (10 R206). -/
  if0 : Int := 0
  /-- Hz (10 R206). -/
  if1 : Int := 0
  /-- 32 bits (10 R206). -/
  errb : Nat := 0
  /-- 128 entries (10 R207). -/
  entries : List MeasEntry := []
  deriving DecidableEq, Repr

/-- Spoof guard. -/
structure GuardSt where
  /-- guard enable flag (10 R223). -/
  en : Bool := true
  /-- 2 bits (10 GNSS_GUARD_STAT). -/
  state : Nat := 0
  /-- 1 bit (10 GNSS_GUARD_STAT). -/
  flyAtom : Bool := false
  /-- 1 bit (10 GNSS_GUARD_STAT). -/
  latch : Bool := false
  /-- evidence present without a failed test (10 R216). -/
  suspectNow : Bool := false
  /-- 32 bits signed, 0.25 ns (10 GNSS_GUARD_D). -/
  d : Int := 0
  /-- 32 bits, 0.25 ns (10 GNSS_GUARD_LIM). -/
  lim : Nat := 0
  /-- evaluations since the anchor, or since a change of flywheel in FAIL or HELD (10 R214 R215). -/
  tau : Nat := 0
  /-- evaluations since the start of the window in progress (10 R215). -/
  winAge : Nat := 0
  /-- temperature part of HOLD since the anchor, 10^-20 s (10 R214, 06 R129). -/
  temp : Nat := 0
  /-- temperature part of HOLD since the start of the window in progress, 10^-20 s (10 R215). -/
  winTemp : Nat := 0
  /-- ps, departure at the anchor, from which D is counted (10 R214). -/
  dBase : Int := 0
  /-- ps, departure at the start of the window in progress (10 R215). -/
  winBase : Int := 0
  /-- HOLD carried from the old model at a change of flywheel, in units of holdUnit (10 R215). -/
  holdBase : Nat := 0
  /-- evaluations passed in FAIL (10 R217). -/
  passRun : Nat := 0
  /-- 32 bits, ns (10 R214). -/
  spoofLimit : Nat := 50
  /-- 32 bits, s (10 R215). -/
  window : Nat := 3600
  deriving DecidableEq, Repr

/-- Burst tracking. -/
structure BurstSt where
  /-- 1 bit (10 GNSS_BURST_CFG). -/
  en : Bool := false
  /-- 1 bit (10 GNSS_BURST_CFG). -/
  active : Bool := false
  /-- 2 bits (10 GNSS_BURST_CFG). -/
  exitCause : Nat := 0
  /-- exit cause waiting for the next second boundary, 0 none (10 R220). -/
  exitPending : Nat := 0
  /-- 9 bits, ms (10 GNSS_BURST_CFG). -/
  lead : Nat := 50
  /-- 9 bits, ms (10 GNSS_BURST_CFG). -/
  w : Nat := 100
  /-- a window is open (10 R218). -/
  windowOpen : Bool := false
  /-- the next latch carries RESUMED (10 R218). -/
  firstLatch : Bool := false
  /-- SCNT at the window close (10 R219). -/
  closedAt : Nat := 0
  deriving DecidableEq, Repr

/-- GNSS block. -/
structure GnssSt where
  /-- 1 bit (09 R180). -/
  clkEn : Bool := true
  /-- 1 bit (09 GNSS_FE_CTRL). -/
  spiMode3 : Bool := false
  /-- 8 bits (09 R184 GNSS_FE_CTRL). -/
  spiDiv : Nat := 7
  /-- 4 bits (09 GNSS_CLUSTER_EN). -/
  clusterEn : BitVec 4 := 0#4
  /-- 2 streams (09 R181). -/
  fe : Vector FeStream 2 := Vector.replicate 2 {}
  /-- 4 rings (09 R197). -/
  ring : Vector DumpRing 4 := Vector.replicate 4 {}
  /-- front-end transactions, the one in progress first (09 R185). -/
  spi : List SpiTxn := []
  /-- 11 bits (09 R201). -/
  sigMask : BitVec 11 := 0x7FF#11
  /-- 4 bits (09 R201). -/
  clusterMask : BitVec 4 := 0xF#4
  /-- 128 channels (09 R187 R198). -/
  chans : Vector GnssCh 128 := Vector.replicate 128 {}
  /-- 32 bits (10 GNSS_MEAS_BASE). -/
  measBase : BitVec 32 := 0#32
  /-- 2 banks (10 R205). -/
  bank : Vector MeasBank 2 := Vector.replicate 2 {}
  /-- CLAIM and CLAIMED (10 GNSS_MEAS_STAT). -/
  claim : Option (Fin 2) := none
  /-- bank of the latest complete latch (10 R205). -/
  latest : Option (Fin 2) := none
  /-- epochs latched since PD_GNSS was powered (10 R206). -/
  measSeq : Nat := 0
  /-- 32 bits saturating (10 GNSS_MEAS_OVR). -/
  measOvr : Nat := 0
  /-- latest 32 epochs with their Odometer tick and the position state they were latched under (10 R204 R210). -/
  recent : List (Nat × Nat × Nat) := []
  /-- a step since the previous latched epoch (10 R206). -/
  steppedSince : Bool := false
  /-- latest report (10 R209). -/
  sol : SolReport := {}
  /-- latest valid report of an epoch at a second boundary, which Signpost uses (10 R208). -/
  feed : SolReport := {}
  /-- s since the last valid solution of an epoch at a second boundary, saturating (04 R86, 10 R208). -/
  solAge : Nat := 0xFFFF
  /-- Odometer tick of the last valid solution (10 GNSS_SOL_STAT.VALID). -/
  validAt : Option Nat := none
  /-- none, some false survey, some true fixed (10 R210). -/
  posMode : Option Bool := none
  /-- X, Y, Z in mm, signed 64 bits (10 R223). -/
  pos : Int × Int × Int := (0, 0, 0)
  /-- mm (10 R223). -/
  posUnc : Nat := 0
  /-- s (10 R210). -/
  surveyTime : Nat := 86400
  /-- s (10 R210). -/
  surveyLeft : Nat := 0
  /-- ps (10 R223). -/
  delay0 : Int := 0
  /-- ps (10 R223). -/
  delay1 : Int := 0
  /-- 0.25 ns (10 R223). -/
  delayUnc : Nat := 0
  /-- 16 bits, ns (10 R211). -/
  traimLimit : Nat := 60
  /-- 8 bits (10 R211). -/
  traimMaxExcl : Nat := 2
  /-- 16 bits (10 R212). -/
  distLimit : Nat := 50
  /-- 8 bits (10 R213). -/
  distMin : Nat := 3
  /-- 16 bits (10 R213). -/
  agcDev : Nat := 50
  /-- guard (10 R214). -/
  guard : GuardSt := {}
  /-- burst tracking (10 R218). -/
  burst : BurstSt := {}
  deriving DecidableEq, Repr

/-- A descriptor posted in a transmit ring that has not completed. -/
structure TxEnt where
  /-- its index, free-running (18 R400). -/
  idx : BitVec 32 := 0#32
  /-- the descriptor (11 R233). -/
  d : TxDesc := {}
  /-- its frame has been taken into the general pool (11 R232). -/
  taken : Bool := false
  /-- STATUS, while an earlier descriptor of the ring is pending (11 R234). -/
  status : Option Nat := none
  deriving DecidableEq, Repr

/-- A transmit descriptor written back. -/
structure TxDone where
  /-- its index (18 R400). -/
  idx : BitVec 32 := 0#32
  /-- the descriptor as posted (11 R233). -/
  d : TxDesc := {}
  /-- STATUS, 16 bits (11 R233). -/
  status : Nat := 0
  deriving DecidableEq, Repr

/-- A host transmit ring of one slot on one port. -/
structure TxRing where
  /-- descriptors (11 R236 R246). -/
  count : Nat := 0
  /-- 64 bits (11 R246). -/
  base : BitVec 64 := 0#64
  /-- index-writeback address, 64 bits (11 R246). -/
  wb : BitVec 64 := 0#64
  /-- producer index, free-running (18 R400). -/
  pi : BitVec 32 := 0#32
  /-- consumer index, free-running; the word last written to the index-writeback address (18 R400). -/
  ci : BitVec 32 := 0#32
  /-- the descriptors from CI to PI, in ring order (11 R233 R234). -/
  ents : List TxEnt := []
  /-- what the ring's elements hold as written back, the latest first, at most one per element (11 R233). -/
  back : List TxDone := []
  deriving DecidableEq, Repr

/-- A receive descriptor written. -/
structure RxDone where
  /-- its index (18 R400). -/
  idx : BitVec 32 := 0#32
  /-- BUF_ADDR as the host wrote it (11 R236). -/
  buf : BitVec 64 := 0#64
  /-- 16 bits (11 R236). -/
  len : Nat := 0
  /-- FLAGS bit 1 (11 R236). -/
  vlan : Bool := false
  /-- FLAGS bit 2 (11 R236). -/
  arpNd : Bool := false
  /-- arrival, 2^-48 ns (11 R236). -/
  stamp : Nat := 0
  /-- 0.25 ns (11 R236). -/
  errb : Nat := 0
  deriving DecidableEq, Repr

/-- A host receive ring of one slot on one port. -/
structure RxRing where
  /-- descriptors (11 R236 R246). -/
  count : Nat := 0
  /-- KiB (11 R236). -/
  bufKiB : Nat := 0
  /-- 64 bits (11 R246). -/
  base : BitVec 64 := 0#64
  /-- index-writeback address, 64 bits (11 R246). -/
  wb : BitVec 64 := 0#64
  /-- producer index, free-running; the word last written to the index-writeback address (18 R400). -/
  pi : BitVec 32 := 0#32
  /-- consumer index, free-running, as the host gave it last (18 R400). -/
  ci : BitVec 32 := 0#32
  /-- what the ring's elements hold as written, the latest first, at most one per element (11 R236). -/
  back : List RxDone := []
  deriving DecidableEq, Repr

/-- A frame taken into the general pool of a port. -/
structure TxFrame where
  /-- host descriptor; none for device control, and for a started frame whose ring has gone (11 R231 R233). -/
  desc : Option TxDesc := none
  /-- index of the descriptor in its ring (18 R400). -/
  idx : BitVec 32 := 0#32
  /-- the MAC pads it (11 R234). -/
  pad : Bool := false
  /-- 0-6; 7 a PAUSE frame, ahead of queue 7 (11 R231 R239). -/
  queue : Nat := 0
  /-- bytes with FCS and padding (11 R234). -/
  len : Nat := 0
  /-- Odometer quarter-ticks at which it started on the wire (12 R250). -/
  start : Option Nat := none
  /-- counter value plus TX_LAT, 2^-48 ns (12 R250). -/
  stamp : Nat := 0
  /-- ERRB on the port at D (12 R260). -/
  errb : Nat := 0
  /-- device control or PAUSE frame (11 R231 R239). -/
  ctl : Option CtlFrame := none
  /-- quarter-ticks at which the fence first held it (12 R258 R264). -/
  held : Option Nat := none
  deriving DecidableEq, Repr

/-- One launch queue entry. -/
structure LaunchEnt where
  /-- launch slot, Odometer quarter-ticks (12 R255). -/
  d : Nat := 0
  /-- bytes (12 R255). -/
  len : Nat := 0
  /-- 64-byte cells (12 R256). -/
  cells : Nat := 0
  /-- transmit stamp, 2^-48 ns (12 R257). -/
  stamp : Nat := 0
  /-- complete in the launch pool (12 R257). -/
  complete : Bool := false
  /-- quarter-ticks before which it is not complete (12 R257, 22 R464). -/
  ready : Nat := 0
  /-- its pool deadline has passed (12 R257). -/
  checked : Bool := false
  /-- host slot of the transaction or PTP instance (12 R265). -/
  owner : Nat := 0
  /-- identifier of the transaction or message (13 R282, 14 R314). -/
  txn : Nat := 0
  /-- a calibration frame: its stamp is raw (12 R253). -/
  cal : Bool := false
  deriving DecidableEq, Repr

/-- A reservation attempt waiting. -/
structure WaitRes where
  /-- identifier (12 R256). -/
  txn : Nat := 0
  /-- bytes (12 R256). -/
  len : Nat := 0
  /-- Odometer position of the arrival stamp or the visit, 1/33 ps (12 R256). -/
  arrival : Int := 0
  /-- host slot (12 R265). -/
  owner : Nat := 0
  deriving DecidableEq, Repr

/-- Calibration record of one port, mode and FEC option. -/
structure PortCal where
  /-- ps (12 R253). -/
  txLat : Nat := 0
  /-- ps (12 R253). -/
  rxLat : Nat := 0
  /-- 0.25 ns (12 R253). -/
  unc : Nat := 0
  /-- PLANE_CONN (12 R253). -/
  conn : Bool := false
  /-- SerDes transmit equaliser settings (11 R225 R226). -/
  eq : List (BitVec 8) := []
  deriving DecidableEq, Repr

/-- One port (PORT block). -/
structure PortSt where
  /-- 2 bits (11 PORT_p_CFG). -/
  mode : Nat := 0
  /-- 1 bit (11 PORT_p_CFG). -/
  fec : Bool := false
  /-- 1 bit (11 PORT_p_CFG). -/
  an : Bool := true
  /-- 14 bits (11 PORT_p_CFG). -/
  maxFrame : Nat := 1522
  /-- 16 bits, ms (11 PORT_p_STAT). -/
  linkHold : Nat := 100
  /-- 48 bits (11 R245 PORT_p_MAC). -/
  mac : BitVec 48 := 0#48
  /-- 1 bit (11 PORT_p_STAT). -/
  link : Bool := false
  /-- 1 bit (11 PORT_p_STAT). -/
  pcsUp : Bool := false
  /-- 1 bit (11 PORT_p_STAT). -/
  cdrLock : Bool := false
  /-- 1 bit (11 PORT_p_STAT). -/
  wdTripped : Bool := false
  /-- 1 bit (11 PORT_p_STAT). -/
  xoffSent : Bool := false
  /-- 1 bit (11 PORT_p_STAT). -/
  pllLock : Bool := false
  /-- 1 bit (11 PORT_p_STAT). -/
  calMissing : Bool := false
  /-- fine phase detector has lost track (12 R263). -/
  phaseLost : Bool := false
  /-- the LINK_UP_HOLD timer runs (11 R228). -/
  holdRunning : Bool := false
  /-- 2 bits (11 R237 PORT_p_PAUSE). -/
  pauseScope : Nat := 1
  /-- 1 bit (11 R239). -/
  txPause : Bool := false
  /-- 10 bits, ms (11 R238). -/
  pauseWd : Nat := 20
  /-- 7 bits, KiB (11 R239). -/
  xoff : Nat := 64
  /-- 7 bits, KiB (11 R239). -/
  xon : Nat := 32
  /-- quanta loaded last, 0 once the pause timer has reached 0 (11 R237). -/
  pauseTimer : Nat := 0
  /-- Odometer tick of that load (11 R237). -/
  pauseAt : Nat := 0
  /-- Odometer tick up to which the paused time is counted (11 R244). -/
  pauseFrom : Nat := 0
  /-- paused time not yet counted in PAUSED_US, 1/25,000 us (11 R244). -/
  pauseRem : Nat := 0
  /-- Odometer tick from which the pause timer has stayed non-zero (11 R238). -/
  pauseSince : Nat := 0
  /-- 4 bits (11 PORT_p_ESMC_RX). -/
  ssm : Nat := 0xF
  /-- 1 bit (11 PORT_p_ESMC_RX). -/
  ssmExt : Bool := false
  /-- 8 bits (11 PORT_p_ESMC_RX). -/
  essm : Nat := 0xFF
  /-- Odometer tick of the last valid PDU; VALID and AGE follow from it (04 R86, 11 R241 R245). -/
  esmcAt : Option Nat := none
  /-- Odometer ticks of the valid PDUs of the last second, limit 10 (11 R241). -/
  esmcTimes : List Nat := []
  /-- 1 bit (11 R242). -/
  esmcEn : Bool := false
  /-- 1 bit (11 R242). -/
  txQlMode : Bool := false
  /-- 1 bit (11 PORT_p_ESMC_TX). -/
  extTlv : Bool := false
  /-- 4 bits (11 PORT_p_ESMC_TX). -/
  txSsm : Nat := 0
  /-- 8 bits (11 PORT_p_ESMC_TX). -/
  txEssm : Nat := 0
  /-- a change of the transmitted QL waits for its event PDU (11 R242). -/
  esmcEventDue : Bool := false
  /-- 17 bits, bytes (11 PORT_p_BUF). -/
  fill : Nat := 0
  /-- general pool fill, 64-byte cells (11 PORT_p_EBUF). -/
  genCells : Nat := 0
  /-- launch pool fill, 64-byte cells (11 PORT_p_EBUF). -/
  launchCells : Nat := 0
  /-- transmit ring per host slot (11 R233). -/
  txRing : Vector (Option TxRing) 8 := Vector.replicate 8 none
  /-- receive ring per host slot (11 R236). -/
  rxRing : Vector (Option RxRing) 8 := Vector.replicate 8 none
  /-- frames held in the general pool, oldest first (11 R232). -/
  txq : List TxFrame := []
  /-- host slot served last per queue 0-5 (11 R231). -/
  txTurn : Vector (Fin 8) 6 := Vector.replicate 6 7
  /-- device control frames the general pool has no room for yet (11 R231 R232). -/
  ctlPend : List CtlFrame := []
  /-- transmit equaliser settings in force (11 R225). -/
  eq : List (BitVec 8) := []
  /-- PAUSE, ESMC, announcement or calibration frame last sent (11 R239 R242, 12 R253, 15 R347). -/
  lastCtl : Option CtlFrame := none
  /-- Odometer quarter-ticks at which the wire is free (12 R255). -/
  wireFree : Nat := 0
  deriving DecidableEq, Repr

/-- PORT block. -/
structure PortBlk where
  /-- 4 ports (11 R225). -/
  p : Vector PortSt 4 := Vector.replicate 4 {}
  deriving DecidableEq, Repr

/-- One two-step entry. -/
structure TsqEnt where
  /-- 16 bits (12 R260). -/
  id : BitVec 16 := 0#16
  /-- owner (12 R260). -/
  slot : Fin 8 := 0
  /-- 3 bits (12 WAYP_p_TSQ_ID). -/
  queue : Nat := 0
  /-- 2^-48 ns (12 R260). -/
  stamp : Nat := 0
  /-- 32 bits (12 R260). -/
  errb : Nat := 0
  deriving DecidableEq, Repr

/-- Two-step state of one slot on one port. -/
structure TsqSlot where
  /-- 7 bits (12 R260). -/
  limit : Nat := 16
  /-- 16 bits saturating (12 R261). -/
  ovf : Nat := 0
  /-- 16 bits (12 WAYP_p_TSQ_OVF). -/
  ovfShadow : Nat := 0
  /-- entry popped last (12 R262). -/
  shadow : TsqEnt := {}
  /-- 1 bit (12 WAYP_p_TSQ_ID). -/
  shadowValid : Bool := false
  deriving DecidableEq, Repr

/-- A calibration series in progress. -/
structure WaypCal where
  /-- requesting command (12 R253 R266). -/
  cmd : CmdRef := {}
  /-- loop-back series (12 R266). -/
  loop_ : Bool := false
  /-- frames asked for (12 R266). -/
  n : Nat := 0
  /-- receive port of a loop-back series (12 R266). -/
  rx : Fin 4 := 0
  /-- frames not yet launched (12 R253 R266). -/
  left : Nat := 0
  /-- raw differences measured, ps: the offset of D, or receive minus transmit (12 R253). -/
  results : List Int := []
  /-- Odometer tick of the start of a loop-back series (12 R266). -/
  start : Nat := 0
  deriving DecidableEq, Repr


/-- Two-step limits at reset: 64 for slot 0, 16 otherwise (12 R260). -/
def tsqSlotsReset : Vector TsqSlot 8 := #v[{ limit := 64 }, {}, {}, {}, {}, {}, {}, {}]

/-- One port's Waypoint state. -/
structure WaypPort where
  /-- 32 bits, ps (12 WAYP_p_TXLAT). -/
  txLat : Nat := 0
  /-- 32 bits, ps (12 WAYP_p_RXLAT). -/
  rxLat : Nat := 0
  /-- 1 bit (12 WAYP_STAT). -/
  calValid : Bool := false
  /-- 1 bit (12 WAYP_STAT). -/
  planeConn : Bool := false
  /-- launch queue, up to 128, oldest first (12 R255). -/
  launch : List LaunchEnt := []
  /-- attempts waiting, up to 512 (12 R256). -/
  waiting : List WaitRes := []
  /-- 3 bits (12 WAYP_p_QSTAT). -/
  lastCause : Nat := 0
  /-- up to 64 entries, oldest first (12 R260). -/
  tsq : List TsqEnt := []
  /-- per host slot (12 R260). -/
  tsqSlot : Vector TsqSlot 8 := tsqSlotsReset
  /-- calibration series in progress (12 R253). -/
  cal : Option WaypCal := none
  /-- provisioned calibration records by mode and FEC (12 R253). -/
  records : List (Nat × Bool × PortCal) := []
  deriving DecidableEq, Repr

/-- WAYP block. -/
structure WaypSt where
  /-- 16 bits, ns (12 R254). -/
  margin : Nat := 2000
  /-- 4 ports (12 R265). -/
  p : Vector WaypPort 4 := Vector.replicate 4 {}
  deriving DecidableEq, Repr

/-- One listening address. -/
structure ServAddr where
  /-- 32 or 128 bits (13 R268). -/
  addr : NetAddr := .v4 0#32
  /-- 12 bits (13 R268). -/
  vlan : Nat := 0
  /-- 4 bits (13 R268). -/
  ports : BitVec 4 := 0#4
  /-- 1 bit (13 R268). -/
  ntp : Bool := true
  /-- 1 bit (13 R268). -/
  nts : Bool := false
  /-- 1 bit (13 R268). -/
  kod : Bool := false
  /-- 1 bit (13 R268). -/
  limitEn : Bool := true
  /-- 1 bit (13 R268). -/
  smear : Bool := false
  /-- 20 bits, 1/16 request/s (13 R268). -/
  rate : Nat := 128
  /-- 11 bits (13 R268). -/
  burst : Nat := 32
  /-- 8 bits (13 R268). -/
  prefix6 : Nat := 64
  /-- 32 bits, s (13 R268). -/
  w : Nat := 86400
  /-- the smear window is open (13 R293). -/
  smearOpen : Bool := false
  deriving DecidableEq, Repr

/-- One Tollgate bucket. -/
structure Bucket where
  /-- 32 bits (13 R274). -/
  tat : BitVec 32 := 0#32
  /-- 12 bits (13 R274). -/
  kodAt : BitVec 12 := 0#12
  /-- 1 bit (13 R274). -/
  kodValid : Bool := false
  deriving DecidableEq, Repr

/-- NTP header of a response. -/
structure NtpHdr where
  /-- 2 bits (13 R286). -/
  li : Nat := 0
  /-- 3 bits (13 R286). -/
  vn : Nat := 4
  /-- 8 bits (13 R286). -/
  stratum : Nat := 1
  /-- 8 bits (13 R286). -/
  poll : BitVec 8 := 0#8
  /-- 8 bits signed (13 R286). -/
  precision : Int := -29
  /-- 32 bits (13 R286). -/
  rootDelay : Nat := 0
  /-- 32 bits (13 R289). -/
  rootDisp : Nat := 0
  /-- 32 bits (13 R286). -/
  refId : BitVec 32 := 0#32
  /-- 64 bits (13 R287). -/
  refTs : BitVec 64 := 0#64
  /-- 64 bits (13 R286). -/
  origin : BitVec 64 := 0#64
  /-- 64 bits (13 R287). -/
  recv : BitVec 64 := 0#64
  /-- 64 bits (13 R287). -/
  xmit : BitVec 64 := 0#64
  deriving DecidableEq, Repr

/-- One admitted transaction holding an in-flight slot. -/
structure Txn where
  /-- identifier (13 R277). -/
  id : Nat := 0
  /-- port (13 R277). -/
  port : Fin 4 := 0
  /-- owning slot (13 R268). -/
  slot : Fin 8 := 0
  /-- address configuration at admission (13 R270). -/
  cfg : ServAddr := {}
  /-- NTS request (13 R272). -/
  nts : Bool := false
  /-- a Kiss-o'-Death transaction (13 R279). -/
  kodR : Bool := false
  /-- 18 bits (13 R273). -/
  bucket : Nat := 0
  /-- NTP payload bytes (13 R284). -/
  reqLen : Nat := 0
  /-- 3 bits (13 R286). -/
  version : Nat := 4
  /-- 8 bits (13 R286). -/
  poll : BitVec 8 := 0#8
  /-- request's transmit timestamp (13 R286). -/
  origin : BitVec 64 := 0#64
  /-- Unique Identifier body (13 R272). -/
  uid : List (BitVec 8) := []
  /-- cookies to be returned (13 R284). -/
  cookies : Nat := 0
  /-- the request's cookie (13 R280). -/
  cookie : List (BitVec 8) := []
  /-- 0 pending, 1 verified, 2 cookie rejected, 3 tag rejected (13 R282). -/
  authOk : Nat := 0
  /-- KEY_NUM fixed at admission (13 R281). -/
  keyNum : Option Nat := none
  /-- master key the cookie names, as it stood at admission (13 R281, 17 R379). -/
  key : List (BitVec 8) := []
  /-- Canister slot of that key and its generation (17 R381). -/
  keyAt : Option (Nat × BitVec 32) := none
  /-- Canister slot of the CURRENT key and its generation (17 R381). -/
  sealAt : Option (Nat × BitVec 32) := none
  /-- KEY_NUM of the ring's CURRENT key at admission (17 R379). -/
  sealNum : Option Nat := none
  /-- the CURRENT key at admission (17 R379). -/
  sealKey : List (BitVec 8) := []
  /-- arrival stamp, 2^-48 ns (12 R249). -/
  arrival : Nat := 0
  /-- Odometer position of the arrival stamp, 1/33 ps (01 R21, 12 R256). -/
  arrPos : Int := 0
  /-- the arrival stamp in NTP format, with the offset in force at its own instant (13 R291 R292). -/
  recv : BitVec 64 := 0#64
  /-- frame length of the response (12 R255). -/
  respLen : Nat := 0
  /-- a launch slot is reserved (12 R256). -/
  reserved : Bool := false
  /-- hard-invalidated, discarded at egress (17 R381). -/
  discard : Bool := false
  /-- header composed at reservation (13 R286). -/
  hdr : Option NtpHdr := none
  /-- nothing is sent: a reject with NAK_EN clear, or a Kiss-o'-Death whose check failed (13 R279 R283). -/
  silent : Bool := false
  /-- carries smeared time (13 R292 R298). -/
  smeared : Bool := false
  /-- draw number of the first cookie's nonce (13 R280 R284). -/
  draw0 : Nat := 0
  /-- source address (13 R288). -/
  src : NetAddr := .v4 0#32
  /-- source MAC address (13 R288). -/
  mac : BitVec 48 := 0#48
  /-- UDP source port (13 R288). -/
  sport : BitVec 16 := 0#16
  /-- DSCP (13 R288). -/
  dscp : BitVec 6 := 0#6
  /-- VLAN priority (13 R288). -/
  prio : BitVec 3 := 0#3
  /-- the request carries a VLAN tag (13 R288). -/
  tagged : Bool := false
  /-- authenticator of the request: nonce (13 R272). -/
  ct : List (BitVec 8) := []
  /-- authenticator of the request: ciphertext (13 R272). -/
  tag : List (BitVec 8) := []
  /-- header and the fields before the authenticator (13 R282). -/
  aad : List (BitVec 8) := []
  deriving DecidableEq, Repr

/-- A response, Kiss-o'-Death or NTS-NAK as sent. -/
structure NtpOut where
  /-- port (13 R288). -/
  port : Fin 4 := 0
  /-- header (13 R286). -/
  hdr : NtpHdr := {}
  /-- Unique Identifier body, empty when none (13 R283). -/
  uid : List (BitVec 8) := []
  /-- cookies carried (13 R284). -/
  cookies : List (List (BitVec 8)) := []
  /-- nonce, tag and ciphertext under S2C, empty when not authenticated (13 R284). -/
  auth : List (BitVec 8) := []
  /-- the request's source MAC (13 R288). -/
  dmac : BitVec 48 := 0#48
  /-- the port's station address (13 R288). -/
  smac : BitVec 48 := 0#48
  /-- the request's source address (13 R288). -/
  dst : NetAddr := .v4 0#32
  /-- the listening address (13 R288). -/
  src : NetAddr := .v4 0#32
  /-- UDP source port (13 R288). -/
  sport : BitVec 16 := 123#16
  /-- UDP destination port (13 R288). -/
  dport : BitVec 16 := 0#16
  /-- a VLAN tag is carried (13 R288). -/
  tagged : Bool := false
  /-- 12 bits (13 R288). -/
  vlan : Nat := 0
  /-- 3 bits (13 R288). -/
  prio : BitVec 3 := 0#3
  /-- 6 bits (13 R288). -/
  dscp : BitVec 6 := 0#6
  /-- TTL or hop limit (13 R288). -/
  ttl : Nat := 64
  /-- DF, IPv4 (13 R288). -/
  df : Bool := true
  /-- identification, IPv4 (13 R288). -/
  ipId : BitVec 16 := 0#16
  /-- UDP checksum (13 R288). -/
  csum : BitVec 16 := 0#16
  deriving DecidableEq, Repr

/-- A credit pool. -/
structure CreditPool where
  /-- 16 bits, 1,000/s (13 R276 R278). -/
  rate : Nat := 32000
  /-- credits held, 0-64 (13 R276). -/
  credits : Nat := 0
  /-- part of a credit issued, 1/781,250 (13 R276). -/
  frac : Nat := 0
  deriving DecidableEq, Repr

/-- Per host slot service state. -/
structure ServSlot where
  /-- 32 addresses (13 R268). -/
  addrs : Vector (Option ServAddr) 32 := Vector.replicate 32 none
  /-- SLOT_CREDIT_MAX and its pool (13 R278). -/
  pool : CreditPool := {}
  /-- Odometer tick of the last DROP_NO_SLOT or DROP_NO_CREDIT (13 R296). -/
  lastOver : Option Nat := none
  /-- tick of the last DROP_RATE_LIMITED (13 R296). -/
  lastRate : Option Nat := none
  /-- tick of the last NTS reject (13 R296). -/
  lastNak : Option Nat := none
  deriving DecidableEq, Repr


/-- Credit pools of the four ports: 8,000,000 credits per second each (13 R278). -/
def servPortPools : Vector CreditPool 4 := Vector.replicate 4 { rate := 8000 }

/-- SERV block. -/
structure ServSt where
  /-- 8 host slots (13 R268). -/
  slots : Vector ServSlot 8 := Vector.replicate 8 {}
  /-- 262,144 buckets, sparse (13 R273 R274). -/
  tollgate : List (Nat × Bucket) := []
  /-- draw number of the SipHash key (the key itself is a free value of it) (13 R273). -/
  hashKey : Nat := 0
  /-- draw number of the per-start dummy key (13 R282). -/
  dummyKey : Nat := 0
  /-- global pool, CREDIT_RATE (13 R276). -/
  pool : CreditPool := {}
  /-- per-port pools (13 R278). -/
  portPool : Vector CreditPool 4 := servPortPools
  /-- 16 bits, 1,000/s (13 R276). -/
  creditMax : Nat := 32000
  /-- Odometer tick to which the pools are filled (13 R276). -/
  poolTick : Nat := 0
  /-- 4 bits (13 R284). -/
  maxCookies : Nat := 8
  /-- 1 bit (13 R283). -/
  nakEn : Bool := true
  /-- 16 bits, ns (13 R276). -/
  tProc : Nat := 4000
  /-- 16 bits, ns (13 SERV_TPROC). -/
  tProcNtp : Nat := 0
  /-- ns from arrival to reservation, NTS, this 100 ms (13 R276). -/
  resSum : Nat := 0
  /-- NTS reservations this 100 ms (13 R276). -/
  resCnt : Nat := 0
  /-- as resSum for unauthenticated exchanges (13 SERV_TPROC). -/
  resSumN : Nat := 0
  /-- as resCnt for unauthenticated exchanges (13 SERV_TPROC). -/
  resCntN : Nat := 0
  /-- up to 512 admitted transactions, oldest first (13 R277). -/
  inflight : List Txn := []
  /-- identifier of the next transaction (model's own) (13 R277). -/
  nextTxn : Nat := 1
  /-- 8 bits (13 SERV_STAT). -/
  aesLanes : BitVec 8 := 0xFF#8
  /-- 4 bits (13 SERV_STAT, 14 PTPE_STAT). -/
  shaEng : BitVec 4 := 0xF#4
  /-- buckets visited in the present sweep (13 R275). -/
  sweepPos : Nat := 0
  /-- Odometer tick of the sweep's start (13 R275). -/
  sweepStart : Nat := 0
  /-- 16 bits, s (13 SERV_SCRUB). -/
  scrubDur : Nat := 0
  /-- Odometer tick at which the last sweep ended (13 SERV_SCRUB). -/
  scrubEnd : Nat := 0
  /-- response last launched (13 R286). -/
  lastOut : Option NtpOut := none
  deriving DecidableEq, Repr

/-- One PTP instance. -/
structure PtpInst where
  /-- owning slot (14 R302). -/
  owner : Fin 8 := 0
  /-- 0 default 1 G.8275.1 2 G.8275.2 (14 R303). -/
  profile : Nat := 0
  /-- 8 bits (14 R303). -/
  domain : Nat := 0
  /-- 0-2 (14 R327). -/
  transport : Nat := 0
  /-- 1 bit (14 R302). -/
  unicast : Bool := false
  /-- 1 bit (14 R317). -/
  auth : Bool := false
  /-- 1 bit (14 R319). -/
  errbTlv : Bool := false
  /-- 1 bit (14 R303). -/
  nonfwd : Bool := false
  /-- listening address index (14 R302). -/
  addrIdx : Nat := 0
  /-- ports of a multicast instance (14 R302). -/
  ports : BitVec 4 := 0#4
  /-- 8 bits (14 R317). -/
  spp : Nat := 0
  /-- 8 bits signed (14 R303). -/
  logAnn : Int := 1
  /-- 8 bits signed (14 R303). -/
  logSync : Int := 0
  /-- 8 bits (14 R303). -/
  prio1 : Nat := 128
  /-- 8 bits (14 R303). -/
  prio2 : Nat := 128
  /-- 8 bits (14 R303). -/
  oosClass : Nat := 52
  /-- 8 bits (14 R306). -/
  accFloor : Nat := 0x17
  /-- 16 bits, s (14 R311). -/
  durMax : Nat := 300
  /-- 16 bits, messages/s per port (14 R316). -/
  mcastDresp : Nat := 0
  /-- Delay_Req theoretical arrival time per port, Odometer ticks (14 R316). -/
  mcastTat : Vector Nat 4 := Vector.replicate 4 0
  deriving DecidableEq, Repr

/-- One grant table entry. -/
structure Grant where
  /-- client address (14 R307). -/
  addr : NetAddr := .v4 0#32
  /-- 32 bits (14 R307). -/
  pidCrc : BitVec 32 := 0#32
  /-- 16 bits (14 R307). -/
  dreqTat : BitVec 16 := 0#16
  /-- 12 bits (14 R307). -/
  nh : Nat := 0
  /-- 4 bits (14 R307). -/
  inst : Fin 16 := 0
  /-- 4 bits signed (14 R307). -/
  logSync : Int := -8
  /-- 4 bits signed (14 R307). -/
  logAnn : Int := -8
  /-- 4 bits signed (14 R307). -/
  logDresp : Int := -8
  /-- 2 bits (14 R307). -/
  port : Fin 4 := 0
  /-- 14 bits (14 R307). -/
  exp : Nat := 0
  /-- 16 bits, s (14 R307). -/
  dur : Nat := 0
  deriving DecidableEq, Repr

/-- A PTP message as sent. -/
structure PtpOut where
  /-- port (14 R315). -/
  port : Fin 4 := 0
  /-- message type (14 R310 R315). -/
  kind : PtpKind := .sync
  /-- instance, or 16 + client (14 R302). -/
  inst : Nat := 0
  /-- 16 bits (14 R314). -/
  seq : Nat := 0
  /-- originTimestamp or receiveTimestamp, ns (14 R315). -/
  origin : Nat := 0
  /-- correctionField, 2^-16 ns (14 R315). -/
  corr : Int := 0
  /-- 8 bits (14 R305). -/
  clockClass : Nat := 0
  /-- 8 bits (14 R306). -/
  accuracy : Nat := 0
  /-- 16 bits (14 R305). -/
  variance : Nat := 0
  /-- timeTraceable and frequencyTraceable (14 R305). -/
  traceable : Bool := false
  /-- 8 bits (14 R305). -/
  timeSource : Nat := 0
  /-- 16 bits (14 R305). -/
  utcOffset : Int := 0
  /-- 1 bit (14 R305). -/
  utcValid : Bool := false
  /-- 1 bit (14 R305). -/
  leap61 : Bool := false
  /-- 1 bit (14 R305). -/
  leap59 : Bool := false
  /-- ERRB_PS, HOLD_AGE, MODE, SELECTED, FLAGS (14 R319). -/
  errbTlv : Option (Nat × Nat × Nat × Nat × Nat) := none
  /-- keyID of the AUTHENTICATION TLV (14 R317). -/
  authKey : Option Nat := none
  /-- SPP of it (14 R317). -/
  spp : Nat := 0
  /-- ICV of it (14 R317). -/
  icv : List (BitVec 8) := []
  /-- logMessageInterval (14 R303). -/
  log : Int := 0
  /-- unicast negotiation TLVs of a Signaling message (14 R310). -/
  tlvs : List PtpTlv := []
  /-- clockIdentity of the requesting or target port (14 R315). -/
  reqId : BitVec 64 := 0#64
  /-- portNumber of it (14 R315). -/
  reqNum : BitVec 16 := 0#16
  /-- domainNumber (14 R304). -/
  domain : Nat := 0
  /-- 8 bits (14 R303). -/
  prio1 : Nat := 128
  /-- 8 bits (14 R303). -/
  prio2 : Nat := 128
  /-- client or master address; none the multicast address (14 R302). -/
  dst : Option NetAddr := none
  /-- destination MAC address (14 R309). -/
  mac : BitVec 48 := 0#48
  deriving DecidableEq, Repr

/-- An emission holding or awaiting a launch slot. -/
structure PtpMsg where
  /-- identifier (14 R315). -/
  id : Nat := 0
  /-- content (14 R315). -/
  out : PtpOut := {}
  /-- owning slot (14 R324). -/
  owner : Fin 8 := 0
  /-- bytes (12 R255). -/
  len : Nat := 0
  /-- Odometer position of the visit, or of the arrival stamp of the message answered, 1/33 ps (12 R256, 14 R315). -/
  visit : Int := 0
  /-- a stream emission (14 R315). -/
  stream : Bool := false
  /-- Canister slot of the PTP key used (17 R381). -/
  keyNum : Option Nat := none
  /-- the PTP key used (14 R317, 17 R381). -/
  key : List (BitVec 8) := []
  /-- its slot's generation (17 R381). -/
  keyGen : BitVec 32 := 0#32
  deriving DecidableEq, Repr

/-- One candidate grandmaster. -/
structure PtpCand where
  /-- address (14 R320). -/
  addr : NetAddr := .v4 0#32
  /-- clockIdentity (14 R321). -/
  ident : BitVec 64 := 0#64
  /-- grandmasterIdentity of its Announce messages (14 R321). -/
  gm : BitVec 64 := 0#64
  /-- Odometer tick of the latest Announce (14 R321). -/
  lastAnn : Option Nat := none
  /-- granted Announce: log interval, Odometer tick of the grant, duration in s (14 R320). -/
  grantedAnn : Option (Int × Nat × Nat) := none
  /-- granted Sync, the same (14 R320). -/
  grantedSync : Option (Int × Nat × Nat) := none
  /-- granted Delay_Resp, the same (14 R320). -/
  grantedDresp : Option (Int × Nat × Nat) := none
  /-- 8 bits (14 R321). -/
  clockClass : Nat := 255
  /-- 8 bits (14 R321). -/
  accuracy : Nat := 0xFE
  /-- 16 bits (14 R321). -/
  variance : Nat := 0xFFFF
  /-- 8 bits (14 R321). -/
  prio1 : Nat := 255
  /-- 8 bits (14 R321). -/
  prio2 : Nat := 255
  /-- stepsRemoved (14 R321). -/
  steps : Nat := 0
  /-- 16 bits (14 R321). -/
  utcOffset : Int := 0
  /-- 1 bit (14 R321). -/
  leap61 : Bool := false
  /-- 1 bit (14 R321). -/
  leap59 : Bool := false
  /-- 1 bit (14 R322). -/
  twoStep : Bool := false
  /-- its last message verified (14 PTPE_CLIc_STAT). -/
  authOk : Bool := false
  /-- message types whose request has not been granted (14 R320). -/
  asked : List PtpKind := []
  /-- Odometer tick of their last request (14 R320). -/
  askAt : Nat := 0
  /-- Odometer tick of the refusal of that request (14 R320). -/
  refusedAt : Option Nat := none
  /-- interval before that request was repeated, s; 0 first request (14 R320). -/
  retry : Nat := 0
  deriving DecidableEq, Repr

/-- One client domain. -/
structure PtpClient where
  /-- enable (14 R320). -/
  en : Bool := false
  /-- port (14 R320). -/
  port : Fin 4 := 0
  /-- 2 bits (14 R320). -/
  profile : Nat := 0
  /-- 8 bits (14 R320). -/
  domain : Nat := 0
  /-- 2 bits (14 R327). -/
  transport : Nat := 0
  /-- 1 bit (14 R327). -/
  unicast : Bool := false
  /-- 1 bit (14 R327). -/
  auth : Bool := false
  /-- 1 bit (14 R327). -/
  nonfwd : Bool := false
  /-- 8 bits (14 R327). -/
  spp : Nat := 0
  /-- signed (14 R327). -/
  logAnn : Int := 0
  /-- signed (14 R327). -/
  logSync : Int := 0
  /-- signed (14 R327). -/
  logDreq : Int := 0
  /-- 16 bits, s (14 R327). -/
  duration : Nat := 300
  /-- candidates (configured, or heard under multicast) (14 R320). -/
  cands : List PtpCand := []
  /-- index of the chosen master (14 R321). -/
  best : Option Nat := none
  /-- t2 - t1 in ps, Odometer tick of t2 and t2 of the last Sync (14 R322). -/
  sync : Option (Int × Nat × Nat) := none
  /-- two-step Sync waiting for its Follow_Up: sequenceId, t2 stamp, tick, correctionField (14 R322). -/
  syncPend : Option (Nat × Nat × Nat × Int) := none
  /-- last Delay_Req: sequenceId, t3 stamp, tick (14 R322). -/
  dreq : Option (Nat × Nat × Nat) := none
  /-- the Sync that Delay_Req pairs with (14 R322). -/
  dreqSync : Option (Int × Nat × Nat) := none
  /-- next Delay_Req sequenceId (14 R322). -/
  dreqSeq : Nat := 0
  /-- Odometer tick of the last Delay_Req asked for (14 R322). -/
  dreqAt : Option Nat := none
  /-- latest offset, ps (14 PTPE_CLIc_OFFSET). -/
  offset : Int := 0
  /-- latest mean path delay, ps (14 PTPE_CLIc_MPD). -/
  mpd : Int := 0
  /-- complete measurements in the present second (14 PTPE_CLIc_STAT). -/
  measNow : Nat := 0
  /-- complete measurements in the last second (14 PTPE_CLIc_STAT). -/
  meas : Nat := 0
  /-- Odometer tick of the last complete measurement (04 R86). -/
  measAt : Option Nat := none
  deriving DecidableEq, Repr

/-- Per host slot PTP quotas. -/
structure PtpSlot where
  /-- 18 bits (14 R311 R328). -/
  grantQuota : Nat := 131072
  /-- 1/8 message/s (14 R311 R328). -/
  rateQuota : Nat := 128000000
  /-- tick of the last refusal (14 R324). -/
  lastRefused : Option Nat := none
  /-- tick of the last Delay_Req drop (14 R324). -/
  lastDreq : Option Nat := none
  /-- tick of the last authentication failure (14 R324). -/
  lastAuth : Option Nat := none
  deriving DecidableEq, Repr

/-- PTPE block. -/
structure PtpSt where
  /-- 64 bits (14 R302 R327). -/
  clockId : BitVec 64 := 0#64
  /-- 16 instances (14 R302). -/
  inst : Vector (Option PtpInst) 16 := Vector.replicate 16 none
  /-- 131,072 entries, sparse by index (14 R307). -/
  grants : List (Nat × Grant) := []
  /-- 4,096 MAC addresses, sparse by index (14 R309). -/
  nextHop : List (Nat × BitVec 48) := []
  /-- 32 bits, 1/8 message/s (14 R312). -/
  budget : Nat := 128000000
  /-- 8 host slots (14 R326). -/
  slots : Vector PtpSlot 8 := Vector.replicate 8 {}
  /-- draw number of the grant-table hash key (14 R308). -/
  hashKey : Nat := 0
  /-- emissions holding or awaiting a launch slot, oldest first (14 R315). -/
  msgs : List PtpMsg := []
  /-- identifier of the next emission (model's own) (14 R315). -/
  nextMsg : Nat := 0
  /-- client domains of REF_PTPA and REF_PTPB (14 R320). -/
  client : Vector PtpClient 2 := Vector.replicate 2 {}
  /-- message last launched (14 R315). -/
  lastOut : Option PtpOut := none
  /-- tick of the last SYNC_SKIP (14 R324). -/
  lastSkip : Option Nat := none
  deriving DecidableEq, Repr

/-- A heartbeat this unit has sent. -/
structure FbMark where
  /-- HB_SEQ (15 R331). -/
  seq : BitVec 32 := 0#32
  /-- AON time at which it was sent (15 R333). -/
  at_ : Nat := 0
  /-- millisecond of the counter its marker belongs to (15 R331). -/
  mark : Nat := 0
  /-- ps, TX_OFS (15 R330). -/
  ofs : Nat := 0
  deriving DecidableEq, Repr

/-- FOOT block. -/
structure FootSt where
  /-- 1 bit (15 FOOT_CFG). -/
  en : Bool := false
  /-- 1 bit (15 FOOT_CFG). -/
  autoHo : Bool := true
  /-- 4 bits (15 FOOT_CFG). -/
  annCount : Nat := 3
  /-- 10 bits, ms (15 FOOT_CFG). -/
  leaseMs : Nat := 50
  /-- 10 bits (15 FOOT_CFG). -/
  xtalPpm : Nat := 100
  /-- 17 bits, us (15 R332 FOOT_GUARD). -/
  guardBase : Nat := 2000
  /-- 11 bits, ms (15 R347). -/
  annGap : Nat := 500
  /-- 17 bits, ps (15 R342). -/
  readyPs : Nat := 500
  /-- ps signed (15 FOOT_ASYM). -/
  asym : Int := 0
  /-- 32 bits signed saturating, ps (15 FOOT_PHASE). -/
  phase : Int := 0
  /-- 32 bits, ps (15 FOOT_DELAY). -/
  delay : Int := 0
  /-- Odometer tick and x of the marker pairs of the last second, newest first (15 R341 R342). -/
  xs : List (Nat × Int) := []
  /-- consecutive evaluations meeting READY's first condition (15 R342). -/
  readyRun : Nat := 0
  /-- latest valid heartbeat of the peer (15 R330). -/
  peer : Option FbFrame := none
  /-- 3 bits (15 FOOT_STAT). -/
  lstate : LeaseState := .off
  /-- 1 bit, level of FB_OWN (HELD) (15 FOOT_STAT). -/
  fbOwn : Bool := false
  /-- 1 bit, level of FB_PEEROWN (15 FOOT_STAT). -/
  peerOwn : Bool := false
  /-- AON time at which FB_PEEROWN last went low (15 R334 R335). -/
  peerOwnLowSince : Nat := 0
  /-- OE_TIMING held low until FB_PEEROWN has been low for 1 us (15 R335 R336). -/
  oeBlocked : Bool := false
  /-- us of unbroken low of FB_PEEROWN the present take needs (15 R335). -/
  oeNeedUs : Nat := 1
  /-- 1 bit (15 FOOT_STAT). -/
  link : Bool := false
  /-- receiver holds code-group alignment (15 R330). -/
  aligned : Bool := false
  /-- consecutive valid heartbeats (15 R330). -/
  goodRun : Nat := 0
  /-- 16 bits, consecutive missed (15 FOOT_HB). -/
  missNow : Nat := 0
  /-- 16 bits saturating (15 FOOT_HB). -/
  missed : Nat := 0
  /-- AON time of the last missed heartbeat (15 R349). -/
  lastMiss : Option Nat := none
  /-- 1 bit (15 FOOT_STAT). -/
  ready : Bool := false
  /-- 1 bit (15 FOOT_STAT). -/
  ackArmed : Bool := false
  /-- 4 bits (15 FOOT_STAT). -/
  relCause : Nat := 0
  /-- 16 bits saturating, s (15 FOOT_STAT). -/
  since : Nat := 0
  /-- 32 bits (15 FOOT_EPOCH). -/
  epoch : BitVec 32 := 0#32
  /-- number of the last heartbeat sent (15 R331). -/
  hbSeq : BitVec 32 := 0#32
  /-- heartbeats sent, back to the latest acknowledged (15 R333 R341). -/
  hbSent : List FbMark := []
  /-- AON time at which the latest acknowledged heartbeat was sent (15 R333). -/
  ackedAt : Option Nat := none
  /-- AON time of the previous valid heartbeat (15 R330). -/
  lastValid : Option Nat := none
  /-- AON time of the last heartbeat with LEASE set (15 R334). -/
  lastLease : Option Nat := none
  /-- AON time of the heartbeat that showed the peer relinquished (15 R334). -/
  relinq : Option Nat := none
  /-- AON time at which the cold-start timer started (15 R338). -/
  coldAt : Nat := 0
  /-- AON time of the relinquish (15 R338). -/
  retakeAt : Nat := 0
  /-- consecutive heartbeats with LEASE clear since the link came up (15 R338). -/
  clearRun : Nat := 0
  /-- consecutive heartbeats with the other UNIT_B in CONFLICT (15 R336). -/
  otherRun : Nat := 0
  /-- a due take is blocked only by a raw error line (15 R335). -/
  takeBlocked : Bool := false
  /-- AON time of the take (15 R335). -/
  takenAt : Nat := 0
  /-- AON time, cycles of AON_XTAL (40 ns) (15 R332). -/
  ck : Nat := 0
  /-- pending or last handover instant, counter ns (15 R343 FOOT_H). -/
  h : Option Nat := none
  /-- AON time at which OFFER was sent (15 R344). -/
  offerAt : Nat := 0
  /-- OFFER sent and no outcome yet (15 R343). -/
  hPending : Bool := false
  /-- the peer side: an OFFER was accepted (15 R343). -/
  hAccepted : Bool := false
  /-- this unit is the former holder of a handover in progress (15 R344). -/
  former : Bool := false
  /-- ICP_FB_HANDOVER in progress (15 R351). -/
  hCmd : Option CmdRef := none
  /-- the lease is treated as not held from H - 200 us (15 R343 step 4). -/
  fenced : Bool := false
  /-- REF_PEER counted as SELECTED at the last valid heartbeat (15 R339). -/
  refPeerSel : Bool := false
  /-- own heartbeat that started the latest channel 5 result, until the frame of the marker that stopped it has come (15 R341). -/
  m5 : Option FbMark := none
  /-- ps, own corrected result of the previous marker pair (15 R341). -/
  cOwn : Option Int := none
  /-- ps, own channel 5 result of the previous marker pair (15 R331 R341). -/
  mLast : Int := 0
  /-- ps, TX_OFS of the last heartbeat (15 R330). -/
  txOfs : Nat := 0
  /-- millisecond of the counter of the last marker (15 R331). -/
  mark : Nat := 0
  /-- address announcement rounds left (15 R347). -/
  roundsLeft : Nat := 0
  /-- Odometer tick at which the next round is due (15 R347). -/
  roundAt : Nat := 0
  /-- the 56 bytes of the frame last sent (15 R331). -/
  lastTx : List Byte := []
  deriving DecidableEq, Repr

/-- One host slot. -/
structure SlotSt where
  /-- 2 bits (16 R353 R354). -/
  role : Role := .none_
  /-- 4 bits: 0-7 PFn, 8 SPI, 9 SMBus (16 R354). -/
  bind : Option (Fin 10) := none
  /-- 32 bits saturating (16 SYS_DENY). -/
  deny : Nat := 0
  /-- 20 bits (16 SYS_DENY_LAST). -/
  denyWhere : Nat := 0
  /-- 4 bits (16 SYS_DENY_LAST). -/
  denyKind : Nat := 0
  /-- operating-hours second of the last ACCESS_DENIED record (16 R367). -/
  denySec : Option Nat := none
  /-- denials since the previous ACCESS_DENIED record (16 R367). -/
  denySince : Nat := 0
  /-- ICP_SLOT_CONFIG with PURGE waiting for the slot's transactions, with the role to be taken (16 R356 R371). -/
  purge : Option (CmdRef × Role) := none
  deriving DecidableEq, Repr

/-- One Canister key slot. -/
structure KeySlot where
  /-- up to 64 bytes (17 R374 R376). -/
  key : List (BitVec 8) := []
  /-- C = CRC-32C(K) (17 R376). -/
  chk : BitVec 32 := 0#32
  /-- draw number of share S1; S2 = K xor S1 (17 R376 R377). -/
  mask : Nat := 0
  /-- holds a key (17 R393). -/
  used : Bool := false
  /-- FAULTY (17 R377). -/
  faulty : Bool := false
  /-- 32 bits, slot generation (17 R381). -/
  gen : BitVec 32 := 1#32
  /-- recorded generation of the ring (17 R381). -/
  ringGen : BitVec 32 := 1#32
  /-- host slot (17 R374 R383). -/
  owner : Nat := 0
  /-- ring kind: NTS or PTP (17 R383). -/
  ptp : Bool := false
  /-- KEY_NUM or keyID (17 R378). -/
  num : Nat := 0
  /-- SPP (17 R378). -/
  spp : Nat := 0
  /-- CURRENT, PREVIOUS or STAGED (17 R378). -/
  state : KeyState := .previous
  /-- installation order (17 R379 R383). -/
  order : Nat := 0
  /-- invalidated, shares not yet zeroed (17 R381). -/
  draining : Bool := false
  deriving DecidableEq, Repr

/-- One key-store entry. -/
structure StoreEnt where
  /-- Canister slot (17 R383). -/
  cslot : Nat := 0
  /-- key (wrapped on flash) (17 R383). -/
  key : List (BitVec 8) := []
  /-- host slot (17 R383). -/
  owner : Nat := 0
  /-- ring kind (17 R383). -/
  ptp : Bool := false
  /-- KEY_NUM or keyID (17 R383). -/
  num : Nat := 0
  /-- SPP (17 R383). -/
  spp : Nat := 0
  /-- state (17 R383). -/
  state : KeyState := .previous
  /-- installation order (17 R383). -/
  order : Nat := 0
  /-- recorded generation (17 R383). -/
  gen : BitVec 32 := 1#32
  deriving DecidableEq, Repr

/-- One key-store bank. -/
structure StoreBank where
  /-- up to 56 entries (17 R383). -/
  entries : List StoreEnt := []
  /-- the entries as programmed: header, SIV and ciphertext (17 R383). -/
  data : List (BitVec 8) := []
  /-- 64-byte commit record as programmed; empty when erased (17 R383). -/
  record : List (BitVec 8) := []
  deriving DecidableEq, Repr

/-- A key command waiting or in progress. -/
structure KeyReq where
  /-- slot and tag (17 R380). -/
  cmd : CmdRef := {}
  /-- what it does (17 R379 R381). -/
  op : KeyOp := .rotate 0 false 0 0
  /-- its key-store update has started (17 R380). -/
  started : Bool := false
  /-- Odometer when it reached the management processor (17 R380). -/
  at_ : Nat := 0
  deriving DecidableEq, Repr

/-- Canister key vault and firmware. -/
structure VaultSt where
  /-- 1 bit (17 SYS_VAULT_STAT). -/
  rootOk : Bool := false
  /-- 1 bit, helper data exists (in flash) (17 SYS_VAULT_STAT). -/
  enrolled : Bool := false
  /-- number of enrolments of this device (names ROOT) (17 R373). -/
  enrollNo : Nat := 0
  /-- KCV stored in flash, 8 bytes (17 R372). -/
  kcv : List (BitVec 8) := []
  /-- 1 bit (17 SYS_VAULT_STAT). -/
  storeLoaded : Bool := false
  /-- 1 bit (17 SYS_VAULT_STAT). -/
  storeBank : Bool := false
  /-- 64 bits, COUNTER of the loaded bank (17 SYS_STORE_CNT). -/
  storeCnt : Nat := 0
  /-- 1 bit (17 SYS_VAULT_STAT). -/
  rngOk : Bool := false
  /-- 1 bit (17 SYS_VAULT_STAT). -/
  ecdsaOk : Bool := false
  /-- consecutive passing samples (17 R375). -/
  rngPass : Nat := 0
  /-- draws taken from the random bit generator (model's own: the free-value counter) (17 R375). -/
  draws : Nat := 0
  /-- 12 bits, s (17 R377). -/
  remaskPeriod : Nat := 10
  /-- 16 bits saturating, s since the last complete sweep (17 SYS_VAULT_REMASK). -/
  sweepAge : Nat := 0
  /-- next slot of the re-masker's sweep (17 R377). -/
  sweepPos : Nat := 0
  /-- 64 slots (17 R374). -/
  keys : Vector KeySlot 64 := Vector.replicate 64 {}
  /-- generation of each slot's NTS ring (17 R381). -/
  ntsRingGen : Vector (BitVec 32) 8 := Vector.replicate 8 1#32
  /-- generation of each PTP ring, by slot x 256 + SPP, 1 when unlisted (17 R381). -/
  ptpRingGen : List (Nat × BitVec 32) := []
  /-- next installation order (17 R379). -/
  orderNext : Nat := 0
  /-- two banks of flash (17 R383). -/
  bank : Vector StoreBank 2 := Vector.replicate 2 {}
  /-- key commands, first in first out (17 R380). -/
  queue : List KeyReq := []
  /-- invalidation commands waiting for KEY_DRAINED: Canister slots mask, keys, discarded (17 R381). -/
  drainCmd : List (CmdRef × Nat × Nat × Nat) := []
  /-- device certificate, up to 2,048 bytes (flash) (17 R386). -/
  cert : List (BitVec 8) := []
  /-- 6 bits, fuses programmed (17 R390). -/
  otpSvn : Nat := 0
  /-- 6 bits, running image (17 SYS_FW_STAT). -/
  svn : Nat := 0
  /-- IMAGE_HASH of the running image (17 R387). -/
  imageHash : List (BitVec 8) := []
  /-- two boot-preference copies: sequence number and bank (17 R389). -/
  pref : Vector (Option (Nat × Bool)) 2 := Vector.replicate 2 none
  /-- 1 bit (17 SYS_FW_STAT). -/
  confirmed : Bool := false
  /-- 1 bit (17 SYS_FW_STAT). -/
  updateOpen : Bool := false
  /-- 1 bit (17 SYS_FW_STAT). -/
  target : Bool := false
  /-- next expected offset (17 R389). -/
  fwOfs : Nat := 0
  deriving DecidableEq, Repr

/-- One bank of the configuration area. -/
structure CfgBank where
  /-- sections as programmed (23 R481). -/
  data : List (BitVec 8) := []
  /-- 64-byte commit record as programmed; empty when erased (23 R481). -/
  record : List (BitVec 8) := []
  /-- PROVISION section with DONE (23 R481). -/
  done : Bool := false
  /-- PROVISION section: roles and bindings (23 R481, 16 R354). -/
  slots : Option (Vector (Role × Option (Fin 10)) 8) := none
  /-- CALIBRATION section (23 R481). -/
  cal : Option (List CalRec) := none
  /-- GUYLINE section (06 R134, 23 R481). -/
  guy : Option (GuyModel × GuyModel) := none
  /-- POSITION section: X, Y, Z, uncertainty in mm (10 R210, 23 R481). -/
  pos : Option (Int × Int × Int × Nat) := none
  /-- POSITION section flags: surveyed (23 R481). -/
  surveyed : Bool := false
  deriving DecidableEq, Repr

/-- Configuration flash. -/
structure FlashSt where
  /-- image banks 0 and 1, flash offsets 0x000000-0x3FFFFF, byte addressed (17 R373 R388, 23 R480). -/
  image : List Host.Cell := []
  /-- configuration area, two banks (23 R481). -/
  cfg : Vector CfgBank 2 := Vector.replicate 2 {}
  /-- Cairn record region: (SECTOR_SEQ, records), newest sector first, at most 2,048 sectors of 20 (23 R482). -/
  cairn : List (Nat × List CairnRec) := []
  deriving DecidableEq, Repr

/-- A command in progress. -/
structure ActiveCmd where
  /-- 16 bits (18 R402). -/
  tag : BitVec 16 := 0#16
  /-- 16 bits (18 R402). -/
  op : Nat := 0
  /-- role at dispatch (16 R356). -/
  role : Role := .none_
  /-- 8 bits (18 R404). -/
  minor : Nat := 0
  deriving DecidableEq, Repr

/-- A completion or unsolicited message. -/
structure Msg where
  /-- 16 bits (18 R402). -/
  op : Nat := 0
  /-- 16 bits (18 R402). -/
  tag : BitVec 16 := 0#16
  /-- 16 bits (18 R406). -/
  status : Nat := 0
  /-- UNSOLICITED (18 R402). -/
  unsol : Bool := false
  /-- response payload (18 R403). -/
  payload : List (BitVec 8) := []
  deriving DecidableEq, Repr

/-- One slot's mailbox (MBOX block copy). -/
structure MboxSlot where
  /-- 1 bit (18 MBOX_CTRL). -/
  lk : Bool := false
  /-- 1 bit (18 MBOX_CTRL). -/
  en : Bool := false
  /-- the slot is lost (R411) (18 R411). -/
  lost : Bool := false
  /-- 8 bits (18 R405). -/
  major : Nat := 1
  /-- 32 bits, LK (18 R413). -/
  reqBaseLo : BitVec 32 := 0#32
  /-- 32 bits, LK (18 R413). -/
  reqBaseHi : BitVec 32 := 0#32
  /-- 4 bits, LK (18 R413). -/
  reqSize : Nat := 6
  /-- 32 bits (18 R400). -/
  reqPi : BitVec 32 := 0#32
  /-- 32 bits (18 R400). -/
  reqCi : BitVec 32 := 0#32
  /-- 32 bits, LK (18 R413). -/
  cplBaseLo : BitVec 32 := 0#32
  /-- 32 bits, LK (18 R413). -/
  cplBaseHi : BitVec 32 := 0#32
  /-- 4 bits, LK (18 R413). -/
  cplSize : Nat := 6
  /-- 32 bits (18 R400). -/
  cplPi : BitVec 32 := 0#32
  /-- 32 bits (18 R400). -/
  cplCi : BitVec 32 := 0#32
  /-- 32 bits, LK (18 R413). -/
  wbLo : BitVec 32 := 0#32
  /-- 32 bits, LK (18 R413). -/
  wbHi : BitVec 32 := 0#32
  /-- 16 bits (18 MBOX_MOD). -/
  modUs : Nat := 0
  /-- 8 bits (18 MBOX_MOD). -/
  modCnt : Nat := 0
  /-- 1 bit (18 MBOX_SLEEP). -/
  sleepReq : Bool := false
  /-- 1 bit (18 MBOX_SLEEP). -/
  sleepAck : Bool := false
  /-- 1 bit (18 MBOX_SLEEP). -/
  wake : Bool := false
  /-- holds WAKE_N (18 R410). -/
  wakePin : Bool := false
  /-- 32 bits saturating (18 MBOX_LOST_CPL). -/
  lostCpl : Nat := 0
  /-- up to 16 commands in progress (18 R407). -/
  active : List ActiveCmd := []
  /-- completions and Cairn records held, oldest first (records: at most 4,096 in all) (18 R408, 03 R68). -/
  held : List Msg := []
  /-- messages written to the completion ring, newest first (18 R400). -/
  posted : List Msg := []
  /-- moderation hold in progress: completions posted since the rise (18 R409). -/
  hold : Option Nat := none
  /-- Odometer at the rise that began the hold (18 R409). -/
  holdAt : Nat := 0
  /-- sources pending and enabled at the last evaluation (18 R410). -/
  live : BitVec 256 := 0#256
  /-- REQ_CI and CPL_PI as last written to the writeback address (PCIe slots) (18 R400). -/
  wb : BitVec 32 × BitVec 32 := (0#32, 0#32)
  /-- MSI-X messages issued (or assertions of the pin) (18 R409). -/
  signals : Nat := 0
  /-- the target's condition at the last evaluation (18 R409). -/
  cond : Bool := false
  /-- IRQ_N or ALERT_N asserted (18 R398). -/
  pin : Bool := false
  /-- ring window bytes 0x1000-0x1FFF (SPI and SMBus slots) (18 R399). -/
  win : List Host.Cell := []
  deriving DecidableEq, Repr

/-- One PCIe physical function. -/
structure PcieFn where
  /-- bus mastering enabled (18 R408). -/
  busMaster : Bool := false
  /-- in D0 (18 R408). -/
  d0 : Bool := true
  /-- PME_En (18 R410). -/
  pmeEn : Bool := false
  /-- link in L2 (18 R410). -/
  l2 : Bool := false
  /-- PME messages sent (18 R410). -/
  pmes : Nat := 0
  deriving DecidableEq, Repr

/-- MBOX block, PCIe functions, host SPI and SMBus targets. -/
structure HostSt where
  /-- 1 bit MBOX_STAT.READY (18 MBOX_STAT). -/
  ready : Bool := false
  /-- one copy per slot (18 R413). -/
  mbox : Vector MboxSlot 8 := Vector.replicate 8 {}
  /-- PF0-PF7 (18 R395). -/
  pf : Vector PcieFn 8 := Vector.replicate 8 {}
  /-- PCIe data link up (18 R411). -/
  pcieUp : Bool := false
  /-- PERST_N asserted (02 R44). -/
  perst : Bool := true
  /-- round-robin position of the mailbox engine (18 R407). -/
  nextSlot : Nat := 0
  /-- RD_LATE (18 R396). -/
  spiLate : Bool := false
  /-- WR_DROP (18 R396). -/
  spiDrop : Bool := false
  /-- bytes last returned on HSPI_MISO (18 R396). -/
  spiOut : List (BitVec 8) := []
  /-- pointer P (18 R397). -/
  smbPtr : BitVec 32 := 0#32
  /-- bytes last returned on SMBus (18 R397). -/
  smbOut : List (BitVec 8) := []
  /-- data of the last register read per reader (8 slots, management) (19 R416). -/
  rd : Vector (BitVec 32) 9 := Vector.replicate 9 0#32
  deriving DecidableEq, Repr


/-- Slots at delivery: slot 0 is the Owner on PF0, the others NONE and unbound (16 R354). -/
def slotsReset : Vector SlotSt 8 := #v[{ role := .owner, bind := some 0 }, {}, {}, {}, {}, {}, {}, {}]

/-- Host slots. -/
structure SlotsSt where
  /-- 8 host slots (16 R353 R354). -/
  s : Vector SlotSt 8 := slotsReset
  deriving DecidableEq, Repr

/-- One sticky report. -/
structure Report where
  /-- slot (19 R421). -/
  slot : Fin 8 := 0
  /-- block 0-15 (19 R421). -/
  blk : Nat := 0
  /-- 1-255 (19 R421). -/
  seq : Nat := 0
  /-- sticky register key: window offset, or 2^20 + indirect address (19 R421). -/
  reg : Nat := 0
  /-- sticky state returned (19 R421). -/
  value : BitVec 32 := 0#32
  /-- bits hardware has written since (19 R422). -/
  again : BitVec 32 := 0#32
  deriving DecidableEq, Repr

/-- Register mechanisms: locks, sticky copies, reports, indirect window, shadows. -/
structure RegsSt where
  /-- CTRL.LK per block (19 R418). -/
  lk : BitVec 16 := 0#16
  /-- every RC/RQ field: one word per (copy, register) that is not 0 (19 R420 R423). -/
  sticky : List (Nat × BitVec 32) := []
  /-- reports held, oldest first, at most 8 per slot and block (19 R421). -/
  reports : List Report := []
  /-- latest report per slot and block (BLK_SEQ) (19 R421). -/
  seqs : List (Nat × Report) := []
  /-- IND_ADDR.ADDR per slot, and that of the management processor (log 182) (19 IND_ADDR). -/
  indAddr : Vector (BitVec 32) 9 := Vector.replicate 9 0#32
  /-- IND_ADDR.AUTOINC per slot (19 IND_ADDR). -/
  indInc : Vector Bool 9 := Vector.replicate 9 false
  /-- grant entry or bucket latched per slot (19 R426). -/
  indLatch : Vector (Nat × List (BitVec 32)) 9 := Vector.replicate 9 (0, [])
  /-- second words latched by a read of the first, per reader and register (the word plus 1; none while it has not been latched) (01 R18, 20 SYS_UID R442, 09 R198). -/
  shadow : List (Nat × Nat) := []
  deriving DecidableEq, Repr

/-- One interrupt target. -/
structure IcuTarget where
  /-- 256 bits (19 R428). -/
  pend : BitVec 256 := 0#256
  /-- 256 bits (19 R428 R433). -/
  en : BitVec 256 := 0#256
  /-- 256 bits (19 R428). -/
  insvc : BitVec 256 := 0#256
  /-- 1 bit (19 R431). -/
  sigSince : Bool := false
  deriving DecidableEq, Repr

/-- ICU. -/
structure IcuSt where
  /-- 8 slots and the management processor (19 R428). -/
  t : Vector IcuTarget 9 := Vector.replicate 9 {}
  /-- the management target's condition at the last evaluation (19 R431). -/
  mgmtCond : Bool := false
  deriving DecidableEq, Repr

/-- One Trail record. -/
structure TrailRec where
  /-- 8 bits (21 R453). -/
  type : Nat := 0
  /-- 16 bits (21 R453). -/
  rep : Nat := 1
  /-- 28 bits, AON_OPHRS (21 R453). -/
  time : Nat := 0
  /-- 4 bits (21 R453). -/
  pcyc : Nat := 0
  /-- LENGTH bytes (21 R453). -/
  payload : List (BitVec 8) := []
  /-- byte offset (first area) or running count (circular area) (21 R456). -/
  pos : Nat := 0
  /-- copied to flash (21 R455). -/
  flushed : Bool := false
  /-- not incremented any more (21 R453). -/
  closed : Bool := false
  deriving DecidableEq, Repr


/-- The POWER_ON record the first area holds after power-on (21 R451, R453): AON_PCYCLE 1, AON_RST_CAUSE with CAUSE 0x01,
BANK 0b11 and PROV_STRAP 1, SYS_ID. -/
def trailReset : List TrailRec :=
  [{ type := 1, pcyc := 1, payload := [1#8, 0#8, 0#8, 0#8, 0x01#8, 0x13#8, 0#8, 0#8, 0x25#8, 0x48#8, 0xB0#8, 0#8, 0#8, 0#8, 0#8, 0#8] }]

/-- Trail Register. -/
structure TrailSt where
  /-- first area, 16 KiB, oldest first (21 R451). -/
  first : List TrailRec := trailReset
  /-- bytes used (21 R451). -/
  firstFill : Nat := 24
  /-- 1 bit (21 FAULT_TRAIL_STAT). -/
  firstFull : Bool := false
  /-- circular area, 48 KiB, oldest first (21 R452). -/
  circ : List TrailRec := []
  /-- bytes written since power-on (21 R452 R456). -/
  circPos : Nat := 0
  /-- records overwritten since the previous TRAIL_LOST (21 R452). -/
  lostSince : Nat := 0
  /-- 12 bits, s (21 R455). -/
  period : Nat := 60
  /-- 1 bit FLUSH_BUSY (21 FAULT_TRAIL_STAT). -/
  flushing : Bool := false
  /-- ICP_TRAIL_FLUSH waiting (21 R456). -/
  flushCmd : Option CmdRef := none
  /-- slots used of the 48 of the first log (flash) (21 R454). -/
  flogUsed : Nat := 0
  /-- this power cycle's first area has its slot (21 R454). -/
  flogThis : Bool := false
  /-- LOG_FULL (21 R454). -/
  flogFull : Bool := false
  /-- circular log in flash: its sectors of 4 KiB, at most 64, newest first (21 R454). -/
  fcirc : List (List TrailRec) := []
  /-- first log in flash: its slots, one first area each, newest first (21 R454). -/
  ffirst : List (List TrailRec) := []
  /-- operating-hours meter when the latest flush began, s (21 R455). -/
  flushAt : Nat := 0
  deriving DecidableEq, Repr


/-- Default severities of the 64 fault sources (21 table "Fault sources"); reserved sources hold 0. -/
def faultSevDefault : Vector Nat 64 :=
  #v[3, 1, 1, 1, 0, 0, 0, 0, 1, 1, 1, 0, 1, 1, 0, 0,
     0, 0, 0, 0, 1, 1, 0, 1, 1, 1, 1, 0, 0, 0, 0, 0,
     0, 1, 0, 0, 0, 0, 0, 0, 1, 1, 0, 1, 1, 1, 1, 1,
     1, 1, 1, 1, 0, 1, 0, 0, 1, 3, 3, 1, 0, 3, 1, 1]

/-- Fault collector. -/
structure FaultSt where
  /-- the sources' own lines (21 R443). -/
  real : BitVec 64 := 0#64
  /-- FAULT_INJ (21 R446). -/
  inj : BitVec 64 := 0#64
  /-- overlap in the running injection (21 R447). -/
  ovl : BitVec 64 := 0#64
  /-- AON cycle at which an injection ends, or its source is sampled (21 R446 R447). -/
  injEnd : Vector Nat 64 := Vector.replicate 64 0
  /-- sources whose line is sampled 16 AON cycles after the injection ended (21 R447). -/
  resample : BitVec 64 := 0#64
  /-- rises taken since the injection ended (21 R447). -/
  handled : BitVec 64 := 0#64
  /-- 64 x 2 bits (21 R444 R449). -/
  sev : Vector Nat 64 := faultSevDefault
  deriving DecidableEq, Repr

/-- Performance counters. -/
structure PerfSt where
  /-- 1,024 indices x (device total, 8 slot tallies), 48 bits each, sparse (22 R458). -/
  cnt : List (Nat × Nat) := []
  /-- programmable counters (22 R461). -/
  bound : Vector (Option PerfBind) 64 := Vector.replicate 64 none
  /-- PERF_ACL, LK (22 PERF_ACL). -/
  acl : BitVec 32 := 0x3A#32
  /-- 12 bits (22 PERF_DUMP_CFG). -/
  dumpPeriod : Nat := 0
  /-- 10 bits (22 PERF_DUMP_CFG). -/
  dumpFirst : Nat := 0
  /-- 10 bits (22 PERF_DUMP_CFG). -/
  dumpLast : Nat := 0
  /-- 64 bits (22, 20 R442). -/
  dumpBase : BitVec 64 := 0#64
  /-- 32 bits (22 PERF_STAT). -/
  dumpSeq : Nat := 0
  /-- 1 bit (22 PERF_STAT). -/
  lastBuf : Bool := false
  /-- Odometer tick at which the next dump is due (22 R462). -/
  dumpAt : Nat := 0
  /-- buffer of the next dump (22 R462). -/
  nextBuf : Bool := false
  /-- dump last written (22 R462). -/
  lastDump : List (BitVec 8) := []
  deriving DecidableEq, Repr

/-- One perturbation kind. -/
structure PertKind where
  /-- 1 bit (22 PERTURB_STAT). -/
  armed : Bool := false
  /-- 32 bits (22 PERTURB_k_CFG0). -/
  cfg0 : BitVec 32 := 0#32
  /-- 32 bits (22 PERTURB_k_CFG1). -/
  cfg1 : BitVec 32 := 0#32
  /-- heartbeats left of kind 3 (22 PERTURB_k_REMAIN). -/
  remain : Nat := 0
  /-- Odometer tick of arming (22 R464). -/
  start : Nat := 0
  /-- Odometer tick at which the duration ends (kinds 0-2) (22 R464). -/
  stop : Nat := 0
  /-- launch frames seen (kind 0) (22 R464). -/
  seen : Nat := 0
  deriving DecidableEq, Repr

/-- Perturbation registers. -/
structure PertSt where
  /-- 4 kinds (22 R464). -/
  k : Vector PertKind 4 := Vector.replicate 4 {}
  /-- 1 bit (22 PERTURB_STAT, 02 R29). -/
  live : Bool := false
  deriving DecidableEq, Repr

/-- SYS block: mode, cause and common registers. -/
structure SysSt where
  /-- 3 bits (02 R25, 20 R437). -/
  mode : Mode := .boot
  /-- 3 bits (20 R437). -/
  prev : Mode := .boot
  /-- 8 bits (20 R437). -/
  cause : Nat := 0x01
  /-- 32 bits, saturating (20 R437). -/
  secs : Nat := 0
  /-- 16 bits signed, 0.01 degC (20 R437). -/
  temp : Int := 0
  /-- 1 bit (20 R437, 23 R487). -/
  warn : Bool := false
  /-- ns (02 R26). -/
  lockPhase : Nat := 100
  /-- s (02 R26). -/
  lockDwell : Nat := 10
  /-- steering periods (02 R26 condition 2). -/
  lockRun : Nat := 0
  /-- record (02 R46). -/
  quiesce : Option Quiesce := none
  /-- 1 bit (02 R46 step 2). -/
  admissionStopped : Bool := false
  /-- 1 bit (15 R340). -/
  quiesceOwnLow : Bool := false
  /-- 1 bit (02 R27, 21 R444). -/
  degradePending : Bool := false
  /-- 1 bit (02 R27, R28, 21 R444). -/
  fatalPending : Bool := false
  /-- 1 bit, ICP_SYS_RESET accepted (02 R48). -/
  resetArmed : Bool := false
  /-- 1 bit, ICP_PROVISION_DONE accepted, for the next evaluation (02 R25 R27). -/
  provDone : Bool := false
  /-- 1 bit, ICP_RESUME accepted, for the next evaluation (02 R25 R27). -/
  resume : Bool := false
  /-- 1 bit, watchdog kicked since the image started (02 R43). -/
  kicked : Bool := false
  /-- 1 bit (02 R39 step 7). -/
  mgmtFwRunning : Bool := false
  /-- 16 bits, CTRL.LK bits of the PD_TIME blocks set before it was gated (02 R35). -/
  savedLk : BitVec 16 := 0#16
  deriving DecidableEq, Repr

/-- The whole state of the block. -/
structure State where
  /-- Commands waiting, first in first out (the model's own field). -/
  pending : List Instr := []
  /-- AON region: sequencer, reset cause, meters, straps. -/
  aon : AonSt := {}
  /-- TIME block: counter, steering, shadows, UTC. -/
  time : TimeSt := {}
  /-- Cairn records. -/
  cairn : CairnSt := {}
  /-- SIGN block. -/
  sign : SignSt := {}
  /-- Guyline holdover. -/
  guy : GuySt := {}
  /-- MILE block. -/
  mile : MileSt := {}
  /-- TDC block. -/
  tdc : TdcSt := {}
  /-- GNSS block. -/
  gnss : GnssSt := {}
  /-- PORT block. -/
  port : PortBlk := {}
  /-- WAYP block. -/
  wayp : WaypSt := {}
  /-- SERV block. -/
  serv : ServSt := {}
  /-- PTPE block. -/
  ptp : PtpSt := {}
  /-- FOOT block. -/
  foot : FootSt := {}
  /-- Canister key vault and firmware. -/
  vault : VaultSt := {}
  /-- Configuration flash. -/
  flash : FlashSt := {}
  /-- MBOX block, PCIe functions, host SPI and SMBus targets. -/
  host : HostSt := {}
  /-- Host slots. -/
  slots : SlotsSt := {}
  /-- Register mechanisms: locks, sticky copies, reports, indirect window, shadows. -/
  regs : RegsSt := {}
  /-- ICU. -/
  icu : IcuSt := {}
  /-- Trail Register. -/
  trail : TrailSt := {}
  /-- Fault collector. -/
  fault : FaultSt := {}
  /-- Performance counters. -/
  perf : PerfSt := {}
  /-- Perturbation registers. -/
  pert : PertSt := {}
  /-- SYS block: mode, cause and common registers. -/
  sys : SysSt := {}
  deriving DecidableEq, Repr

/-- The block right after power-on reset: mode BOOT with cause 0x01, every field at the value the spec states for reset or
at the value the assumption log names. -/
def State.reset : State := {}

end Sys2Proof.Machine
end

