-- ==== Sys2Proof/Machine/Ops.lean ====
section
/-!
DEFINITION. The named operations every meaning is built from: fields and bytes, sparse maps in canonical form, sticky
status and its reports, the interrupt controller with its signals, the Trail Register, denials, counters, completions and
held messages.
-/
namespace Sys2Proof.Machine
open Sys2Proof

/-- The outcome type of this machine's meanings. -/
abbrev Out := Host.Outcome State Fault Refusal

/-! ## Numbers, bytes and vectors -/

/-- A truth value as a bit. -/
def bit (b : Bool) : Nat := if b then 1 else 0

/-- The low `w` bits of a number. -/
def low (w : Nat) (v : Nat) : Nat := v % 2 ^ w

/-- Bits `[hi:lo]` of a number. -/
def bits (v hi lo : Nat) : Nat := v / 2 ^ lo % 2 ^ (hi + 1 - lo)

/-- The two's-complement pattern of a signed number in `w` bits. -/
def twos (w : Nat) (v : Int) : Nat := (v % (2 ^ w : Int)).toNat

/-- Reads a `w`-bit pattern as two's complement. -/
def sgn (w : Nat) (v : Nat) : Int := if v % 2 ^ w < 2 ^ (w - 1) then (v % 2 ^ w : Nat) else ((v % 2 ^ w : Nat) : Int) - 2 ^ w

/-- Saturates an unsigned number to `w` bits. -/
def satU (w : Nat) (v : Nat) : Nat := min v (2 ^ w - 1)

/-- Saturates a signed number to `w` bits. -/
def satI (w : Nat) (v : Int) : Int := max (-(2 ^ (w - 1) : Int)) (min v (2 ^ (w - 1) - 1))

/-- Saturates an uncertainty or ERRB quantity to 32 bits (00 R10). -/
def satE (v : Nat) : Nat := satU 32 v

/-- Ceiling division. -/
def cdiv (a b : Nat) : Nat := (a + b - 1) / b

/-- Division of a signed number rounded to nearest, halves away from zero. -/
def rdiv (a : Int) (b : Nat) : Int := if a < 0 then -((2 * (-a) + b) / (2 * b)) else (2 * a + b) / (2 * b)

/-- `n` bytes of a number, little-endian (00 R5). -/
def le (n v : Nat) : List Byte := (List.range n).map fun i => BitVec.ofNat 8 (v / 2 ^ (8 * i))

/-- `n` bytes of a signed number, little-endian. -/
def leI (n : Nat) (v : Int) : List Byte := le n (twos (8 * n) v)

/-- `n` zero bytes. -/
def zeros (n : Nat) : List Byte := List.replicate n 0#8

/-- The number a little-endian byte string stands for. -/
def leVal (bs : List Byte) : Nat := bs.foldr (fun b a => b.toNat + 256 * a) 0

/-- The number a big-endian byte string stands for. -/
def beVal (bs : List Byte) : Nat := bs.foldl (fun a b => 256 * a + b.toNat) 0

/-- `n` bytes of a number in network order (00 R5). -/
def be (n v : Nat) : List Byte := (le n v).reverse

/-- The bytes of an address in network order. -/
def addrRaw : NetAddr → List Byte
  | .v4 a => be 4 a.toNat
  | .v6 a => be 16 a.toNat

/-- The 16-byte network-order form of an address in a payload: IPv4 in the first four bytes (13 R300). -/
def addrBytes : NetAddr → List Byte
  | .v4 a => be 4 a.toNat ++ zeros 12
  | .v6 a => be 16 a.toNat

/-- A word of a number. -/
def w32 (v : Nat) : Word := BitVec.ofNat 32 v

/-- Packs `(position, value)` pairs into a word: each value is shifted to its position and the results are joined. -/
def pack (fs : List (Nat × Nat)) : Word := fs.foldl (fun a f => a ||| w32 (f.2 * 2 ^ f.1)) 0#32

/-- Bit `i` of a bit vector given by a number. -/
def bitAt {w : Nat} (v : BitVec w) (i : Nat) : Bool := v.getLsbD i

/-- A bit vector with bit `i` given. -/
def putBit {w : Nat} (v : BitVec w) (i : Nat) (b : Bool) : BitVec w :=
  if b then v ||| (1#w <<< i) else v &&& ~~~(1#w <<< i)

/-- The number of ones. -/
def ones {w : Nat} (v : BitVec w) : Nat := (List.range w).foldl (fun a i => a + bit (v.getLsbD i)) 0

/-- The lowest set bit. -/
def lowest {w : Nat} (v : BitVec w) : Option Nat := (List.range w).find? fun i => v.getLsbD i

/-- Applies a function to one element of a vector. -/
def upd {α : Type} {n : Nat} (v : Vector α n) (i : Fin n) (f : α → α) : Vector α n := v.set i.1 (f v[i]) i.2

/-- Applies a function to every element of a vector. -/
def updAll {α β : Type} {n : Nat} (v : Vector α n) (f : Fin n → α → β) : Vector β n := Vector.ofFn fun i => f i v[i]

/-- The finite number below `n` that a byte or word names, if it names one. -/
def fin? (n : Nat) (v : Nat) : Option (Fin n) := if h : v < n then some ⟨v, h⟩ else none

/-- Applies a function to the first element of a list that satisfies a test. -/
def updFirst {α : Type} (p : α → Bool) (f : α → α) : List α → List α
  | [] => []
  | a :: l => if p a then f a :: l else a :: updFirst p f l

/-! ## Sparse maps in canonical form

Keys strictly rising and no entry equal to what an unlisted key reads as, so that equal maps are equal lists. -/

/-- What a key reads as. -/
def mget {α : Type} (d : α) (k : Nat) : List (Nat × α) → α
  | [] => d
  | (a, v) :: l => if a = k then v else if k < a then d else mget d k l

/-- Writes a key; writing the default removes its entry. -/
def mset {α : Type} [DecidableEq α] (d : α) (k : Nat) (v : α) : List (Nat × α) → List (Nat × α)
  | [] => if v = d then [] else [(k, v)]
  | (a, u) :: l =>
    if a = k then (if v = d then l else (k, v) :: l)
    else if k < a then (if v = d then (a, u) :: l else (k, v) :: (a, u) :: l)
    else (a, u) :: mset d k v l

/-- The canonical form. -/
def mwf {α : Type} [DecidableEq α] (d : α) : List (Nat × α) → Bool
  | [] => true
  | (a, v) :: l => decide (v ≠ d) && l.all (fun e => decide (a < e.1)) && mwf d l

/-- Writes consecutive bytes of a byte memory. -/
def mputs (d : Byte) (k : Nat) : List Byte → List (Nat × Byte) → List (Nat × Byte)
  | [], m => m
  | b :: bs, m => mputs d (k + 1) bs (mset d k b m)

/-- Reads consecutive bytes of a byte memory. -/
def mgets (d : Byte) (k n : Nat) (m : List (Nat × Byte)) : List Byte := (List.range n).map fun i => mget d (k + i) m

/-- Removes every key of a half-open range. -/
def mclear {α : Type} (lo hi : Nat) (m : List (Nat × α)) : List (Nat × α) := m.filter fun e => e.1 < lo || hi ≤ e.1

/-! ## Codes -/

/-- SYS_MODE.CUR code (00 table "Operating modes"). -/
def modeCode : Mode → Nat
  | .boot => 0 | .provision => 1 | .acquire => 2 | .serve => 3 | .holdover => 4 | .standby => 5 | .recovery => 6 | .quiesce => 7

/-- SYS_SLOT.ROLE code (16 SYS_SLOT). -/
def roleCode : Role → Nat
  | .owner => 0 | .operator => 1 | .auditor => 2 | .none_ => 3

/-- The role of a code. -/
def roleOfCode : Nat → Role
  | 0 => .owner | 1 => .operator | 2 => .auditor | _ => .none_

/-- SIGN_SLOTn_STAT.STATE code (04 R76). -/
def slotCode : SlotState → Nat
  | .disabled => 0 | .monitor => 1 | .qualifying => 2 | .qualified => 3 | .selected => 4 | .disputed => 5 | .softFail => 6
  | .failed => 7

/-- FOOT_STAT.LSTATE code (15 R338). -/
def leaseCode : LeaseState → Nat
  | .off => 0 | .cold => 1 | .follow => 2 | .hold => 3 | .retake => 4 | .conflict => 5 | .handover => 6

/-- Modes in which sticky fields clear on read (19 R420); in the others they clear by acknowledge. -/
def modeNormal : Mode → Bool
  | .acquire | .serve | .holdover | .standby | .quiesce => true
  | .boot | .provision | .recovery => false

/-- The role a slot holds. -/
def roleOf (s : State) (i : Fin 8) : Role := s.slots.s[i].role

/-- The lease is held, or counts as held because Footbridge is disabled (02 R24, 15 R334). -/
def leaseHeld (s : State) : Bool := !s.foot.en || s.foot.lstate == .hold || s.foot.lstate == .handover

/-- Some perturbation kind is armed (22 R465). -/
def pertArmed (s : State) : Bool := s.pert.k.toList.any (·.armed)

/-! ## Sticky fields

One word per (copy, register): copies 0-7 belong to the host slots, copy 8 is shared. A register is named by its window
offset, or by 2^20 plus its indirect address. -/

/-- Registers whose sticky fields have one copy per host slot (05 R116 and the register tables of each chapter). -/
def perSlotReg (r : Nat) : Bool :=
  r == 0x00010 || r == 0x10004 || r == 0x20004 || r == 0x302A0 || (0x40300 ≤ r && r < 0x40330) || r == 0x40340 ||
  r == 0x80128 || r == 0x801A8 || r == 0x80228 || r == 0x802A8 || r == 0x9010C || r == 0x9014C || r == 0x9018C || r == 0x90128 || r == 0x90168 || r == 0x901A8 || r == 0x901E8 ||
  r == 0x901CC || r == 0xA0040 || r == 0xB0080 || r == 0xC0080 || r == 0xD0004 || r == 0xD0008

/-- Key of a sticky word. -/
def stickyKey (copy r : Nat) : Nat := copy * 2 ^ 28 + r

/-- The copy a reader sees of a register. -/
def stickyCopy (rd r : Nat) : Nat := if perSlotReg r then rd else 8

/-- The sticky word a reader sees. -/
def stickyOf (s : State) (rd r : Nat) : Word := mget 0#32 (stickyKey (stickyCopy rd r) r) s.regs.sticky

/-- Bits hardware writes again into the reports held on a register (19 R422). -/
def againReports (copies : Nat → Bool) (r : Nat) (v : Word) (l : List Report) : List Report :=
  l.map fun q => if q.reg == r && copies q.slot.1 then { q with again := q.again ||| v } else q

/-- Sets sticky bits in one copy. -/
def stickyIn (copy r : Nat) (v : Word) (g : RegsSt) : RegsSt :=
  { g with sticky := mset 0#32 (stickyKey copy r) (mget 0#32 (stickyKey copy r) g.sticky ||| v) g.sticky,
           reports := againReports (fun i => !perSlotReg r || i == copy) r v g.reports }

/-- The copies a hardware update of a register reaches. -/
def copiesOf (r : Nat) : List Nat := if perSlotReg r then List.range 8 else [8]

/-- Sets sticky bits of a register in every copy. -/
def stickyRegs (r : Nat) (v : Word) (g : RegsSt) : RegsSt := (copiesOf r).foldl (fun g c => stickyIn c r v g) g

/-- Sets sticky bits of a register. -/
def sticky (r : Nat) (v : Word) (s : State) : State := { s with regs := stickyRegs r v s.regs }

/-- Sets sticky bits of one slot's copy. -/
def stickyAt (i : Nat) (r : Nat) (v : Word) (s : State) : State := { s with regs := stickyIn i r v s.regs }

/-- Replaces a sticky field of `w` bits at `lo` in one copy by a function of its value, marking it written. -/
def stickyField (r lo w : Nat) (f : Nat → Nat) (c : Nat) (g : RegsSt) : RegsSt :=
  let old := mget 0#32 (stickyKey c r) g.sticky
  let mask := w32 ((2 ^ w - 1) * 2 ^ lo)
  let new := (old &&& ~~~mask) ||| (w32 (f (bits old.toNat (lo + w - 1) lo) * 2 ^ lo) &&& mask)
  { g with sticky := mset 0#32 (stickyKey c r) new g.sticky,
           reports := againReports (fun i => !perSlotReg r || i == c) r mask g.reports }

/-- Increments a saturating sticky count field. -/
def stickyCount (r lo w n : Nat) (s : State) : State :=
  { s with regs := (copiesOf r).foldl (fun g c => stickyField r lo w (fun v => satU w (v + n)) c g) s.regs }

/-- Writes a sticky cause field that keeps its first value until cleared. -/
def stickyFirst (r lo w v : Nat) (s : State) : State :=
  { s with regs := (copiesOf r).foldl (fun g c =>
    if bits (mget 0#32 (stickyKey c r) g.sticky).toNat (lo + w - 1) lo = 0 then stickyField r lo w (fun _ => v) c g else g) s.regs }

/-- Writes a sticky cause field with the latest value. -/
def stickyLast (r lo w v : Nat) (s : State) : State :=
  { s with regs := (copiesOf r).foldl (fun g c => stickyField r lo w (fun _ => v) c g) s.regs }

/-- Raises a sticky field to a larger value (a peak). -/
def stickyMax (r lo w v : Nat) (s : State) : State :=
  { s with regs := (copiesOf r).foldl (fun g c =>
    if bits (mget 0#32 (stickyKey c r) g.sticky).toNat (lo + w - 1) lo < v then stickyField r lo w (fun _ => satU w v) c g else g) s.regs }

/-! ## Interrupt controller and signals -/

/-- Sources of which a slot receives only those naming it (19 R428, 16 R364). -/
def ownOnly (r : Role) (src : Nat) : Bool :=
  (148 ≤ src && src ≤ 155) || (224 ≤ src && src ≤ 239) ||
  (r == .operator && ((160 ≤ src && src ≤ 164) || (176 ≤ src && src ≤ 179) || src == 184 || (208 ≤ src && src ≤ 211) || src == 221))

/-- Sources a slot may receive under its role (16 R364); `own` says that the source names the slot. -/
def mayReceive (r : Role) (own : Bool) (src : Nat) : Bool :=
  src != 0 && src != 255 && src < 256 && (!ownOnly r src || own) &&
  match r with
  | .owner => true
  | .operator =>
    src == 1 || src == 8 || src == 9 || (128 ≤ src && src ≤ 131) || (148 ≤ src && src ≤ 155) || (160 ≤ src && src ≤ 164) ||
    (176 ≤ src && src ≤ 179) || src == 184 || src == 192 || src == 193 || (208 ≤ src && src ≤ 211) || src == 221 ||
    (224 ≤ src && src ≤ 239)
  | .auditor =>
    src ≤ 63 || src == 64 || src == 65 || src == 72 || (89 ≤ src && src ≤ 92) || (96 ≤ src && src ≤ 139) ||
    (144 ≤ src && src ≤ 155) || src == 165 || src == 166 || (180 ≤ src && src ≤ 183) || src == 185 || src == 186 ||
    (192 ≤ src && src ≤ 207) || src == 213 || src == 214 || (217 ≤ src && src ≤ 220) || src == 222 || (224 ≤ src && src ≤ 239)
  | .none_ => false

/-- A slot's own mailbox sources (18 R409). -/
def ownMailbox (i src : Nat) : Bool := src == 224 + 2 * i || src == 225 + 2 * i

/-- The sources a target's words may show: those its slot may receive, every source for the management processor. -/
def sourceMask (s : State) (t : Fin 9) : BitVec 256 :=
  (List.range 256).foldl (fun m src =>
    if (if h : t.1 < 8 then mayReceive (roleOf s ⟨t.1, h⟩) ((224 ≤ src && src ≤ 239) → ownMailbox t.1 src) src
        else src != 0 && src != 255) then m ||| (1#256 <<< src) else m) 0#256

/-- Pending, enabled and not in service. -/
def IcuTarget.live (t : IcuTarget) : BitVec 256 := t.pend &&& t.en &&& ~~~t.insvc

/-- The slot's endpoint is a PCIe function (16 R354). -/
def pfOf (s : State) (i : Fin 8) : Option (Fin 8) :=
  match s.slots.s[i].bind with
  | some b => fin? 8 b.1
  | none => none

/-- The function of a slot can write host memory (18 R408); SPI and SMBus rings lie in the device. -/
def canWrite (s : State) (i : Fin 8) : Bool :=
  match pfOf s i with
  | some f => s.host.pf[f].busMaster && s.host.pf[f].d0 && s.host.pcieUp
  | none => s.slots.s[i].bind.isSome

/-- Sends the signal of one slot's target: an MSI-X message, or the pin (18 R409). -/
def MboxSlot.signal (m : MboxSlot) (pcie : Bool) : MboxSlot :=
  { m with signals := m.signals + 1, hold := none, pin := !pcie }

/-- One slot's signalling after a change of its target to the live sources `live`, at Odometer tick `odo`. `again` asks for a
message although the condition did not rise: after a complete, at a return, at the end of a sleep. After ACK a source that becomes
live wakes the host; otherwise a rise signals, or starts a hold (18 R409, R410). -/
def mboxEval (bound pcie l2 pme : Bool) (live : BitVec 256) (odo : Nat) (again : Bool) (m0 : MboxSlot) : MboxSlot × Bool :=
  let fresh := decide (live &&& ~~~m0.live ≠ 0#256)
  let m := { m0 with live := live }
  if live = 0#256 then ({ m with cond := false, hold := none, pin := false }, false)
  else if m.lost || !bound then ({ m with cond := true }, false)
  else if m.sleepAck then
    if m.wake || !fresh then ({ m with cond := true }, false)
    else ({ m with cond := true, wake := true, wakePin := !pcie || l2 }, pcie && pme && !l2)
  else if m.cond && !again then (m, false)
  else if m.modUs = 0 || again then ({ m.signal pcie with cond := true }, false)
  else ({ m with cond := true, hold := some 0, holdAt := odo }, false)

/-- Evaluates the signal of slot `i`: its mailbox, its function and its target. A wake request raises the slot's MBOX_EVT,
where its role receives one (18 R409, 16 R364). -/
def evalSlot (sl : SlotsSt) (odo : Nat) (again : Bool) (i : Fin 8) (p : IcuSt × HostSt) : IcuSt × HostSt :=
  let bind := sl.s[i].bind
  let pf := bind.bind fun b => fin? 8 b.1
  let ti : Fin 9 := ⟨i.1, by omega⟩
  let t := p.1.t[ti]
  let now := decide (t.live ≠ 0#256)
  let m := p.2.mbox[i]
  let fn := pf.map fun f => p.2.pf[f]
  let (m', pme) := mboxEval bind.isSome pf.isSome (fn.elim false (·.l2)) (fn.elim false (·.pmeEn)) t.live odo again m
  let evt := m'.wake && !m.wake && mayReceive sl.s[i].role true (225 + 2 * i.1)
  let t' := { t with sigSince := t.sigSince || (now && (!m.cond || again)),
                     pend := if evt then t.pend ||| (1#256 <<< (225 + 2 * i.1)) else t.pend }
  ({ p.1 with t := p.1.t.set ti.1 t' },
   { p.2 with mbox := p.2.mbox.set i.1 m',
              pf := match pf with
                | some f => if pme then upd p.2.pf f (fun x => { x with pmes := x.pmes + 1 }) else p.2.pf
                | none => p.2.pf })

/-- Evaluates every slot's signal and the management target's SIG_SINCE. -/
def icuEval (s : State) : State :=
  let p := (List.finRange 8).foldl (fun p i => evalSlot s.slots s.time.odo false i p) (s.icu, s.host)
  let m8 := p.1.t[8]
  let now := decide (m8.live ≠ 0#256)
  { s with
    icu := { p.1 with
      mgmtCond := now, t := p.1.t.set 8 { m8 with sigSince := m8.sigSince || (now && !p.1.mgmtCond) } }
    host := p.2 }

/-- Evaluates one slot's signal as if its condition rose (18 R409, R410, R412). -/
def icuAgain (i : Fin 8) (s : State) : State :=
  let p := evalSlot s.slots s.time.odo true i (s.icu, s.host)
  { s with icu := p.1, host := p.2 }

/-- Sets the pending bit of a source in every target that may receive it; `own` names the slots the source names. The
interrupt controller lies in MGMT: while Ridgepole is unlocked it is held in reset (01 R19, 20 R434). -/
def pendSet (own : Nat → Bool) (src : Nat) (s : State) : IcuSt :=
  if !s.aon.locked then s.icu
  else { s.icu with t := updAll s.icu.t fun i t =>
      if (if h : i.1 < 8 then mayReceive (roleOf s ⟨i.1, h⟩) (own i.1) src else true) then
        { t with pend := t.pend ||| (1#256 <<< src) } else t }

/-- Raises a source (19 R428). -/
def raise (src : Nat) (s : State) : State := icuEval { s with icu := pendSet (fun _ => true) src s }

/-- Raises a source that names slots (19 R428): an Operator among them receives it, the others do not. -/
def raiseFor (own : Nat → Bool) (src : Nat) (s : State) : State := icuEval { s with icu := pendSet own src s }

/-- Raises a source for one slot. -/
def raiseTo (i : Fin 8) (src : Nat) (s : State) : State := raiseFor (· == i.1) src s

/-- Raises a source to a slot and to slot 0. -/
def raiseOwn (i : Fin 8) (src : Nat) (s : State) : State := raiseFor (fun k => k == i.1 || k == 0) src s

/-- Raises a list of sources in order. -/
def raiseAll (l : List Nat) (s : State) : State := l.foldl (fun s x => raise x s) s

/-! ## Trail Register (21) -/

/-- Bytes of a record with its header. -/
def TrailRec.size (r : TrailRec) : Nat := 8 + r.payload.length

/-- TIME field of a record header (21 R453): bits [27:0] and the power cycle modulo 16. -/
def trailTime (s : State) : Nat × Nat := (min s.aon.ophrs 0xFFFFFFF, s.aon.pcycle % 16)

/-- The latest record takes one more occurrence when it equals the new one and is still open (21 R453). -/
def repeatLast (ty : Nat) (pl : List Byte) : List TrailRec → Option (List TrailRec)
  | [] => none
  | [r] => if r.type = ty && r.payload == pl && !r.closed then some [{ r with rep := min (r.rep + 1) 65535 }] else none
  | r :: l => (repeatLast ty pl l).map (r :: ·)

/-- Drops the records a write up to `hi` of the circular area's running count overwrites; counts those not flushed. -/
def overwrite (hi : Nat) (l : List TrailRec) : List TrailRec × Nat :=
  (l.filter fun r => !decide (r.pos + 49152 < hi),
   (l.filter fun r => decide (r.pos + 49152 < hi) && !r.flushed && r.type != 0).length)

/-- Writes one record to the circular area, a PAD before it where it would pass the end (21 R452). -/
def circPut (r : TrailRec) (t : TrailSt) : TrailSt × Nat :=
  let rest := 49152 - t.circPos % 49152
  let pad := decide (rest < r.size)
  let start := if pad then t.circPos + rest else t.circPos
  let padRec := { r with type := 0, rep := 1, payload := zeros (rest - 8), pos := t.circPos, closed := true }
  let (kept, n) := overwrite (start + r.size) t.circ
  ({ t with circ := kept ++ (if pad then [padRec] else []) ++ [{ r with pos := start }], circPos := start + r.size }, n)

/-- Appends a record and, where it overwrote records not flushed, the TRAIL_LOST record that counts them (21 R452). -/
def circAdd (r : TrailRec) (t : TrailSt) : TrailSt × Nat :=
  let (t1, n) := circPut r t
  if n = 0 then (t1, 0)
  else
    let lr (k : Nat) : TrailRec := { r with type := 0x17, rep := 1, payload := le 4 k ++ zeros 4, closed := false, flushed := false }
    let (_, m) := circPut (lr 0) t1
    let (t2, _) := circPut (lr (t1.lostSince + n + m)) t1
    ({ t2 with lostSince := 0 }, n + m)

/-- Writes a record: repeats the latest one, fills the first area, or goes to the circular area (21 R451-R453). Answers
the records overwritten unflushed. -/
def trailWrite (tm : Nat × Nat) (ty : Nat) (pl : List Byte) (t : TrailSt) : TrailSt × Nat :=
  let r : TrailRec := { type := ty, payload := pl, time := tm.1, pcyc := tm.2, pos := t.firstFill }
  if t.firstFull then
    match repeatLast ty pl t.circ with
    | some c => ({ t with circ := c }, 0)
    | none => circAdd r t
  else
    match repeatLast ty pl t.first with
    | some f => ({ t with first := f }, 0)
    | none =>
      if t.firstFill + r.size ≤ 16384 then ({ t with first := t.first ++ [r], firstFill := t.firstFill + r.size }, 0)
      else circAdd r { t with firstFull := true }

/-- Writes a Trail record; records overwritten unflushed count in FAULT_TRAIL_STAT.LOST. -/
def trail (ty : Nat) (pl : List Byte) (s : State) : State :=
  let p := trailWrite (trailTime s) ty pl s.trail
  { s with trail := p.1,
           regs := if p.2 = 0 then s.regs else stickyField 0xD0040 16 16 (fun v => satU 16 (v + p.2)) 8 s.regs }

/-! ## Denials (16 R365, R367) -/

/-- Counts a denial of a slot, keeps it as the last one, and writes the ACCESS_DENIED record and SLOT_DENIED for the first
one in a second of the operating-hours meter. -/
def deny (i : Fin 8) (kind where_ : Nat) (s : State) : State :=
  let q := s.slots.s[i]
  let q1 := { q with deny := satU 32 (q.deny + 1), denyWhere := where_ % 2 ^ 20, denyKind := kind }
  if q.denySec = some s.aon.ophrs then
    { s with slots := { s.slots with s := s.slots.s.set i.1 { q1 with denySince := q.denySince + 1 } } }
  else
    raiseOwn i 221 (trail 0x13 ([BitVec.ofNat 8 i.1, BitVec.ofNat 8 kind] ++ zeros 2 ++ le 4 (where_ % 2 ^ 20) ++
        le 4 (q.denySince + 1) ++ zeros 4)
      { s with slots := { s.slots with s := s.slots.s.set i.1 { q1 with denySec := some s.aon.ophrs, denySince := 0 } } })

/-! ## Performance counters (22 R458) -/

/-- Adds to a counter modulo 2^48. -/
def cntAdd (key n : Nat) (m : List (Nat × Nat)) : List (Nat × Nat) := mset 0 key ((mget 0 key m + n) % 2 ^ 48) m

/-- Counts `n` events at an index: the device total and, for a counter kept per slot, the slot's tally. -/
def countN (idx : Nat) (slot : Option (Fin 8)) (n : Nat) (s : State) : State :=
  let m := cntAdd (idx * 9) n s.perf.cnt
  { s with perf := { s.perf with cnt := match slot with
      | some i => cntAdd (idx * 9 + 1 + i.1) n m
      | none => m } }

/-- Counts one event. -/
def count (idx : Nat) (slot : Option (Fin 8)) (s : State) : State := countN idx slot 1 s

/-- An address lies within a prefix of the same family. -/
def inPrefix (pre : NetAddr) (len : Nat) : NetAddr → Bool
  | .v4 a => match pre with | .v4 b => a.toNat / 2 ^ (32 - len) == b.toNat / 2 ^ (32 - len) | .v6 _ => false
  | .v6 a => match pre with | .v6 b => a.toNat / 2 ^ (128 - len) == b.toNat / 2 ^ (128 - len) | .v4 _ => false

/-- Counts `n` events of service counter `k` on a port for a slot and a source address, with the programmable counters of
class SERV_PREFIX that see them (13 R298, 22 R461). -/
def servCount (p : Fin 4) (k : Nat) (slot : Fin 8) (src : NetAddr) (n : Nat) (s : State) : State :=
  (List.finRange 64).foldl (fun s j =>
    match s.perf.bound[j] with
    | some b =>
      if b.cls == 8 && b.event == k && inPrefix b.pre b.len src && b.ports.getLsbD p.1 && (b.master == 0xFF || b.master == slot.1) then
        countN (960 + j.1) (if b.master < 8 then some slot else none) n s
      else s
    | none => s) (countN (192 + 32 * p.1 + k) (some slot) n s)

/-! ## Completions and messages (18) -/

/-- Elements of a ring (18 R399). -/
def ringSize (s : State) (i : Fin 8) (k : Nat) : Nat := if (pfOf s i).isSome then 2 ^ k else 32

/-- Elements a message takes (18 R399). -/
def Msg.elems (m : Msg) : Nat := cdiv (16 + m.payload.length) 64

/-- A message fits the slot's completion ring at all (18 R401). -/
def fitsRing (s : State) (i : Fin 8) (len : Nat) : Bool := decide (cdiv (16 + len) 64 ≤ ringSize s i s.host.mbox[i].cplSize)

/-- Elements of padding before a message of `n` elements that would wrap (18 R399). -/
def padFor (size pi n : Nat) : Nat := if pi % size + n ≤ size then 0 else size - pi % size

/-- The 16-byte header of a completion or unsolicited message (18 R402). -/
def Msg.bytes (m : Msg) (major : Nat) : List Byte :=
  [BitVec.ofNat 8 major, 0#8] ++ le 2 m.op ++ le 2 m.tag.toNat ++ le 2 m.payload.length ++ le 2 m.status ++
  le 2 (1 + 2 * bit m.unsol) ++ zeros 4 ++ m.payload

/-- Writes a message into the completion ring when room and access allow (18 R408); `none` when it must be held. -/
def ringPut (pcie can : Bool) (m : MboxSlot) (x : Msg) : Option MboxSlot :=
  let size := if pcie then 2 ^ m.cplSize else 32
  let held := (m.cplPi - m.cplCi).toNat
  let pad := padFor size m.cplPi.toNat x.elems
  if m.en && can && held + pad + x.elems ≤ size then
    let at_ := (m.cplPi.toNat + pad) % size
    let padHdr : List Byte := [BitVec.ofNat 8 m.major, 0#8] ++ zeros 8 ++ le 2 5 ++ zeros 4
    let win1 := if pad = 0 then m.win else mputs 0#8 (0x1800 + m.cplPi.toNat % size * 64) padHdr m.win
    let pi := m.cplPi + w32 (pad + x.elems)
    some { m with posted := x :: m.posted, cplPi := pi, wb := if pcie then (m.reqCi, pi) else m.wb,
                  win := if pcie then m.win else mputs 0#8 (0x1800 + at_ * 64) (x.bytes m.major) win1,
                  hold := m.hold.map (· + 1) }
  else none

/-- Ends a moderation hold whose completion count is reached (18 R409). -/
def modCount (pcie : Bool) (m : MboxSlot) : MboxSlot :=
  match m.hold with
  | some n => if m.modCnt ≠ 0 && m.modCnt ≤ n then m.signal pcie else m
  | none => m

/-- Delivers a message of a slot: posted with MBOX_CPL, held with MBOX_EVT, or discarded and counted when the slot is lost
(18 R408, R409, R411). -/
def deliver (i : Fin 8) (x : Msg) (s : State) : State :=
  let m := s.host.mbox[i]
  let put (m' : MboxSlot) : State := { s with host := { s.host with mbox := s.host.mbox.set i.1 m' } }
  if m.lost then put { m with lostCpl := satU 32 (m.lostCpl + 1) }
  else
    match if m.held.isEmpty then ringPut (pfOf s i).isSome (canWrite s i) m x else none with
    | some m' => raiseTo i (224 + 2 * i.1) (put (modCount (pfOf s i).isSome m'))
    | none =>
      if x.unsol then put { m with held := m.held ++ [x] }
      else raiseTo i (225 + 2 * i.1) (put { m with held := m.held ++ [x] })

/-- Ends a command: its entry leaves the commands in progress and its completion is delivered; a completion that is not OK
is header-only (18 R403, R407). -/
def complete (c : CmdRef) (op status : Nat) (pl : List Byte) (s : State) : State :=
  let s1 : State := { s with host := { s.host with mbox := upd s.host.mbox c.slot fun m =>
    { m with active := m.active.filter fun a => a.tag != c.tag } } }
  deliver c.slot { op := op, tag := c.tag, status := status, payload := if status = 0 || op = 0x100 then pl else [] } s1

/-- Writes held messages in order as room allows (18 R408). -/
def drainHeld (pcie can : Bool) : List Msg → MboxSlot → MboxSlot × Bool
  | [], m => (m, false)
  | x :: l, m =>
    match ringPut pcie can { m with held := [] } x with
    | some m' => let r := drainHeld pcie can l { m' with held := l }; (r.1, true)
    | none => ({ m with held := x :: l }, false)

/-- Retries a slot's held messages; what is posted raises MBOX_CPL. -/
def flushHeld (i : Fin 8) (s : State) : State :=
  let m := s.host.mbox[i]
  let r := drainHeld (pfOf s i).isSome (canWrite s i) m.held m
  let s1 : State := { s with host := { s.host with mbox := s.host.mbox.set i.1 r.1 } }
  if r.2 then raiseTo i (224 + 2 * i.1) s1 else s1

/-! ## Check sums of frames -/

/-- CRC-32C over bytes, least significant bit first (14 R307). -/
def crc32c (bs : List Byte) : BitVec 32 :=
  ~~~ bs.foldl (fun c b => (List.range 8).foldl (fun c _ => if c.getLsbD 0 then (c >>> 1) ^^^ 0x82F63B78#32 else c >>> 1)
    (c ^^^ b.setWidth 32)) 0xFFFFFFFF#32

/-- Sum of a byte string as big-endian 16-bit words, an odd last byte padded with zero. -/
def sum16 : List Byte → Nat
  | a :: b :: l => a.toNat * 256 + b.toNat + sum16 l
  | [a] => a.toNat * 256
  | [] => 0

/-- The Internet checksum of a sum below 2^32; 0 is sent as its complement (13 R288, 15 R347). -/
def checksum (n : Nat) : BitVec 16 :=
  let f (x : Nat) : Nat := x % 65536 + x / 65536
  let c := ~~~BitVec.ofNat 16 (f (f n))
  if c = 0#16 then 0xFFFF#16 else c

/-! ## Random draws -/

/-- Takes a draw of the random bit generator: the number that names its free value. -/
def draw (s : State) : Nat × State := (s.vault.draws, { s with vault := { s.vault with draws := s.vault.draws + 1 } })

/-- `n` bytes of a draw. -/
def randBytes (d n : Nat) : List Byte := (List.range n).map (Config.random d)

end Sys2Proof.Machine
end

