-- ==== Sys2Proof/Machine/Clock.lean ====
section
/-!
DEFINITION. The time counter and the Odometer as functions of the state: their arithmetic, the counter at an instant, ERRB on a
port (01 R9-R13, 03 R51, R64).
-/
namespace Sys2Proof.Machine
open Sys2Proof

/-! ## Counter arithmetic -/

/-- One nanosecond in units of 2^-48 ns. -/
def nsU : Nat := 2 ^ 48

/-- One second in units of 2^-48 ns. -/
def secU : Nat := 1000000000 * 2 ^ 48

/-- The counter's modulus: 48 bits of seconds (00 R8). -/
def cntMod : Nat := 2 ^ 48 * secU

/-- TIME_SEC of a counter value. -/
def secOf (c : Nat) : Nat := c / secU % 2 ^ 48

/-- TIME_NS of a counter value (00 R9). -/
def nsOf (c : Nat) : Nat := c % secU / nsU

/-- TIME_FRAC of a counter value: the top 16 of the 48 fraction bits. -/
def fracOf (c : Nat) : Nat := c % nsU / 2 ^ 32

/-- Picoseconds as counter units, rounded down. -/
def psU (ps : Int) : Int := ps * (2 ^ 48 : Int) / 1000

/-- A counter difference in picoseconds, rounded down. -/
def uPs (u : Int) : Int := u * 1000 / (2 ^ 48 : Int)

/-- Adds a signed amount to a counter value. -/
def cntPlus (c : Nat) (d : Int) : Nat := (((c : Int) + d) % (cntMod : Int)).toNat

/-- The advance per tick in force: INCR + SLEW (03 R51). -/
def rate (s : State) : Int := (s.time.incr : Int) + s.time.slew

/-- The counter value at an Odometer tick of the present steering period (03 R51). -/
def cntAt (s : State) (odo : Nat) : Nat := cntPlus s.time.cnt (((odo : Int) - s.time.bOdo) * rate s)

/-- The counter value at a quarter-tick position of the present steering period (01 R13, 03 R51). -/
def cntAtQ (s : State) (q : Nat) : Nat := cntPlus s.time.cnt (((q : Int) - 4 * s.time.bOdo) * rate s / 4)

/-- The time the Odometer counts at its nominal period of 1.28 ns, 2^-48 ns (01 R9). -/
def odoTime (odo : Nat) : Int := rdiv ((odo : Int) * 2 ^ 55) 100

/-- The counter value now. -/
def cntNow (s : State) : Nat := cntAt s s.time.odo

/-- TIME_SEC now. -/
def secNow (s : State) : Nat := secOf (cntNow s)

/-- A power domain is on. -/
def powered (s : State) (d : Nat) : Bool := s.aon.pwrOn.getLsbD d

/-- The domains derived from Ridgepole run and PD_TIME is powered. -/
def timeUp (s : State) : Bool := s.aon.locked && powered s 1

/-- Moves the Odometer to a tick of the present steering period; it never moves back. -/
def atTick (off : BitVec 16) (s : State) : State :=
  { s with time := { s.time with odo := max s.time.odo (s.time.bOdo + off.toNat) } }

/-- Moves the Odometer to a tick of the present steering period where it runs: while PD_TIME is gated it stands. -/
def atOdo (off : BitVec 16) (s : State) : State := if timeUp s then atTick off s else s

/-- Moves the AON time to a cycle of AON_XTAL, 40 ns; it never moves back (15 R332). -/
def atCk (ck : Nat) (s : State) : State := { s with foot := { s.foot with ck := max s.foot.ck ck } }

/-- The AON time as far as the events so far tell it: the cycle named last, or the operating-hours meter (20 R441, log 190). -/
def aonNow (s : State) : Nat := max s.foot.ck (s.aon.ophrs * 25000000)

/-- The Odometer stands `n` ticks after the first tick at or after a counter value. -/
def landsAt (s : State) (u n : Nat) : Bool :=
  let d := (cntNow s : Int) - n * rate s - u
  decide (0 ≤ d) && decide (d < rate s)

/-- The Odometer stands at the first tick at or after an instant of a frame of the counter that repeats. -/
def landsEvery (s : State) (frame instant : Nat) : Bool :=
  let d := (cntNow s % frame : Nat) - (instant : Int)
  decide (0 ≤ d) && decide (d < rate s)

/-- Ticks of the Odometer in a second. -/
def tickSec : Nat := 781250000

/-- PERTURB_k_REMAIN: the seconds left of an armed kind's duration, rounded up, or the heartbeats left of kind 3 (22 R464). -/
def pertLeft (s : State) (k : Fin 4) : Nat :=
  let q := s.pert.k[k]
  if k = 3 then q.remain else if q.armed then cdiv (q.stop - s.time.odo) tickSec else 0

/-- Odometer seconds (14 R307). -/
def odoSec (s : State) : Nat := s.time.odo / tickSec

/-- Sum of bounds, saturating (03 R64, 00 R10). -/
def errbPlus (a b : Nat) : Nat := satE (a + b)

/-- ERRB on a port (03 R64). -/
def errbPort (s : State) (p : Fin 4) : Nat := if s.time.errb = 0xFFFFFFFF then 0xFFFFFFFF else errbPlus s.time.errb s.time.calUnc[p]

/-- Time a port's pause timer has stood non-zero since it was last counted, 1/25,000 us (11 R244). -/
def pausedUnits (s : State) (q : PortSt) : Nat := q.pauseRem + (if q.pauseTimer = 0 then 0 else (s.time.odo - q.pauseFrom) * 32)

/-- The device total of a counter: PAUSED_US counts a pause that runs up to now (11 R244, 22 R458). -/
def cntTotal (s : State) (n : Nat) : Nat :=
  let v := mget 0 (n * 9) s.perf.cnt
  if n % 32 = 23 then (fin? 4 (n / 32)).elim v fun p => (v + pausedUnits s s.port.p[p] / 25000) % 2 ^ 48 else v

end Sys2Proof.Machine
end

