-- ==== Sys2Proof/Machine/Wire.lean ====
section
/-!
DEFINITION. A port's wire: PCS block grid, transmit stamps, the slot fence, the transmit queues 0-6 with their completions,
the two-step store and the reservation of launch slots (11 R231-R237, 12 R250-R262).
-/
namespace Sys2Proof.Machine
open Sys2Proof

/-! ## Instants on the wire, in quarter-ticks of the Odometer (01 R13) -/

/-- A PCS block (11 R225, 01 R13). -/
def blockQ (mode : Nat) : Nat := match mode with | 2 => 20 | 3 => 25 | _ => 8

/-- Wire time of a frame: preamble and delimiter, the frame, the minimum gap (12 R255). -/
def wireQ (mode len : Nat) : Nat :=
  match mode with
  | 2 => cdiv ((len + 20) * 5) 2
  | 3 => (len + 20) * 25
  | _ => len + 20

/-- The first block boundary at or after an instant. -/
def blockCeil (mode q : Nat) : Nat := cdiv q (blockQ mode) * blockQ mode

/-- Nanoseconds in quarter-ticks, rounded up. -/
def nsQ (ns : Nat) : Nat := cdiv (ns * 25) 8

/-- Now. -/
def nowQ (s : State) : Nat := 4 * s.time.odo

/-- The present steering period reaches an instant. -/
def inPeriod (q : Nat) (s : State) : Bool := decide (cdiv q 4 ≤ s.time.bOdo + 65536)

/-- Moves the Odometer to an instant of the present steering period. -/
def atQ (q : Nat) (s : State) : State := { s with time := { s.time with odo := max s.time.odo (cdiv q 4) } }

/-- The counter at an instant of this or the next steering period, with the increments that will be in force (01 R12, R13). -/
def cntAhead (s : State) (q : Nat) : Nat :=
  let e := 4 * (s.time.bOdo + 65536)
  if q ≤ e then cntAtQ s q
  else cntPlus (cntAt s (s.time.bOdo + 65536)) (((q : Int) - e) * ((s.time.incrNext : Int) + s.time.slewNext) / 4)

/-- Transcoding offset of a start block at position `j` of its FEC frame (12 R251). -/
def fecUnits (j : Nat) : Int := (j : Int) * 38790 * 2 ^ 48 / 1000000

/-- Offset removed from a transmit stamp. -/
def txFec (s : State) (p : Fin 4) (q : Nat) : Int :=
  if s.port.p[p].fec then fecUnits ((q / 8 + Config.fecPhase p.1) % 32) else 0

/-- Transmit stamp of a frame whose start block leaves at an instant (12 R250, R251). -/
def txStamp (s : State) (p : Fin 4) (q : Nat) : Nat := cntPlus (cntAhead s q) (psU s.wayp.p[p].txLat - txFec s p q)

/-! ## Updates of one port -/

/-- Updates a port. -/
def onPort (p : Fin 4) (f : PortSt → PortSt) (s : State) : State := { s with port := { s.port with p := upd s.port.p p f } }

/-- Updates a port's Waypoint. -/
def onWayp (p : Fin 4) (f : WaypPort → WaypPort) (s : State) : State := { s with wayp := { s.wayp with p := upd s.wayp.p p f } }

/-- Counts a port counter of 11 R244. -/
def portCount (p : Fin 4) (k n : Nat) (slot : Option (Fin 8)) (s : State) : State := countN (32 * p.1 + k) slot n s

/-- Counts a Waypoint counter of 12 R264. -/
def waypCount (p : Fin 4) (k n : Nat) (slot : Option (Fin 8)) (s : State) : State := countN (128 + 16 * p.1 + k) slot n s

/-! ## The two-step store (12 R260, R261) -/

/-- Entries a slot holds on a port. -/
def tsqHeld (w : WaypPort) (i : Fin 8) : Nat := (w.tsq.filter (·.slot == i)).length

/-- A discarded stamp (12 R261). -/
def tsqDiscard (p : Fin 4) (e : TsqEnt) (s : State) : State :=
  let t := s.wayp.p[p].tsqSlot[e.slot]
  let r := 0x90128 + 0x40 * p.1
  let last := stickyField r 16 16 (fun _ => e.id.toNat) e.slot.1 s.regs
  let ids := if t.ovf = 0 then stickyField r 0 16 (fun _ => e.id.toNat) e.slot.1 last else last
  let s1 := onWayp p (fun w => { w with tsqSlot := upd w.tsqSlot e.slot fun t => { t with ovf := satU 16 (t.ovf + 1) } }) { s with regs := ids }
  waypCount p 12 1 (some e.slot) (raiseTo e.slot (152 + p.1) (stickyAt e.slot.1 (0x9010C + 0x40 * p.1) 0x80#32 s1))

/-- A new stamp enters the store or is discarded. -/
def tsqPut (p : Fin 4) (e : TsqEnt) (s : State) : State :=
  let w := s.wayp.p[p]
  let held := tsqHeld w e.slot
  if 64 ≤ w.tsq.length || w.tsqSlot[e.slot].limit ≤ held then tsqDiscard p e s
  else
    let s1 := waypCount p 11 1 (some e.slot) (onWayp p (fun w => { w with tsq := w.tsq ++ [e] }) s)
    if held = 0 then raiseTo e.slot (148 + p.1) s1 else s1

/-- Frees a slot's entries on a port (12 R262). -/
def tsqFree (p : Fin 4) (i : Fin 8) (s : State) : State := onWayp p (fun w => { w with tsq := w.tsq.filter (·.slot != i) }) s

/-- Withdraws the entry of a started frame that a link loss cuts: a descriptor that completes with FLUSHED leaves no timestamp
entry (11 R234; log 184). -/
def tsqUndo (p : Fin 4) (f : TxFrame) (s : State) : State :=
  match f.desc, f.start with
  | some d, some _ => onWayp p (fun w => { w with
      tsq := w.tsq.erase { id := d.tsId, slot := d.slot, queue := d.queue, stamp := f.stamp, errb := f.errb } }) s
  | _, _ => s

/-! ## Host transmit rings (11 R231-R235, 18 R400) -/

/-- TS_REQ of a descriptor's FLAGS. -/
def tsReq (d : TxDesc) : Bool := d.flags.getLsbD 0

/-- A frame of the descriptor is sent: LEN and FCS, padded to 64 bytes (11 R234). -/
def wireLen (d : TxDesc) : Nat := max 64 (d.len + 4)

/-- 64-byte cells of a frame. -/
def cellsOf (len : Nat) : Nat := cdiv len 64

/-- Cells of the general pool a queued frame holds: a PAUSE frame is of none of the queues 0-6 (11 R232). -/
def poolCells (f : TxFrame) : Nat := if f.queue = 7 then 0 else cellsOf f.len

/-- The 32 bytes of a ring element that holds a descriptor written back: STATUS, and DONE in FLAGS (11 R233). -/
def TxDone.bytes (x : TxDone) : List Byte :=
  le 8 x.d.buf.toNat ++ le 2 x.d.len ++ le 1 x.d.queue ++ [x.d.flags ||| 0x80#8] ++ le 2 x.d.tsId.toNat ++ le 2 x.status ++ zeros 16

/-- Host address of the element of an index. -/
def elemAddr (base : BitVec 64) (count : Nat) (idx : BitVec 32) : BitVec 64 := base + BitVec.ofNat 64 (32 * (idx.toNat % max 1 count))

/-- Updates a slot's transmit ring. -/
def onTxRing (p : Fin 4) (i : Fin 8) (f : TxRing → TxRing) (s : State) : State :=
  onPort p (fun q => { q with txRing := upd q.txRing i fun r => r.map f }) s

/-- The host's next descriptor enters the ring. -/
def TxRing.post (d : TxDesc) (r : TxRing) : TxRing := { r with pi := r.pi + 1, ents := r.ents ++ [{ idx := r.pi, d := d }] }

/-- The ring holds as many descriptors as it has elements (18 R400). -/
def TxRing.full (r : TxRing) : Bool := decide (r.count ≤ (r.pi - r.ci).toNat)

/-- The first descriptor of a queue that has not been taken. -/
def TxRing.next (r : TxRing) (k : Nat) : Option TxEnt := r.ents.find? fun e => !e.taken && e.status.isNone && e.d.queue == k

/-- Changes the entry of an index. -/
def TxRing.mark (idx : BitVec 32) (f : TxEnt → TxEnt) (r : TxRing) : TxRing :=
  { r with ents := r.ents.map fun e => if e.idx == idx then f e else e }

/-- The oldest entry is written back: STATUS and DONE, then the consumer index to the index-writeback address. -/
def TxRing.retire (st : Nat) (e : TxEnt) (r : TxRing) : TxRing :=
  { r with ci := r.ci + 1, ents := r.ents.tail, back := ({ idx := e.idx, d := e.d, status := st } :: r.back).take r.count }

/-- Entries at the head of a ring that have their status: those that can complete now (11 R234). -/
def readyEnts : List TxEnt → List (TxEnt × Nat)
  | [] => []
  | e :: l => match e.status with
    | some st => (e, st) :: readyEnts l
    | none => []

/-- One descriptor is written back, with the completion interrupt it asks for. -/
def txBack (p : Fin 4) (x : TxEnt × Nat) (s : State) : State :=
  let s1 := onTxRing p x.1.d.slot (TxRing.retire x.2 x.1) s
  if x.1.d.flags.getLsbD 1 then raiseTo x.1.d.slot (224 + 2 * x.1.d.slot.1) s1 else s1

/-- Completes a slot's descriptors in ring order. -/
def txSettle (p : Fin 4) (i : Fin 8) (s : State) : State :=
  (s.port.p[p].txRing[i].elim [] fun r => readyEnts r.ents).foldl (fun s x => txBack p x s) s

/-- A descriptor ends with a status, counted when it is not OK (11 R233, R244, R365). -/
def txEnd (p : Fin 4) (e : TxEnt) (st : Nat) (s : State) : State :=
  let i := e.d.slot
  let s1 := if st = 0 then s else portCount p (15 + st) 1 (if st = 4 then some i else none) s
  let s2 := if st = 4 then deny i 6 0 s1 else s1
  txSettle p i (onTxRing p i (TxRing.mark e.idx fun e => { e with status := some st }) s2)

/-- The frame of queues 0-6 that is on the wire. -/
def inAir (q : PortSt) : Option TxFrame := q.txq.find? fun f => f.start.isSome

/-- Instant at which a started frame has left the wire free. -/
def airEnd (q : PortSt) (f : TxFrame) : Nat := f.start.getD 0 + wireQ q.mode f.len

/-- What is counted of a frame of queues 0-6 that the fence held, once it starts or is flushed (12 R264). -/
def fenceWaited (p : Fin 4) (until_ : Nat) (f : TxFrame) (s : State) : State :=
  if f.queue = 7 then s else f.held.elim s fun h => waypCount p 10 ((until_ - h) * 8 / 25) none s

/-- The host frames that satisfy a test leave the queues. One that has started stays on the wire, without its descriptor,
unless the link is lost (11 R231, R233). -/
def txRemove (p : Fin 4) (cut : Bool) (test : TxDesc → Bool) (s : State) : State :=
  let hit (f : TxFrame) : Bool := f.desc.elim false test
  let out (f : TxFrame) : Bool := hit f && (cut || f.start.isNone)
  let fs := s.port.p[p].txq.filter out
  let s1 := onPort p (fun q => { q with
    txq := (q.txq.filter (!out ·)).map fun f => if hit f then { f with desc := none } else f
    genCells := q.genCells - (fs.map poolCells).sum
    wireFree := if fs.any (·.start.isSome) then min q.wireFree (nowQ s) else q.wireFree }) s
  fs.foldl (fun s f => if f.start.isSome then tsqUndo p f s else fenceWaited p (nowQ s) f s) s1

/-- The pending descriptors of a slot that satisfy a test end with a status, in ring order. -/
def txEndAll (p : Fin 4) (i : Fin 8) (st : Nat) (test : TxEnt → Bool) (s : State) : State :=
  (s.port.p[p].txRing[i].elim [] fun r => r.ents.filter fun e => e.status.isNone && test e).foldl (fun s e => txEnd p e st s) s

/-- Flushes the pending descriptors of a port's slots that satisfy a test: FLUSHED (11 R233, R228). -/
def txFlush (p : Fin 4) (cut : Bool) (test : Fin 8 → Bool) (s : State) : State :=
  ((List.finRange 8).filter test).foldl (fun s i => txEndAll p i 5 (fun _ => true) s) (txRemove p cut (fun d => test d.slot) s)

/-- A lost slot's pending descriptors are flushed without writeback, and its frame rings are disabled (18 R411). -/
def txDrop (p : Fin 4) (i : Fin 8) (s : State) : State :=
  onPort p (fun q => { q with txRing := upd q.txRing i fun _ => none, rxRing := upd q.rxRing i fun _ => none })
    (txRemove p false (·.slot == i) s)

/-- The source check of an Operator's frame fails (11 R235). -/
def srcDenied (s : State) (p : Fin 4) (d : TxDesc) : Bool :=
  d.slot != 0 && roleOf s d.slot != .owner &&
  !d.src.elim false fun a => (s.serv.slots[d.slot].addrs.toList.filterMap id).any fun x => x.addr == a && x.ports.getLsbD p.1

/-- STATUS with which a descriptor fails, 0 when its frame is sent (11 R233-R235, R228). -/
def txCheck (s : State) (p : Fin 4) (d : TxDesc) : Nat :=
  if d.len = 0 then 1
  else if s.port.p[p].maxFrame - 4 < d.len then 2
  else if 5 < d.queue || d.flags &&& 0x7C#8 != 0#8 || d.resv then 3
  else if srcDenied s p d then 4
  else if !s.port.p[p].link then 5
  else 0

/-! ## The general pool (11 R231, R232) -/

/-- Host slots in round-robin order after the one served last. -/
def slotTurn (last : Fin 8) : List (Fin 8) := (List.finRange 8).map fun k => last + 1 + k

/-- A frame enters the general pool. -/
def poolIn (p : Fin 4) (f : TxFrame) (s : State) : State :=
  onPort p (fun q => { q with txq := q.txq ++ [f], genCells := q.genCells + poolCells f }) s

/-- The general pool holds space for a whole frame (11 R232). -/
def poolFits (s : State) (p : Fin 4) (len : Nat) : Bool := decide (s.port.p[p].genCells + cellsOf len ≤ 256)

/-- The next descriptor of a queue is taken and checked, round-robin by host slot; one without space blocks its queue. -/
def takeOne (p : Fin 4) (k : Fin 6) (s : State) : State :=
  let q := s.port.p[p]
  match (slotTurn q.txTurn[k]).findSome? fun i => if canWrite s i then q.txRing[i].bind (·.next k.1) else none with
  | none => s
  | some e =>
    let st := txCheck s p e.d
    let turned := onPort p (fun q => { q with txTurn := upd q.txTurn k fun _ => e.d.slot }) s
    if st ≠ 0 then txEnd p e st turned
    else if !poolFits s p (wireLen e.d) then s
    else poolIn p { desc := some e.d, idx := e.idx, pad := decide (e.d.len < 60), queue := k.1, len := wireLen e.d }
      (onTxRing p e.d.slot (TxRing.mark e.idx fun e => { e with taken := true }) turned)

/-- Descriptors of a port that wait in the rings. -/
def postedCount (q : PortSt) : Nat :=
  (q.txRing.toList.map fun r => r.elim 0 fun r => (r.ents.filter fun e => !e.taken && e.status.isNone).length).sum

/-- An ARP request or an unsolicited neighbour advertisement of a listening address, without FCS (15 R347). -/
def announceBytes (mac : BitVec 48) (a : NetAddr) (vlan : Nat) : List Byte :=
  let tag := if vlan = 0 then [] else be 2 0x8100 ++ be 2 vlan
  let own := be 6 mac.toNat
  match a with
  | .v4 a =>
    be 6 (2 ^ 48 - 1) ++ own ++ tag ++ be 2 0x0806 ++ be 2 1 ++ be 2 0x0800 ++ be 1 6 ++ be 1 4 ++ be 2 1 ++
      own ++ be 4 a.toNat ++ zeros 6 ++ be 4 a.toNat
  | .v6 a =>
    let ends := be 16 a.toNat ++ be 16 (0xFF02 * 2 ^ 112 + 1)
    let icmp (sum : Nat) := be 1 136 ++ zeros 1 ++ be 2 sum ++ be 4 (2 ^ 29) ++ be 16 a.toNat ++ be 1 2 ++ be 1 1 ++ own
    let sum := checksum (sum16 (ends ++ be 4 32 ++ be 4 58 ++ icmp 0))
    be 6 0x333300000001 ++ own ++ tag ++ be 2 0x86DD ++ be 4 (6 * 2 ^ 28) ++ be 2 32 ++ be 1 58 ++ be 1 255 ++ ends ++ icmp sum.toNat

/-- Frame length of a device control frame: ESMC PDUs, announcements over either IP version. -/
def ctlLen : CtlFrame → Nat
  | .announce a vlan => max 64 ((announceBytes 0#48 a vlan).length + 4)
  | _ => 64

/-- Device control frames enter the pool in order while they fit. -/
def takeCtl (p : Fin 4) : List CtlFrame → State → State
  | [], s => onPort p (fun q => { q with ctlPend := [] }) s
  | c :: l, s =>
    if poolFits s p (ctlLen c) then takeCtl p l (poolIn p { queue := 6, len := ctlLen c, ctl := some c } s)
    else onPort p (fun q => { q with ctlPend := c :: l }) s

/-- Frames enter the general pool as it has room: device control first, then the host queues from 5 down. -/
def takeAll (p : Fin 4) (s : State) : State :=
  let n := postedCount s.port.p[p]
  [5, 4, 3, 2, 1, 0].foldl (fun s k => (List.range n).foldl (fun s _ => takeOne p k s) s) (takeCtl p s.port.p[p].ctlPend s)

/-! ## Starting frames of queues 0-6 (11 R231, R237, 12 R258, R260) -/

/-- PAUSE_SCOPE as the watchdog leaves it (11 R238). -/
def scopeNow (q : PortSt) : Nat := if q.wdTripped then 0 else q.pauseScope

/-- A received PAUSE stops a queue (11 R237); queue 7 here is the device's own PAUSE frames, which it does not stop. -/
def stops (q : PortSt) (k : Nat) : Bool := q.pauseTimer != 0 && ((scopeNow q == 2 && k ≤ 6) || (scopeNow q == 1 && k ≤ 5))

/-- The fence lets a frame start at a block boundary (12 R258). -/
def fenceOpen (s : State) (p : Fin 4) (start len : Nat) : Bool :=
  s.wayp.p[p].launch.head?.elim true fun e => decide (start + wireQ s.port.p[p].mode len ≤ e.d)

/-- A frame that waits to start. -/
def waiting (k : Nat) (f : TxFrame) : Bool := f.queue == k && f.start.isNone

/-- Counts a device control or PAUSE frame that starts (11 R244). -/
def ctlCount (p : Fin 4) (c : CtlFrame) (s : State) : State :=
  match c with
  | .pause _ => portCount p 21 1 none s
  | .esmc _ _ _ => portCount p 22 1 none s
  | .announce _ _ => s
  | .calibration _ => s

/-- The two-step entry of a host frame that starts on the wire (12 R260). -/
def tsqStart (p : Fin 4) (f : TxFrame) (s : State) : State :=
  match f.desc with
  | some d => if tsReq d then tsqPut p { id := d.tsId, slot := d.slot, queue := d.queue, stamp := f.stamp, errb := f.errb } s else s
  | none => s

/-- The first waiting frame of a queue starts at a block boundary when nothing stops it; a frame the fence holds is
noted. -/
def tryQueue (p : Fin 4) (start : Nat) (s : State) (k : Nat) : State :=
  let q := s.port.p[p]
  match q.txq.find? (waiting k) with
  | none => s
  | some f =>
    if (inAir q).isSome || stops q k then s
    else if fenceOpen s p start f.len then
      let g : TxFrame := { f with start := some start, stamp := txStamp s p start, errb := errbPort s p }
      let s1 := onPort p (fun q => { q with
        txq := updFirst (waiting k) (fun _ => g) q.txq
        wireFree := start + wireQ q.mode f.len
        lastCtl := if f.ctl.isSome then f.ctl else q.lastCtl }) s
      let s2 := tsqStart p g (fenceWaited p start f s1)
      f.ctl.elim s2 fun c => ctlCount p c s2
    else if f.held.isSome then s
    else
      let s1 := onPort p (fun q => { q with txq := updFirst (waiting k) (fun f => { f with held := some start }) q.txq }) s
      if k = 7 then s1 else waypCount p 9 1 none s1

/-- The queues are tried in strict priority at a block boundary. -/
def txStartAt (p : Fin 4) (start : Nat) (s : State) : State :=
  if s.port.p[p].link then [7, 6, 5, 4, 3, 2, 1, 0].foldl (fun s k => tryQueue p start s k) s else s

/-- Frames are taken, and the queues tried at the next block boundary while the wire is free. -/
def txStart (p : Fin 4) (s0 : State) : State :=
  let s := takeAll p s0
  let b := blockCeil s.port.p[p].mode (nowQ s)
  if s.port.p[p].wireFree ≤ b then txStartAt p b s else s

/-- A frame of queues 0-6 leaves the wire: its counters, and the completion of its descriptor (11 R233, R234). -/
def txFinish (p : Fin 4) (f : TxFrame) (s : State) : State :=
  let s1 := portCount p 14 f.len none (portCount p 13 1 none (onPort p (fun q => { q with
    txq := q.txq.erase f, genCells := q.genCells - poolCells f }) s))
  let s2 := if f.pad then portCount p 15 1 none s1 else s1
  f.desc.elim s2 fun d => txEnd p { idx := f.idx, d := d } 0 s2

/-- Sends a frame of device control through the general pool, or a PAUSE frame ahead of queue 7 (11 R231, R239). -/
def ctlSend (p : Fin 4) (c : CtlFrame) (s : State) : State :=
  if !s.port.p[p].link then s
  else match c with
  | .pause _ => txStart p (poolIn p { queue := 7, len := ctlLen c, ctl := some c } s)
  | .esmc _ _ _ | .announce _ _ | .calibration _ => txStart p (onPort p (fun q => { q with ctlPend := q.ctlPend ++ [c] }) s)

/-! ## Reservation (12 R254-R257) -/

/-- End of the latest slot reserved on a port. -/
def slotEnd (s : State) (p : Fin 4) : Nat :=
  s.wayp.p[p].launch.getLast?.elim 0 fun e => e.d + wireQ s.port.p[p].mode e.len

/-- The slot a reservation made now gets (12 R255). -/
def slotAt (s : State) (p : Fin 4) : Nat :=
  blockCeil s.port.p[p].mode (max (nowQ s + nsQ s.wayp.margin) (max (slotEnd s p) s.port.p[p].wireFree))

/-- An Odometer tick as a position in units of 1/33 ps. -/
def posTick (odo : Nat) : Int := 42240 * (odo : Int)

/-- A reservation made now for an arrival or visit at a position succeeds (12 R256). -/
def slotFits (s : State) (p : Fin 4) (len : Nat) (arrival : Int) : Bool :=
  decide (s.wayp.p[p].launch.length < 128) && decide (s.port.p[p].launchCells + cellsOf len ≤ 768) &&
  decide (10560 * (slotAt s p : Int) ≤ arrival + 33000 * (18000 + s.wayp.margin : Nat))

/-- Quarter-tick at which 18 us have passed since an arrival or visit (01 R21). -/
def lateQ (arrival : Int) : Nat := (-((-(arrival + 594000000)) / 10560)).toNat

/-- Attempts on a port are made in the order of their requests: a later one waits for those that wait (12 R255). -/
def mayReserve (s : State) (p : Fin 4) (txn : Nat) : Bool := s.wayp.p[p].waiting.head?.elim true (·.txn == txn)

/-- LAUNCH_DELAY sees a launch frame on a port: one in N is delayed (22 R464 kind 0). Answers the delay in ns. -/
def launchDelay (p : Fin 4) (s : State) : Nat × State :=
  let k := s.pert.k[0]
  if k.armed && k.cfg0.getLsbD p.1 then
    let n := k.seen + 1
    (if n % (bits k.cfg0.toNat 15 8) = 0 then k.cfg1.toNat else 0, { s with pert := { s.pert with k := upd s.pert.k 0 fun k => { k with seen := n } } })
  else (0, s)

/-- Takes the queue entry and the cells of a reservation; answers the entry (12 R256, R257). -/
def reserveSlot (p : Fin 4) (txn len owner : Nat) (s : State) : LaunchEnt × State :=
  let d := slotAt s p
  let x := launchDelay p s
  let e : LaunchEnt := {
    d := d, len := len, cells := cellsOf len, stamp := txStamp s p d, complete := true, ready := nowQ s + nsQ x.1, owner := owner, txn := txn }
  (e, onWayp p (fun w => { w with launch := w.launch ++ [e] }) (onPort p (fun q => { q with launchCells := q.launchCells + e.cells }) x.2))

/-- An attempt that failed waits (12 R256). -/
def waitFor (p : Fin 4) (r : WaitRes) (s : State) : State :=
  waypCount p 7 1 none (onWayp p (fun w => { w with waiting := w.waiting ++ [r] }) s)

/-- An attempt stops waiting. -/
def waitEnd (p : Fin 4) (txn : Nat) (s : State) : State :=
  onWayp p (fun w => { w with waiting := w.waiting.filter (·.txn != txn) }) s

/-- A calibration frame takes the first block boundary at or after an instant at which the wire is free (12 R253): 64 bytes
with the raw stamp. -/
def calLaunch (p : Fin 4) (q : Nat) (s : State) : State :=
  let d := blockCeil s.port.p[p].mode (max q (max (slotEnd s p) s.port.p[p].wireFree))
  let e : LaunchEnt := { d := d, len := 64, stamp := cntPlus (cntAhead s d) (-txFec s p d), complete := true, checked := true, cal := true }
  onWayp p (fun w => { w with launch := w.launch ++ [e] }) s

/-- At each of N second boundaries a pulse series launches its calibration frame (12 R253). -/
def calSecond (q : Nat) (s : State) : State :=
  (List.finRange 4).foldl (fun s p => match s.wayp.p[p].cal with
    | some k =>
      if k.loop_ || k.left = 0 then s
      else
        let s1 := onWayp p (fun w => { w with cal := some { k with left := k.left - 1 } }) s
        if s.port.p[p].link then calLaunch p q s1 else s1
    | none => s) s

/-- The head of the launch queue leaves it; its cells are freed. -/
def launchFree (p : Fin 4) (e : LaunchEnt) (s : State) : State :=
  onWayp p (fun w => { w with launch := w.launch.filter (· != e) }) (onPort p (fun q => { q with launchCells := q.launchCells - e.cells }) s)

end Sys2Proof.Machine
end

