-- ==== Sys2Proof/Machine/Flags.lean ====
section
/-!
DEFINITION. Error lines, severities and the fatal path (21, 02 R28); the levels of OE_TIMING and FB_OWN; giving up the
lease; dropping launch frames; entering a mode.
-/
namespace Sys2Proof.Machine
open Sys2Proof

/-! ## Fault collector (21) -/

/-- The raw error lines: real lines ORed with the injection bits (21 R443). -/
def raw (s : State) : BitVec 64 := s.fault.real ||| s.fault.inj

/-- Severity of a source. -/
def sevOf (s : State) (src : Fin 64) : Nat := s.fault.sev[src]

/-- Sources that are reserved: never asserted, without severity or injection (21 R443). -/
def faultReserved (src : Nat) : Bool := src == 7 || src == 15 || (28 ≤ src && src ≤ 31) || (36 ≤ src && src ≤ 39)

/-- Some source of severity 2 or 3 has its raw line asserted (02 R26, 15 R335). -/
def severeLine (s : State) : Bool :=
  (List.finRange 64).any fun i => (raw s).getLsbD i.1 && decide (2 ≤ s.fault.sev[i])

/-- Marks an event for Cairn's event records (03 R66). -/
def cairnEvent (s : State) : State := { s with cairn := { s.cairn with pendingEvent := s.cairn.pendingEvent || s.cairn.events } }

/-- A Lantern pin follows its function; an asserted level is stretched while MIN_HOLD runs (05 R118, R119). -/
def Lantern.drive (want : Bool) (l : Lantern) : Lantern :=
  let holding := l.holding || (want && !l.want && l.minHold != 0)
  { l with want := want, holding := holding, level := (want || holding) != l.inv }

/-- ALARM and LEASE_HELD are driven from AON and follow their cause at once (05 R119). -/
def lanternFast (s : State) : State :=
  let alarm := severeLine s || s.aon.fatalInForce
  let pins := updAll s.sign.lantern fun _ l =>
    if l.func = 5 then l.drive alarm else if l.func = 6 then l.drive s.foot.fbOwn else l
  { s with sign := { s.sign with lantern := pins } }

/-- An event line of severity 2 or 3 asserts ALARM for its moment (05 R118). -/
def lanternPulse (s : State) : State :=
  let pins := updAll s.sign.lantern fun _ l => if l.func = 5 then l.drive true else l
  { s with sign := { s.sign with lantern := pins } }

/-- STEP_PERMIT closes (05 R114). -/
def permitClose (s : State) : State := { s with sign := { s.sign with permit := false, permitLeft := 0 } }

/-- Drives OE_TIMING; a change raises OE_CHANGE (07 R154). -/
def setOe (b : Bool) (s : State) : State :=
  if s.mile.oe = b then s else raise 65 { s with mile := { s.mile with oe := b } }

/-- What an armed SERVO_INPUT perturbation adds to a slot's phase, ps, and to its frequency, 10^-12 (22 R464): offset +
rate x t, t counted from arming; one tick is 128 x 10^-11 s. A frequency slot takes the rate only. -/
def pertInput (n : Fin 12) (s : State) : Int × Int :=
  let k := s.pert.k[2]
  if k.armed && bits k.cfg0.toNat 3 0 = n.1 then
    let r := sgn 24 (bits k.cfg0.toNat 31 8)
    let off := if 5 ≤ n.1 && n.1 ≤ 8 then 0 else sgn 32 k.cfg1.toNat
    (off + r * ((s.time.odo : Int) - k.start) * 128 / 10 ^ 11, r)
  else (0, 0)

/-- The remaining pull in ps, rounded to nearest: P stands in 10^-21 s (05 R109). -/
def pullPs (s : State) : Int := rdiv s.sign.p 1000000000

/-- The flywheel's predicted time at an Odometer tick, 2^-48 ns (04 R88). -/
def flyAt (s : State) (odo : Nat) : Int := s.guy.flyTime + ((odo : Int) - s.time.bOdo) * s.guy.flyInc

/-- The phase of a reference against the flywheel's prediction, ps: it was `phase` ps ahead of the clock that stood at `clock`
(2^-48 ns) at an Odometer tick (04 R88, R92). -/
def flyPhase (s : State) (phase : Int) (clock : Int) (odo : Nat) : Int := phase + rdiv ((clock - flyAt s odo) * 1000) (2 ^ 48)

/-- One phase measurement of a slot, with the pull that remains at that moment (03 R62, 05 R109): the clock it was measured
against stood at `clock` at tick `odo`. -/
def pushMeas (n : Fin 12) (raw clock : Int) (odo : Nat) (s : State) : State :=
  let phase := raw + (pertInput n s).1
  { s with sign := { s.sign with slots := upd s.sign.slots n fun q =>
      { q with meas := ((phase, pullPs s) :: q.meas).take 16, flyNow := some (flyPhase s phase clock odo) } } }

/-- The sticky bit, the FAULT record and the interrupts of a rise, by severity (21 R444). -/
def faultLog (src : Fin 64) (injected resampled : Bool) (s : State) : State :=
  let sev := s.fault.sev[src]
  let s1 := sticky (if src.1 < 32 then 0xD0004 else 0xD0008) (1#32 <<< (src.1 % 32)) s
  let s2 := trail 0x10 ([BitVec.ofNat 8 src.1, BitVec.ofNat 8 sev, BitVec.ofNat 8 (bit injected + 2 * bit resampled),
    BitVec.ofNat 8 (modeCode s.sys.mode)] ++ zeros 4) s1
  let s3 := if 1 ≤ sev then raise 2 s2 else s2
  let s4 := if 44 ≤ src.1 && src.1 ≤ 51 then raise 222 s3 else s3
  if 2 ≤ sev then raise 3 { s4 with sys := { s4.sys with degradePending := true } } else s4

/-- The copies of WAYP_p_HIST that show an event of a slot's transaction: its own, slot 0's and the Auditors' (12 R265). -/
def waypHist (p owner : Nat) (v : Word) (s : State) : State :=
  (List.finRange 8).foldl (fun s i =>
    if i.1 == owner || i.1 == 0 || roleOf s i == .auditor then stickyAt i.1 (0x9010C + 0x40 * p) v s else s) s

/-- Identifiers in the launch queue: service transactions are even, PTP messages odd. -/
def launchTxn (ptp : Bool) (id : Nat) : Nat := 2 * id + bit ptp

/-- A slot takes a role: one that stops being an Auditor loses its undelivered records, and the sources it may no longer
receive leave its target (16 R356, R364). -/
def setRole (i : Fin 8) (r : Role) (s : State) : State :=
  let old := roleOf s i
  let s1 : State := { s with
    slots := { s.slots with s := upd s.slots.s i fun q => { q with role := r } },
    host := if old == .auditor && r != .auditor then
        { s.host with mbox := upd s.host.mbox i fun m => { m with held := m.held.filter (!·.unsol) } }
      else s.host }
  if old == r then s1
  else
    let ti : Fin 9 := ⟨i.1, by omega⟩
    let mask := sourceMask s1 ti
    icuEval { s1 with icu := { s1.icu with t := upd s1.icu.t ti fun t => { t with pend := t.pend &&& mask, en := t.en &&& mask, insvc := t.insvc &&& mask } } }

/-- An accepted PURGE completes once every admitted transaction of the slot has ended; the role is taken with the
completion (16 R356, R371). -/
def purgeDone (i : Fin 8) (s : State) : State :=
  match s.slots.s[i].purge with
  | some (c, r) =>
    if s.serv.inflight.any (·.slot == i) || s.ptp.msgs.any (·.owner == i) then s
    else setRole i r (complete c 0x130 0 [] { s with
      slots := { s.slots with s := upd s.slots.s i fun q => { q with purge := none } } })
  | none => s

/-- Frees the in-flight slot or the emission an entry of the launch queue belongs to. -/
def freeTxn (t : Nat) (s : State) : State :=
  (List.finRange 8).foldl (fun s i => purgeDone i s) { s with
    serv := { s.serv with inflight := if t % 2 = 0 then s.serv.inflight.filter (·.id != t / 2) else s.serv.inflight },
    ptp := { s.ptp with msgs := if t % 2 = 1 then s.ptp.msgs.filter (·.id != t / 2) else s.ptp.msgs } }

/-- Drops one launch frame with a cause of the table "LAUNCH_MISS causes", without the fault line (12 R259); a calibration
frame is none of the launch frames counted there. -/
def dropOne (p : Fin 4) (cause : Nat) (e : LaunchEnt) (s : State) : State :=
  let s1 := launchFree p e s
  if e.cal then s1
  else
    let s2 := onWayp p (fun w => { w with lastCause := cause }) s1
    let s3 := waypHist p.1 e.owner (1#32 ||| (1#32 <<< cause)) (freeTxn e.txn s2)
    raise (144 + p.1) (waypCount p (1 + cause) 1 none (waypCount p 1 1 none s3))

/-- Drops the launch frames of a port that satisfy a test; the interval they reserved is free for the lower queues at once
(12 R258). -/
def dropFrames (p : Fin 4) (cause : Nat) (test : LaunchEnt → Bool) (s : State) : State :=
  if s.wayp.p[p].launch.any test then txStart p ((s.wayp.p[p].launch.filter test).foldl (fun s e => dropOne p cause e s) s) else s

/-- Drops every launch frame of every port; answers whether there was one. -/
def dropAll (cause : Nat) (s : State) : State × Bool :=
  ((List.finRange 4).foldl (fun s p => dropFrames p cause (fun _ => true) s) s,
   (List.finRange 4).any fun p => s.wayp.p[p].launch.any (!·.cal))

/-- The handover instant as `ICP_FB_HANDOVER` returns it (15 R351). -/
def handoverBytes (s : State) : List Byte :=
  le 6 (s.foot.h.getD 0 / 1000000000) ++ zeros 2 ++ le 4 (s.foot.h.getD 0 % 1000000000)

/-- Step 2 of `ICP_QUIESCE`: admission stops (02 R46). -/
def quiesceAdmit (s : State) : State :=
  match s.sys.quiesce with
  | some q => { s with sys := { s.sys with quiesce := some { q with step := 3, startUs := s.time.odo }, admissionStopped := true } }
  | none => s

/-- A planned handover has completed or failed: `ICP_FB_HANDOVER` completes (15 R351). -/
def handoverAnswer (ok : Bool) (s : State) : State :=
  let s0 : State := { s with foot := { s.foot with hPending := false, hCmd := none } }
  match s.foot.hCmd with
  | some c => complete c 0x902 (if ok then 0 else 1) (handoverBytes s) s0
  | none => s0

/-- A planned handover has completed or failed: after the answer to its command an `ICP_QUIESCE` that waits for it goes on,
or completes with BUSY (02 R46 step 1). -/
def handoverEnd (ok : Bool) (s : State) : State :=
  let s1 := handoverAnswer ok s
  match s1.sys.quiesce with
  | some q =>
    if q.step != 1 then s1
    else if ok || q.force then quiesceAdmit s1
    else complete q.cmd 0x112 1 [] { s1 with sys := { s1.sys with quiesce := none } }
  | none => s1

/-- The lease is given up for a cause of FOOT_STAT.REL_CAUSE: FB_OWN falls, the state changes, launch frames are dropped
with cause LEASE (15 R338, R349, 12 R259). The fault line of the drops is the caller's. Under a fatal fault an `ICP_QUIESCE`
stops where it is, until the evaluation that enters RECOVERY (02 R46). -/
def leaseGive (cause : Nat) (dst : LeaseState) (s : State) : State :=
  if s.foot.lstate == .hold || s.foot.lstate == .handover then
    let s1 := permitClose (dropAll 5 s).1
    let s2 : State := { s1 with foot := { s1.foot with
      lstate := dst, fbOwn := false, relCause := cause, since := 0, fenced := false, former := false, hPending := false,
      retakeAt := s1.foot.ck, takeBlocked := false, ackArmed := false } }
    let s3 := stickyFirst 0xC0080 8 4 cause (sticky 0xC0080 2#32 s2)
    let s4 := raise 193 (cairnEvent (trail 0x21 ([BitVec.ofNat 8 (leaseCode dst), BitVec.ofNat 8 cause] ++ zeros 2 ++
      le 4 s3.foot.epoch.toNat) s3))
    lanternFast (if cause = 1 then s4 else if cause = 3 then handoverAnswer false s4 else handoverEnd false s4)
  else lanternFast { s with foot := { s.foot with lstate := dst, fbOwn := false, takeBlocked := false } }

/-- The hardware part of a fatal reaction: OE_TIMING and FB_OWN fall and AON_FATAL records the source and the mode
(02 R28, 15 R338). -/
def fatalPath (src : Fin 64) (s : State) : State :=
  let miss := (dropAll 5 s).2 && (s.foot.lstate == .hold || s.foot.lstate == .handover)
  let s1 := leaseGive 3 .off (setOe false s)
  let s2 := if miss then faultLog 22 false false s1 else s1
  lanternFast { s2 with
            aon := { s2.aon with fatalSource := src.1, fatalValid := true, fatalMode := s.sys.mode, fatalInForce := true },
            foot := { s2.foot with fbOwn := false },
            sys := { s2.sys with fatalPending := src.1 != 0 && s.sys.mode != .recovery || s2.sys.fatalPending } }

/-- The reaction to a rise of a raw line (21 R444). -/
def faultReact (src : Fin 64) (injected resampled : Bool) (s : State) : State :=
  let s1 := faultLog src injected resampled s
  if s.fault.sev[src] = 3 then fatalPath src s1 else s1

/-- The real line is seen asserted during an injection: the reaction is suspended and the overlap recorded once (21 R447). -/
def overlap (src : Fin 64) (s : State) : State :=
  if s.fault.ovl.getLsbD src.1 then s
  else raise 4 (trail 0x11 ([BitVec.ofNat 8 src.1] ++ zeros 7)
    (sticky (if src.1 < 32 then 0xD002C else 0xD0030) (1#32 <<< (src.1 % 32))
      { s with fault := { s.fault with ovl := putBit s.fault.ovl src.1 true } }))

/-- A rise of the real line: suspended under injection, otherwise the reaction; within the 16 cycles after an injection it
counts as handled (21 R444, R447). -/
def realRise (src : Fin 64) (s : State) : State :=
  if s.fault.inj.getLsbD src.1 then overlap src s
  else faultReact src false false { s with fault := { s.fault with
    handled := if s.fault.resample.getLsbD src.1 then putBit s.fault.handled src.1 true else s.fault.handled } }

/-- An occurrence on an event line: the line rises and falls (21 R443). -/
def faultEvent (src : Fin 64) (s : State) : State :=
  lanternFast (realRise src (if 2 ≤ s.fault.sev[src] then lanternPulse s else s))

/-- A condition line takes a level; a rise takes the reaction (21 R443, R444). -/
def faultCond (src : Fin 64) (b : Bool) (s : State) : State :=
  if s.fault.real.getLsbD src.1 = b then s
  else
    let s1 : State := { s with fault := { s.fault with real := putBit s.fault.real src.1 b } }
    lanternFast (if b then realRise src s1 else s1)

/-- A write to a locked or spent field (19 R419): the LOCK_VIOL record and fault. -/
def lockViol (rd addr : Nat) (indirect : Bool) (s : State) : State :=
  faultEvent 44 (trail 0x12 ([BitVec.ofNat 8 (if rd = 8 then 0xF else rd), BitVec.ofNat 8 (bit indirect)] ++ zeros 2 ++
    le 4 (addr % 2 ^ 20)) s)

/-- Drops the launch frames of a port that satisfy a test, with the fault line of WAYP_LAUNCH_MISS. -/
def dropLaunch (p : Fin 4) (cause : Nat) (test : LaunchEnt → Bool) (s : State) : State :=
  let s1 := dropFrames p cause test s
  if s.wayp.p[p].launch.any fun e => test e && !e.cal then faultEvent 22 s1 else s1

/-- Every launch frame of every port is dropped with cause LEASE (12 R259). -/
def dropLeases (s : State) : State :=
  let x := dropAll 5 s
  if x.2 then faultEvent 22 x.1 else x.1

/-- The holder relinquishes for a cause: the lease and FB_OWN fall; OE_TIMING follows at the first moment that 07 R154 allows
(15 R333, R336, R339). -/
def relinquish (cause : Nat) (dst : LeaseState) (s : State) : State :=
  let miss := (dropAll 5 s).2 && (s.foot.lstate == .hold || s.foot.lstate == .handover)
  let s1 := leaseGive cause dst s
  if miss then faultEvent 22 s1 else s1

/-! ## Levels and modes -/

/-- Modes in which the unit contends for the lease (15). -/
def contending (m : Mode) : Bool :=
  match m with
  | .acquire | .serve | .holdover | .standby => true
  | .boot | .provision | .recovery | .quiesce => false

/-- Modes in which FB_OWN is high while Footbridge is disabled (15 R340). -/
def ownModes (m : Mode) : Bool :=
  match m with
  | .acquire | .serve | .holdover => true
  | .boot | .provision | .standby | .recovery | .quiesce => false

/-- The level OE_TIMING shall take (02 R24, 15 R335, R339, R340). -/
def oeWanted (s : State) : Bool :=
  contending s.sys.mode && leaseHeld s && !s.sys.quiesceOwnLow && !s.aon.fatalInForce && !s.foot.oeBlocked &&
  (s.foot.en || ownModes s.sys.mode)

/-- FB_OWN while Footbridge is disabled (15 R340). -/
def ownLevel (s : State) : State :=
  if s.foot.en then s
  else lanternFast { s with foot := { s.foot with fbOwn := ownModes s.sys.mode && !s.sys.quiesceOwnLow && !s.aon.fatalInForce } }

/-- The lease state of a unit that starts to contend: FB_PEEROWN high leads on from COLD (15 R338). -/
def contendState (s : State) : LeaseState := if s.foot.peerOwn then .follow else .cold

/-- The lease state follows the mode: OFF outside the contending modes, COLD on entry to them (15 R338). -/
def leaseMode (s : State) : State :=
  if !s.foot.en then ownLevel s
  else if !contending s.sys.mode then
    (if s.foot.lstate == .off then s else relinquish (if s.sys.mode == .recovery then 3 else 6) .off s)
  else if s.foot.lstate == .off && !s.aon.fatalInForce then
    { s with foot := { s.foot with lstate := contendState s, coldAt := s.foot.ck, clearRun := 0 } }
  else s

/-- Ends every armed perturbation; PERTURB_CHANGE is raised when one was armed (22 R464). -/
def pertEnd (s : State) : State :=
  let s1 : State := { s with pert := { s.pert with k := updAll s.pert.k fun _ k => { k with armed := false } } }
  if pertArmed s then raise 6 s1 else s1

/-- Closes PERTURB_LIVE (22 R465). -/
def pertLive (b : Bool) (s : State) : State :=
  if s.pert.live = b then s else raise 6 { s with pert := { s.pert with live := b } }

/-- The host side of entering RECOVERY: perturbations end, an `ICP_QUIESCE` in progress completes with BUSY, the Trail
Register is flushed (22 R464, R465, 02 R46, 21 R455). -/
def enterRecovery (s : State) : State :=
  let s1 := pertLive false (pertEnd s)
  let s2 : State := { s1 with
    trail := { s1.trail with flushing := true, flushAt := s1.aon.ophrs },
    sys := { s1.sys with quiesce := none, admissionStopped := false, fatalPending := false } }
  match s.sys.quiesce with
  | some q => complete q.cmd 0x112 1 [] s2
  | none => s2

/-- A transition of R25: mode, previous mode and cause change together, the history, the interrupt, the Trail record and
Cairn's event follow, and reports become void on entry to a normal mode (02 R25, R31; 20 R438). Where Footbridge is disabled
the end of service drops the frames already queued, as the end of the lease does (13 R294). -/
def enterMode (m : Mode) (cause : Nat) (s : State) : State :=
  let old := s.sys.mode
  let s1 : State := { s with
    sys := { s.sys with mode := m, prev := old, cause := cause, secs := 0, degradePending := false,
                        quiesceOwnLow := s.sys.quiesceOwnLow && (m == .quiesce || m == .recovery) },
    regs := { s.regs with reports := if modeNormal m && !modeNormal old then [] else s.regs.reports } }
  let s2 := stickyFirst 0x00010 8 8 cause (sticky 0x00010 (1#32 <<< modeCode m) (permitClose s1))
  let s3 := raise 1 (cairnEvent (trail 0x03 ([BitVec.ofNat 8 (modeCode m), BitVec.ofNat 8 (modeCode old), BitVec.ofNat 8 cause] ++ zeros 5) s2))
  let s4 := if m == .recovery then enterRecovery s3 else s3
  let ends := !s4.foot.en && ownModes old && !ownModes m
  let s5 := leaseMode (if ends then dropLeases s4 else s4)
  if old == .standby && m != .standby && leaseHeld s5 && s5.foot.en then
    { s5 with foot := { s5.foot with roundsLeft := s5.foot.annCount, roundAt := s5.time.odo } }
  else s5

end Sys2Proof.Machine
end

