-- ==== Sys2Proof/Machine/Operands.lean ====
section
/-!
DEFINITION. The operand side of ICP commands: status codes, the opcode index with each command's length, roles and modes,
the checks a request meets before its own argument checks, and the two forms every command's meaning has.
-/
namespace Sys2Proof.Machine
open Sys2Proof

/-! ## Status codes (18 R406) -/

def stOk : Nat := 0
def stBusy : Nat := 1
def stBadLen : Nat := 2
def stBadArg : Nat := 3
def stDenied : Nat := 4
def stMode : Nat := 5
def stRange : Nat := 6
def stNoKey : Nat := 7
def stStaleSeq : Nat := 8
def stVersion : Nat := 9
def stQuota : Nat := 10
def stLocked : Nat := 11
def stOrder : Nat := 12

/-! ## Opcode index -/

/-- Payload lengths a command accepts (18 R404). -/
inductive LenRule where
  | exact (n : Nat)
  | atLeast (n : Nat)
  /-- `ICP_PERF_READ`: the length, or the 44 bytes of BIND. -/
  | orBind (n : Nat)
  deriving DecidableEq, Repr

/-- A row of the command tables: opcode, request length, whether Operators and Auditors may send it, and the modes by
SYS_MODE.CUR code. The Owner may send every command. -/
structure OpRow where
  op : Nat
  len : LenRule
  oper : Bool
  aud : Bool
  modes : BitVec 8
  deriving DecidableEq, Repr

/-- Opcodes 0x01xx (18 R414). -/
def ops01 : List OpRow := [
  ⟨0x0110, .exact 0, true, true, 0xFE#8⟩,
  ⟨0x0111, .exact 0, false, false, 0x02#8⟩,
  ⟨0x0112, .exact 4, false, false, 0x3C#8⟩,
  ⟨0x0113, .exact 0, false, false, 0x80#8⟩,
  ⟨0x0114, .exact 4, false, false, 0xFE#8⟩,
  ⟨0x0115, .exact 4, false, false, 0xFE#8⟩,
  ⟨0x0116, .exact 8, false, false, 0xBE#8⟩,
  ⟨0x0120, .exact 0, true, true, 0xFE#8⟩,
  ⟨0x0121, .exact 12, false, false, 0xBE#8⟩,
  ⟨0x0122, .exact 16, false, false, 0xBE#8⟩,
  ⟨0x0123, .exact 4, false, false, 0x18#8⟩,
  ⟨0x0130, .exact 8, false, false, 0xBE#8⟩,
  ⟨0x0131, .exact 0, true, true, 0xFE#8⟩,
  ⟨0x0132, .exact 0, false, false, 0xFE#8⟩,
  ⟨0x0100, .exact 4, true, true, 0xFE#8⟩]

/-- Opcodes 0x02xx (18 R414). -/
def ops02 : List OpRow := [
  ⟨0x0200, .exact 16, false, false, 0xBE#8⟩,
  ⟨0x0201, .exact 16, false, false, 0xBE#8⟩,
  ⟨0x0202, .exact 32, false, false, 0xBE#8⟩,
  ⟨0x0203, .exact 0, false, true, 0xFE#8⟩,
  ⟨0x0204, .exact 4, false, false, 0xBE#8⟩,
  ⟨0x0205, .exact 12, false, false, 0xBE#8⟩,
  ⟨0x0206, .exact 8, false, false, 0xBE#8⟩,
  ⟨0x0207, .exact 8, false, false, 0xBE#8⟩]

/-- Opcodes 0x03xx (18 R414). -/
def ops03 : List OpRow := [
  ⟨0x0300, .exact 12, false, false, 0xBE#8⟩,
  ⟨0x0301, .exact 24, false, false, 0xAE#8⟩,
  ⟨0x0302, .exact 0, false, true, 0xFE#8⟩,
  ⟨0x0303, .exact 4, false, false, 0xAE#8⟩,
  ⟨0x0304, .exact 32, false, false, 0xBE#8⟩]

/-- Opcodes 0x04xx (18 R414). -/
def ops04 : List OpRow := [
  ⟨0x0440, .exact 16, false, false, 0xFE#8⟩,
  ⟨0x0400, .exact 12, false, false, 0xBE#8⟩,
  ⟨0x0401, .exact 12, false, false, 0xBE#8⟩,
  ⟨0x0402, .exact 8, false, false, 0xBE#8⟩,
  ⟨0x0403, .exact 12, false, false, 0x02#8⟩,
  ⟨0x0410, .exact 32, false, false, 0xBE#8⟩,
  ⟨0x0411, .exact 4, false, false, 0xBE#8⟩,
  ⟨0x0412, .exact 8, false, false, 0xBE#8⟩,
  ⟨0x0413, .exact 4, false, false, 0xBE#8⟩,
  ⟨0x0414, .exact 0, false, true, 0xFE#8⟩,
  ⟨0x0420, .exact 16, false, false, 0xBE#8⟩,
  ⟨0x0421, .exact 4, false, false, 0xBE#8⟩,
  ⟨0x0422, .exact 4, false, false, 0xBE#8⟩,
  ⟨0x0423, .exact 4, false, false, 0xBE#8⟩,
  ⟨0x0424, .exact 8, false, false, 0x02#8⟩,
  ⟨0x0425, .exact 0, false, true, 0xFE#8⟩]

/-- Opcodes 0x05xx (18 R414). -/
def ops05 : List OpRow := [
  ⟨0x0500, .exact 12, false, false, 0xBE#8⟩,
  ⟨0x0501, .exact 68, false, false, 0xBE#8⟩,
  ⟨0x0502, .exact 4, false, false, 0xBE#8⟩,
  ⟨0x0503, .exact 4, false, true, 0xFE#8⟩,
  ⟨0x0504, .exact 0, false, true, 0xFE#8⟩,
  ⟨0x0505, .exact 36, false, false, 0xBE#8⟩,
  ⟨0x0506, .exact 0, false, true, 0xFE#8⟩,
  ⟨0x0507, .exact 16, false, false, 0xBE#8⟩,
  ⟨0x0508, .exact 12, false, false, 0xBE#8⟩,
  ⟨0x0509, .exact 12, false, false, 0xBE#8⟩,
  ⟨0x050A, .exact 0, false, false, 0xBE#8⟩,
  ⟨0x050B, .exact 8, false, false, 0xBE#8⟩]

/-- Opcodes 0x06xx (18 R414). -/
def ops06 : List OpRow := [
  ⟨0x0600, .exact 16, false, false, 0xBE#8⟩,
  ⟨0x0601, .exact 4, false, true, 0xFE#8⟩,
  ⟨0x0602, .exact 12, false, false, 0xBE#8⟩,
  ⟨0x0603, .exact 8, false, false, 0xBE#8⟩,
  ⟨0x0604, .exact 32, true, false, 0xBC#8⟩,
  ⟨0x0610, .exact 4, false, false, 0xBE#8⟩,
  ⟨0x0611, .exact 4, false, false, 0xBE#8⟩,
  ⟨0x0612, .exact 4, false, false, 0x02#8⟩,
  ⟨0x0613, .exact 8, false, false, 0x02#8⟩,
  ⟨0x0614, .exact 16, false, false, 0x02#8⟩]

/-- Opcodes 0x07xx (18 R414). -/
def ops07 : List OpRow := [
  ⟨0x0700, .exact 40, true, false, 0xBE#8⟩,
  ⟨0x0701, .exact 4, true, false, 0xBE#8⟩,
  ⟨0x0702, .exact 0, true, false, 0xFE#8⟩,
  ⟨0x0703, .exact 8, false, false, 0xBE#8⟩,
  ⟨0x0704, .exact 4, false, false, 0xBE#8⟩,
  ⟨0x0705, .exact 0, true, true, 0xFE#8⟩,
  ⟨0x0710, .exact 72, true, false, 0x3C#8⟩]

/-- Opcodes 0x08xx (18 R414). -/
def ops08 : List OpRow := [
  ⟨0x0800, .exact 8, false, false, 0xA6#8⟩,
  ⟨0x0801, .exact 24, true, false, 0xBE#8⟩,
  ⟨0x0802, .exact 4, true, false, 0xBE#8⟩,
  ⟨0x0803, .exact 12, false, false, 0xBE#8⟩,
  ⟨0x0804, .exact 4, false, false, 0xBE#8⟩,
  ⟨0x0805, .exact 0, true, true, 0xFE#8⟩,
  ⟨0x0806, .exact 8, false, false, 0x3C#8⟩,
  ⟨0x0807, .atLeast 4, false, false, 0x20#8⟩,
  ⟨0x0808, .exact 4, true, false, 0xBE#8⟩,
  ⟨0x0810, .exact 88, false, false, 0xBE#8⟩]

/-- Opcodes 0x09xx (18 R414). -/
def ops09 : List OpRow := [
  ⟨0x0900, .exact 24, false, false, 0xA6#8⟩,
  ⟨0x0901, .exact 0, false, true, 0xFE#8⟩,
  ⟨0x0902, .exact 4, false, false, 0x1C#8⟩,
  ⟨0x0903, .exact 4, false, false, 0xBE#8⟩,
  ⟨0x0904, .exact 4, false, false, 0x24#8⟩]

/-- Opcodes 0x0Axx (18 R414). -/
def ops0A : List OpRow := [
  ⟨0x0A00, .exact 40, true, false, 0xBE#8⟩,
  ⟨0x0A01, .exact 4, true, false, 0xBE#8⟩,
  ⟨0x0A02, .exact 8, true, false, 0xBE#8⟩,
  ⟨0x0A03, .exact 0, true, false, 0xBE#8⟩,
  ⟨0x0A10, .exact 72, true, false, 0xBE#8⟩,
  ⟨0x0A11, .exact 8, true, false, 0xBE#8⟩,
  ⟨0x0A12, .exact 8, true, false, 0xBE#8⟩,
  ⟨0x0A13, .exact 0, true, false, 0xBE#8⟩,
  ⟨0x0A20, .exact 0, false, true, 0xBE#8⟩,
  ⟨0x0A21, .exact 32, false, true, 0xBE#8⟩,
  ⟨0x0A22, .exact 4, false, false, 0x02#8⟩,
  ⟨0x0A23, .atLeast 4, false, false, 0x02#8⟩,
  ⟨0x0A24, .exact 4, false, false, 0xBE#8⟩,
  ⟨0x0A25, .exact 0, false, false, 0xBE#8⟩]

/-- Opcodes 0x0Bxx (18 R414). -/
def ops0B : List OpRow := [
  ⟨0x0B10, .exact 4, false, false, 0xBE#8⟩,
  ⟨0x0B11, .exact 0, false, true, 0xFE#8⟩,
  ⟨0x0B00, .exact 0, false, true, 0xFE#8⟩,
  ⟨0x0B01, .exact 4, false, false, 0xBE#8⟩,
  ⟨0x0B02, .exact 8, false, false, 0xBE#8⟩,
  ⟨0x0B03, .exact 8, false, false, 0xFE#8⟩,
  ⟨0x0B04, .exact 4, false, false, 0xFE#8⟩,
  ⟨0x0B20, .orBind 16, true, true, 0xFE#8⟩,
  ⟨0x0B21, .exact 16, false, false, 0xBE#8⟩,
  ⟨0x0B22, .exact 4, false, false, 0xBE#8⟩,
  ⟨0x0B30, .exact 16, false, false, 0xBE#8⟩,
  ⟨0x0B31, .exact 4, false, false, 0xBE#8⟩]

/-- Opcodes 0x0Cxx (18 R414). -/
def ops0C : List OpRow := [
  ⟨0x0C00, .exact 0, false, false, 0xFE#8⟩,
  ⟨0x0C01, .exact 4, false, false, 0xFE#8⟩,
  ⟨0x0C02, .atLeast 8, false, false, 0xFE#8⟩,
  ⟨0x0C03, .exact 4, false, false, 0xFE#8⟩,
  ⟨0x0C04, .exact 4, false, false, 0xBE#8⟩]

/-- The commands of major 1 (18 R414), with the columns of their command tables. -/
def opTable : List OpRow :=
  ops01 ++ ops02 ++ ops03 ++ ops04 ++ ops05 ++ ops06 ++ ops07 ++ ops08 ++ ops09 ++ ops0A ++ ops0B ++ ops0C

/-- The row of an opcode. -/
def opRow (op : Nat) : Option OpRow := opTable.find? (·.op == op)

/-- A request of minor `minor` may carry this length (18 R404). -/
def LenRule.ok (r : LenRule) (minor len : Nat) : Bool :=
  match r with
  | .exact n => if minor = 0 then len == n else decide (n ≤ len)
  | .atLeast n => decide (n ≤ len)
  | .orBind n => len == n || len == 44 || (minor != 0 && decide (n ≤ len))

/-- A role lies in a command's Roles column (16 R360). -/
def OpRow.allows (r : OpRow) : Role → Bool
  | .owner => true
  | .operator => r.oper
  | .auditor => r.aud
  | .none_ => false

/-- A mode lies in a command's Modes column (02 R47). -/
def OpRow.inMode (r : OpRow) (m : Mode) : Bool := r.modes.getLsbD (modeCode m)

/-- RECOVERY without a running image: the Trailhead recovery loader serves (02 R44). -/
def loaderRuns (s : State) : Bool := s.sys.mode == .recovery && s.aon.bank == 3

/-- What the recovery loader carries out: slot 0's `ICP_MODE_GET`, `ICP_SYS_RESET` and firmware commands (02 R44). -/
def loaderServes (slot : Fin 8) (op : Nat) : Bool := slot == 0 && (op == 0x110 || op == 0x115 || op / 256 == 0xC)

/-- Role and mode of a request: the status that stops it, and whether that is a denial (18 R404 steps 5 and 6, 16 R366). In
RECOVERY each command's own modes decide (02 R24; DEDUCED, log 168). -/
def roleMode (slot : Fin 8) (op : Nat) (s : State) : Option (Nat × Bool) :=
  match opRow op with
  | none => some (stBadArg, false)
  | some r =>
    if loaderRuns s then
      if loaderServes slot op && r.inMode s.sys.mode then none else some (stMode, false)
    else if !r.allows (roleOf s slot) then some (stDenied, true)
    else if !r.inMode s.sys.mode then some (stMode, false)
    else none

/-- The entry of a command the mailbox engine has dispatched. -/
def activeOf (c : CmdRef) (s : State) : Option ActiveCmd := s.host.mbox[c.slot].active.find? (·.tag == c.tag)

/-- Checks before a command's own: one that COMMAND_DISPATCH has passed was checked there, under the role of that moment
(16 R356). -/
def gate (c : CmdRef) (op : Nat) (s : State) : Option (Nat × Bool) :=
  match activeOf c s with
  | some _ => none
  | none => roleMode c.slot op s

/-- The role a command is judged under (16 R356). -/
def cmdRole (c : CmdRef) (s : State) : Role :=
  match activeOf c s with
  | some a => a.role
  | none => roleOf s c.slot

/-- What a command's own part answers: a completion now, or later by an event. -/
inductive IcpRes where
  | done (status : Nat) (payload : List Byte) (s : State)
  | later (s : State)

/-- A refused command: nothing changes but its completion and, for DENIED, the count of the denial (16 R365). -/
def icpFail (c : CmdRef) (op st : Nat) (denial : Bool) (s : State) : State :=
  complete c op st [] (if denial then deny c.slot 5 op s else s)

/-- Runs a command: its checks of role and mode, its own part, and its completion; a response that does not fit the
completion ring gives BAD_LEN and is not carried out (18 R401, R404). While Ridgepole is unlocked the mailbox engine is held
in reset: no request is taken and no completion is written (01 R19). -/
def icp (c : CmdRef) (op : Nat) (body : State → IcpRes) (s : State) : Out :=
  if !s.aon.locked then .next s
  else
  match gate c op s with
  | some (st, d) => .next (icpFail c op st d s)
  | none =>
    match body s with
    | .done st pl s' =>
      if st = stDenied then .next (icpFail c op st true s)
      else if st != stOk && op != 0x100 then .next (complete c op st [] s')
      else if !fitsRing s c.slot pl.length then .next (icpFail c op stBadLen false s)
      else .next (complete c op st pl s')
    | .later s' => .next s'

/-- The status of the first check that fails, OK when none does. -/
def firstFail (l : List (Bool × Nat)) : Nat :=
  match l.find? (·.1) with
  | some e => e.2
  | none => stOk

/-- A command with argument checks, an effect and a response. -/
def icpDo (c : CmdRef) (op : Nat) (chk : State → List (Bool × Nat)) (eff : State → State) (resp : State → List Byte)
    (s : State) : Out :=
  icp c op (fun s => if firstFail (chk s) = stOk then .done stOk (resp (eff s)) (eff s) else .done (firstFail (chk s)) [] s) s

/-- A command that only reads. -/
def icpGet (c : CmdRef) (op : Nat) (resp : State → List Byte) (s : State) : Out :=
  icp c op (fun s => .done stOk (resp s) s) s

/-- A number lies outside a range. -/
def outside (v lo hi : Nat) : Bool := decide (v < lo) || decide (hi < v)

/-- A signed number lies outside ±`m`. -/
def beyond (v : Int) (m : Nat) : Bool := decide (m < v.natAbs)

end Sys2Proof.Machine
end

