-- ==== Sys2Proof/Machine/Access.lean ====
section
/-!
DEFINITION. Who may reach which register: the access matrix of 16 R358, the regions of the indirect space, what answers
while a domain is held in reset or gated, and the order in which an access is decided (16 R366).
-/
namespace Sys2Proof.Machine
open Sys2Proof

/-- The block of a window offset (20 R434). -/
def blkOf (a : Nat) : Nat := a / 0x10000

/-- The register offset within a block, the alias removed. -/
def regOf (a : Nat) : Nat := a % 0x4000 / 4 * 4

/-- The alias number of a window offset: 0 the register, 1 SET, 2 CLR, 3 TGL (20 R434). -/
def aliasOf (a : Nat) : Nat := a % 0x10000 / 0x4000

/-- An offset lies in a range. -/
def within (o lo hi : Nat) : Bool := decide (lo ≤ o) && decide (o ≤ hi)

/-- Offsets of the four ports' register groups: the offset less the group of `step` bytes it lies in. -/
def inGroup (o base step n : Nat) : Option Nat := if base ≤ o && o < base + step * n then some ((o - base) % step) else none

/-- Class of a counter index (22 R458): 0 PORT, 1 PORT_SLOT, 2 WAYP, 3 WAYP_SLOT, 4 SERV, 5 PTP, 6 CLIENT, 7 REG,
8 SERV_PREFIX; none for a reserved index. -/
def cntClass (s : State) (i : Nat) : Option Nat :=
  if i < 128 then (if i % 32 < 26 then some (if i % 32 = 12 || i % 32 = 19 then 1 else 0) else none)
  else if i < 192 then (if (i - 128) % 16 < 13 then some (if 11 ≤ (i - 128) % 16 then 3 else 2) else none)
  else if i < 320 then (if (i - 192) % 32 < 21 then some 4 else none)
  else if i < 448 then (if (i - 320) % 32 < 23 then some 5 else none)
  else if i < 452 then some 6
  else if i < 960 then none
  else match fin? 64 (i - 960) with
    | some k => s.perf.bound[k].map (·.cls)
    | none => none

/-- A counter is kept per host slot (22 R458). -/
def cntPerSlot (s : State) (i : Nat) : Bool :=
  match cntClass s i with
  | some c => c == 1 || c == 3 || c == 4 || c == 5 ||
    (match fin? 64 (i - 960) with
      | some k => decide (960 ≤ i) && (s.perf.bound[k].elim false fun b => decide (b.master < 8))
      | none => false)
  | none => false

/-- A counter kept for one slot only: a programmable one whose MASTER names a slot (22 R458, log 198). -/
def cntSlotOnly (s : State) (i : Nat) : Bool :=
  match fin? 64 (i - 960) with
  | some k => decide (960 ≤ i) && (s.perf.bound[k].elim false fun b => decide (b.master < 8))
  | none => false

/-- A role holds a counter class (22 R459, 16 R363). -/
def holdsClass (s : State) (r : Role) (c : Nat) : Bool :=
  match r with
  | .owner => true
  | .operator => s.perf.acl.getLsbD c
  | .auditor => s.perf.acl.getLsbD (16 + c)
  | .none_ => false

/-- A role may read a counter through PERF_CNTn (22 R459). -/
def mayReadCnt (s : State) (r : Role) (slot i : Nat) : Bool :=
  match r with
  | .owner => true
  | .auditor => (cntClass s i).elim false fun c => holdsClass s .auditor c && !cntSlotOnly s i
  | .operator => (cntClass s i).elim false fun c => holdsClass s .operator c && cntPerSlot s i &&
      (match fin? 64 (i - 960) with
        | some k => i < 960 || (s.perf.bound[k].elim false fun b => b.master == slot)
        | none => true)
  | .none_ => false

/-- Index of a counter register of the PERF block. -/
def cntIndex (o : Nat) : Option Nat := if within o 0x1000 0x2FFF then some ((o - 0x1000) / 8) else none

/-- Registers a role other than the Owner may read, BLK_SEQ apart (16 R358). -/
def readable (s : State) (r : Role) (slot b o : Nat) : Bool :=
  match r with
  | .owner => true
  | .none_ => false
  | .operator =>
    match b with
    | 0 => o == 4 || o == 8 || o == 0x40 || o == 0x44 || o == 0x48
    | 1 => true
    | 2 => true
    | 3 => o == 0 || o == 4 || within o 0x10 0x1C || o == 0x20 || o == 0x24 || o == 0x40 || o == 0x44 || o == 0x48 ||
        o == 0x50 || within o 0x70 0x7C
    | 8 => o == 4 || (inGroup o 0x100 0x80 4).elim false fun g => g == 0 || g == 4 || g == 8 || g == 0xC || g == 0x28
    | 9 => o == 4 || o == 8 || (inGroup o 0x100 0x40 4).elim false fun g => within g 0x10 0x2C || g == 0xC
    | 0xA => o == 4 || o == 0x18 || o == 0x1C || o == 0x20 || o == 0x14 || o == 0x40
    | 0xB => o == 4 || o == 8 || o == 0x1C || o == 0x20 || o == 0x24 || o == 0x28 || o == 0x80
    | 0xE => (cntIndex o).elim false (mayReadCnt s .operator slot)
    | 0xF => o == 0 || o == 4
    | _ => false
  | .auditor =>
    match b with
    | 0 => o == 4 || o == 8 || o == 0x40 || o == 0x44 || o == 0x48
    | 5 => within o 0 0x4F
    | 6 => o == 4 || o == 8 || o == 0xC || (inGroup o 0x100 0x20 8).elim false (· == 0x18)
    | 0xD => o == 4 || o == 8
    | 0xE => (cntIndex o).elim false (mayReadCnt s .auditor slot)
    | 0xF => o == 0 || o == 4
    | _ => true

/-- A role may read some counter of the PERF block (16 R363, 22 R459): one of a class of its own kind, or a bound one. -/
def readsCnt (s : State) (r : Role) (slot : Nat) : Bool :=
  (match r with
    | .operator => [1, 3, 4, 5].any (holdsClass s r)
    | .auditor => (List.range 7).any (holdsClass s r)
    | _ => false) || (List.range 64).any fun k => mayReadCnt s r slot (960 + k)

/-- Blocks in which a role may read some register (16 R358). -/
def readsBlock (s : State) (r : Role) (slot b : Nat) : Bool :=
  match r with
  | .owner => true
  | .none_ => false
  | .operator => if b = 0xE then readsCnt s r slot else !(b == 4 || b == 5 || b == 6 || b == 7 || b == 0xC || b == 0xD)
  | .auditor => b != 0xE || readsCnt s r slot

/-- Blocks in which a role may read a register with a sticky field (16 R358). -/
def acksBlock (r : Role) (b : Nat) : Bool :=
  match r with
  | .owner => true
  | .none_ => false
  | .operator => b == 1 || b == 2 || b == 3 || b == 8 || b == 9 || b == 0xA || b == 0xB
  | .auditor => !(b == 0 || b == 0xE)

/-- A slot may read a window offset. -/
def mayRead (s : State) (r : Role) (slot a : Nat) : Bool :=
  if regOf a = 0x3FF8 then readsBlock s r slot (blkOf a)
  else if regOf a = 0x3FFC then acksBlock r (blkOf a)
  else readable s r slot (blkOf a) (regOf a)

/-- A slot may write a window offset: Operators and Auditors only their mailbox, their target, their IND_ADDR and BLK_ACK
(16 R358). -/
def mayWrite (r : Role) (a : Nat) : Bool :=
  match r with
  | .owner => true
  | .none_ => false
  | .operator | .auditor => blkOf a == 1 || blkOf a == 2 || (blkOf a == 0xF && regOf a ≤ 4) ||
      (regOf a == 0x3FFC && acksBlock r (blkOf a))

/-! ## Indirect space (20 R440) -/

/-- Region code of an indirect address. -/
def regionOf (a : Nat) : Nat :=
  if a ≤ 0xFFFF then 1
  else if a ≤ 0x1FFFF then 2
  else if within a 0x100000 0x10FFFF then 3
  else if within a 0x400000 0x5FFFFF then 4
  else if within a 0x800000 0xBFFFFF then 5
  else 0

/-- The region's domain is running (20 IND_STAT). -/
def regionUp (s : State) (code : Nat) : Bool :=
  match code with
  | 1 => true
  | 2 => s.aon.locked && powered s 1
  | 3 => s.aon.locked && powered s 8
  | 4 | 5 => s.aon.locked && powered s 4
  | _ => false

/-- A role may read a region through IND_DATA; an address outside every region denies no role (16 R358). -/
def regionRead (r : Role) (code : Nat) : Bool :=
  match r with
  | .owner => true
  | .operator => code == 0
  | .auditor => code == 0 || code == 1 || code == 3
  | .none_ => false

/-- A role may write through IND_DATA (16 R358, 19 R426). -/
def regionWrite (r : Role) (code : Nat) : Bool :=
  match r with
  | .owner => true
  | _ => code == 0

/-! ## Running blocks -/

/-- Power domain of a block whose contents a gating empties; the blocks of MGMT, HOST and AON always run. -/
def blockDomain (b : Nat) : Option Nat :=
  match b with
  | 3 | 4 | 5 | 6 | 9 | 0xC => some 1
  | 7 => some 8
  | 0xA | 0xB => some 4
  | _ => none

/-- What answers a window offset while the derived domains are held in reset (20 R436), and later while its domain runs. -/
def blockUp (s : State) (a : Nat) : Bool :=
  if s.aon.locked then (blockDomain (blkOf a)).elim true (powered s)
  else
    (blkOf a == 0 && (regOf a == 4 || regOf a == 8 || regOf a == 0x40 || regOf a == 0x44 || regOf a == 0x48)) ||
    blkOf a == 0xD || (blkOf a == 0xF && regOf a ≤ 8)

/-- How an access is decided before the register's own rules (16 R366). -/
inductive Decision where
  /-- Read as zero, write ignored: an unbound endpoint or a location that does not answer. -/
  | nothing
  | denied
  | ok
  deriving DecidableEq, Repr

/-- The role of a reader: the management processor counts as Owner. -/
def readerRole (s : State) (rd : Fin 9) : Role := if h : rd.1 < 8 then roleOf s ⟨rd.1, h⟩ else .owner

/-- A reader is bound to an endpoint; the management processor always is. -/
def readerBound (s : State) (rd : Fin 9) : Bool := if h : rd.1 < 8 then s.slots.s[rd.1].bind.isSome else true

/-- Decides a register access (16 R366). -/
def decideAccess (s : State) (rd : Fin 9) (a : Nat) (write : Bool) : Decision :=
  if !readerBound s rd then .nothing
  else if rd.1 < 8 && !(if write then mayWrite (readerRole s rd) a else mayRead s (readerRole s rd) rd.1 a) then .denied
  else if blockUp s a then .ok
  else .nothing

/-- Gives a reader its data. -/
def give (rd : Fin 9) (v : Word) (s : State) : State := { s with host := { s.host with rd := s.host.rd.set rd.1 v rd.2 } }

/-- Counts the denial of a register access (16 SYS_DENY_LAST kinds). -/
def denyAccess (rd : Fin 9) (kind where_ : Nat) (s : State) : State :=
  if h : rd.1 < 8 then deny ⟨rd.1, h⟩ kind where_ s else s

/-- Host register accesses of class 7 REG counters (22 R461): a read, a write or a denial at an offset. -/
def countReg (rd : Fin 9) (ev a : Nat) (s : State) : State :=
  if h : rd.1 < 8 then
    (List.finRange 64).foldl (fun s k =>
      match s.perf.bound[k] with
      | some b =>
        if b.cls == 7 && (BitVec.ofNat 8 b.event).getLsbD ev && within a b.lo b.hi &&
            (b.master == 0xFF || b.master == rd.1 || (b.master == 0xFE && b.roles.getLsbD (roleCode (roleOf s ⟨rd.1, h⟩)))) then
          count (960 + k.1) (if b.master < 8 then some ⟨rd.1, h⟩ else none) s
        else s
      | none => s) s
  else s

/-- A read with an effect: decided under R366, denied with zero and a count, or carried out by `act`, which answers the
data. -/
def readBy (rd : Fin 9) (a : Nat) (act : State → Word × State) (s : State) : State :=
  match decideAccess s rd a false with
  | .nothing => give rd 0#32 s
  | .denied => give rd 0#32 (denyAccess rd (if (cntIndex (regOf a)).isSome && blkOf a == 0xE then 7 else 1) a (countReg rd 2 a s))
  | .ok => let r := act (countReg rd 0 a s); give rd r.1 r.2

/-- A write with an effect. -/
def writeBy (rd : Fin 9) (a : Nat) (act : State → State) (s : State) : State :=
  match decideAccess s rd a true with
  | .nothing => s
  | .denied => denyAccess rd 2 a (countReg rd 2 a s)
  | .ok => act (countReg rd 1 a s)

/-! ## Views of registers

Each family gives the fields of its block that are not sticky; a view adds the reader's copy of the sticky fields. -/

/-- A register as a reader sees it, without any effect. -/
def view (ro : State → Nat → Nat → Word) (s : State) (rd a : Nat) : Word := ro s rd (regOf a) ||| stickyOf s rd a

/-- A register as a status command returns it: zero where the role may not read it or its domain does not run (16 R359). -/
def viewFor (ro : State → Nat → Nat → Word) (s : State) (i : Fin 8) (a : Nat) : Word :=
  if mayRead s (roleOf s i) i.1 a && blockUp s a then view ro s i.1 a else 0#32

/-- The bytes of a run of registers in a status response. -/
def viewBytes (ro : State → Nat → Nat → Word) (s : State) (i : Fin 8) (as : List Nat) : List Byte :=
  as.flatMap fun a => le 4 (viewFor ro s i a).toNat

/-- A read outside the normal modes of a register that holds sticky fields is a report: numbered, held with what it
returned, the ninth voiding the oldest (19 R421). -/
def reportNow (i : Fin 8) (r : Nat) (s : State) : State :=
  let blk := if r < 2 ^ 20 then blkOf r else 0xF
  let k := i.1 * 16 + blk
  let last := mget {} k s.regs.seqs
  let q : Report := { slot := i, blk := blk, seq := last.seq % 255 + 1, reg := r, value := stickyOf s i.1 r }
  let mine := s.regs.reports.filter fun q => q.slot == i && q.blk == blk
  let held := if 8 ≤ mine.length then s.regs.reports.erase (mine.headD {}) else s.regs.reports
  { s with regs := { s.regs with reports := held ++ [q], seqs := mset {} k q s.regs.seqs } }

/-- Latches a second word for a reader (01 R18). -/
def shadowSet (rd r : Nat) (v : Word) (s : State) : State :=
  { s with regs := { s.regs with shadow := mset 0 (stickyKey rd r) (v.toNat + 1) s.regs.shadow } }

/-- A second word as a reader sees it: as latched, or the live word before the first latch. -/
def shadowOr (s : State) (rd r : Nat) (live : Word) : Word :=
  match mget 0 (stickyKey rd r) s.regs.shadow with
  | 0 => live
  | v + 1 => w32 v

/-- Sticky clears of the MILE and TDC blocks take effect only for slot 0 (07 R163, 08 R177). -/
def mayClear (rd r : Nat) : Bool := rd == 0 || !(blkOf r == 5 || blkOf r == 6)

/-- What a peak field starts from when it is cleared: the value it follows (13 R299 SERV_INFLIGHT.PEAK). -/
def peakNow (s : State) (r : Nat) : Word := if r = 0xA0010 then pack [(16, s.serv.inflight.length)] else 0#32

/-- What a read does to the sticky fields of a register: it clears the reader's copy in the normal modes, elsewhere it is a
report of a slot (19 R420, R421). -/
def stickyTake (rd : Fin 9) (r : Nat) (s : State) : State :=
  if modeNormal s.sys.mode then
    if !mayClear rd.1 r then s else
    { s with regs := { s.regs with sticky := mset 0#32 (stickyKey (stickyCopy rd.1 r) r) (peakNow s r) s.regs.sticky } }
  else if h : rd.1 < 8 then reportNow ⟨rd.1, h⟩ r s
  else s

/-- `n` register addresses from a base, 4 bytes apart. -/
def regRun (base n : Nat) : List Nat := (List.range n).map fun i => base + 4 * i

/-- CTRL.LK of a block as a word. -/
def lkWord (s : State) (b : Nat) : Word := pack [(0, bit (s.regs.lk.getLsbD b))]

/-- The group number and the offset within the group of a register in one of `n` groups of `step` bytes. -/
def group? (o base step n : Nat) : Option (Fin n × Nat) :=
  if base ≤ o then (fin? n ((o - base) / step)).map fun k => (k, (o - base) % step) else none

/-- A signed quantity in ps as units of 0.25 ns, rounded down, saturating to 32 bits. -/
def quarter (ps : Int) : Int := satI 32 (ps / 250)

/-- An unsigned quantity in ps as units of 0.25 ns, rounded up, saturating to 32 bits. -/
def quarterUp (ps : Nat) : Nat := satE (cdiv ps 250)

end Sys2Proof.Machine
end

