-- ==== Sys2Proof/Machine/Time.lean ====
section
/-!
DEFINITION. The time counter and the Odometer, their reads and commits, UTC and leap seconds, and Cairn's records with
their commands (03).
-/
namespace Sys2Proof.Machine
open Sys2Proof

/-! ## Clamps and ERRB_CORE -/

/-- Clamps INCR to within 500 x 10^-6 of 1.28 ns (03 R51). -/
def clampIncr (v : Nat) : Nat := max 360107826204545 (min v 360468114174734)

/-- Clamps SLEW to within 1.0 x 10^-5 x 1.28 ns per tick (03 R51). -/
def clampSlew (v : Int) : Int := max (-3602879702) (min v 3602879702)

/-- Publishes ERRB_CORE; ERRB_SAT (7) follows a change of its saturation (19 table "System and management sources"). -/
def setErrb (v : Nat) (s : State) : State :=
  let s1 : State := { s with
    time := { s.time with errb := v }, cairn := { s.cairn with errbMax := max s.cairn.errbMax v } }
  if (v == 0xFFFFFFFF) != (s.time.errb == 0xFFFFFFFF) then raise 7 s1 else s1

/-! ## UTC (03 R57-R61) -/

/-- Seconds a leap adds to the offset. -/
def leapStep : LeapKind → Int
  | .leap61 => 1
  | .leap59 => -1

/-- A leap announcement is valid (03 R58). -/
def leapValid (leapAt : Nat) (offset : Int) (k : LeapKind) : Bool := decide (((leapAt : Int) - (offset + leapStep k)) % 86400 = 0)

/-- The leap is applied: the new offset, the flag cleared, LEAP_DONE and TIME_LEAP (03 R59). -/
def applyLeap (s : State) : State :=
  match s.time.leap with
  | none => s
  | some k =>
    let s1 : State := { s with time := { s.time with
      utcOffset := s.time.utcOffset + leapStep k, leap := none,
      lastLeap := some { leapAt := s.time.leapAt, kind := k, before := s.time.utcOffset, announced := s.time.announcedAt } } }
    cairnEvent (raise 9 (sticky 0x30004 16#32 s1))

/-- TAI - UTC that applies at a TAI second (03 R59): within the last second before a positive leap the NTP seconds count
stays at that of 23:59:59. A stamp from before the leap applied last keeps the offset of its own instant (13 R291). -/
def utcOfsAt (s : State) (t : Nat) : Int :=
  let before (k : LeapKind) (leapAt : Nat) (o : Int) : Int := if k == .leap61 && leapAt ≤ t + 1 then o + 1 else o
  match s.time.lastLeap.filter fun l => decide (t < l.leapAt) && decide (l.leapAt ≤ secNow s) with
  | some l => before l.kind l.leapAt l.before
  | none =>
    match s.time.leap with
    | some k => if s.time.leapAt ≤ t then s.time.utcOffset + leapStep k else before k s.time.leapAt s.time.utcOffset
    | none => s.time.utcOffset

/-- The smear correction in ns at a TAI time in ns, for a window that reaches `half` ns to either side of LEAP_AT: with W in
seconds `half` is W/2 and C = floor((t - S) / W) (03 R61, 13 R293). -/
def smearC (leapAt half t : Nat) : Nat :=
  (max 0 (min 1000000000 (((t : Int) - ((leapAt : Int) * 1000000000 - half)) * 1000000000 / (2 * half : Int)))).toNat

/-- Adopts the leap state of a selected reference in AUTO (03 R57): OFFSET, and an announcement that is valid, ahead of
the present second and not of a leap already applied. A reference that still states the offset from before a leap applied
does not move OFFSET back, unless a step has taken the counter back before that leap (03 R60). -/
def adoptUtc (offset : Int) (ann : Option (Nat × LeapKind)) (s : State) : State :=
  if s.time.utcManual then s
  else
    let s1 : State := { s with time := { s.time with utcOffset := offset, utcKnown := true } }
    match ann with
    | none => { s1 with time := { s1.time with leap := none } }
    | some (at_, k) =>
      if !leapValid at_ offset k then { s1 with time := { s1.time with leapInvalid := s1.time.leapInvalid + 1 } }
      else
        match s.time.lastLeap.filter (·.leapAt == at_) with
        | some l => if offset = l.before && at_ ≤ secNow s then { s1 with time := { s1.time with utcOffset := s.time.utcOffset } } else s1
        | none =>
          if at_ ≤ secNow s then s1
          else
            let ann := if s.time.leap == some k && s.time.leapAt == at_ then s.time.announcedAt else cntNow s / nsU
            { s1 with time := { s1.time with leap := some k, leapAt := at_, announcedAt := ann } }

/-! ## Commits and reads -/

/-- An INCR is committed, clamped; a value the clamp cut is told (03 R51). -/
def commitIncr (v : Nat) (s : State) : State :=
  let s1 : State := { s with time := { s.time with incrReg := clampIncr v } }
  if clampIncr v = v then s1 else faultEvent 3 (sticky 0x30004 4#32 s1)

/-- TIME_INCR_COMMIT: the write of TIME_INCR_HI by the management processor commits both words, clamped (03 R51, R53). -/
def execTimeIncrCommit (hi : Word) (s : State) : Out :=
  if !timeUp s then .next s
  else .next (commitIncr (low 20 hi.toNat * 2 ^ 32 + s.time.incrLo.toNat) s)

/-- TIME_SLEW_COMMIT (03 R51, R53). -/
def execTimeSlewCommit (hi : Word) (s : State) : Out :=
  if !timeUp s then .next s
  else
    let v := sgn 40 (low 8 hi.toNat * 2 ^ 32 + s.time.slewLo.toNat)
    let s1 : State := { s with time := { s.time with slewReg := clampSlew v } }
    .next (if clampSlew v = v then s1 else sticky 0x30004 8#32 s1)

/-- NOW_LATCH_READ: a read of TIME_NOW_NS latches the six words for the reader (03 R55). -/
def execNowLatchRead (rd : Fin 9) (off : BitVec 16) (s : State) : Out :=
  .next (readBy rd 0x30010 (fun s =>
    let s1 := atTick off s
    let c := cntNow s1
    let l : NowLatch := {
      ns := nsOf c, frac := fracOf c, sec := secOf c, odo := BitVec.ofNat 64 s1.time.odo, errb := s1.time.errb, latched := true, odoHi := w32 (s1.time.odo / 2 ^ 32) }
    (w32 (nsOf c), { s1 with time := { s1.time with now := s1.time.now.set rd.1 l } })) s)

/-- ODOMETER_READ: a read of TIME_ODO_LO returns the reader's NOW latch, or before the first one a fresh Odometer value
and latches TIME_ODO_HI (03 R55). -/
def execOdometerRead (rd : Fin 9) (off : BitVec 16) (s : State) : Out :=
  .next (readBy rd 0x30020 (fun s =>
    let l := s.time.now[rd]
    if l.latched then (l.odo.setWidth 32, s)
    else
      let s1 := atTick off s
      (w32 s1.time.odo, { s1 with time := { s1.time with
        now := upd s1.time.now rd fun l => { l with odoHi := w32 (s1.time.odo / 2 ^ 32) } } })) s)

/-- The selected slot as registers show it. -/
def selCode (none_ : Nat) (s : State) : Nat := s.sign.sel.elim none_ (·.1)

/-- A write of 1 to TIME_SNAP_CTRL.GO captures the time in one tick (03 R56). -/
def snapGo (off : BitVec 16) (s : State) : State :=
  let s1 := atTick off s
  let c := cntNow s1
  let s2 : State := { s1 with time := { s1.time with snap :=
    { ns := nsOf c, frac := fracOf c, sec := secOf c, odo := BitVec.ofNat 64 s1.time.odo, errb := s1.time.errb,
      mode := modeCode s1.sys.mode, sel := selCode 0xFF s1, valid := true } } }
  if s.time.snap.valid then sticky 0x30090 4#32 s2 else s2

/-- SNAPSHOT_GO: the write of GO captures counter, Odometer, ERRB, mode and selected slot in one tick (03 R56). -/
def execSnapshotGo (rd : Fin 9) (off : BitVec 16) (s : State) : Out :=
  .next (writeBy rd 0x30090 (snapGo off) s)

/-- SNAPSHOT_READ: a read of TIME_SNAP_NS clears VALID (03 R56). -/
def execSnapshotRead (rd : Fin 9) (s : State) : Out :=
  .next (readBy rd 0x30094 (fun s =>
    (w32 s.time.snap.ns, { s with time := { s.time with snap := { s.time.snap with valid := false } } })) s)

/-- LEAP_APPLY: at LEAP_AT (03 R59). -/
def execLeapApply (s : State) : Out :=
  .next (if timeUp s && s.time.leap.isSome && s.time.leapAt ≤ secNow s then applyLeap s else s)

/-! ## Cairn (03 R66-R68) -/

/-- The order of the group of P-384. -/
def groupOrder : Nat :=
  0xFFFFFFFFFFFFFFFFFFFFFFFFFFFFFFFFFFFFFFFFFFFFFFFFC7634D81F4372DDF581A0DB248B0A77AECEC196ACCC52973

/-- The private scalar d of the present identity: (v mod (n - 1)) + 1 of slot 3's 64 bytes v, read big-endian; 0 without a root
secret (17 R374, log 196). -/
def identity (s : State) : Nat := if s.vault.rootOk then beVal s.vault.keys[3].key % (groupOrder - 1) + 1 else 0

/-- The public key of the present identity, 97 bytes (17 R386). -/
def publicKey (s : State) : List Byte := (List.range 97).map (Config.publicKey (identity s))

/-- SHA-384 of a byte string. -/
def sha384 (m : List Byte) : List Byte := (List.range 48).map (Config.sha384 m)

/-! ## Commit records of flash banks (17 R383, 23 R481) -/

/-- Bytes 0-31 of a commit record (17 table "Key-store commit record"). -/
def recordHead (magic : List Byte) (n entries : Nat) : List Byte := magic ++ [1#8] ++ zeros 3 ++ le 8 n ++ le 2 entries ++ zeros 14

/-- MAC of a commit record: HMAC-SHA256 under STORE_MAC over the bank's contents and bytes 0-31. -/
def recordMac (s : State) (data head : List Byte) : List Byte := (List.range 32).map (Config.hmac s.vault.keys[2].key (data ++ head))

/-- The commit record of a bank. -/
def commitRecord (s : State) (magic : List Byte) (n entries : Nat) (data : List Byte) : List Byte :=
  recordHead magic n entries ++ recordMac s data (recordHead magic n entries)

/-- COUNTER of a commit record. -/
def recordCounter (r : List Byte) : Nat := leVal ((r.drop 8).take 8)

/-- A bank is valid: MAGIC and VERSION are correct and the MAC verifies under the present ROOT (17 R385). -/
def recordValid (s : State) (magic data r : List Byte) : Bool :=
  r.take 5 == magic ++ [1#8] && r.drop 32 == recordMac s data (r.take 32)

/-- ECDSA P-384 signature, r then s, big-endian, with the next draw as its added random input (17 R386). -/
def ecdsaSign (s : State) (m : List Byte) : List Byte :=
  (List.range 96).map (Config.ecdsaSign (identity s) m (randBytes s.vault.draws 32))

/-- Nibbles packed two to a byte, the first in the low nibble. -/
def nibbles : List Nat → List Byte
  | a :: b :: l => BitVec.ofNat 8 (a % 16 + 16 * (b % 16)) :: nibbles l
  | [a] => [BitVec.ofNat 8 (a % 16)]
  | [] => []

/-- KEY_ID of the present identity: the first 8 bytes of SHA-384 of its public key (03 R67). -/
def keyIdNow (s : State) : List Byte := (sha384 (publicKey s)).take 8

/-- The 104 bytes of a record that are signed (03 R67). -/
def recBytes (r : CairnRec) : List Byte :=
  [0x43#8, 0x01#8] ++ le 2 200 ++ le 2 r.flags.toNat ++ [BitVec.ofNat 8 r.sel, BitVec.ofNat 8 r.mode] ++ le 4 r.seq ++ le 4 r.pcycle ++
  le 6 (secOf r.cnt) ++ le 2 (fracOf r.cnt) ++ le 4 (nsOf r.cnt) ++ leI 2 r.utcOffset ++ [r.leap, 0#8] ++ le 4 r.errb ++
  r.terms.toList.flatMap (le 4) ++ le 4 r.holdAge ++ le 4 r.errbMax ++ le 4 r.ophrs ++ nibbles r.ranks ++ nibbles r.states ++
  r.keyId ++ zeros 4 ++ le 8 r.odo

/-- The whole record, the signature zero where signing failed (03 R67, R68). -/
def recWhole (r : CairnRec) : List Byte := recBytes r ++ r.sig.getD (zeros 96)

/-- TIME_UTC[18:16]: LEAP61, LEAP59, SRC. -/
def leapBits (s : State) : Nat :=
  bit (s.time.leap == some .leap61) + 2 * bit (s.time.leap == some .leap59) + 4 * bit s.time.utcManual

/-- The device can sign: ROOT, a generator in service, a passing engine and an identity slot without FAULTY (17 R375, R377,
R386). -/
def canSign (s : State) : Bool :=
  s.vault.rootOk && s.vault.rngOk && s.vault.ecdsaOk && powered s 9 && !s.vault.keys[3].faulty

/-- Samples a record at the boundary (03 R66, R67). -/
def cairnRecord (event : Bool) (s : State) : State :=
  let c := s.cairn
  let flags := bit event + 2 * bit (leaseHeld s) + 4 * bit s.aon.unitB + 8 * bit s.guy.oos + 16 * bit c.steppedSince +
    32 * bit (s.time.errb == 0xFFFFFFFF) + 64 * bit (pertArmed s) + 128 * bit s.time.leap.isSome
  let r : CairnRec := {
    flags := BitVec.ofNat 16 flags, sel := selCode 0xFF s, mode := modeCode s.sys.mode, pcycle := s.aon.pcycle, seq := c.seq, cnt := s.time.cnt,
    utcOffset := s.time.utcOffset, leap := BitVec.ofNat 8 (leapBits s), errb := s.time.errb, terms := s.time.terms,
    holdAge := if s.sys.mode == .holdover then s.guy.age else 0, errbMax := c.errbMax, ophrs := s.aon.ophrs,
    ranks := s.sign.slots.toList.map (·.rank), states := s.sign.slots.toList.map (slotCode ·.state), odo := s.time.bOdo, keyId := keyIdNow s }
  { s with cairn := { c with
      seq := (c.seq + 1) % 2 ^ 32, unsigned := c.unsigned ++ [r], steppedSince := false, errbMax := 0 } }

/-- The event records of this second are used up: an event folds into the next record (03 R66). -/
def eventFolds (s : State) : Bool := s.cairn.pendingEvent && decide (16 ≤ s.cairn.eventsThisSec)

/-- Whether the counter, going on from `old` to `new` without a step, passed or reached a second that is a multiple of
PERIOD (03 R66). -/
def periodPassed (s : State) (old new : Nat) : Bool :=
  secOf new != secOf old && s.cairn.period != 0 && secOf new % s.cairn.period == 0

/-- A step that lands on the first instant of such a second reaches its boundary; one that passes over it does not (03 R66,
log 170). -/
def periodLanded (s : State) : Bool :=
  s.time.stepped && s.time.cnt % secU == 0 && s.cairn.period != 0 && secOf s.time.cnt % s.cairn.period == 0

/-- CAIRN_PERIODIC_RECORD: on the steering boundary at or after a second boundary of TIME_SEC that is a multiple of PERIOD,
once (03 R66). -/
def execCairnPeriodicRecord (s : State) : Out :=
  .next (if timeUp s && s.cairn.due then
      let s1 := cairnRecord (eventFolds s) s
      { s1 with cairn := { s1.cairn with pendingEvent := s1.cairn.pendingEvent && !eventFolds s, due := false } }
    else s)

/-- Cairn messages waiting for rings. -/
def cairnWaiting (s : State) : Nat := (s.host.mbox.toList.map fun m => (m.held.filter (·.unsol)).length).sum

/-- SEQ[31:0] of a Cairn message. -/
def msgSeq (m : Msg) : Nat := leVal ((m.payload.drop 8).take 4)

/-- The slot that holds the oldest undelivered record. -/
def oldestRec (s : State) : Option (Fin 8 × Nat) :=
  (List.finRange 8).foldl (fun b i =>
    match (s.host.mbox[i].held.find? (·.unsol)).map msgSeq with
    | some q => match b with
      | some (j, r) => if q < r then some (i, q) else some (j, r)
      | none => some (i, q)
    | none => b) none

/-- Drops the first undelivered record of a list. -/
def dropUnsol : List Msg → List Msg
  | [] => []
  | m :: l => if m.unsol then l else m :: dropUnsol l

/-- A full queue of 4,096 records drops the oldest; CAIRN_GAP is raised and the run counted (03 R68). -/
def cairnRoom (s : State) : State :=
  if cairnWaiting s ≤ 4096 then s
  else
    match oldestRec s with
    | some (i, q) => raise 10 { s with
        host := { s.host with mbox := upd s.host.mbox i fun m => { m with held := dropUnsol m.held } },
        cairn := { s.cairn with gapRun := s.cairn.gapRun + 1, gapFirst := if s.cairn.gapRun = 0 then q else s.cairn.gapFirst } }
    | none => s

/-- A run of drops ends once the queue is no longer full: its one Trail record is written (03 R68). -/
def cairnGapEnd (s : State) : State :=
  if s.cairn.gapRun = 0 || decide (4096 ≤ cairnWaiting s) then s
  else trail 0x15 (le 4 s.cairn.gapFirst ++ le 4 s.cairn.gapRun) { s with cairn := { s.cairn with gapRun := 0 } }

/-- Slots that receive Cairn records: slot 0 and every Auditor (03 R68). -/
def cairnSlots (s : State) : List (Fin 8) := (List.finRange 8).filter fun i => i == 0 || roleOf s i == .auditor

/-- Appends a record to the flash region, a new sector after twenty records (23 R482). -/
def cairnFlash (r : CairnRec) (l : List (Nat × List CairnRec)) : List (Nat × List CairnRec) :=
  match l with
  | (q, rs) :: t => if rs.length < 20 then (q, rs ++ [r]) :: t else ((q + 1, [r]) :: l).take 2048
  | [] => [(1, [r])]

/-- CAIRN_SIGN_DONE: the oldest record being signed is signed, or posted with a zero signature and CAIRN_SIGN latched, and
delivered to the rings and to flash (03 R66-R68). -/
def execCairnSignDone (ok : Bool) (s : State) : Out :=
  match s.cairn.unsigned with
  | [] => .next s
  | r :: l =>
    let good := ok && canSign s
    let r1 := { r with sig := if good then some (ecdsaSign s (recBytes r)) else none }
    let s1 : State := { s with
      cairn := { s.cairn with unsigned := l, last := some r1 },
      flash := { s.flash with cairn := if s.cairn.flash then cairnFlash r1 s.flash.cairn else s.flash.cairn } }
    let s2 := if good then (draw s1).2 else faultEvent 1 s1
    .next ((cairnSlots s2).foldl (fun s i =>
      cairnRoom (deliver i { op := 0xB12, unsol := true, payload := recWhole r1 } s)) (cairnGapEnd s2))

/-! ## Commands (03 R69, R70) -/

/-- `ICP_TIME_GET`. -/
def execIcpTimeGet (c : CmdRef) (off : BitVec 16) (s : State) : Out :=
  icpDo c 0x120 (fun _ => []) (atTick off) (fun s =>
    let t := cntNow s
    le 6 (secOf t) ++ le 2 (fracOf t) ++ le 4 (nsOf t) ++ le 4 s.time.errb ++ le 8 s.time.odo ++ leI 2 s.time.utcOffset ++
    le 1 (leapBits s + 8 * bit s.time.utcKnown) ++ le 1 (modeCode s.sys.mode) ++ zeros 4) s

/-- The leap an action announces. -/
def leapAction : Nat → Option LeapKind
  | 2 => some .leap61
  | 3 => some .leap59
  | _ => none

/-- `ICP_LEAP_SET`: the leap source and a manual announcement (03 R57, R58, R70). -/
def execIcpLeapSet (c : CmdRef) (a : LeapSetArgs) (s : State) : Out :=
  let act := a.action.toNat
  let at_ := a.leapAt.toNat
  let ann := leapAction act
  icpDo c 0x121
    (fun s => [(a.rsv || decide (3 < act), stBadArg),
      (ann.elim false fun k => !leapValid at_ a.offset.toInt k, stBadArg),
      (ann.isSome && (decide (at_ < secNow s + 2) || decide (secNow s + 200 * 86400 < at_)), stRange)])
    (fun s =>
      if act = 0 then { s with time := { s.time with utcManual := false } }
      else { s with time := { s.time with
        utcManual := true, utcOffset := a.offset.toInt, utcKnown := true, leap := ann,
        leapAt := if ann.isSome then at_ else s.time.leapAt
        announcedAt := if ann.isSome && !(s.time.leap == ann && s.time.leapAt == at_) then cntNow s / nsU else s.time.announcedAt } })
    (fun _ => []) s

/-- `ICP_CAIRN_CONFIG` (03 R70). -/
def execIcpCairnConfig (c : CmdRef) (period : BitVec 16) (events flash rsv : Bool) (s : State) : Out :=
  icpDo c 0xB10
    (fun _ => [(rsv || period == 0#16, stBadArg), (decide (3600 < period.toNat), stRange)])
    (fun s => { s with cairn := { s.cairn with period := period.toNat, events := events, flash := flash } })
    (fun _ => []) s

/-- `ICP_CAIRN_LAST`: ORDER before the first record since reset (03 R70). -/
def execIcpCairnLast (c : CmdRef) (s : State) : Out :=
  icpDo c 0xB11 (fun s => [(s.cairn.last.isNone, stOrder)]) (fun s => s)
    (fun s => s.cairn.last.elim [] recWhole) s

end Sys2Proof.Machine
end

