-- ==== Sys2Proof/Machine/Vault.lean ====
section
/-!
DEFINITION. Canister: key slots and rings, the key commands and the wrapped key store, the re-masker and self-tests, device
identity, and firmware images with anti-rollback (17).
-/
namespace Sys2Proof.Machine
open Sys2Proof

/-! ## Rings (17 R378, R381) -/

/-- Number of a PTP ring. -/
def ptpRing (slot spp : Nat) : Nat := slot * 256 + spp

/-- Generation of a ring. -/
def ringGen (s : State) (slot : Nat) (ptp : Bool) (spp : Nat) : BitVec 32 :=
  if ptp then mget 1#32 (ptpRing slot spp) s.vault.ptpRingGen else s.vault.ntsRingGen.toList.getD slot 1#32

/-- A Canister slot holds a key of a ring. -/
def inRing (slot : Nat) (ptp : Bool) (spp : Nat) (i : Fin 64) (k : KeySlot) : Bool :=
  decide (8 ≤ i.1) && k.used && k.owner == slot && k.ptp == ptp && (!ptp || k.spp == spp)

/-- The keys of a ring, by Canister slot. -/
def ringKeys (s : State) (slot : Nat) (ptp : Bool) (spp : Nat) : List (Fin 64) :=
  (List.finRange 64).filter fun i => inRing slot ptp spp i s.vault.keys[i]

/-- The key of a ring with a KEY_NUM or keyID. -/
def findKey (s : State) (slot : Nat) (ptp : Bool) (spp num : Nat) : Option (Fin 64) :=
  (ringKeys s slot ptp spp).find? fun i => s.vault.keys[i].num == num

/-- A key serves new operations: not FAULTY, and of its ring's generation (17 R377, R381). -/
def usable (s : State) (i : Fin 64) : Bool :=
  let k := s.vault.keys[i]
  k.used && !k.faulty && k.ringGen == ringGen s k.owner k.ptp k.spp && powered s 9

/-- The CURRENT key of a ring, when it is usable. -/
def currentKey (s : State) (slot : Nat) (ptp : Bool) (spp : Nat) : Option (Fin 64) :=
  (ringKeys s slot ptp spp).find? fun i => usable s i && s.vault.keys[i].state == .current

/-- Keys held by a slot in any ring. -/
def slotKeys (s : State) (slot : Nat) : List (Fin 64) :=
  (List.finRange 64).filter fun i => decide (8 ≤ i.1) && s.vault.keys[i].used && s.vault.keys[i].owner == slot

/-- KEY_ID of an NTS key (13 R280). -/
def keyId (slot num : Nat) : Nat := slot * 2 ^ 29 + num % 2 ^ 29

/-- A generation after an increment; it passes from 0xFFFF_FFFF to 1 (17 R382). -/
def genNext (g : BitVec 32) : BitVec 32 := if g + 1#32 = 0#32 then 1#32 else g + 1#32

/-- Changes one Canister slot. -/
def setKey (i : Fin 64) (f : KeySlot → KeySlot) (s : State) : State :=
  { s with vault := { s.vault with keys := upd s.vault.keys i f } }

/-- The ring's generation advances. -/
def ringAdvance (slot : Fin 8) (ptp : Bool) (spp : Nat) (s : State) : State :=
  if ptp then
    { s with vault := { s.vault with
        ptpRingGen := mset 1#32 (ptpRing slot.1 spp) (genNext (ringGen s slot.1 true spp)) s.vault.ptpRingGen } }
  else { s with vault := { s.vault with ntsRingGen := upd s.vault.ntsRingGen slot genNext } }

/-! ## Invalidation (17 R381) -/

/-- The generations that a transaction recorded of a Canister slot when it was admitted (17 R381). -/
def txnGens (i : Fin 64) (t : Txn) : List (BitVec 32) := ((t.keyAt.toList ++ t.sealAt.toList).filter (·.1 == i.1)).map (·.2)

/-- The generations that an emission recorded of a Canister slot. -/
def msgGens (i : Fin 64) (m : PtpMsg) : List (BitVec 32) := if m.keyNum == some i.1 then [m.keyGen] else []

/-- An admitted transaction refers to the key now in Canister slot `i`. -/
def txnUses (s : State) (i : Fin 64) (t : Txn) : Bool := (txnGens i t).contains s.vault.keys[i].gen

/-- An emission refers to the key now in Canister slot `i`. -/
def msgUses (s : State) (i : Fin 64) (m : PtpMsg) : Bool := (msgGens i m).contains s.vault.keys[i].gen

/-- One launch frame discarded as KEY_DISCARD: its entry and cells are freed, and the lower queues are tried (17 R381, 12 R258). -/
def discardOne (p : Fin 4) (e : LaunchEnt) (s : State) : State :=
  let counted := match s.serv.inflight.find? fun t => launchTxn false t.id == e.txn with
    | some t => servCount p 20 t.slot t.src 1 s
    | none => count (192 + 32 * p.1 + 20) (fin? 8 e.owner) s
  txStart p (freeTxn e.txn (launchFree p e counted))

/-- Discards the launch frames of every port that satisfy a test. -/
def discardFrames (test : LaunchEnt → Bool) (s : State) : State :=
  (List.finRange 4).foldl (fun s p => (s.wayp.p[p].launch.filter test).foldl (fun s e => discardOne p e s) s) s

/-- A frame in the launch pool belongs to a transaction marked for discard. -/
def isDiscard (s : State) (e : LaunchEnt) : Bool :=
  e.complete && !e.cal && e.txn % 2 == 0 && s.serv.inflight.any fun t => t.id == e.txn / 2 && t.discard

/-- The effect of a hard invalidation on the transactions of the keys: frames complete in the launch pool go at once, the
others when they reach it; an emission under a PTP key goes at once. -/
def hardDiscard (ks : List (Fin 64)) (s : State) : State :=
  let mark (t : Txn) : Txn := if ks.any fun i => txnUses s i t then { t with discard := true } else t
  let s1 : State := { s with serv := { s.serv with inflight := s.serv.inflight.map mark } }
  let s2 := discardFrames (isDiscard s1) s1
  let ms := s2.ptp.msgs.filter fun m => ks.any fun i => msgUses s2 i m
  let s3 := discardFrames (fun e => e.txn % 2 == 1 && ms.any fun m => m.id == e.txn / 2) s2
  ms.foldl (fun s m => if s.ptp.msgs.any (·.id == m.id) then
      freeTxn (launchTxn true m.id) (count (192 + 32 * m.out.port.1 + 20) (some m.owner) s) else s) s3

/-- Transactions and emissions that refer to the keys. -/
def usesOf (ks : List (Fin 64)) (s : State) : Nat :=
  (s.serv.inflight.filter fun t => ks.any fun i => txnUses s i t).length +
  (s.ptp.msgs.filter fun m => ks.any fun i => msgUses s i m).length

/-- An admitted transaction or an emission still refers to a key that stood in Canister slot `i` before its generation advanced
(17 R381). -/
def oldUse (i : Fin 64) (s : State) : Bool :=
  let old (l : List (BitVec 32)) : Bool := l.any (· != s.vault.keys[i].gen)
  s.serv.inflight.any (fun t => old (txnGens i t)) || s.ptp.msgs.any (fun m => old (msgGens i m))

/-- Takes keys out of service: the slot's generation advances and the shares wait to be zeroed. -/
def withdraw (ks : List (Fin 64)) (s : State) : State :=
  ks.foldl (fun s i => setKey i (fun k => { k with used := false, draining := true, gen := genNext k.gen }) s) s

/-- Invalidates keys of a slot and tells it (17 R381, R391). -/
def invalidateKeys (slot : Fin 8) (ks : List (Fin 64)) (hard : Bool) (s : State) : State :=
  if ks.isEmpty then s else raiseOwn slot 210 (withdraw ks (if hard then hardDiscard ks s else s))

/-! ## The wrapped key store (17 R383-R385) -/

/-- The entries of the key store for the keys Canister holds. -/
def storeEntries (s : State) : List StoreEnt :=
  ((List.finRange 64).filter fun i => decide (8 ≤ i.1) && s.vault.keys[i].used).map fun i =>
    let k := s.vault.keys[i]
    { cslot := i.1, key := k.key, owner := k.owner, ptp := k.ptp, num := k.num, spp := k.spp, state := k.state, order := k.order,
      gen := k.ringGen }

/-- State byte of a key in the lists and in a key-store header. -/
def keyStateCode : KeyState → Nat
  | .current => 0 | .previous => 1 | .staged => 2

/-- The 16-byte header of an entry, its fields in the rule's order (17 R383, log 194). -/
def StoreEnt.header (e : StoreEnt) : List Byte :=
  le 1 e.cslot ++ le 1 (keyStateCode e.state) ++ le 1 (bit e.ptp) ++ le 1 e.owner ++ le 4 e.num ++ le 1 e.spp ++ le 1 e.key.length ++
    le 2 (e.order % 65536) ++ le 4 e.gen.toNat

/-- The 128 bytes of an entry: header, SIV and ciphertext under STORE_KEK, the rest erased (17 R383). -/
def StoreEnt.bytes (kek : List Byte) (e : StoreEnt) : List Byte :=
  e.header ++ (List.range 80).map (Config.sivSeal kek [] e.header ((e.key ++ zeros 64).take 64)) ++ List.replicate 32 0xFF#8

/-- MAGIC of the key store. -/
def storeMagic : List Byte := [0x5A#8, 0x44#8, 0x4B#8, 0x53#8]

/-- A bank as an update with COUNTER `n` programs it (17 R384). -/
def bankOf (s : State) (n : Nat) (l : List StoreEnt) : StoreBank :=
  let data := l.flatMap (StoreEnt.bytes s.vault.keys[1].key)
  { entries := l, data := data, record := commitRecord s storeMagic n l.length data }

/-- COUNTER of a bank's commit record. -/
def StoreBank.counter (b : StoreBank) : Nat := recordCounter b.record

/-- A bank is valid: MAGIC and VERSION are correct and its MAC verifies under the present ROOT (17 R385). -/
def bankValid (s : State) (b : StoreBank) : Bool := recordValid s storeMagic b.data b.record

/-- The bank an update is written to: the one that is not loaded. -/
def spareBank (s : State) : Fin 2 := if s.vault.storeLoaded && !s.vault.storeBank then 1 else 0

/-- The written and read-back bank becomes the loaded one, with COUNTER one above the active bank's (17 R384). -/
def storeCommit (s : State) : State :=
  let n := (if s.vault.storeLoaded then s.vault.storeCnt else 0) + 1
  let b := spareBank s
  faultCond 48 false (raise 212 { s with vault := { s.vault with
    bank := s.vault.bank.set b.1 (bankOf s n (storeEntries s)) b.2,
    storeLoaded := true, storeBank := b == 1, storeCnt := n } })

/-- The bank loaded at a start: the valid one with the higher COUNTER, bank 0 at equal counters (17 R385). -/
def bestBank (s : State) : Option (Fin 2) :=
  let a := s.vault.bank[0]
  let b := s.vault.bank[1]
  if bankValid s a && (!bankValid s b || b.counter ≤ a.counter) then some 0 else if bankValid s b then some 1 else none

/-- Loads one entry; the ring takes the recorded generation. -/
def loadEntry (e : StoreEnt) (s : State) : State :=
  match fin? 64 e.cslot, fin? 8 e.owner with
  | some i, some o =>
    let s1 := setKey i (fun k => { k with
      key := e.key, chk := crc32c e.key, used := true, owner := e.owner, ptp := e.ptp, num := e.num, spp := e.spp, state := e.state,
      order := e.order, ringGen := e.gen, draining := false, mask := s.vault.draws }) (draw s).2
    let v := s1.vault
    { s1 with vault := { v with
        ntsRingGen := if e.ptp then v.ntsRingGen else v.ntsRingGen.set o.1 e.gen o.2,
        ptpRingGen := if e.ptp then mset 1#32 (ptpRing e.owner e.spp) e.gen v.ptpRingGen else v.ptpRingGen,
        orderNext := max v.orderNext (e.order + 1) } }
  | _, _ => s

/-- Loads the key store; without a valid bank KEYSTORE (48) is latched when helper data exists (17 R385). -/
def loadStore (s : State) : State :=
  match bestBank s with
  | some b => faultCond 48 false (s.vault.bank[b].entries.foldl (fun s e => loadEntry e s) { s with
      vault := { s.vault with storeLoaded := true, storeBank := b == 1, storeCnt := s.vault.bank[b].counter } })
  | none => (if s.vault.enrolled then faultCond 48 true else id) { s with
      vault := { s.vault with storeLoaded := false, storeBank := false, storeCnt := 0 } }

/-- A string's characters as ASCII bytes. -/
def ascii (l : List Char) : List Byte := l.map fun c => BitVec.ofNat 8 c.toNat

/-- The salt of every derivation (17 R374). -/
def hkdfSalt : List Byte := ascii ['Z', 'i', 'l', 'o', 'n', 'e', 'l', 'o', ' ', 'O', 'T', 'E', '-', '4', '8', '2', '5']

/-- `n` bytes derived from the root secret for an info string (17 R374). -/
def derive (root : List Byte) (info : List Char) (n : Nat) : List Byte := (List.range n).map (Config.hkdf root hkdfSalt (ascii info))

/-- The root secret that the device's helper data yields (17 R372). -/
def rootSecret (enrolment : Nat) : List Byte := (List.range 32).map (Config.root enrolment)

/-- The key-check value of a root secret (17 R372). -/
def kcvOf (root : List Byte) : List Byte := derive root ['k', 'c', 'v'] 8

/-- Puts a key into a Canister slot under fresh shares, with its check value (17 R376). -/
def putKey (i : Fin 64) (key : List Byte) (s : State) : State :=
  setKey i (fun k => { k with used := true, key := key, chk := crc32c key, mask := s.vault.draws }) (draw s).2

/-- ROOT and the keys derived from it stand in slots 0-3 (17 R372, R374). -/
def rootKeys (s : State) : State :=
  let r := rootSecret s.vault.enrollNo
  let keyed := putKey 1 (derive r ['s', 't', 'o', 'r', 'e', '-', 'k', 'e', 'k'] 32) (putKey 0 r s)
  let macd := putKey 2 (derive r ['s', 't', 'o', 'r', 'e', '-', 'm', 'a', 'c'] 32) keyed
  let named := putKey 3 (derive r ['i', 'd', 'e', 'n', 't', 'i', 't', 'y', '-', 'p', '3', '8', '4'] 64) macd
  { named with vault := { named.vault with rootOk := true } }

/-- A key of the random bit generator in a Canister slot. -/
def drawKey (i : Fin 64) (n : Nat) (s : State) : State := putKey i (randBytes s.vault.draws n) (draw s).2

/-- At every start DUMMY and the two hash keys are drawn into slots 4-6 (17 R374, log 196). -/
def startKeys (s : State) : State :=
  let s1 := drawKey 6 16 (drawKey 5 16 (drawKey 4 32 s))
  { s1 with serv := { s1.serv with dummyKey := s.vault.draws, hashKey := s.vault.draws + 2 },
            ptp := { s1.ptp with hashKey := s.vault.draws + 4 } }

/-- Opcode of a key command. -/
def keyOpcode : KeyOp → Nat
  | .installNts .. => 0xA00
  | .installPtp .. => 0xA10
  | .rotate _ ptp _ _ => if ptp then 0xA11 else 0xA01
  | .invalidate _ ptp _ _ _ _ => if ptp then 0xA12 else 0xA02

/-- Canister is zeroised: every key and generation is gone; key commands waiting end with NO_KEY (17 R374, R394; 02 R32). -/
def vaultWipe (s : State) : State :=
  let s1 : State := { s with vault := { s.vault with
    rootOk := false, storeLoaded := false, storeBank := false, storeCnt := 0, keys := Vector.replicate 64 {},
    ntsRingGen := Vector.replicate 8 1#32, ptpRingGen := [], queue := [], drainCmd := [], sweepPos := 0 } }
  let s2 := s.vault.queue.foldl (fun s q => complete q.cmd (keyOpcode q.op) stNoKey [] s) s1
  faultCond 47 false (s.vault.drainCmd.foldl (fun s d => complete d.1 (if 2 ^ 40 ≤ d.2.1 then 0xA12 else 0xA02) stOk (le 1 d.2.2.1 ++ zeros 3 ++ le 4 d.2.2.2) s) s2)

/-! ## Carrying out key commands (17 R379, R380, R384) -/

/-- The PREVIOUS entry of a ring that was installed earliest (17 R379). -/
def earliestPrevious (s : State) (l : List (Fin 64)) : Option (Fin 64) :=
  (l.filter fun i => s.vault.keys[i].state == .previous).foldl (fun b i =>
    match b with
    | some j => if s.vault.keys[i].order < s.vault.keys[j].order then some i else some j
    | none => some i) none

/-- Canister slots a ring may use: its four, or the PTP pool (17 R374). -/
def ringSpace (slot : Fin 8) (ptp : Bool) : List (Fin 64) :=
  (List.finRange 64).filter fun i => if ptp then decide (40 ≤ i.1) else decide (8 + 4 * slot.1 ≤ i.1) && decide (i.1 < 12 + 4 * slot.1)

/-- The Canister slot a new key takes: a free one without FAULTY first. -/
def freeSlot (s : State) (slot : Fin 8) (ptp : Bool) : Option (Fin 64) :=
  let l := (ringSpace slot ptp).filter fun i => !s.vault.keys[i].used
  match l.find? fun i => !s.vault.keys[i].draining && !s.vault.keys[i].faulty with
  | some i => some i
  | none => match l.find? fun i => !s.vault.keys[i].faulty with
    | some i => some i
    | none => l.head?

/-- Every entry of the PTP pool holds a key. -/
def poolFull (s : State) : Bool :=
  (List.finRange 64).all fun i => i.1 < 40 || s.vault.keys[i].used || s.vault.keys[i].draining

/-- The status of an installation when it starts, if it cannot be carried out (17 R379, R394). -/
def installCheck (slot : Fin 8) (ptp : Bool) (spp num : Nat) (s : State) : Option (Nat × List Byte) :=
  let l := ringKeys s slot.1 ptp spp
  if (findKey s slot.1 ptp spp num).isSome then some (stOrder, [])
  else if (if ptp then 2 else 4) ≤ l.length && (earliestPrevious s l).isNone then some (stQuota, [])
  else if ptp && poolFull s then some (stQuota, [])
  else none

/-- The answer of a key command that ends when it starts; `none` when its key-store update begins (17 R379, R394). -/
def keyCheck (op : KeyOp) (s : State) : Option (Nat × List Byte) :=
  if !s.vault.rootOk then some (stNoKey, [])
  else
    match op with
    | .installNts slot num _ _ => installCheck slot false 0 num s
    | .installPtp slot spp num _ _ => installCheck slot true spp num s
    | .rotate slot ptp spp num => if (findKey s slot.1 ptp spp num).isNone then some (stBadArg, []) else none
    | .invalidate slot ptp spp num _ all =>
      if all then (if (ringKeys s slot.1 ptp spp).isEmpty then some (stOk, zeros 8) else none)
      else if (findKey s slot.1 ptp spp num).isNone then some (stBadArg, []) else none

/-- Starts the commands at the head of the queue: those that end at once complete in order, the first that needs a
key-store update erases the inactive bank and waits for it (17 R384 step 1). -/
def keyStart : List KeyReq → State → State
  | [], s => { s with vault := { s.vault with queue := [] } }
  | q :: l, s =>
    match keyCheck q.op s with
    | some r => keyStart l (complete q.cmd (keyOpcode q.op) r.1 r.2 s)
    | none => { s with vault := { s.vault with
        queue := { q with started := true } :: l, bank := s.vault.bank.set (spareBank s).1 {} (spareBank s).2 } }

/-- Goes on with the queue once no command is in progress (17 R380). -/
def keyNext (s : State) : State :=
  if s.vault.drainCmd.isEmpty && !(s.vault.queue.head?.elim false (·.started)) then keyStart s.vault.queue s else s

/-- A ring's former CURRENT key becomes PREVIOUS. -/
def demote (slot : Fin 8) (ptp : Bool) (spp : Nat) (s : State) : State :=
  (ringKeys s slot.1 ptp spp).foldl (fun s i =>
    setKey i (fun k => { k with state := if k.state == .current then .previous else k.state }) s) s

/-- An installation's change of Canister (17 R379): a full ring loses its earliest PREVIOUS entry by soft invalidation. -/
def applyInstall (slot : Fin 8) (ptp : Bool) (spp num : Nat) (cur : Bool) (key : List Byte) (s : State) : State :=
  let l := ringKeys s slot.1 ptp spp
  let s1 := if (if ptp then 2 else 4) ≤ l.length then
      (earliestPrevious s l).elim s fun i => invalidateKeys slot [i] false s else s
  let s2 := if cur then demote slot ptp spp s1 else s1
  match freeSlot s2 slot ptp with
  | none => s2
  | some i =>
    let g := ringGen s2 slot.1 ptp spp
    let s3 := setKey i (fun k => { k with
      key := key, chk := crc32c key, mask := s2.vault.draws, used := true, ringGen := g, owner := slot.1, ptp := ptp, num := num, spp := spp,
      state := if cur then .current else .staged, order := s2.vault.orderNext }) (draw s2).2
    let s4 : State := { s3 with vault := { s3.vault with orderNext := s3.vault.orderNext + 1 } }
    let s5 := raiseOwn slot 208 s4
    if cur then raiseOwn slot 209 s5 else s5

/-- A rotation's change of Canister (17 R379). -/
def applyRotate (slot : Fin 8) (ptp : Bool) (spp num : Nat) (s : State) : State :=
  match findKey s slot.1 ptp spp num with
  | none => s
  | some i =>
    if s.vault.keys[i].state == .current then s
    else raiseOwn slot 209 (setKey i (fun k => { k with state := .current }) (demote slot ptp spp s))

/-- A bit mask of Canister slots. -/
def slotMask (ks : List (Fin 64)) : Nat := ks.foldl (fun m i => m + 2 ^ i.1) 0

/-- The keys an invalidation command names. -/
def invalidSet (slot : Fin 8) (ptp : Bool) (spp num : Nat) (all : Bool) (s : State) : List (Fin 64) :=
  if all then ringKeys s slot.1 ptp spp else (findKey s slot.1 ptp spp num).toList

/-- An invalidation's change of Canister; the command waits for KEY_DRAINED (17 R381). -/
def applyInvalidate (c : CmdRef) (slot : Fin 8) (ptp : Bool) (spp num : Nat) (hard all : Bool) (s : State) : State :=
  let ks := invalidSet slot ptp spp num all s
  let n := if hard then usesOf ks s else 0
  let s1 := invalidateKeys slot ks hard (if all then ringAdvance slot ptp spp s else s)
  { s1 with vault := { s1.vault with drainCmd := s1.vault.drainCmd ++ [(c, slotMask ks, ks.length, n)] } }

/-- The key-store update is complete: Canister changes, then the command completes (17 R380, R384). -/
def keyApply (q : KeyReq) (s : State) : State :=
  match q.op with
  | .installNts slot num cur key =>
    complete q.cmd 0xA00 stOk (le 4 (keyId slot.1 num)) (storeCommit (applyInstall slot false 0 num cur key s))
  | .installPtp slot spp num cur key => complete q.cmd 0xA10 stOk [] (storeCommit (applyInstall slot true spp num cur key s))
  | .rotate slot ptp spp num => complete q.cmd (keyOpcode q.op) stOk [] (storeCommit (applyRotate slot ptp spp num s))
  | .invalidate slot ptp spp num hard all => storeCommit (applyInvalidate q.cmd slot ptp spp num hard all s)

/-- KEY_STORE_COMMIT: the update of the command in progress is programmed and read back, or fails (17 R380, R384). A FAULTY
slot 1 or 2 fails it with BUSY (17 R377). -/
def execKeyStoreCommit (ok : Bool) (s : State) : Out :=
  match s.vault.queue with
  | [] => .next s
  | q :: l =>
    if !q.started then .next s
    else
      let s0 : State := { s with vault := { s.vault with queue := l } }
      if s.vault.keys[1].faulty || s.vault.keys[2].faulty then .next (keyNext (complete q.cmd (keyOpcode q.op) stBusy [] s0))
      else if ok then .next (keyNext (keyApply q s0))
      else
        let b := spareBank s
        let s1 : State := { s0 with vault := { s0.vault with bank := s0.vault.bank.set b.1 {} b.2 } }
        .next (keyNext (complete q.cmd (keyOpcode q.op) stBusy []
          (raise 213 (faultEvent 49 (sticky 0x00080 0x800000#32 s1)))))

/-- A Canister slot's part of a waiting invalidation is done; the command completes with the last one (17 R381). -/
def drainStep (i : Fin 64) (s : State) : State :=
  s.vault.drainCmd.foldl (fun s d =>
    if !d.2.1.testBit i.1 then s
    else if d.2.1 = 2 ^ i.1 then
      complete d.1 (if 40 ≤ i.1 then 0xA12 else 0xA02) stOk (le 1 d.2.2.1 ++ zeros 3 ++ le 4 d.2.2.2)
        { s with vault := { s.vault with drainCmd := s.vault.drainCmd.filter (· != d) } }
    else
      let less (e : CmdRef × Nat × Nat × Nat) : CmdRef × Nat × Nat × Nat := if e == d then (e.1, e.2.1 - 2 ^ i.1, e.2.2) else e
      { s with vault := { s.vault with drainCmd := s.vault.drainCmd.map less } }) s

/-- KEY_DRAINED: no admitted transaction refers to an invalidated key any longer: its shares are zeroed (17 R381). -/
def execKeyDrained (i : Fin 64) (s : State) : Out :=
  let k := s.vault.keys[i]
  if !k.draining || oldUse i s then .next s
  else
    let s1 := setKey i (fun k => if k.used then { k with draining := false } else
      { k with draining := false, key := [], mask := 0, chk := 0#32, num := 0, spp := 0 }) s
    .next (keyNext (drainStep i ((fin? 8 k.owner).elim (raise 211 s1) fun o => raiseOwn o 211 s1)))

/-- Removes the first key command that has not started. -/
def dropUnstarted : List KeyReq → Option (KeyReq × List KeyReq)
  | [] => none
  | q :: l => if q.started then (dropUnstarted l).map fun r => (r.1, q :: r.2) else some (q, l)

/-- KEY_COMMAND_TIMEOUT: a command that has waited 5 s without starting completes with BUSY; while PD_TIME is gated no Odometer
measures the wait, and the event tells it (17 R380, log 197). -/
def execKeyCommandTimeout (off : BitVec 16) (s0 : State) : Out :=
  let s := atOdo off s0
  match dropUnstarted s.vault.queue with
  | some (q, l) =>
    if timeUp s && decide (s.time.odo < q.at_ + 5 * tickSec) then .next s
    else .next (complete q.cmd (keyOpcode q.op) stBusy [] { s with vault := { s.vault with queue := l } })
  | none => .next s

/-- VAULT_RELOAD: after an ungating of PD_VAULT, ROOT is regenerated, the key store reloaded and VAULT_READY raised
(17 R372, R385, R391; 02 R35). -/
def execVaultReload (s : State) : Out :=
  if powered s 9 && s.vault.enrolled && !s.vault.rootOk then .next (raise 215 (loadStore (startKeys (rootKeys s)))) else .next s

/-! ## Re-masking and self-tests (17 R375-R377, R386) -/

/-- A key with bits upset since its shares were last written. -/
def upsetKey (key flips : List Byte) : List Byte := List.zipWith (· ^^^ ·) key (flips ++ zeros key.length)

/-- REMASK_VISIT: the next slot of a sweep takes fresh shares, and a sweep starts every REMASK_PERIOD; `flips` are the bits of its
shares that were upset since the last visit. The check value recomputed from the shares is that of the key they hold, since
CRC-32C is affine; a mismatch marks the slot FAULTY (17 R376, R377). -/
def execRemaskVisit (i : Fin 64) (flips : List Byte) (s : State) : Out :=
  if !powered s 9 || i.1 != s.vault.sweepPos || (i.1 == 0 && decide (s.vault.sweepAge < s.vault.remaskPeriod)) then .next s
  else
    let s0 : State := { s with vault := { s.vault with
      sweepPos := (i.1 + 1) % 64, sweepAge := if i.1 = 63 then 0 else s.vault.sweepAge } }
    if !(s.vault.keys[i].used || s.vault.keys[i].draining) then .next s0
    else
      let held := upsetKey s.vault.keys[i].key flips
      let s1 := setKey i (fun k => { k with mask := s.vault.draws, key := held }) (draw s0).2
      .next (if crc32c held == s.vault.keys[i].chk then s1
        else raise 214 (faultCond 47 true (setKey i (fun k => { k with faulty := true }) s1)))

/-- RNG_RESEED: at a reseed, whether a test of the noise source has failed since the last one, and how many samples have passed
since (since the failure, where there was one); 1,024 consecutive passing samples return the generator to service (17 R375). -/
def execRngReseed (failed : Bool) (passed : Nat) (s : State) : Out :=
  let s1 := if failed then raise 219 (faultCond 51 true { s with vault := { s.vault with rngOk := false, rngPass := 0 } }) else s
  let n := min 1024 (s1.vault.rngPass + passed)
  let s2 : State := { s1 with vault := { s1.vault with rngPass := n } }
  .next (if n = 1024 then faultCond 51 false { s2 with vault := { s2.vault with rngOk := true } } else s2)

/-- ECDSA_SELF_TEST: once per second (17 R386). -/
def execEcdsaSelfTest (ok : Bool) (s : State) : Out :=
  let s1 : State := { s with vault := { s.vault with ecdsaOk := ok } }
  .next (if ok then faultCond 50 false s1 else raise 220 (faultCond 50 true s1))

/-! ## Key commands (17 R393, R394) -/

/-- The slot whose rings a command acts on: its own; an Owner's is slot 0 (17 R393). -/
def ringSlot (c : CmdRef) : Fin 8 := c.slot

/-- A key command whose arguments are accepted joins the queue (17 R380). -/
def keyCmd (c : CmdRef) (op : Nat) (chk : List (Bool × Nat)) (k : KeyOp) (s : State) : Out :=
  icp c op (fun s =>
    if firstFail chk ≠ stOk then .done (firstFail chk) [] s
    else if !s.vault.rootOk then .done stNoKey [] s
    else .later (keyNext { s with vault := { s.vault with queue := s.vault.queue ++ [{ cmd := c, op := k, at_ := s.time.odo }] } })) s

/-- A KEY_NUM out of range (17 R394). -/
def badKeyNum (n : Word) : Bool := n == 0#32 || decide (0x1FFFFFFF < n.toNat)

/-- `ICP_NTS_KEY_INSTALL`. -/
def execIcpNtsKeyInstall (c : CmdRef) (a : NtsInstallArgs) (s : State) : Out :=
  keyCmd c 0xA00 [(a.rsv || badKeyNum a.num, stBadArg)] (.installNts (ringSlot c) a.num.toNat a.cur a.key.toList) s

/-- `ICP_NTS_KEY_ROTATE`. -/
def execIcpNtsKeyRotate (c : CmdRef) (num : Word) (s : State) : Out :=
  keyCmd c 0xA01 [(badKeyNum num, stBadArg)] (.rotate (ringSlot c) false 0 num.toNat) s

/-- `ICP_NTS_KEY_INVALIDATE`. -/
def execIcpNtsKeyInvalidate (c : CmdRef) (a : NtsInvArgs) (s : State) : Out :=
  keyCmd c 0xA02 [(a.rsv || decide (1 < a.kind.toNat) || (!a.all && badKeyNum a.num), stBadArg)]
    (.invalidate (ringSlot c) false 0 a.num.toNat (a.kind == 1#8) a.all) s

/-- `ICP_PTP_KEY_INSTALL`: 64 key bytes, zero beyond the length. -/
def execIcpPtpKeyInstall (c : CmdRef) (a : PtpInstallArgs) (s : State) : Out :=
  let n := a.len.toNat
  keyCmd c 0xA10 [(a.rsv || outside n 16 64 || (a.key.toList.drop n).any (· != 0#8), stBadArg)]
    (.installPtp (ringSlot c) a.spp.toNat a.keyId.toNat a.cur (a.key.toList.take n)) s

/-- `ICP_PTP_KEY_ROTATE`. -/
def execIcpPtpKeyRotate (c : CmdRef) (spp : BitVec 8) (keyId : Word) (rsv : Bool) (s : State) : Out :=
  keyCmd c 0xA11 [(rsv, stBadArg)] (.rotate (ringSlot c) true spp.toNat keyId.toNat) s

/-- `ICP_PTP_KEY_INVALIDATE`. -/
def execIcpPtpKeyInvalidate (c : CmdRef) (a : PtpInvArgs) (s : State) : Out :=
  keyCmd c 0xA12 [(a.rsv || decide (1 < a.kind.toNat), stBadArg)]
    (.invalidate (ringSlot c) true a.spp.toNat a.keyId.toNat (a.kind == 1#8) a.all) s

/-- A ring command that reads: NO_KEY without ROOT. -/
def ringList (c : CmdRef) (op : Nat) (resp : State → List Byte) (s : State) : Out :=
  icpDo c op (fun s => [(!s.vault.rootOk, stNoKey)]) (fun s => s) resp s

/-- `ICP_NTS_KEY_LIST`. -/
def execIcpNtsKeyList (c : CmdRef) (s : State) : Out :=
  ringList c 0xA03 (fun s =>
    let l := ringKeys s (ringSlot c).1 false 0
    le 1 l.length ++ zeros 3 ++ l.flatMap fun i =>
      let k := s.vault.keys[i]
      le 4 (keyId (ringSlot c).1 k.num) ++ le 1 (keyStateCode k.state) ++ zeros 3 ++ le 4 k.gen.toNat) s

/-- `ICP_PTP_KEY_LIST`: the keys of every ring of the slot. DESIGN CHOICE: keyIDs are little-endian here (log 200). -/
def execIcpPtpKeyList (c : CmdRef) (s : State) : Out :=
  ringList c 0xA13 (fun s =>
    let l := (slotKeys s (ringSlot c).1).filter fun i => s.vault.keys[i].ptp
    le 1 l.length ++ zeros 3 ++ l.flatMap fun i =>
      let k := s.vault.keys[i]
      le 1 k.spp ++ le 1 (keyStateCode k.state) ++ zeros 2 ++ le 4 k.num ++ le 4 k.gen.toNat) s

/-! ## Identity (17 R373, R386, R387) -/

/-- `ICP_ID_GET`. -/
def execIcpIdGet (c : CmdRef) (s : State) : Out :=
  icpGet c 0xA20 (fun s => publicKey s ++ zeros 1 ++ le 2 s.vault.cert.length ++ s.vault.cert) s

/-- Bytes 0-159 of the attestation statement (17 R387). -/
def statement (s : State) (nonce : List Byte) : List Byte :=
  [0x41#8, 0x01#8] ++ le 2 256 ++ [0x25#8, 0x48#8, 0xB0#8] ++ le 1 (modeCode s.sys.mode) ++ nonce ++
  (s.vault.imageHash ++ zeros 48).take 48 ++ le 1 s.vault.svn ++ le 1 s.vault.otpSvn ++ le 1 s.aon.bank ++
  le 1 (bit s.vault.confirmed + 2 * bit s.aon.provN + 4 * bit s.aon.unitB + 8 * bit (pertArmed s)) ++
  le 4 s.aon.pcycle ++ le 4 s.aon.ophrs ++ le 8 s.vault.storeCnt ++ (sha384 (publicKey s)).take 8 ++ zeros 44

/-- `ICP_ATTEST`: signed, or with zero signature values and CAIRN_SIGN latched when signing fails (17 R375, R387; 03 R68). -/
def execIcpAttest (c : CmdRef) (nonce : Vector Byte 32) (s : State) : Out :=
  icp c 0xA21 (fun s =>
    if canSign s then .done stOk (statement s nonce.toList ++ ecdsaSign s (statement s nonce.toList)) (draw s).2
    else .done stOk (statement s nonce.toList ++ zeros 96) (faultEvent 1 s)) s

/-- `ICP_KEY_ENROLL`: new helper data and KCV, both banks erased, a new identity (17 R373). What the former ROOT authenticated
no longer verifies. -/
def execIcpKeyEnroll (c : CmdRef) (confirm : Word) (s : State) : Out :=
  icpDo c 0xA22
    (fun s => [(confirm != 0xE1A00001#32, stBadArg), (s.aon.provN && s.vault.enrolled, stLocked)])
    (fun s => rootKeys { s with
      vault := { s.vault with
        enrolled := true, enrollNo := s.vault.enrollNo + 1, kcv := kcvOf (rootSecret (s.vault.enrollNo + 1)),
        bank := Vector.replicate 2 {}, storeLoaded := false, storeBank := false, storeCnt := 0 } })
    publicKey s

/-- `ICP_ID_CERT_SET`: a payload whose length field does not match its data is BAD_LEN (18 R404). -/
def execIcpIdCertSet (c : CmdRef) (len : BitVec 16) (cert : List Byte) (rsv : Bool) (s : State) : Out :=
  icpDo c 0xA23
    (fun _ => [(len.toNat != cert.length, stBadLen), (rsv, stBadArg), (decide (2048 < len.toNat), stRange)])
    (fun s => { s with vault := { s.vault with cert := cert } }) (fun _ => []) s

/-- `ICP_VAULT_CONFIG`. -/
def execIcpVaultConfig (c : CmdRef) (period : BitVec 16) (rsv : Bool) (s : State) : Out :=
  icpDo c 0xA24
    (fun _ => [(rsv || period == 0#16, stBadArg), (decide (3600 < period.toNat), stRange)])
    (fun s => { s with vault := { s.vault with remaskPeriod := period.toNat } }) (fun _ => []) s

/-! ## Registers (17 R392) -/

/-- Canister slots holding a key. -/
def keysInUse (s : State) : Nat := (s.vault.keys.toList.filter fun k => k.used || k.draining).length

/-- The bank the boot-preference record names: the copy with the higher sequence number (17 R389). -/
def prefBank (s : State) : Option Bool :=
  match s.vault.pref[0], s.vault.pref[1] with
  | some a, some b => some (if a.1 < b.1 then b.2 else a.2)
  | some a, none => some a.2
  | none, some b => some b.2
  | none, none => none

/-- SYS_FW_STAT. -/
def fwStat (s : State) : Word :=
  pack [(0, s.vault.otpSvn), (8, s.vault.svn), (16, bit (prefBank s == some true)), (17, bit s.vault.confirmed),
    (18, bit s.vault.updateOpen), (19, bit s.vault.target)]

/-- AON_RST_CAUSE (02 R38). -/
def rstCause (s : State) : Word :=
  pack [(0, s.aon.cause), (8, s.aon.bank), (10, s.aon.pufTries), (12, bit s.aon.provN), (13, bit s.aon.unitB),
    (14, s.aon.bankFail), (16, s.aon.bootTries)]

/-- The vault registers of the SYS block without sticky fields. -/
def roVault (s : State) (o : Nat) : Word :=
  match o with
  | 0x80 => pack [(0, bit s.vault.rootOk), (1, bit s.vault.enrolled), (2, bit s.vault.storeLoaded), (3, bit s.vault.storeBank),
      (4, bit s.vault.rngOk), (5, bit s.vault.ecdsaOk), (8, keysInUse s),
      (16, (s.vault.keys.toList.filter (·.faulty)).length)]
  | 0x84 => pack [(0, s.vault.remaskPeriod), (16, s.vault.sweepAge)]
  | 0x88 => w32 s.vault.storeCnt
  | 0x8C => w32 (s.vault.storeCnt / 2 ^ 32)
  | 0x90 => fwStat s
  | _ => 0#32

/-- `ICP_VAULT_STATUS`. -/
def execIcpVaultStatus (c : CmdRef) (s : State) : Out :=
  icpGet c 0xA25 (fun s =>
    viewBytes (fun s _ o => roVault s o) s c.slot (regRun 0x80 5) ++
    (List.finRange 64).flatMap fun i =>
      let k := s.vault.keys[i]
      le 1 (if k.faulty then 2 else if k.used || k.draining then 1 else 0) ++ [Config.kindCode i.1] ++ le 1 k.owner ++ zeros 1 ++
      le 4 k.gen.toNat) s

/-! ## Firmware images (17 R388-R390) -/

/-- Bytes of an image bank from a bank offset. -/
def bankBytes (s : State) (b : Fin 2) (o n : Nat) : List Byte := mgets 0xFF#8 (0x200000 * b.1 + o) n s.flash.image

/-- SVN in a bank's header. -/
def bankSvn (s : State) (b : Fin 2) : Nat := leVal (bankBytes s b 6 1)

/-- IMAGE_LEN in a bank's header. -/
def bankLen (s : State) (b : Fin 2) : Nat := leVal (bankBytes s b 8 4)

/-- The header has its form: MAGIC, HDR_VERSION, and SVN and IMAGE_LEN in range (17 R388). -/
def headerOk (s : State) (b : Fin 2) : Bool :=
  bankBytes s b 0 6 == [0x5A#8, 0x44#8, 0x46#8, 0x57#8, 1#8, 0#8] && bankSvn s b ≤ 63 &&
  !outside (bankLen s b) 4096 1572864 && bankLen s b % 4 == 0

/-- A bank holds a valid image: key hash, signature, body hash, and an SVN not below the counter (17 R388; 02 R42). -/
def imageValid (s : State) (b : Fin 2) : Bool :=
  headerOk s b && s.vault.otpSvn ≤ bankSvn s b && sha384 (bankBytes s b 64 97) == Config.otpKeyHash &&
  Config.ecdsaVerify (bankBytes s b 64 97) (bankBytes s b 0 416) (bankBytes s b 416 96) &&
  sha384 (bankBytes s b 512 (bankLen s b)) == bankBytes s b 16 48

/-- The FIRMWARE Trail record (21 table "Trail record types"). -/
def trailFw (event : Nat) (b svn : Nat) (s : State) : State :=
  trail 0x22 (le 1 event ++ le 1 b ++ le 1 svn ++ le 1 s.vault.otpSvn ++ zeros 4) s

/-- `ICP_FW_STATUS`. -/
def execIcpFwStatus (c : CmdRef) (s : State) : Out :=
  icpGet c 0xC00 (fun s => le 4 (fwStat s).toNat ++ le 4 (rstCause s).toNat) s

/-- `ICP_FW_BEGIN`: names and erases the target bank (17 R389). -/
def execIcpFwBegin (c : CmdRef) (bank : BitVec 8) (rsv : Bool) (s : State) : Out :=
  icpDo c 0xC01
    (fun s => [(rsv || decide (1 < bank.toNat), stBadArg), (bank.toNat == s.aon.bank, stOrder)])
    (fun s => { s with
      flash := { s.flash with image := mclear (0x200000 * bank.toNat) (0x200000 * (bank.toNat + 1)) s.flash.image },
      vault := { s.vault with updateOpen := true, target := bank == 1#8, fwOfs := 0 } })
    (fun _ => []) s

/-- `ICP_FW_WRITE`: a chunk at the next offset (17 R389, R394). -/
def execIcpFwWrite (c : CmdRef) (a : FwWriteArgs) (s : State) : Out :=
  let n := a.len.toNat
  let o := a.offset.toNat
  icpDo c 0xC02
    (fun s => [(n != a.data.length, stBadLen), (a.rsv || n == 0 || decide (4096 < n) || n % 4 != 0, stBadArg),
      (decide (512 + 1572864 < o + n), stRange), (!s.vault.updateOpen || o != s.vault.fwOfs, stOrder)])
    (fun s => { s with
      flash := { s.flash with image := mputs 0xFF#8 (0x200000 * bit s.vault.target + o) a.data s.flash.image },
      vault := { s.vault with fwOfs := o + n } })
    (fun _ => []) s

/-- The target bank of the open update. -/
def fwTarget (s : State) : Fin 2 := if s.vault.target then 1 else 0

/-- Writes the boot-preference record: the copy with the lower sequence number takes the next one (17 R389). -/
def writePref (b : Bool) (s : State) : State :=
  let n (i : Fin 2) : Nat := s.vault.pref[i].elim 0 (·.1)
  let i : Fin 2 := if n 1 < n 0 then 1 else 0
  { s with vault := { s.vault with pref := s.vault.pref.set i.1 (some (max (n 0) (n 1) + 1, b)) i.2 } }

/-- A bank has passed FINISH: its BANK_FAIL and BOOT_TRIES are cleared (17 R389). -/
def fwPass (activate : Bool) (s : State) : State :=
  let b := fwTarget s
  let s1 : State := { s with
    aon := { s.aon with bankFail := if s.aon.bankFail / 2 ^ b.1 % 2 = 1 then s.aon.bankFail - 2 ^ b.1 else s.aon.bankFail, bootTries := 0 },
    vault := { s.vault with updateOpen := false } }
  raise 216 (trailFw 1 b.1 (bankSvn s b) (if activate then writePref s.vault.target s1 else s1))

/-- `ICP_FW_FINISH`: verifies the target bank (17 R389, R394). -/
def execIcpFwFinish (c : CmdRef) (activate rsv : Bool) (s : State) : Out :=
  icp c 0xC03 (fun s =>
    if rsv then .done stBadArg [] s
    else if !s.vault.updateOpen then .done stOrder [] s
    else if imageValid s (fwTarget s) then .done stOk (le 1 (bankSvn s (fwTarget s)) ++ zeros 3) (fwPass activate s)
    else
      let s1 : State := { s with vault := { s.vault with updateOpen := false } }
      .done stBadArg [] (raise 217 (faultEvent 46 (trailFw 2 (fwTarget s).1 (bankSvn s (fwTarget s)) s1)))) s

/-- The bank other than the running one. -/
def otherBank (s : State) : Fin 2 := if s.aon.bank = 0 then 1 else 0

/-- The conditions of the anti-rollback commit (17 R390). -/
def mayCommit (force : Bool) (s : State) : Bool :=
  s.aon.bank < 2 && s.vault.confirmed && s.vault.otpSvn < s.vault.svn &&
  (force || !(imageValid s (otherBank s) && bankSvn s (otherBank s) < s.vault.svn))

/-- `ICP_FW_COMMIT`: the counter advances to the running SVN (17 R390, R394). -/
def execIcpFwCommit (c : CmdRef) (force rsv : Bool) (s : State) : Out :=
  icpDo c 0xC04
    (fun s => [(rsv, stBadArg), (s.vault.otpSvn != s.vault.svn && !mayCommit force s, stOrder)])
    (fun s =>
      if s.vault.otpSvn = s.vault.svn then s
      else raise 218 (trailFw 3 s.aon.bank s.vault.svn { s with vault := { s.vault with otpSvn := s.vault.svn } }))
    (fun s => le 1 s.vault.otpSvn ++ zeros 3) s

end Sys2Proof.Machine
end

