-- ==== Sys2Proof/Machine/Edges.lean ====
section
/-!
DEFINITION. Where the edges of the timing outputs are placed, the levels of their balls, and the moments at which OE_TIMING may
change (07 R145-R150, R154).
-/
namespace Sys2Proof.Machine
open Sys2Proof

/-! ## Placement (07 R145, R146) -/

/-- The steering period's length in ticks (01 R12). -/
def periodTicks : Nat := 65536

/-- The Odometer tick of the present steering period at which the counter reaches a value (07 R145). -/
def tickOf (s : State) (t : Nat) : Nat := s.time.bOdo + cdiv (t - s.time.cnt) (rate s).toNat

/-- The fine position, in 1/256 tick, at which an edge of counter value `t` is launched `comp` ps early (07 R145, R146). -/
def launchAt (s : State) (t : Nat) (comp : Int) : Int :=
  (s.time.bOdo : Int) * 256 + rdiv (((t : Int) - s.time.cnt) * 1280 - comp * rate s) (5 * (rate s).toNat)

/-- The next second boundary of the counter, 2^-48 ns; the present value where a step has put the counter exactly on one. -/
def nextSecond (s : State) : Nat := if s.time.landed then s.time.cnt else (cntNow s / secU + 1) * secU

/-- The counter value at an Odometer position in 1/256 tick. -/
def cntAtPos (s : State) (pos : Int) : Nat := cntPlus s.time.cnt ((pos - 256 * s.time.bOdo) * rate s / 256)

/-- The end of the present steering period, 1/256 tick. -/
def periodEnd (s : State) : Int := 256 * ((s.time.bOdo : Int) + periodTicks)

/-- COMP_n of a PPS output, ps (07 R146). -/
def PpsOut.comp (p : PpsOut) : Int := p.outDelay + p.cable

/-- COMP_n of a frequency output, ps. -/
def FreqOut.comp (p : FreqOut) : Int := p.outDelay + p.cable

/-- WIDTH of a PPS output in 1/256 tick: 100 ns are 20,000 fine steps. -/
def PpsOut.fine (p : PpsOut) : Int := 20000 * p.width

/-- One microsecond in 1/256 tick (07 R148). -/
def usFine : Int := 200000

/-- A pulse is in progress at an Odometer position. -/
def pulseAt (start stop : Option Int) (pos : Int) : Bool :=
  start.elim false fun a => stop.elim false fun b => decide (a ≤ pos) && decide (pos < b)

/-- PPSOUT is asserted at a position. -/
def PpsOut.asserted (p : PpsOut) (pos : Int) : Bool := pulseAt (some p.launch) p.pulseEnd pos

/-- Level of the PPSOUT ball at a position: with INV set the asserted level is low (07 R147). -/
def PpsOut.level (p : PpsOut) (pos : Int) : Bool := p.asserted pos != p.inv

/-- Level of an EVT pin at a position: POL set asserts low; none while the pin is not driven (07 R155). -/
def EvtCh.level (e : EvtCh) (pos : Int) : Option Bool :=
  if e.dir = 1 then some (pulseAt e.lastStart e.pulseEnd pos != e.pol) else none

/-! ## What runs (07 R147, R149, R151) -/

/-- Neither BOOT nor RECOVERY. -/
def outMode (s : State) : Bool := s.sys.mode != .boot && s.sys.mode != .recovery

/-- The modes in which ACQ_QUIET holds an output. -/
def quietMode (s : State) : Bool := s.sys.mode == .acquire || s.sys.mode == .provision || s.sys.mode == .quiesce

/-- PPSOUTk runs (07 R147). -/
def ppsRuns (s : State) (p : PpsOut) : Bool :=
  timeUp s && p.en && s.time.valid && outMode s && !(p.acqQuiet && quietMode s)

/-- FREQOUTj is to run (07 R149). -/
def freqWanted (s : State) (f : FreqOut) : Bool := timeUp s && f.en && outMode s && !(f.acqQuiet && quietMode s)

/-- A TODOUT line sends (07 R151). -/
def todRuns (s : State) (t : TodOut) : Bool := timeUp s && t.en && s.time.valid && outMode s

/-- Half a period of F, counter units. -/
def halfPeriod (f : Nat) : Nat := cdiv secU (2 * f)

/-- The first rising edge of F's grid at or after a counter value (07 R149). -/
def freqGrid (f x : Nat) : Nat := x / secU * secU + cdiv (cdiv (x % secU * f) secU * secU) f

/-- The first falling edge of F's grid at or after a counter value: half a period after a rising one. -/
def freqFall (f x : Nat) : Nat :=
  let i := cdiv (x % secU * (2 * f)) secU
  x / secU * secU + cdiv ((if i % 2 = 1 then i else i + 1) * secU) (2 * f)

/-- Level of FREQOUT where the counter, COMP ahead, stands at a value: the last level before a restart runs to its end, then the
output holds low (07 R149, R150). -/
def FreqOut.level (f : FreqOut) (c : Nat) : Bool :=
  f.run && (if c < f.rephase then f.tailHigh && decide ((c : Int) < f.lowStart) else c % secU * (2 * f.hz) / secU % 2 == 0)

/-- FREQOUT has a falling edge, launched COMP early, within a tick of the present steering period (07 R145, R146, R154). -/
def FreqOut.fallsIn (s : State) (f : FreqOut) (tick : Nat) : Bool :=
  let e := freqFall f.hz (cntPlus (cntAt s tick) (f.comp * rate s / 1280 - rate s / 512))
  let pos := launchAt s e f.comp
  f.run && decide (f.rephase ≤ e) && decide (256 * (tick : Int) ≤ pos) && decide (pos < 256 * ((tick : Int) + 1))

/-- FREQOUT toggles at a tick: it runs and does not hold low (07 R154). -/
def FreqOut.toggles (s : State) (f : FreqOut) (tick : Nat) : Bool := f.run && decide (f.rephase ≤ cntAt s tick)

/-! ## OE_TIMING (07 R154) -/

/-- Some enabled PPSOUT is asserted at a tick. -/
def ppsAsserted (s : State) (tick : Nat) : Bool := s.mile.pps.toList.any fun p => p.en && p.asserted (256 * tick)

/-- A tick at which OE_TIMING may change outside the fatal path: every enabled PPSOUT is deasserted, and FREQOUT0 falls in it or
does not toggle (07 R154). -/
def oeMoment (s : State) (tick : Nat) : Bool :=
  !ppsAsserted s tick && (!s.mile.freq[0].toggles s tick || s.mile.freq[0].fallsIn s tick)

/-- The tick of FREQOUT's last falling edge at or before a tick. -/
def FreqOut.fallBefore (s : State) (f : FreqOut) (tick : Nat) : Int :=
  let c := cntPlus (cntAt s tick) (f.comp * rate s / 1280)
  launchAt s (freqFall f.hz (cntPlus c (1 - secU / f.hz))) f.comp / 256

/-- OE_TIMING may change at a later tick, up to `n` ticks on: the last falling edge of FREQOUT0 before the end, or before a pulse
that stands over it; each tick where FREQOUT0 does not toggle. -/
def oeLater (s : State) (tick n : Nat) : Bool :=
  let ends : List Int := ((tick + n : Nat) : Int) :: s.mile.pps.toList.map fun p => p.launch / 256 - 1
  ends.any fun e =>
    let t := if s.mile.freq[0].toggles s tick then s.mile.freq[0].fallBefore s e.toNat else e
    decide ((tick : Int) < t) && decide (t ≤ tick + n) && !ppsAsserted s t.toNat

end Sys2Proof.Machine
end

