-- ==== Sys2Proof/Machine/Foot.lean ====
section
/-!
DEFINITION. Footbridge: the link and its heartbeats, the lease state machine, planned handovers, address announcements,
the FOOT registers and their commands (15).
-/
namespace Sys2Proof.Machine
open Sys2Proof

/-! ## Link, frames, guard -/

/-- The link runs (15 R329). -/
def footRuns (s : State) : Bool := s.foot.en && s.sys.mode != .boot && timeUp s

/-- GUARD in us for a base, a tolerance and a LEASE in ms (15 R332). -/
def guardOf (base ppm ms : Nat) : Nat := base + cdiv (2 * ppm * ms * 1000) 1000000

/-- GUARD in force. -/
def guardUs (s : State) : Nat := guardOf s.foot.guardBase s.foot.xtalPpm s.foot.leaseMs

/-- The larger of the unit's own and the peer's LEASE, AON cycles (15 R334). -/
def bigLease (s : State) : Nat := 25000 * max s.foot.leaseMs (s.foot.peer.elim 0 (·.leaseMs))

/-- The larger of the unit's own and the peer's GUARD, AON cycles (15 R334). -/
def bigGuard (s : State) : Nat := 25 * max (guardUs s) (s.foot.peer.elim 0 (·.guardUs))

/-- This unit holds the lease. -/
def holds (s : State) : Bool := s.foot.lstate == .hold || s.foot.lstate == .handover

/-- REF_PEER is SELECTED. -/
def peerSelected (s : State) : Bool := s.sign.slots[11].state == .selected

/-- A frame with the current values of every field (15 R331). -/
def mkFrame (kind : Nat) (s : State) : FbFrame :=
  { kind := kind, unitB := s.aon.unitB, lease := holds s, ready := s.foot.ready, tracking := peerSelected s,
    mode := s.sys.mode, hbSeq := s.foot.hbSeq, ackSeq := s.foot.peer.elim 0#32 (·.hbSeq), epoch := s.foot.epoch,
    leaseMs := s.foot.leaseMs, txOfs := s.foot.txOfs, guardUs := guardUs s, errb := s.time.errb, mLast := s.foot.mLast,
    markSec := s.foot.mark / 1000 % 2 ^ 48, markMs := s.foot.mark % 1000,
    hSec := if s.foot.hPending || s.foot.lstate == .handover || s.foot.hAccepted then s.foot.h.getD 0 / 1000000000 else 0,
    hNs := if s.foot.hPending || s.foot.lstate == .handover || s.foot.hAccepted then s.foot.h.getD 0 % 1000000000 else 0 }

/-- The 56 bytes of a frame; a spoiled CRC is its complement (15 R331, 22 R464). -/
def fbBytes (f : FbFrame) (spoil : Bool) : List Byte :=
  let body := le 1 f.kind ++ le 1 (bit f.unitB + 2 * bit f.lease + 4 * bit f.ready + 8 * bit f.tracking) ++ le 1 (modeCode f.mode) ++ le 1 1 ++
    le 4 f.hbSeq.toNat ++ le 4 f.ackSeq.toNat ++ le 4 f.epoch.toNat ++ le 2 f.leaseMs ++ le 2 f.txOfs ++ le 4 f.guardUs ++ le 4 f.errb ++
    leI 4 f.mLast ++ le 6 f.markSec ++ le 2 f.markMs ++ le 6 f.hSec ++ zeros 2 ++ le 4 f.hNs
  let crc := crc32c body
  body ++ le 4 (if spoil then ~~~ crc else crc).toNat

/-- Sends a frame with the current values of every field. -/
def sendFrame (kind : Nat) (spoil : Bool) (s : State) : State :=
  { s with foot := { s.foot with lastTx := fbBytes (mkFrame kind s) spoil } }

/-- FOOT_HIST bits. -/
def footHist (v : Word) (s : State) : State := sticky 0xC0080 v s

/-! ## Takes -/

/-- Conditions 1 to 4 of a take (15 R335). -/
def mayTake (planned : Bool) (s : State) : Bool :=
  contending s.sys.mode && !holds s && s.foot.lstate != .off && s.foot.lstate != .conflict && !s.foot.peerOwn &&
  (planned || s.foot.lastLease.elim true fun l => decide (l + 31250 ≤ s.foot.ck))

/-- LEASE_EPOCH after a take (15 R335). -/
def nextEpoch (s : State) : BitVec 32 :=
  let p := s.foot.peer.elim 0#32 (·.epoch)
  (if s.foot.epoch ≤ p then p else s.foot.epoch) + 1#32

/-- The take itself: FB_OWN rises at once, the epoch advances, OE_TIMING waits for an unbroken low of FB_PEEROWN (15 R335,
R333, R349). -/
def leaseTake (planned : Bool) (s : State) : State :=
  let s1 : State := { s with foot := { s.foot with
    lstate := .hold, fbOwn := true, epoch := nextEpoch s, ackArmed := false, since := 0, takenAt := s.foot.ck, oeBlocked := true,
    oeNeedUs := if planned then 0 else 1, relinq := none, former := false, hAccepted := false, fenced := false,
    takeBlocked := false } }
  lanternFast (raise 192 (cairnEvent (footHist 1#32
    (trail 0x21 ([BitVec.ofNat 8 3, BitVec.ofNat 8 s.foot.relCause] ++ zeros 2 ++ le 4 (nextEpoch s).toNat) (permitClose s1)))))

/-- A take that is due: it happens when R335 holds; one that only condition 5 blocks waits for the line (15 R335). -/
def takeDue (planned : Bool) (s : State) : State :=
  if !mayTake planned s then s
  else if severeLine s then { s with foot := { s.foot with takeBlocked := true } }
  else leaseTake planned s

/-! ## Handover -/

/-- Longest asserted interval of the enabled PPSOUTs, ns (07 R147). -/
def ppsWidest (s : State) : Option Nat :=
  s.mile.pps.toList.foldl (fun m p => if p.en then some (max (m.getD 0) (p.width * 100)) else m) none

/-- First falling edge of FREQOUT0 at or after a counter time in ns, or the first whole 100 ns without it (15 R343). -/
def edgeAfter (s : State) (t : Nat) : Nat :=
  let f := s.mile.freq[0]
  if f.en && f.hz ≠ 0 then
    let d := t * nsU - f.rephase
    let n := cdiv (2 * f.hz * d - secU) (2 * secU)
    cdiv (f.rephase + (2 * n + 1) * secU / (2 * f.hz)) nsU
  else cdiv t 100 * 100

/-- The handover instant: at least `lead` ms ahead and 1 ms away from every asserted PPSOUT (15 R343 step 2). -/
def chooseH (lead : Nat) (s : State) : Nat :=
  let t := edgeAfter s (cdiv (cntNow s) nsU + lead * 1000000)
  match ppsWidest s with
  | none => t
  | some w =>
    let sec := t / 1000000000
    let n := t % 1000000000
    if n < w + 1000000 then edgeAfter s (sec * 1000000000 + w + 1000000)
    else if 999000000 < n then edgeAfter s ((sec + 1) * 1000000000 + w + 1000000)
    else t

/-- The holder chooses H and sends OFFER (15 R343 steps 2 and 3). -/
def startHandover (lead : Nat) (cmd : Option CmdRef) (s : State) : State :=
  sendFrame 2 false { s with foot := { s.foot with h := some (chooseH lead s), hPending := true, hCmd := cmd, offerAt := s.foot.ck } }

/-- The peer is READY (15 R343 step 1). -/
def peerReady (s : State) : Bool := s.foot.link && s.foot.peer.elim false (·.ready)

/-- A handover has completed (15 R349). -/
def handoverDone (s : State) : State :=
  handoverEnd true (raise 199 (footHist 16#32 { s with foot := { s.foot with former := false } }))

/-- HANDOVER_FAIL and FB_HANDOVER (15 R344). -/
def handoverFlag (s : State) : State := faultEvent 43 (raise 200 (footHist 32#32 s))

/-- A handover fails while this unit still holds the lease: it stays in HOLD (15 R344); with FORCE, `ICP_QUIESCE` then
relinquishes (02 R46). -/
def handoverFail (s : State) : State :=
  let s1 := handoverFlag { s with foot := { s.foot with
    lstate := if s.foot.lstate == .handover then .hold else s.foot.lstate, hPending := false, fenced := false } }
  match s1.sys.quiesce with
  | some q => if q.step == 1 && q.force && holds s1 then relinquish 4 .follow s1 else handoverEnd false s1
  | none => handoverEnd false s1

/-- The counter stands before H less 1 ms (15 R344). -/
def beforeH (s : State) : Bool := decide (cntNow s + 1000000 * nsU < s.foot.h.getD 0 * nsU)

/-- The lease conflict's fault line, interrupt and history (15 R336, R349; 21 table "Fault sources"). -/
def conflictFlag (s : State) : State := raise 201 (faultCond 41 true (footHist 64#32 s))

/-- LEASE_CONFLICT (41) falls once LSTATE is not CONFLICT and no conflict of a holder is unresolved. -/
def conflictCheck (s : State) : State :=
  if s.foot.lstate == .conflict || (holds s && s.foot.oeBlocked) then s else faultCond 41 false s

/-- A holder has a conflict: B relinquishes, A keeps the lease with OE_TIMING held low (15 R336). -/
def holderConflict (s : State) : State :=
  let s1 := conflictFlag s
  if s.aon.unitB then relinquish 5 .follow s1
  else { s1 with foot := { s1.foot with oeBlocked := true, oeNeedUs := 1 } }

/-! ## Heartbeats -/

/-- One millisecond of the counter. -/
def msU : Nat := 1000000 * nsU

/-- A heartbeat with its marker leaves TX_OFS after the whole millisecond (15 R330). -/
def sendHeartbeat (spoil : Bool) (s : State) : State :=
  let n := s.foot.hbSeq + 1#32
  let ofs := Config.symbolPhase s.foot.hbSeq.toNat % 8000
  let mark := cntNow s / msU
  sendFrame 1 spoil { s with foot := { s.foot with
    hbSeq := n, txOfs := ofs, mark := mark
    hbSent := List.drop (s.foot.hbSent.length - 2047) (s.foot.hbSent ++ [{ seq := n, at_ := s.foot.ck, mark := mark, ofs := ofs }]) } }

/-- HEARTBEAT_SEND: at a whole millisecond of the counter; an armed HEARTBEAT perturbation keeps it back or spoils its CRC
(15 R330, R331; 22 R464). -/
def execHeartbeatSend (off : BitVec 16) (ck : Nat) (s : State) : Out :=
  if !footRuns s || !landsEvery (atTick off s) msU 0 then .next s
  else
    let s0 := atCk ck (atTick off s)
    let k := s.pert.k[3]
    if k.armed then
      let dec (k : PertKind) : PertKind := { k with remain := k.remain - 1, armed := decide (1 < k.remain) }
      let s1 : State := { s0 with pert := { s0.pert with k := upd s0.pert.k 3 dec } }
      let s2 := if k.remain ≤ 1 then raise 6 s1 else s1
      .next (if k.cfg0.getLsbD 16 then sendHeartbeat true s2 else s2)
    else .next (sendHeartbeat false s0)

/-- What a heartbeat says of the link: alignment, consecutive valid ones, the peer's fields and their changes (15 R330, R349). -/
def hbLink (f : FbFrame) (s : State) : State :=
  let old := s.foot.peer.getD {}
  let run := s.foot.goodRun + 1
  let up := !s.foot.link && decide (3 ≤ run)
  let s1 : State := { s with foot := { s.foot with
    aligned := true, goodRun := run, missNow := 0, lastValid := some s.foot.ck, link := s.foot.link || up, peer := some f,
    refPeerSel := peerSelected s } }
  let s2 := if up then faultCond 40 false (raise 194 s1) else s1
  let s3 := if f.mode != old.mode then raise 197 s2 else s2
  if f.ready != old.ready then raise 198 s3 else s3

/-- Acknowledgement: the transmit instant of the latest acknowledged heartbeat, and ACK_ARMED (15 R333). -/
def hbAck (f : FbFrame) (s : State) : State :=
  let e := s.foot.hbSent.find? fun e => e.seq == f.ackSeq
  { s with foot := { s.foot with
      ackedAt := e.elim s.foot.ackedAt fun e => some e.at_,
      hbSent := e.elim s.foot.hbSent fun e => s.foot.hbSent.filter fun x => decide (e.at_ ≤ x.at_),
      ackArmed := if holds s then contending f.mode else s.foot.ackArmed } }

/-- The millisecond of a frame's marker. -/
def fbMark (f : FbFrame) : Nat := 1000 * f.markSec + f.markMs

/-- A channel 5 result in ps corrected to the nominal milliseconds of the markers that started and stopped it, each given by
its millisecond and TX_OFS, and by the whole milliseconds their labels differ (15 R341). -/
def markCorrect (r : Int) (start stop : Nat × Nat) : Int :=
  r + start.2 - stop.2 - ((stop.1 : Int) - start.1) * 1000000000

/-- The x of the last second, newest first. -/
def lastXs (s : State) (l : List (Nat × Int)) : List (Nat × Int) := l.filter fun e => decide (s.time.odo < e.1 + tickSec)

/-- Mean of the x of the last second (15 R341). -/
def meanX (l : List (Nat × Int)) : Int := (l.map (·.2)).sum / (l.length : Int)

/-- Two-way time transfer for the previous marker pair: the peer's result started at the marker of its previous heartbeat and
stopped at the heartbeat it acknowledges; the unit's own was corrected when that previous heartbeat came. The phase error
and the link delay follow (15 R341). -/
def hbPhase (f : FbFrame) (s : State) : State :=
  let own := s.foot.m5.map fun m => markCorrect s.foot.mLast (m.mark, m.ofs) (fbMark f, f.txOfs)
  let s1 : State := { s with foot := { s.foot with m5 := none, cOwn := own } }
  match s.foot.peer, s.foot.hbSent.find? (fun e => e.seq == f.ackSeq), s.foot.cOwn with
  | some g, some e, some c =>
    if f.hbSeq != g.hbSeq + 1#32 then s1
    else
      let peer := markCorrect f.mLast (fbMark g, g.txOfs) (e.mark, e.ofs)
      let x := (peer - c) / 2 - s.foot.asym
      let xs := (s.time.odo, x) :: lastXs s s.foot.xs
      pushMeas 11 x (cntNow s) s.time.odo { s1 with foot := { s1.foot with xs := xs, phase := meanX xs, delay := (peer + c) / 2 } }
  | _, _, _ => s1

/-- The peer carries the same strap, or leaves CONFLICT after ten heartbeats of the other value (15 R336, R338). -/
def hbStrap (f : FbFrame) (s : State) : State :=
  if s.foot.lstate == .off then s
  else if f.unitB == s.aon.unitB then
    (if s.foot.lstate == .conflict then { s with foot := { s.foot with otherRun := 0 } }
     else
       let s1 := conflictFlag s
       let s2 := if holds s1 then relinquish 5 .conflict s1 else s1
       { s2 with foot := { s2.foot with lstate := .conflict, otherRun := 0, takeBlocked := false } })
  else if s.foot.lstate == .conflict then
    (if s.foot.otherRun + 1 < 10 then { s with foot := { s.foot with otherRun := s.foot.otherRun + 1 } }
     else if f.lease || s.foot.peerOwn then { s with foot := { s.foot with lstate := .follow, otherRun := 0 } }
     else { s with foot := { s.foot with lstate := .cold, coldAt := s.foot.ck, otherRun := 0 } })
  else s

/-- LEASE set or clear in a heartbeat (15 R334, R336, R338). -/
def hbLease (f : FbFrame) (was : Bool) (s : State) : State :=
  if f.lease then
    let s1 : State := { s with foot := { s.foot with
      lastLease := some s.foot.ck, relinq := none, takeBlocked := false, clearRun := if s.foot.link then 4 else 0 } }
    if holds s1 && s1.foot.epoch ≤ f.epoch then holderConflict s1
    else if s1.foot.lstate == .cold || s1.foot.lstate == .retake then { s1 with foot := { s1.foot with lstate := .follow } }
    else if s1.foot.former then handoverDone s1
    else s1
  else
    let n := if s.foot.clearRun < 3 then s.foot.clearRun + 1 else s.foot.clearRun
    let s1 : State := { s with foot := { s.foot with clearRun := n, relinq := if was then some s.foot.ck else s.foot.relinq } }
    if s1.foot.link && !s1.foot.peerOwn && n = 3 && s.foot.clearRun ≠ 3 && (s1.foot.lstate == .follow || s1.foot.lstate == .retake) then
      { s1 with foot := { s1.foot with lstate := .cold, coldAt := s1.foot.ck } }
    else s1

/-- The peer cleared READY before H less 1 ms: the holder sends ABORT (15 R344). -/
def hbReady (f : FbFrame) (s : State) : State :=
  if !f.ready && (s.foot.hPending || s.foot.lstate == .handover) && beforeH s then
    handoverFail (sendFrame 4 false s)
  else s

/-- HEARTBEAT_RECEIVE: a valid heartbeat (15 R330, R333, R334, R336, R338, R339, R341, R344). -/
def execHeartbeatReceive (f : FbFrame) (off : BitVec 16) (ck : Nat) (s : State) : Out :=
  if !footRuns s || f.kind != 1 then .next s
  else
    let was := s.foot.peer.elim false (·.lease)
    .next (conflictCheck (hbReady f (hbLease f was (hbStrap f (hbAck f (hbLink f (hbPhase f (atCk ck (atTick off s)))))))))

/-- The link goes down (15 R330, R349). -/
def footLinkDown (s : State) : State :=
  faultCond 40 true (raise 195 (footHist 4#32
    { s with foot := { s.foot with link := false, aligned := false, goodRun := 0, clearRun := 0 } }))

/-- HEARTBEAT_MISS: 1.25 ms after the previous valid heartbeat, and each 1 ms after that; the tenth in a row takes the link down
(15 R330, R349). -/
def execHeartbeatMiss (ck : Nat) (s : State) : Out :=
  if !footRuns s || s.foot.lastValid.elim true (fun v => decide (ck < v + 31250 + 25000 * s.foot.missNow)) then .next s
  else
    let s0 := atCk ck s
    let first := s.foot.lastMiss.elim true fun m => decide (m + 25000000 ≤ s0.foot.ck)
    let s1 := footHist 8#32 { s0 with foot := { s0.foot with
      missNow := satU 16 (s.foot.missNow + 1), missed := satU 16 (s.foot.missed + 1), goodRun := 0, lastMiss := some s0.foot.ck } }
    let s2 := if first then raise 196 s1 else s1
    .next (if s.foot.link && 9 ≤ s.foot.missNow then footLinkDown s2 else s2)

/-- FB_LINK_DOWN: alignment has been lost for 10 us (15 R330). -/
def execFbLinkDown (ck : Nat) (s : State) : Out :=
  .next (if s.foot.en && s.foot.link then footLinkDown (atCk ck s) else s)

/-! ## Handover frames and instants -/

/-- The handover instant on the unit's counter. -/
def hAt (s : State) : Nat := s.foot.h.getD 0 * nsU

/-- FB_OFFER: a READY peer answers ACCEPT (15 R343 step 3). -/
def execFbOffer (f : FbFrame) (ck : Nat) (s : State) : Out :=
  .next (if footRuns s && f.kind == 2 && s.foot.ready && s.foot.lstate == .follow then
    let s1 := atCk ck s
    sendFrame 3 false { s1 with foot := { s1.foot with h := some (f.hSec * 1000000000 + f.hNs), hAccepted := true } }
  else s)

/-- FB_ACCEPT: within 2 ms of its OFFER the holder enters HANDOVER (15 R343 step 3). -/
def execFbAccept (f : FbFrame) (ck : Nat) (s : State) : Out :=
  .next (if footRuns s && f.kind == 3 && s.foot.hPending && s.foot.lstate == .hold && ck ≤ s.foot.offerAt + 50000 then
    let s1 := atCk ck s
    { s1 with foot := { s1.foot with lstate := .handover, hPending := false } } else s)

/-- FB_ABORT: before H less 1 ms the handover is cancelled on either side (15 R344). -/
def execFbAbort (off : BitVec 16) (s : State) : Out :=
  let s0 := atTick off s
  .next (if !footRuns s || !beforeH s0 then s
    else if s.foot.hPending || s.foot.lstate == .handover then handoverFail s0
    else if s.foot.hAccepted then handoverFlag { s0 with foot := { s0.foot with hAccepted := false } }
    else s)

/-- ACCEPT_TIMEOUT: no ACCEPT within 2 ms of the OFFER (15 R344). -/
def execAcceptTimeout (ck : Nat) (s : State) : Out :=
  .next (if s.foot.hPending && s.foot.offerAt + 50000 ≤ ck then handoverFail (atCk ck s) else s)

/-- HANDOVER_INSTANT: at H the holder drops FB_OWN and OE_TIMING together and enters FOLLOW (15 R343 step 5). -/
def execHandoverInstant (off : BitVec 16) (ck : Nat) (s : State) : Out :=
  let s0 := atCk ck (atTick off s)
  .next (if s.foot.lstate == .handover && landsAt s0 (hAt s) 0 then
    let s1 := setOe false (relinquish 1 .follow s0)
    { s1 with foot := { s1.foot with former := true, lastLease := none } } else s)

/-- PLANNED_TAKE: at H + 64 ticks the peer takes the lease (15 R343 step 6). -/
def execPlannedTake (off : BitVec 16) (ck : Nat) (s : State) : Out :=
  let s0 := atCk ck (atTick off s)
  .next (if s.foot.en && s.foot.hAccepted && landsAt s0 (hAt s) 64 then
    let s1 := takeDue true { s0 with foot := { s0.foot with hAccepted := false } }
    if holds s1 then handoverDone s1 else s1 else s)

/-- HANDOVER_RETAKE: at H + 2 ms with no sign of the peer's ownership, the former holder takes the lease back; the handover
has failed (15 R344). -/
def execHandoverRetake (off : BitVec 16) (ck : Nat) (s : State) : Out :=
  let s0 := atCk ck (atTick off s)
  .next (if s.foot.former && s.foot.lstate == .follow && !s.foot.peerOwn && s.foot.lastLease.isNone && hAt s + 2 * msU ≤ cntNow s0 then
    let s1 := takeDue false { s0 with foot := { s0.foot with former := false } }
    handoverEnd false (handoverFlag s1) else s)

/-! ## Relinquish and takes by time -/

/-- E_h less GUARD: the AON time by which an armed holder relinquishes; none before an acknowledgement (15 R333). -/
def armedEnd (s : State) : Option Nat := s.foot.ackedAt.map fun a => a + 25000 * s.foot.leaseMs - 25 * guardUs s

/-- LEASE_RELINQUISH: an armed holder relinquishes into RETAKE at the latest moment up to E_h less GUARD at which OE_TIMING may
change; without such a moment the lease goes at the end and OE_TIMING follows (15 R333, R338, R349; 07 R154). -/
def execLeaseRelinquish (off : BitVec 16) (ck : Nat) (s : State) : Out :=
  let s0 := atCk ck (atTick off s)
  let tick := s0.time.odo
  .next (match (if s.foot.lstate == .hold && s.foot.ackArmed then armedEnd s else none) with
  | none => s
  | some e =>
    let now := s0.foot.ck
    let last := oeMoment s0 tick && !oeLater s0 tick ((e - now) * 125 / 4)
    if now < e && !last then s
    else
      let s1 := relinquish 2 .retake s0
      conflictCheck (raise 202 (footHist 128#32 (if oeMoment s0 tick then setOe false s1 else s1))))

/-- LEASE + GUARD have passed since the last heartbeat with LEASE set. A unit that gave the lease up and has heard none since
counts from its own relinquish; after a planned handover H + 2 ms comes first (15 R334, R344). -/
def leaseExpired (now : Nat) (s : State) : Bool :=
  s.foot.lastLease.elim
    (!s.foot.former && (s.foot.relCause == 0 || decide (s.foot.retakeAt + bigLease s + bigGuard s ≤ now)))
    fun l => decide (l + bigLease s + bigGuard s ≤ now)

/-- EXPIRY_TAKE (15 R334). -/
def execExpiryTake (ck : Nat) (s : State) : Out :=
  let s0 := atCk ck s
  .next (if s.foot.lstate == .follow && leaseExpired s0.foot.ck s &&
      decide (s.foot.peerOwnLowSince + bigGuard s ≤ s0.foot.ck) then takeDue false s0 else s0)

/-- RELINQUISH_TAKE (15 R334). -/
def execRelinquishTake (ck : Nat) (s : State) : Out :=
  let s0 := atCk ck s
  .next (if s.foot.lstate == .follow && (s.foot.relinq.elim false fun r => decide (r + bigGuard s ≤ s0.foot.ck)) then
    takeDue false s0 else s0)

/-- COLD_START_TAKE: the cold-start timer reaches 2 x LEASE (A) or 3 x LEASE (B) (15 R338). -/
def execColdStartTake (ck : Nat) (s : State) : Out :=
  let s0 := atCk ck s
  .next (if s.foot.lstate == .cold &&
      decide (s.foot.coldAt + (if s.aon.unitB then 3 else 2) * s.foot.leaseMs * 25000 ≤ s0.foot.ck) then takeDue false s0 else s0)

/-- RETAKE_TAKE: FB_PEEROWN low without a break for 2 x GUARD + 2 ms after the relinquish (15 R338). -/
def execRetakeTake (ck : Nat) (s : State) : Out :=
  let s0 := atCk ck s
  .next (if s.foot.lstate == .retake && !s.foot.peerOwn &&
      decide (max s.foot.retakeAt s.foot.peerOwnLowSince + 50 * guardUs s + 50000 ≤ s0.foot.ck) then takeDue false s0 else s0)

/-- DEFERRED_TAKE: the line that alone blocked a take has cleared (15 R335). -/
def execDeferredTake (ck : Nat) (s : State) : Out :=
  let s0 := atCk ck s
  .next (if s.foot.takeBlocked then takeDue false s0 else s0)

/-- PEEROWN_CHANGE: FB_PEEROWN changes level (15 R335, R336, R338). -/
def execPeerownChange (high : Bool) (ck : Nat) (s : State) : Out :=
  let s0 := atCk ck s
  let s1 : State := { s0 with foot := { s0.foot with
    peerOwn := high, peerOwnLowSince := if high then s.foot.peerOwnLowSince else s0.foot.ck, takeBlocked := s.foot.takeBlocked && !high } }
  .next (conflictCheck (if !s.foot.en || !high || s.foot.peerOwn then s1
    else if holds s1 then holderConflict s1
    else if s1.foot.lstate == .cold || s1.foot.lstate == .retake then { s1 with foot := { s1.foot with lstate := .follow } }
    else if s1.foot.former then handoverDone s1
    else s1))

/-! ## Address takeover (15 R347) -/

/-- One announcement of a listening address on the ports of its mask. -/
def announceOn (a : ServAddr) (s : State) : State :=
  (List.finRange 4).foldl (fun s p => if a.ports.getLsbD p.1 then ctlSend p (.announce a.addr a.vlan) s else s) s

/-- ADDRESS_ANNOUNCE_ROUND: the first round at the mode evaluation, each further one ANNOUNCE_GAP later (15 R347). -/
def execAddressAnnounceRound (s0 : State) : Out :=
  let t := 4 * s0.foot.roundAt
  if s0.foot.roundsLeft = 0 || !inPeriod t s0 then .next s0
  else
    let s := atQ t s0
    let s1 := (List.finRange 8).foldl (fun s i =>
      (s.serv.slots[i].addrs.toList.filterMap id).foldl (fun s a => announceOn a s) s) s
    let s2 : State := { s1 with foot := { s1.foot with
      roundsLeft := s.foot.roundsLeft - 1, roundAt := s.foot.roundAt + s.foot.annGap * 781250 } }
    .next (if s.foot.roundsLeft = 1 then raise 203 s2 else s2)

/-! ## Registers and commands (15 R350-R352) -/

/-- FOOT registers without their sticky fields. -/
def roFoot (s : State) (_rd o : Nat) : Word :=
  let f := s.foot
  let p := f.peer.getD {}
  match o with
  | 0x00 => lkWord s 0xC
  | 0x04 => pack [(0, leaseCode f.lstate), (3, bit f.fbOwn), (4, bit s.mile.oe), (5, bit f.peerOwn), (6, bit f.link),
      (7, bit s.aon.unitB), (8, bit f.ready), (9, bit f.ackArmed), (12, f.relCause), (16, f.since)]
  | 0x08 => pack [(0, bit f.en), (1, bit f.autoHo), (4, f.annCount), (8, f.leaseMs), (18, f.xtalPpm)]
  | 0x0C => w32 f.guardBase
  | 0x10 => w32 (guardUs s)
  | 0x14 => w32 f.annGap
  | 0x18 => w32 f.readyPs
  | 0x1C => w32 (twos 32 f.asym)
  | 0x20 => w32 (twos 32 (satI 32 f.phase))
  | 0x24 => w32 (twos 32 f.delay)
  | 0x28 => pack [(0, modeCode p.mode), (3, bit p.lease), (4, bit p.ready), (5, bit p.unitB), (6, bit p.tracking)]
  | 0x2C => w32 p.errb
  | 0x30 => f.epoch
  | 0x34 => pack [(0, f.missed), (16, f.missNow)]
  | 0x38 => w32 (f.h.getD 0 / 1000000000)
  | 0x3C => w32 (f.h.getD 0 / 1000000000 / 2 ^ 32 % 2 ^ 16)
  | 0x40 => w32 (f.h.getD 0 % 1000000000)
  | _ => 0#32

/-- The lease state that a new EN gives in the present mode (15 R338, R340): enabling ends the lease that counted as held,
and with it the launch frames queued (02 R24, 12 R259). -/
def footEnable (en : Bool) (s : State) : State :=
  if en = s.foot.en then s
  else if en then
    let s0 := dropLeases s
    let s1 := faultCond 40 (!s.foot.link) { s0 with foot := { s0.foot with en := true, fbOwn := false } }
    { s1 with foot := { s1.foot with lstate := if contending s1.sys.mode then contendState s1 else .off, coldAt := s1.foot.ck, clearRun := 0 } }
  else
    let s1 := faultCond 41 false (faultCond 40 false (relinquish 7 .off s))
    ownLevel { s1 with foot := { s1.foot with en := false, link := false, aligned := false, goodRun := 0, hAccepted := false } }

/-- `ICP_FB_CONFIG` (15 R352). -/
def execIcpFbConfig (c : CmdRef) (a : FbConfigArgs) (s : State) : Out :=
  let lease := a.leaseMs.toNat
  let ppm := a.xtalPpm.toNat
  let base := a.guardBase.toNat
  let ann := a.annCount.toNat
  let gap := a.annGap.toNat
  let rdy := a.readyPs.toNat
  icpDo c 0x900
    (fun s => [
      (a.rsv || decide (1 < a.enable.toNat) || lease == 0 || ppm == 0 || base == 0 || ann == 0 || gap == 0 || rdy == 0, stBadArg),
      (outside lease 8 1000 || outside ppm 10 500 || outside base 2000 100000 || decide (lease * 1000 < guardOf base ppm lease + 3000) ||
        decide (10 < ann) || outside gap 10 2000 || outside rdy 100 100000, stRange),
      (s.sys.mode == .standby && (a.enable == 1#8) != s.foot.en, stOrder)])
    (fun s => footEnable (a.enable == 1#8) { s with foot := { s.foot with
      autoHo := a.autoHo, annCount := ann, leaseMs := lease, xtalPpm := ppm, guardBase := base, annGap := gap, readyPs := rdy } })
    (fun _ => []) s

/-- `ICP_FB_STATUS`: registers 0x0004-0x0043 (15 R351). -/
def execIcpFbStatus (c : CmdRef) (s : State) : Out :=
  icpGet c 0x901 (fun s => viewBytes roFoot s c.slot (regRun 0xC0004 16)) s

/-- `ICP_FB_HANDOVER`: completes when the handover has completed or failed (15 R343, R351, R352). -/
def execIcpFbHandover (c : CmdRef) (lead : BitVec 16) (rsv : Bool) (s : State) : Out :=
  icp c 0x902 (fun s =>
    let st := firstFail [
      (rsv || lead == 0#16, stBadArg), (outside lead.toNat 10 1000, stRange), (s.foot.lstate != .hold, stOrder),
      (!peerReady s || s.foot.hPending, stBusy)]
    if st = stOk then .later (startHandover lead.toNat (some c) s) else .done st [] s) s

/-- `ICP_FB_ASYM` (15 R341, R352). -/
def execIcpFbAsym (c : CmdRef) (asym : Word) (s : State) : Out :=
  icpDo c 0x903 (fun _ => [(beyond asym.toInt 1000000, stRange)])
    (fun s => { s with foot := { s.foot with asym := asym.toInt } }) (fun _ => []) s

/-- `ICP_FB_TAKE`: takes the lease under R335 at once, without the timers (15 R352). -/
def execIcpFbTake (c : CmdRef) (confirm : Word) (s : State) : Out :=
  icpDo c 0x904
    (fun s => [(confirm != 0xF0B70001#32, stBadArg),
      (!((s.foot.lstate == .cold || s.foot.lstate == .retake) && !s.foot.peerOwn), stOrder)])
    (takeDue false) (fun _ => []) s

end Sys2Proof.Machine
end

