-- ==== Sys2Proof/Machine/Guyline.lean ====
section
/-!
DEFINITION. Guyline: the two flywheel models, the HOLD term, learning windows, running a holdover, the ATOM UART parser and
the holdover commands (06); the configuration area of flash (23 R481); the registers of the TIME block.
-/
namespace Sys2Proof.Machine
open Sys2Proof

/-! ## Configuration area (23 R481) -/

/-- The words of one model. -/
def modelWord (m : GuyModel) (o : Nat) : Word :=
  match o / 4 with
  | 0 => w32 (twos 64 m.y0)
  | 1 => w32 (twos 64 m.y0 / 2 ^ 32)
  | 2 => w32 (twos 64 m.a1)
  | 3 => w32 (twos 64 m.a1 / 2 ^ 32)
  | 4 => w32 (twos 32 m.a2)
  | 5 => w32 (twos 32 m.ct)
  | 6 => w32 m.uY
  | 7 => w32 m.uA1
  | 8 => w32 m.uA2
  | 9 => w32 m.uCT
  | 10 => w32 m.noiseY
  | 11 => pack [(0, twos 16 m.tFit), (16, m.tSpan)]
  | 12 => pack [(0, m.winCount), (16, bit m.a1Fit), (17, bit m.a2Fit), (18, bit m.ctFit), (19, bit m.rest.isSome)]
  | 13 => w32 (m.t0 / 781250000)
  | _ => 0#32

/-- A section: its 8-byte header, its payload, and zeros up to an 8-byte boundary. -/
def cfgSection (ty flags : Nat) (pl : List Byte) : List Byte :=
  le 2 ty ++ [1#8] ++ le 1 flags ++ le 4 pl.length ++ pl ++ zeros ((8 - pl.length % 8) % 8)

/-- A calibration entry: 32 bytes for a port, mode and FEC option, 4 bytes for a delay or a skew trim. -/
def CalRec.bytes (r : CalRec) : List Byte :=
  if r.kind = 0 then le 1 (r.idx / 8) ++ le 1 (r.idx % 8 / 2) ++ le 1 (r.idx % 2) ++ le 1 (bit r.conn) ++ leI 4 r.a ++ leI 4 r.b ++ le 2 r.c ++
    zeros 2 ++ (r.eq ++ zeros 16).take 16
  else leI 4 r.a

/-- The sections of a bank, in the order of the table "Configuration sections". -/
def CfgBank.sections (b : CfgBank) : List (List Byte) :=
  (b.slots.toList.map fun t => cfgSection 1 (bit b.done) (t.toList.flatMap fun q =>
    [BitVec.ofNat 8 (q.2.elim 0xFF fun e => e.1), BitVec.ofNat 8 (roleCode q.1), 0#8, 0#8])) ++
  (b.cal.toList.map fun l => cfgSection 2 0 (l.flatMap CalRec.bytes)) ++
  (b.guy.toList.map fun g => cfgSection 3 0 ((List.range 16).flatMap (fun k => le 4 (modelWord g.1 (4 * k)).toNat) ++
    (List.range 16).flatMap fun k => le 4 (modelWord g.2 (4 * k)).toNat)) ++
  (b.pos.toList.map fun p => cfgSection 4 0 (leI 8 p.1 ++ leI 8 p.2.1 ++ leI 8 p.2.2.1 ++ le 4 p.2.2.2 ++ le 4 (bit b.surveyed)))

/-- MAGIC of the configuration area. -/
def cfgMagic : List Byte := [0x5A#8, 0x44#8, 0x43#8, 0x46#8]

/-- The bank as an update with COUNTER `n` programs it, its commit record last. -/
def CfgBank.programmed (s : State) (n : Nat) (b : CfgBank) : CfgBank :=
  let data := b.sections.flatten
  { b with data := data, record := commitRecord s cfgMagic n b.sections.length data }

/-- The bank loaded at start: the valid bank with the higher COUNTER, bank 0 at equal counters. -/
def bestCfg (s : State) : Option (Fin 2) :=
  let ok (b : Fin 2) : Bool := recordValid s cfgMagic s.flash.cfg[b].data s.flash.cfg[b].record
  if ok 0 && (!ok 1 || recordCounter s.flash.cfg[1].record ≤ recordCounter s.flash.cfg[0].record) then some 0
  else if ok 1 then some 1 else none

/-- Updates the configuration area: the inactive bank takes every section, with the next COUNTER. Without a root secret or
with the STORE_MAC slot FAULTY no commit record can be made. -/
def cfgUpdate (f : CfgBank → CfgBank) (s : State) : State :=
  if !s.vault.rootOk || s.vault.keys[2].faulty then s
  else
    let src : CfgBank := (bestCfg s).elim {} fun b => s.flash.cfg[b]
    let dst : Fin 2 := if bestCfg s == some 0 then 1 else 0
    { s with flash := { s.flash with cfg := s.flash.cfg.set dst.1 ((f src).programmed s (recordCounter src.record + 1)) } }

/-! ## Frequency and HOLD of a model (06 R128-R130) -/

/-- Denominator of exact frequencies: 10^52. -/
def freqUnit : Int := 10 ^ 52

/-- Predicted fractional frequency of a flywheel at an Odometer tick and a temperature, in units of 10^-52 (06 R128): one
tick is 128 x 10^-11 s. -/
def GuyModel.yNum (m : GuyModel) (odo : Nat) (temp : Int) : Int :=
  let n : Int := (odo : Int) - m.t0
  m.y0 * 10 ^ 34 + m.a1 * n * 128 * 10 ^ 17 + m.a2 * n * n * 2 ^ 14 + m.ct * (temp - m.tFit) * 10 ^ 32

/-- The counter advance per tick that a frequency of OSC_MAIN asks for: 1.28 ns / (1 + y) in units of 2^-48 ns, rounded to
nearest (06 R130). -/
def incrOf (y : Int) : Nat := (rdiv (128 * 2 ^ 48 * freqUnit) (100 * (freqUnit + y)).toNat).toNat

/-- The fractional frequency of OSC_MAIN that an INCR stands for, 10^-18. -/
def freqOf (incr : Nat) : Int := 128 * 2 ^ 48 * 10 ^ 16 / (incr : Int) - 10 ^ 18

/-- One 0.25 ns unit in the exact units of HOLD, 1 / (3 x 10^63) s. -/
def holdUnit : Nat := 75 * 10 ^ 52

/-- HOLD of a model `n` ticks after its anchor, with a temperature part in 10^-20 s and a carried part, exact (06 R129,
R136). -/
def GuyModel.holdNum (m : GuyModel) (n temp base : Nat) : Nat :=
  (m.uY + m.noiseY) * n * 128 * (3 * 10 ^ 34) + m.uA1 * n * n * 2 ^ 13 * (3 * 10 ^ 17) + m.uA2 * n * n * n * 2 ^ 21 +
  temp * (3 * 10 ^ 43) + base

/-- HOLD in units of 0.25 ns, rounded up. -/
def holdQuarters (num : Nat) : Nat := satE (cdiv num holdUnit)

/-- The model re-expressed with its epoch at a tick (06 R129). -/
def GuyModel.rebase (m : GuyModel) (odo : Nat) : GuyModel :=
  let n := odo - m.t0
  { m with
    y0 := m.y0 + (m.a1 * n * 128 * 10 ^ 17 + m.a2 * n * n * 2 ^ 14) / 10 ^ 34
    a1 := m.a1 + 2 * m.a2 * n * 128 / 10 ^ 17
    uY := satE (m.uY + cdiv (m.uA1 * n * 128 * 10 ^ 17 + m.uA2 * n * n * 2 ^ 14) (10 ^ 34))
    t0 := odo }

/-! ## Temperature sources (06 R126) -/

/-- The model takes its temperature from ATOM_UART. -/
def fromUart (s : State) (atom : Bool) : Bool :=
  if atom then (if s.guy.atom.tempSet then s.guy.atom.tempAtom else s.guy.uart.isSome)
  else s.guy.main.tempSet && s.guy.main.tempAtom

/-- Last valid reading of a model's source. -/
def modelTemp (s : State) (atom : Bool) : Int := if fromUart s atom then s.guy.uartTemp else s.guy.dieTemp

/-- The model's source is delivering. -/
def modelTempOk (s : State) (atom : Bool) : Bool := if fromUart s atom then s.guy.uartTempOk else s.guy.dieTempOk

/-- The model of a flywheel. -/
def modelOf (s : State) (atom : Bool) : GuyModel := if atom then s.guy.atom else s.guy.main

/-- What one second adds to the temperature part of HOLD, 10^-20 s (06 R129). -/
def tempSecond (s : State) (atom : Bool) : Nat :=
  let m := modelOf s atom
  if modelTempOk s atom then m.uCT * (modelTemp s atom - m.tFit).natAbs
  else (m.ct.natAbs + m.uCT) * (s.guy.tempSpan * 100)

/-- The flywheel in use: that of the running holdover, or the one a holdover would take (06 R135). -/
def flyAtom (s : State) : Bool :=
  match s.guy.hold with
  | some a => a.flyAtom
  | none => s.guy.atom.valid

/-! ## Validity (06 R133) -/

/-- A model holds enough committed windows. -/
def GuyModel.enough (m : GuyModel) (learnMin learnRestore : Nat) : Bool :=
  decide (learnMin ≤ m.wins.length) || (m.rest.isSome && decide (learnRestore ≤ m.wins.length))

/-- Sets and clears MAIN_VALID and ATOM_VALID; a bit that sets raises MODEL_VALID. -/
def guyLevel (s : State) : State :=
  let g := s.guy
  let mv := g.main.enough g.learnMin g.learnRestore
  let av := g.atomPresent && g.atomLock && g.atomEn && g.atom.enough g.learnMin g.learnRestore
  let s1 : State := { s with guy := { g with
    main := { g.main with valid := mv }, atom := { g.atom with valid := av }
    atomLostOdo := if g.atom.valid && !av then s.time.odo else g.atomLostOdo } }
  let s2 := if mv && !g.main.valid then raise 53 (sticky 0x302A0 0x100#32 s1) else s1
  if av && !g.atom.valid then raise 53 (sticky 0x302A0 0x200#32 s2) else s2

/-- ATOM_IN becomes present or absent (06 R125). -/
def atomPresence (b : Bool) (s : State) : State :=
  if s.guy.atomPresent = b then s
  else
    let s1 : State := { s with guy := { s.guy with atomPresent := b } }
    guyLevel (if b then raise 52 (sticky 0x302A0 0x10#32 s1) else raise 51 (sticky 0x302A0 0x8#32 s1))

/-! ## Learning windows (06 R131, R132) -/

/-- What a window needs at every moment to be eligible, ATOM's own conditions apart. -/
def guyCond (s : State) : Bool :=
  (s.sys.mode == .serve || s.sys.mode == .standby) &&
  s.sign.sel.elim false fun n => decide (s.sign.slots[n].rank ≤ s.guy.learnRankMax) && !s.sign.slots[n].kept

/-- The running windows stop being eligible: a step, or a change of the selected slot (06 R131). -/
def guyBreak (s : State) : State :=
  { s with guy := { s.guy with
    main := { s.guy.main with eligible := false }, atom := { s.guy.atom with eligible := false } } }

/-- The running windows stay eligible only while the conditions hold. -/
def guyWatch (s : State) : State :=
  let ok := guyCond s
  { s with guy := { s.guy with
    main := { s.guy.main with eligible := s.guy.main.eligible && ok }
    atom := { s.guy.atom with eligible := s.guy.atom.eligible && ok && s.guy.atomPresent && s.guy.atomLock } } }

/-- Largest less smallest temperature of the windows. -/
def winSpan (l : List GuyWin) : Nat :=
  match l with
  | [] => 0
  | w :: t => (t.foldl (fun a x => max a x.temp) w.temp - t.foldl (fun a x => min a x.temp) w.temp).toNat

/-- Commits one window and refits the model (06 R132, R133). -/
def GuyModel.commit (w : GuyWin) (m : GuyModel) : GuyModel :=
  let wins := (w :: m.wins).filter fun x => decide (w.endS < x.endS + 2592000)
  let data := wins.map fun x => (x.endS, x.freq, x.temp)
  let f := Config.guyFit data
  let u := Config.guyFitU data
  let span := w.endS + 1000 - (wins.getLast?.elim w.endS (·.endS))
  let fitA1 := decide (86400 ≤ span)
  let fitA2 := decide (604800 ≤ span)
  let fitCT := decide (200 ≤ winSpan wins)
  { m with
    wins := wins, winCount := satU 16 (m.winCount + 1), tSpan := satU 16 (winSpan wins), t0 := w.endS * 781250000
    y0 := f.1, uY := satE u.1
    a1 := if fitA1 then f.2.1 else m.rest.elim 0 (·.a1)
    uA1 := if fitA1 then satE u.2.1 else m.rest.elim m.pUA1 (·.uA1)
    a2 := if fitA2 then f.2.2.1 else m.rest.elim 0 (·.a2)
    uA2 := if fitA2 then satE u.2.2.1 else m.rest.elim m.pUA2 (·.uA2)
    ct := if fitCT then f.2.2.2.1 else m.rest.elim 0 (·.ct)
    uCT := if fitCT then satE u.2.2.2 else m.rest.elim m.pUCT (·.uCT)
    tFit := if fitCT then satI 16 f.2.2.2.2 else m.rest.elim (satI 16 f.2.2.2.2) (·.tFit)
    a1Fit := fitA1, a2Fit := fitA2, ctFit := fitCT }

/-- Commits the window a model holds. -/
def GuyModel.commitHeld (m : GuyModel) : GuyModel :=
  match m.held with
  | some w => { m.commit w with held := none }
  | none => m

/-- Mean of a list, rounded down; 0 of none. -/
def meanOf (l : List Int) : Int := if l.isEmpty then 0 else l.sum / l.length

/-- A window ends: the held one is committed and the new one is held when it was eligible, with the mean of the window's
temperature readings. -/
def GuyModel.windowEnd (endS : Nat) (freq : Int) (next : Bool) (m : GuyModel) : GuyModel :=
  { m.commitHeld with
    held := if m.eligible then some { endS := endS, freq := freq, temp := meanOf m.winTemps } else none
    eligible := next, winTemps := [] }

/-- LEARN_WINDOW_END: windows lie on one grid of 1,000 Odometer seconds (06 R131-R133). `freq` is OSC_MAIN's mean frequency
against the selected slot, 10^-18; ATOM's is that less the mean of OSC_MAIN against ATOM_IN (06 R124). -/
def execLearnWindowEnd (freq : Int) (s : State) : Out :=
  if !timeUp s then .next s
  else
    let endS := odoSec s / 1000 * 1000
    let ok := guyCond s
    .next (guyLevel { s with guy := { s.guy with
      main := s.guy.main.windowEnd endS freq ok
      atom := s.guy.atom.windowEnd endS (freq - 1000 * meanOf s.guy.atomWin) (ok && s.guy.atomPresent && s.guy.atomLock)
      atomWin := [] } })

/-- The temperature readings of one second enter the running windows (06 R126, R131). -/
def guyTemps (s : State) : State :=
  { s with guy := { s.guy with
    main := { s.guy.main with winTemps := modelTemp s false :: s.guy.main.winTemps }
    atom := { s.guy.atom with winTemps := modelTemp s true :: s.guy.atom.winTemps } } }

/-- A drift verdict on the selected slot discards the held window and the one that ends now (04 R91, 06 R132). -/
def condemn (s : State) : State :=
  let any := s.guy.main.held.isSome || s.guy.atom.held.isSome || s.guy.main.eligible || s.guy.atom.eligible
  let s1 := guyBreak { s with guy := { s.guy with
    main := { s.guy.main with held := none }, atom := { s.guy.atom with held := none } } }
  if any then raise 54 (sticky 0x302A0 0x20#32 s1) else s1

/-! ## Holdover (06 R129, R135-R138) -/

/-- A model that is not valid runs on its priors, from the servo's frequency state and the present temperature (06 R135). -/
def GuyModel.onPriors (odo incr : Nat) (temp : Int) (m : GuyModel) : GuyModel :=
  { m with y0 := freqOf incr, a1 := 0, a2 := 0, ct := 0, uY := m.pUY, uA1 := m.pUA1, uA2 := m.pUA2, uCT := m.pUCT, tFit := temp, t0 := odo }

/-- HOLD at a tick, exact. -/
def holdAt (s : State) (odo : Nat) : Nat :=
  match s.guy.hold with
  | some a => (modelOf s a.flyAtom).holdNum (odo - a.anchorOdo) a.tempTerm a.base
  | none => 0

/-- Guyline takes over the increment at a tick: the flywheel is chosen and its model re-expressed; HOLD goes on from where an
earlier stretch without a selected slot left it (06 R129, R135; 05 R107; log 36). -/
def flyStart (odo : Nat) (s : State) : State :=
  let useAtom := s.guy.atom.valid
  let base := holdAt s odo
  { s with guy := { s.guy with
    main := if useAtom then s.guy.main
      else if s.guy.main.valid then s.guy.main.rebase odo
      else s.guy.main.onPriors odo s.time.incr (modelTemp s false)
    atom := if useAtom then s.guy.atom.rebase odo else s.guy.atom
    hold := some { entryOdo := odo, anchorOdo := odo, flyAtom := useAtom, base := base } } }

/-- Holdover entry at a tick: the held windows are committed, those of a drift verdict apart, and Guyline takes over. -/
def holdEnter (odo : Nat) (s : State) : State :=
  let s0 := guyBreak (guyLevel { s with guy := { s.guy with
    main := s.guy.main.commitHeld, atom := s.guy.atom.commitHeld } })
  let s1 := flyStart odo s0
  raise 48 (sticky 0x302A0 1#32 { s1 with guy := { s1.guy with age := 0, oos := false } })

/-- The device runs on its flywheel: in HOLDOVER, and in any other mode while no slot is selected after one has been (05
R107). -/
def flying (s : State) : Bool := s.sys.mode == .holdover || (s.sign.sel.isNone && s.time.selectedOnce)

/-- Guyline takes over at the boundary at which the selection is lost, and gives over at a selection (05 R107). -/
def flyFollow (s : State) : State :=
  if flying s then (if s.guy.hold.isSome then s else flyStart s.time.bOdo s)
  else { s with guy := { s.guy with hold := none } }

/-- Holdover ends: the timer and HOLDOVER_OOS return to 0. -/
def holdExit (s : State) : State :=
  raise 49 (sticky 0x302A0 2#32 { s with guy := { s.guy with age := 0, oos := false } })

/-- Mean of the last ten seconds of OSC_MAIN against ATOM_IN, 10^-18. -/
def meanAtom (s : State) : Int :=
  let l := s.guy.atomFreqHist.take 10
  if l.isEmpty then s.guy.atomFreq * 1000 else l.sum * 1000 / l.length

/-- ATOM_VALID has cleared: MAIN takes over and is re-anchored where ATOM stood when it cleared (06 R136). -/
def holdSwitch (odo : Nat) (s : State) : State :=
  match s.guy.hold with
  | some a =>
    if a.flyAtom && !s.guy.atom.valid then
      let m := s.guy.atom
      let lost := max a.anchorOdo (min odo s.guy.atomLostOdo)
      let n := lost - a.anchorOdo
      let bound := m.uY + m.noiseY + cdiv (m.uA1 * n * 128 * 10 ^ 17 + m.uA2 * n * n * 2 ^ 14) (10 ^ 34) +
        cdiv (m.uCT * (modelTemp s true - m.tFit).natAbs) 100
      { s with guy := { s.guy with
        main := { s.guy.main with
          y0 := meanAtom s + m.yNum lost (modelTemp s true) / 10 ^ 34, uY := satE bound, t0 := lost }
        hold := some { a with
          flyAtom := false, anchorOdo := lost, base := m.holdNum n a.tempTerm a.base, tempTerm := 0 } } }
    else s
  | none => s

/-- One second on the flywheel: the holdover timer and the temperature part (06 R129, R137). -/
def holdSecond (s : State) : State :=
  match s.guy.hold with
  | some a => { s with guy := { s.guy with
      age := if s.sys.mode == .holdover then satE (s.guy.age + 1) else s.guy.age, hold := some { a with tempTerm := a.tempTerm + tempSecond s a.flyAtom } } }
  | none => s

/-- The frequency of OSC_MAIN by the valid model of the flywheel in use, 10^-52: ATOM's and what was measured against it, else
MAIN's, else nominal (04 R88). -/
def flyPred (s : State) (odo : Nat) : Int :=
  if s.guy.atom.valid then s.guy.atom.yNum odo (modelTemp s true) + s.guy.atomFreq * 10 ^ 37
  else if s.guy.main.valid then s.guy.main.yNum odo (modelTemp s false)
  else 0

/-- The frequency of OSC_MAIN that Guyline predicts at a tick, 10^-52 (06 R130). -/
def flyFreq (s : State) (odo : Nat) : Int :=
  match s.guy.hold with
  | some a =>
    if a.flyAtom then s.guy.atom.yNum odo (modelTemp s true) + s.guy.atomFreq * 10 ^ 37
    else s.guy.main.yNum odo (modelTemp s false)
  | none => 0

/-- The in-spec comparator (06 R138). -/
def holdCompare (s : State) : State :=
  if s.sys.mode == .holdover && !s.guy.oos && decide (s.guy.oosLimit < s.time.errb) then
    cairnEvent (raise 50 (sticky 0x302A0 4#32 { s with guy := { s.guy with oos := true } }))
  else s

/-! ## Events -/

/-- ATOM_ABSENT: ten consecutive edges are missing (06 R125). -/
def execAtomAbsent (s : State) : Out :=
  .next (if timeUp s then atomPresence false { s with guy := { s.guy with missEdges := 10 } } else s)

/-- ATOM_UART_POLL: the parser sends its query and awaits a response (06 R127). -/
def execAtomUartPoll (s : State) : Out :=
  match s.guy.uart with
  | some u => .next { s with guy := { s.guy with
      queryOut := u.query, awaiting := true, uartMiss := s.guy.uartMiss + 1 } }
  | none => .next s

/-- A character that can stand in a decimal number. -/
def digitOf (b : Byte) : Option Nat := if 0x30 ≤ b.toNat && b.toNat ≤ 0x39 then some (b.toNat - 0x30) else none

/-- Value and number of the digits a byte string begins with, at most `n`. -/
def digits : Nat → List Byte → Nat → Nat × Nat × List Byte
  | 0, l, v => (v, 0, l)
  | _ + 1, [], v => (v, 0, [])
  | n + 1, b :: l, v =>
    match digitOf b with
    | some d => let r := digits n l (10 * v + d); (r.1, r.2.1 + 1, r.2.2)
    | none => (v, 0, b :: l)

/-- A decimal temperature in degC as units of 0.01 degC: an optional sign, digits, and up to two decimals. -/
def asciiTemp (l : List Byte) : Option Int :=
  let neg := l.head? == some 0x2D#8
  let l1 := if neg || l.head? == some 0x2B#8 then l.drop 1 else l
  let (w, n, r) := digits 64 l1 0
  if n = 0 then none
  else
    let (f, k) := match r with
      | b :: t => if b == 0x2E#8 then (let d := digits 2 t 0; (d.1, d.2.1)) else (0, 0)
      | [] => (0, 0)
    let frac := if k = 1 then f * 10 else f
    let v : Int := ((100 * w + frac : Nat) : Int)
    some (satI 16 (if neg then -v else v))

/-- The temperature of a response, 0.01 degC (06 R127, R143). -/
def uartTempOf (u : GuyUart) (resp : List Byte) : Option Int :=
  let l := resp.drop u.tempOfs
  let k : Int := if u.scale = 0 then 1 else if u.scale = 1 then 10 else 100
  if u.format = 0 then some (satI 16 (sgn 16 (leVal (l.take 2)) * k))
  else if u.format = 1 then some (satI 16 (sgn 16 (beVal (l.take 2)) * k))
  else asciiTemp l

/-- ATOM_UART_RESPONSE: the first RESP_LEN bytes give the lock state and the temperature (06 R127). -/
def execAtomUartResponse (bytes : List Byte) (s : State) : Out :=
  match s.guy.uart with
  | some u =>
    if !s.guy.awaiting || bytes.length < u.respLen then .next s
    else
      let resp := bytes.take u.respLen
      let hit := (resp.getD u.lockOfs 0#8) &&& u.lockMask != 0#8
      let g := { s.guy with awaiting := false, atomLock := hit != u.polarity }
      let g1 := match uartTempOf u resp with
        | some t => { g with uartTemp := t, uartTempOk := true, uartMiss := 0 }
        | none => g
      .next (guyLevel { s with guy := g1 })
  | none => .next s

/-- TEMP_LOST: a source has gone three polls, or 3 s, without a valid reading (06 R126). -/
def execTempLost (uart : Bool) (s : State) : Out :=
  let used := fromUart s false == uart || fromUart s true == uart
  let due := if uart then s.guy.uartTempOk && decide (3 ≤ s.guy.uartMiss) else s.guy.dieTempOk && decide (3 ≤ s.guy.dieMiss)
  if !due then .next s
  else
    let s1 : State := { s with guy := if uart then { s.guy with uartTempOk := false } else { s.guy with dieTempOk := false } }
    .next (if used then raise 56 (sticky 0x302A0 0x80#32 s1) else s1)

/-- Writes both models to the configuration area (06 R134). -/
def guySave (s : State) : State :=
  cfgUpdate (fun b => { b with guy := some (s.guy.main, s.guy.atom) }) { s with guy := { s.guy with savedAt := s.aon.ophrs } }

/-- GUYLINE_MODEL_SAVE: every 3,600 s (06 R134). -/
def execGuylineModelSave (s : State) : Out :=
  .next (if s.sys.mgmtFwRunning && decide (s.guy.savedAt + 3600 ≤ s.aon.ophrs) then guySave s else s)

/-- A start restores the aging and temperature coefficients of a saved model (06 R134). -/
def GuyModel.restore (old m : GuyModel) : GuyModel :=
  let r : GuyRest := {
    a1 := old.a1, a2 := old.a2, ct := old.ct, uA1 := old.uA1, uA2 := old.uA2, uCT := old.uCT, tFit := old.tFit }
  { m with a1 := r.a1, a2 := r.a2, ct := r.ct, uA1 := r.uA1, uA2 := r.uA2, uCT := r.uCT, tFit := r.tFit, rest := some r }

/-! ## Registers of the TIME block (03, 06 R142, 20 R439) -/

/-- TIME_GUY_STAT. -/
def guyStat (s : State) : Word :=
  pack [(0, bit (s.sys.mode == .holdover)), (1, bit s.guy.oos), (2, bit (flyAtom s)), (3, bit s.guy.main.valid),
    (4, bit s.guy.atom.valid), (5, bit s.guy.atomEn), (6, bit s.guy.atomPresent), (7, bit s.guy.atomLock),
    (8, bit s.guy.main.eligible), (9, bit (s.guy.main.held.isSome || s.guy.atom.held.isSome)),
    (10, bit (modelTempOk s (flyAtom s)))]

/-- Guyline's registers. -/
def roGuy (s : State) (o : Nat) : Word :=
  if o = 0x200 then guyStat s
  else if o = 0x204 then w32 s.guy.age
  else if o = 0x208 then w32 s.guy.oosLimit
  else if o = 0x20C then
    pack [(0, bit s.guy.policyContinue), (4, s.guy.learnRankMax), (8, s.guy.learnMin), (18, s.guy.learnRestore), (25, s.guy.tempSpan)]
  else if o = 0x210 then pack [(0, twos 16 s.guy.dieTemp), (16, twos 16 s.guy.uartTemp)]
  else if o = 0x214 then w32 (twos 32 (satI 32 s.guy.atomFreq))
  else if o = 0x218 then w32 (twos 32 s.guy.ret)
  else if o = 0x21C then w32 s.guy.retHold
  else if within o 0x220 0x25F then modelWord s.guy.main (o - 0x220)
  else if within o 0x260 0x29F then modelWord s.guy.atom (o - 0x260)
  else 0#32

/-- The six NOW words of a reader (03 R55): before the first latch TIME_ODO_HI holds what TIME_ODO_LO latched. -/
def roNow (l : NowLatch) (o : Nat) : Word :=
  match o with
  | 0x10 => w32 l.ns
  | 0x14 => w32 l.sec
  | 0x18 => pack [(0, l.sec / 2 ^ 32), (16, l.frac)]
  | 0x1C => w32 l.errb
  | 0x20 => l.odo.setWidth 32
  | 0x24 => l.odoHi
  | _ => 0#32

/-- TIME_SNAP registers. -/
def roSnap (p : Snap) (o : Nat) : Word :=
  match o with
  | 0x90 => pack [(1, bit p.valid)]
  | 0x94 => w32 p.ns
  | 0x98 => w32 p.sec
  | 0x9C => pack [(0, p.sec / 2 ^ 32), (16, p.frac)]
  | 0xA0 => w32 p.errb
  | 0xA4 => p.odo.setWidth 32
  | 0xA8 => (p.odo >>> 32).setWidth 32
  | 0xAC => pack [(0, p.mode), (8, p.sel)]
  | _ => 0#32

/-- The TIME block without its sticky fields. -/
def roTime (s : State) (rd o : Nat) : Word :=
  if !powered s 1 then 0#32
  else if within o 0x200 0x29F then roGuy s o
  else if within o 0x10 0x24 then (fin? 9 rd).elim 0#32 fun k => roNow s.time.now[k] o
  else if within o 0x90 0xAC then roSnap s.time.snap o
  else match o with
    | 0x00 => lkWord s 3
    | 0x04 => pack [(0, bit s.time.valid), (5, bit (s.time.errb == 0xFFFFFFFF))]
    | 0x30 => w32 s.time.incrReg
    | 0x34 => w32 (s.time.incrReg / 2 ^ 32)
    | 0x38 => w32 (twos 40 s.time.slewReg)
    | 0x3C => w32 (twos 40 s.time.slewReg / 2 ^ 32)
    | 0x40 => pack [(0, twos 16 s.time.utcOffset), (16, leapBits s), (19, bit s.time.utcKnown)]
    | 0x44 => w32 s.time.leapAt
    | 0x48 => w32 (s.time.leapAt / 2 ^ 32)
    | 0x50 => w32 s.time.errb
    | 0x54 => w32 s.time.terms[0]
    | 0x58 => w32 s.time.terms[1]
    | 0x5C => w32 s.time.terms[2]
    | 0x60 => w32 s.time.terms[3]
    | 0x64 => w32 s.time.terms[4]
    | 0x68 => w32 s.time.terms[5]
    | 0x70 => w32 s.time.calUnc[0]
    | 0x74 => w32 s.time.calUnc[1]
    | 0x78 => w32 s.time.calUnc[2]
    | 0x7C => w32 s.time.calUnc[3]
    | 0x80 => w32 s.time.calUncOut
    | _ => 0#32

/-! ## Commands (06 R143, R144) -/

/-- `ICP_HOLD_CONFIG`. -/
def execIcpHoldConfig (c : CmdRef) (a : HoldConfigArgs) (s : State) : Out :=
  icpDo c 0x300
    (fun _ => [
      (a.rsv || a.oosLimit == 0#32 || a.learnMin == 0#16 || a.learnRestore == 0#8 || a.tempSpan == 0#8 || decide (1 < a.policy.toNat), stBadArg),
      (outside a.oosLimit.toNat 4 4000000 || decide (14 < a.learnRankMax.toNat) || outside a.learnMin.toNat 4 1000 ||
        decide (100 < a.learnRestore.toNat) || decide (100 < a.tempSpan.toNat), stRange)])
    (fun s => guyLevel { s with guy := { s.guy with
      oosLimit := a.oosLimit.toNat, policyContinue := a.policy == 1#8, learnRankMax := a.learnRankMax.toNat,
      learnMin := a.learnMin.toNat, learnRestore := a.learnRestore.toNat, tempSpan := a.tempSpan.toNat } })
    (fun _ => []) s

/-- The priors and settings of `ICP_HOLD_OSC_CONFIG` in a model. -/
def GuyModel.config (a : HoldOscArgs) (m : GuyModel) : GuyModel :=
  { m with tempAtom := a.tempSrc == 1#8, tempSet := true, noiseY := a.noiseY.toNat, pUY := a.uY.toNat, pUA1 := a.uA1.toNat,
           pUA2 := a.uA2.toNat, pUCT := a.uCT.toNat }

/-- `ICP_HOLD_OSC_CONFIG`. -/
def execIcpHoldOscConfig (c : CmdRef) (a : HoldOscArgs) (s : State) : Out :=
  icpDo c 0x301
    (fun s => [
      (a.rsv || decide (1 < a.osc.toNat) || decide (1 < a.enable.toNat) || (a.osc == 0#8 && a.enable == 1#8) || decide (1 < a.tempSrc.toNat) ||
        (a.tempSrc == 1#8 && s.guy.uart.isNone) || a.uY == 0#32 || a.noiseY == 0#32, stBadArg)])
    (fun s =>
      if a.osc == 0#8 then { s with guy := { s.guy with main := s.guy.main.config a } }
      else guyLevel { s with guy := { s.guy with atomEn := a.enable == 1#8, atom := s.guy.atom.config a } })
    (fun _ => []) s

/-- `ICP_HOLD_STATUS`: the registers 0x0200-0x029F of the TIME block. -/
def execIcpHoldStatus (c : CmdRef) (s : State) : Out :=
  icpGet c 0x302 (fun s => viewBytes roTime s c.slot (regRun 0x30200 40)) s

/-- A model starts empty under its priors (06 R134). -/
def GuyModel.reset (m : GuyModel) : GuyModel :=
  { m with
    y0 := 0, a1 := 0, a2 := 0, ct := 0, uY := m.pUY, uA1 := m.pUA1, uA2 := m.pUA2, uCT := m.pUCT, tFit := 0, tSpan := 0
    wins := [], winCount := 0, a1Fit := false, a2Fit := false, ctFit := false, rest := none, t0 := 0, held := none
    eligible := false, valid := false }

/-- `ICP_HOLD_RESET`. -/
def execIcpHoldReset (c : CmdRef) (main atom rsv : Bool) (s : State) : Out :=
  icpDo c 0x303 (fun _ => [(rsv || (!main && !atom), stBadArg)])
    (fun s => sticky 0x302A0 0x400#32 { s with guy := { s.guy with
      main := if main then s.guy.main.reset else s.guy.main, atom := if atom then s.guy.atom.reset else s.guy.atom } })
    (fun _ => []) s

/-- The parser an argument block configures; a poll period of 0 removes it. -/
def uartOf (a : AtomUartArgs) : Option GuyUart :=
  if a.poll == 0#8 then none
  else some {
    baud := a.baud.toNat, poll := a.poll.toNat, query := a.query.toList.take a.qlen.toNat, respLen := a.respLen.toNat,
    lockOfs := a.lockOfs.toNat, lockMask := a.lockMask, polarity := a.polarity == 1#8, tempOfs := a.tempOfs.toNat,
    format := a.format.toNat, scale := a.scale.toNat }

/-- `ICP_ATOM_UART_CONFIG`. -/
def execIcpAtomUartConfig (c : CmdRef) (a : AtomUartArgs) (s : State) : Out :=
  let binary := decide (a.format.toNat ≤ 1)
  icpDo c 0x304
    (fun _ => [
      (a.rsv || decide (16 < a.qlen.toNat) || a.respLen == 0#8 || decide (64 < a.respLen.toNat) ||
        decide (a.respLen.toNat ≤ a.lockOfs.toNat) || decide (a.respLen.toNat ≤ a.tempOfs.toNat) ||
        (binary && decide (a.respLen.toNat < a.tempOfs.toNat + 2)) || decide (2 < a.format.toNat) || decide (2 < a.scale.toNat) ||
        decide (1 < a.polarity.toNat), stBadArg),
      (decide (60 < a.poll.toNat) || decide (7 < a.baud.toNat), stRange)])
    (fun s => guyLevel { s with guy := { s.guy with
      uart := uartOf a, atomLock := a.poll == 0#8 || s.guy.atomLock, awaiting := false, uartMiss := 0
      uartTempOk := s.guy.uartTempOk && a.poll != 0#8 } })
    (fun _ => []) s

end Sys2Proof.Machine
end

