-- ==== Sys2Proof/Machine/Sign.lean ====
section
/-!
DEFINITION. Reference slots: quality messages and the unified rank, loss of signal, the hold-off timer, the frequency window,
the drift detector, disagreement between slots, path steps, the spoof guard's test, and the state each slot takes (04; 10
R214-R217).
-/
namespace Sys2Proof.Machine
open Sys2Proof

/-! ## Kinds of slots (04 R71, R72) -/

/-- REF_PPS0-3. -/
def isPps (n : Fin 12) : Bool := 1 ≤ n.1 && n.1 ≤ 4

/-- REF_SYNCE0-3, which carry frequency only. -/
def isSynce (n : Fin 12) : Bool := 5 ≤ n.1 && n.1 ≤ 8

/-- REF_PTPA and REF_PTPB. -/
def isPtp (n : Fin 12) : Bool := n.1 == 9 || n.1 == 10

/-- The slot carries time. -/
def isTime (n : Fin 12) : Bool := !isSynce n

/-- Index of a PPS slot's input, of a SyncE slot's port, of a PTP slot's client domain. -/
def ppsIdx (n : Fin 12) : Fin 4 := ⟨(n.1 + 3) % 4, by omega⟩
def synceIdx (n : Fin 12) : Fin 4 := ⟨(n.1 + 3) % 4, by omega⟩
def ptpIdx (n : Fin 12) : Fin 2 := ⟨(n.1 + 1) % 2, by omega⟩

/-- Modes in which slots are qualified (04 R77). -/
def qualModes (m : Mode) : Bool :=
  match m with
  | .provision | .acquire | .serve | .holdover | .standby | .quiesce => true
  | .boot | .recovery => false

/-- The enable in force: a gated PD_GNSS disables REF_GNSS (04 R100, 02 R32). -/
def enableOf (s : State) (n : Fin 12) : Nat := if n.1 == 0 && !powered s 8 then 0 else s.sign.slots[n].enable

/-- The slot is a candidate: REF_PEER only in STANDBY (04 R75). -/
def candidate (s : State) (n : Fin 12) : Bool := enableOf s n == 2 && (n.1 != 11 || s.sys.mode == .standby)

/-- States a slot is compared in (04 R92). -/
def inCompare (q : SignSlot) : Bool := q.state == .qualified || q.state == .selected || q.state == .disputed

/-- Odometer tick of the boundary of the evaluation. -/
def evalOdo (s : State) : Nat := s.time.bOdo + 65536

/-- A valid ESMC PDU arrived within the 5 s before a tick (04 R86, 11 R245). -/
def PortSt.esmcLive (odo : Nat) (p : PortSt) : Bool := p.esmcAt.elim false fun t => decide (odo < t + 5 * tickSec)

/-! ## Quality and rank (04 R78-R85) -/

/-- Time uncertainty bounds of ranks 0-14, 0.25 ns. -/
def rankBounds : List Nat :=
  [10, 20, 40, 100, 200, 400, 1000, 4000, 10000, 40000, 400000, 4000000, 40000000, 400000000, 4000000000]

/-- Base rank of a time slot. -/
def baseRank (unc : Nat) : Nat := rankBounds.findIdx (fun b => unc ≤ b)

/-- ToD status floor (04 R80). -/
def todFloor (st : Nat) : Nat := match st with | 0 => 0 | 1 => 5 | 2 => 9 | _ => 15

/-- ESMC QL to rank (04 R81); an absent enhanced code is `none`. -/
def esmcRank (ssm : Nat) (essm : Option Nat) : Nat :=
  let plain := essm.isNone || essm == some 0xFF
  match ssm with
  | 0x2 => if essm == some 0x21 then 1 else if essm == some 0x20 || essm == some 0x23 then 2 else if plain then 3 else 15
  | 0x4 => if plain then 6 else 15
  | 0x8 => if plain then 8 else 15
  | 0xB => if essm == some 0x22 then 10 else if plain then 11 else 15
  | _ => 15

/-- Bound of a clockAccuracy in 0.25 ns (04 R82, IEEE 1588-2019); none where the value gives rank 15. -/
def accuracyUnits (a : Nat) : Option Nat :=
  if 0x17 ≤ a && a ≤ 0x1C then some 1
  else match a with
    | 0x1D => some 4
    | 0x1E => some 10
    | 0x1F => some 40
    | 0x20 => some 100
    | 0x21 => some 400
    | 0x22 => some 1000
    | 0x23 => some 4000
    | 0x24 => some 10000
    | 0x25 => some 40000
    | 0x26 => some 100000
    | 0x27 => some 400000
    | 0x28 => some 1000000
    | 0x29 => some 4000000
    | 0x2A => some 10000000
    | 0x2B => some 40000000
    | 0x2C => some 100000000
    | 0x2D => some 400000000
    | 0x2E => some 1000000000
    | 0x2F => some 4000000000
    | 0xFE => some 4000000000
    | _ => none

/-- clockClass floor (04 R82). -/
def classFloor (c : Nat) : Nat :=
  match c with
  | 6 | 13 => 0
  | 7 | 14 | 135 => 5
  | 140 | 165 => 9
  | 150 => 10
  | 160 => 11
  | 52 | 58 => 12
  | 248 => 14
  | _ => 15

/-- GNSS floors: fix, band and T-RAIM (04 R83). -/
def gnssFloor (r : SolReport) : Nat :=
  max (match r.fix with | 2 => 0 | 1 => 6 | _ => 15) (max (if r.dual then 0 else 3) (match r.traim with | 0 => 0 | 1 => 4 | _ => 15))

/-- The Announce a client domain has chosen. -/
def bestCand (s : State) (n : Fin 12) : Option PtpCand := s.ptp.client[ptpIdx n].best.bind fun k => s.ptp.client[ptpIdx n].cands[k]?

/-- Stated uncertainty in 0.25 ns and floor of a time slot; none while its quality message is unknown or absent. -/
def quality (s : State) (n : Fin 12) (q : SignSlot) : Option (Nat × Nat) :=
  if n.1 == 0 then (if s.gnss.solAge = 0xFFFF then none else some (s.gnss.feed.unc, gnssFloor s.gnss.feed))
  else if isPps n then
    (if q.todSel = 0 then some (0, 0)
     else if q.qUnknown || bits q.qmsg.toNat 3 0 = 15 then none
     else some (5 * 2 ^ bits q.qmsg.toNat 3 0, todFloor (bits q.qmsg.toNat 7 4)))
  else if isPtp n then (bestCand s n).bind fun c => (accuracyUnits c.accuracy).map fun u => (u, classFloor c.clockClass)
  else s.foot.peer.map fun f => (satE (f.errb + 1), if f.mode == .serve || f.mode == .holdover then 0 else 15)

/-- Rank of a slot and its SIGN_SLOTn_UNC (04 R78). -/
def rankOf (s : State) (n : Fin 12) (q : SignSlot) : Nat × Nat :=
  if isSynce n then
    let p := s.port.p[synceIdx n]
    (max (if p.esmcLive (evalOdo s) then esmcRank p.ssm (if p.ssmExt then some p.essm else none) else 15) q.rankFloor, 0)
  else
    match quality s n q with
    | some (u, fl) => (max (baseRank (satE (u + q.instUnc))) (max fl q.rankFloor), satE (u + q.instUnc))
    | none => (15, q.unc)

/-- The raw quality message and UNKNOWN of SIGN_SLOTn_QMSG. -/
def qmsgWord (s : State) (n : Fin 12) : Word :=
  if n.1 == 0 then
    (if s.gnss.solAge = 0xFFFF then pack [(31, 1)]
     else pack [(0, s.gnss.sol.fix), (2, bit s.gnss.sol.dual), (3, s.gnss.sol.traim)])
  else if isPps n then pack [(0, low 8 s.sign.slots[n].qmsg.toNat), (31, bit s.sign.slots[n].qUnknown)]
  else if isSynce n then
    let p := s.port.p[synceIdx n]
    pack [(0, p.ssm), (8, p.essm), (31, bit !p.esmcLive s.time.odo)]
  else if isPtp n then (bestCand s n).elim (pack [(31, 1)]) fun c => pack [(0, c.clockClass), (8, c.accuracy)]
  else s.foot.peer.elim (pack [(31, 1)]) fun f => pack [(0, modeCode f.mode)]

/-! ## Measurement of one second (04 R77, R86, R89, R96) -/

/-- The meter channel of a slot the interval meter measures. -/
def meterOf (n : Fin 12) : Option (Fin 8) :=
  if isPps n then some ⟨(n.1 + 3) % 4, by omega⟩ else if n.1 == 11 then some 5 else none

/-- The meter channel's DLL is out of lock (04 R86, 08 R168). -/
def meterFault (s : State) (n : Fin 12) : Bool := (meterOf n).elim false fun k => !s.tdc.ch[k].dllLock

/-- Cause of the loss condition that holds, 0 when none does; the lowest code counts. -/
def lossOf (s : State) (n : Fin 12) (q : SignSlot) : Nat :=
  let c :=
    if n.1 == 0 then (if 3 ≤ s.gnss.solAge then 0x14 else 0)
    else if isPps n then (if 2 ≤ q.missed then 0x10 else 0)
    else if isSynce n then
      (let p := s.port.p[synceIdx n]
       if !p.link || !p.cdrLock then 0x11
       else if !p.esmcLive (evalOdo s) then 0x12 else 0)
    else if isPtp n then
      (let k := s.ptp.client[ptpIdx n]
       if k.best.isNone || k.measAt.elim true (fun t => decide (t + 2 * tickSec ≤ evalOdo s)) then 0x13 else 0)
    else (if !s.foot.link || 3 ≤ s.foot.missNow then 0x15 else 0)
  if c = 0 && meterFault s n then 0x16 else c

/-- Phase error of a slot against the counter, positive where the slot is ahead: the client's offset counts from the
master (14 R322). -/
def phaseOf (s : State) (n : Fin 12) : Int :=
  if n.1 == 0 then s.gnss.feed.offset
  else if isPps n then s.sign.slots[n].phase
  else if isSynce n then 0
  else if isPtp n then -s.ptp.client[ptpIdx n].offset
  else s.foot.phase

/-- Second of the counter at the boundary of the evaluation. -/
def evalSec (s : State) : Nat := secOf (cntAt s (evalOdo s))

/-- The label of the latest pulse is compared with the counter (04 R98). -/
def labelSecond (s : State) (q : SignSlot) : SignSlot :=
  if q.todSel = 0 || q.utc.isNone || !q.pulsed then { q with pulsed := false }
  else
    let good := q.edges.head? == some q.label
    let bad := if good then 0 else if s.time.valid then q.labelBad + 1 else q.labelBad
    let ok := if good then q.labelGood + 1 else 0
    { q with pulsed := false, labelBad := bad, labelGood := ok,
             todMismatch := decide (3 ≤ bad) || (q.todMismatch && decide (ok < 10)) }

/-- Mean of the two middle values of an even number of measurements. -/
def median (l : List Int) : Int :=
  let m := l.mergeSort (· ≤ ·)
  (m.getD (l.length / 2 - 1) 0 + m.getD (l.length / 2) 0) / 2

/-- Step of the mean path delay, ps (04 R96): 16 recent measurements against the 64 before them. -/
def pathStep (s : State) (q : SignSlot) : Option Int :=
  if q.mpd.length < 80 then none
  else
    let d := median (q.mpd.take 16) - median ((q.mpd.drop 16).take 64)
    if s.sign.pathStepNs * 1000 < d.natAbs then some d else none

/-- The frequency window in force, 10^-12 (04 R88). -/
def freqWindow (s : State) : Nat :=
  (if s.guy.main.valid || s.guy.atom.valid then s.sign.freqWin else s.sign.freqWinCold) * 1000

/-- One second in ps. -/
def secPs : Int := 1000000000000

/-- A phase within the second, from -0.5 s. -/
def inSecond (ps : Int) : Int := (ps + secPs / 2) % secPs - secPs / 2

/-- A pulse outside its window: PPS_WIN about the nearest second, or ±0.4 s without a ToD label; a counter that is not valid
expects no edge (04 R75, R89). -/
def pulseWild (valid : Bool) (q : SignSlot) (phase : Int) : Bool :=
  valid && (decide (q.ppsWin * 1000000 < (inSecond phase).natAbs) || (q.todSel = 0 && decide (400000000000 < (inSecond phase).natAbs)))

/-- The whole seconds by which the label of a pulse differs from the counter's second nearest to it (04 R74, R75). -/
def labelPs (q : SignSlot) (label sec : Nat) : Int :=
  if q.todSel = 0 || q.utc.isNone then 0 else ((label : Int) - sec) * secPs

/-- Changes one slot. -/
def onSlot (n : Fin 12) (f : SignSlot → SignSlot) (s : State) : State :=
  { s with sign := { s.sign with slots := upd s.sign.slots n f } }

/-- A pulse of REF_PPS0-3 with the meter's result, less the cable delay: the second it marks, its label, and its phase, unless
it lies outside its window (04 R71, R74, R75, R89, 08 R170). -/
def ppsPulse (n : Fin 12) (ps : Int) (s : State) : State :=
  let q0 := s.sign.slots[n]
  let frac := inSecond (q0.cable - ps + (pertInput n s).1)
  let edge := uPs (cntNow s) + min ps 0
  let sec := (rdiv (edge + frac) 1000000000000).toNat
  let label := if q0.todSel = 0 || q0.utc.isNone then q0.label else q0.label + 1
  let wild := pulseWild s.time.valid q0 frac
  let phase := frac + labelPs q0 label sec
  onSlot n (fun q =>
    let q1 := { q with edges := (sec :: q.edges).take 2, pulsed := true, label := label, labelled := false, lastInWin := !wild }
    if wild then { q1 with outOfWin := q.outOfWin + 1, phaseJump := q.phaseJump || decide (2 ≤ q.outOfWin) }
    else { q1 with
      outOfWin := 0, phase := phase, meas := ((phase, pullPs s) :: q.meas).take 16
      flyNow := some (flyPhase s frac (cntNow s) s.time.odo) }) s

/-- A slot's paired FREQIN is present (04 R73). -/
def aided (s : State) (q : SignSlot) : Bool :=
  q.state != .disabled && (if q.freqSel = 1 then s.tdc.tbPresent else if q.freqSel = 2 then s.tdc.f1Present else false)

/-- The frequency of a slot's paired FREQIN against the prediction, 10^-12, `f` being that of FREQIN0 and FREQIN1 against
OSC_MAIN (04 R73, R88). -/
def aidFreq (s : State) (f : Int × Int) (n : Fin 12) (q : SignSlot) : Int :=
  (if q.freqSel = 1 then f.1 else f.2) + rdiv (flyPred s (evalOdo s)) (10 ^ 40) + (pertInput n s).2

/-- The phase against the flywheel at an evaluation: that of the second's latest measurement, a pulse's being known within the
second; without one the phase before, moved on by a paired FREQIN's frequency (04 R73, R89; log 171). -/
def flyNext (n : Fin 12) (aid : Option Int) (q : SignSlot) : Option Int :=
  match q.flyNow, q.fly.head? with
  | some p, some h => some (if isPps n then h + inSecond (p - h) else p)
  | some p, none => some p
  | none, some h => some (h + aid.getD 0)
  | none, none => none

/-- One second's measurements of a slot: its phase, its frequency over the second, its rank and its loss condition. -/
def slotMeasure (s : State) (f : Int × Int) (n : Fin 12) (q : SignSlot) : SignSlot :=
  if enableOf s n = 0 || !qualModes s.sys.mode then { q with present := false, fly := [], flyNow := none, cmpRun := 0 }
  else
    let q1 := if isPps n then labelSecond s { q with missed := if q.edges.contains (evalSec s - 1) then 0 else q.missed + 1 } else q
    let aid := if isPps n && aided s q then some (aidFreq s f n q) else none
    let fly := flyNext n aid q
    let r := rankOf s n q1
    let loss := lossOf s n q1
    { q1 with
      phase := if isPps n then q.phase else if isTime n then phaseOf s n + (pertInput n s).1 else 0
      freq := match aid, q.flyNow, fly, q.fly.head? with
        | some y, _, _, _ => satI 32 y
        | none, some _, some p, some h => satI 32 (p - h)
        | _, _, _, _ => q.freq
      flyNow := none, fly := (fly.toList ++ q.fly).take (max s.sign.compareWin 16 + 1)
      cmpRun := if inCompare q then q.cmpRun + 1 else 0
      rank := r.1, unc := r.2, loss := loss, present := loss = 0
      qFail := decide (q.qualRankMax < r.1) && (q.qFail || q.state == .qualified || q.state == .selected)
      secsInState := satU 16 (q.secsInState + 1)
      asymCheck := q.asymCheck.map fun k =>
        { k with left := k.left - 1, offsets := if k.left = 0 then k.offsets else fly.toList ++ k.offsets } }

/-- A path step is taken note of: the contribution, the new check, the measurements discarded (04 R96). Before the step is 16
seconds ago, or as long ago as is known. -/
def slotStep (s : State) (q : SignSlot) : SignSlot × Bool :=
  match pathStep s q with
  | none => (q, false)
  | some d =>
    ({ q with
        mpd := [], contrib := satE (q.contrib + cdiv d.natAbs 250)
        asymCheck := some { left := 64, stepPs := d, offsets := [], before := q.fly.getD 16 (q.fly.getLastD 0) } }, true)

/-- Cause of the SOFT_FAIL condition that holds, the lowest code first, 0 when none does (04 R99). -/
def softOf (s : State) (q : SignSlot) : Nat :=
  if freqWindow s < q.freq.natAbs then 0x20
  else if q.driftBad != 0 then q.driftBad
  else if q.qFail then 0x23
  else if q.phaseJump then 0x24
  else if q.todMismatch then 0x25
  else if q.pathAsym then 0x26
  else 0

/-! ## State changes (04 R98, 05 R116, R117) -/

/-- The history bits of an entry. -/
def slotHistory (n : Fin 12) (st : SlotState) (cause : Nat) (s : State) : State :=
  let r := 0x40300 + 4 * n.1
  let s1 := sticky r (1#32 <<< slotCode st) s
  match st with
  | .softFail => stickyFirst r 8 8 cause s1
  | .failed => stickyFirst r 16 8 cause s1
  | .disputed => stickyFirst r 24 8 cause s1
  | _ => s1

/-- A slot takes a state for a cause; SLOT_n is raised once per boundary. A new cause of the same state replaces the old. -/
def slotMove (n : Fin 12) (st : SlotState) (cause : Nat) (s : State) : State :=
  let q := s.sign.slots[n]
  if q.state == st then
    { s with sign := { s.sign with slots := s.sign.slots.set n.1 { q with cause := cause } } }
  else
    let q1 := { q with
      state := st, cause := cause, lastCause := q.cause, secsInState := 0, kept := q.kept && st == .disputed
      cmpRun := if inCompare q then q.cmpRun else 0
      driftArmed := q.driftArmed && (st == .qualified || st == .selected || (st == .softFail && q.driftBad != 0))
      entered := putBit q.entered (slotCode st) true }
    let s1 := slotHistory n st cause { s with sign := { s.sign with slots := s.sign.slots.set n.1 q1 } }
    if q.entered == 0#8 then raise (32 + n.1) s1 else s1

/-- The next entries raise SLOT_n again. -/
def slotSettle (s : State) : State :=
  { s with sign := { s.sign with slots := updAll s.sign.slots fun _ q => { q with entered := 0#8 } } }

/-- The hold-off timer stands at HOLDOFF and does not run. -/
def timerReset (q : SignSlot) : SignSlot := { q with timer := q.holdoff, timerRun := false }

/-- A slot enters QUALIFYING with its timer reset. -/
def requalify (n : Fin 12) (cause : Nat) (s : State) : State := slotMove n .qualifying cause (onSlot n timerReset s)

/-- Conditions that started and ended while the slot was measured are forgotten when it stops being a candidate. -/
def slotForget (q : SignSlot) : SignSlot :=
  { q with
    meas := [], fly := [], flyNow := none, edges := [], pulsed := false, agree := 0, cmpRun := 0, pairCause := 0, dispWith := 0#12, jointWith := 0#12, barWith := 0#12, disp := 0#12
    outOfWin := 0, missed := 0, lastInWin := false, phaseJump := false, pathAsym := false, asymCheck := none, mpd := []
    labelBad := 0, labelGood := 0, todMismatch := false, qFail := false, driftBad := 0, driftArmed := false
    driftPrev := none, timer := 0, timerRun := false, loss := 0 }

/-- A slot becomes DISABLED: it is not measured any more. -/
def slotDisable (n : Fin 12) (cause : Nat) (s : State) : State :=
  slotMove n .disabled cause (onSlot n (fun q => { slotForget q with rank := 15, unc := 0, phase := 0, present := false }) s)

/-! ## The spoof guard's test (10 R214-R217) -/

/-- Channels flagged distorted. -/
def distCount (s : State) : Nat := (s.gnss.chans.toList.filter (·.dist)).length

/-- EVIDENCE (10 R213). -/
def evidence (s : State) : Bool := decide (s.gnss.distMin ≤ distCount s) || s.gnss.fe.toList.any (·.agcFlag)

/-- HOLD since the anchor: the formula of 06 R129 with the flywheel's model re-expressed there (10 R214, R215). -/
def guardHold (s : State) (g : GuardSt) : Nat :=
  ((modelOf s g.flyAtom).rebase (evalOdo s - g.tau * tickSec)).holdNum (g.tau * tickSec) g.temp g.holdBase

/-- L(τ) in 0.25 ns. -/
def guardLimit (s : State) (g : GuardSt) : Nat :=
  satE (4 * g.spoofLimit + s.gnss.feed.unc + holdQuarters (guardHold s g))

/-- Sets the guard. -/
def withGuard (g : GuardSt) (s : State) : State := { s with gnss := { s.gnss with guard := g } }

/-- A new anchor at the present departure. -/
def GuardSt.anchored (g : GuardSt) (fly : Bool) (dep : Int) (st : Nat) : GuardSt :=
  { g with state := st, flyAtom := fly, tau := 0, winAge := 0, temp := 0, winTemp := 0, dBase := dep, winBase := dep, holdBase := 0,
           passRun := 0, d := 0, suspectNow := false }

/-- The guard is OFF: a verdict in force goes on under R95 alone (10 R214, R224). -/
def guardOff (s : State) : State :=
  let g := s.gnss.guard
  let s1 := withGuard { g with state := 0, suspectNow := false, passRun := 0 } s
  let s2 := if 2 ≤ g.state then onSlot 0 (fun q =>
      if q.pairCause = 0 then { q with pairCause := 0x32, agree := 0 } else q) s1 else s1
  faultCond 12 false s2

/-- The test of one evaluation with a valid solution. DESIGN CHOICE: the window of GUARD_WIN starts anew when the guard is armed
again, so no window in which the test failed moves the anchor (log 178). -/
def guardTest (dep : Int) (s : State) : State :=
  let g0 := s.gnss.guard
  let d := dep - g0.dBase
  let lim := guardLimit s g0
  let ev := evidence s
  let beyondL := decide (lim * 250 < d.natAbs)
  let fail := beyondL || (ev && decide (lim * 250 < 2 * d.natAbs))
  let g := { g0 with d := quarter d, lim := lim, suspectNow := ev && !fail }
  let s1 := if ev && !fail && !g0.suspectNow then raise 106 (sticky 0x70120 16#32 (withGuard g s)) else withGuard g s
  if g.state = 1 then
    (if fail then faultCond 12 true (raise 105 (onSlot 0 (fun q => { q with kept := false })
        (withGuard { g with state := 2, passRun := 0 } s1))) else s1)
  else if g.state = 2 then
    (if g.latch then withGuard { g with state := 3 } s1
     else if beyondL || ev then withGuard { g with passRun := 0 } s1
     else if s.sign.slots[0].holdoff ≤ g.passRun then faultCond 12 false (withGuard { g with
        state := 1, passRun := 0, winAge := 0, winBase := dep, winTemp := 0 } s1)
     else withGuard { g with passRun := g.passRun + 1 } s1)
  else s1

/-- The guard at a slot evaluation: OFF without a model, a new anchor or a carried HOLD at a change of flywheel, and the test
where a solution is valid (10 R214, R215). -/
def guardEval (dep : Int) (s : State) : State :=
  let g := s.gnss.guard
  let fly := s.guy.atom.valid
  if g.state = 0 then s
  else if !g.en || !(s.guy.atom.valid || s.guy.main.valid) then guardOff s
  else
    let g1 :=
      if fly == g.flyAtom then g
      else if g.state = 1 then g.anchored fly dep 1
      else { g with flyAtom := fly, tau := 0, temp := 0,
                    holdBase := guardHold s g }
    let add := tempSecond s fly
    let s1 := withGuard { g1 with tau := g1.tau + 1, winAge := g1.winAge + 1, temp := g1.temp + add, winTemp := g1.winTemp + add } s
    if s.gnss.solAge = 0 then guardTest dep s1
    else withGuard { s1.gnss.guard with passRun := 0 } s1

/-- The guard arms at the first evaluation with a valid model and REF_GNSS QUALIFIED or SELECTED (10 R214). -/
def guardArm (s : State) : State :=
  let g := s.gnss.guard
  let q := s.sign.slots[0]
  if g.en && g.state = 0 && (s.guy.atom.valid || s.guy.main.valid) && (q.state == .qualified || q.state == .selected) then
    withGuard (g.anchored s.guy.atom.valid (q.fly.headD 0) 1) s
  else s

/-! ## Disagreement (04 R92-R95) -/

/-- Both windows of a slot are full. -/
def fullWin (s : State) (q : SignSlot) : Bool := decide (s.sign.compareWin ≤ q.cmpRun)

/-- Change of a slot's phase against the flywheel over COMPARE_WIN, ps. -/
def winChange (s : State) (q : SignSlot) : Int := q.fly.headD 0 - q.fly.getD s.sign.compareWin 0

/-- A change of relative phase over the window exceeds DISAGREE_PPB: 0.001 ppb over a second is 1 ps per unit. -/
def differs (s : State) (d : Int) : Bool := decide (s.sign.disagree * s.sign.compareWin < d.natAbs)

/-- Slots that take part in this evaluation's comparison. -/
def comparable (s : State) (n : Fin 12) : Bool :=
  let q := s.sign.slots[n]
  candidate s n && inCompare q && fullWin s q && q.loss = 0 && softOf s q = 0

/-- The judge of a pair without the atomic flywheel: the best-ranked other slot in QUALIFIED or SELECTED. -/
def slotJudge (s : State) (a b : Fin 12) : Option (Fin 12) :=
  (List.finRange 12).foldl (fun best n =>
    if n == a || n == b || !comparable s n || s.sign.slots[n].state == .disputed then best
    else match best with
      | some m => if s.sign.slots[n].rank < s.sign.slots[m].rank then some n else best
      | none => some n) none

/-- A verdict against a slot; `keep` for the verdicts of R94, under which a selected slot stays selected, with the other slot
of the pair, and `joint` when both slots go. -/
def dispute (n other : Fin 12) (cause : Nat) (keep joint : Bool) (s : State) : State :=
  let s1 := onSlot n (fun q => { q with
    pairCause := if q.pairCause = 0 then cause else q.pairCause, agree := 0
    jointWith := if joint then putBit q.jointWith other.1 true else q.jointWith
    dispWith := if keep then putBit q.dispWith other.1 true else q.dispWith }) s
  if keep && s.sign.sel == some n && (!s.sign.slots[n].kept || s.sign.slots[n].pairCause = 0) && !(n.1 == 0 && 2 ≤ s.gnss.guard.state) then
    raise 47 (sticky 0x40340 16#32 (onSlot n (fun q => { q with kept := true }) s1))
  else s1

/-- What a verdict of unequal ranks without a judge means for the better-ranked slot `b` of the pair: the selected slot stays
selected with KEPT, and with the selected slot outside the pair it cannot be selected (04 R94). -/
def spared (b a : Fin 12) (s : State) : State :=
  if s.sign.sel == some b then
    (if s.sign.slots[b].kept then id else sticky 0x40340 16#32)
      (onSlot b (fun q => { q with kept := true, dispWith := putBit q.dispWith a.1 true }) s)
  else if s.sign.sel == some a then s
  else onSlot b (fun q => { q with barWith := putBit q.barWith a.1 true }) s

/-- The outcome for a pair that differs (04 R93, R94); of two slots equally far from the judge the second is disputed (DESIGN
CHOICE, log 172). -/
def pairVerdict (a b : Fin 12) (s : State) : State :=
  let qa := s.sign.slots[a]
  let qb := s.sign.slots[b]
  let ca := winChange s qa
  let cb := winChange s qb
  let judge := if s.guy.atom.valid then some (0xFE, (0 : Int)) else (slotJudge s a b).map fun j => (j.1, winChange s s.sign.slots[j])
  let mark (s : State) : State := onSlot b (fun q => { q with judge := judge.elim 0xFF (·.1), disp := putBit q.disp a.1 true })
    (onSlot a (fun q => { q with judge := judge.elim 0xFF (·.1), disp := putBit q.disp b.1 true }) s)
  match judge with
  | some (_, cj) =>
    let da := differs s (ca - cj)
    let db := differs s (cb - cj)
    if da && db then dispute b a 0x30 true true (dispute a b 0x30 true true (mark s))
    else if da then dispute a b 0x30 false false (mark s)
    else if db then dispute b a 0x30 false false (mark s)
    else if (cb - cj).natAbs < (ca - cj).natAbs then dispute a b 0x30 false false (mark s)
    else dispute b a 0x30 false false (mark s)
  | none =>
    if qa.rank = qb.rank then dispute b a 0x31 true true (dispute a b 0x31 true true (mark s))
    else if qb.rank < qa.rank then spared b a (dispute a b 0x31 true false (mark s))
    else spared a b (dispute b a 0x31 true false (mark s))

/-- Every pair of slots, each once. -/
def slotPairs : List (Fin 12 × Fin 12) :=
  (List.finRange 12).flatMap fun a => ((List.finRange 12).filter fun b => a < b).map fun b => (a, b)

/-- Compares every pair. -/
def pairsEval (s : State) : State :=
  let s0 : State := { s with sign := { s.sign with slots := updAll s.sign.slots fun _ q => { q with disp := 0#12 } } }
  (slotPairs.filter fun p => comparable s0 p.1 && comparable s0 p.2 &&
      differs s0 (winChange s0 s0.sign.slots[p.1] - winChange s0 s0.sign.slots[p.2])).foldl (fun s p => pairVerdict p.1 p.2 s) s0

/-- A DISPUTED slot agrees with everything R95 names. -/
def agrees (s : State) (n : Fin 12) : Bool :=
  let q := s.sign.slots[n]
  comparable s n &&
  ((List.finRange 12).all fun m =>
    m == n || !comparable s m || (s.sign.slots[m].state == .disputed && !q.jointWith.getLsbD m.1) ||
    !differs s (winChange s q - winChange s s.sign.slots[m])) &&
  (!s.guy.atom.valid || !differs s (winChange s q))

/-- The slots of a mask with a disagreement in force. -/
def stillDisputed (s : State) (m : BitVec 12) : BitVec 12 :=
  (List.finRange 12).foldl (fun a n => if s.sign.slots[n].pairCause = 0 then putBit a n.1 false else a) m

/-- A slot that no verdict disputes is barred, or kept, only while the other slot of its pair stays disputed (04 R94). -/
def sparedEval (s : State) : State :=
  { s with sign := { s.sign with slots := updAll s.sign.slots fun _ q =>
      if q.pairCause != 0 then { q with barWith := stillDisputed s q.barWith }
      else
        let w := stillDisputed s q.dispWith
        { q with barWith := stillDisputed s q.barWith, dispWith := w, kept := q.kept && (q.state != .selected || w != 0#12) } } }

/-- One second of agreement, or a restart of the period; a full HOLDOFF of it clears the disagreement. -/
def agreeEval (s : State) : State :=
  sparedEval { s with sign := { s.sign with slots := updAll s.sign.slots fun n q =>
      if q.pairCause = 0 then q
      else if q.state == .disputed && agrees s n then
        (if q.holdoff ≤ q.agree then { q with pairCause := 0, agree := 0, jointWith := 0#12, dispWith := 0#12 }
         else { q with agree := q.agree + 1 })
      else { q with agree := 0 } } }

/-- DISP of a kept selection, 0.25 ns (04 R94, 03 R62). DESIGN CHOICE: 0 against a slot that is no longer compared (log 173). -/
def dispUnits (s : State) : Nat :=
  match s.sign.sel with
  | none => 0
  | some n =>
    let q := s.sign.slots[n]
    if !q.kept then 0
    else
      ((List.finRange 12).map fun m =>
        let o := s.sign.slots[m]
        if !(q.disp ||| q.dispWith).getLsbD m.1 || m == n || !fullWin s o || !inCompare o then 0
        else
          let prod := (winChange s q - winChange s o).natAbs
          quarterUp (if isTime n && isTime m then max prod (q.phase - o.phase).natAbs else prod)).foldl max 0

/-! ## The state of a slot at an evaluation (04 R86-R99) -/

/-- The verdicts in force against a slot: the cause of DISPUTED, 0 when none is. -/
def disputeOf (s : State) (n : Fin 12) : Nat :=
  if n.1 == 0 && 2 ≤ s.gnss.guard.state then 0x32 else s.sign.slots[n].pairCause

/-- Conditions under which the hold-off timer runs (04 R87). -/
def timerOk (s : State) (n : Fin 12) (q : SignSlot) : Bool :=
  decide (q.rank ≤ q.qualRankMax) && (!isPps n || (q.lastInWin && (q.todSel != 0 || s.time.valid)))

/-- One second in QUALIFYING (04 R87). -/
def qualifySecond (n : Fin 12) (s : State) : State :=
  let q := s.sign.slots[n]
  if !timerOk s n q then onSlot n timerReset s
  else
    let q1 := if q.timerRun then { q with timer := q.timer - 1 } else { q with timer := q.holdoff, timerRun := true }
    let s1 := onSlot n (fun _ => q1) s
    if q1.timer = 0 && q1.asymCheck.isNone then slotMove n .qualified 0 s1 else s1

/-- The state of a candidate: FAILED, SOFT_FAIL, DISPUTED, then QUALIFYING (04 R99). -/
def decideOrder (n : Fin 12) (stepped : Bool) (s : State) : State :=
  let q := s.sign.slots[n]
  if q.loss != 0 then slotMove n .failed q.loss s
  else if softOf s q != 0 then slotMove n .softFail (softOf s q) s
  else if disputeOf s n != 0 then slotMove n .disputed (disputeOf s n) s
  else if stepped then onSlot n (fun q => { q with timerRun := true }) (requalify n 0x40 s)
  else
    match q.state with
    | .disputed =>
      if q.asymCheck.isSome then requalify n 0x40 s
      else if s.sign.sel == some n && q.kept then slotMove n .selected 0 s
      else slotMove n .qualified 0 s
    | .failed | .softFail => qualifySecond n (requalify n 0x41 s)
    | .qualifying => qualifySecond n s
    | _ => s

/-- A candidate that was not one before enters QUALIFYING first (04 R75, R100). -/
def decideCandidate (n : Fin 12) (stepped : Bool) (s : State) : State :=
  let q := s.sign.slots[n]
  decideOrder n stepped (if q.state == .disabled || q.state == .monitor then
    requalify n (if q.cause = 0x02 then 0x42 else 0x41) s else s)

/-- The state of any slot at an evaluation. -/
def decideSlot (n : Fin 12) (stepped : Bool) (s : State) : State :=
  let q := s.sign.slots[n]
  if enableOf s n = 0 then
    (if q.state == .disabled then s else slotDisable n (if q.enable = 0 then 0x01 else 0x02) s)
  else if !candidate s n then
    (if q.state == .monitor then s else slotMove n .monitor 0x01 (onSlot n slotForget s))
  else decideCandidate n stepped s

/-- Every slot reads DISABLED in BOOT and RECOVERY (04 R77). DESIGN CHOICE: with cause OWNER (log 174). -/
def signStop (s : State) : State := (List.finRange 12).foldl (fun s n => slotDisable n 0x01 s) s

end Sys2Proof.Machine
end

