-- ==== Sys2Proof/Machine/Meter.lean ====
section
/-!
DEFINITION. The interval meter: results and their outcomes, its users and FIFOs, the delay-locked loops, the timebase, its
registers and commands (08).
-/
namespace Sys2Proof.Machine
open Sys2Proof

/-! ## Channels (08 R170) -/

/-- A channel as it works: firmware configures channels 0-5 for their users, which hold them while enabled (08 R170). -/
def tdcCh (s : State) (n : Fin 8) : TdcCh :=
  let c := s.tdc.ch[n]
  if h : n.1 < 4 then
    let q := s.sign.slots[n.1 + 1]
    let on := q.state != .disabled
    { c with mode := 0, cont := true, tbInternal := true, startSrc := 0x0A, stopSrc := 1 + n.1, stopFall := q.edgeFall,
             timeout := c.timeout, arm := on, busy := on }
  else if n.1 = 4 then
    { c with mode := 2, tbInternal := true, startSrc := 7, count := 10000000, arm := s.guy.atomEn, busy := s.guy.atomEn }
  else if n.1 = 5 then
    { c with mode := 0, cont := true, tbInternal := true, startSrc := 9, stopSrc := 8, arm := s.foot.en, busy := s.foot.en }
  else { c with arm := c.arm || (n.1 == 6 && s.tdc.ch6Held), busy := c.busy || (n.1 == 6 && s.tdc.ch6Held) }

/-- The channel is FREQ. -/
def TdcCh.freq (c : TdcCh) : Bool := c.mode == 2

/-- Updates a channel. -/
def onCh (n : Fin 8) (f : TdcCh → TdcCh) (s : State) : State := { s with tdc := { s.tdc with ch := upd s.tdc.ch n f } }

/-- The register base of a channel. -/
def chReg (n : Fin 8) (o : Nat) : Nat := 0x60100 + 0x20 * n.1 + o

/-- FLAGS of a result without VALID: outcome and flag bits (08 TDC_CHn_FLAGS). -/
def tdcFlags (outcome : Nat) (coincident reversed tbInternal tbLost gap : Bool) : Word :=
  pack [(1, outcome), (4, bit coincident), (5, bit reversed), (6, bit tbInternal), (7, bit tbLost), (8, bit gap)]

/-- A result of no measured value. -/
def tdcEmpty (outcome : Nat) : TdcRes := { value := 0, flags := tdcFlags outcome false false false false false }

/-- The table "Outcomes and flags" for a difference in fs; `tbOpen` says that FREQIN0 was present at the opening edge, `present`
that it has stayed so since, `gap` that a period departed by more than 25 % (08 R173, R175). -/
def tdcOutcome (c : TdcCh) (present : Bool) (d : Int) (gap tbOpen : Bool) : TdcRes :=
  let onExt := tbOpen && !c.tbInternal
  let lost := onExt && !present
  let internal := !onExt || lost
  let g := gap && c.freq
  if !c.dllLock || c.dllBad then tdcEmpty 3
  else if d.natAbs < 1000 then { value := 0, flags := tdcFlags 0 true false internal lost g }
  else if 0 ≤ d then { value := d / 1000, flags := tdcFlags 0 false false internal lost g }
  else if c.mode = 1 then tdcEmpty 2
  else { value := -(-d / 1000), flags := tdcFlags 0 false true internal lost g }

/-- OUTCOME of a result. -/
def TdcRes.outcome (r : TdcRes) : Nat := bits r.flags.toNat 3 1

/-- A result enters the FIFO of a general channel (08 R176). -/
def tdcPush (n : Fin 8) (r : TdcRes) (s : State) : State :=
  let c := s.tdc.ch[n]
  if 8 ≤ c.fifo.length then raise 93 (stickyCount (chReg n 0x18) 16 16 1 (sticky (chReg n 0x18) 2#32 s))
  else
    let s1 := onCh n (fun c => { c with fifo := c.fifo ++ [r] }) s
    if c.fifo.isEmpty && c.irq then raise (80 + n.1) s1 else s1

/-- The general channel an index of `measure` stands for. -/
def measureIdx (n : Fin 8) : Option (Fin 2) := if 6 ≤ n.1 then fin? 2 (n.1 - 6) else none

/-- The response of `ICP_TDC_MEASURE` (08 R178). -/
def measureBytes (r : TdcRes) : List Byte := leI 8 r.value ++ le 4 (r.flags ||| 1#32).toNat

/-- A result of a general channel: to the waiting `ICP_TDC_MEASURE`, or to the FIFO (08 R176, R178). -/
def tdcDeliver (n : Fin 8) (r : TdcRes) (s : State) : State :=
  match measureIdx n with
  | some k =>
    match s.tdc.measure[k] with
    | some c => complete c 0x421 0 (measureBytes r) { s with tdc := { s.tdc with measure := s.tdc.measure.set k.1 none } }
    | none => tdcPush n r s
  | none => s

/-- The measurement on a channel ends: ARM clears unless the channel re-arms itself (08 R172). -/
def tdcEnd (n : Fin 8) (s : State) : State :=
  let single := (measureIdx n).elim false fun k => s.tdc.measure[k].isSome
  onCh n (fun c =>
    let again := c.cont && !c.freq && !single
    { c with arm := again, busy := again, dllBad := !c.dllLock }) s

/-- The measurement in progress is cancelled; out of lock every result carries FAULT (08 R168, R171, R173). -/
def tdcCancel (n : Fin 8) (s : State) : State :=
  if s.tdc.ch[n].busy then
    tdcDeliver n (tdcEmpty (if !s.tdc.ch[n].dllLock || s.tdc.ch[n].dllBad then 3 else 4)) (onCh n (fun c => { c with arm := false, busy := false, dllBad := false }) s)
  else onCh n (fun c => { c with arm := false }) s

/-- A result of a channel 0-5 goes to its user: a pulse of its slot (08 R170), ATOM's frequency and presence (06 R124, R125), or
the marker difference of Footbridge (15 R341). -/
def tdcUser (n : Fin 8) (r : TdcRes) (s : State) : State :=
  let s1 := onCh n (fun c => { c with last := some r }) s
  if r.outcome != 0 then s1
  else if h : n.1 < 4 then ppsPulse ⟨n.1 + 1, by omega⟩ r.value s1
  else if n.1 = 4 then
    let d := r.value - 1000000000000
    let y := d * 1000
    let s2 : State := { s1 with guy := { s1.guy with atomFreq := y, atomWin := y :: s1.guy.atomWin } }
    if beyond d 10000000 then atomPresence false s2
    else if r.flags.getLsbD 8 then s2
    else atomPresence true { s2 with guy := { s2.guy with missEdges := 0, atomFreqHist := (y :: s2.guy.atomFreqHist).take 10 } }
  else if n.1 = 5 then { s1 with foot := { s1.foot with mLast := r.value, m5 := s1.foot.hbSent.getLast? } }
  else s1

/-- A result of a channel. -/
def tdcGive (n : Fin 8) (r : TdcRes) (s : State) : State :=
  if n.1 < 6 then onCh n (fun c => { c with dllBad := !c.dllLock }) (tdcUser n r s)
  else tdcDeliver n r (tdcEnd n s)

/-! ## Events -/

/-- TDC_RESULT: the closing edge of a measurement (08 R172, R173, R175, R176). The difference is trimmed by the channel's
skew; FREQIN0 was lost when it is absent or went absent since the opening edge. -/
def execTdcResult (ch : Fin 8) (deltaFs : Int) (gap tbOpen : Bool) (s : State) : Out :=
  let c := tdcCh s ch
  .next (if !timeUp s || !c.arm || (ch == 6 && s.tdc.ch6Held) then s
    else tdcGive ch (tdcOutcome c (s.tdc.tbSeen && decide (s.tdc.tbGoneAt + (deltaFs.natAbs / 1280000) ≤ s.time.odo)) (if c.freq then deltaFs else deltaFs - c.skew * 1000) gap tbOpen) s)

/-- TDC_TIMEOUT: no closing edge within TIMEOUT (08 R173, R176). -/
def execTdcTimeout (ch : Fin 8) (s : State) : Out :=
  let c := tdcCh s ch
  .next (if !timeUp s || !c.arm || (ch == 6 && s.tdc.ch6Held) then s
    else
      let r := if !c.dllLock || c.dllBad then tdcEmpty 3 else tdcEmpty 1
      let s1 := tdcGive ch r s
      if 6 ≤ ch.1 && c.irq && r.outcome = 1 then raise 88 s1 else s1)

/-- Fault source TDC_DLL follows the loops that have left lock (08 R168). -/
def dllFault (s : State) : State := faultCond 2 (s.tdc.ch.toList.any (·.dllOut)) s

/-- TDC_DLL_UNLOCK (08 R168). -/
def execTdcDllUnlock (ch : Fin 8) (s : State) : Out :=
  .next (if !timeUp s || !s.tdc.ch[ch].dllLock then s
    else raise 89 (dllFault (sticky 0x60004 (1#32 <<< (16 + ch.1))
      (onCh ch (fun c => { c with dllLock := false, dllOut := true, dllBad := true }) s))))

/-- TDC_DLL_LOCK: lock has held for 1 ms; a lock regained is raised (08 R166, R168). -/
def execTdcDllLock (ch : Fin 8) (s : State) : Out :=
  .next (if !timeUp s || s.tdc.ch[ch].dllLock then s
    else
      let s1 := dllFault (onCh ch (fun c => { c with dllLock := true, dllOut := false }) s)
      if s.tdc.ch[ch].dllOut then raise 90 s1 else s1)

/-- TDC_CALIBRATION: every CAL_PERIOD the calibrated spare line takes the place of the line longest in service (08 R167). -/
def execTdcCalibration (ch : Fin 8) (s : State) : Out :=
  .next (if !timeUp s || decide (s.time.odo < s.tdc.lines[ch].getLastD 0 + s.tdc.calPeriod * tickSec) then s
    else { s with tdc := { s.tdc with lines := upd s.tdc.lines ch fun l => l.drop 1 ++ [s.time.odo] } })

/-- CAL_AGE: seconds since the oldest bin table in service was calibrated (08 TDC_STAT). -/
def calAge (s : State) : Nat :=
  satU 8 ((s.tdc.lines.toList.map fun l => (s.time.odo - l.headD 0) / tickSec).foldl max 0)

/-- FREQIN0 becomes present or absent (08 R174). -/
def tbPresence (b : Bool) (s : State) : State :=
  if s.tdc.tbPresent = b then s
  else raise (if b then 91 else 92) { s with tdc := { s.tdc with tbPresent := b } }

/-- TIMEBASE_PRESENCE: the monitor of FREQIN0 or of FREQIN1 (08 R174). -/
def execTimebasePresence (which : Fin 2) (present : Bool) (s : State) : Out :=
  .next (if !timeUp s then s
    else if which = 0 then tbPresence (present && s.tdc.tbEn) { s with tdc := { s.tdc with
      tbSeen := present, tbGoneAt := if s.tdc.tbSeen && !present then s.time.odo else s.tdc.tbGoneAt } }
    else { s with tdc := { s.tdc with f1Present := present } })

/-! ## Registers (08 R177) -/

/-- The conditions under which an arm is ignored (08 TDC_CHn_CFG). -/
def TdcCh.armBad (c : TdcCh) : Bool :=
  c.startSrc == 0 || (c.stopSrc == 0 && !c.freq) || c.timeout == 0 || (c.count == 0 && c.freq)

/-- Starts a measurement, or sets ARM_ERR. -/
def tdcArm (n : Fin 8) (s : State) : State :=
  if s.tdc.ch[n].armBad then sticky (chReg n 0x18) 4#32 s
  else onCh n (fun c => { c with arm := true, busy := true, dllBad := !c.dllLock }) s

/-- A change of MODE, of a source or of TB_SEL (08 R176). -/
def TdcCh.differs (a b : TdcCh) : Bool :=
  a.mode != b.mode || a.startSrc != b.startSrc || a.stopSrc != b.stopSrc || a.tbInternal != b.tbInternal

/-- Takes a configuration: a measurement whose set-up changes ends cancelled and the FIFO is emptied (08 R176). -/
def tdcSet (n : Fin 8) (f : TdcCh → TdcCh) (s : State) : State :=
  if s.tdc.ch[n].differs (f s.tdc.ch[n]) then onCh n (fun c => { f c with fifo := [], arm := false, busy := false }) (tdcCancel n s)
  else onCh n f s

/-- A write of TDC_CHn_CFG of a general channel (08 R171, R172). -/
def tdcCfgWrite (n : Fin 8) (v : Word) (s : State) : State :=
  if n.1 < 6 || (n == 6 && s.tdc.ch6Held) then s
  else
    let x := v.toNat
    let s1 := tdcSet n (fun c => { c with
      mode := bits x 1 0, cont := v.getLsbD 3, irq := v.getLsbD 4, tbInternal := v.getLsbD 5, startSrc := bits x 13 8, startFall := v.getLsbD 14,
      stopSrc := bits x 21 16, stopFall := v.getLsbD 22 }) s
    if v.getLsbD 2 then tdcArm n s1 else tdcCancel n s1

/-- A write of another register of a general channel (08 R177). -/
def tdcWrite (o : Nat) (v : Word) (s : State) : State :=
  match group? o 0x100 0x20 8 with
  | some (n, g) =>
    if n.1 < 6 then s
    else if g = 0 then tdcCfgWrite n v s
    else if g = 4 then onCh n (fun c => { c with timeout := low 21 v.toNat }) s
    else if g = 8 then onCh n (fun c => { c with count := low 24 v.toNat }) s
    else if g = 0x1C then onCh n (fun c => { c with skew := sgn 16 (low 16 v.toNat) }) s
    else s
  | none => s

/-- TDC_ARM_WRITE (08 R172, TDC_CHn_CFG). -/
def execTdcArmWrite (rd : Fin 9) (ch : Fin 8) (val : Word) (s : State) : Out :=
  .next (writeBy rd (chReg ch 0) (tdcCfgWrite ch val) s)

/-- TDC_RESULT_POP: a read of RES_LO by slot 0 pops the head entry (08 R176, R177). -/
def execTdcResultPop (rd : Fin 9) (ch : Fin 8) (s : State) : Out :=
  .next (readBy rd (chReg ch 0xC) (fun s =>
    let c := s.tdc.ch[ch]
    if rd.1 != 0 then (w32 (twos 32 c.shadow.value), s)
    else
      match c.fifo with
      | r :: l => (w32 (twos 32 r.value), onCh ch (fun c => { c with fifo := l, shadow := r, shadowValid := true }) s)
      | [] => (0#32, onCh ch (fun c => { c with shadow := {}, shadowValid := false }) s)) s)

/-- TDC_CHn_CFG as it reads. -/
def TdcCh.cfg (c : TdcCh) : Word :=
  pack [(0, c.mode), (2, bit c.arm), (3, bit c.cont), (4, bit c.irq), (5, bit c.tbInternal), (8, c.startSrc), (14, bit c.startFall),
    (16, c.stopSrc), (22, bit c.stopFall)]

/-- The registers of the TDC block without their sticky fields (08 R177). -/
def roTdc (s : State) (_rd o : Nat) : Word :=
  if !timeUp s then 0#32
  else if o = 0 then lkWord s 6
  else if o = 4 then
    pack ((List.finRange 8).map (fun n => (n.1, bit s.tdc.ch[n].dllLock)) ++ [(8, bit s.tdc.tbPresent), (9, bit s.tdc.f1Present), (24, calAge s)])
  else if o = 8 then pack [(0, s.tdc.tbNom), (2, bit s.tdc.tbEn)]
  else if o = 0xC then pack [(0, s.tdc.calPeriod)]
  else
    match group? o 0x100 0x20 8 with
    | some (n, g) =>
      let c := tdcCh s n
      if g = 0 then c.cfg
      else if g = 4 then w32 c.timeout
      else if g = 8 then w32 c.count
      else if g = 0xC then w32 (twos 32 c.shadow.value)
      else if g = 0x10 then w32 (bits (twos 48 c.shadow.value) 47 32)
      else if g = 0x14 then (if c.shadowValid then c.shadow.flags ||| 1#32 else 0#32)
      else if g = 0x18 then pack [(0, bit c.busy), (4, c.fifo.length)]
      else if g = 0x1C then w32 (twos 16 c.skew)
      else 0#32
    | none => 0#32

/-! ## Commands (08 R178, R179) -/

/-- A code of the table "Meter sources". -/
def tdcSource (v : Nat) : Bool := decide (v ≤ 0x0A) || within v 0x10 0x1F || within v 0x20 0x25

/-- The general channel a byte names. -/
def generalCh (v : BitVec 8) : Option (Fin 8) := if v = 6#8 then some 6 else if v = 7#8 then some 7 else none

/-- Channel 6 is held by `ICP_OUT_CALIBRATE` (08 R171). -/
def ch6Busy (s : State) (v : BitVec 8) : Bool := v == 6#8 && s.tdc.ch6Held

/-- `ICP_TDC_CONFIG`. -/
def execIcpTdcConfig (c : CmdRef) (a : TdcArgs) (s : State) : Out :=
  let freq := a.mode == 2#8
  icpDo c 0x420
    (fun s => [
      (a.rsv || (generalCh a.ch).isNone, stBadArg),
      (decide (2 < a.mode.toNat) || !tdcSource a.start.toNat || !tdcSource a.stop.toNat || a.start == 0#8 || (a.stop == 0#8 && !freq) ||
        (a.start == a.stop && a.startFall == a.stopFall), stBadArg),
      (a.timeout == 0#32 || (a.n == 0#32 && freq), stBadArg),
      (decide (2000000 < a.timeout.toNat) || decide (16777215 < a.n.toNat), stRange),
      (ch6Busy s a.ch, stBusy)])
    (fun s => match generalCh a.ch with
      | some n => onCh n (fun c => { c with cont := a.cont, irq := a.irq, startFall := a.startFall, stopFall := a.stopFall, timeout := a.timeout.toNat, count := a.n.toNat })
          (tdcSet n (fun c => { c with mode := a.mode.toNat, startSrc := a.start.toNat, stopSrc := a.stop.toNat, tbInternal := a.internal }) s)
      | none => s)
    (fun _ => []) s

/-- `ICP_TDC_MEASURE`: arms once and completes with the result (08 R178). -/
def execIcpTdcMeasure (c : CmdRef) (ch : BitVec 8) (rsv : Bool) (s : State) : Out :=
  icp c 0x421 (fun s =>
    match generalCh ch, (generalCh ch).bind measureIdx with
    | some n, some k =>
      if rsv then .done stBadArg [] s
      else if ch6Busy s ch || s.tdc.ch[n].arm || s.tdc.measure[k].isSome then .done stBusy [] s
      else if s.tdc.ch[n].armBad then .done stBadArg [] s
      else .later (tdcArm n { s with tdc := { s.tdc with measure := s.tdc.measure.set k.1 (some c) } })
    | _, _ => .done stBadArg [] s) s

/-- `ICP_TDC_TIMEBASE`. -/
def execIcpTdcTimebase (c : CmdRef) (enable code : BitVec 8) (rsv : Bool) (s : State) : Out :=
  icpDo c 0x422
    (fun _ => [(rsv || decide (1 < enable.toNat), stBadArg), (decide (3 < code.toNat), stRange)])
    (fun s =>
      let s1 : State := { s with tdc := { s.tdc with tbEn := enable == 1#8, tbNom := code.toNat } }
      if enable = 1#8 then s1 else tbPresence false s1)
    (fun _ => []) s

/-- `ICP_TDC_CAL_CONFIG`. -/
def execIcpTdcCalConfig (c : CmdRef) (period : BitVec 16) (rsv : Bool) (s : State) : Out :=
  icpDo c 0x423
    (fun _ => [(rsv || period == 0#16, stBadArg), (decide (3600 < period.toNat), stRange)])
    (fun s => { s with tdc := { s.tdc with calPeriod := period.toNat } })
    (fun _ => []) s

/-- `ICP_TDC_SKEW`. -/
def execIcpTdcSkew (c : CmdRef) (ch : BitVec 8) (skew : BitVec 32) (rsv : Bool) (s : State) : Out :=
  icpDo c 0x424
    (fun _ => [(rsv || decide (7 < ch.toNat), stBadArg), (beyond skew.toInt 32767, stRange)])
    (fun s => match fin? 8 ch.toNat with
      | some n => onCh n (fun c => { c with skew := skew.toInt }) s
      | none => s)
    (fun _ => []) s

/-- `ICP_TDC_STATUS`. -/
def execIcpTdcStatus (c : CmdRef) (s : State) : Out :=
  icpGet c 0x425 (fun s => viewBytes roTdc s c.slot
    ([0x60004, 0x60008, 0x6000C] ++ (List.range 8).map fun n => 0x60118 + 0x20 * n)) s

end Sys2Proof.Machine
end

