-- ==== Sys2Proof/Machine/Select.lean ====
section
/-!
DEFINITION. Selection, Switchback, steps and Lantern (05); the slot evaluation with the selection it makes, the other events of
the reference slots, and the SIGN block's registers and commands (04, 05).
-/
namespace Sys2Proof.Machine
open Sys2Proof

/-! ## UTC of a reference (03 R57) -/

/-- LEAP_AT of a leap that a flag names at TAI second `t`: the end of the present UTC day, the announced leap's while it is
less than a day away, and for a day after it the leap of that kind applied last. DESIGN CHOICE: a PTP or ToD flag states no
LEAP_AT (log 169). -/
def leapAtOf (s : State) (t : Nat) (offset : Int) (k : LeapKind) : Nat :=
  match s.time.lastLeap.filter fun l => l.kind == k && decide (l.leapAt ≤ t) && decide (t < l.leapAt + 86400) with
  | some l => l.leapAt
  | none =>
    if s.time.leap == some k && decide (t < s.time.leapAt) && decide (s.time.leapAt ≤ t + 86401) then s.time.leapAt
    else ((((t : Int) - offset) / 86400 + 1) * 86400 + offset + leapStep k).toNat

/-- The leap that two flags announce. -/
def leapFlag (l61 l59 : Bool) : Option LeapKind := if l61 then some .leap61 else if l59 then some .leap59 else none

/-- Offset and announcement that a slot's reference states. -/
def slotUtc (s : State) (n : Fin 12) : Option (Int × Option (Nat × LeapKind)) :=
  if n.1 == 0 then
    (if s.gnss.feed.utcValid && s.gnss.solAge != 0xFFFF then
      some (s.gnss.feed.utcOffset, (leapFlag s.gnss.feed.leap61 s.gnss.feed.leap59).map fun k => (s.gnss.feed.leapAt, k))
     else none)
  else if isPps n then (if s.sign.slots[n].todSel = 0 then none else s.sign.slots[n].utc)
  else if isPtp n then (bestCand s n).map fun c =>
    (c.utcOffset, (leapFlag c.leap61 c.leap59).map fun k => (leapAtOf s (secNow s) c.utcOffset k, k))
  else none

/-- A reference's UTC message: the selected one is adopted, a differing one of a QUALIFIED slot is counted. -/
def utcFrom (n : Fin 12) (s : State) : State :=
  match slotUtc s n with
  | none => s
  | some (o, ann) =>
    if s.sign.sel == some n then adoptUtc o ann s
    else if s.sign.slots[n].state == .qualified && !s.time.utcManual && s.time.utcKnown && o != s.time.utcOffset then
      { s with time := { s.time with utcMismatch := s.time.utcMismatch + 1 } }
    else s

/-! ## The selection rule (05 R103-R107) -/

/-- A slot is eligible (05 R103). -/
def eligible (s : State) (n : Fin 12) : Bool :=
  let q := s.sign.slots[n]
  qualModes s.sys.mode && isTime n && q.barWith == 0#12 && (n.1 != 11 || s.sys.mode == .standby) &&
  (q.state == .qualified || q.state == .selected || (q.state == .disputed && q.kept && s.sign.sel == some n))

/-- The eligible slot of lowest rank; PREF, then the lowest number, among equal ranks. -/
def bestSlot (s : State) : Option (Fin 12) :=
  (List.finRange 12).foldl (fun best n =>
    if !eligible s n then best
    else match best with
      | none => some n
      | some m =>
        if s.sign.slots[n].rank < s.sign.slots[m].rank ||
            (s.sign.slots[n].rank = s.sign.slots[m].rank && s.sign.pref == some n) then some n else best) none

/-- PREF has stayed QUALIFIED for REVERT_WAIT evaluations after the one at which it became QUALIFIED (05 R105). -/
def revertDue (s : State) (p : Fin 12) : Bool :=
  s.sign.revertive && s.sign.slots[p].state == .qualified && decide (s.sign.revertWait ≤ s.sign.slots[p].secsInState)

/-- Cause of a selection other than REF_PEER's and LOST, from none or on leaving STANDBY, else the branch's own. -/
def switchCause (s : State) (branch : Nat) : Nat :=
  if s.sign.sel.isNone then (if s.sign.lostInServe then 8 else 1)
  else if s.sign.sel == some 11 && s.sys.mode != .standby then 7
  else branch

/-- The procedure of R104: the slot to be selected and the cause of a switch to it. PREF itself is not left for a better slot
(05 R105); a switch to PREF is a REVERT where REVERTIVE is set (05 R106). -/
def choose (s : State) : Option (Fin 12) × Nat :=
  let curOk := s.sign.sel.elim false (eligible s)
  if s.sys.mode == .standby && eligible s 11 then (some 11, 6)
  else
    match s.sign.pref.filter fun p => eligible s p && (!curOk || s.sign.prefChanged || revertDue s p) with
    | some p => (some p, switchCause s (if s.sign.prefChanged then 5 else if s.sign.revertive then 3 else 2))
    | none =>
      match s.sign.sel.filter (eligible s) with
      | some c =>
        match bestSlot s with
        | some b =>
          if 0 < s.sign.upgradeMargin && s.sign.pref != some c && s.sign.slots[b].rank + s.sign.upgradeMargin ≤ s.sign.slots[c].rank then (some b, 4)
          else (some c, 0)
        | none => (some c, 0)
      | none =>
        match bestSlot s with
        | some b => (some b, switchCause s 2)
        | none => (none, 9)

/-- The phase error of a slot becomes the pull P, in place of any before it; where R111 asks for one, a step by P waits for its
boundary, at which P becomes 0 (05 R109, R111). -/
def setPull (n : Fin 12) (s : State) : State :=
  let ps := s.sign.slots[n].phase
  let stepModes := s.sys.mode == .provision || s.sys.mode == .acquire || s.sys.mode == .standby || s.sys.mode == .quiesce
  let step := stepModes && (!s.time.valid || decide (s.sign.acqStepMin * 1000 ≤ ps.natAbs))
  onSlot n (fun q => { q with meas := q.meas.map fun m => (m.1, ps) })
    { s with
      sign := { s.sign with p := ps * 1000000000 }
      time := { s.time with
        steps := s.time.steps.filter (·.cmd.isSome) ++ (if step then [{ offset := psU ps, wait := 1 }] else []) } }

/-- |P| and its sign in 0.25 ns, rounded away from zero. -/
def pullQuarters (p : Int) : Int := if 0 ≤ p then cdiv p.natAbs 250000000000 else -(cdiv p.natAbs 250000000000 : Nat)

/-- What Guyline notes at a return from holdover (06 R140). -/
def returnCheck (n : Fin 12) (s : State) : State :=
  let p := s.sign.slots[n].phase
  let exceeded := decide ((s.guy.lastHold + s.sign.slots[n].unc) * 250 < p.natAbs)
  let ret := satI 32 (pullQuarters (p * 1000000000))
  let s1 : State := { s with guy := { s.guy with ret := ret, retHold := s.guy.lastHold, modelExceeded := exceeded } }
  if exceeded then trail 0x16 (leI 4 ret ++ le 4 s.guy.lastHold) (raise 55 (sticky 0x302A0 0x40#32 s1)) else s1

/-- History bit of a switch cause in SIGN_SEL_HIST. -/
def switchBit (cause : Nat) : Word :=
  match cause with
  | 2 => 3#32
  | 3 => 5#32
  | 9 => 9#32
  | 4 => 0x81#32
  | _ => 1#32

/-- The slot left returns to QUALIFIED; its contributions count until SWB reaches 0 (05 R106, 03 R63). -/
def leaveSlot (n : Fin 12) (s : State) : State :=
  let s1 := onSlot n (fun q => { q with kept := false, contribTail := q.contrib }) s
  if s.sign.slots[n].state == .selected then slotMove n .qualified 0 s1 else s1

/-- A change of SIGN_STAT.SEL (05 R107). -/
def switchTo (new : Option (Fin 12)) (cause : Nat) (s : State) : State :=
  let cur := s.sign.sel
  let s1 := match cur with
    | some c => leaveSlot c s
    | none => s
  let s2 : State := { s1 with sys := { s1.sys with lockRun := 0 }, sign := { s1.sign with
    sel := new, selPrev := cur, swCause := cause, swCount := (s1.sign.swCount + 1) % 256, sinceSw := 0
    lostInServe := if new.isNone then s.sys.mode == .serve || s.sys.mode == .holdover else s1.sign.lostInServe } }
  let s3 := stickyFirst 0x40340 16 8 cause (sticky 0x40340 (switchBit cause) s2)
  let s4 := cairnEvent (guyBreak (raise 44 s3))
  match new with
  | none => raise 45 s4
  | some n =>
    let s5 := slotMove n .selected 0 (onSlot n (fun q => { q with contribTail := 0 }) s4)
    let s6 := if cause = 8 then returnCheck n s5 else s5
    let s7 := setPull n { s6 with time := { s6.time with selectedOnce := true } }
    match slotUtc s7 n with
    | some (o, ann) => adoptUtc o ann s7
    | none => s7

/-- Computes the selection (05 R104, R106). -/
def reselect (s : State) : State :=
  let c := choose s
  let s1 : State := { s with sign := { s.sign with prefChanged := false } }
  if c.1 == s.sign.sel then s1 else switchTo c.1 c.2 s1

/-- REF_PEER is a candidate only in STANDBY: at a mode change it enters QUALIFYING or MONITOR (04 R75). -/
def peerFollow (s : State) : State :=
  let q := s.sign.slots[11]
  if q.enable != 2 then s
  else if s.sys.mode == .standby then (if q.state == .monitor then requalify 11 0x41 s else s)
  else if q.state == .monitor || q.state == .disabled then s
  else slotMove 11 .monitor 0x01 (onSlot 11 slotForget s)

/-! ## Switchback (05 R109, R110) -/

/-- P set to a value; a pull that reaches 0 raises SWB_DONE and ends the contributions that count until then (03 R63). -/
def pullTo (p : Int) (s : State) : State :=
  let s1 : State := { s with sign := { s.sign with p := p } }
  if p = 0 && s.sign.p != 0 then raise 46 (sticky 0x40340 0x20#32 s1) else s1

/-- A different slot is selected and SWB is 0: contributions that only counted until then stop counting. -/
def tailsEnd (s : State) : State :=
  if s.sign.sel.isSome && s.sign.p = 0 then
    { s with sign := { s.sign with slots := updAll s.sign.slots fun _ q => { q with contribTail := 0 } } }
  else s

/-- Clips to ±`m`. -/
def clip (m v : Int) : Int := max (-m) (min v m)

/-- The phase errors the servo sees: measured error less the pull (05 R109). -/
def servoErrors (q : SignSlot) : List Int := q.meas.map fun m => m.1 - m.2

/-- SLEW for a phase movement in a period, 10^-21 s, rounded towards zero (05 R110). -/
def slewOf (m : Int) : Int := if 0 ≤ m then m * 2 ^ 32 / 10 ^ 12 else -(-m * 2 ^ 32 / 10 ^ 12)

/-- One steering period of Switchback: the pull shrinks by at most SLOPE x the period, the sum with the servo's correction is
clipped to SLOPE and committed as SLEW. Nothing is pulled without a selected slot, and SLEW is 0 in HOLDOVER (06 R130). -/
def swbPeriod (s : State) : State :=
  match s.sign.sel with
  | some n =>
    if s.sys.mode == .holdover then { s with time := { s.time with slewReg := 0 }, sign := { s.sign with clipped := false } }
    else
      let lim : Int := (s.sign.slope * 8388608 : Nat)
      let wait := s.time.steps.any (·.cmd.isNone)
      let red := if wait then 0 else clip lim s.sign.p
      let corr := Config.servo (servoErrors s.sign.slots[n]) s.time.incr
      let sum := clip lim (red + corr)
      let s1 := if wait || s.sign.p = 0 then s else pullTo (s.sign.p - red) s
      tailsEnd { s1 with
        time := { s1.time with slewReg := clampSlew (slewOf sum) }
        sign := { s1.sign with clipped := sum != red + corr } }
  | none => { s with time := { s.time with slewReg := 0 }, sign := { s.sign with clipped := false } }

/-! ## Steps (03 R54, 05 R113; 01 R14) -/

/-- Every launch frame whose slot lies at or after a tick is dropped with cause STEP. -/
def dropFrom (odo : Nat) (s : State) : State :=
  (List.finRange 4).foldl (fun s p => dropLaunch p 2 (fun e => decide (4 * odo ≤ e.d)) s) s

/-- Applies a step at the steering boundary the counter stands at. -/
def applyStep (r : StepReq) (s : State) : State :=
  let off : Int := match r.abs with
    | some a => (a : Int) - s.time.cnt
    | none => r.offset
  let ns := satI 64 (off / nsU)
  let s1 := dropFrom s.time.bOdo { s with
    time := { s.time with
      cnt := cntPlus s.time.cnt off, valid := true, stepped := true, landed := cntPlus s.time.cnt off % secU == 0 }
    cairn := { s.cairn with steppedSince := true }
    gnss := { s.gnss with steppedSince := true }
    sign := { s.sign with p := 0, repull := s.sign.repull || r.cmd.isSome } }
  let s2 := raise 8 (sticky 0x40340 0x40#32 (sticky 0x30004 2#32 s1))
  let s3 := cairnEvent (guyBreak (trail 0x20 (leI 8 ns ++ le 8 s.time.bOdo) s2))
  match r.cmd with
  | some c =>
    complete c 0x122 0 (le 8 s.time.bOdo ++ leI 8 ns)
      (if s.sys.mode == .serve || s.sys.mode == .holdover then permitClose s3 else s3)
  | none => s3

/-- The step moves the counter forward from a value. -/
def stepForward (cnt : Nat) (r : StepReq) : Bool :=
  match r.abs with
  | some a => decide (cnt < a)
  | none => decide (0 < r.offset)

/-- Why a step that is due is not applied (05 R111, R112, R122, R123): in SERVE and HOLDOVER only a command under an open permit
steps, and only forward; in BOOT and RECOVERY nothing does. -/
def stepBar (s : State) (r : StepReq) : Nat :=
  match s.sys.mode with
  | .serve | .holdover => if r.cmd.isNone || !s.sign.permit then stLocked else if stepForward s.time.cnt r then stOk else stOrder
  | .boot | .recovery => stMode
  | .provision | .acquire | .standby | .quiesce => stOk

/-- A step that is due: applied, or dropped with its command's completion. -/
def stepDue (r : StepReq) (s : State) : State :=
  if stepBar s r = stOk then applyStep r s
  else
    match r.cmd with
    | some c => complete c 0x122 (stepBar s r) [] s
    | none => s

/-- The steps due at a boundary; the others wait one boundary less. -/
def stepsAt (s : State) : State :=
  let due := s.time.steps.filter (·.wait == 0)
  let rest := (s.time.steps.filter (·.wait != 0)).map fun r => { r with wait := r.wait - 1 }
  due.foldl (fun s r => stepDue r s) { s with time := { s.time with steps := rest } }

/-! ## Lantern (05 R118, R119) -/

/-- The condition of a function code. -/
def lanternWant (s : State) (f : Nat) : Bool :=
  if f = 1 then true
  else if f = 2 then s.sys.mode == .serve
  else if f = 3 then s.sys.mode == .holdover
  else if f = 4 then s.guy.oos
  else if f = 5 then severeLine s || s.aon.fatalInForce
  else if f = 6 then s.foot.fbOwn
  else if f = 7 then s.sign.slots.toList.any fun q => q.enable == 2 && (q.state == .softFail || q.state == .failed)
  else if f = 8 then s.sign.sel.isNone
  else if f = 9 then s.sign.p != 0
  else if f = 0xA then s.sign.slots.toList.any fun q => q.kept && q.state == .disputed
  else if within f 0x10 0x1B then
    (fin? 12 (f - 0x10)).elim false fun n => s.sign.slots[n].state == .softFail || s.sign.slots[n].state == .failed
  else if within f 0x20 0x2B then s.sign.sel.elim false fun n => n.1 == f - 0x20
  else if within f 0x30 0x37 then modeCode s.sys.mode == f - 0x30
  else false

/-- A function code is one of the table's. -/
def lanternCode (f : Nat) : Bool := decide (f ≤ 0xA) || within f 0x10 0x1B || within f 0x20 0x2B || within f 0x30 0x37

/-- Drives every pin at a steering boundary; settings waiting take effect first. Before firmware has applied its configuration
only ALARM and LEASE_HELD are driven. -/
def lanternAll (s : State) : State :=
  let pins := s.sign.lanternPending.getD s.sign.lantern
  { s with sign := { s.sign with
      lanternPending := none
      lantern := updAll pins fun _ l =>
        if s.sys.mgmtFwRunning || l.func = 5 || l.func = 6 then l.drive (lanternWant s l.func) else { l with level := false } } }

/-! ## READY of a standby unit (15 R342, R344) -/

/-- READY changes: its loss while REF_PEER is SELECTED latches FB_TRACK, and before H - 1 ms aborts a handover. -/
def readySet (b : Bool) (s : State) : State :=
  if s.foot.ready = b then s
  else
    let s1 : State := { s with foot := { s.foot with ready := b } }
    if b then s1
    else
      let s2 := if s.sign.sel == some 11 then faultEvent 42 s1 else s1
      if s.foot.hAccepted && beforeH s then
        handoverFlag (sendFrame 4 false { s2 with foot := { s2.foot with hAccepted := false } })
      else s2

/-- The conditions of READY, which a STANDBY unit sets (15 R342). -/
def readyLive (s : State) : Bool := s.sys.mode == .standby && decide (10 ≤ s.foot.readyRun) && s.sign.p = 0 && !severeLine s

/-- READY's first condition at an evaluation. -/
def readyEval (s : State) : State :=
  let xs := lastXs s s.foot.xs
  let sum := (xs.map (·.2.natAbs)).sum
  let ok := s.foot.en && s.sign.sel == some 11 && !xs.isEmpty && decide (sum ≤ s.foot.readyPs * xs.length)
  let s1 : State := { s with foot := { s.foot with readyRun := if ok then s.foot.readyRun + 1 else 0 } }
  readySet (readyLive s1) s1

/-! ## Events -/

/-- Ages and windows of a second: the GNSS solution, the last switch (before the first, the evaluations since reset; DESIGN
CHOICE, log 175), STEP_PERMIT, the judge. -/
def rollSecond (s : State) : State :=
  { s with
    gnss := { s.gnss with solAge := satU 16 (s.gnss.solAge + 1) }
    sign := { s.sign with
      sinceSw := satU 16 (s.sign.sinceSw + 1), permitLeft := s.sign.permitLeft - 1
      judgePrev := s.guy.atom.valid } }

/-- Every slot's measurement of the second, the path steps, the guard and the comparisons. -/
def evalMeasure (f : Int × Int) (s : State) : State × Vector Bool 12 :=
  let s1 : State := { s with sign := { s.sign with
    slots := updAll s.sign.slots fun n q => slotMeasure s f n q } }
  let r := updAll s1.sign.slots fun n q => if isPtp n && enableOf s1 n != 0 then slotStep s1 q else (q, false)
  let s2 : State := { s1 with sign := { s1.sign with slots := r.map (·.1) } }
  (agreeEval (pairsEval (guardEval (s2.sign.slots[0].fly.headD 0) s2)), r.map (·.2))

/-- After the states are settled: the guard arms, the selection is made, a step's pull is taken again (05 R106, R113). -/
def evalSelect (s : State) : State :=
  let s1 := reselect (guardArm s)
  let s2 := match s1.sign.sel with
    | some n => if s1.sign.repull && s1.sign.sel == s.sign.sel then setPull n s1 else s1
    | none => s1
  { s2 with
    sign := { s2.sign with repull := false }
    time := { s2.time with refTs := if s2.sign.sel.isSome then cntAt s2 (s2.time.bOdo + 65536) else s2.time.refTs } }

/-- SLOT_EVALUATION: once per second, at the first steering boundary after the boundary of TIME_SEC (04 R77). -/
def execSlotEvaluation (f0 f1 : Int) (s : State) : Out :=
  if !timeUp s || !qualModes s.sys.mode then .next s
  else
    let m := evalMeasure (f0, f1) s
    let s1 := (List.finRange 12).foldl (fun s n => decideSlot n m.2[n] s) m.1
    .next (readyEval (evalSelect (rollSecond s1)))

/-- A slot whose timer stands at 0 and whose check is over becomes QUALIFIED (04 R87, R97). -/
def qualifyNow (n : Fin 12) (s : State) : State :=
  let q := s.sign.slots[n]
  if candidate s n && q.state == .qualifying && q.timerRun && q.timer = 0 && q.asymCheck.isNone && q.loss = 0 && softOf s q = 0 then
    slotMove n .qualified 0 s
  else s

/-- HOLDOFF_EXPIRY: the timer has reached 0 with no check running; the selection of that evaluation follows (04 R87). -/
def execHoldoffExpiry (n : Fin 12) (s : State) : Out :=
  .next (if timeUp s && qualModes s.sys.mode then evalSelect (qualifyNow n s) else s)

/-- REVERT_WAIT_EXPIRY: PREF has waited and is selected (05 R105). -/
def execRevertWaitExpiry (s : State) : Out :=
  .next (if timeUp s && s.sign.pref.elim false (fun p => eligible s p && revertDue s p) then reselect s else s)

/-- One slot's drift window (04 R90): 10^-15 against limits of 10^-12. -/
def driftSlot (s : State) (y : Int) (q : SignSlot) : SignSlot :=
  let watched := q.state == .qualified || q.state == .selected || (q.state == .softFail && q.driftBad != 0)
  let bad := if s.sign.driftY * 1000 < y.natAbs then 0x21
    else match q.driftPrev with
      | some p => if s.sign.driftRate * 1000 < (y - p).natAbs then 0x22 else 0
      | none => 0
  if !watched then { q with driftArmed := false, driftPrev := none }
  else if !q.driftArmed then { q with driftArmed := s.guy.main.valid || s.guy.atom.valid, driftPrev := none }
  else { q with drift := satI 32 y, driftPrev := some y, driftBad := bad }

/-- DRIFT_WINDOW_END: the verdict on each slot; one against the selected slot condemns what Guyline holds (04 R90, R91). -/
def execDriftWindowEnd (d : DriftIn) (s : State) : Out :=
  if !timeUp s then .next s
  else
    let s1 : State := { s with sign := { s.sign with slots := updAll s.sign.slots fun n q => driftSlot s d.y[n] q } }
    .next (match s1.sign.sel with
      | some n => if s1.sign.slots[n].driftBad != 0 && s.sign.slots[n].driftArmed then condemn s1 else s1
      | none => s1)

/-- δ exceeds the larger of 0.25 x |Δ| and 4 x NOISE_UNC (04 R97); both sides times 4 x the number of offsets. -/
def asymmetric (q : SignSlot) (k : AsymCheck) : Bool :=
  let n := k.offsets.length
  decide (max k.stepPs.natAbs (4 * (4 * q.noiseUnc * 250)) * n < 4 * (k.offsets.sum - n * k.before).natAbs)

/-- ASYM_CHECK_END: PATH_ASYM, or no verdict (04 R97). -/
def execAsymCheckEnd (n : Fin 12) (s : State) : Out :=
  match s.sign.slots[n].asymCheck with
  | none => .next s
  | some k =>
    if k.left != 0 then .next s
    else if asymmetric s.sign.slots[n] k then
      let s1 := onSlot n (fun q => { q with asymCheck := none, pathAsym := true }) s
      .next (if s1.sign.slots[n].state == .qualifying then evalSelect (slotMove n .softFail (softOf s1 s1.sign.slots[n]) s1) else s1)
    else .next (onSlot n (fun q => { q with asymCheck := none }) s)

/-- CRC-16 with polynomial 0x1021 and initial value 0xFFFF, not reflected (07 R152). -/
def crc16 (bs : List Byte) : Nat :=
  bs.foldl (fun c b => (List.range 8).foldl (fun c i =>
    let top := (c / 32768 + b.toNat / 2 ^ (7 - i)) % 2
    (c * 2 % 65536) ^^^ (if top = 1 then 0x1021 else 0)) c) 0xFFFF

/-- Framing of a ToD message (07 R152). -/
def todFrameOk (bs : List Byte) : Bool :=
  bs.length == 20 && bs.take 4 == [0x5A#8, 0xA5#8, 0x01#8, 20#8] && leVal (bs.drop 18) == crc16 (bs.take 18)

/-- The TAI label of a message: in the UTC scale its offset is added, and one more second in the leap second (07 R153). -/
def todLabel (bs : List Byte) : Nat :=
  let secs := leVal ((bs.drop 4).take 6)
  let scale := (bs.getD 10 0#8).toNat
  if scale % 2 = 0 then secs
  else ((secs : Int) + sgn 16 (leVal ((bs.drop 12).take 2)) + bits scale 3 3).toNat

/-- An accepted ToD message in its slot (04 R74, R80). -/
def todAccept (s : State) (bs : List Byte) (q : SignSlot) : SignSlot :=
  let scale := (bs.getD 10 0#8).toNat
  let ofs := sgn 16 (leVal ((bs.drop 12).take 2))
  let label := todLabel bs
  { q with
    label := label, labelled := true
    phase := q.edges.head?.elim q.phase fun sec => inSecond q.phase + ((label : Int) - sec) * secPs
    qmsg := (bs.getD 11 0#8).setWidth 16, qUnknown := false
    utc := some (ofs, (leapFlag (bits scale 1 1 == 1) (bits scale 2 2 == 1)).map fun k => (leapAtOf s label ofs k, k)) }

/-- The slot a ToD line is paired with (04 R73). -/
def todSlot (s : State) (line : Fin 2) : Option (Fin 12) :=
  (List.finRange 12).find? fun n => isPps n && s.sign.slots[n].todSel == line.1 + 1

/-- TODIN_MESSAGE: `ms` after the edge of its slot (04 R74). -/
def execTodinMessage (line : Fin 2) (ms : Nat) (bytes : List Byte) (s : State) : Out :=
  if !timeUp s then .next s
  else if !todFrameOk bytes then .next (sticky 0x50004 0x100#32 { s with mile := { s.mile with todBad := s.mile.todBad + 1 } })
  else match todSlot s line with
    | none => .next s
    | some n =>
      if ms < 10 || 900 < ms then .next (onSlot n (fun q => { q with todLate := q.todLate + 1 }) s)
      else if s.sign.slots[n].labelled then .next (onSlot n (fun q => { q with todDup := q.todDup + 1 }) s)
      else .next (utcFrom n (onSlot n (todAccept s bytes) s))

/-- TOD_QUALITY_TIMEOUT: no valid message for 5 s (04 R74). -/
def execTodQualityTimeout (n : Fin 12) (s : State) : Out :=
  .next (if isPps n && s.sign.slots[n].todSel != 0 then onSlot n (fun q => { q with qUnknown := true }) s else s)

/-- STEP_PERMIT_EXPIRY: the window is over (05 R114). -/
def execStepPermitExpiry (s : State) : Out := .next (if s.sign.permit && s.sign.permitLeft = 0 then permitClose s else s)

/-- LANTERN_HOLD_EXPIRY: the stretch ends and the pin takes its level (05 R119). -/
def execLanternHoldExpiry (pin : Fin 4) (s : State) : Out :=
  .next { s with sign := { s.sign with lantern := upd s.sign.lantern pin fun l =>
    if l.holding then { l with holding := false, level := l.want != l.inv } else l } }

/-! ## Registers (04, 05 R121) -/

/-- SIGN_SLOTn_STAT to SIGN_SLOTn_QMSG. -/
def roSlot (s : State) (n : Fin 12) (o : Nat) : Word :=
  let q := s.sign.slots[n]
  match o with
  | 0x00 => pack [(0, slotCode q.state), (4, q.rank), (8, q.cause), (16, q.lastCause), (24, bit q.kept), (25, bit q.present),
      (26, bit (isTime n)), (27, bit (aided s q)), (28, bit q.driftArmed)]
  | 0x04 => w32 q.unc
  | 0x08 => w32 (twos 32 (quarter q.phase))
  | 0x0C => w32 (twos 32 q.freq)
  | 0x10 => w32 (twos 32 q.drift)
  | 0x14 => pack [(0, q.timer), (16, q.secsInState)]
  | 0x18 => pack [(0, q.disp.toNat), (16, q.judge)]
  | 0x1C => qmsgWord s n
  | _ => 0#32

/-- Evaluations REVERT_WAIT still asks for. -/
def revertLeft (s : State) : Nat :=
  match s.sign.pref with
  | some p => if s.sign.revertive && s.sign.slots[p].state == .qualified then s.sign.revertWait - s.sign.slots[p].secsInState else 0
  | none => 0

/-- SIGN_LANTERNk. -/
def roLantern (l : Lantern) : Word := pack [(0, l.func), (8, bit l.inv), (9, bit l.level), (16, l.minHold)]

/-- The SIGN block without its sticky fields. -/
def roSign (s : State) (_rd o : Nat) : Word :=
  if !powered s 1 then 0#32
  else match group? o 0x100 0x20 12 with
    | some (n, g) => roSlot s n g
    | none =>
      match o with
      | 0x00 => lkWord s 4
      | 0x04 => pack ((List.finRange 12).map (fun n => (n.1, bit (s.sign.slots[n].state == .qualified || s.sign.slots[n].state == .selected))) ++
          [(16, selCode 0xF s), (20, bit s.guy.atom.valid)])
      | 0x08 => pack [(0, s.sign.pref.elim 0xF (·.1)), (4, bit s.sign.revertive), (8, s.sign.selPrev.elim 0xF (·.1)),
          (12, s.sign.upgradeMargin), (16, s.sign.swCause), (24, s.sign.swCount)]
      | 0x0C => pack [(0, revertLeft s), (16, s.sign.sinceSw)]
      | 0x10 => w32 (twos 32 (satI 32 (pullQuarters s.sign.p)))
      | 0x14 => w32 s.sign.slopeNext
      | 0x18 => w32 s.sign.acqStepMin
      | 0x1C => pack [(0, bit (s.sign.p != 0)), (1, bit (decide (0 < s.sign.p))), (2, bit s.sign.permit), (3, bit s.sign.clipped),
          (16, s.sign.permitLeft)]
      | 0x20 => roLantern s.sign.lantern[0]
      | 0x24 => roLantern s.sign.lantern[1]
      | 0x28 => roLantern s.sign.lantern[2]
      | 0x2C => roLantern s.sign.lantern[3]
      | _ => 0#32

/-! ## Commands (04 R101, R102; 05 R122, R123) -/

/-- The counter at the second steering boundary from now, at which a commanded step is applied. -/
def cntStep (s : State) : Nat :=
  cntPlus (cntAt s (s.time.bOdo + 65536)) (65536 * ((s.time.incrNext : Int) + s.time.slewNext))

/-- The step a command asks for. -/
def stepOf (c : CmdRef) (a : TimeStepArgs) : StepReq :=
  if a.kind == 0#8 then
    { offset := a.offsetNs.toInt * 2 ^ 48 + (a.fraction.toNat * 2 ^ 32 : Nat), cmd := some c }
  else { abs := some (a.sec.toNat * secU + a.ns.toNat * nsU + a.frac.toNat * 2 ^ 32), cmd := some c }

/-- `ICP_TIME_STEP`: completes when the step has been applied. -/
def execIcpTimeStep (c : CmdRef) (a : TimeStepArgs) (s : State) : Out :=
  icp c 0x122 (fun s =>
    let r := stepOf c a
    let served := s.sys.mode == .serve || s.sys.mode == .holdover
    let st := firstFail [
      (a.rsv || decide (1 < a.kind.toNat) || (a.kind == 0#8 && r.offset == 0) || (a.kind == 1#8 && decide (999999999 < a.ns.toNat)), stBadArg),
      (served && !s.sign.permit, stLocked),
      (served && !stepForward (cntStep s) r, stOrder)]
    if st = stOk then .later { s with time := { s.time with steps := s.time.steps ++ [r] } } else .done st [] s) s

/-- `ICP_STEP_PERMIT`. -/
def execIcpStepPermit (c : CmdRef) (window : BitVec 16) (rsv : Bool) (s : State) : Out :=
  icpDo c 0x123 (fun _ => [(rsv, stBadArg), (decide (600 < window.toNat), stRange)])
    (fun s => { s with sign := { s.sign with permit := window != 0#16, permitLeft := window.toNat } })
    (fun _ => []) s

/-- The enable of a slot takes effect at once (04 R100). -/
def enableSlot (n : Fin 12) (en : Nat) (s : State) : State :=
  let s1 := onSlot n (fun q => { q with enable := en }) s
  if s.sign.slots[n].enable = en then s1
  else slotSettle (
    if en = 0 then slotDisable n 0x01 s1
    else if candidate s1 n then requalify n 0x42 (onSlot n slotForget s1)
    else slotMove n .monitor 0x01 (onSlot n slotForget s1))

/-- `ICP_REF_CONFIG`. -/
def execIcpRefConfig (c : CmdRef) (a : RefConfigArgs) (s : State) : Out :=
  icpDo c 0x200
    (fun s => [
      (a.rsv || decide (11 < a.slot.toNat) || decide (2 < a.enable.toNat) || a.holdoff == 0#16 ||
        (a.slot == 11#8 && a.enable != 0#8 && !s.foot.en), stBadArg),
      (decide (3600 < a.holdoff.toNat) || decide (14 < a.qualRankMax.toNat) || decide (15 < a.rankFloor.toNat), stRange),
      (a.slot == 0#8 && a.enable != 0#8 && !powered s 8, stOrder)])
    (fun s => (fin? 12 a.slot.toNat).elim s fun n =>
      enableSlot n a.enable.toNat (onSlot n (fun q => { q with
        holdoff := a.holdoff.toNat, instUnc := a.instUnc.toNat, noiseUnc := a.noiseUnc.toNat, rankFloor := a.rankFloor.toNat
        qualRankMax := a.qualRankMax.toNat
        timer := if q.state == .qualifying && !q.timerRun then a.holdoff.toNat else q.timer }) s))
    (fun _ => []) s

/-- Disagreements, measurements and windows start afresh with a new configuration. -/
def slotRestart (q : SignSlot) : SignSlot :=
  { q with pairCause := 0, agree := 0, jointWith := 0#12, dispWith := 0#12, disp := 0#12, cmpRun := 0, meas := [] }

/-- A slot that is measured as a candidate enters QUALIFYING with cause CONFIG (04 R100). -/
def configured (n : Fin 12) (s : State) : State :=
  let st := s.sign.slots[n].state
  if st == .disabled || st == .monitor then s else slotSettle (requalify n 0x42 (onSlot n slotRestart s))

/-- `ICP_REF_PPS_INPUT`. -/
def execIcpRefPpsInput (c : CmdRef) (a : RefPpsArgs) (s : State) : Out :=
  let cable := a.cable.toInt
  icpDo c 0x201
    (fun s => [
      (a.rsv || outside a.slot.toNat 1 4 || decide (1 < a.input.toNat) || decide (1 < a.edge.toNat) || decide (2 < a.todSel.toNat) ||
        decide (2 < a.freqSel.toNat) ||
        ((List.finRange 12).any fun m => isPps m && m.1 != a.slot.toNat &&
          ((a.todSel != 0#8 && s.sign.slots[m].todSel == a.todSel.toNat) ||
           (a.freqSel != 0#8 && s.sign.slots[m].freqSel == a.freqSel.toNat))), stBadArg),
      (outside a.ppsWin.toNat 1 100000 || beyond cable 10000000 || decide (7 < a.baud.toNat), stRange)])
    (fun s => (fin? 12 a.slot.toNat).elim s fun n =>
      let q := s.sign.slots[n]
      let tod := q.todSel != a.todSel.toNat
      let changed := tod || q.freqSel != a.freqSel.toNat || q.input != (a.input == 1#8) || q.edgeFall != (a.edge == 1#8) || q.cable != cable
      let s1 := onSlot n (fun q => { q with
        input := a.input == 1#8, edgeFall := a.edge == 1#8, todSel := a.todSel.toNat, freqSel := a.freqSel.toNat
        todBaud := a.baud.toNat, ppsWin := a.ppsWin.toNat, cable := cable
        qUnknown := q.qUnknown || tod, qmsg := if tod then 0#16 else q.qmsg, utc := if tod then none else q.utc
        labelBad := if tod then 0 else q.labelBad, labelGood := if tod then 0 else q.labelGood
        todMismatch := q.todMismatch && !tod }) s
      if changed then configured n s1 else s1)
    (fun _ => []) s

/-- `ICP_REF_THRESH`. -/
def execIcpRefThresh (c : CmdRef) (a : RefThreshArgs) (s : State) : Out :=
  icpDo c 0x202
    (fun _ => [
      (a.rsv || a.freqWin == 0#32 || a.freqWinCold == 0#32 || a.driftY == 0#32 || a.driftRate == 0#32 || a.disagree == 0#32 ||
        a.compareWin == 0#16 || a.pathStep == 0#32, stBadArg),
      (decide (100000 < a.freqWin.toNat) || outside a.freqWinCold.toNat 100 500000 || decide (100000 < a.driftY.toNat) ||
        decide (100000 < a.driftRate.toNat) || decide (1000000 < a.disagree.toNat) || outside a.compareWin.toNat 10 10000 ||
        outside a.pathStep.toNat 10 100000, stRange)])
    (fun s => { s with sign := { s.sign with
      freqWin := a.freqWin.toNat, freqWinCold := a.freqWinCold.toNat, driftY := a.driftY.toNat, driftRate := a.driftRate.toNat
      disagree := a.disagree.toNat, compareWin := a.compareWin.toNat, pathStepNs := a.pathStep.toNat
      slots := if s.sign.compareWin = a.compareWin.toNat then s.sign.slots
        else updAll s.sign.slots fun _ q => { q with cmpRun := 0 } } })
    (fun _ => []) s

/-- `ICP_REF_STATUS`: SIGN_STAT and the registers of the twelve slots. -/
def execIcpRefStatus (c : CmdRef) (s : State) : Out :=
  icpGet c 0x203 (fun s => viewBytes roSign s c.slot (0x40004 :: regRun 0x40100 96)) s

/-- `ICP_REF_CLEAR`: of a slot in SOFT_FAIL under a latched condition. -/
def execIcpRefClear (c : CmdRef) (slot : BitVec 8) (rsv : Bool) (s : State) : Out :=
  icpDo c 0x204 (fun _ => [(rsv || decide (11 < slot.toNat), stBadArg)])
    (fun s => (fin? 12 slot.toNat).elim s fun n =>
      let q := s.sign.slots[n]
      if q.state == .softFail && (q.pathAsym || q.phaseJump) then
        slotSettle (requalify n 0x41 (onSlot n (fun q => { q with
          pathAsym := false, phaseJump := false, outOfWin := 0, contrib := 0, contribTail := 0 }) s))
      else s)
    (fun _ => []) s

/-- `ICP_REF_ASYM`. -/
def execIcpRefAsym (c : CmdRef) (slot : BitVec 8) (comp unc : Word) (rsv : Bool) (s : State) : Out :=
  icpDo c 0x205 (fun _ => [(rsv || outside slot.toNat 9 10, stBadArg)])
    (fun s => (fin? 12 slot.toNat).elim s fun n =>
      configured n (onSlot n (fun q => { q with
        asymComp := comp.toInt, asymUnc := unc.toNat, pathAsym := false, contrib := 0, contribTail := 0, asymCheck := none }) s))
    (fun _ => []) s

/-- `ICP_SEL_CONFIG`. DESIGN CHOICE: PREF_CHANGED is set also by a command that names the preferred slot again, as the worked
example of 05 has it (log 175). -/
def execIcpSelConfig (c : CmdRef) (a : SelConfigArgs) (s : State) : Out :=
  let named := decide (a.pref.toNat ≤ 4) || a.pref == 9#8 || a.pref == 10#8
  icpDo c 0x206
    (fun _ => [(a.rsv || decide (1 < a.revertive.toNat) || !(named || a.pref == 0xFF#8), stBadArg),
      (decide (3600 < a.revertWait.toNat) || decide (15 < a.upgradeMargin.toNat), stRange)])
    (fun s =>
      let p := if named then fin? 12 a.pref.toNat else none
      { s with sign := { s.sign with
          pref := p, revertive := a.revertive == 1#8, revertWait := a.revertWait.toNat, upgradeMargin := a.upgradeMargin.toNat
          prefChanged := s.sign.prefChanged || p.isSome || p != s.sign.pref } })
    (fun _ => []) s

/-- `ICP_SWB_CONFIG` (05 R115). -/
def execIcpSwbConfig (c : CmdRef) (slope acq : Word) (s : State) : Out :=
  icpDo c 0x207
    (fun _ => [(slope == 0#32 || acq == 0#32, stBadArg), (decide (100000 < slope.toNat) || decide (1000000 < acq.toNat), stRange)])
    (fun s => { s with sign := { s.sign with slopeNext := slope.toNat, acqStepMin := acq.toNat } })
    (fun _ => []) s

/-- `ICP_LANTERN_CONFIG`: applied at the next steering boundary. DESIGN CHOICE: every pin's MIN_HOLD stretch starts anew (log
175). -/
def execIcpLanternConfig (c : CmdRef) (a : LanternArgs) (s : State) : Out :=
  icpDo c 0x440
    (fun _ => [(a.rsv || a.pins.toList.any (fun p => !lanternCode p.1.toNat), stBadArg),
      (a.pins.toList.any (fun p => decide (1000 < p.2.2.toNat)), stRange)])
    (fun s => { s with sign := { s.sign with
      lanternPending := some (updAll s.sign.lantern fun i l =>
        { l with func := a.pins[i].1.toNat, inv := a.pins[i].2.1, minHold := a.pins[i].2.2.toNat, holding := false, want := false }) } })
    (fun _ => []) s

end Sys2Proof.Machine
end

