-- ==== Sys2Proof/Machine/Outputs.lean ====
section
/-!
DEFINITION. Timing outputs and Milestone: what a second boundary and a step do to the outputs, ToD
messages, OE_TIMING, triggers and captures, their registers and commands (07).
-/
namespace Sys2Proof.Machine
open Sys2Proof

/-! ## What follows the mode (07 R149) -/

/-- Frequency outputs start and stop with the mode and their settings: a start is at the first rising edge at least half a
period away (07 R149). -/
def outFollow (s : State) : State :=
  let fs := updAll s.mile.freq fun _ f =>
    if freqWanted s f then
      (if f.run then f
       else { f with run := true, rephase := freqGrid f.hz (cntNow s + halfPeriod f.hz), lowStart := cntNow s, tailHigh := false })
    else { f with run := false, hz := f.hzNext.getD f.hz, hzNext := none }
  { s with mile := { s.mile with freq := fs } }

/-- The status bit OUT_SKIP (07 table "MILE_STAT"). -/
def skipSeen (s : State) : State := sticky 0x50004 0x80#32 s

/-- OUT_SKIP: the status bit and the interrupt (07 R148, R150). -/
def outSkip (s : State) : State := raise 72 (skipSeen s)

/-! ## A second boundary (07 R147, R148, R150, R151, R161) -/

/-- PPSOUT at a second boundary `t`: the edge is launched COMP early and stays for WIDTH; after a step a boundary less than
WIDTH + 1 us after the previous edge is skipped. Answers whether one was skipped. -/
def PpsOut.second (s : State) (t : Nat) (p : PpsOut) : PpsOut × Bool :=
  let pos := launchAt s t p.comp
  if !ppsRuns s p then (p, false)
  else if p.resync && (p.lastStart.elim false fun a => decide (pos < a + p.fine + usFine)) then (p, true)
  else ({ p with launch := pos, pulseEnd := some (pos + p.fine), lastStart := some pos, resync := false, edges := p.edges + 1 }, false)

/-- A change of F takes effect at the second boundary `t` (07 R150). Answers whether the output was re-phased. -/
def FreqOut.second (t : Nat) (f : FreqOut) : FreqOut × Bool :=
  match f.hzNext with
  | some g =>
    if f.run then
      let tail := decide (t < f.rephase)
      let low : Int := if tail then f.lowStart else t + halfPeriod f.hz
      ({ f with hz := g, hzNext := none, lowStart := low, tailHigh := !tail || f.tailHigh,
                rephase := freqGrid g (max (t : Int) (low + halfPeriod g)).toNat }, true)
    else ({ f with hz := g, hzNext := none }, false)
  | none => (f, false)

/-- The uncertainty code of a ToD message: the smallest k with 1.25 x 2^k ns at least the output's ERRB, 15 above 20.48 us
(06 table "Outputs by holdover state"). -/
def todCode (errb : Nat) : Nat := ((List.range 15).find? fun k => decide (errb ≤ 5 * 2 ^ k)).getD 15

/-- The status of a ToD message (07 R153). -/
def todStatus (s : State) : Nat :=
  match s.sys.mode with
  | .serve => 0
  | .holdover => if s.guy.oos then 2 else 1
  | _ => 3

/-- ERRB of the outputs (03 R64). -/
def errbOut (s : State) : Nat := if s.time.errb = 0xFFFFFFFF then 0xFFFFFFFF else errbPlus s.time.errb s.time.calUncOut

/-- The ToD message that labels second `sec` (07 R152, R153). -/
def todMessage (s : State) (utc : Bool) (sec : Nat) : List Byte :=
  let ofs := if s.time.leap.isSome && s.time.leapAt ≤ sec then s.time.utcOffset + (s.time.leap.elim 0 leapStep) else s.time.utcOffset
  let flag (k : LeapKind) : Bool := s.time.leap == some k && decide (sec < s.time.leapAt)
  let now := utc && flag .leap61 && s.time.leapAt == sec + 1
  let label := if utc then ((sec : Int) - utcOfsAt s sec).toNat else sec
  let e := errbOut s
  let body := [0x5A#8, 0xA5#8, 0x01#8, 20#8] ++ le 6 label ++
    [BitVec.ofNat 8 (bit utc + 2 * bit (flag .leap61) + 4 * bit (flag .leap59) + 8 * bit now),
     BitVec.ofNat 8 (todCode e + 16 * todStatus s)] ++ leI 2 ofs ++ le 4 e
  body ++ le 2 (crc16 body)

/-- What a second boundary `t` does to the outputs; a ToD message starts TOD_DELAY after it. -/
def outSecond (t : Nat) (s : State) : State :=
  let pps := updAll s.mile.pps fun _ p => p.second s t
  let freq := updAll s.mile.freq fun _ f => f.second t
  let tod := updAll s.mile.tod fun _ l =>
    if todRuns s l then { l with pending := some (t + l.delay * 1000000 * nsU, todMessage s l.utc (secOf t)) } else l
  let ep := s.mile.epochNext.getD (s.mile.epochRate, s.mile.epochEn)
  let s1 : State := { s with mile := { s.mile with
    pps := pps.map (·.1), freq := freq.map (·.1), tod := tod, epochRate := ep.1, epochEn := ep.2, epochNext := none, epochK := 0 } }
  let s2 := if s.mile.pps.toList.any (ppsRuns s) then raise 64 s1 else s1
  if pps.toList.any (·.2) || freq.toList.any (·.2) then outSkip s2 else s2

/-! ## A step (07 R148, R150, R155) -/

/-- A frequency output at a step from counter value `old` to `new`: the current level ends with its half-period, the restart
lies at least half a period after the low level began (07 R150). -/
def FreqOut.step (old new : Nat) (f : FreqOut) : FreqOut :=
  if !f.run then f
  else
    let r := old % secU
    let idx := r * (2 * f.hz) / secU
    let shift : Int := (new : Int) - old
    let low : Int :=
      if old < f.rephase then f.lowStart + shift
      else if idx % 2 = 0 then (new : Int) + ((cdiv ((idx + 1) * secU) (2 * f.hz) : Nat) : Int) - r
      else (new : Int) + ((idx * secU / (2 * f.hz) : Nat) : Int) - r
    { f with lowStart := low, tailHigh := if old < f.rephase then f.tailHigh else idx % 2 == 0,
             rephase := freqGrid f.hz (max (new : Int) (low + halfPeriod f.hz)).toNat }

/-- A PERIODIC_TIME channel at a step: it goes on at the first second boundary of the new counter value far enough from its last
edge. Answers whether an earlier boundary is skipped (07 R148, R155). -/
def EvtCh.step (s : State) (e : EvtCh) : EvtCh × Bool :=
  if !(e.armed && e.dir == 1 && e.kind == 2) then (e, false)
  else
    let b : Int := 256 * s.time.bOdo
    let free := e.lastStart.elim b fun a => max b (a + 256 * e.width + usFine)
    let sec := cdiv (cntAtPos s free) secU
    ({ e with startSec := sec, k := 0 }, decide (cdiv s.time.cnt secU < sec))

/-- What a step of the counter, applied at this boundary, does to the outputs; `old` is the value without the step. -/
def outStep (old : Nat) (s : State) : State :=
  let evt := updAll s.mile.evt fun _ e => e.step s
  let ns := cdiv (s.time.cnt % secU) nsU
  let s1 : State := { s with mile := { s.mile with
    pps := updAll s.mile.pps fun _ p => { p with resync := true },
    freq := updAll s.mile.freq fun _ f => f.step old s.time.cnt,
    tod := updAll s.mile.tod fun _ l => { l with pending := l.pending.map fun m => (cntPlus m.1 ((s.time.cnt : Int) - old), m.2) },
    evt := evt.map (·.1), epochK := cdiv (ns * s.mile.epochRate) 1000000000 } }
  let s2 := if s.mile.freq.toList.any (·.run) then outSkip s1 else s1
  let s3 := if evt.toList.any (·.2) then skipSeen s2 else s2
  if evt.toList.any fun e => e.2 && e.1.irq then raise 72 s3 else s3

/-! ## Milestone triggers (07 R155-R158) -/

/-- Register offset of an EVT channel. -/
def evtReg (n : Fin 16) (o : Nat) : Nat := 0x50100 + 0x40 * n.1 + o

/-- Updates a channel. -/
def onEvt (n : Fin 16) (f : EvtCh → EvtCh) (s : State) : State := { s with mile := { s.mile with evt := upd s.mile.evt n f } }

/-- Raises a Milestone source where the channel's IRQ bit is set (07 R162). -/
def evtRaise (n : Fin 16) (src : Nat) (s : State) : State := if s.mile.evt[n].irq then raise src s else s

/-- TGT, low 40 Odometer bits. -/
def EvtCh.tgt (e : EvtCh) : Nat := e.tgtLo.toNat + low 8 e.tgtHi.toNat * 2 ^ 32

/-- The signed 40-bit difference target - now (00 R11). -/
def due40 (tgt now : Nat) : Int := sgn 40 (tgt + (2 ^ 40 - now % 2 ^ 40))

/-- The position, in 1/256 tick, of the next edge of an Odometer schedule: TGT with FINE, and k x PER rounded to the nearest
fine step (07 R145, R155). -/
def EvtCh.nextPos (e : EvtCh) : Int :=
  let per := if e.kind = 1 then e.per.toNat * 2 ^ 16 + low 16 e.perFrac.toNat else 0
  e.base + ((e.k * per + 128) / 256 : Nat)

/-- The position TGT and FINE name, by the signed difference of R11 from the present tick. -/
def EvtCh.tgtPos (odo : Nat) (e : EvtCh) : Int := 256 * ((odo : Int) + due40 e.tgt odo) + bits e.tgtHi.toNat 15 8

/-- The pulse would overlap the next edge (07 R156). -/
def overlapEdge (kind width per frac : Nat) : Bool :=
  (kind == 1 && decide (per * 2 ^ 16 + frac ≤ width * 2 ^ 16)) || (kind == 2 && decide (10 ^ 11 ≤ width * 128 * per))

/-- An arm is rejected (07 R156). -/
def EvtCh.armBad (e : EvtCh) : Bool :=
  e.width == 0 || overlapEdge e.kind e.width e.per.toNat (low 16 e.perFrac.toNat) || (e.count == 0 && !e.cont) ||
  (e.kind == 1 && e.per == 0#32 && low 16 e.perFrac.toNat == 0) || (e.kind == 2 && (e.per == 0#32 || decide (100000000 < e.per.toNat)))

/-- The second at which a PERIODIC_TIME schedule armed now starts (07 R155). -/
def periodicStart (s : State) : Nat := cdiv (cntAt s (s.time.odo + 2 * periodTicks)) secU

/-- Starts the schedule as the registers give it; a target already due sets LATE (07 R156, R157). -/
def mileStart (n : Fin 16) (s : State) : State :=
  let e := s.mile.evt[n]
  let s1 := onEvt n (fun e => { e with
    armed := true, k := 0, tai := none, startSec := if e.kind = 2 then periodicStart s else e.startSec
    base := e.tgtPos s.time.odo, notBefore := s.time.odo + 1 }) s
  if e.kind ≤ 1 && due40 e.tgt s.time.odo ≤ 0 then evtRaise n 68 (sticky (evtReg n 0x18) 4#32 s1) else s1

/-- A write of ARM = 1 (07 R156). -/
def mileArm (n : Fin 16) (s : State) : State :=
  if s.mile.evt[n].dir != 1 then s
  else if s.mile.evt[n].armBad then onEvt n (fun e => { e with armed := false }) (sticky (evtReg n 0x18) 8#32 s)
  else mileStart n s

/-- Clears ARM: the channel is cancelled at once, a pulse in progress completes; a CONT schedule ends so (07 R156, R157). -/
def mileCancel (n : Fin 16) (s : State) : State :=
  let e := s.mile.evt[n]
  let s1 := onEvt n (fun e => { e with armed := false, tai := none }) s
  if e.armed && e.cont && e.dir == 1 && e.kind != 0 then evtRaise n 66 s1 else s1

/-- A write of MILE_EVTn_CFG: a change of DIR empties the FIFO and cancels the trigger (07 R160), ARM arms or cancels. -/
def mileCfgWrite (n : Fin 16) (v : Word) (s : State) : State :=
  let x := v.toNat
  let s0 := if s.mile.evt[n].dir = bits x 1 0 then s else onEvt n (fun e => { e with fifo := [], armed := false, tai := none }) s
  let s1 := onEvt n (fun e => { e with
    dir := bits x 1 0, kind := bits x 3 2, cont := v.getLsbD 5, pol := v.getLsbD 6, edge := bits x 8 7, irq := v.getLsbD 9, width := bits x 27 12 }) s0
  if v.getLsbD 4 then mileArm n s1 else mileCancel n s1

/-- A write of a register of the EVT channels (07 R163). -/
def mileWrite (o : Nat) (v : Word) (s : State) : State :=
  match group? o 0x100 0x40 16 with
  | some (n, g) =>
    if g = 0 then mileCfgWrite n v s
    else if g = 4 then onEvt n (fun e => { e with tgtLo := v }) s
    else if g = 8 then onEvt n (fun e => { e with tgtHi := v &&& 0xFFFF#32 }) s
    else if g = 0xC then onEvt n (fun e => { e with per := v }) s
    else if g = 0x10 then onEvt n (fun e => { e with perFrac := v &&& 0xFFFF#32 }) s
    else if g = 0x14 then onEvt n (fun e => { e with count := v.toNat }) s
    else if g = 0x1C then onEvt n (fun e => { e with inDelay := v.toInt }) s
    else s
  | none => s

/-- The schedule after an edge: a ONE_SHOT ends, a periodic one counts (07 R155, R156). -/
def EvtCh.advance (e : EvtCh) : EvtCh :=
  let count := if e.kind = 0 || e.cont then e.count else e.count - 1
  let ends := e.kind == 0 || (!e.cont && count == 0)
  let wrap := e.kind == 2 && decide (e.per.toNat ≤ e.k + 1)
  { e with count := count, armed := e.armed && !ends, k := if wrap then 0 else e.k + 1,
           startSec := if wrap then e.startSec + 1 else e.startSec }

/-- A trigger channel emits an edge at a position: FIRED, MILE_FIRE, and the schedule goes on or ends. -/
def mileEdge (n : Fin 16) (pos : Int) (s : State) : State :=
  evtRaise n 66 (sticky (evtReg n 0x18) 2#32
    (onEvt n (fun e => { e.advance with
      pulseEnd := some (pos + 256 * e.width), lastStart := some pos, notBefore := (pos / 256).toNat + 1 }) s))

/-- The position of a trigger channel's next edge, if its schedule has one of its own; one already due falls at the next tick
(07 R155, R157). -/
def edgePos (s : State) (e : EvtCh) : Option Int :=
  let free : Int := 256 * e.notBefore
  if e.kind = 2 then some (max free (launchAt s (e.startSec * secU + e.k * 1000000000 / e.per.toNat * nsU) 0))
  else if e.kind ≤ 1 then some (max free e.nextPos)
  else none

/-- MILESTONE_FIRE: a trigger channel's next edge falls in the present steering period (07 R155, R157). -/
def execMilestoneFire (n : Fin 16) (s : State) : Out :=
  let e := s.mile.evt[n]
  .next (if !timeUp s || !e.armed || e.dir != 1 then s
    else
      match edgePos s e with
      | some pos =>
        if periodEnd s < pos then s
        else mileEdge n pos { s with time := { s.time with odo := max s.time.odo (pos / 256).toNat } }
      | none => s)

/-- The epoch channels copy a MEAS_EPOCH event at a position (07 R155). -/
def epochPulse (pos : Int) (s : State) : State :=
  (List.finRange 16).foldl (fun s n =>
    let e := s.mile.evt[n]
    if e.armed && e.dir == 1 && e.kind == 3 then mileEdge n pos s else s) s

/-- Converts a TAI target held by firmware whose period's increment is fixed, at a boundary or within `ICP_MILE_ARM`; one in the
past is missed (07 R158). -/
def mileConvert (n : Fin 16) (s : State) : State :=
  match s.mile.evt[n].tai with
  | none => s
  | some t =>
    let end1 := cntAt s (s.time.bOdo + periodTicks)
    let rate2 := (s.time.incrNext : Int) + s.time.slewNext
    let end2 := cntPlus end1 ((periodTicks : Int) * rate2)
    if t < s.time.cnt then evtRaise n 69 (sticky (evtReg n 0x18) 16#32 (onEvt n (fun e => { e with tai := none }) s))
    else if end2 ≤ t then s
    else
      let pos : Int :=
        if t < end1 then launchAt s t 0
        else ((s.time.bOdo + periodTicks : Nat) : Int) * 256 + rdiv (((t : Int) - end1) * 256) rate2.toNat
      let p := (pos % 2 ^ 48).toNat
      onEvt n (fun e => { e with
        tai := none, armed := true, k := 0, base := pos, notBefore := s.time.odo + 1, tgtLo := w32 (p / 256), tgtHi := pack [(0, low 8 (p / 2 ^ 40)), (8, p % 256)] }) s

/-- Converts every TAI target that is due for it. -/
def mileTai (s : State) : State := (List.finRange 16).foldl (fun s n => mileConvert n s) s

/-! ## Capture (07 R159, R160) -/

/-- EVT_CAPTURE: an edge on a capture pin, resolved to 1/8 tick (07 R159, R160). -/
def execEvtCapture (n : Fin 16) (off : BitVec 16) (eighth : BitVec 3) (falling : Bool) (s : State) : Out :=
  let e := s.mile.evt[n]
  let want := if e.edge = 0 then !falling else if e.edge = 1 then falling else true
  .next (if !timeUp s || e.dir != 2 || !want then s
    else
      let s1 := atTick off s
      let pos := (s.time.bOdo + off.toNat) * 8 + eighth.toNat
      if e.lastEdge.elim false fun a => decide (pos < a + 128) then sticky (evtReg n 0x18) 64#32 s1
      else
        let s2 := onEvt n (fun e => { e with lastEdge := some pos }) s1
        if 16 ≤ e.fifo.length then
          evtRaise n 70 (stickyCount (evtReg n 0x18) 16 16 1 (sticky (evtReg n 0x18) 32#32 s2))
        else
          let ps : Int := (off.toNat : Int) * 1280 + eighth.toNat * 160 - e.inDelay
          let entry : CapEntry := {
            cnt := cntPlus s.time.cnt (ps * rate s / 1280), odo := ((s.time.bOdo : Int) + ps / 1280).toNat, falling := falling,
            mode := modeCode s.sys.mode }
          let s3 := onEvt n (fun e => { e with fifo := e.fifo ++ [entry] }) s2
          if e.fifo.isEmpty then evtRaise n 67 s3 else s3)

/-- CAPTURE_POP: a read of MILE_EVTn_CAP_NS by slot 0 pops the head entry into the shadow registers (07 R160, R163). -/
def execCapturePop (rd : Fin 9) (n : Fin 16) (s : State) : Out :=
  .next (readBy rd (evtReg n 0x20) (fun s =>
    let e := s.mile.evt[n]
    if rd.1 != 0 then (w32 (nsOf e.shadow.cnt), s)
    else
      match e.fifo with
      | c :: l => (w32 (nsOf c.cnt), onEvt n (fun e => { e with fifo := l, shadow := c, shadowValid := true }) s)
      | [] => (0#32, onEvt n (fun e => { e with shadow := {}, shadowValid := false }) s)) s)

/-- MILE_ARM_WRITE: a write of MILE_EVTn_CFG (07 R156, R157). -/
def execMileArmWrite (rd : Fin 9) (n : Fin 16) (val : Word) (s : State) : Out :=
  .next (writeBy rd (evtReg n 0) (mileCfgWrite n val) s)

/-! ## ToD and OE_TIMING events -/

/-- TODOUT_MESSAGE: the message composed at a second boundary has its first start bit TOD_DELAY after it, in the present
steering period (07 R151). -/
def execTodoutMessage (line : Fin 2) (s : State) : Out :=
  let l := s.mile.tod[line]
  .next (if !timeUp s then s
    else match l.pending with
    | some m =>
      let tick := tickOf s m.1
      if s.time.bOdo + periodTicks < tick then s
      else
        let l' : TodOut := if todRuns s l then { l with last := m.2, start := tick, pending := none } else { l with pending := none }
        { s with time := { s.time with odo := max s.time.odo tick }, mile := { s.mile with tod := s.mile.tod.set line.1 l' } }
    | none => s)

/-- OE_TIMING_CHANGE: the pin takes its level at a tick of the present steering period that allows it; after a take it waits for
1 us of unbroken low of FB_PEEROWN, a planned take for the low alone (07 R154, 15 R335, R336). -/
def execOeTimingChange (off : BitVec 16) (ck : Nat) (s : State) : Out :=
  let s1 := atCk ck s
  let low := !s.foot.peerOwn && decide (max s.foot.peerOwnLowSince s.foot.takenAt + 25 * s.foot.oeNeedUs ≤ s1.foot.ck)
  let s0 : State := { s1 with foot := { s1.foot with oeBlocked := s.foot.oeBlocked && !low } }
  .next (if !timeUp s || oeWanted s0 == s0.mile.oe || !oeMoment s (s.time.bOdo + off.toNat) then s
    else conflictCheck (setOe (oeWanted s0) (atTick off s0)))

/-! ## Registers (07 R163) -/

/-- CFG of a channel as it reads. -/
def EvtCh.cfg (e : EvtCh) : Word :=
  pack [(0, e.dir), (2, e.kind), (4, bit e.armed), (5, bit e.cont), (6, bit e.pol), (7, e.edge), (9, bit e.irq), (12, e.width)]

/-- The registers of an EVT channel. -/
def roEvt (e : EvtCh) (g : Nat) : Word :=
  if g = 0 then e.cfg
  else if g = 4 then e.tgtLo
  else if g = 8 then e.tgtHi
  else if g = 0xC then e.per
  else if g = 0x10 then e.perFrac
  else if g = 0x14 then w32 e.count
  else if g = 0x18 then pack [(0, bit e.armed), (8, e.fifo.length)]
  else if g = 0x1C then w32 (twos 32 e.inDelay)
  else if g = 0x20 then w32 (nsOf e.shadow.cnt)
  else if g = 0x24 then w32 (secOf e.shadow.cnt)
  else if g = 0x28 then pack [(0, bits (secOf e.shadow.cnt) 47 32), (16, fracOf e.shadow.cnt)]
  else if g = 0x2C then w32 e.shadow.odo
  else if g = 0x30 then w32 (e.shadow.odo / 2 ^ 32)
  else if g = 0x34 then pack [(0, bit e.shadowValid), (1, bit e.shadow.falling), (4, e.shadow.mode)]
  else 0#32

/-- The registers of the MILE block without their sticky fields (07 R163). -/
def roMile (s : State) (_rd o : Nat) : Word :=
  if !timeUp s then 0#32
  else if o = 0 then lkWord s 5
  else if o = 4 then
    pack ([(0, bit s.mile.oe)] ++ ((List.finRange 4).map fun k => (1 + k.1, bit (ppsRuns s s.mile.pps[k]))) ++
      (List.finRange 2).map fun j => (5 + j.1, bit s.mile.freq[j].run))
  else if o = 0x48 then
    pack [(0, (s.mile.epochNext.elim s.mile.epochRate (·.1))), (6, bit (s.mile.epochNext.elim s.mile.epochEn (·.2)))]
  else if o < 0x10 then 0#32
  else if o < 0x20 then (group? o 0x10 4 4).elim 0#32 fun e =>
    let p := s.mile.pps[e.1]
    pack [(0, bit p.en), (1, bit p.inv), (2, bit p.acqQuiet), (3, p.width)]
  else if o < 0x30 then (group? o 0x20 4 4).elim 0#32 fun e => w32 (twos 32 s.mile.pps[e.1].comp)
  else if o < 0x38 then (group? o 0x30 4 2).elim 0#32 fun e => w32 (s.mile.freq[e.1].hzNext.getD s.mile.freq[e.1].hz)
  else if o < 0x40 then (group? o 0x38 4 2).elim 0#32 fun e =>
    let f := s.mile.freq[e.1]
    pack [(0, bit f.en), (1, bit f.hcsl), (2, bit f.acqQuiet), (8, twos 24 f.comp)]
  else if o < 0x48 then (group? o 0x40 4 2).elim 0#32 fun e =>
    let l := s.mile.tod[e.1]
    pack [(0, bit l.en), (1, bit l.utc), (2, l.baud), (16, l.delay)]
  else (group? o 0x100 0x40 16).elim 0#32 fun e => roEvt s.mile.evt[e.1] e.2

/-! ## Commands (07 R164, R165) -/

/-- `ICP_PPS_CONFIG`. -/
def execIcpPpsConfig (c : CmdRef) (a : PpsArgs) (s : State) : Out :=
  let w := a.widthNs.toNat
  icpDo c 0x400
    (fun _ => [(a.rsv || decide (3 < a.out.toNat) || decide (1 < a.enable.toNat) || decide (w = 0) || decide (w % 100 ≠ 0), stBadArg),
      (decide (500000000 < w) || beyond a.cable.toInt 100000, stRange)])
    (fun s => match fin? 4 a.out.toNat with
      | some k => { s with mile := { s.mile with pps := upd s.mile.pps k fun p => { p with
          en := a.enable == 1#8, inv := a.inv, acqQuiet := a.acqQuiet, width := w / 100, cable := a.cable.toInt } } }
      | none => s)
    (fun _ => []) s

/-- `ICP_FREQ_CONFIG`: a change of F on a running output waits for the second boundary (07 R150). -/
def execIcpFreqConfig (c : CmdRef) (a : FreqArgs) (s : State) : Out :=
  icpDo c 0x401
    (fun _ => [(a.rsv || decide (1 < a.out.toNat) || decide (1 < a.enable.toNat) || decide (1 < a.standard.toNat) || a.hz == 0#32, stBadArg),
      (decide (100000000 < a.hz.toNat) || beyond a.cable.toInt 100000, stRange)])
    (fun s => match fin? 2 a.out.toNat with
      | some j => outFollow { s with mile := { s.mile with freq := upd s.mile.freq j fun f => { f with
          en := a.enable == 1#8, hcsl := a.standard == 1#8, acqQuiet := a.acqQuiet, cable := a.cable.toInt,
          hz := if f.run then f.hz else a.hz.toNat,
          hzNext := if f.run && a.hz.toNat != f.hz then some a.hz.toNat else none } } }
      | none => s)
    (fun _ => []) s

/-- `ICP_TOD_CONFIG`. -/
def execIcpTodConfig (c : CmdRef) (a : TodArgs) (s : State) : Out :=
  icpDo c 0x402
    (fun _ => [(a.rsv || decide (1 < a.out.toNat) || decide (1 < a.enable.toNat) || decide (1 < a.scale.toNat) || a.delay == 0#16, stBadArg),
      (outside a.delay.toNat 10 800 || decide (7 < a.baud.toNat), stRange)])
    (fun s => match fin? 2 a.out.toNat with
      | some j => { s with mile := { s.mile with tod := upd s.mile.tod j fun l => { l with
          en := a.enable == 1#8, utc := a.scale == 1#8, baud := a.baud.toNat, delay := a.delay.toNat } } }
      | none => s)
    (fun _ => []) s

/-- `ICP_OUT_CALIBRATE`: the measurement runs on channel 6 until OUT_CALIBRATE_DONE (07 R164, 08 R171). -/
def execIcpOutCalibrate (c : CmdRef) (a : OutCalArgs) (s : State) : Out :=
  icp c 0x403 (fun s =>
    match fin? 16 a.pin.toNat with
    | none => .done stBadArg [] s
    | some pin =>
      let st := firstFail [
        (a.rsv || decide (1 < a.freq.toNat) || decide ((if a.freq = 0#8 then 3 else 1) < a.out.toNat) || a.edges == 0#32, stBadArg),
        (decide (1000 < a.edges.toNat), stRange),
        (s.mile.evt[pin].dir != 2, stOrder),
        (s.mile.outCal.isSome, stBusy)]
      if st = stOk then
        let s1 := tdcCancel 6 s
        let o : OutCal :=
          { cmd := c, freq := a.freq == 1#8, out := a.out.toNat, pin := pin.1, cable := a.cable.toInt, edges := a.edges.toNat }
        .later { s1 with tdc := { s1.tdc with ch6Held := true }, mile := { s1.mile with outCal := some o } }
      else .done st [] s) s

/-- The new OUT_DELAY of an output (07 R164). -/
def outDelaySet (o : OutCal) (d : Int) (s : State) : State :=
  if o.freq then
    match fin? 2 o.out with
    | some j => { s with mile := { s.mile with freq := upd s.mile.freq j fun f => { f with outDelay := d } } }
    | none => s
  else
    match fin? 4 o.out with
    | some k => { s with mile := { s.mile with pps := upd s.mile.pps k fun p => { p with outDelay := d } } }
    | none => s

/-- OUT_CALIBRATE_DONE: OUT_DELAY becomes the loop delay less the loop cable's and less the pin's IN_DELAY; BUSY when no edge
returned within 2 s (07 R164, R165, 08 R171). DESIGN CHOICE: a delay beyond the range of R146 is set to its end (log 176). -/
def execOutCalibrateDone (loopPs rms : Word) (ok : Bool) (s : State) : Out :=
  .next (match s.mile.outCal with
    | none => s
    | some o =>
      let s0 := onCh 6 (fun c => { c with arm := false, busy := false }) s
      let s2 : State := { s0 with tdc := { s0.tdc with ch6Held := false }, mile := { s0.mile with outCal := none } }
      if ok then
        let d := max (-100000) (min 100000 (loopPs.toInt - o.cable - (fin? 16 o.pin).elim 0 fun p => s.mile.evt[p].inDelay))
        complete o.cmd 0x403 0 (le 4 loopPs.toNat ++ le 4 rms.toNat ++ leI 4 d) (outDelaySet o d s2)
      else complete o.cmd 0x403 stBusy [] s2)

/-- Difference in ticks of an Odometer target given in the low 40 bits. -/
def armDue (a : MileArmArgs) (s : State) : Int := due40 (low 40 a.target.toNat) s.time.odo

/-- The TAI target of the command, 2^-48 ns. -/
def armTai (a : MileArmArgs) : Nat := low 48 a.target.toNat * secU + a.targetNs.toNat * nsU

/-- Checks of `ICP_MILE_ARM` (07 R165). -/
def armChecks (a : MileArmArgs) (s : State) : List (Bool × Nat) :=
  let k := a.kind.toNat
  let per := a.per.toNat
  let dir := (fin? 16 a.pin.toNat).elim 0 fun n => s.mile.evt[n].dir
  [(a.rsv || decide (15 < a.pin.toNat) || decide (3 < k) || (a.tai && k != 0) || a.width == 0#16 || (a.count == 0#32 && !a.cont), stBadArg),
   ((k == 1 && per == 0 && a.perFrac == 0#16) || (k == 2 && (per == 0 || a.perFrac != 0#16)), stBadArg),
   (decide (2 ^ 48 ≤ a.target.toNat) || (if a.tai then decide (999999999 < a.targetNs.toNat) else a.targetNs != 0#32), stBadArg),
   (overlapEdge k a.width.toNat per a.perFrac.toNat || dir != 1, stBadArg),
   (k == 2 && decide (100000000 < per), stRange),
   (a.tai && decide (cntNow s + 86400 * secU < armTai a), stRange),
   (if a.tai then decide (armTai a ≤ cntNow s) else decide (k ≤ 1) && decide (armDue a s ≤ 0), stOrder)]

/-- The Odometer tick of the first MEAS_EPOCH after now, 0 when none is scheduled (07 R161). -/
def firstEpoch (s : State) : Nat :=
  let m := s.mile
  if m.epochEn && m.epochRate != 0 then
    tickOf s (cntNow s / secU * secU + (if m.epochK < m.epochRate then m.epochK * 1000000000 / m.epochRate else 1000000000) * nsU)
  else 0

/-- The response of `ICP_MILE_ARM`: the Odometer of the first edge, 0 for a TAI target that is not yet converted. -/
def armFirst (a : MileArmArgs) (s : State) : List Byte :=
  if a.tai then (fin? 16 a.pin.toNat).elim (zeros 8) fun n =>
    let e := s.mile.evt[n]
    if e.tai.isSome then zeros 8 else le 8 (e.base / 256).toNat
  else if a.kind = 2#8 then le 8 (tickOf s (periodicStart s * secU))
  else if a.kind = 3#8 then le 8 (firstEpoch s)
  else le 8 ((s.time.odo : Int) + armDue a s).toNat

/-- `ICP_MILE_ARM` (07 R157, R158): firmware writes the channel's registers and arms it, or holds a TAI target. -/
def execIcpMileArm (c : CmdRef) (a : MileArmArgs) (s : State) : Out :=
  icpDo c 0x410 (armChecks a)
    (fun s => match fin? 16 a.pin.toNat with
      | some n =>
        let s1 := onEvt n (fun e => { e with
          kind := a.kind.toNat, cont := a.cont, pol := a.pol, irq := a.irq, width := a.width.toNat, per := a.per,
          perFrac := a.perFrac.setWidth 32, count := a.count.toNat }) s
        if a.tai then mileConvert n (onEvt n (fun e => { e with armed := false, tai := some (armTai a) }) s1)
        else mileStart n (onEvt n (fun e => { e with
          tgtLo := a.target.setWidth 32, tgtHi := w32 (bits a.target.toNat 47 32) }) s1)
      | none => s)
    (armFirst a) s

/-- `ICP_MILE_DISARM`. -/
def execIcpMileDisarm (c : CmdRef) (pin : BitVec 8) (rsv : Bool) (s : State) : Out :=
  icpDo c 0x411 (fun _ => [(rsv || decide (15 < pin.toNat), stBadArg)])
    (fun s => match fin? 16 pin.toNat with
      | some n => mileCancel n s
      | none => s)
    (fun _ => []) s

/-- `ICP_MILE_CAPTURE_CONFIG`. -/
def execIcpMileCaptureConfig (c : CmdRef) (a : MileCapArgs) (s : State) : Out :=
  icpDo c 0x412
    (fun s => [
      (a.rsv || decide (15 < a.pin.toNat) || decide (2 < a.edge.toNat) ||
        (fin? 16 a.pin.toNat).elim true (fun n => s.mile.evt[n].dir != 2), stBadArg),
      (beyond a.inDelay.toInt 100000, stRange)])
    (fun s => match fin? 16 a.pin.toNat with
      | some n => onEvt n (fun e => { e with edge := a.edge.toNat, irq := a.irq, inDelay := a.inDelay.toInt }) s
      | none => s)
    (fun _ => []) s

/-- `ICP_EPOCH_CONFIG`: takes effect at the next second boundary (07 R161). -/
def execIcpEpochConfig (c : CmdRef) (rate enable : BitVec 8) (rsv : Bool) (s : State) : Out :=
  icpDo c 0x413
    (fun _ => [(rsv || decide (1 < enable.toNat) || (rate == 0#8 && enable == 1#8), stBadArg), (decide (50 < rate.toNat), stRange)])
    (fun s => { s with mile := { s.mile with epochNext := some (rate.toNat, enable == 1#8) } })
    (fun _ => []) s

/-- `ICP_OUT_STATUS`. -/
def execIcpOutStatus (c : CmdRef) (s : State) : Out :=
  icpGet c 0x414 (fun s => viewBytes roMile s c.slot (regRun 0x50000 20)) s

end Sys2Proof.Machine
end

