-- ==== Sys2Proof/Machine/Signal.lean ====
section
/-!
DEFINITION. The GNSS datapath: the signal components, the decoding of samples, the replicas and the eight correlator lanes
(09 R181, R186, R188-R194), and the ideal correlation shape they are held against (10 R212).
-/
namespace Sys2Proof.Machine
open Sys2Proof

/-! ## Signal components (09 R186) -/

/-- One row of the table "Signal components". -/
structure SigRow where
  /-- Stream, GFE0 or GFE1. -/
  stream : Fin 2 := 0
  /-- Chips per second. -/
  rate : Nat := 1023000
  /-- Code length, chips. -/
  len : Nat := 10230
  /-- DUMP_CHIPS. -/
  dump : Nat := 1023
  /-- Subcarrier BOC(1,1). -/
  boc : Bool := false
  /-- Carrier / chip ratio. -/
  ratio : Nat := 1540
  /-- Largest PRN. -/
  prns : Nat := 63
  deriving DecidableEq, Repr

/-- The row of a component. -/
def sigRow (sig : Nat) : SigRow :=
  if sig = 0 then { len := 1023 }
  else if sig ≤ 2 then { len := 4092, boc := true, prns := 50 }
  else if sig ≤ 4 then { boc := true }
  else { stream := 1, rate := 10230000, dump := 10230, ratio := 115, prns := if sig = 7 || sig = 8 then 50 else 63 }

/-- Code length in chips. -/
def codeLen (sig : Nat) : Nat := (sigRow sig).len

/-- DUMP_CHIPS. -/
def dumpChips (sig : Nat) : Nat := (sigRow sig).dump

/-- Stream of a component. -/
def sigStream (sig : Nat) : Fin 2 := (sigRow sig).stream

/-- SIG is not reserved and PRN lies in its system's range (09 R186, R199). -/
def sigOk (sig prn : Nat) : Bool := decide (sig ≤ 10) && within prn 1 (sigRow sig).prns

/-- Carrier centre of a stream, Hz. -/
def centreHz (stream : Fin 2) : Nat := if stream = 0 then 1575420000 else 1176450000

/-- One chip in units of 2^-48. -/
def chipU : Nat := 2 ^ 48

/-! ## Samples (09 R181) -/

/-- A 2-bit component: sign-magnitude, or offset binary with FORMAT set. -/
def decodeBits (format : Bool) (hi lo : Bool) : Int :=
  if format then 4 * bit hi + 2 * bit lo - 3 else (if hi then -1 else 1) * (1 + 2 * bit lo)

/-- The complex sample on the four lines I1, I0, Q1, Q0 of a stream; while EN is clear the lines read as zeros. -/
def FeStream.sample (f : FeStream) (lines : BitVec 4) : Int × Int :=
  let v := if f.en then lines else 0#4
  let i := decodeBits f.format (v.getLsbD (if f.iqSwap then 1 else 3)) (v.getLsbD (if f.iqSwap then 0 else 2))
  let q := decodeBits f.format (v.getLsbD (if f.iqSwap then 3 else 1)) (v.getLsbD (if f.iqSwap then 2 else 0))
  (i, if f.qInv then -q else q)

/-! ## Replicas (09 R186, R189) -/

/-- Cosine of the 16-phase carrier replica, phase `k` being the cycle from k/16 to (k+1)/16: twice the cosine in its middle,
rounded to ±1 and ±2 (DESIGN CHOICE, log 180). -/
def replicaCos (k : Nat) : Int :=
  let m := k % 8
  let a : Int := if m ≤ 1 || 6 ≤ m then 2 else 1
  if 4 ≤ k % 16 && k % 16 < 12 then -a else a

/-- Sine of the carrier replica. -/
def replicaSin (k : Nat) : Int := replicaCos (k + 12)

/-- The local code of a component at a code phase: its primary code, which the spec names and does not list, and the BOC(1,1)
subcarrier, inverted in the second half of a chip (log 180). -/
def localCode (sig prn phase : Nat) : Int :=
  let minus := Config.primaryCode sig prn (phase / chipU)
  if minus != ((sigRow sig).boc && 2 ^ 47 ≤ phase % chipU) then -1 else 1

/-! ## Lanes (09 R191, R192) -/

/-- Offsets of the lanes VE, E, P, L, VL, D1, D2, D3 from prompt, 1/256 chip: those of R191 in TRACK, steps in SEARCH. -/
def GnssCh.offsets (c : GnssCh) : List Int :=
  if c.curMode then (List.range 8).map fun k => (k * c.stepCur : Nat) else c.lanesCur.take 2 ++ [0] ++ c.lanesCur.drop 2

/-- What one complex sample adds to a lane's in-phase and quadrature sums, at a prompt code phase and a carrier phase. -/
def GnssCh.laneTerm (c : GnssCh) (x : Int × Int) (code : Nat) (carr : BitVec 64) (off : Int) : Int × Int :=
  let k := bits carr.toNat 31 28
  let r := localCode c.sig c.prn (((code : Int) + off * 2 ^ 40) % (codeLen c.sig * chipU : Nat)).toNat
  (r * (x.1 * replicaCos k + x.2 * replicaSin k), r * (x.2 * replicaCos k - x.1 * replicaSin k))

/-- Adds a sample to the sums of the lanes. -/
def addLanes : List (Int × Int) → List (Int × Int) → List (Int × Int) := List.zipWith fun a b => (a.1 + b.1, a.2 + b.2)

/-- The sums of the eight lanes over samples, from a code phase and a carrier phase on (09 R191, R193, R194). -/
def GnssCh.correlate (c : GnssCh) (f : FeStream) : Nat → BitVec 64 → List (Int × Int) → List (BitVec 4) → List (Int × Int)
  | _, _, sums, [] => sums
  | code, carr, sums, v :: rest =>
    GnssCh.correlate c f ((code + c.codeRate) % (codeLen c.sig * chipU)) (carr + BitVec.ofInt 64 c.carrRate.toInt)
      (addLanes sums (c.offsets.map (c.laneTerm (f.sample v) code carr))) rest

/-- The lanes of the interval that ends `k` samples ahead, from the samples its stream has carried since its first one. -/
def GnssCh.laneSums (c : GnssCh) (f : FeStream) (k : Nat) (samples : List (BitVec 4)) : List (Int × Int) :=
  let l := codeLen c.sig * chipU
  c.correlate f (((c.code : Int) - (c.since * c.codeRate : Nat)) % (l : Int)).toNat
    (c.carr - BitVec.ofInt 64 ((c.since : Int) * c.carrRate.toInt)) (List.replicate 8 (0, 0)) (samples.take (c.since + k))

/-! ## The distortion metric (10 R212) -/

/-- Ideal correlation of a component at an offset of 1/256 chip, in 1/256: the triangle of its code, for BOC(1,1) with side
lobes. -/
def idealShape (boc : Bool) (off : Int) : Int :=
  let a : Int := off.natAbs
  if 256 ≤ a then 0 else if !boc then 256 - a else if a ≤ 128 then 256 - 3 * a else a - 256

/-- Each lane's projection on prompt, which keeps the sign of data bits out (log 180). -/
def onPrompt (lanes : List (Int × Int)) : List Int :=
  let p := lanes.getD 2 (0, 0)
  lanes.map fun x => x.1 * p.1 + x.2 * p.2

/-- The metric of a second: the largest departure of a lane's ratio to prompt from the ideal shape, in units of 0.001. -/
def GnssCh.metric (c : GnssCh) : Nat :=
  let den := c.corr.getD 2 0
  if den ≤ 0 then 0
  else
    ((c.corr.zip c.offsets).map fun x =>
      ((256 * x.1 - idealShape (sigRow c.sig).boc x.2 * den) * 1000).natAbs / (256 * den.toNat)).foldl max 0

end Sys2Proof.Machine
end

