-- ==== Sys2Proof/Machine/Gnss.lean ====
section
/-!
DEFINITION. The GNSS baseband up to the dump record: streams, the front-end SPI, the channel oscillators, dump boundaries and
rings, the channel and block registers, and their commands (09).
-/
namespace Sys2Proof.Machine
open Sys2Proof

/-- PD_GNSS is powered and its clock runs. -/
def gnssUp (s : State) : Bool := s.aon.locked && powered s 8

/-- GFE_CLK runs, and with it the capture of samples (09 R180). -/
def gfeClk (s : State) : Bool := gnssUp s && s.gnss.clkEn

/-- The sample counter: GFE_CLK edge k falls at Odometer tick 12.5 x k (09 R182). -/
def scntNow (s : State) : Nat := 2 * s.time.odo / 25

/-- REF_GNSS is SELECTED. -/
def gnssSelected (s : State) : Bool := s.sign.sel == some 0

/-! ## Channel oscillators (09 R188-R190) -/

/-- Updates a channel. -/
def onChan (n : Fin 128) (f : GnssCh → GnssCh) (s : State) : State := { s with gnss := { s.gnss with chans := upd s.gnss.chans n f } }

/-- The cluster of a channel. -/
def clusterOf (n : Fin 128) : Fin 4 := ⟨n.1 / 32, by omega⟩

/-- The channel's correlator clock runs: GFE_CLK, its cluster, and no gap between burst windows (09 R187, 10 R219). -/
def chanClock (s : State) (n : Fin 128) : Bool :=
  gfeClk s && s.gnss.clusterEn.getLsbD (n.1 / 32) && !(s.gnss.burst.active && !s.gnss.burst.windowOpen)

/-- Advances the oscillators by `k` samples at the rates in force (09 R188, R189). -/
def GnssCh.advance (k : Nat) (c : GnssCh) : GnssCh :=
  let t := c.code + k * c.codeRate
  let l := codeLen c.sig * chipU
  { c with code := t % l, epochCnt := c.epochCnt + w32 (t / l), carr := c.carr + BitVec.ofInt 64 ((k : Int) * c.carrRate.toInt),
           scnt := c.scnt + k, since := c.since + k }

/-- Samples to the next dump boundary; none while the code stands still. A boundary that a CODE_ADJ has moved back behind is not
met again: the adjustment lengthens the interval (09 R193). -/
def GnssCh.samplesToDump (c : GnssCh) : Option Nat :=
  let d := dumpChips c.sig * chipU
  if c.codeRate = 0 then none else some (cdiv ((c.code / d + 1 + bit c.skip) * d - c.code) c.codeRate)

/-- The staged rates, offsets and mode come into force; a CODE_RATE of 2^46 or more is clamped (09 R188, R190, R192). -/
def GnssCh.takeStaged (c : GnssCh) : GnssCh :=
  let big := decide (2 ^ 46 ≤ c.staged.codeRate)
  { c with codeRate := if big then 2 ^ 46 - 1 else c.staged.codeRate, rateClamp := c.rateClamp || big, again := c.again ||| (if big then 1#3 else 0#3), carrRate := c.staged.carrRate,
           curMode := c.staged.mode, lanesCur := c.staged.lanes, stepCur := c.staged.searchStep }

/-- APPLY at a boundary: adjustments, then the staged set (09 R190). -/
def GnssCh.apply (c : GnssCh) : GnssCh :=
  let adj := c.staged.codeAdj.toInt
  let bad := decide (dumpChips c.sig * 2 ^ 15 < adj.natAbs)
  let l := codeLen c.sig * chipU
  let code := if bad then c.code else (((c.code : Int) + adj * 2 ^ 32) % (l : Int)).toNat
  { c.takeStaged with
    code := code, skip := !bad && decide ((c.code % (dumpChips c.sig * chipU) : Nat) + adj * 2 ^ 32 < 0), carr := c.carr + c.staged.carrAdj.setWidth 64, adjErr := c.adjErr || bad, again := c.again ||| (if bad then 2#3 else 0#3), pending := false,
    staged := { c.staged with codeAdj := 0#32, carrAdj := 0#32 } }

/-- One 16-bit half of a lane register. -/
def laneHalf (v : Word) (hi : Bool) : Int := sgn 16 (if hi then v.toNat / 2 ^ 16 else v.toNat)

/-- A firmware write of a staged register (09 R198). -/
def GnssStaged.write (t : GnssStaged) (o : Nat) (v : Word) : GnssStaged :=
  if o = 0x10 then { t with codeRate := t.codeRate / 2 ^ 32 * 2 ^ 32 + v.toNat }
  else if o = 0x14 then { t with codeRate := low 16 v.toNat * 2 ^ 32 + low 32 t.codeRate }
  else if o = 0x18 then { t with carrRate := v }
  else if o = 0x1C then { t with codeAdj := v }
  else if o = 0x20 then { t with carrAdj := v }
  else if o = 0x24 then { t with lanes := (t.lanes.set 0 (laneHalf v false)).set 1 (laneHalf v true) }
  else if o = 0x28 then { t with lanes := (t.lanes.set 2 (laneHalf v false)).set 3 (laneHalf v true) }
  else if o = 0x2C then { t with lanes := (t.lanes.set 4 (laneHalf v false)).set 5 (laneHalf v true) }
  else if o = 0x30 then { t with lanes := t.lanes.set 6 (laneHalf v false), searchStep := bits v.toNat 24 16 }
  else t

/-- Firmware's writes of staged registers before it sets APPLY or EN. -/
def GnssCh.stage (w : List (BitVec 9 × Word)) (c : GnssCh) : GnssCh :=
  { c with staged := w.foldl (fun t x => t.write x.1.toNat x.2) c.staged }

/-- A write of CH_CTRL (09 R192, R195, R199). -/
def GnssCh.ctrlWrite (now : Nat) (v : Word) (c : GnssCh) : GnssCh :=
  let x := v.toNat
  let c0 := { c with staged := { c.staged with mode := v.getLsbD 1 } }
  if c.en then
    let bad := bits x 7 4 != c.sig || bits x 13 8 != c.prn
    let c1 := if bad then { c0 with cfgErr := true, again := c.again ||| 4#3 } else c0
    if v.getLsbD 0 then c1
    else { c1 with en := false, run := false, stale := false, since := 0, resumed := false, lock := false, dist := false, distRun := 0 }
  else
    let c1 := { c0 with sig := bits x 7 4, prn := bits x 13 8 }
    if !v.getLsbD 0 then c1
    else
      let ok := sigOk c1.sig c1.prn
      let c2 := { c1.takeStaged with
        en := true, run := ok, cfgErr := c1.cfgErr || !ok, again := if ok then c1.again else c1.again ||| 4#3, code := 0, carr := 0#64, epochCnt := 0#32, scnt := now + 1, since := 0,
        seq := 0, skip := false, corr := [], lost := 0, lostBefore := false, resumed := false, secs := 0, cn0 := 0, lock := false, dist := false, distRun := 0 }
      if ok then c2 else { c2 with codeRate := c.codeRate, carrRate := c.carrRate }

/-- CHANNEL_ENABLE: a firmware write of CH_CTRL, after writes of staged registers (09 R195, R199). -/
def execChannelEnable (ch : Fin 128) (ctrl : Word) (w : List (BitVec 9 × Word)) (s : State) : Out :=
  .next (if gnssUp s then onChan ch (fun c => (c.stage w).ctrlWrite (scntNow s) ctrl) s else s)

/-- CHANNEL_APPLY: firmware writes staged registers and sets APPLY (09 R190). -/
def execChannelApply (ch : Fin 128) (w : List (BitVec 9 × Word)) (s : State) : Out :=
  .next (if gnssUp s then onChan ch (fun c => { c.stage w with pending := true }) s else s)

/-! ## Dumps (09 R193-R197) -/

/-- FLAGS of a record. -/
def dumpFlags (s : State) (c : GnssCh) (applied forced lostBefore : Bool) : BitVec 8 :=
  BitVec.ofNat 8 (bit applied + 2 * bit forced + 4 * bit lostBefore + 8 * bit c.curMode + 16 * bit c.stale +
    32 * bit s.gnss.fe[sigStream c.sig].stuck + 64 * bit c.resumed)

/-- A record goes to its cluster's ring, or is dropped when the ring is full (09 R197). -/
def ringDump (n : Fin 128) (r : DumpRec) (s : State) : State :=
  let k := clusterOf n
  let q := s.gnss.ring[k]
  let setRing (q' : DumpRing) (s : State) : State := { s with gnss := { s.gnss with ring := s.gnss.ring.set k.1 q' } }
  if q.size ≤ q.recs.length then
    faultEvent 10 (raise 99 (sticky 0x70004 (1#32 <<< (8 + k.1))
      (onChan n (fun c => { c with lost := satU 16 (c.lost + 1), lostBefore := true }) (setRing { q with lost := satU 32 (q.lost + 1) } s))))
  else
    let s1 := onChan n (fun c => { c with lostBefore := false }) (setRing { q with recs := q.recs ++ [r], widx := (q.widx + 1) % q.size } s)
    if q.thr != 0 && q.recs.length + 1 == q.thr then raise 100 s1 else s1

/-- A boundary `k` samples ahead: the interval is closed, APPLY carried out, the record written; a channel whose component left
the mask is freed (09 R190, R193, R196, R201). -/
def dumpAt (n : Fin 128) (k : Nat) (forced : Bool) (lanes : List (Int × Int)) (s : State) : State :=
  let c0 := s.gnss.chans[n]
  let c1 := c0.advance k
  let c2 := if c0.pending then c1.apply else { c1 with skip := false }
  let seq := (c0.seq + 1) % 65536
  let ring := s.gnss.ring[clusterOf n]
  let r : DumpRec := {
    addr := ring.base.toNat + 96 * ring.widx, chan := n.1, flags := dumpFlags s c0 c0.pending forced c0.lostBefore, seq := seq, samples := c1.since, scnt := c1.scnt,
    chip := c2.code / chipU, sig := c0.sig, prn := c0.prn, chipFrac := c2.code % chipU / 2 ^ 16,
    carrCyc := c2.carr.extractLsb' 32 32, carrFrac := c2.carr.extractLsb' 0 32, lanes := lanes }
  let s1 := ringDump n r (onChan n (fun _ => { c2 with
    seq := seq, since := 0, resumed := false, skip := c2.skip && !forced
    corr := if c0.corr.isEmpty then onPrompt lanes else List.zipWith (· + ·) c0.corr (onPrompt lanes) }) s)
  if s.gnss.sigMask.getLsbD c0.sig then s1
  else onChan n (fun c => { c with en := false, run := false, stale := false, lock := false, dist := false, distRun := 0 }) s1

/-- Samples to the boundary that comes next, and whether it is forced, at 125,000 samples (09 R193). -/
def GnssCh.nextBoundary (c : GnssCh) : Nat × Bool :=
  match c.samplesToDump with
  | some k => if c.since + k ≤ 125000 then (k, false) else (125000 - c.since, true)
  | none => (125000 - c.since, true)

/-- A channel whose correlators work. -/
def chanWorks (s : State) (n : Fin 128) : Bool := chanClock s n && s.gnss.chans[n].run

/-- No lower channel of the cluster has a boundary in the same GNSS cycle still to come: its record enters first (09 R197). -/
def firstInCycle (s : State) (n : Fin 128) : Bool :=
  let at_ (m : Fin 128) : Nat := s.gnss.chans[m].scnt + s.gnss.chans[m].nextBoundary.1
  (List.finRange 128).all fun m => decide (n ≤ m) || clusterOf m != clusterOf n || !chanWorks s m || at_ m != at_ n

/-- A boundary of a channel, of the kind that comes next. -/
def boundaryOf (ch : Fin 128) (forced : Bool) (samples : List (BitVec 4)) (s : State) : State :=
  let c := s.gnss.chans[ch]
  let b := c.nextBoundary
  if !chanWorks s ch || b.2 != forced || !firstInCycle s ch then s
  else dumpAt ch b.1 forced (c.laneSums s.gnss.fe[sigStream c.sig] b.1 samples) s

/-- DUMP_BOUNDARY: the prompt chip index passes a multiple of DUMP_CHIPS within 125,000 samples; the operand is what the lines
of the channel's stream carried since the boundary before (09 R193). -/
def execDumpBoundary (ch : Fin 128) (samples : List (BitVec 4)) (s : State) : Out := .next (boundaryOf ch false samples s)

/-- FORCED_BOUNDARY: no boundary within 125,000 samples (09 R193). -/
def execForcedBoundary (ch : Fin 128) (samples : List (BitVec 4)) (s : State) : Out := .next (boundaryOf ch true samples s)

/-- The 96 bytes of a record (09 R196). -/
def dumpBytes (r : DumpRec) : List Byte :=
  [BitVec.ofNat 8 r.chan, r.flags] ++ le 2 r.seq ++ le 4 r.samples ++ le 8 r.scnt ++ le 2 r.chip ++ le 2 (r.sig + 16 * r.prn) ++
  le 4 r.chipFrac ++ le 4 r.carrCyc.toNat ++ le 4 r.carrFrac.toNat ++ r.lanes.flatMap fun x => leI 4 x.1 ++ leI 4 x.2

/-! ## Streams and the SPI (09 R183, R185) -/

/-- What a period has seen of one component. -/
structure SignRun where
  /-- Samples of magnitude 3. -/
  mag : Nat := 0
  /-- The last value was negative. -/
  last : Bool := false
  /-- Consecutive samples of that sign. -/
  run : Nat := 0
  /-- The sign stayed for 62,500 samples. -/
  stayed : Bool := false
  deriving DecidableEq, Repr

/-- One more value of a component (09 R183). -/
def SignRun.add (a : SignRun) (v : Int) : SignRun :=
  let run := if decide (v < 0) == a.last then a.run + 1 else 1
  { mag := a.mag + bit (decide (3 ≤ v.natAbs)), last := decide (v < 0), run := run, stayed := a.stayed || decide (62500 ≤ run) }

/-- One period of 62,500 samples (09 R183). -/
def FeStream.period (samples : List (BitVec 4)) (f : FeStream) : FeStream :=
  let xs := (if f.en then samples else List.replicate 62500 0#4).map f.sample
  let i := xs.foldl (fun a x => a.add x.1) { last := f.lastI, run := f.signI : SignRun }
  let q := xs.foldl (fun a x => a.add x.2) { last := f.lastQ, run := f.signQ : SignRun }
  let ends (v : Nat) : Bool := v == 0 || v == 62500
  let f1 : FeStream := { f with
    magI := i.mag, magQ := q.mag, lastI := i.last, lastQ := q.last, signI := i.run, signQ := q.run
    badRunI := if ends i.mag then f.badRunI + 1 else 0
    badRunQ := if ends q.mag then f.badRunQ + 1 else 0 }
  let bad := decide (10 ≤ f1.badRunI) || decide (10 ≤ f1.badRunQ) || i.stayed || q.stayed
  let good := if bad then 0 else f.goodRun + 1
  { f1 with goodRun := good, stuck := if bad then true else f.stuck && decide (good < 10) }

/-- FE_MAG_PERIOD: the counts of a millisecond of samples, and STUCK (09 R183). -/
def execFeMagPeriod (st : Fin 2) (samples : List (BitVec 4)) (s : State) : Out :=
  .next (if !gfeClk s then s
    else
      let f := s.gnss.fe[st]
      let f' := f.period samples
      let s1 : State := { s with gnss := { s.gnss with fe := s.gnss.fe.set st.1 f' } }
      let src : Fin 64 := if st = 0 then 8 else 9
      let s2 := if f'.stuck && !f.stuck then raise (96 + st.1) s1 else s1
      faultCond src f'.stuck s2)

/-- The transaction at the head of the queue sets the master's mode and rate for its time (09 R184). -/
def spiStart (s : State) : State :=
  match s.gnss.spi with
  | t :: _ => { s with gnss := { s.gnss with spiMode3 := t.mode3, spiDiv := t.div } }
  | [] => s

/-- Level of GFE_CSk_N: low while a transaction for it is in progress (09 R184). -/
def spiCsN (s : State) (k : Bool) : Bool := s.gnss.spi.head?.elim true fun t => t.cs != k

/-- Level at which GFE_SCK rests: high in mode 3. -/
def spiSckRest (s : State) : Bool := s.gnss.spiMode3

/-- Half a period of GFE_SCK in Odometer ticks: DIV periods of 312.5 MHz, each 2.5 ticks, in tenths of a tick (09 R184). -/
def spiHalf10 (s : State) : Nat := 25 * s.gnss.spiDiv

/-- GNSS_SPI_DONE: the transaction in progress ends; a host's completes with the bytes received (09 R185, R201). -/
def execGnssSpiDone (rx : List Byte) (s : State) : Out :=
  .next (match s.gnss.spi with
    | [] => s
    | t :: l =>
      let s1 := spiStart { s with gnss := { s.gnss with spi := l } }
      match t.cmd with
      | some c => raise 98 (complete c 0x501 0 ((rx ++ zeros 64).take t.bytes.length ++ zeros (64 - t.bytes.length)) s1)
      | none => s1)

/-! ## Registers (09 R198) -/

/-- CH_STAT (09 R198). -/
def chStat (s : State) (n : Fin 128) : Word :=
  let c := s.gnss.chans[n]
  pack [(0, bit (c.run && gnssUp s && s.gnss.clusterEn.getLsbD (n.1 / 32))), (1, bit c.pending), (2, bit c.rateClamp), (3, bit c.adjErr),
    (4, bit c.cfgErr), (5, bit c.stale)]

/-- A channel with its phases brought to the present sample. -/
def chanNow (s : State) (n : Fin 128) : GnssCh :=
  let c := s.gnss.chans[n]
  if c.run && chanClock s n then c.advance (scntNow s - c.scnt) else c

/-- The registers of a channel. -/
def roChan (s : State) (n : Fin 128) (o : Nat) : Word :=
  let c := s.gnss.chans[n]
  let t := c.staged
  let lane (i : Nat) : Nat := twos 16 (t.lanes.getD i 0)
  if o = 0 then pack [(0, bit c.en), (1, bit t.mode), (4, c.sig), (8, c.prn)]
  else if o = 4 then chStat s n
  else if o = 8 then pack [(0, bit c.pending)]
  else if o = 0x10 then w32 t.codeRate
  else if o = 0x14 then w32 (t.codeRate / 2 ^ 32)
  else if o = 0x18 then t.carrRate
  else if o = 0x1C then t.codeAdj
  else if o = 0x20 then t.carrAdj
  else if o = 0x24 then pack [(0, lane 0), (16, lane 1)]
  else if o = 0x28 then pack [(0, lane 2), (16, lane 3)]
  else if o = 0x2C then pack [(0, lane 4), (16, lane 5)]
  else if o = 0x30 then pack [(0, lane 6), (16, t.searchStep)]
  else if o = 0x40 then w32 ((chanNow s n).code / chipU)
  else if o = 0x44 then w32 ((chanNow s n).code % chipU / 2 ^ 16)
  else if o = 0x48 then (chanNow s n).carr.extractLsb' 32 32
  else if o = 0x4C then (chanNow s n).carr.extractLsb' 0 32
  else if o = 0x50 then (chanNow s n).epochCnt
  else if o = 0x54 then w32 c.codeRate
  else if o = 0x58 then w32 (c.codeRate / 2 ^ 32)
  else if o = 0x5C then c.carrRate
  else if o = 0x60 then pack [(0, c.seq), (16, c.lost)]
  else 0#32

/-- Where the registers of a channel stand among the registers, behind the window. -/
def chanReg (n : Fin 128) : Nat := 2 ^ 20 + 0x100000 + 0x200 * n.1

/-- A read of a channel register by a reader: CODE_PH_INT, CARR_CYC and CUR_CODE_RATE_LO latch the words that follow them. -/
def chanRead (rd : Fin 9) (n : Fin 128) (o : Nat) (s : State) : Word × State :=
  if !gnssUp s then (0#32, s)
  else
    let r := chanReg n + o
    if o = 0x40 || o = 0x48 || o = 0x54 then (roChan s n o, shadowSet rd.1 (r + 4) (roChan s n (o + 4)) s)
    else if o = 0x44 || o = 0x4C || o = 0x58 then (shadowOr s rd.1 r (roChan s n o), s)
    else (roChan s n o, s)

/-- A write of GNSS_CLUSTER_EN: channels of a cluster that stops keep their phases and turn STALE (09 R187). -/
def clusterWrite (v : BitVec 4) (s : State) : State :=
  let chans := updAll s.gnss.chans fun n c =>
    let was := s.gnss.clusterEn.getLsbD (n.1 / 32)
    let now := v.getLsbD (n.1 / 32)
    if was && !now then { (chanNow s n) with stale := c.stale || c.en }
    else if now && !was then { c with scnt := if c.run then scntNow s else c.scnt } else c
  { s with gnss := { s.gnss with clusterEn := v, chans := chans } }

/-- A write of a ring register by firmware; a size is a power of two from 64 to 4,096; a new read index frees the records
before it (09 R197). -/
def DumpRing.write (g : Nat) (v : Word) (q : DumpRing) : DumpRing :=
  let x := v.toNat
  if g = 0 then { q with base := v }
  else if g = 4 then
    (let n := bits x 12 0
     if within n 64 4096 && 4096 % n = 0 then { q with size := n, thr := bits x 28 16, recs := [], widx := 0, ridx := 0 } else q)
  else if g = 8 then
    let r := bits x 27 16 % q.size
    { q with ridx := r, recs := q.recs.drop ((r + q.size - q.ridx) % q.size) }
  else q

/-- A write of CLK_EN: without GFE_CLK the channels stand still (09 R180). -/
def clkWrite (on : Bool) (s : State) : State :=
  let chans := updAll s.gnss.chans fun n c =>
    if s.gnss.clkEn && !on then chanNow s n else if on && !s.gnss.clkEn && c.run then { c with scnt := scntNow s } else c
  { s with gnss := { s.gnss with clkEn := on, chans := chans } }

/-- A firmware write of a channel register (09 R190, R195, R198). -/
def chanWrite (n : Fin 128) (o : Nat) (v : Word) (s : State) : State :=
  if !gnssUp s then s
  else onChan n (fun c =>
    if o = 0 then c.ctrlWrite (scntNow s) v
    else if o = 8 then { c with pending := c.pending || v.getLsbD 0 }
    else { c with staged := c.staged.write o v }) s

/-- A write of the GNSS block by firmware (09 R198, 10 R222). -/
def gnssWrite (rd : Fin 9) (o : Nat) (v : Word) (s : State) : State :=
  if rd.1 != 8 || !gnssUp s then s
  else if o = 8 then clkWrite (v.getLsbD 0) { s with gnss := { s.gnss with spiMode3 := v.getLsbD 1, spiDiv := bits v.toNat 9 2 } }
  else if o = 0xC then clusterWrite (v.setWidth 4) s
  else if o = 0x100 then { s with gnss := { s.gnss with measBase := v &&& 0xFFFFFFC0#32 } }
  else (group? o 0x40 0x10 4).elim s fun e => { s with gnss := { s.gnss with ring := upd s.gnss.ring e.1 (·.write e.2 v) } }

/-- The registers of the GNSS block of this chapter. -/
def roFe (s : State) (o : Nat) : Word :=
  let g := s.gnss
  if o = 0 then lkWord s 7
  else if o = 4 then
    pack [(0, bit g.fe[0].stuck), (1, bit g.fe[1].stuck), (2, bit (!g.spi.isEmpty)), (16, satU 8 (g.chans.toList.filter (·.en)).length)]
  else if o = 8 then pack [(0, bit g.clkEn), (1, bit g.spiMode3), (2, g.spiDiv)]
  else if o = 0xC then g.clusterEn.setWidth 32
  else if o < 0x10 then 0#32
  else if o < 0x30 then (group? o 0x10 0x10 2).elim 0#32 fun e =>
    let f := g.fe[e.1]
    if e.2 = 0 then pack [(0, bit f.en), (1, bit f.format), (2, bit f.qInv), (3, bit f.iqSwap), (4, f.capPhase), (8, f.feLat)]
    else if e.2 = 4 then w32 (twos 32 f.ifHz)
    else if e.2 = 8 then pack [(0, f.magI), (16, f.magQ)]
    else 0#32
  else if o = 0x30 then w32 (scntNow s)
  else if o = 0x34 then w32 (scntNow s / 2 ^ 32)
  else if o < 0x40 then 0#32
  else (group? o 0x40 0x10 4).elim 0#32 fun e =>
    let q := g.ring[e.1]
    if e.2 = 0 then q.base
    else if e.2 = 4 then pack [(0, q.size), (16, q.thr)]
    else if e.2 = 8 then pack [(0, q.widx), (16, q.ridx)]
    else if e.2 = 0xC then w32 q.lost
    else 0#32

/-! ## Commands (09 R201, R202) -/

/-- `ICP_GNSS_FE_CONFIG`. -/
def execIcpGnssFeConfig (c : CmdRef) (a : FeConfigArgs) (s : State) : Out :=
  icpDo c 0x500
    (fun s => [
      (a.rsv || decide (1 < a.stream.toNat) || decide (1 < a.enable.toNat) || decide (1 < a.format.toNat), stBadArg),
      (decide (15 < a.capPhase.toNat) || decide (15 < a.feLat.toNat) || beyond a.ifHz.toInt 20000000, stRange),
      (gnssSelected s || !gnssUp s, stOrder)])
    (fun s => match fin? 2 a.stream.toNat with
      | some k => { s with gnss := { s.gnss with fe := upd s.gnss.fe k fun f => { f with
          en := a.enable == 1#8, format := a.format == 1#8, qInv := a.qInv, iqSwap := a.iqSwap, capPhase := a.capPhase.toNat,
          feLat := a.feLat.toNat, ifHz := a.ifHz.toInt } } }
      | none => s)
    (fun _ => []) s

/-- `ICP_GNSS_FE_SPI`: queued behind the transactions before it; GNSS_SPI_DONE completes it (09 R185). -/
def execIcpGnssFeSpi (c : CmdRef) (a : FeSpiArgs) (s : State) : Out :=
  icp c 0x501 (fun s =>
    let n := a.len.toNat
    let st := firstFail [
      (decide (1 < a.cs.toNat) || (a.mode != 0#8 && a.mode != 3#8) || decide (n = 0) || (a.bytes.toList.drop n).any (· != 0#8), stBadArg),
      (outside a.div.toNat 7 255 || decide (64 < n), stRange),
      (gnssSelected s || !gnssUp s, stOrder)]
    if st = stOk then
      let t : SpiTxn := { cmd := some c, cs := a.cs == 1#8, mode3 := a.mode == 3#8, div := a.div.toNat, bytes := a.bytes.toList.take n }
      let s1 : State := { s with gnss := { s.gnss with spi := s.gnss.spi ++ [t] } }
      .later (if s.gnss.spi.isEmpty then spiStart s1 else s1)
    else .done st [] s) s

/-- `ICP_GNSS_SIGNALS`: the components firmware assigns, and the clusters it runs, which it writes to GNSS_CLUSTER_EN (09 R198,
R201). -/
def execIcpGnssSignals (c : CmdRef) (sigs : BitVec 16) (clusters : BitVec 8) (rsv : Bool) (s : State) : Out :=
  icpDo c 0x502
    (fun _ => [(rsv || decide (0x7FF < sigs.toNat) || clusters == 0#8 || decide (0xF < clusters.toNat), stBadArg)])
    (fun s => clusterWrite (clusters.setWidth 4) { s with gnss := { s.gnss with
      sigMask := sigs.setWidth 11, clusterMask := clusters.setWidth 4 } })
    (fun _ => []) s

/-- The carrier Doppler in 0.001 Hz: CARR_RATE x 62.5 MHz / 2^32 less the IF (10 R204). -/
def doppler (s : State) (c : GnssCh) : Int := rdiv (c.carrRate.toInt * 62500000000) (2 ^ 32) - s.gnss.fe[sigStream c.sig].ifHz * 1000

/-- One channel's 16 bytes of `ICP_GNSS_CHAN_STATUS`. -/
def chanBytes (s : State) (n : Fin 128) : List Byte :=
  if !gnssUp s then zeros 16
  else
    let c := s.gnss.chans[n]
    le 4 (chStat s n).toNat ++ le 2 (c.sig + 16 * c.prn) ++ le 2 c.cn0 ++ leI 4 (doppler s c) ++ le 4 c.secs

/-- `ICP_GNSS_CHAN_STATUS`. -/
def execIcpGnssChanStatus (c : CmdRef) (first count : BitVec 8) (rsv : Bool) (s : State) : Out :=
  icpDo c 0x503
    (fun _ => [(rsv || decide (127 < first.toNat) || count == 0#8, stBadArg),
      (decide (32 < count.toNat) || decide (128 < first.toNat + count.toNat), stRange)])
    (fun s => s)
    (fun s => (List.range count.toNat).flatMap fun i => (fin? 128 (first.toNat + i)).elim [] (chanBytes s)) s

end Sys2Proof.Machine
end

