-- ==== Sys2Proof/Machine/GnssMeas.lean ====
section
/-!
DEFINITION. The measurement latch and its banks, the time solution and its integrity, the monitors, the spoof guard's window and
release, burst tracking, and their registers and commands (10).
-/
namespace Sys2Proof.Machine
open Sys2Proof

/-! ## The measurement latch (10 R203-R207) -/

/-- A channel's entry at latch sample `k` (10 R204). -/
def latchEntry (s : State) (k : Nat) (n : Fin 128) : MeasEntry :=
  let c := s.gnss.chans[n]
  let clock := s.gnss.clusterEn.getLsbD (n.1 / 32)
  let l := if chanClock s n then c.advance (k - c.scnt) else c
  let valid := c.run && clock && decide (c.scnt ≤ k) && !(c.seq == 0 && c.since == 0 && c.scnt == k)
  let adj := valid && c.scnt == k && c.since == 0 && c.seq != 0
  let flags := bit valid + 2 * bit adj + 4 * bit (c.stale || !clock) + 8 * bit s.gnss.fe[sigStream c.sig].stuck +
    16 * bit c.curMode + 32 * bit c.lock + 64 * bit (valid && s.gnss.burst.active && s.gnss.burst.firstLatch)
  if valid then
    { chan := n.1, flags := BitVec.ofNat 8 flags, sig := c.sig, prn := c.prn, code := l.code, epochCnt := l.epochCnt, carr := l.carr,
      carrRate := l.carrRate, cn0 := c.cn0 }
  else { chan := n.1, flags := BitVec.ofNat 8 flags, sig := c.sig, prn := c.prn }

/-- The bank a latch writes: the one not claimed; with none claimed, not the latest (10 R205). -/
def latchBank (s : State) : Fin 2 :=
  match s.gnss.claim with
  | some b => if b = 0 then 1 else 0
  | none => match s.gnss.latest with
    | some b => if b = 0 then 1 else 0
    | none => 0

/-- FIX of an epoch latched now: no position, survey in progress, surveyed position (10 R209, R210). -/
def fixState (s : State) : Nat := match s.gnss.posMode with
  | none => 0
  | some false => 1
  | some true => 2

/-- The latch of an epoch of counter value `t` (10 R203-R206). -/
def measLatch (t : Nat) (s : State) : State :=
  let pos := (launchAt s t 0).toNat
  let k := cdiv pos 3200
  let b := latchBank s
  let again := s.gnss.bank[b].full
  let entries := (List.finRange 128).map (latchEntry s k)
  let flags := bit again + 2 * bit s.gnss.burst.active + 4 * bit s.gnss.fe[0].stuck + 8 * bit s.gnss.fe[1].stuck +
    16 * bit s.gnss.steppedSince
  let bank : MeasBank := {
    full := true, seq := (s.gnss.measSeq + 1) % 2 ^ 32, flags := BitVec.ofNat 16 flags,
    validCnt := (entries.filter fun e => e.flags.getLsbD 0).length, mode := modeCode s.sys.mode, cnt := t,
    latOfs := 3200 * k - pos, odo := pos / 256, scnt := k, if0 := s.gnss.fe[0].ifHz, if1 := s.gnss.fe[1].ifHz, errb := s.time.errb,
    entries := entries }
  let s1 : State := { s with gnss := { s.gnss with
    bank := s.gnss.bank.set b.1 bank, latest := some b, measSeq := s.gnss.measSeq + 1, steppedSince := false,
    recent := ((t, pos / 256, fixState s) :: s.gnss.recent).take 32,
    measOvr := if again then satU 32 (s.gnss.measOvr + 1) else s.gnss.measOvr,
    burst := { s.gnss.burst with firstLatch := false } } }
  let s2 := if again then faultEvent 11 (raise 102 (sticky 0x70104 16#32 s1)) else s1
  raise 101 s2

/-- Raises source 71 in the targets that have it enabled (07 R161, R162). -/
def raiseEpoch (s : State) : State :=
  let may (i : Fin 9) : Bool := if h : i.1 < 8 then mayReceive (roleOf s ⟨i.1, h⟩) true 71 else true
  let targets := updAll s.icu.t fun i t => if t.en.getLsbD 71 && may i then { t with pend := t.pend ||| (1#256 <<< 71) } else t
  icuEval { s with icu := { s.icu with t := targets } }

/-- The instant of the next epoch: s + floor(k x 10^9 / RATE) ns of the present second; none once the second's sequence has
ended (07 R161). -/
def epochInstant (s : State) : Option Nat :=
  let m := s.mile
  if m.epochEn && decide (m.epochK < m.epochRate) then
    some (cntNow s / secU * secU + m.epochK * 1000000000 / m.epochRate * nsU)
  else none

/-- MEAS_EPOCH: the epoch is raised, copied to EVT channels of kind EPOCH and latched; between burst windows it is suppressed
entirely (07 R161, 10 R203, R218). -/
def execMeasEpoch (s : State) : Out :=
  .next (if !timeUp s then s
    else match epochInstant s with
      | none => s
      | some t =>
        let tick := max s.time.odo (tickOf s t)
        if s.time.bOdo + periodTicks < tick then s
        else
          let s1 : State := { s with
            time := { s.time with odo := tick }
            mile := { s.mile with epochK := s.mile.epochK + 1 } }
          if s.gnss.burst.active && !s.gnss.burst.windowOpen then s1
          else
            let s2 := epochPulse (launchAt s t 0) (raiseEpoch { s1 with mile := { s1.mile with epochs := s1.mile.epochs + 1 } })
            if gnssUp s then measLatch t s2 else s2)

/-- MEAS_BANK_CLAIM: firmware claims a full bank, or releases the one it holds (10 R205). -/
def execMeasBankClaim (bank : Option (Fin 2)) (s : State) : Out :=
  .next (if !gnssUp s then s
    else match bank with
      | some b => if s.gnss.bank[b].full && s.gnss.claim.isNone then { s with gnss := { s.gnss with claim := some b } } else s
      | none => match s.gnss.claim with
        | some b => { s with gnss := { s.gnss with claim := none, bank := upd s.gnss.bank b fun q => { q with full := false } } }
        | none => s)

/-- The 32 bytes of an entry; without VALID every field from offset 4 is zero (10 R207). -/
def entryBytes (e : MeasEntry) : List Byte :=
  [BitVec.ofNat 8 e.chan, e.flags] ++ le 2 (e.sig + 16 * e.prn) ++ le 2 (e.code / chipU) ++ zeros 2 ++ le 4 (e.code % chipU / 2 ^ 16) ++
  le 4 e.epochCnt.toNat ++ le 4 (e.carr.extractLsb' 32 32).toNat ++ le 4 (e.carr.extractLsb' 0 32).toNat ++ le 4 e.carrRate.toNat ++
  le 2 e.cn0 ++ zeros 2

/-- The 4,160 bytes of a bank (10 R206). -/
def bankBytesOf (b : MeasBank) : List Byte :=
  le 4 b.seq ++ le 2 b.flags.toNat ++ [BitVec.ofNat 8 b.validCnt, BitVec.ofNat 8 b.mode] ++ le 6 (secOf b.cnt) ++ zeros 2 ++
  le 4 (nsOf b.cnt) ++ le 2 b.latOfs ++ zeros 2 ++ le 8 b.odo ++ le 8 b.scnt ++ leI 4 b.if0 ++ leI 4 b.if1 ++ le 4 b.errb ++ zeros 12 ++
  b.entries.flatMap entryBytes

/-! ## The time solution (10 R208-R211) -/

/-- T-RAIM over the residuals (ps) of the solution and of those after one, two … exclusions: 0 OK, 1 unavailable, 2 ALARM. -/
def traim (limit : Nat) (systems : Nat) : Nat → List (List Nat) → Nat
  | _, [] => 2
  | left, r :: rest =>
    if r.length < systems + 2 then (if left = 0 then 2 else 1)
    else if r.all fun x => decide (x ≤ limit * 1000) then 0
    else if left = 0 || r.length < systems + 3 then 2
    else
      match rest with
      | [] => 2
      | _ :: _ => traim limit systems (left - 1) rest

/-- The state fields the device adds to firmware's solution: FIX is the position's state at its epoch (10 R209, R210). -/
def solOf (s : State) (rep : SolReport) (residuals : List (List Nat)) : SolReport :=
  { rep with
    unc := errbPlus rep.unc s.gnss.delayUnc
    fix := if rep.fix = 0 then 0 else (s.gnss.recent.lookup rep.cnt).elim (fixState s) (·.2)
    traim := traim s.gnss.traimLimit (ones (BitVec.ofNat 3 rep.systems)) s.gnss.traimMaxExcl residuals
    guard := s.gnss.guard.state
    distCnt := distCount s
    agc := bit s.gnss.fe[0].agcFlag + 2 * bit s.gnss.fe[1].agcFlag }

/-- The Odometer tick of an epoch, the present tick for one that is not known (10 R204). -/
def epochOdo (s : State) (cnt : Nat) : Nat := (s.gnss.recent.lookup cnt).elim s.time.odo (·.1)

/-- GNSS_SOLUTION: firmware's solution of a latched epoch is reported; a valid one of an epoch at a second boundary is REF_GNSS's
phase error (10 R208-R211). -/
def execGnssSolution (rep : SolReport) (residuals : List (List Nat)) (s : State) : Out :=
  .next (if !gnssUp s then s
    else
      let r := solOf s rep residuals
      let s1 := raise 103 { s with gnss := { s.gnss with sol := r } }
      let s2 := if r.traim = 2 && s.gnss.sol.traim != 2 then faultEvent 13 (raise 104 s1) else s1
      if r.fix = 0 || !r.uncKnown then s2
      else if rep.cnt % secU != 0 then { s2 with gnss := { s2.gnss with validAt := some s.time.odo } }
      else utcFrom 0 (pushMeas 0 r.offset rep.cnt (epochOdo s rep.cnt) { s2 with gnss := { s2.gnss with feed := r, solAge := 0, validAt := some s.time.odo } }))

/-- SURVEY_COMPLETE: SURVEY_TIME has elapsed; the mean position is stored and used (10 R210). -/
def execSurveyComplete (x y z : BitVec 64) (unc : Word) (s : State) : Out :=
  .next (if !gnssUp s || s.gnss.posMode != some false || s.gnss.surveyLeft != 0 then s
    else raise 110 (cfgUpdate (fun b => { b with pos := some (x.toInt, y.toInt, z.toInt, unc.toNat), surveyed := true })
      { s with gnss := { s.gnss with posMode := some true, pos := (x.toInt, y.toInt, z.toInt), posUnc := unc.toNat } }))

/-- A second passes: survey time and channel ages. -/
def gnssSecond (s : State) : State :=
  { s with gnss := { s.gnss with
    surveyLeft := s.gnss.surveyLeft - 1
    chans := updAll s.gnss.chans fun _ c => if c.en then { c with secs := satU 32 (c.secs + 1) } else c } }

/-! ## Monitors (10 R212, R213) -/

/-- A flag that follows a condition after `n` consecutive seconds. -/
def runFlag (n : Nat) (cond flag : Bool) (run : Nat) : Bool × Nat :=
  if cond == flag then (flag, 0) else if n ≤ run + 1 then (cond, 0) else (flag, run + 1)

/-- A channel's distortion second: its metric comes from the dumps of the second, C/N0 and LOCK from firmware (10 R212). -/
def GnssCh.distSecond (limit : Nat) (x : DistIn) (c : GnssCh) : GnssCh :=
  let c1 := { c with cn0 := x.cn0, lock := x.lock, corr := [] }
  if !c.run || c.curMode || x.cn0 < 3500 then { c1 with distRun := 0 }
  else
    let r := runFlag 5 (decide (limit < c.metric)) c.dist c.distRun
    { c1 with dist := r.1, distRun := r.2 }

/-- DISTORTION_CHECK (10 R212). -/
def execDistortionCheck (inp : List DistIn) (s : State) : Out :=
  .next (if !gnssUp s then s
    else
      let s1 := inp.foldl (fun s x => onChan x.chan (·.distSecond s.gnss.distLimit x) s) s
      if distCount s = 0 && distCount s1 != 0 then raise 107 s1 else s1)

/-- A stream's AGC second (10 R213): p in units of 1/125,000. -/
def FeStream.agcSecond (dev : Nat) (f : FeStream) : FeStream :=
  if f.stuck then { f with agcFlag := false, agcRun := 0 }
  else
    let p := f.magI + f.magQ
    let n := f.agcBase.length
    let away := decide (600 ≤ n) && decide (dev * 125 * n < ((p * n : Nat) - (f.agcBase.sum : Nat) : Int).natAbs)
    let r := runFlag 10 away f.agcFlag f.agcRun
    { f with agcFlag := r.1, agcRun := r.2, agcBase := if r.1 then f.agcBase else (p :: f.agcBase).take 86400 }

/-- AGC_CHECK (10 R213). -/
def execAgcCheck (s : State) : Out :=
  .next (if !gnssUp s then s
    else
      let fe := updAll s.gnss.fe fun _ f => f.agcSecond s.gnss.agcDev
      let s1 : State := { s with gnss := { s.gnss with fe := fe } }
      let new := (List.finRange 2).any fun k => fe[k].agcFlag && !s.gnss.fe[k].agcFlag
      faultCond 14 (fe.toList.any (·.agcFlag)) (if new then raise 108 s1 else s1))

/-- GUARD_WINDOW_END: while the test passes the anchor advances to the start of the window just ended (10 R215). -/
def execGuardWindowEnd (s : State) : Out :=
  let g := s.gnss.guard
  .next (if !gnssUp s || g.state != 1 || g.winAge < g.window then s
    else withGuard { g with
      tau := g.winAge, dBase := g.winBase, temp := g.winTemp, holdBase := 0, winAge := 0, winBase := s.sign.slots[0].fly.headD 0, winTemp := 0 } s)

/-! ## Burst tracking (10 R218-R220) -/

/-- Boundaries that fall in the next `k` samples. -/
def GnssCh.crossed (k : Nat) (c : GnssCh) : Nat :=
  let d := dumpChips c.sig * chipU
  (c.code + k * c.codeRate) / d - c.code / d

/-- A channel over a gap: its phases are advanced by the samples skipped, SEQ counts the boundaries, a pending APPLY is carried
out and integration restarts (10 R219). -/
def GnssCh.resume (now : Nat) (c : GnssCh) : GnssCh :=
  if !c.run then c
  else
    let k := now - c.scnt
    let c1 := c.advance k
    let c2 := if c.pending then c1.apply else c1
    { c2 with since := 0, resumed := true, skip := false, seq := (c.seq + c.crossed k) % 65536 }

/-- Correlators run again after a gap. -/
def burstResume (s : State) : State :=
  { s with gnss := { s.gnss with
    chans := updAll s.gnss.chans fun n c => if s.gnss.clusterEn.getLsbD (n.1 / 32) then c.resume (scntNow s) else c } }

/-- Latches the cause for which SNAPSHOT ends at the next second boundary (10 R220). -/
def burstWatch (s : State) : State :=
  let b := s.gnss.burst
  if !b.active || b.exitPending != 0 then s
  else
    let cause := if !s.guy.atom.valid then 1 else if gnssSelected s then 2 else 0
    { s with gnss := { s.gnss with burst := { b with exitPending := cause } } }

/-- SNAPSHOT_ENTER: at the second boundary after the command (10 R218). -/
def execSnapshotEnter (s : State) : Out :=
  let b := s.gnss.burst
  .next (if !gnssUp s || !b.en || b.active || !s.guy.atom.valid || gnssSelected s then s
    else { s with gnss := { s.gnss with
      burst := { b with active := true, windowOpen := true, firstLatch := true, exitPending := 0 } } })

/-- The counter value of this second or the next at a signed distance in ms from its boundary, whichever comes next. -/
def nextAtMs (s : State) (ms : Int) : Nat :=
  let base : Int := (cntNow s / secU * secU : Nat)
  let d : Int := ms * 1000000 * nsU
  (if (cntNow s : Int) ≤ base + d then base + d else base + secU + d).toNat

/-- Runs a step of the burst schedule at a counter value of the present steering period. -/
def atCnt (s : State) (t : Nat) (f : State → State) : State :=
  let tick := max s.time.odo (tickOf s t)
  if s.time.bOdo + periodTicks < tick then s else f { s with time := { s.time with odo := tick } }

/-- BURST_WINDOW_OPEN: at s - LEAD (10 R218, R219). -/
def execBurstWindowOpen (s : State) : Out :=
  let b := s.gnss.burst
  .next (if !gnssUp s || !b.active || b.windowOpen then s
    else atCnt s (nextAtMs s (-(b.lead : Int))) fun s =>
      burstResume { s with gnss := { s.gnss with burst := { s.gnss.burst with windowOpen := true, firstLatch := true } } })

/-- BURST_WINDOW_CLOSE: at s - LEAD + W; every open interval is discarded (10 R219). -/
def execBurstWindowClose (s : State) : Out :=
  let b := s.gnss.burst
  .next (if !gnssUp s || !b.active || !b.windowOpen then s
    else atCnt s (nextAtMs s ((b.w : Int) - b.lead)) fun s =>
      { s with gnss := { s.gnss with
        chans := updAll s.gnss.chans fun n _ => { (chanNow s n) with since := 0 }
        burst := { s.gnss.burst with windowOpen := false, closedAt := scntNow s } } })

/-- SNAPSHOT_EXIT: at the second boundary after its cause (10 R220). -/
def execSnapshotExit (s : State) : Out :=
  let b := s.gnss.burst
  .next (if !gnssUp s || !b.active || b.exitPending = 0 then s
    else
      let s1 := if b.windowOpen then s else burstResume s
      let auto := b.exitPending != 3
      let s2 : State := { s1 with gnss := { s1.gnss with
        burst := { b with active := false, windowOpen := false, firstLatch := false, exitCause := b.exitPending, exitPending := 0, en := b.en && !auto } } }
      if auto then raise 109 (sticky 0x70130 4#32 s2) else s2)

/-! ## Registers (10 R222) -/

/-- The registers of the GNSS block without their sticky fields (09 R198, 10 R222). -/
def roGnss (s : State) (_rd o : Nat) : Word :=
  let g := s.gnss
  if !gnssUp s then 0#32
  else if o < 0x100 then roFe s o
  else if o = 0x100 then g.measBase
  else if o = 0x104 then
    pack [(0, bit g.bank[0].full), (1, bit g.bank[1].full), (2, bit (g.claim == some 1)), (3, bit g.claim.isSome), (8, if g.burst.active then 2 else 1),
      (16, low 16 g.measSeq)]
  else if o = 0x108 then w32 g.measOvr
  else if o = 0x110 then
    pack [(0, g.sol.fix), (2, bit g.sol.dual), (3, g.sol.traim), (5, bit (g.validAt.elim false fun t => decide (s.time.odo < t + 3 * tickSec))), (8, g.sol.used), (16, g.sol.excluded), (24, g.sol.systems)]
  else if o = 0x114 then w32 (twos 32 (quarter g.sol.offset))
  else if o = 0x118 then w32 g.sol.unc
  else if o = 0x120 then
    pack [(0, g.guard.state), (2, bit (g.guard.state != 0 && g.guard.flyAtom)), (3, bit (evidence s)), (5, bit g.guard.latch), (8, distCount s),
      (16, bit g.fe[0].agcFlag + 2 * bit g.fe[1].agcFlag)]
  else if o = 0x124 then w32 (twos 32 g.guard.d)
  else if o = 0x128 then w32 g.guard.lim
  else if o = 0x130 then pack [(0, bit g.burst.en), (1, bit g.burst.active), (3, g.burst.exitCause), (7, g.burst.lead), (16, g.burst.w)]
  else 0#32

/-! ## Commands (10 R223, R224) -/

/-- `ICP_GNSS_MEAS_GET`: the latest complete bank. -/
def execIcpGnssMeasGet (c : CmdRef) (s : State) : Out :=
  icpDo c 0x504 (fun s => [(!gnssUp s, stOrder)]) (fun s => s)
    (fun s => match s.gnss.latest with
      | some b => bankBytesOf s.gnss.bank[b]
      | none => zeros 4160) s

/-- A position more than 7,000 km from the Earth's centre. -/
def farOut (x y z : Int) : Bool := decide (7000000000 ^ 2 < x * x + y * y + z * z)

/-- `ICP_GNSS_POSITION` (10 R210). DEDUCED: a range is held against the fields its mode uses, SURVEY_TIME of a survey-in and the
position of a fixed one (10 R224, log 181). -/
def execIcpGnssPosition (c : CmdRef) (a : PositionArgs) (s : State) : Out :=
  let survey := a.mode == 0#8
  icpDo c 0x505
    (fun s => [
      (a.rsv || decide (1 < a.mode.toNat) || (survey && a.survey == 0#32) || (!survey && a.unc == 0#32), stBadArg),
      ((survey && outside a.survey.toNat 3600 604800) || (!survey && farOut a.x.toInt a.y.toInt a.z.toInt), stRange),
      (gnssSelected s || !gnssUp s, stOrder)])
    (fun s =>
      if survey then { s with gnss := { s.gnss with posMode := some false, surveyTime := a.survey.toNat, surveyLeft := a.survey.toNat } }
      else
        cfgUpdate (fun b => { b with pos := some (a.x.toInt, a.y.toInt, a.z.toInt, a.unc.toNat), surveyed := false })
          { s with gnss := { s.gnss with posMode := some true, pos := (a.x.toInt, a.y.toInt, a.z.toInt), posUnc := a.unc.toNat } })
    (fun _ => []) s

/-- The 48 bytes of a time solution report (10 R209). -/
def solBytes (r : SolReport) : List Byte :=
  le 6 (secOf r.cnt) ++ zeros 2 ++ le 4 (nsOf r.cnt) ++ leI 8 r.offset ++ le 4 r.unc ++
  [BitVec.ofNat 8 r.fix, BitVec.ofNat 8 (bit r.dual + 2 * bit r.utcValid + 4 * bit r.leap61 + 8 * bit r.leap59), BitVec.ofNat 8 r.traim,
   BitVec.ofNat 8 r.used, BitVec.ofNat 8 r.excluded, BitVec.ofNat 8 r.systems] ++ le 2 r.tdop ++
  [BitVec.ofNat 8 r.guard, BitVec.ofNat 8 r.distCnt, BitVec.ofNat 8 r.agc, 0#8] ++ leI 2 r.utcOffset ++ zeros 2 ++ le 6 r.leapAt ++ zeros 2

/-- `ICP_GNSS_SOL_STATUS`. -/
def execIcpGnssSolStatus (c : CmdRef) (s : State) : Out :=
  icpDo c 0x506 (fun s => [(!gnssUp s, stOrder)]) (fun s => s) (fun s => solBytes s.gnss.sol) s

/-- `ICP_GNSS_DELAY`. -/
def execIcpGnssDelay (c : CmdRef) (d0 d1 unc : Word) (rsv : Bool) (s : State) : Out :=
  icpDo c 0x507
    (fun s => [(rsv || unc == 0#32, stBadArg), (beyond d0.toInt 10000000 || beyond d1.toInt 10000000, stRange),
      (gnssSelected s || !gnssUp s, stOrder)])
    (fun s => { s with gnss := { s.gnss with delay0 := d0.toInt, delay1 := d1.toInt, delayUnc := unc.toNat } })
    (fun _ => []) s

/-- `ICP_GNSS_INTEGRITY_CONFIG`. -/
def execIcpGnssIntegrityConfig (c : CmdRef) (a : IntegrityArgs) (s : State) : Out :=
  icpDo c 0x508
    (fun s => [
      (a.rsv || a.traimLimit == 0#16 || a.maxExcl == 0#8 || a.distMin == 0#8 || a.distLimit == 0#16 || a.agcDev == 0#16, stBadArg),
      (outside a.traimLimit.toNat 10 10000 || decide (8 < a.maxExcl.toNat) || decide (32 < a.distMin.toNat) ||
        decide (1000 < a.distLimit.toNat) || outside a.agcDev.toNat 5 500, stRange),
      (!gnssUp s, stOrder)])
    (fun s => { s with gnss := { s.gnss with
      traimLimit := a.traimLimit.toNat, traimMaxExcl := a.maxExcl.toNat, distMin := a.distMin.toNat, distLimit := a.distLimit.toNat,
      agcDev := a.agcDev.toNat } })
    (fun _ => []) s

/-- `ICP_GNSS_GUARD_CONFIG` (10 R214-R217, R224). -/
def execIcpGnssGuardConfig (c : CmdRef) (a : GuardArgs) (s : State) : Out :=
  icpDo c 0x509
    (fun s => [
      (a.rsv || a.spoofLimit == 0#32 || a.window == 0#32, stBadArg),
      (outside a.spoofLimit.toNat 5 100000 || outside a.window.toNat 60 86400, stRange),
      ((!a.enable && gnssSelected s) || !gnssUp s, stOrder)])
    (fun s =>
      let s1 := withGuard { s.gnss.guard with
        spoofLimit := a.spoofLimit.toNat, window := a.window.toNat, en := a.enable, latch := a.latch } s
      if a.enable then s1 else guardOff s1)
    (fun _ => []) s

/-- `ICP_GNSS_GUARD_RELEASE`: a new anchor and REF_GNSS in QUALIFYING with cause RETURN (10 R217). -/
def execIcpGnssGuardRelease (c : CmdRef) (s : State) : Out :=
  icpDo c 0x50A (fun s => [(!gnssUp s, stOrder)])
    (fun s =>
      let g := s.gnss.guard
      if g.state != 3 then s
      else requalify 0 0x41 (faultCond 12 false (withGuard (g.anchored g.flyAtom (s.sign.slots[0].fly.headD 0) 1) s)))
    (fun _ => []) s

/-- `ICP_GNSS_BURST` (10 R218, R220, R224). -/
def execIcpGnssBurst (c : CmdRef) (a : BurstArgs) (s : State) : Out :=
  let on := a.enable == 1#8
  icpDo c 0x50B
    (fun s => [
      (a.rsv || decide (1 < a.enable.toNat) || (on && (a.w == 0#16 || a.lead == 0#16)), stBadArg),
      (on && (outside a.w.toNat 20 500 || outside a.lead.toNat 10 (a.w.toNat - 10)), stRange),
      ((on && (gnssSelected s || !s.guy.atom.valid)) || !gnssUp s, stOrder)])
    (fun s =>
      let b := s.gnss.burst
      let b1 : BurstSt :=
        if on then { b with en := true, w := a.w.toNat, lead := a.lead.toNat }
        else { b with en := false, exitPending := if b.active && b.exitPending = 0 then 3 else b.exitPending }
      { s with gnss := { s.gnss with burst := b1 } })
    (fun _ => []) s

end Sys2Proof.Machine
end

