-- ==== Sys2Proof/Machine/Waypoint.lean ====
section
/-!
DEFINITION. Waypoint: the two-step queue's reads, calibration records, the registers of the WAYP block and its commands
(12).
-/
namespace Sys2Proof.Machine
open Sys2Proof

/-! ## Reads of the two-step queue (12 R262) -/

/-- TSQ_POP: a read of WAYP_p_TSQ_ID pops the reading slot's oldest entry. -/
def execTsqPop (rd : Fin 9) (p : Fin 4) (s : State) : Out :=
  .next (readBy rd (0x90110 + 0x40 * p.1) (fun s =>
    match fin? 8 rd.1 with
    | none => (0#32, s)
    | some i =>
      match s.wayp.p[p].tsq.find? (·.slot == i) with
      | some e => (pack [(0, e.id.toNat), (16, e.queue), (31, 1)], onWayp p (fun w => { w with
          tsq := w.tsq.erase e
          tsqSlot := upd w.tsqSlot i fun t => { t with shadow := e, shadowValid := true } }) s)
      | none => (0#32, onWayp p (fun w => { w with tsqSlot := upd w.tsqSlot i fun t => { t with shadowValid := false } }) s)) s)

/-- TSQ_LOST_READ: a read of WAYP_p_TSQ_LOST latches the count; it clears count and identifiers together, or outside the
normal modes reports them, and the acknowledge clears both (12 R262, 19 R420, R422). -/
def execTsqLostRead (rd : Fin 9) (p : Fin 4) (s : State) : Out :=
  let r := 0x90128 + 0x40 * p.1
  .next (readBy rd r (fun s =>
    match fin? 8 rd.1 with
    | none => (0#32, s)
    | some i => (stickyOf s rd.1 r, onWayp p (fun w => { w with
        tsqSlot := upd w.tsqSlot i fun t => { t with ovfShadow := t.ovf, ovf := if modeNormal s.sys.mode then 0 else t.ovf } })
        (stickyTake rd r s))) s)

/-! ## Calibration (12 R253, 03 R64) -/

/-- Default TIME_CAL_UNCp of a port mode, 0.25 ns (03 R64). -/
def defaultUnc (mode : Nat) : Nat := match mode with | 1 => 6 | 2 => 10 | _ => 16

/-- The calibration record of a port's combination of mode and FEC. -/
def calFind (s : State) (p : Fin 4) (mode : Nat) (fec : Bool) : Option PortCal :=
  (s.wayp.p[p].records.find? fun r => r.1 == mode && r.2.1 == fec).map (·.2.2)

/-- Loads the registers of the combination in force, and the SerDes transmit equaliser (11 R225); without a record the latencies read 0, and the uncertainty is
that of the speed (12 R253, 11 R226, 03 R64). -/
def calLoad (p : Fin 4) (s : State) : State :=
  let q := s.port.p[p]
  match calFind s p q.mode q.fec with
  | some r => onPort p (fun q => { q with calMissing := false, eq := r.eq }) (onWayp p (fun w => { w with
      txLat := r.txLat, rxLat := r.rxLat, calValid := true, planeConn := r.conn })
      { s with time := { s.time with calUnc := s.time.calUnc.set p.1 r.unc } })
  | none => onPort p (fun q => { q with calMissing := q.mode != 0, eq := [] }) (onWayp p (fun w => { w with
      txLat := 0, rxLat := 0, calValid := false, planeConn := false })
      { s with time := { s.time with calUnc := if q.mode = 0 then s.time.calUnc else s.time.calUnc.set p.1 (defaultUnc q.mode) } })

/-- A port's record of a combination is replaced. -/
def calStore (p : Fin 4) (mode : Nat) (fec : Bool) (r : PortCal) (s : State) : State :=
  onWayp p (fun w => { w with records := w.records.filter (fun x => !(x.1 == mode && x.2.1 == fec)) ++ [(mode, fec, r)] }) s

/-- Integer square root by bits, of a number below 2^(2 n). -/
def isqrt (n v : Nat) : Nat := (List.range n).reverse.foldl (fun r k => if (r + 2 ^ k) * (r + 2 ^ k) ≤ v then r + 2 ^ k else r) 0

/-- Mean of a series and the root mean square of the differences from it, ps (12 R253, R266; log 186). -/
def calMean (xs : List Int) : Int × Nat :=
  let n : Int := xs.length
  let sum := xs.sum
  (rdiv sum xs.length, isqrt 32 ((n * (xs.map fun x => x * x).sum - sum * sum) / (n * n)).toNat)

/-- WAYP_CAL_DONE: a series whose frames have all gone out, and in loop-back have all returned, ends with the mean of its raw
differences; a loop-back of which fewer than N frames returned within 1 s completes with BUSY (12 R253, R266). -/
def execWaypCalDone (p : Fin 4) (s : State) : Out :=
  .next (match s.wayp.p[p].cal with
  | none => s
  | some k =>
    let r := calMean k.results
    let op := if k.loop_ then 0x613 else 0x612
    let ended := onWayp p (fun w => { w with cal := none, launch := w.launch.filter (!·.cal) }) s
    if k.loop_ then
      if k.n ≤ k.results.length then complete k.cmd op stOk (leI 4 r.1 ++ le 4 r.2) ended
      else if k.start + tickSec ≤ s.time.odo then complete k.cmd op stBusy [] ended
      else s
    else if k.left != 0 || s.wayp.p[p].launch.any (·.cal) then s
    else if k.results.isEmpty then complete k.cmd op stBusy [] ended
    else complete k.cmd op stOk (leI 4 r.1 ++ le 4 r.2) ended)

/-! ## Registers (12 R265) -/

/-- Fields of the WAYP block that are not sticky. -/
def roWayp (s : State) (rd o : Nat) : Word :=
  match group? o 0x100 0x40 4 with
  | some (p, g) =>
    let w := s.wayp.p[p]
    let t : TsqSlot := (fin? 8 rd).elim {} fun i => w.tsqSlot[i]
    match g with
    | 0x00 => w32 w.txLat
    | 0x04 => w32 w.rxLat
    | 0x08 => pack [(0, w.launch.length), (8, w.lastCause), (16, w.waiting.length)]
    | 0x10 => if t.shadowValid then pack [(0, t.shadow.id.toNat), (16, t.shadow.queue), (31, 1)] else 0#32
    | 0x14 => w32 (nsOf t.shadow.stamp)
    | 0x18 => w32 (secOf t.shadow.stamp)
    | 0x1C => pack [(0, secOf t.shadow.stamp / 2 ^ 32), (16, fracOf t.shadow.stamp)]
    | 0x20 => w32 t.shadow.errb
    | 0x24 => pack [(0, (fin? 8 rd).elim 0 fun i => tsqHeld w i), (8, (fin? 8 rd).elim 0 fun _ => t.limit), (16, w.tsq.length)]
    | 0x2C => w32 t.ovfShadow
    | _ => 0#32
  | none =>
    match o with
    | 0x00 => lkWord s 9
    | 0x04 => (List.finRange 4).foldl (fun a p =>
        a ||| pack [(p.1, bit s.wayp.p[p].calValid), (4 + p.1, bit s.wayp.p[p].planeConn)]) 0#32
    | 0x08 => w32 s.wayp.margin
    | _ => 0#32

/-! ## Commands (12 R266, R267) -/

/-- The port a byte names. -/
def portArg (v : BitVec 8) : Option (Fin 4) := fin? 4 v.toNat

/-- A port's link is down or its mode disabled. -/
def portDown (s : State) (v : BitVec 8) : Bool := (portArg v).elim false fun p => !s.port.p[p].link || s.port.p[p].mode == 0

/-- A calibration series runs on a port. -/
def calBusy (s : State) (v : BitVec 8) : Bool := (portArg v).elim false fun p => s.wayp.p[p].cal.isSome

/-- `ICP_WAYP_CONFIG`. -/
def execIcpWaypConfig (c : CmdRef) (margin : BitVec 16) (rsv : Bool) (s : State) : Out :=
  icpDo c 0x610
    (fun _ => [(rsv || margin == 0#16, stBadArg), (outside margin.toNat 500 50000, stRange)])
    (fun s => { s with wayp := { s.wayp with margin := margin.toNat } })
    (fun _ => []) s

/-- `ICP_WAYP_TSQ_LIMIT`. -/
def execIcpWaypTsqLimit (c : CmdRef) (slot port limit : BitVec 8) (rsv : Bool) (s : State) : Out :=
  icpDo c 0x611
    (fun _ => [(rsv || decide (7 < slot.toNat) || (portArg port).isNone || limit == 0#8, stBadArg), (decide (64 < limit.toNat), stRange)])
    (fun s => match portArg port, fin? 8 slot.toNat with
      | some p, some i => onWayp p (fun w => { w with tsqSlot := upd w.tsqSlot i fun t => { t with limit := limit.toNat } }) s
      | _, _ => s)
    (fun _ => []) s

/-- Starts a calibration series: pulses go out with the next second boundaries, the first loop-back frame at once (12 R253,
R266). -/
def calStart (c : CmdRef) (port rx : BitVec 8) (n : BitVec 16) (loop_ : Bool) (s : State) : State :=
  match portArg port with
  | some p =>
    let k : WaypCal := { cmd := c, loop_ := loop_, n := n.toNat, rx := (portArg rx).getD 0, left := n.toNat - bit loop_, start := s.time.odo }
    let s1 := onWayp p (fun w => { w with cal := some k }) s
    if loop_ then calLaunch p (nowQ s) s1 else s1
  | none => s

/-- A command whose answer comes with an event. -/
def icpLater (c : CmdRef) (op : Nat) (chk : State → List (Bool × Nat)) (eff : State → State) (s : State) : Out :=
  icp c op (fun s => if firstFail (chk s) = stOk then .later (eff s) else .done (firstFail (chk s)) [] s) s

/-- `ICP_WAYP_CAL_PULSE`: completes with WAYP_CAL_DONE. -/
def execIcpWaypCalPulse (c : CmdRef) (port : BitVec 8) (n : BitVec 16) (rsv : Bool) (s : State) : Out :=
  icpLater c 0x612
    (fun s => [(rsv || (portArg port).isNone || n == 0#16, stBadArg), (decide (1000 < n.toNat), stRange),
      (!ppsRuns s s.mile.pps[0] || portDown s port, stOrder), (calBusy s port, stBusy)])
    (calStart c port port n false) s

/-- `ICP_WAYP_LOOPBACK`: completes with WAYP_CAL_DONE of the transmit port. -/
def execIcpWaypLoopback (c : CmdRef) (tx rx : BitVec 8) (n : BitVec 16) (rsv : Bool) (s : State) : Out :=
  icpLater c 0x613
    (fun s => [(rsv || (portArg tx).isNone || (portArg rx).isNone || n == 0#16, stBadArg), (decide (1000 < n.toNat), stRange),
      (portDown s tx || portDown s rx, stOrder), (calBusy s tx, stBusy)])
    (calStart c tx rx n true) s

/-- `ICP_WAYP_CAL_SET`: for the mode and FEC option in force, loaded at once; LOCKED while TIME_CTRL.LK holds
TIME_CAL_UNCp (DEDUCED, log 131). -/
def execIcpWaypCalSet (c : CmdRef) (a : CalSetArgs) (s : State) : Out :=
  icpDo c 0x614
    (fun s => [(a.rsv || (portArg a.port).isNone || a.unc == 0#16, stBadArg),
      (decide (1000000 < a.txLat.toNat) || decide (1000000 < a.rxLat.toNat) || decide (4000 < a.unc.toNat), stRange),
      (s.regs.lk.getLsbD 3, stLocked)])
    (fun s => match portArg a.port with
      | some p => calLoad p (calStore p s.port.p[p].mode s.port.p[p].fec
          { txLat := a.txLat.toNat, rxLat := a.rxLat.toNat, unc := a.unc.toNat, conn := a.conn, eq := s.port.p[p].eq } s)
      | none => s)
    (fun _ => []) s

end Sys2Proof.Machine
end

