-- ==== Sys2Proof/Machine/Service.lean ====
section
/-!
DEFINITION. The authenticated time service: request checks, Tollgate, NTS exchanges, response content, its registers and
commands (13).
-/
namespace Sys2Proof.Machine
open Sys2Proof

/-! ## Slots, counters and once-per-idle-second interrupts (13 R296, R298, R299) -/

/-- Updates the service block. -/
def onServ (f : ServSt → ServSt) (s : State) : State := { s with serv := f s.serv }

/-- Updates a slot's service state. -/
def onServSlot (i : Fin 8) (f : ServSlot → ServSlot) (s : State) : State :=
  onServ (fun v => { v with slots := upd v.slots i f }) s

/-- Counts a service counter for a transaction. -/
def txnCount (t : Txn) (k n : Nat) (s : State) : State := servCount t.port k t.slot t.src n s

/-- At least one second of the Odometer lies between the last event and now. -/
def idleSecond (last : Option Nat) (s : State) : Bool := last.elim true fun k => decide (k + 781250000 ≤ s.time.odo)

/-- Sets bits of a slot's SERV_HIST. -/
def servHist (i : Fin 8) (v : Word) (s : State) : State := stickyAt i.1 0xA0040 v s

/-- A DROP_NO_SLOT or DROP_NO_CREDIT of a slot. -/
def servOver (i : Fin 8) (s : State) : State :=
  let s1 := onServSlot i (fun q => { q with lastOver := some s.time.odo }) (servHist i 1#32 s)
  if idleSecond s.serv.slots[i].lastOver s then raiseOwn i 160 s1 else s1

/-- A DROP_RATE_LIMITED of a slot. -/
def servLimited (i : Fin 8) (s : State) : State :=
  let s1 := onServSlot i (fun q => { q with lastRate := some s.time.odo }) (servHist i 2#32 s)
  if idleSecond s.serv.slots[i].lastRate s then raiseOwn i 161 s1 else s1

/-- An NTS reject of a slot. -/
def servReject (i : Fin 8) (s : State) : State :=
  let s1 := onServSlot i (fun q => { q with lastNak := some s.time.odo }) (servHist i 4#32 s)
  if idleSecond s.serv.slots[i].lastNak s then raiseOwn i 162 s1 else s1

/-! ## Tollgate (13 R273-R279) -/

/-- Network address masked to the prefix that defines one source (13 R268). -/
def sourceOf (a : ServAddr) : NetAddr → NetAddr
  | .v4 x => .v4 x
  | .v6 x => .v6 (BitVec.ofNat 128 (x.toNat / 2 ^ (128 - a.prefix6) * 2 ^ (128 - a.prefix6)))

/-- Bucket of a source at an address (13 R273); the family byte is 4 or 6. -/
def bucketOf (s : State) (i : Fin 8) (a : ServAddr) (src : NetAddr) : Nat :=
  let fam : Byte := match src with | .v4 _ => 4#8 | .v6 _ => 6#8
  low 18 (Config.siphash s.serv.hashKey ([BitVec.ofNat 8 i.1, fam] ++ addrRaw (sourceOf a src))).toNat

/-- Emission interval of an address, units of 1,024 ticks (13 R274). -/
def emission (rate : Nat) : Nat := (rdiv 1600000000000 (rate * 131072)).toNat

/-- Tollgate time: Odometer bits [41:10]. -/
def tollTime (s : State) : BitVec 32 := BitVec.ofNat 32 (s.time.odo / 1024)

/-- A bucket. -/
def bucketAt (s : State) (b : Nat) : Bucket := mget {} b s.serv.tollgate

/-- Replaces a bucket. -/
def bucketSet (b : Nat) (x : Bucket) (s : State) : State := onServ (fun v => { v with tollgate := mset {} b x v.tollgate }) s

/-- The bucket conforms (13 R274). -/
def conforms (s : State) (a : ServAddr) (x : Bucket) : Bool :=
  decide ((x.tat - tollTime s).toInt ≤ ((a.burst - 1) * emission a.rate : Nat))

/-- The bucket of an admitted request. -/
def Bucket.pass (s : State) (a : ServAddr) (x : Bucket) : Bucket :=
  let t := tollTime s
  { x with tat := (if (x.tat - t).toInt < 0 then t else x.tat) + BitVec.ofNat 32 (emission a.rate) }

/-- A Kiss-o'-Death may be sent for a bucket (13 R279). -/
def kodMay (s : State) (x : Bucket) : Bool := !x.kodValid || decide (8 ≤ (secNow s + 4096 - x.kodAt.toNat) % 4096)

/-- Records the sending of a bucket's Kiss-o'-Death (13 R279). -/
def kodMark (b : Nat) (s : State) : State :=
  bucketSet b { bucketAt s b with kodAt := BitVec.ofNat 12 (secNow s), kodValid := true } s

/-- Fills a pool for a number of ticks; it holds at most 64 credits (13 R276, R278). -/
def CreditPool.fill (ticks : Nat) (c : CreditPool) : CreditPool :=
  let n := c.frac + ticks * c.rate
  if 64 ≤ c.credits + n / 781250 then { c with credits := 64, frac := 0 }
  else { c with credits := c.credits + n / 781250, frac := n % 781250 }

/-- Fills every pool up to now. -/
def fillPools (s : State) : State :=
  let d := s.time.odo - s.serv.poolTick
  onServ (fun v => { v with
    pool := v.pool.fill d
    portPool := v.portPool.map (·.fill d)
    slots := v.slots.map fun q => { q with pool := q.pool.fill d }
    poolTick := s.time.odo }) s

/-- Authenticated work is possible: PD_CRYPT runs with an AES lane in service, Canister loaded at a start or after an ungating, and the random bit
generator in service (13 R295, 02 R32 R35, 17 R375). -/
def ntsUp (s : State) : Bool := powered s 5 && s.serv.aesLanes != 0#8 && s.vault.rootOk && s.vault.rngOk

/-- Credits are held for a request in all three pools. -/
def hasCredit (s : State) (p : Fin 4) (i : Fin 8) (n : Nat) : Bool :=
  ntsUp s && decide (n ≤ s.serv.pool.credits) && decide (n ≤ s.serv.portPool[p].credits) &&
  decide (n ≤ s.serv.slots[i].pool.credits)

/-- Takes credits from the three pools together (13 R278). -/
def takeCredit (p : Fin 4) (i : Fin 8) (n : Nat) (s : State) : State :=
  let f (c : CreditPool) : CreditPool := { c with credits := c.credits - n }
  onServSlot i (fun q => { q with pool := f q.pool }) (onServ (fun v => { v with
    pool := f v.pool, portPool := upd v.portPool p f }) s)

/-- Test 1 of R277. -/
def servOpen (s : State) : Bool :=
  (s.sys.mode == .acquire || s.sys.mode == .serve || s.sys.mode == .holdover) && leaseHeld s && !s.foot.fenced && !s.sys.admissionStopped

/-- In-flight slots that test 3 counts (13 R277, 22 R464 kind 1). -/
def inflightMax (s : State) : Nat := if s.pert.k[1].armed then min 512 (bits s.pert.k[1].cfg0.toNat 9 0) else 512

/-- An in-flight slot is free. -/
def slotFree (s : State) : Bool := decide (s.serv.inflight.length < inflightMax s)

/-! ## Request checks (13 R271, R272) -/

/-- The tags of a frame suit an address: none with VLAN 0, or exactly one whose VLAN ID equals VLAN (13 R271). -/
def vlanOk (a : ServAddr) (vlans : List (BitVec 12)) : Bool :=
  (vlans.isEmpty && a.vlan = 0) || vlans.map BitVec.toNat == [a.vlan]

/-- The listening address a request is for, and its slot (13 R271). -/
def servAddrOf (s : State) (p : Fin 4) (dst : NetAddr) (vlans : List (BitVec 12)) : Option (Fin 8 × ServAddr) :=
  (List.finRange 8).findSome? fun i => (s.serv.slots[i].addrs.toList.filterMap id).findSome? fun a =>
    if a.addr == dst && a.ports.getLsbD p.1 && vlanOk a vlans then some (i, a) else none

/-- An NTS request is well formed (13 R272). -/
def ntsWf (r : NtpReq) : Bool :=
  r.version == 4#3 &&
  (match r.uids with | [u] => within u.length 32 64 | _ => false) &&
  (match r.cookies with | [k] => r.placeholders.all (· == k.length + 4) | _ => false) &&
  (match r.auth with | some a => a.1.length == 16 && within a.2.length 16 272 | none => false)

/-- The request is an NTS request. -/
def isNts (r : NtpReq) : Bool := !r.uids.isEmpty

/-- Checks 1-7 of R271: the counter of the drop, or none. -/
def servCheck (a : ServAddr) (frag csumBad : Bool) (r : Option NtpReq) : Option Nat :=
  match r with
  | none => some 2
  | some r =>
    if frag || csumBad || decide (r.len < 48) || r.mode != 3#3 || !(r.version == 3#3 || r.version == 4#3) then some 2
    else if r.version == 4#3 && !r.extOk then some 2
    else if isNts r && !ntsWf r then some 2
    else if isNts r && !a.nts then (if a.ntp then none else some 3)
    else if !isNts r && !a.ntp then some 3
    else none

/-- Frame length of an NTP payload sent from an address (13 R288, 11 R234). -/
def ntpFrame (a : ServAddr) (tagged : Bool) (payload : Nat) : Nat :=
  max 64 (18 + (if tagged then 4 else 0) + (match a.addr with | .v4 _ => 20 | .v6 _ => 40) + 8 + payload)

/-- NTP payload of the full response of a transaction (13 R284). -/
def respPayload (nts : Bool) (uid cookies : Nat) : Nat := if nts then 48 + (4 + uid) + 40 + 108 * cookies else 48

/-! ## The launch of a transaction: header and reservation (13 R286-R294) -/

/-- Responses are in the synchronised state of the table "NTP header fields". -/
def synced (s : State) : Bool :=
  s.sys.mode == .serve || (s.sys.mode == .holdover && (!s.guy.oos || s.guy.policyContinue))

/-- The slot whose reference a response names: the selected one, or the one selected last. -/
def refSlot (s : State) : Option (Fin 12) := s.sign.sel.orElse fun _ => s.sign.selPrev

/-- Reference identifiers (13 table "Reference identifiers"). -/
def refIdOf (s : State) : BitVec 32 :=
  match refSlot s with
  | some n => if n == 0 then 0x474E5353#32 else if isPps n then 0x50505300#32 else if isPtp n then 0x50545000#32
      else if n == 11 then 0x50454552#32 else 0#32
  | none => 0#32

/-- Half the smear window of a leap in ns: W/2, or the time from the announcement A to LEAP_AT where A is later than S; none
where W' lies below 3,600 s (13 R293). -/
def smearHalf (leapAt ann w : Nat) : Option Nat :=
  let half := min (w * 500000000) (leapAt * 1000000000 - ann)
  if 1800000000000 ≤ half then some half else none

/-- The leap a smeared address smears at a TAI time in ns, with OFFSET before it and half its window: the announced one, or
the one applied last (03 R61). -/
def smearLeap (s : State) (t : Nat) (w : Nat) : Option (Nat × LeapKind × Int × Nat) :=
  let inside (leapAt half : Nat) : Bool := decide (leapAt * 1000000000 ≤ t + half) && decide (t < leapAt * 1000000000 + half)
  let now := s.time.leap.bind fun k => ((smearHalf s.time.leapAt s.time.announcedAt w).filter (inside s.time.leapAt)).map
    fun h => (s.time.leapAt, k, s.time.utcOffset, h)
  now.orElse fun _ => s.time.lastLeap.bind fun l => ((smearHalf l.leapAt l.announced w).filter (inside l.leapAt)).map
    fun h => (l.leapAt, l.kind, l.before, h)

/-- A counter value as an NTP timestamp, and whether it is smeared (13 R287, R292, 03 R61). -/
def ntpTime (s : State) (smear : Option Nat) (c : Nat) : BitVec 64 × Bool :=
  let t := secOf c
  let x : Int := (c % secU / 2 ^ 32 : Nat)
  let sm := smear.bind fun w => smearLeap s (c / nsU) w
  let y : Int := match sm with
    | some (leapAt, k, o, h) => ((t : Int) - o) * 65536000000000 + x - leapStep k * (smearC leapAt h (c / nsU)) * 65536
    | none => ((t : Int) - utcOfsAt s t) * 65536000000000 + x
  let f := (rdiv (y % 65536000000000 * 65536) 1000000000).toNat
  (BitVec.ofNat 64 (((y / 65536000000000 + 2208988800) % 2 ^ 32).toNat * 2 ^ 32 + f), sm.isSome)

/-- The address smears the announced leap (13 R293). -/
def smears (s : State) (a : ServAddr) : Bool :=
  a.smear && (smearHalf s.time.leapAt s.time.announcedAt a.w).isSome

/-- Leap indicator of a synchronised response (13 R290, R292). -/
def leapInd (s : State) (a : ServAddr) (sec : Nat) : Nat :=
  match s.time.leap with
  | some k => if !smears s a && s.time.leapAt ≤ sec + 86400 && sec < s.time.leapAt then (match k with | .leap61 => 1 | .leap59 => 2) else 0
  | none => 0

/-- A transaction is answered with a Kiss-o'-Death or an NTS-NAK: its reference identifier. -/
def kissId (t : Txn) : Option (BitVec 32) :=
  if t.kodR then some 0x52415445#32 else if t.nts && t.authOk != 1 then some 0x4E54534E#32 else none

/-- Root dispersion: ERRB in NTP short format, rounded up (13 R289). -/
def rootDisp (e : Nat) : Nat := if e = 0xFFFFFFFF then 0xFFFFFFFF else cdiv (e * 32) 1953125

/-- The header of a response with its transmit stamp, sampled at reservation (13 R286, R291). -/
def ntpHeader (s : State) (t : Txn) (stamp : Nat) : NtpHdr × Bool :=
  let smear := if t.cfg.smear then some t.cfg.w else none
  let x := ntpTime s smear stamp
  let sync := synced s
  let base : NtpHdr := {
    vn := t.version, poll := t.poll, precision := (match s.port.p[t.port].mode with | 1 => -29 | 2 => -28 | _ => -27)
    rootDisp := rootDisp (errbPort s t.port), origin := t.origin, xmit := x.1 }
  match kissId t with
  | some r => ({ base with li := 3, stratum := 0, refId := r }, x.2)
  | none => ({ base with
      li := if sync then leapInd s t.cfg (secOf stamp) else 3
      stratum := if sync then 1 else 16
      refId := if sync then refIdOf s else if s.sys.mode == .acquire then 0x494E4954#32 else 0x484F4C44#32
      refTs := if s.time.refTs = 0 then 0#64 else (ntpTime s smear s.time.refTs).1
      recv := t.recv }, x.2)

/-- Updates the transaction with an identifier. -/
def onTxn (id : Nat) (f : Txn → Txn) (s : State) : State :=
  onServ (fun v => { v with inflight := v.inflight.map fun t => if t.id == id then f t else t }) s

/-- A transaction that reaches reservation after admission ended for the mode or the lease (13 R294). -/
def dropLease (t : Txn) (s : State) : State :=
  freeTxn (launchTxn false t.id) (waitEnd t.port (launchTxn false t.id) (servHist t.slot 0x20#32 (txnCount t 19 1 s)))

/-- The time from arrival to reservation enters the means of R276. -/
def resided (t : Txn) (s : State) : State :=
  let ns := ((posTick s.time.odo - t.arrPos) / 33000).toNat
  onServ (fun v => if t.nts then { v with resSum := v.resSum + ns, resCnt := v.resCnt + 1 }
    else { v with resSumN := v.resSumN + ns, resCntN := v.resCntN + 1 }) s

/-- The reservation of a transaction that holds one: header and stamp are written; a hard-invalidated one is discarded as it
reaches the launch pool (12 R257, 17 R381). -/
def servReserved (t : Txn) (s : State) : State :=
  let r := reserveSlot t.port (launchTxn false t.id) t.respLen t.slot.1 s
  let h := ntpHeader r.2 t r.1.stamp
  let s1 := onTxn t.id (fun t => { t with reserved := true, hdr := some h.1, smeared := h.2 })
    (resided t (waitEnd t.port (launchTxn false t.id) r.2))
  if t.discard then discardOne t.port r.1 s1 else s1

/-- A transaction asks for its launch slot (13 R291, R294, 12 R256). -/
def servReserve (t : Txn) (s : State) : State :=
  if !((s.sys.mode == .acquire || s.sys.mode == .serve || s.sys.mode == .holdover) && leaseHeld s) then dropLease t s
  else if mayReserve s t.port (launchTxn false t.id) && slotFits s t.port t.respLen t.arrPos then servReserved t s
  else if s.wayp.p[t.port].waiting.any (·.txn == launchTxn false t.id) then s
  else waitFor t.port { txn := launchTxn false t.id, len := t.respLen, arrival := t.arrPos, owner := t.slot.1 } s

/-! ## Admission (13 R277) -/

/-- A transaction takes an in-flight slot; an unauthenticated one goes on to its reservation. -/
def admitTxn (t : Txn) (s : State) : State :=
  let t1 : Txn := { t with id := s.serv.nextTxn }
  let s1 := onServ (fun v => { v with inflight := v.inflight ++ [t1], nextTxn := v.nextTxn + 1 }) s
  let s2 := stickyMax 0xA0010 16 10 s1.serv.inflight.length s1
  if t1.nts then s2 else servReserve t1 s2

/-- The keys of an NTS transaction as they stand at admission (13 R281, 17 R379, R382). -/
def txnKeys (s : State) (i : Fin 8) (cookie : List Byte) (t : Txn) : Txn :=
  let id := beVal (cookie.take 4)
  let k := if cookie.length = 104 && id / 2 ^ 29 = i.1 then (findKey s i.1 false 0 (id % 2 ^ 29)).filter (usable s ·) else none
  let c := currentKey s i.1 false 0
  { t with
    keyNum := k.map fun j => s.vault.keys[j].num, key := (k.map fun j => s.vault.keys[j].key).getD []
    keyAt := k.map fun j => (j.1, s.vault.keys[j].gen), sealAt := c.map fun j => (j.1, s.vault.keys[j].gen)
    sealNum := c.map fun j => s.vault.keys[j].num, sealKey := (c.map fun j => s.vault.keys[j].key).getD [] }

/-- A Kiss-o'-Death of a bucket is on its way: a bucket produces at most one in any 8 s (13 R279). -/
def kodPending (s : State) (b : Nat) : Bool := s.serv.inflight.any fun t => t.kodR && !t.silent && t.bucket == b

/-- A Kiss-o'-Death for a request that fails test 2: tests 3 and 4 as a transaction of its own (13 R279). -/
def kissOfDeath (t : Txn) (s : State) : State :=
  if !(t.cfg.kod && kodMay s (bucketAt s t.bucket) && !kodPending s t.bucket && slotFree s && (!t.nts || hasCredit s t.port t.slot 1)) then s
  else
    let k : Txn := { t with kodR := true, cookies := 0, respLen := ntpFrame t.cfg t.tagged (respPayload t.nts t.uid.length 0) }
    admitTxn k (if t.nts then takeCredit t.port t.slot 1 s else s)

/-- A request refused by test 1 during the drain of `ICP_QUIESCE` counts in its response (02 R46 step 2). -/
def quiesceDropped (s : State) : State :=
  { s with sys := { s.sys with quiesce := s.sys.quiesce.map fun q =>
    if s.sys.admissionStopped then { q with dropped := satU 32 (q.dropped + 1) } else q } }

/-- A request that reached Tollgate (13 R277). -/
def tollgate (t : Txn) (s0 : State) : State :=
  let s := fillPools s0
  let b := bucketAt s t.bucket
  if !servOpen s then quiesceDropped (txnCount t 4 1 s)
  else if t.cfg.limitEn && !conforms s t.cfg b then kissOfDeath t (servLimited t.slot (txnCount t 5 1 s))
  else if !slotFree s then servOver t.slot (txnCount t 6 1 s)
  else if t.nts && !hasCredit s t.port t.slot t.cookies then servOver t.slot (txnCount t 7 1 s)
  else
    let s1 := txnCount t 8 1 (bucketSet t.bucket (b.pass s t.cfg) s)
    let s2 := if t.nts then takeCredit t.port t.slot t.cookies s1 else s1
    let s3 := if t.nts && (ringKeys s t.slot.1 false 0).isEmpty then raiseOwn t.slot 164 (servHist t.slot 8#32 s2) else s2
    admitTxn t s3

/-- A request claimed by the service pipeline (13 R271). -/
def servRequest (f : RxFrame) (src : NetAddr) (sport : BitVec 16) (dscp : BitVec 6) (frag csumBad : Bool) (r : Option NtpReq)
    (i : Fin 8) (a : ServAddr) (stamp : Nat) (pos : Int) (s : State) : State :=
  match servCheck a frag csumBad r, r with
  | some k, _ => servCount f.port k i src 1 s
  | none, none => s
  | none, some r =>
    let nts := isNts r && a.nts
    let cookie := if nts then r.cookies.headD [] else []
    let n := if nts then min (1 + r.placeholders.length) s.serv.maxCookies else 0
    let uid := if nts then r.uids.headD [] else []
    let auth := r.auth.getD ([], [])
    let t : Txn := {
      port := f.port, slot := i, cfg := a, nts := nts, bucket := bucketOf s i a src, reqLen := r.len, version := r.version.toNat,
      poll := r.poll, origin := r.xmit, uid := uid, cookies := n, cookie := cookie, arrival := stamp, arrPos := pos,
      recv := (ntpTime s (if a.smear then some a.w else none) stamp).1,
      tagged := !f.vlans.isEmpty
      respLen := ntpFrame a (!f.vlans.isEmpty) (respPayload nts uid.length n), src := src, mac := f.smac, sport := sport, dscp := dscp, prio := f.prio,
      ct := if nts then auth.1 else [], tag := if nts then auth.2 else [], aad := if nts then r.aad else [] }
    tollgate (if nts then txnKeys s i cookie t else t) (servCount f.port (bit nts) i src 1 s)

/-! ## NTS exchange (13 R280-R284) -/

/-- Plaintext of a cookie (13 R280). -/
def cookiePlain (c2s s2c : List Byte) : List Byte := be 2 15 ++ [1#8, 0#8] ++ c2s ++ s2c

/-- A cookie sealed under a master key. -/
def sealCookie (key : List Byte) (kid : Nat) (nonce : List Byte) (plain : List Byte) : List Byte :=
  be 4 kid ++ nonce ++ (List.range 84).map (Config.sivSeal key nonce (be 4 kid) plain)

/-- C2S and S2C of a transaction's cookie, when it opens and its ALG and FMT are right (13 R282). -/
def openCookie (t : Txn) : Option (List Byte × List Byte) :=
  if t.keyNum.isNone || t.cookie.length != 104 then none
  else (Config.sivOpen t.key ((t.cookie.drop 4).take 16) (t.cookie.take 4) (t.cookie.drop 20)).bind fun m =>
    if m.length == 68 && beVal (m.take 2) == 15 && m.getD 2 0#8 == 1#8 then some ((m.drop 4).take 32, m.drop 36) else none

/-- Outcome of the work list: 1 verified, 2 cookie rejected, 3 tag rejected; a verified request whose slot's ring has no CURRENT
key when the cookies are sealed counts as a rejected cookie (13 R282, R283). -/
def authResult (cur : Bool) (t : Txn) : Nat :=
  match openCookie t with
  | none => 2
  | some k => if (Config.sivOpen k.1 t.ct t.aad t.tag).isNone then 3 else if !cur && !t.kodR then 2 else 1

/-- NTS_CRYPTO_DONE: the work list of an NTS transaction reaches its reservation (13 R282, R283). -/
def execNtsCryptoDone (id : Nat) (s : State) : Out :=
  .next (match s.serv.inflight.find? fun t => t.id == id && t.nts && t.authOk = 0 with
  | none => s
  | some t =>
    let cur := currentKey s t.slot.1 false 0
    let a := authResult cur.isSome t
    let may := kodMay s (bucketAt s t.bucket)
    let late := if t.sealNum.isSome then none else cur
    let t1 : Txn := { t with
      sealNum := t.sealNum.orElse fun _ => late.map fun j => s.vault.keys[j].num
      sealKey := late.elim t.sealKey fun j => s.vault.keys[j].key
      sealAt := late.elim t.sealAt fun j => some (j.1, s.vault.keys[j].gen)
      authOk := a, draw0 := s.vault.draws, silent := a != 1 && (t.kodR || !s.serv.nakEn) || t.kodR && !may }
    let s1 := onTxn id (fun _ => t1) { s with vault := { s.vault with draws := s.vault.draws + t.cookies + 1 } }
    let s2 := if t.kodR || a = 1 then s1 else servReject t.slot (txnCount t (if a = 2 then 10 else 11) 1 s1)
    servReserve t1 s2)

/-- Header bytes of a response. -/
def hdrBytes (h : NtpHdr) : List Byte :=
  [BitVec.ofNat 8 (h.li * 64 + h.vn * 8 + 4), BitVec.ofNat 8 h.stratum, h.poll, BitVec.ofNat 8 (twos 8 h.precision)] ++
  be 4 h.rootDelay ++ be 4 h.rootDisp ++ be 4 h.refId.toNat ++ be 8 h.refTs.toNat ++ be 8 h.origin.toNat ++ be 8 h.recv.toNat ++
  be 8 h.xmit.toNat

/-- An extension field. -/
def extField (ty : Nat) (body : List Byte) : List Byte := be 2 ty ++ be 2 (body.length + 4) ++ body

/-- The cookies of a response: sealed under the CURRENT key of admission (13 R284). -/
def newCookies (t : Txn) (k : List Byte × List Byte) : List (List Byte) :=
  (List.range t.cookies).map fun j =>
    sealCookie t.sealKey (keyId t.slot.1 (t.sealNum.getD 0)) (randBytes (t.draw0 + j) 16) (cookiePlain k.1 k.2)

/-- The UDP payload of a response: header, Unique Identifier field, authenticator field (13 R283, R284, R286). -/
def NtpOut.payload (o : NtpOut) : List Byte :=
  hdrBytes o.hdr ++ (if o.uid.isEmpty then [] else extField 0x0104 o.uid) ++
    if o.auth.isEmpty then [] else extField 0x0404 (be 2 16 ++ be 2 (o.auth.length - 16) ++ o.auth)

/-- The UDP checksum of a response over its pseudo-header, ports, length and payload (13 R288). -/
def NtpOut.udpSum (o : NtpOut) : BitVec 16 :=
  let len := 8 + o.payload.length
  checksum (sum16 (addrRaw o.src) + sum16 (addrRaw o.dst) + 17 + len + (o.sport.toNat + o.dport.toNat + len) + sum16 o.payload)

/-- The frame a transaction sends (13 R283, R284, R286, R288). -/
def ntpOut (s : State) (t : Txn) : NtpOut :=
  let base : NtpOut := {
    port := t.port, hdr := t.hdr.getD {}, dmac := t.mac, smac := s.port.p[t.port].mac, dst := t.src, src := t.cfg.addr,
    dport := t.sport, tagged := t.tagged, vlan := t.cfg.vlan, prio := t.prio, dscp := t.dscp, uid := t.uid }
  let whole : NtpOut := match (if t.nts && t.authOk == 1 then openCookie t else none) with
    | none => base
    | some k =>
      let cs := newCookies t k
      let nonce := randBytes (t.draw0 + t.cookies) 16
      let aad := hdrBytes base.hdr ++ extField 0x0104 t.uid
      let body := cs.flatMap (extField 0x0204)
      { base with cookies := cs, auth := nonce ++ (List.range (16 + body.length)).map (Config.sivSeal k.2 nonce aad body) }
  { whole with csum := whole.udpSum }

/-- A service transaction's frame goes out at its D: counters of R298 and the frame itself. -/
def servLaunch (t : Txn) (s : State) : State :=
  let s1 := onServ (fun v => { v with lastOut := some (ntpOut s t) }) s
  if t.kodR then txnCount t 9 1 (kodMark t.bucket s1)
  else if t.nts && t.authOk != 1 then txnCount t 12 1 s1
  else
    let s2 := txnCount t (if t.nts then 14 else 13) 1 s1
    let s3 := if t.smeared then txnCount t 15 1 s2 else s2
    if t.nts then txnCount t 16 t.cookies s3 else s3

/-! ## Events of Tollgate and smear -/

/-- CREDIT_RATE_UPDATE: every 100 ms (13 R276). -/
def execCreditRateUpdate (s0 : State) : Out :=
  if !s0.sys.mgmtFwRunning then .next s0
  else
    let s := fillPools s0
    let v := s.serv
    let tp := if v.resCnt = 0 then 4000 else v.resSum / v.resCnt
    let r := min (v.creditMax * ones v.aesLanes / 8) (512000000 / (tp + s.wayp.margin))
    let k := s.pert.k[1]
    let r1 := if k.armed then r * bits k.cfg1.toNat 6 0 / 100 else r
    .next (onServ (fun v => { v with
      tProc := tp, tProcNtp := (if v.resCntN = 0 then v.tProcNtp else v.resSumN / v.resCntN), pool := { v.pool with rate := r1 }
      resSum := 0, resCnt := 0, resSumN := 0, resCntN := 0 }) s)

/-- A bucket after the scrubber's visit (13 R275). -/
def Bucket.scrub (s : State) (x : Bucket) : Bucket :=
  let t := tollTime s
  { x with
    tat := if (x.tat - t).toInt < 0 then t else x.tat
    kodValid := x.kodValid && decide ((secNow s + 4096 - x.kodAt.toNat) % 4096 < 8) }

/-- TOLLGATE_SCRUB_VISIT: a bucket is visited; a sweep that takes more than 600 s is late and starts anew (13 R275, R296,
R297). -/
def execTollgateScrubVisit (b : BitVec 18) (s : State) : Out :=
  if !timeUp s then .next s
  else
    let s1 := bucketSet b.toNat ((bucketAt s b.toNat).scrub s) s
    let v := s1.serv
    let now := s.time.odo
    .next (
      if 468750000000 < now - v.sweepStart then
        faultEvent 26 (raise 166 (onServ (fun v => { v with sweepStart := now, sweepPos := 0 }) s1))
      else if b.toNat != v.sweepPos then s1
      else if v.sweepPos + 1 < 262144 then onServ (fun v => { v with sweepPos := v.sweepPos + 1 }) s1
      else onServ (fun v => { v with
        sweepPos := 0, sweepStart := now, scrubEnd := now, scrubDur := satU 16 ((now - v.sweepStart) / 781250000) }) s1)

/-- The smear window of an address is open now (13 R293). -/
def smearOpenNow (s : State) (a : ServAddr) : Bool := a.smear && (smearLeap s (cntNow s / nsU) a.w).isSome

/-- SMEAR_WINDOW_EDGE: a window opens or closes on an address (13 R293, R296). -/
def execSmearWindowEdge (slot : Fin 8) (idx : Fin 32) (s : State) : Out :=
  .next (match s.serv.slots[slot].addrs[idx] with
  | some a =>
    if smearOpenNow s a == a.smearOpen then s
    else raiseOwn slot 163 (servHist slot 0x10#32 (onServSlot slot (fun q => { q with
      addrs := q.addrs.set idx.1 (some { a with smearOpen := !a.smearOpen }) }) s))
  | none => s)

/-! ## Registers (13 R299) -/

/-- Addresses of a slot. -/
def addrCount (q : ServSlot) : Nat := (q.addrs.toList.filterMap id).length

/-- Addresses in the device. -/
def addrTotal (s : State) : Nat := (s.serv.slots.toList.map addrCount).sum

/-- KEY_ID of a slot's CURRENT NTS key, 0 when there is none. -/
def currentKeyId (s : State) (i : Nat) : Nat := (currentKey s i false 0).elim 0 fun k => keyId i s.vault.keys[k].num

/-- Fields of the SERV block that are not sticky. -/
def roServ (s : State) (rd o : Nat) : Word :=
  let v := s.serv
  match o with
  | 0x00 => lkWord s 0xA
  | 0x04 => pack [(0, bit (servOpen s)), (1, bit (synced s)), (2, bit (v.aesLanes != 0#8 && s.vault.storeLoaded)),
      (4, v.aesLanes.toNat), (12, v.shaEng.toNat)]
  | 0x08 => pack [(0, v.pool.rate), (16, v.creditMax)]
  | 0x0C => pack [(0, satU 16 v.tProc), (16, satU 16 v.tProcNtp)]
  | 0x10 => pack [(0, v.inflight.length)]
  | 0x14 => pack [(0, v.maxCookies), (4, bit v.nakEn), (8, (ringKeys s rd false 0).length)]
  | 0x18 => pack [(0, (fin? 8 rd).elim 0 fun i => addrCount v.slots[i]), (16, addrTotal s)]
  | 0x1C => w32 (currentKeyId s rd)
  | 0x20 => w32 ((fin? 8 rd).elim 0 fun i => v.slots[i].pool.rate)
  | 0x24 => pack [(0, v.scrubDur), (16, satU 16 ((s.time.odo - v.scrubEnd) / 781250000))]
  | _ => 0#32

/-! ## Commands (13 R300, R301) -/

/-- The address of an `ICP_SERV_ADDR_SET`. -/
def setAddr (a : AddrSetArgs) : NetAddr := if a.ipv6 then .v6 a.addr else .v4 (BitVec.ofNat 32 (a.addr.toNat / 2 ^ 96))

/-- An address is unicast (13 R301). -/
def isUnicast : NetAddr → Bool
  | .v4 a => a != 0#32 && decide (a.toNat / 2 ^ 28 < 14)
  | .v6 a => a != 0#128 && a.toNat / 2 ^ 120 != 0xFF

/-- Two addresses may not stand together in the device (13 R269). -/
def addrClash (a : ServAddr) (b : ServAddr) : Bool := a.addr == b.addr && a.vlan == b.vlan && (a.ports &&& b.ports) != 0#4

/-- The fields `ICP_SERV_ADDR_SET` stores. -/
def newAddr (a : AddrSetArgs) : ServAddr :=
  { addr := setAddr a, vlan := a.vlan.toNat, ports := BitVec.ofNat 4 a.ports.toNat, ntp := a.ntp, nts := a.nts, kod := a.kod,
    limitEn := a.limitEn, smear := a.smear, rate := a.rate.toNat, burst := a.burst.toNat, prefix6 := if a.ipv6 then a.prefix6.toNat else 64,
    w := if a.w = 0#32 then 86400 else a.w.toNat }

/-- Address at an index of a slot. -/
def addrAt (s : State) (i : Fin 8) (k : Nat) : Option ServAddr := (fin? 32 k).bind fun j => s.serv.slots[i].addrs[j]

/-- The addresses of the device other than one slot's index. -/
def otherAddrs (s : State) (i : Fin 8) (k : Nat) : List ServAddr :=
  (List.finRange 8).flatMap fun j => ((List.finRange 32).filter fun x => !(j == i && x.1 == k)).filterMap fun x => s.serv.slots[j].addrs[x]

/-- A change of SMEAR or W while the address's window is open (13 R293). -/
def smearLocked (s : State) (i : Fin 8) (a : AddrSetArgs) : Bool :=
  (addrAt s i a.idx.toNat).elim false fun o => smearOpenNow s o && (o.smear != a.smear || o.w != (newAddr a).w)

/-- `ICP_SERV_ADDR_SET`. -/
def execIcpServAddrSet (c : CmdRef) (a : AddrSetArgs) (s : State) : Out :=
  let i := c.slot
  icpDo c 0x700
    (fun s => [
      (a.rsv || decide (31 < a.idx.toNat) || (!a.ntp && !a.nts) || (!a.ipv6 && a.addr.toNat % 2 ^ 96 != 0), stBadArg),
      (!isUnicast (setAddr a) || a.vlan == 4095#16 || (a.ipv6 && decide (a.prefix6.toNat < 32)), stBadArg),
      (a.ports == 0#8 || a.rate == 0#32 || a.burst == 0#16 || (a.smear && a.w == 0#32), stBadArg),
      (decide (4095 < a.vlan.toNat) || decide (15 < a.ports.toNat) || (a.ipv6 && decide (128 < a.prefix6.toNat)), stRange),
      (decide (1048575 < a.rate.toNat) || decide (1024 < a.burst.toNat) || (a.w != 0#32 && outside a.w.toNat 3600 172800), stRange),
      (decide (2 ^ 30 ≤ (a.burst.toNat - 1) * emission a.rate.toNat), stRange),
      ((addrAt s i a.idx.toNat).isNone && decide (256 ≤ addrTotal s), stQuota),
      ((otherAddrs s i a.idx.toNat).any (addrClash (newAddr a)) || smearLocked s i a, stOrder)])
    (fun s => match fin? 32 a.idx.toNat with
      | some k =>
        let open_ := (addrAt s i k.1).elim false (·.smearOpen)
        onServSlot i (fun q => { q with addrs := q.addrs.set k.1 (some { newAddr a with smearOpen := open_ }) }) s
      | none => s)
    (fun _ => []) s

/-- One address of a list, as in `ICP_SERV_ADDR_SET`. -/
def addrRecord (k : Nat) (a : ServAddr) : List Byte :=
  let v6 := match a.addr with | .v6 _ => true | .v4 _ => false
  let flags := bit a.ntp + 2 * bit a.nts + 4 * bit a.kod + 8 * bit a.limitEn + 16 * bit v6 + 32 * bit a.smear
  let raw := addrBytes a.addr
  le 1 k ++ le 1 flags ++ le 1 a.ports.toNat ++ le 1 a.prefix6 ++ le 2 a.vlan ++ zeros 2 ++ raw ++ zeros (16 - raw.length) ++
    le 4 a.rate ++ le 2 a.burst ++ zeros 2 ++ le 4 a.w ++ zeros 4

/-- `ICP_SERV_ADDR_LIST`. -/
def execIcpServAddrList (c : CmdRef) (s : State) : Out :=
  icpGet c 0x702 (fun s =>
    let q := s.serv.slots[c.slot]
    le 1 (addrCount q) ++ zeros 3 ++ (List.finRange 32).flatMap fun k => q.addrs[k].elim [] (addrRecord k.1)) s

/-- `ICP_SERV_CONFIG`: CREDIT_RATE follows at the next update. -/
def execIcpServConfig (c : CmdRef) (a : ServConfigArgs) (s : State) : Out :=
  icpDo c 0x703
    (fun _ => [(a.rsv || a.creditMax == 0#16 || a.maxCookies == 0#8, stBadArg),
      (decide (32000 < a.creditMax.toNat) || decide (8 < a.maxCookies.toNat), stRange)])
    (onServ fun v => { v with creditMax := a.creditMax.toNat, maxCookies := a.maxCookies.toNat, nakEn := a.nakEn })
    (fun _ => []) s

/-- `ICP_SERV_SLOT_LIMIT`. -/
def execIcpServSlotLimit (c : CmdRef) (slot : BitVec 8) (limit : BitVec 16) (rsv : Bool) (s : State) : Out :=
  icpDo c 0x704
    (fun _ => [(rsv || decide (7 < slot.toNat) || limit == 0#16, stBadArg), (decide (32000 < limit.toNat), stRange)])
    (fun s => match fin? 8 slot.toNat with
      | some i => onServSlot i (fun q => { q with pool := { q.pool with rate := limit.toNat } }) (fillPools s)
      | none => s)
    (fun _ => []) s

/-- `ICP_SERV_STATUS`: SERV_HIST read as zero. -/
def execIcpServStatus (c : CmdRef) (s : State) : Out :=
  icpGet c 0x705 (fun s => viewBytes roServ s c.slot (regRun 0xA0004 9) ++ zeros 4) s

/-- `ICP_NTS_MINT`: up to eight cookies under the requesting slot's CURRENT key; BUSY while no lane or no generator is in
service (13 R285, R301; 17 R375). -/
def execIcpNtsMint (c : CmdRef) (a : MintArgs) (s : State) : Out :=
  icp c 0x710 (fun s =>
    let i := c.slot.1
    if a.rsv || a.count == 0#8 || a.alg != 15#16 then .done stBadArg [] s
    else if 8 < a.count.toNat then .done stRange [] s
    else
      match (if s.vault.storeLoaded then currentKey s i false 0 else none) with
      | none => .done stNoKey [] s
      | some k =>
        if !ntsUp s then .done stBusy [] s
        else
          let n := a.count.toNat
          let kid := keyId i s.vault.keys[k].num
          let cs := (List.range n).flatMap fun j =>
            sealCookie s.vault.keys[k].key kid (randBytes (s.vault.draws + j) 16) (cookiePlain a.c2s.toList a.s2c.toList)
          .done stOk (le 1 n ++ zeros 3 ++ le 4 kid ++ cs)
            (countN (192 + 17) (some c.slot) n { s with vault := { s.vault with draws := s.vault.draws + n } })) s

end Sys2Proof.Machine
end

