-- ==== Sys2Proof/Machine/Ptp.lean ====
section
/-!
DEFINITION. The PTP engine: instances, the grant table and its negotiation, the stream scheduler, authentication and message
content (14 R302-R319, R323).
-/
namespace Sys2Proof.Machine
open Sys2Proof

/-! ## Accessors -/

/-- Updates the PTP block. -/
def onPtp (f : PtpSt → PtpSt) (s : State) : State := { s with ptp := f s.ptp }

/-- Counts a PTP counter (14 R325). -/
def ptpCount (p : Fin 4) (k : Nat) (owner : Fin 8) (s : State) : State := countN (320 + 32 * p.1 + k) (some owner) 1 s

/-- Sets bits of a slot's PTPE_HIST. -/
def ptpHist (i : Fin 8) (v : Word) (s : State) : State := stickyAt i.1 0xB0080 v s

/-- Updates a slot's PTP state. -/
def onPtpSlot (i : Fin 8) (f : PtpSlot → PtpSlot) (s : State) : State := onPtp (fun v => { v with slots := upd v.slots i f }) s

/-- A stream that is not granted. -/
def noLog : Int := -8

/-- Entry of the grant table. -/
def grantGet (s : State) (i : Nat) : Grant := mget {} i s.ptp.grants

/-- Replaces an entry. -/
def grantSet (i : Nat) (g : Grant) (s : State) : State := onPtp (fun v => { v with grants := mset {} i g v.grants }) s

/-- An entry is free (14 R307). -/
def Grant.free (g : Grant) : Bool := g.logSync == noLog && g.logAnn == noLog && g.logDresp == noLog

/-- The listening address a unicast instance is bound to. -/
def instAddr (s : State) (k : PtpInst) : Option ServAddr := if k.unicast then addrAt s k.owner k.addrIdx else none

/-- Ports an instance serves (14 R302). -/
def instPorts (s : State) (k : PtpInst) : BitVec 4 := if k.unicast then (instAddr s k).elim 0#4 (·.ports) else k.ports

/-! ## Rates (14 R312) -/

/-- Rate of a stream, 1/8 message/s. -/
def rateU (l : Int) : Nat := if l = noLog then 0 else if l ≤ 0 then 8 * 2 ^ (-l).toNat else 8 / 2 ^ l.toNat

/-- Rate of a grant's Sync and Delay_Resp streams. -/
def Grant.rate (g : Grant) : Nat := rateU g.logSync + rateU g.logDresp

/-- Rate of a multicast instance over its ports. -/
def mcastRate (k : PtpInst) : Nat := if k.unicast then 0 else ones k.ports * (rateU k.logSync + 8 * k.mcastDresp)

/-- An entry has expired: its EXP second is over (14 R313). -/
def Grant.expired (s : State) (g : Grant) : Bool :=
  let d := (odoSec s + 16384 - g.exp) % 16384
  decide (1 ≤ d) && decide (d < 8192)

/-- What an entry grants now: an expired one nothing (14 R313). -/
def Grant.live (s : State) (g : Grant) : Grant := if g.expired s then {} else g

/-- Rate sum over the instances that satisfy a test; an expired grant's rates are free (14 R312, R313). -/
def rateSum (s : State) (test : PtpInst → Bool) : Nat :=
  (s.ptp.grants.map fun e => if (s.ptp.inst[e.2.inst]).elim false test && !e.2.expired s then e.2.rate else 0).sum +
  (s.ptp.inst.toList.map fun k => k.elim 0 fun k => if test k then mcastRate k else 0).sum

/-- AUTH_BUDGET (14 R312). -/
def authBudget (s : State) : Nat := 32000000 * ones s.serv.shaEng

/-- Grants of a slot. -/
def slotGrants (s : State) (i : Nat) : Nat := (s.ptp.grants.filter fun e => (s.ptp.inst[e.2.inst]).elim false (·.owner == i)).length

/-- AUTH_BUDGET below BUDGET: PTP_AUTH_CAP (33) follows (14 R324). -/
def authCap (s : State) : State := faultCond 33 (decide (authBudget s < s.ptp.budget)) s

/-! ## Authentication (14 R317, R318) -/

/-- Authenticated work is possible: PD_CRYPT is powered and a SHA-256 engine is in service (02 R32, 13 R295). -/
def shaUp (s : State) : Bool := powered s 5 && s.serv.shaEng != 0#4

/-- Canister slot of the key an instance or client signs with now; none when it cannot sign. -/
def signKey (s : State) (owner : Fin 8) (spp : Nat) : Option (Fin 64) :=
  if shaUp s then currentKey s owner.1 true spp else none

/-- A received message's AUTHENTICATION TLV verifies under a slot's ring. -/
def authVerify (s : State) (owner : Fin 8) (spp : Nat) (m : PtpRx) : Bool :=
  match m.auth with
  | none => false
  | some a =>
    shaUp s && a.count == 1 && a.last && a.spp.toNat == spp && a.secParam == 0#8 &&
    ((findKey s owner.1 true spp a.keyId.toNat).filter (usable s ·)).elim false fun k =>
      a.icv == (List.range 16).map (Config.hmac s.vault.keys[k].key a.bytes)

/-- A message failed authentication: AUTH_FAIL once per idle second, and the history (14 R324). -/
def authFail (p : Fin 4) (owner : Fin 8) (s : State) : State :=
  let s1 := onPtpSlot owner (fun q => { q with lastAuth := some s.time.odo }) (ptpHist owner 4#32 (ptpCount p 21 owner s))
  if idleSecond s.ptp.slots[owner].lastAuth s then raiseOwn owner 179 s1 else s1

/-! ## Message bytes (14 R317, R319; the layout of IEEE 1588-2019) -/

/-- messageType nibble. -/
def ptpType : PtpKind → Nat
  | .sync => 0 | .delayReq => 1 | .delayResp => 9 | .announce => 11 | .signaling => 12 | .other c => c.toNat

/-- controlField. -/
def ptpControl : PtpKind → Nat
  | .sync => 0 | .delayReq => 1 | .delayResp => 3 | .announce | .signaling | .other _ => 5

/-- logInterMessagePeriod and messageType byte of a negotiation TLV. -/
def tlvBytes : PtpTlv → List Byte
  | .request k l d => be 2 4 ++ be 2 6 ++ be 1 (16 * ptpType k) ++ be 1 (twos 8 l) ++ be 4 d
  | .grant k l d => be 2 5 ++ be 2 8 ++ be 1 (16 * ptpType k) ++ be 1 (twos 8 l) ++ be 4 d ++ [0#8, bif d == 0 then 0#8 else 1#8]
  | .cancel k => be 2 6 ++ be 2 2 ++ be 1 (16 * ptpType k) ++ [0#8]
  | .ackCancel k => be 2 7 ++ be 2 2 ++ be 1 (16 * ptpType k) ++ [0#8]

/-- A timestamp of 48 bits of seconds and 32 bits of ns. -/
def tsBytes (ns : Nat) : List Byte := be 6 (ns / 1000000000) ++ be 4 (ns % 1000000000)

/-- Message body. -/
def ptpBody (clock : BitVec 64) (o : PtpOut) : List Byte :=
  match o.kind with
  | .sync | .delayReq => tsBytes o.origin
  | .delayResp => tsBytes o.origin ++ be 8 o.reqId.toNat ++ be 2 o.reqNum.toNat
  | .announce => tsBytes o.origin ++ be 2 (twos 16 o.utcOffset) ++ [0#8] ++ be 1 o.prio1 ++ be 1 o.clockClass ++ be 1 o.accuracy ++
      be 2 o.variance ++ be 1 o.prio2 ++ be 8 clock.toNat ++ be 2 0 ++ be 1 o.timeSource
  | .signaling | .other _ => be 8 o.reqId.toNat ++ be 2 o.reqNum.toNat ++ o.tlvs.flatMap tlvBytes

/-- The ERRB extension TLV (14 R319). -/
def errbTlvBytes (x : Nat × Nat × Nat × Nat × Nat) : List Byte :=
  be 2 0x8000 ++ be 2 22 ++ [0x1A#8, 0x7E#8, 0x0C#8, 0#8, 0#8, 1#8] ++ be 8 x.1 ++ be 4 x.2.1 ++ be 1 x.2.2.1 ++ be 1 x.2.2.2.1 ++
    be 2 x.2.2.2.2

/-- Length of the body of a message. -/
def bodyLen (o : PtpOut) : Nat :=
  match o.kind with
  | .sync | .delayReq => 10
  | .delayResp => 20
  | .announce => 30
  | .signaling | .other _ => 10 + (o.tlvs.map fun t => (tlvBytes t).length).sum

/-- Length of a message from the common header to its end. -/
def ptpLen (o : PtpOut) : Nat := 34 + bodyLen o + (if o.errbTlv.isSome then 26 else 0) + (if o.authKey.isSome then 26 else 0)

/-- The message up to the keyID field (14 R317). -/
def ptpBytes (clock : BitVec 64) (o : PtpOut) : List Byte :=
  let flags := bit o.leap61 + 2 * bit o.leap59 + 4 * bit o.utcValid + 8 * bit (o.kind == .sync || o.kind == .announce) + 48 * bit o.traceable
  be 1 (ptpType o.kind) ++ [0x12#8] ++ be 2 (ptpLen o) ++ be 1 o.domain ++ [0#8] ++ be 1 (4 * bit o.dst.isSome) ++ be 1 flags ++
    be 8 (twos 64 o.corr) ++ zeros 4 ++ be 8 clock.toNat ++ be 2 (o.port.1 + 1) ++ be 2 o.seq ++ be 1 (ptpControl o.kind) ++
    be 1 (twos 8 o.log) ++ ptpBody clock o ++ o.errbTlv.elim [] errbTlvBytes ++
    o.authKey.elim [] fun k => be 2 0x8009 ++ be 2 22 ++ be 1 o.spp ++ [0#8] ++ be 4 k

/-! ## Dataset fields (14 R305, R306) -/

/-- Bound of clockAccuracy code 0x17 + k in 0.5 ps: 1 ps and 2.5 ps in each decade up to 1 s (IEEE 1588-2019). -/
def accBound (k : Nat) : Nat := (if k % 2 = 0 then 2 else 5) * 10 ^ (k / 2)

/-- clockAccuracy of an ERRB with a floor (14 R306). -/
def accuracyOf (floor errb : Nat) : Nat :=
  if errb = 0xFFFFFFFF then 0xFE else max floor (0x17 + (List.range 25).findIdx fun k => errb * 500 ≤ accBound k)

/-- timeSource (14 R305). -/
def timeSourceOf (s : State) : Nat :=
  if s.sys.mode == .serve then
    match s.sign.sel with
    | some n => if n == 0 then 0x20 else if isPtp n then 0x40 else if isPps n then 0x90 else 0xA0
    | none => 0xA0
  else if s.sys.mode == .holdover && flyAtom s then 0x10 else 0xA0

/-- A leap of a kind lies within the next day at a TAI second. -/
def leapSoon (s : State) (k : LeapKind) (sec : Nat) : Bool :=
  s.time.leap == some k && decide (s.time.leapAt ≤ sec + 86400) && decide (sec < s.time.leapAt)

/-- The state-dependent fields of Announce and Sync, sampled at reservation (14 R305, R319). -/
def withState (s : State) (k : PtpInst) (stamp : Nat) (o : PtpOut) : PtpOut :=
  let e := errbPort s o.port
  let acq := s.sys.mode == .acquire
  let oos := s.sys.mode == .holdover && s.guy.oos
  { o with
    clockClass := if acq then 248 else if oos then k.oosClass else if s.sys.mode == .holdover then 7 else 6
    accuracy := if acq then 0xFE else accuracyOf k.accFloor e
    variance := if acq || oos then 0xFFFF else 0x4E5D
    traceable := !acq && !oos
    timeSource := timeSourceOf s
    utcOffset := s.time.utcOffset
    utcValid := s.time.utcKnown
    leap61 := leapSoon s .leap61 (secOf stamp)
    leap59 := leapSoon s .leap59 (secOf stamp)
    prio1 := k.prio1
    prio2 := k.prio2
    errbTlv := o.errbTlv.map fun _ =>
      (if e = 0xFFFFFFFF then 2 ^ 64 - 1 else e * 250, if s.sys.mode == .holdover then s.guy.age else 0, modeCode s.sys.mode, selCode 0xFF s,
       bit s.guy.oos + 2 * bit (e == 0xFFFFFFFF) + 4 * bit s.aon.unitB + 8 * bit s.time.leap.isSome) }

/-- Whole nanoseconds of a counter value. -/
def wholeNs (c : Nat) : Nat := c / nsU

/-- The content of an emission once its transmit stamp is known (14 R305, R315, R317). -/
def ptpCompose (s : State) (m : PtpMsg) (stamp : Nat) : PtpOut :=
  let o := m.out
  let dated := match fin? 16 o.inst with
    | some k => (s.ptp.inst[k]).elim o fun i => if o.kind == .sync || o.kind == .announce then withState s i stamp o else o
    | none => o
  let timed : PtpOut := match o.kind with
    | .sync => { dated with origin := wholeNs stamp, corr := fracOf stamp }
    | .announce | .delayReq => { dated with origin := Config.ptpOrigin m.id }
    | .delayResp | .signaling | .other _ => dated
  if m.keyNum.isSome then { timed with icv := (List.range 16).map (Config.hmac m.key (ptpBytes s.ptp.clockId timed)) } else timed

/-! ## Emission (14 R315) -/

/-- Frame length of a message: Ethernet, or UDP over the destination's or the transport's IP version (14 R302). -/
def ptpFrameLen (transport vlan : Nat) (o : PtpOut) : Nat :=
  let ip := match o.dst with
    | some (.v4 _) => 28
    | some (.v6 _) => 48
    | none => if transport = 2 then 0 else if transport = 1 then 48 else 28
  max 64 (18 + (if vlan = 0 then 0 else 4) + ip + ptpLen o)

/-- The Delay_Req of a client has its exact transmit stamp (14 R322). -/
def noteDelayReq (o : PtpOut) (stamp tick : Nat) (s : State) : State :=
  match (if o.kind == .delayReq && 16 ≤ o.inst then fin? 2 (o.inst - 16) else none) with
  | some c => onPtp (fun v => { v with client := upd v.client c fun k => { k with dreq := some (o.seq, stamp, tick), dreqSync := k.sync } }) s
  | none => s

/-- An emission takes its launch slot: content and stamp are written. -/
def ptpReserved (m : PtpMsg) (s : State) : State :=
  let id := launchTxn true m.id
  let r := reserveSlot m.out.port id m.len m.owner.1 s
  let o := ptpCompose r.2 m r.1.stamp
  noteDelayReq o r.1.stamp (r.1.d / 4) (waitEnd m.out.port id (onPtp (fun v => { v with
    msgs := v.msgs.map fun x => if x.id == m.id then { x with out := o } else x }) r.2))

/-- An emission asks for its launch slot (12 R256). -/
def ptpReserve (m : PtpMsg) (s : State) : State :=
  let id := launchTxn true m.id
  if mayReserve s m.out.port id && slotFits s m.out.port m.len m.visit then ptpReserved m s
  else if s.wayp.p[m.out.port].waiting.any (·.txn == id) then s
  else waitFor m.out.port { txn := id, len := m.len, arrival := m.visit, owner := m.owner.1 } s

/-- Sends a message: with the AUTHENTICATION TLV when `spp` is given, and nothing when there is no key for it (14 R317). -/
def ptpSend (owner : Fin 8) (spp : Option Nat) (transport vlan : Nat) (stream : Bool) (pos : Int) (o : PtpOut) (s : State) : State :=
  let go (key : Option (Fin 64)) (o : PtpOut) : State :=
    let m : PtpMsg := {
      id := s.ptp.nextMsg, owner := owner, len := ptpFrameLen transport vlan o, visit := pos, stream := stream,
      keyNum := key.map Fin.val, key := key.elim [] fun i => s.vault.keys[i].key, keyGen := key.elim 0#32 fun i => s.vault.keys[i].gen,
      out := if o.kind == .signaling then { o with seq := (Config.signalingSeq s.ptp.nextMsg).toNat } else o }
    ptpReserve m (onPtp (fun v => { v with msgs := v.msgs ++ [m], nextMsg := v.nextMsg + 1 }) s)
  match spp with
  | none => go none o
  | some p => match signKey s owner p with
    | none => s
    | some k => go (some k) { o with authKey := some s.vault.keys[k].num, spp := p }

/-- Sends a message of an instance. -/
def instSend (i : Fin 16) (k : PtpInst) (stream : Bool) (pos : Int) (o : PtpOut) (s : State) : State :=
  let errb := k.errbTlv && (o.kind == .sync || o.kind == .announce)
  ptpSend k.owner (if k.auth then some k.spp else none) k.transport ((instAddr s k).elim 0 (·.vlan)) stream pos
    { o with inst := i.1, domain := k.domain, errbTlv := if errb then some (0, 0, 0, 0, 0) else none } s

/-- Multicast MAC address of an instance or client (14 R303). -/
def ptpMac (transport : Nat) (nonfwd : Bool) : BitVec 48 :=
  if transport = 2 then (if nonfwd then 0x0180C200000E#48 else 0x011B19000000#48)
  else if transport = 1 then 0x333300000181#48 else 0x01005E000181#48

/-! ## The grant table (14 R307-R309) -/

/-- PID_CRC of a sender. -/
def pidCrc (m : PtpRx) : BitVec 32 := crc32c (be 8 m.ident.toNat ++ be 2 m.pnum.toNat)

/-- An address as the 16 bytes of a grant entry. -/
def addr16 (a : NetAddr) : List Byte := let b := addrBytes a; b ++ zeros (16 - b.length)

/-- The two buckets of a key. -/
def grantBuckets (s : State) (inst : Fin 16) (a : NetAddr) (crc : BitVec 32) : Nat × Nat :=
  let h := (Config.siphash s.ptp.hashKey (be 1 inst.1 ++ addr16 a ++ be 4 crc.toNat)).toNat
  (bits h 13 0, bits h 27 14)

/-- A free way of a bucket, as an entry index. -/
def freeWay (s : State) (b : Nat) : Option Nat := ((List.range 8).map fun w => b * 8 + w).find? fun i => (grantGet s i).free

/-- Makes room in a bucket, moving residents to their alternate buckets within a number of moves; answers the free index. -/
def makeRoom : Nat → Nat → State → Option (Nat × State)
  | 0, b, s => (freeWay s b).map fun i => (i, s)
  | n + 1, b, s =>
    match freeWay s b with
    | some i => some (i, s)
    | none =>
      let v := b * 8 + n % 8
      let g := grantGet s v
      let bs := grantBuckets s g.inst g.addr g.pidCrc
      (makeRoom n (if bs.1 = b then bs.2 else bs.1) s).map fun r =>
        let h := grantGet r.2 v
        (v, grantSet v {} (grantSet r.1 h r.2))

/-- The entry that holds a key. -/
def findGrant (s : State) (inst : Fin 16) (a : NetAddr) (crc : BitVec 32) : Option Nat :=
  (s.ptp.grants.find? fun e => e.2.inst == inst && e.2.addr == a && e.2.pidCrc == crc).map (·.1)

/-- An index for a key: its entry, or room in one of its buckets (14 R308). -/
def placeGrant (inst : Fin 16) (a : NetAddr) (crc : BitVec 32) (s : State) : Option (Nat × State) :=
  match findGrant s inst a crc with
  | some i => some (i, s)
  | none =>
    let bs := grantBuckets s inst a crc
    match freeWay s bs.1, freeWay s bs.2 with
    | some i, _ => some (i, s)
    | none, some i => some (i, s)
    | none, none => makeRoom 128 bs.1 s

/-- A next-hop entry is referred to. -/
def nhUsed (s : State) (n : Nat) : Bool := s.ptp.grants.any (·.2.nh == n)

/-- Frees the next-hop entries no grant refers to (14 R309). -/
def nhFree (s : State) : State := onPtp (fun v => { v with nextHop := v.nextHop.filter fun e => nhUsed s e.1 }) s

/-- The next-hop entry of a MAC address, taken when there is none. -/
def nhTake (mac : BitVec 48) (s : State) : Option (Nat × State) :=
  match s.ptp.nextHop.find? (·.2 == mac) with
  | some e => some (e.1, s)
  | none => ((List.range 4096).find? fun n => !nhUsed s n && !s.ptp.nextHop.any (·.1 == n)).map fun n =>
      (n, onPtp (fun v => { v with nextHop := mset 0#48 n mac v.nextHop }) s)

/-- Replaces an entry and frees what it leaves. -/
def grantPut (i : Nat) (g : Grant) (s : State) : State := nhFree (grantSet i (if g.free then {} else g) s)

/-- A message type of a grant. -/
def Grant.log (g : Grant) : PtpKind → Int
  | .sync => g.logSync | .announce => g.logAnn | .delayResp => g.logDresp | _ => noLog

/-- Sets the interval of a message type. -/
def Grant.setLog (g : Grant) (k : PtpKind) (l : Int) : Grant :=
  match k with
  | .sync => { g with logSync := l } | .announce => { g with logAnn := l } | .delayResp => { g with logDresp := l } | _ => g

/-! ## Negotiation (14 R310-R313) -/

/-- Intervals a unicast request may ask for (14 R303). -/
def grantRange (profile : Nat) (kind : PtpKind) (l : Int) : Bool :=
  match kind with
  | .announce => if profile = 2 then decide (-3 ≤ l) && decide (l ≤ 3) else decide (0 ≤ l) && decide (l ≤ 4)
  | .sync | .delayResp => decide (-7 ≤ l) && decide (l ≤ if profile = 2 then 0 else 1)
  | _ => false

/-- Delay_Req time, 1/256 s of the Odometer modulo 2^16 (14 R307). -/
def dreqTime (s : State) : BitVec 16 := BitVec.ofNat 16 (s.time.odo * 256 / 781250000)

/-- A refusal: its counter, GRANT_REFUSED once per idle second, and the history (14 R311, R324). -/
def refuse (p : Fin 4) (owner : Fin 8) (k : Nat) (s : State) : State :=
  let s1 := onPtpSlot owner (fun q => { q with lastRefused := some s.time.odo }) (ptpHist owner 1#32 (ptpCount p k owner s))
  let s2 := if idleSecond s.ptp.slots[owner].lastRefused s then raiseOwn owner 176 s1 else s1
  if k = 15 then faultEvent 35 (raise 186 (ptpHist owner 0x80#32 s2)) else s2

/-- Tests 1-6 of R311 on a request: the counter of the cause, or none. -/
def grantTest (s : State) (k : PtpInst) (idx : Option Nat) (kind : PtpKind) (l : Int) (dur : Nat) : Option Nat :=
  let old := rateU ((idx.elim {} fun j => (grantGet s j).live s).log kind)
  let new := rateU l
  let rated := kind != .announce
  if !servOpen s then some 9
  else if dur = 0 || !grantRange k.profile kind l then some 10
  else if s.ptp.slots[k.owner].grantQuota < slotGrants s k.owner.1 + bit idx.isNone then some 12
  else if rated && s.ptp.slots[k.owner].rateQuota < rateSum s (·.owner == k.owner) - old + new then some 12
  else if rated && s.ptp.budget < rateSum s (fun _ => true) - old + new then some 13
  else if rated && k.auth && authBudget s < rateSum s (·.auth) - old + new then some 13
  else none

/-- TABLE_HIGH: an insertion raises the table fill through 90 % (14 R324). -/
def tableHigh (owner : Fin 8) (old s : State) : State :=
  if old.ptp.grants.length < 117965 && s.ptp.grants.length = 117965 then raiseOwn owner 177 s else s

/-- A request TLV: granted under every test of R311, or refused with its cause. -/
def grantRequest (i : Fin 16) (k : PtpInst) (f : RxFrame) (src : NetAddr) (m : PtpRx) (kind : PtpKind) (l : Int) (dur : Nat)
    (s : State) : PtpTlv × State :=
  let crc := pidCrc m
  let idx := findGrant s i src crc
  match grantTest s k idx kind l dur with
  | some c => (.grant kind l 0, refuse f.port k.owner c s)
  | none =>
    match placeGrant i src crc s with
    | none => (.grant kind l 0, refuse f.port k.owner 14 s)
    | some (j, s1) =>
      match nhTake f.smac s1 with
      | none => (.grant kind l 0, refuse f.port k.owner 15 s)
      | some (n, s2) =>
        let d := min (max dur 10) k.durMax
        let g := (grantGet s2 j).live s2
        let s2 := if idx.isSome && (grantGet s2 j).expired s2 then ptpCount f.port 18 k.owner s2 else s2
        let g1 : Grant := { (g.setLog kind l) with
          addr := src, pidCrc := crc, nh := n, inst := i, port := f.port, exp := (odoSec s + d) % 16384, dur := d
          dreqTat := if kind == .delayResp && g.logDresp == noLog then dreqTime s else g.dreqTat }
        let s3 := ptpCount f.port 8 k.owner (grantPut j g1 s2)
        (.grant kind l d, tableHigh k.owner s s3)

/-- One TLV of a Signaling message, with the answers so far. -/
def negotiate (i : Fin 16) (k : PtpInst) (f : RxFrame) (src : NetAddr) (m : PtpRx) (x : List PtpTlv × State) (t : SigTlv) :
    List PtpTlv × State :=
  match t with
  | .request kind l dur =>
    let r := grantRequest i k f src m kind l dur x.2
    (x.1 ++ [r.1], r.2)
  | .cancel kind =>
    let s1 := ptpCount f.port 16 k.owner x.2
    (x.1 ++ [.ackCancel kind], match findGrant x.2 i src (pidCrc m) with
      | some j => if (grantGet x.2 j).expired x.2 then s1 else grantPut j ((grantGet x.2 j).setLog kind noLog) s1
      | none => s1)
  | .granted _ _ _ => x

/-- The device cancels message types of a grant: CANCEL TLVs in one Signaling message (14 R313, R327). -/
def cancelGrant (j : Nat) (kinds : List PtpKind) (s : State) : State :=
  let g := grantGet s j
  let ks := kinds.filter fun k => g.log k != noLog
  match s.ptp.inst[g.inst] with
  | none => grantPut j {} s
  | some k =>
    if ks.isEmpty then s
    else
      let mac := mget 0#48 g.nh s.ptp.nextHop
      let g1 := ks.foldl (fun g k => g.setLog k noLog) g
      let s1 := ks.foldl (fun s _ => ptpCount g.port 17 k.owner s) (grantPut j g1 s)
      instSend g.inst k false (posTick s1.time.odo) {
        port := g.port, kind := .signaling, tlvs := ks.map .cancel, dst := some g.addr, mac := mac, log := 127,
        reqId := 0xFFFFFFFFFFFFFFFF#64, reqNum := 0xFFFF#16 } s1

/-- The message types a grant can hold. -/
def grantKinds : List PtpKind := [.announce, .sync, .delayResp]

/-- Cancels every grant of the instances that satisfy a test. -/
def cancelAll (test : Fin 16 → Bool) (s : State) : State :=
  ((s.ptp.grants.filter fun e => test e.2.inst).map (·.1)).foldl (fun s j => cancelGrant j grantKinds s) s

/-- Authenticated unicast grants in descending index are cancelled until the sum fits AUTH_BUDGET (14 R313). -/
def authTrim (s : State) : State :=
  let js := ((s.ptp.grants.filter fun e => (s.ptp.inst[e.2.inst]).elim false (·.auth)).map (·.1)).reverse
  js.foldl (fun s j =>
    if rateSum s (·.auth) ≤ authBudget s || (grantGet s j).rate = 0 then s
    else
      let o := (s.ptp.inst[(grantGet s j).inst]).elim 0 (·.owner)
      raiseOwn o 184 (ptpHist o 0x10#32 (cancelGrant j [.sync, .delayResp] s))) s

/-! ## Received messages of instances (14 R304, R316) -/

/-- The Delay_Req test of R274 with an interval of `t` and a tolerance of three, on a signed distance. -/
def dreqConforms (d : Int) (t : Nat) : Bool := decide (d ≤ 3 * (t : Int))

/-- A Delay_Req dropped as DREQ_NO_GRANT or DREQ_RATE. -/
def dreqDrop (p : Fin 4) (owner : Fin 8) (k : Nat) (s : State) : State :=
  let s1 := onPtpSlot owner (fun q => { q with lastDreq := some s.time.odo }) (ptpHist owner 2#32 (ptpCount p k owner s))
  if idleSecond s.ptp.slots[owner].lastDreq s then raiseOwn owner 178 s1 else s1

/-- The Delay_Resp to a Delay_Req (14 R315). -/
def delayResp (i : Fin 16) (k : PtpInst) (p : Fin 4) (dst : Option NetAddr) (mac : BitVec 48) (l : Int) (m : PtpRx) (stamp : Nat)
    (pos : Int) (s : State) : State :=
  instSend i k false pos {
    port := p, kind := .delayResp, seq := m.seq.toNat, origin := wholeNs stamp, corr := m.corr - fracOf stamp, reqId := m.ident,
    reqNum := m.pnum, dst := dst, mac := mac, log := l } s

/-- Interval of a multicast instance's Delay_Resp allowance on a port, ticks; the authenticated allowance beyond AUTH_BUDGET
is cut in proportion (14 R313, R316). -/
def mcastInterval (s : State) (k : PtpInst) : Nat :=
  let fixed := (s.ptp.inst.toList.map fun x => x.elim 0 fun x => if x.auth then mcastRate x else 0).sum
  let n := if k.auth && authBudget s < fixed then k.mcastDresp * authBudget s / fixed else k.mcastDresp
  if n = 0 then 0 else cdiv 781250000 n

/-- A Delay_Req on a multicast instance. -/
def mcastDelayReq (i : Fin 16) (k : PtpInst) (p : Fin 4) (m : PtpRx) (stamp : Nat) (pos : Int) (s : State) : State :=
  if k.mcastDresp = 0 then s
  else
    let t := mcastInterval s k
    let now := s.time.odo
    if t = 0 || !dreqConforms ((k.mcastTat[p] : Int) - now) t then dreqDrop p k.owner 20 s
    else
      let k1 : PtpInst := { k with mcastTat := k.mcastTat.set p.1 (max k.mcastTat[p] now + t) }
      delayResp i k p none (ptpMac k.transport k.nonfwd) k.logSync m stamp pos (onPtp (fun v => { v with inst := v.inst.set i.1 (some k1) }) s)

/-- A Delay_Req on a unicast instance. -/
def grantDelayReq (i : Fin 16) (k : PtpInst) (p : Fin 4) (src : NetAddr) (m : PtpRx) (stamp : Nat) (pos : Int) (s : State) : State :=
  match (findGrant s i src (pidCrc m)).filter fun j => ((grantGet s j).live s).logDresp != noLog with
  | none => dreqDrop p k.owner 19 s
  | some j =>
    let g := grantGet s j
    let t := if g.logDresp ≤ 0 then 256 / 2 ^ (-g.logDresp).toNat else 256 * 2 ^ g.logDresp.toNat
    let now := dreqTime s
    let d := (g.dreqTat - now).toInt
    if !dreqConforms d t then dreqDrop p k.owner 20 s
    else
      let tat := (if d < 0 then now else g.dreqTat) + BitVec.ofNat 16 t
      delayResp i k p (some src) (mget 0#48 g.nh s.ptp.nextHop) g.logDresp m stamp pos (grantSet j { g with dreqTat := tat } s)

/-- A message accepted for an instance. -/
def instMessage (i : Fin 16) (k : PtpInst) (f : RxFrame) (src : Option NetAddr) (m : PtpRx) (stamp : Nat) (pos : Int) (s : State) : State :=
  match m.body with
  | .delayReq =>
    let s1 := ptpCount f.port 4 k.owner s
    if k.auth && !authVerify s k.owner k.spp m then authFail f.port k.owner s1
    else if !servOpen s then s1
    else match k.unicast, src with
      | true, some a => grantDelayReq i k f.port a m stamp pos s1
      | true, none => s1
      | false, _ => mcastDelayReq i k f.port m stamp pos s1
  | .signaling tlvs =>
    let s1 := ptpCount f.port 5 k.owner s
    if k.auth && !authVerify s k.owner k.spp m then authFail f.port k.owner s1
    else match k.unicast, src with
      | true, some a =>
        let r := tlvs.foldl (fun x t => negotiate i k f a m x t) ([], s1)
        if r.1.isEmpty then r.2
        else instSend i k false pos {
            port := f.port, kind := .signaling, tlvs := r.1, dst := some a, mac := f.smac, reqId := m.ident, reqNum := m.pnum, log := 127 } r.2
      | _, _ => s1
  | .announce .. => ptpCount f.port 7 k.owner s
  | _ => s

/-! ## The stream scheduler (14 R314) -/

/-- Frame of the second and second of the counter at now. -/
def gridNow (s : State) : Nat × Nat := (nsOf (cntNow s) / 7812500, secNow s)

/-- A stream of interval `l` of entry `i` emits in frame `f` of second `sec`: its sequenceId. -/
def streamSeq (i : Nat) (l : Int) (f sec : Nat) : Option Nat :=
  if l = noLog then none
  else if l ≤ 0 then
    let n := 2 ^ (-l).toNat
    let p := 128 / n
    if f % p = i % p then some ((sec * n + f / p) % 65536) else none
  else
    let n := 2 ^ l.toNat
    if f = i % 128 && sec % n = i / 128 % n then some (sec / n % 65536) else none

/-- A frame of the grid, 1/128 s, in counter units (14 R314). -/
def gridFrame : Nat := 7812500 * nsU

/-- Emits what a stream pair is due. -/
def emitDue (i : Fin 16) (k : PtpInst) (n : Nat) (sync ann : Int) (o : PtpOut) (s : State) : State :=
  let g := gridNow s
  let s1 := match streamSeq n ann g.1 g.2 with
    | some q => instSend i k true (posTick s.time.odo) { o with kind := .announce, seq := q, log := ann } s
    | none => s
  match streamSeq n sync g.1 g.2 with
  | some q => instSend i k true (posTick s.time.odo) { o with kind := .sync, seq := q, log := sync } s1
  | none => s1

/-- GRANT_VISIT: the scheduler visits entry i at 7.8085 ms x i / 131,072 of a frame: it is removed when it has expired, an old
DREQ_TAT is replaced, and its due streams are emitted (14 R313, R314, R316). -/
def execGrantVisit (i : BitVec 17) (off : BitVec 16) (s0 : State) : Out :=
  if !timeUp s0 || !landsEvery (atTick off s0) gridFrame (i.toNat * 7808500 * 2 ^ 31) then .next s0
  else
    let s := atTick off s0
    let j := i.toNat
    let g := grantGet s j
    .next (
      if g.free then s
      else match s.ptp.inst[g.inst] with
        | none => grantPut j {} s
        | some k =>
          if g.expired s then ptpCount g.port 18 k.owner (grantPut j {} s)
          else
            let old := decide ((g.dreqTat - dreqTime s).toInt < -16384)
            let s1 := if old then grantSet j { g with dreqTat := dreqTime s } s else s
            if servOpen s then
              emitDue g.inst k j g.logSync g.logAnn { port := g.port, dst := some g.addr, mac := mget 0#48 g.nh s.ptp.nextHop } s1
            else s1)

/-- MCAST_VISIT: a multicast instance's visit for a port, 7.8085 ms and 62.5 ns x (16 p + k) into a frame (14 R314). -/
def execMcastVisit (k : Fin 16) (p : Fin 4) (off : BitVec 16) (s0 : State) : Out :=
  let v := 16 * p.1 + k.1
  if !timeUp s0 || !landsEvery (atTick off s0) gridFrame (7808500 * nsU + v * 125 * 2 ^ 47) then .next s0
  else
    let s := atTick off s0
    .next (match s.ptp.inst[k] with
    | some q =>
      if servOpen s && !q.unicast && q.ports.getLsbD p.1 then
        emitDue k q v q.logSync q.logAnn { port := p, mac := ptpMac q.transport q.nonfwd } s
      else s
    | none => s)

/-- CRYPTO_SELF_TEST: while PD_CRYPT is powered, a failing lane or engine leaves service; PTP follows its AUTH_BUDGET (13 R295,
14 R313). -/
def execCryptoSelfTest (aesOk : BitVec 8) (shaOk : BitVec 4) (s : State) : Out :=
  if !powered s 5 then .next s
  else
    let a := s.serv.aesLanes &&& aesOk
    let h := s.serv.shaEng &&& shaOk
    if a = s.serv.aesLanes && h = s.serv.shaEng then .next s
    else
      let s1 := raise 165 (onServ (fun v => { v with aesLanes := a, shaEng := h }) s)
      .next (authTrim (authCap (faultCond 25 (h != 0xF#4) (faultCond 24 (a != 0xFF#8) s1))))

/-! ## The indirect grant-table region (14 R307) -/

/-- A grant entry's 32 bytes. -/
def grantBytes (g : Grant) : List Byte :=
  let v6 := match g.addr with | .v6 _ => true | .v4 _ => false
  addr16 g.addr ++ le 4 g.pidCrc.toNat ++ le 2 g.dreqTat.toNat ++ le 2 (g.nh + 4096 * g.inst.1) ++
    le 1 (twos 4 g.logSync + 16 * twos 4 g.logAnn) ++ le 1 (twos 4 g.logDresp + 16 * g.port.1 + 64 * bit v6) ++ le 2 g.exp ++ le 2 g.dur ++ zeros 2

end Sys2Proof.Machine
end

