-- ==== Sys2Proof/Machine/Client.lean ====
section
/-!
DEFINITION. The PTP client role, what a received PTP frame does, the registers of the PTPE block and the PTP commands (14
R304, R320-R328), with the deletion of a listening address (13 R300).
-/
namespace Sys2Proof.Machine
open Sys2Proof

/-! ## The client role (14 R320-R322) -/

/-- Updates a client domain. -/
def onClient (c : Fin 2) (f : PtpClient → PtpClient) (s : State) : State := onPtp (fun v => { v with client := upd v.client c f }) s

/-- The reference slot a client domain feeds. -/
def clientSlot (c : Fin 2) : Fin 12 := ⟨9 + c.1, by omega⟩

/-- Counts a client counter: 0 CLIENT_MEAS, 1 CLIENT_DROP. -/
def clientCount (c : Fin 2) (k : Nat) (s : State) : State := count (448 + 2 * c.1 + k) none s

/-- Ticks of a log interval. -/
def logTicks (l : Int) : Nat := if 0 ≤ l then 781250000 * 2 ^ l.toNat else 781250000 / 2 ^ (-l).toNat

/-- Odometer tick at which a candidate's Announce messages stop being current: three Announce intervals after the latest, the
interval it has granted or, under multicast, the configured one (14 R321). -/
def candEnd (k : PtpClient) (x : PtpCand) : Option Nat :=
  x.lastAnn.bind fun t => (if k.unicast then x.grantedAnn.map (·.1) else some k.logAnn).map fun l => t + 3 * logTicks l

/-- A candidate's Announce messages are current (14 R321). -/
def candCurrent (s : State) (k : PtpClient) (x : PtpCand) : Bool := (candEnd k x).elim false fun t => decide (s.time.odo < t)

/-- What the choice compares, the smaller the better: the dataset comparison of IEEE 1588-2019, or that of the alternate
algorithm of G.8275.1 and G.8275.2 (14 R321). -/
def candKey (k : PtpClient) (j : Nat) (x : PtpCand) : List Nat :=
  if k.profile = 0 then [x.prio1, x.clockClass, x.accuracy, x.variance, x.prio2, x.gm.toNat, x.steps, x.ident.toNat]
  else
    [x.clockClass, x.accuracy, x.variance, x.prio2, if k.unicast then j + 1 else 128, if x.clockClass ≤ 127 then 0 else x.gm.toNat, x.steps,
     x.ident.toNat]

/-- Candidate `j` is better than candidate `i`: two that name one grandmaster compare their steps and identities alone. -/
def candBetter (k : PtpClient) (j : Nat) (x : PtpCand) (i : Nat) (y : PtpCand) : Bool :=
  if k.profile = 0 && x.gm = y.gm then decide ([x.steps, x.ident.toNat] < [y.steps, y.ident.toNat])
  else decide (candKey k j x < candKey k i y)

/-- The best master among the current candidates. -/
def chooseMaster (s : State) (k : PtpClient) : Option Nat :=
  (List.range k.cands.length).foldl (fun b j =>
    match k.cands[j]?, b.bind fun i => (k.cands[i]?).map fun y => (i, y) with
    | some x, none => if candCurrent s k x && x.clockClass != 255 && x.ident != s.ptp.clockId then some j else b
    | some x, some (i, y) =>
      if candCurrent s k x && x.clockClass != 255 && x.ident != s.ptp.clockId && candBetter k j x i y then some j else b
    | none, _ => b) none

/-- The choice of master is made again: a change of master restarts the slot, the loss of the last candidate is told (14
R321, R324). -/
def clientChoose (c : Fin 2) (s : State) : State :=
  let k := s.ptp.client[c]
  let b := chooseMaster s k
  if b = k.best then s
  else
    let s1 := onClient c (fun k => { k with best := b, sync := none, syncPend := none, dreq := none, dreqSync := none }) s
    if b.isNone then raise (182 + c.1) s1
    else configured (clientSlot c) (raise (180 + c.1) (ptpHist 0 (0x20#32 <<< c.1) s1))

/-- Sends a message of a client domain; owner is slot 0. -/
def clientSend (c : Fin 2) (o : PtpOut) (s : State) : State :=
  let k := s.ptp.client[c]
  ptpSend 0 (if k.auth then some k.spp else none) k.transport 0 false (posTick s.time.odo) { o with port := k.port, inst := 16 + c.1, domain := k.domain } s

/-- Interval a client asks for. -/
def askLog (k : PtpClient) : PtpKind → Int
  | .announce => k.logAnn | .sync => k.logSync | _ => k.logDreq

/-- The grant of a message type a candidate has given. -/
def candGrant (x : PtpCand) : PtpKind → Option (Int × Nat × Nat)
  | .announce => x.grantedAnn | .sync => x.grantedSync | .delayResp => x.grantedDresp | _ => none

/-- Records a candidate's grant of a message type. -/
def candSet (kind : PtpKind) (g : Option (Int × Nat × Nat)) (x : PtpCand) : PtpCand :=
  match kind with
  | .announce => { x with grantedAnn := g } | .sync => { x with grantedSync := g } | .delayResp => { x with grantedDresp := g } | _ => x

/-- Log interval of a grant that has not expired. -/
def candHeld (s : State) (x : PtpCand) (kind : PtpKind) : Option Int :=
  ((candGrant x kind).filter fun g => decide (s.time.odo < g.2.1 + g.2.2 * tickSec)).map (·.1)

/-- Updates a candidate. -/
def onCand (c : Fin 2) (j : Nat) (f : PtpCand → PtpCand) (s : State) : State :=
  onClient c (fun k => { k with cands := k.cands.modify j f }) s

/-- Requests message types of a candidate in one Signaling message, `wait` seconds after the last request failed. -/
def clientAsk (c : Fin 2) (j : Nat) (kinds : List PtpKind) (wait : Nat) (s : State) : State :=
  let k := s.ptp.client[c]
  match k.cands[j]? with
  | some x =>
    if kinds.isEmpty then s
    else clientSend c { kind := .signaling, tlvs := kinds.map fun q => .request q (askLog k q) k.duration, dst := some x.addr, log := 127,
                        reqId := 0xFFFFFFFFFFFFFFFF#64, reqNum := 0xFFFF#16 }
      (onCand c j (fun x => { x with
        asked := kinds ++ x.asked.filter (!kinds.contains ·), askAt := s.time.odo, refusedAt := none, retry := wait }) s)
  | none => s

/-- The role runs: enabled, in a mode in which qualification runs, its slot not DISABLED (14 R320, R322, 04 R77). -/
def clientRuns (s : State) (c : Fin 2) : Bool :=
  s.ptp.client[c].en && qualModes s.sys.mode && timeUp s && s.sign.slots[clientSlot c].state != .disabled

/-- A measured offset and mean path delay: Signpost's phase error and the path-step test (14 R322, 04 R96). -/
def clientMeasure (c : Fin 2) (d21 d43 : Int) (t2 tick : Nat) (s : State) : State :=
  let n := clientSlot c
  let mpd := (d21 + d43) / 2
  let off := d21 - mpd - s.sign.slots[n].asymComp
  let s1 := onClient c (fun k => { k with offset := off, mpd := mpd, measNow := satU 16 (k.measNow + 1), measAt := some s.time.odo, dreq := none, dreqSync := none }) s
  clientCount c 0 (pushMeas n (-off) t2 tick (onSlot n (fun q => { q with mpd := (mpd :: q.mpd).take 80 }) s1))

/-- A correctionField in ps. -/
def corrPs (c : Int) : Int := c * 1000 / 65536

/-- A GRANT TLV of a candidate: the message type is granted, or the request is refused (14 R320). -/
def clientGranted (c : Fin 2) (j : Nat) (kind : PtpKind) (l : Int) (dur : Nat) (s : State) : State :=
  onCand c j (fun x =>
    if dur = 0 then { x with refusedAt := if x.asked.contains kind then some s.time.odo else x.refusedAt }
    else
      let left := x.asked.filter (· != kind)
      { candSet kind (some (l, s.time.odo, dur)) x with asked := left, retry := if left.isEmpty then 0 else x.retry }) s

/-- A candidate cancels a message type: as a refusal, it is asked for again. -/
def clientCancelled (c : Fin 2) (j : Nat) (kind : PtpKind) (s : State) : State :=
  onCand c j (fun x =>
    if grantKinds.contains kind then
      { candSet kind none x with asked := kind :: x.asked.filter (· != kind), refusedAt := some (x.refusedAt.getD s.time.odo) }
    else x) s

/-- An accepted message of a client domain from candidate `j` (14 R321, R322). -/
def clientMessage (c : Fin 2) (j : Nat) (m : PtpRx) (stamp : Nat) (s : State) : State :=
  let k := s.ptp.client[c]
  let best := k.best == some j
  match m.body with
  | .announce cls acc var p1 p2 gm steps utc l61 l59 =>
    if cls = 255#8 then clientCount c 1 s
    else
      let s1 := clientChoose c (onCand c j (fun x => { x with
        ident := m.ident, gm := gm, lastAnn := some s.time.odo, clockClass := cls.toNat, accuracy := acc.toNat, variance := var.toNat,
        prio1 := p1.toNat, prio2 := p2.toNat, steps := steps.toNat, utcOffset := utc, leap61 := l61, leap59 := l59 }) s)
      if s1.ptp.client[c].best == some j then utcFrom (clientSlot c) s1 else s1
  | .sync two origin =>
    if !best then clientCount c 1 s
    else if two then onCand c j (fun x => { x with twoStep := true })
      (onClient c (fun k => { k with syncPend := some (m.seq.toNat, stamp, s.time.odo, m.corr) }) s)
    else onCand c j (fun x => { x with twoStep := false })
      (onClient c (fun k => { k with sync := some (uPs stamp - origin - corrPs m.corr, s.time.odo, stamp), syncPend := none }) s)
  | .followUp origin =>
    match (if best then k.syncPend else none) with
    | some (q, t2, tick, corr) =>
      if q = m.seq.toNat then
        onClient c (fun k => { k with sync := some (uPs t2 - origin - corrPs (corr + m.corr), tick, t2), syncPend := none }) s
      else clientCount c 1 s
    | none => clientCount c 1 s
  | .delayResp rx forUs =>
    match (if best && forUs then k.dreq else none) with
    | some (q, t3, tick) =>
      if q != m.seq.toNat then clientCount c 1 s
      else match k.dreqSync with
        | some (d21, at2, t2) =>
          if at2 ≤ tick && tick ≤ at2 + 781250000 then clientMeasure c d21 (rx - corrPs m.corr - uPs t3) t2 at2 s
          else clientCount c 1 s
        | none => clientCount c 1 s
    | none => clientCount c 1 s
  | .signaling tlvs =>
    tlvs.foldl (fun s t => match t with
      | .granted kind l dur => clientGranted c j kind l dur s
      | .cancel kind => clientCancelled c j kind s
      | .request _ _ _ => s) s
  | _ => clientCount c 1 s

/-- A frame of a client domain: authentication, then the candidate it comes from; a master heard for the first time under
multicast becomes a candidate (14 R320, R321). -/
def clientFrame (c : Fin 2) (src : Option NetAddr) (m : PtpRx) (stamp : Nat) (s : State) : State :=
  let k := s.ptp.client[c]
  let from_ : Option Nat := if k.unicast then src.bind fun a => k.cands.findIdx? fun x => x.addr == a else k.cands.findIdx? fun x => x.ident == m.ident
  let ok := !k.auth || authVerify s 0 k.spp m
  let s1 := from_.elim s fun j => onCand c j (fun x => { x with authOk := ok }) s
  if !ok then faultEvent 34 (authFail k.port 0 (clientCount c 1 s1))
  else if m.ident = s.ptp.clockId then clientCount c 1 s1
  else
    match from_, m.body with
    | some j, _ => clientMessage c j m stamp s1
    | none, .announce .. =>
      if k.unicast then clientCount c 1 s1
      else clientMessage c k.cands.length m stamp (onClient c (fun k => { k with
        cands := k.cands ++ [{ addr := src.getD (.v4 0#32), ident := m.ident, authOk := true }] }) s1)
    | none, _ => clientCount c 1 s1

/-- A message type by its number in a client's events. -/
def clientKind : Fin 3 → PtpKind
  | 0 => .announce | 1 => .sync | 2 => .delayResp

/-- The candidate of a unicast client domain whose role runs. -/
def clientCand (s : State) (c : Fin 2) (cand : Fin 4) : Option PtpCand :=
  if clientRuns s c && s.ptp.client[c].unicast then s.ptp.client[c].cands[cand.1]? else none

/-- CLIENT_RENEWAL: half of a grant's duration has passed and its renewal has not been asked for (14 R320). -/
def execClientRenewal (c : Fin 2) (cand : Fin 4) (kind : Fin 3) (s : State) : Out :=
  let q := clientKind kind
  .next (match (clientCand s c cand).bind fun x => if x.asked.contains q then none else candGrant x q with
  | some g =>
    let t := 4 * g.2.1 + 2 * g.2.2 * tickSec
    if inPeriod t s then clientAsk c cand.1 [q] 0 (atQ t s) else s
  | none => s)

/-- What a candidate is asked for again: what it was asked for in vain, and what was never asked. -/
def askAgain (s : State) (x : PtpCand) : List PtpKind := grantKinds.filter fun q => x.asked.contains q || (candHeld s x q).isNone

/-- Interval of the next repetition, doubling from 1 s to 64 s (14 R320). -/
def nextWait (x : PtpCand) : Nat := if x.retry = 0 then 1 else min 64 (2 * x.retry)

/-- Odometer tick at which a request is repeated: the interval after its refusal, or after 2 s without an answer (14 R320). -/
def askDue (x : PtpCand) : Nat :=
  if x.asked.isEmpty then 0 else x.refusedAt.getD (x.askAt + 2 * tickSec) + nextWait x * tickSec

/-- CLIENT_REQUEST_RETRY: what a candidate has not granted is asked for again, the interval doubling to 64 s (14 R320). -/
def execClientRequestRetry (c : Fin 2) (cand : Fin 4) (s : State) : Out :=
  .next (match clientCand s c cand with
  | some x =>
    let t := 4 * askDue x
    if inPeriod t s then clientAsk c cand.1 (askAgain (atQ t s) x) (if x.asked.isEmpty then 0 else nextWait x) (atQ t s) else s
  | none => s)

/-- Log interval of a client domain's Delay_Req: as its master granted, or as configured under multicast (14 R322). -/
def dreqLog (s : State) (k : PtpClient) (x : PtpCand) : Option Int := if k.unicast then candHeld s x .delayResp else some k.logDreq

/-- CLIENT_DELAY_REQ_SEND: at its rate, a Delay_Req to the chosen master (14 R322). -/
def execClientDelayReqSend (c : Fin 2) (s0 : State) : Out :=
  let k := s0.ptp.client[c]
  let x? := if clientRuns s0 c then k.best.bind fun j => k.cands[j]? else none
  let t := 4 * (k.dreqAt.elim 0 fun t => t + ((x?.bind (dreqLog s0 k)).elim 0 logTicks))
  let s := atQ t s0
  .next (match (if inPeriod t s0 then x?.filter fun x => (dreqLog s k x).isSome else none) with
  | none => s0
  | some x =>
    clientSend c { kind := .delayReq, seq := k.dreqSeq, log := 127, dst := if k.unicast then some x.addr else none, mac := if k.unicast then 0#48 else ptpMac k.transport k.nonfwd }
      (onClient c (fun k => { k with dreqSeq := (k.dreqSeq + 1) % 65536, dreqAt := some s.time.odo }) s))

/-- CLIENT_ANNOUNCE_TIMEOUT: a candidate's Announce messages are no longer current (14 R321). -/
def execClientAnnounceTimeout (c : Fin 2) (cand : Nat) (s : State) : Out :=
  let k := s.ptp.client[c]
  .next (match (if clientRuns s c then k.cands[cand]? else none).bind fun x => candEnd k x with
  | some t => if inPeriod (4 * t) s then clientChoose c (atQ (4 * t) s) else s
  | none => s)

/-- The client's measurements of the second that ends (14 PTPE_CLIc_STAT). -/
def clientSecond (s : State) : State :=
  onPtp (fun v => { v with client := v.client.map fun k => { k with meas := k.measNow, measNow := 0 } }) s

/-! ## Received frames (14 R304) -/

/-- Destination port of PTP. -/
def ptpPort (d : BitVec 16) : Bool := d == 319#16 || d == 320#16

/-- The PTP multicast address: 224.0.1.129, or FF0x::181 of any scope x (IEEE 1588-2019). -/
def ptpMulticast : NetAddr → Bool
  | .v4 a => a == 0xE0000181#32
  | .v6 a => a.toNat % 2 ^ 112 == 0x181 && a.toNat / 2 ^ 116 == 0xFF0

/-- Transport code of an address. -/
def transportOf : NetAddr → Nat
  | .v4 _ => 0 | .v6 _ => 1

/-- A frame comes to an instance under its own address and transport. -/
def instHears (s : State) (k : PtpInst) (f : RxFrame) : Bool :=
  (instPorts s k).getLsbD f.port.1 &&
  match f.body with
  | .udp _ dst _ dport _ _ _ _ =>
    ptpPort dport &&
    (if k.unicast then (instAddr s k).elim false fun a => a.addr == dst && vlanOk a f.vlans
     else transportOf dst == k.transport && ptpMulticast dst)
  | .l2ptp _ => !k.unicast && k.transport == 2 && f.dmac == ptpMac 2 k.nonfwd
  | _ => false

/-- A frame is claimed on behalf of an instance: it comes to it, or to a PTP multicast address on a port it serves (14 R304). -/
def instClaims (s : State) (k : PtpInst) (f : RxFrame) : Bool :=
  instHears s k f || (instPorts s k).getLsbD f.port.1 && match f.body with
    | .udp _ dst _ dport _ _ _ _ => ptpPort dport && ptpMulticast dst
    | _ => false

/-- A frame is addressed to a client domain. -/
def clientHears (s : State) (c : Fin 2) (f : RxFrame) (m : PtpRx) : Bool :=
  let k := s.ptp.client[c]
  clientRuns s c && k.port == f.port && m.domain.toNat == k.domain && m.version == 2#4 &&
  match f.body with
  | .udp _ dst _ dport _ _ _ _ =>
    ptpPort dport && transportOf dst == k.transport && (if k.unicast then f.dmac == s.port.p[f.port].mac else ptpMulticast dst)
  | .l2ptp _ => !k.unicast && k.transport == 2 && f.dmac == ptpMac 2 k.nonfwd
  | _ => false

/-- The PTP message of a frame, and its source address. -/
def ptpOf (f : RxFrame) : Option (Option NetAddr × Option PtpRx) :=
  match f.body with
  | .udp src _ _ dport _ frag bad b =>
    if ptpPort dport then some (some src, match b with | .ptp m => if frag || bad then none else some m | _ => none) else none
  | .l2ptp m => some (none, some m)
  | _ => none

/-- The first instance that satisfies a test. -/
def instFind (s : State) (test : PtpInst → Bool) : Option (Fin 16 × PtpInst) :=
  (List.finRange 16).findSome? fun i => (s.ptp.inst[i]).bind fun k => if test k then some (i, k) else none

/-- The instance that takes a claimed message: of its domain, and addressed itself where there is one (14 R304). -/
def instOf (s : State) (f : RxFrame) (m : PtpRx) : Option (Fin 16 × PtpInst) :=
  let named (k : PtpInst) : Bool := k.domain == m.domain.toNat && m.version == 2#4
  (instFind s fun k => named k && instHears s k f) <|> instFind s fun k => named k && instClaims s k f

/-- The instance a claimed frame that is not accepted is counted for. -/
def instHeard (s : State) (f : RxFrame) : Option PtpInst :=
  ((instFind s fun k => instHears s k f) <|> instFind s fun k => instClaims s k f).map (·.2)

/-- A frame the PTP engine claims: its effect; none when it goes on to the host (14 R304). -/
def ptpFrame (f : RxFrame) (stamp : Nat) (pos : Int) (s : State) : Option State :=
  match ptpOf f with
  | none => none
  | some (_, none) => (instHeard s f).map fun k => ptpCount f.port 6 k.owner s
  | some (src, some m) =>
    if m.body == .management then none
    else match (List.finRange 2).find? fun c => clientHears s c f m with
      | some c => some (clientFrame c src m stamp s)
      | none =>
        match instOf s f m with
        | some (i, k) => some (instMessage i k f src m stamp pos s)
        | none => (instHeard s f).map fun k => ptpCount f.port 6 k.owner s

/-! ## Registers (14 R326) -/

/-- PTPE_CLIc_STAT.STATE. -/
def clientState (s : State) (c : Fin 2) (x : Option PtpCand) : Nat :=
  let k := s.ptp.client[c]
  if !clientRuns s c then 0
  else if !k.unicast then (if x.isSome then 3 else 1)
  else match x with
    | some x => if (candHeld s x .sync).isSome && (candHeld s x .delayResp).isSome then 3 else 2
    | none => if k.cands.any fun x => (candHeld s x .announce).isSome then 1 else 2

/-- Registers of a client domain; clockIdentity in network order (00 R5). -/
def roClient (s : State) (c : Fin 2) (o : Nat) : Word :=
  let k := s.ptp.client[c]
  let x := k.best.bind fun j => k.cands[j]?
  let y := x.getD {}
  match o with
  | 0x00 => pack [(0, clientState s c x), (2, if k.unicast then k.best.getD 0 else 0), (4, bit y.twoStep), (5, bit (k.en && (!k.auth || y.authOk))),
      (6, bit (candHeld s y .announce).isSome), (7, bit (candHeld s y .sync).isSome), (8, bit (candHeld s y .delayResp).isSome), (16, k.meas)]
  | 0x04 => w32 (twos 32 (quarter k.offset))
  | 0x08 => w32 (twos 32 (quarter k.mpd))
  | 0x0C => w32 (leVal ((be 8 (x.elim 0 (·.ident.toNat))).take 4))
  | 0x10 => w32 (leVal ((be 8 (x.elim 0 (·.ident.toNat))).drop 4))
  | 0x14 => if x.isSome then pack [(0, y.clockClass), (8, y.accuracy), (16, y.variance)] else 0#32
  | _ => 0#32

/-- Fields of the PTPE block that are not sticky. -/
def roPtp (s : State) (rd o : Nat) : Word :=
  match group? o 0x40 0x20 2 with
  | some (c, g) => roClient s c g
  | none =>
    let q : PtpSlot := (fin? 8 rd).elim { grantQuota := 0, rateQuota := 0 } fun i => s.ptp.slots[i]
    match o with
    | 0x00 => lkWord s 0xB
    | 0x04 => pack [(0, s.serv.shaEng.toNat), (4, bit (servOpen s)), (5, bit (decide (authBudget s < s.ptp.budget))),
        (8, (s.ptp.inst.toList.filter (·.isSome)).length)]
    | 0x08 => w32 s.ptp.budget
    | 0x0C => w32 (satE (rateSum s fun _ => true))
    | 0x10 => w32 (satE (rateSum s (·.auth)))
    | 0x14 => w32 s.ptp.grants.length
    | 0x18 => w32 s.ptp.nextHop.length
    | 0x1C => w32 q.grantQuota
    | 0x20 => w32 q.rateQuota
    | 0x24 => w32 (if rd < 8 then slotGrants s rd else 0)
    | 0x28 => w32 (if rd < 8 then satE (rateSum s (·.owner == rd)) else 0)
    | _ => 0#32

/-! ## Commands (14 R327, R328) -/

/-- `ICP_PTP_CLOCK_CONFIG`. -/
def execIcpPtpClockConfig (c : CmdRef) (ident : BitVec 64) (s : State) : Out :=
  icpDo c 0x800 (fun _ => []) (onPtp fun v => { v with clockId := ident }) (fun _ => []) s

/-- A transport a profile allows for unicast or multicast (14 R303). -/
def transportOk (profile transport : Nat) (unicast : Bool) : Bool :=
  match profile with
  | 0 => if unicast then decide (transport < 2) else decide (transport < 3)
  | 1 => !unicast && transport == 2
  | _ => unicast && decide (transport < 2)

/-- A domain a profile allows. -/
def domainOk (profile domain : Nat) : Bool :=
  match profile with | 0 => decide (domain < 128) | 1 => within domain 24 43 | _ => within domain 44 63

/-- An Announce interval a profile allows. -/
def annOk (profile : Nat) (l : Int) : Bool :=
  match profile with | 0 => decide (0 ≤ l) && decide (l ≤ 4) | 1 => l == -3 | _ => decide (-3 ≤ l) && decide (l ≤ 3)

/-- A Sync or Delay_Req interval a profile allows. -/
def syncOk (profile : Nat) (unicast : Bool) (l : Int) : Bool :=
  match profile with
  | 0 => decide ((if unicast then -7 else -1) ≤ l) && decide (l ≤ 1)
  | 1 => l == -4
  | _ => decide (-7 ≤ l) && decide (l ≤ 0)

/-- An out-of-spec clockClass a profile allows. -/
def classOk (profile cls : Nat) : Bool := if profile = 0 then cls == 52 || cls == 187 else cls == 140 || cls == 150 || cls == 160

/-- The instance a command sets. -/
def newInst (c : CmdRef) (a : InstArgs) : PtpInst :=
  { owner := c.slot, profile := a.profile.toNat, domain := a.domain.toNat, transport := a.transport.toNat, unicast := a.unicast,
    auth := a.auth, errbTlv := a.errbTlv, nonfwd := a.nonfwd, addrIdx := a.addrIdx.toNat, ports := BitVec.ofNat 4 a.ports.toNat,
    spp := a.spp.toNat, logAnn := a.logAnn.toInt, logSync := a.logSync.toInt, prio1 := a.prio1.toNat, prio2 := a.prio2.toNat,
    oosClass := a.oosClass.toNat, accFloor := a.accFloor.toNat, durMax := a.durMax.toNat, mcastDresp := a.mcastDresp.toNat }

/-- The instance at an index. -/
def instAt (s : State) (v : BitVec 8) : Option PtpInst := (fin? 16 v.toNat).bind fun i => s.ptp.inst[i]

/-- An Operator names an instance that is another slot's (16 R357). -/
def notOwn (c : CmdRef) (v : BitVec 8) (s : State) : Bool :=
  cmdRole c s == .operator && (instAt s v).elim false (·.owner != c.slot)

/-- An instance holds grants. -/
def hasGrants (s : State) (v : BitVec 8) : Bool := s.ptp.grants.any (·.2.inst.1 == v.toNat)

/-- A change of profile, domain, transport or ports. -/
def instMoved (o n : PtpInst) : Bool :=
  o.owner != n.owner || o.profile != n.profile || o.domain != n.domain || o.transport != n.transport || o.unicast != n.unicast ||
  (if n.unicast then o.addrIdx != n.addrIdx else o.ports != n.ports)

/-- The state with an instance replaced. -/
def putInst (v : BitVec 8) (k : Option PtpInst) (s : State) : State :=
  match fin? 16 v.toNat with
  | some i => onPtp (fun q => { q with inst := q.inst.set i.1 k }) s
  | none => s

/-- A multicast instance would break test 6 of R311. -/
def breaksBudget (v : BitVec 8) (k : PtpInst) (s : State) : Bool :=
  let t := putInst v (some k) s
  (decide (s.ptp.budget < rateSum t fun _ => true) && decide (rateSum s (fun _ => true) < rateSum t fun _ => true)) ||
  (k.auth && decide (authBudget s < rateSum t (·.auth)) && decide (rateSum s (·.auth) < rateSum t (·.auth)))

/-- An enabled client domain shares a port and the domain of an instance. -/
def clientClash (s : State) (k : PtpInst) : Bool :=
  s.ptp.client.toList.any fun x => x.en && x.domain == k.domain && (instPorts s k).getLsbD x.port.1

/-- `ICP_PTP_INSTANCE_SET`. -/
def execIcpPtpInstanceSet (c : CmdRef) (a : InstArgs) (s : State) : Out :=
  let k := newInst c a
  icpDo c 0x801
    (fun s => [
      (notOwn c a.idx s, stDenied),
      (a.rsv || decide (15 < a.idx.toNat) || decide (2 < a.profile.toNat) || decide (2 < a.transport.toNat), stBadArg),
      (!transportOk k.profile k.transport k.unicast || (k.unicast && (instAddr s k).isNone) || (!k.unicast && c.slot != 0), stBadArg),
      ((!k.unicast && a.ports == 0#8) || decide (15 < a.ports.toNat) || k.durMax = 0, stBadArg),
      (!domainOk k.profile k.domain || !annOk k.profile k.logAnn || !syncOk k.profile k.unicast k.logSync ||
        (k.profile != 0 && k.prio1 != 128) || !classOk k.profile k.oosClass || outside k.accFloor 0x17 0x30 || outside k.durMax 10 1000, stRange),
      (clientClash s k, stOrder),
      (k.auth && (ringKeys s c.slot.1 true k.spp).isEmpty, stNoKey),
      ((instAt s a.idx).elim false fun o => instMoved o k && hasGrants s a.idx, stBusy),
      (!k.unicast && breaksBudget a.idx k s, stQuota)])
    (fun s => putInst a.idx (some { k with mcastTat := (instAt s a.idx).elim k.mcastTat (·.mcastTat) }) s) (fun _ => []) s

/-- Ends an instance: CANCEL for every grant, then the instance itself (14 R327). -/
def instDelete (v : BitVec 8) (s : State) : State := putInst v none (cancelAll (·.1 == v.toNat) s)

/-- `ICP_PTP_INSTANCE_DEL`. -/
def execIcpPtpInstanceDel (c : CmdRef) (idx : BitVec 8) (rsv : Bool) (s : State) : Out :=
  icpDo c 0x802 (fun s => [(notOwn c idx s, stDenied), (rsv || decide (15 < idx.toNat), stBadArg)]) (instDelete idx) (fun _ => []) s

/-- `ICP_PTP_QUOTA`. -/
def execIcpPtpQuota (c : CmdRef) (slot : BitVec 8) (grants rate_ : BitVec 32) (rsv : Bool) (s : State) : Out :=
  icpDo c 0x803
    (fun _ => [(rsv || decide (7 < slot.toNat), stBadArg), (decide (131072 < grants.toNat) || decide (16000000 < rate_.toNat), stRange)])
    (fun s => match fin? 8 slot.toNat with
      | some i => onPtpSlot i (fun q => { q with grantQuota := grants.toNat, rateQuota := 8 * rate_.toNat }) s
      | none => s)
    (fun _ => []) s

/-- `ICP_PTP_BUDGET`. -/
def execIcpPtpBudget (c : CmdRef) (budget : BitVec 32) (s : State) : Out :=
  icpDo c 0x804
    (fun _ => [(budget == 0#32, stBadArg), (outside budget.toNat 1000 16000000, stRange)])
    (fun s => authCap (onPtp (fun v => { v with budget := 8 * budget.toNat }) s)) (fun _ => []) s

/-- `ICP_PTP_STATUS`. -/
def execIcpPtpStatus (c : CmdRef) (s : State) : Out :=
  icpGet c 0x805 (fun s => viewBytes roPtp s c.slot (regRun 0xB0004 10 ++ regRun 0xB0040 6 ++ regRun 0xB0060 6)) s

/-- Seconds a grant has left. -/
def grantLeft (s : State) (g : Grant) : Nat :=
  let d := (g.exp + 16384 - odoSec s % 16384) % 16384
  if d < 8192 then d else 0

/-- A grant as an export record (14 R323). -/
def grantRecord (s : State) (g : Grant) : List Byte :=
  let v6 := match g.addr with | .v6 _ => true | .v4 _ => false
  addr16 g.addr ++ le 4 g.pidCrc.toNat ++ be 6 (mget 0#48 g.nh s.ptp.nextHop).toNat ++ le 1 g.inst.1 ++ le 1 (g.port.1 + 4 * bit v6) ++
    le 1 (twos 4 g.logSync + 16 * twos 4 g.logAnn) ++ le 1 (twos 4 g.logDresp) ++ le 2 (grantLeft s g) ++ le 2 g.dur ++ zeros 6

/-- `ICP_PTP_GRANT_READ`. -/
def execIcpPtpGrantRead (c : CmdRef) (first : BitVec 32) (count : BitVec 16) (rsv : Bool) (s : State) : Out :=
  let from_ (s : State) := s.ptp.grants.filter fun e => first.toNat ≤ e.1
  icpDo c 0x806 (fun _ => [(rsv || count == 0#16, stBadArg), (decide (100 < count.toNat), stRange)]) id
    (fun s =>
      let l := (from_ s).take count.toNat
      le 2 l.length ++ zeros 2 ++ le 4 (((from_ s).drop count.toNat).head?.elim 0xFFFFFFFF (·.1)) ++ l.flatMap fun e => grantRecord s e.2) s

/-- Loads one export record; answers whether it was loaded (14 R323). -/
def grantLoad (r : GrantRec) (s : State) : Bool × State :=
  let a : NetAddr := if r.ipv6 then .v6 r.addr else .v4 (BitVec.ofNat 32 (r.addr.toNat / 2 ^ 96))
  match (fin? 16 r.inst.toNat).bind fun i => (s.ptp.inst[i]).map fun k => (i, k) with
  | none => (false, s)
  | some (i, k) =>
    let old := (findGrant s i a r.pidCrc).elim {} fun j => (grantGet s j).live s
    let g : Grant := { old with
      addr := a, pidCrc := r.pidCrc, inst := i, port := ⟨r.port.toNat, r.port.isLt⟩, dur := r.dur.toNat, exp := (odoSec s + r.remain.toNat) % 16384
      logSync := r.logSync.toInt, logAnn := r.logAnn.toInt, logDresp := r.logDresp.toInt, dreqTat := dreqTime s }
    if r.remain = 0#16 || g.free || s.ptp.budget < rateSum s (fun _ => true) - old.rate + g.rate ||
        (k.auth && authBudget s < rateSum s (·.auth) - old.rate + g.rate) then (false, s)
    else match placeGrant i a r.pidCrc s with
      | none => (false, s)
      | some (j, s1) => match nhTake r.mac s1 with
        | none => (false, s)
        | some (n, s2) => (true, tableHigh k.owner s (grantPut j { g with nh := n } s2))

/-- Loads records in order, counting them. -/
def grantLoads (recs : List GrantRec) (s : State) : Nat × State :=
  recs.foldl (fun x r => let y := grantLoad r x.2; (x.1 + bit y.1, y.2)) (0, s)

/-- `ICP_PTP_GRANT_LOAD`. -/
def execIcpPtpGrantLoad (c : CmdRef) (count : BitVec 16) (recs : List GrantRec) (rsv : Bool) (s : State) : Out :=
  icp c 0x807 (fun s =>
    if rsv || count == 0#16 || recs.any fun r => 15 < r.inst.toNat then .done stBadArg [] s
    else if 100 < count.toNat then .done stRange [] s
    else
      let r := grantLoads recs s
      .done stOk (le 2 r.1 ++ le 2 (recs.length - r.1)) r.2) s

/-- The instances an `ICP_PTP_GRANT_CANCEL` names. -/
def cancelNames (c : CmdRef) (inst : BitVec 8) (s : State) (i : Fin 16) : Bool :=
  if inst = 0xFF#8 then (s.ptp.inst[i]).elim false (·.owner == c.slot) else i.1 == inst.toNat

/-- `ICP_PTP_GRANT_CANCEL`. -/
def execIcpPtpGrantCancel (c : CmdRef) (inst : BitVec 8) (rsv : Bool) (s : State) : Out :=
  icp c 0x808 (fun s =>
    if notOwn c inst s then .done stDenied [] s
    else if rsv || (15 < inst.toNat && inst != 0xFF#8) then .done stBadArg [] s
    else .done stOk (le 4 (s.ptp.grants.filter fun e => cancelNames c inst s e.2.inst).length) (cancelAll (cancelNames c inst s) s)) s

/-- The client domain a command sets, before its candidates are asked. -/
def newClient (a : ClientArgs) (k : PtpClient) : PtpClient :=
  { k with
    en := a.enable == 1#8, port := ⟨a.port.toNat % 4, by omega⟩, profile := a.profile.toNat, domain := a.domain.toNat, transport := a.transport.toNat,
    unicast := a.unicast, auth := a.auth, nonfwd := a.nonfwd, spp := a.spp.toNat, logAnn := a.logAnn.toInt, logSync := a.logSync.toInt,
    logDreq := a.logDreq.toInt, duration := a.duration.toNat }

/-- The configured candidate addresses. -/
def candAddrs (a : ClientArgs) : List NetAddr := a.addrs.toList.take a.cands.toNat

/-- A change of port, profile, domain or candidates. -/
def clientMoved (o n : PtpClient) (addrs : List NetAddr) : Bool :=
  o.port != n.port || o.profile != n.profile || o.domain != n.domain || o.transport != n.transport || o.unicast != n.unicast ||
  (n.unicast && o.cands.map (·.addr) != addrs)

/-- A serving instance shares the port and domain of a client domain. -/
def instClash (s : State) (n : PtpClient) : Bool :=
  s.ptp.inst.toList.any fun k => k.elim false fun k => k.domain == n.domain && (instPorts s k).getLsbD n.port.1

/-- Sets a client domain: one that moved starts anew, and asks its unicast candidates (14 R320, R328). -/
def clientSet (c : Fin 2) (a : ClientArgs) (s : State) : State :=
  let o := s.ptp.client[c]
  let n := newClient a o
  if o.en && n.en && !clientMoved o n (candAddrs a) then onClient c (fun _ => n) s
  else
    let fresh : PtpClient := { n with
      cands := if n.unicast then (candAddrs a).map fun x => { addr := x } else []
      best := none, sync := none, syncPend := none, dreq := none, dreqSync := none, dreqAt := none, measNow := 0, meas := 0, measAt := none }
    let s1 := onClient c (fun _ => fresh) s
    let s2 := if n.en && n.unicast && clientRuns s1 c then (List.range (candAddrs a).length).foldl (fun s j => clientAsk c j grantKinds 0 s) s1 else s1
    if o.en && n.en then configured (clientSlot c) s2 else s2

/-- `ICP_PTP_CLIENT_CONFIG`. -/
def execIcpPtpClientConfig (c : CmdRef) (a : ClientArgs) (s : State) : Out :=
  let n := newClient a {}
  icpDo c 0x810
    (fun s => [
      (a.rsv || decide (1 < a.client.toNat) || decide (1 < a.enable.toNat) || decide (2 < a.profile.toNat) || decide (2 < a.transport.toNat) ||
        decide (3 < a.port.toNat), stBadArg),
      (!transportOk n.profile n.transport n.unicast || (a.unicast && a.cands == 0#8) || a.duration == 0#16, stBadArg),
      (decide (4 < a.cands.toNat) || !domainOk n.profile n.domain || !annOk n.profile n.logAnn || !syncOk n.profile n.unicast n.logSync ||
        !syncOk n.profile n.unicast n.logDreq, stRange),
      (n.en && instClash s n, stOrder),
      (n.auth && (ringKeys s 0 true n.spp).isEmpty, stNoKey)])
    (fun s => match fin? 2 a.client.toNat with
      | some k => clientSet k a s
      | none => s)
    (fun _ => []) s

/-- Grants of the instances bound to an address that is deleted end at once (14 R327). -/
def addrGrants (i : Fin 8) (k : Nat) (s : State) : State :=
  let hit (j : Fin 16) : Bool := (s.ptp.inst[j]).elim false fun q => q.unicast && q.owner == i && q.addrIdx == k
  nhFree (onPtp (fun v => { v with grants := v.grants.filter fun e => !hit e.2.inst }) s)

/-- Deletes a listening address. -/
def addrDelete (i : Fin 8) (k : Fin 32) (s : State) : State :=
  addrGrants i k.1 (onServSlot i (fun q => { q with addrs := q.addrs.set k.1 none }) s)

/-- `ICP_SERV_ADDR_DEL` (13 R300, R301). -/
def execIcpServAddrDel (c : CmdRef) (idx : BitVec 8) (rsv : Bool) (s : State) : Out :=
  icpDo c 0x701
    (fun _ => [(rsv || decide (31 < idx.toNat), stBadArg)])
    (fun s => match fin? 32 idx.toNat with
      | some k => if (s.serv.slots[c.slot].addrs[k]).isSome then addrDelete c.slot k s else s
      | none => s)
    (fun _ => []) s

end Sys2Proof.Machine
end

