-- ==== Sys2Proof/Machine/Ports.lean ====
section
/-!
DEFINITION. The network ports: links, receive and classification, flow control, SyncE and ESMC, host rings, the launch of
reserved frames, the registers of the PORT block and its commands (11; 12 R256-R259).
-/
namespace Sys2Proof.Machine
open Sys2Proof

/-! ## Links (11 R228, R243; 12 R263) -/

/-- Power domain of a port (02 R32). -/
def portDom (p : Fin 4) : Nat := if p.1 < 2 then 6 else 7

/-- A port runs: a mode other than disabled, in a powered domain. -/
def portUp (s : State) (p : Fin 4) : Bool := timeUp s && powered s (portDom p) && s.port.p[p].mode != 0

/-- Sets bits of PORT_p_HIST. -/
def portHist (p : Fin 4) (v : Word) (s : State) : State := sticky (0x80128 + 0x80 * p.1) v s

/-- Sources 20, 21 and 23 follow the ports' conditions (21 R443). -/
def portConds (s : State) : State :=
  faultCond 23 (s.port.p.toList.any (·.phaseLost))
    (faultCond 21 (s.port.p.toList.any fun q => q.mode != 0 && !q.pllLock)
      (faultCond 20 (s.port.p.toList.any (·.wdTripped)) s))

/-- LINK_n and PORTn_LINK. -/
def linkFlag (p : Fin 4) (s : State) : State := faultEvent ⟨16 + p.1, by omega⟩ (raise (128 + p.1) s)

/-- The reported link goes down: launch frames are dropped with cause LINK, descriptors complete with FLUSHED (11 R228,
R233; 12 R259). -/
def linkDown (p : Fin 4) (s : State) : State :=
  let s0 := onPort p (fun q => { q with holdRunning := false }) s
  if !s.port.p[p].link then s0
  else
    let s1 := dropLaunch p 4 (fun _ => true) (onPort p (fun q => { q with link := false }) s0)
    let held := s1.port.p[p].txq.filter fun f => f.desc.isNone && f.start.isNone
    let s2 := held.foldl (fun s f => fenceWaited p (nowQ s) f s) (txFlush p true (fun _ => true) s1)
    let s3 := onPort p (fun q => { q with txq := [], ctlPend := [], genCells := 0 }) s2
    linkFlag p (portHist p 1#32 (portCount p 25 1 none s3))

/-- The reported link comes up, which ends a watchdog trip (11 R228, R238). -/
def linkRise (p : Fin 4) (s : State) : State :=
  let s1 := onPort p (fun q => { q with link := true, holdRunning := false, wdTripped := false }) s
  txStart p (linkFlag p (portHist p 2#32 (portConds s1)))

/-- Nothing keeps the link down but LINK_UP_HOLD. -/
def linkMay (s : State) (p : Fin 4) : Bool :=
  let q := s.port.p[p]
  portUp s p && q.pcsUp && q.pllLock && !q.phaseLost && !q.link

/-- The LINK_UP_HOLD timer starts, or the link goes up at once (11 R228). -/
def holdStart (p : Fin 4) (s : State) : State :=
  if !linkMay s p then s
  else if s.port.p[p].linkHold = 0 then linkRise p s
  else onPort p (fun q => { q with holdRunning := true }) s

/-- PCS_UP. -/
def execPcsUp (p : Fin 4) (s : State) : Out :=
  .next (if !portUp s p || s.port.p[p].pcsUp then s
    else holdStart p (onPort p (fun q => { q with pcsUp := true, cdrLock := true }) s))

/-- PCS_LOSS. -/
def execPcsLoss (p : Fin 4) (s : State) : Out :=
  .next (linkDown p (onPort p (fun q => { q with pcsUp := false, cdrLock := false }) s))

/-- LINK_UP: the PCS has been up for LINK_UP_HOLD. -/
def execLinkUp (p : Fin 4) (s : State) : Out :=
  .next (if linkMay s p && s.port.p[p].holdRunning then linkRise p s else s)

/-- AUTONEG_RESTART on a 1000BASE-X port with Clause 37 on; the PCS counts as up again with the next PCS_UP. -/
def execAutonegRestart (p : Fin 4) (s : State) : Out :=
  .next (if portUp s p && s.port.p[p].mode == 3 && s.port.p[p].an then linkDown p (onPort p (fun q => { q with pcsUp := false }) s) else s)

/-- SERDES_PLL_LOSS (11 R243). -/
def execSerdesPllLoss (p : Fin 4) (s : State) : Out :=
  .next (if !portUp s p || !s.port.p[p].pllLock then s
    else linkDown p (portConds (portHist p 0x20#32 (onPort p (fun q => { q with pllLock := false }) s))))

/-- SERDES_PLL_RELOCK. -/
def execSerdesPllRelock (p : Fin 4) (s : State) : Out :=
  .next (if !portUp s p || s.port.p[p].pllLock then s
    else holdStart p (portConds (onPort p (fun q => { q with pllLock := true }) s)))

/-- FINE_PHASE_TRACK_LOST (12 R263). -/
def execFinePhaseTrackLost (p : Fin 4) (s : State) : Out :=
  .next (if !portUp s p then s else linkDown p (portConds (onPort p (fun q => { q with phaseLost := true }) s)))

/-- FINE_PHASE_TRACK_REGAINED. -/
def execFinePhaseTrackRegained (p : Fin 4) (s : State) : Out :=
  .next (if s.port.p[p].phaseLost then holdStart p (portConds (onPort p (fun q => { q with phaseLost := false }) s)) else s)

/-! ## PAUSE (11 R237-R239) -/

/-- Quarter-ticks of a pause quantum, 512 bit times. -/
def quantumQ (mode : Nat) : Nat := match mode with | 2 => 160 | 3 => 1600 | _ => 64

/-- The pause timer takes a value; the time it was non-zero is counted in PAUSED_US, what does not make a whole microsecond
with the next (11 R237, R244). -/
def pauseLoad (p : Fin 4) (quanta : Nat) (s : State) : State :=
  let q := s.port.p[p]
  let n := pausedUnits s q
  onPort p (fun q => { q with
    pauseTimer := quanta, pauseAt := s.time.odo, pauseFrom := s.time.odo, pauseRem := n % 25000
    pauseSince := if q.pauseTimer = 0 then s.time.odo else q.pauseSince }) (portCount p 23 (n / 25000) none s)

/-- A port whose domain is gated or whose mode changes: its link is down and what its clocks carried is gone (02 R32,
11 R227). -/
def portOff (p : Fin 4) (s : State) : State :=
  portConds (onPort p (fun q => { q with
    pcsUp := false, cdrLock := false, pllLock := q.mode != 0, phaseLost := false, xoffSent := false, fill := 0 })
    (pauseLoad p 0 (linkDown p s)))

/-- PAUSE_TIMER_EXPIRY, at the instant the timer reaches 0. -/
def execPauseTimerExpiry (p : Fin 4) (s : State) : Out :=
  let q := s.port.p[p]
  let t := 4 * q.pauseAt + q.pauseTimer * quantumQ q.mode
  .next (if q.pauseTimer = 0 || !inPeriod t s then s else txStart p (pauseLoad p 0 (atQ t s)))

/-- PAUSE_WATCHDOG_TRIP, at the instant the measurement reaches PAUSE_WD (11 R238). -/
def execPauseWatchdogTrip (p : Fin 4) (s : State) : Out :=
  let q := s.port.p[p]
  let t := 4 * (q.pauseSince + 781250 * q.pauseWd)
  .next (if q.pauseTimer = 0 || scopeNow q = 0 || !inPeriod t s then s
    else
      let s1 := portCount p 24 1 none (onPort p (fun q => { q with wdTripped := true }) (atQ t s))
      txStart p (portConds (raise (132 + p.1) (portHist p 4#32 s1))))

/-- XOFF_SEND: the ingress fill has reached XOFF (11 R239). -/
def xoffCheck (p : Fin 4) (s : State) : State :=
  let q := s.port.p[p]
  if q.txPause && !q.xoffSent && q.link && q.xoff * 1024 ≤ q.fill then
    ctlSend p (.pause 0xFFFF) (onPort p (fun q => { q with xoffSent := true }) s)
  else s

/-- XOFF_REPEAT: every 32,768 quanta while the fill stays above XON. -/
def execXoffRepeat (p : Fin 4) (s : State) : Out :=
  let q := s.port.p[p]
  .next (if q.txPause && q.xoffSent && q.xon * 1024 < q.fill then ctlSend p (.pause 0xFFFF) s else s)

/-- XON_SEND: the ingress fill falls to XON. -/
def execXonSend (p : Fin 4) (s : State) : Out :=
  let q := s.port.p[p]
  .next (if q.txPause && q.xoffSent then
      ctlSend p (.pause 0) (onPort p (fun q => { q with xoffSent := false, fill := min q.fill (q.xon * 1024) }) s)
    else s)

/-- A received PAUSE frame (11 R237). -/
def pauseFrame (p : Fin 4) (quanta : Nat) (s : State) : State :=
  let s1 := portCount p 6 1 none s
  if scopeNow s.port.p[p] = 0 then s1 else if quanta = 0 then txStart p (pauseLoad p 0 s1) else pauseLoad p quanta s1

/-! ## ESMC and SyncE (11 R240-R242) -/

/-- The PDU the port's generation sends (11 R242). -/
def esmcFrame (q : PortSt) (event : Bool) : CtlFrame :=
  .esmc event (if q.txQlMode then q.txSsm else 0xF) (if q.extTlv then some (if q.txQlMode then q.txEssm else 0xFF) else none)

/-- An ESMC PDU is accepted (11 R241). -/
def esmcValid (dmac : BitVec 48) (u : EsmcPdu) : Bool :=
  dmac == 0x0180C2000002#48 && u.subtype == 0x0A#8 && u.oui == 0x0019A7#24 && u.itu == 1#16 && u.version == 1#4 && u.ssm.isSome

/-- A received ESMC PDU (11 R241). -/
def esmcReceive (p : Fin 4) (dmac : BitVec 48) (u : EsmcPdu) (s : State) : State :=
  let q := s.port.p[p]
  let recent := q.esmcTimes.filter fun t => decide (s.time.odo < t + 781250000)
  let ssm := (u.ssm.map BitVec.toNat).getD 0xF
  if !esmcValid dmac u then portCount p 9 1 none s
  else if 10 ≤ recent.length then portCount p 10 1 none s
  else
    let changed := q.esmcAt.isSome && (q.ssm, q.ssmExt, q.essm) != (ssm, u.essm.isSome, (u.essm.map BitVec.toNat).getD 0xFF)
    let s1 := onPort p (fun q => { q with
      ssm := ssm, ssmExt := u.essm.isSome, essm := (u.essm.map BitVec.toNat).getD 0xFF
      esmcAt := some s.time.odo, esmcTimes := s.time.odo :: recent }) (portCount p 8 1 none s)
    if changed then raise (136 + p.1) (portHist p 8#32 s1) else s1

/-- What a port does at a second boundary: the information PDU (11 R242). -/
def portSecond (p : Fin 4) (s : State) : State :=
  let q := s.port.p[p]
  if q.esmcEn then ctlSend p (esmcFrame q false) s else s

/-- ESMC_EVENT_PDU (11 R242). -/
def execEsmcEventPdu (p : Fin 4) (s : State) : Out :=
  let q := s.port.p[p]
  .next (if q.esmcEn && q.esmcEventDue && q.link then
      ctlSend p (esmcFrame q true) (onPort p (fun q => { q with esmcEventDue := false }) s)
    else s)

/-- SYNCE_PHASE_MEASURE: a recovered clock that is locked is compared in phase, with 5 ps resolution (11 R240). -/
def execSyncePhaseMeasure (p : Fin 4) (phasePs : Int) (cdrLock ppmOk : Bool) (s : State) : Out :=
  .next (if !s.port.p[p].link then s
    else
      let s1 := onPort p (fun q => { q with cdrLock := cdrLock && ppmOk }) s
      if cdrLock && ppmOk then pushMeas ⟨5 + p.1, by omega⟩ (5 * rdiv phasePs 5) (odoTime s.time.odo) s.time.odo s1 else s1)

/-! ## Receive (11 R229, R230, R236) -/

/-- An octet and a line bit of a port mode in 1/2112 tick (11 R225, 12 R249). -/
def octetU (mode : Nat) : Nat × Nat :=
  match mode with
  | 1 => (528, 64)
  | 2 => (1320, 160)
  | _ => (13200, 1320)

/-- From the tick of a frame's block edge to the instant at which its timestamp point left the PCS, 1/2112 tick: the fine
phase, the octet position in the block and the gearbox position (12 R249; log 185). -/
def rxSub (s : State) (f : RxFrame) : Nat :=
  let u := octetU s.port.p[f.port].mode
  33 * f.phase.toNat + u.1 * f.octet.toNat + u.2 * f.gearbox.toNat

/-- Transcoding offset removed from a receive stamp (12 R251). -/
def rxFec (s : State) (f : RxFrame) : Int := if s.port.p[f.port].fec then fecUnits f.fecPos.toNat else 0

/-- Receive stamp of a frame before its latency (12 R249, R251, R253). -/
def rxRaw (s : State) (f : RxFrame) : Nat :=
  cntPlus (cntAt s (s.time.bOdo + f.off.toNat)) ((rxSub s f : Int) * rate s / 2112 - rxFec s f)

/-- Receive stamp of a frame (12 R249). -/
def rxStamp (s : State) (f : RxFrame) : Nat := cntPlus (rxRaw s f) (-psU s.wayp.p[f.port].rxLat)

/-- Odometer position of a frame's receive stamp, 1/33 ps. -/
def rxPos (s : State) (f : RxFrame) : Int :=
  posTick (s.time.bOdo + f.off.toNat) + 20 * rxSub s f - 33 * s.wayp.p[f.port].rxLat -
    (if s.port.p[f.port].fec then 128007 * f.fecPos.toNat / 100 else 0 : Nat)

/-- The 32 bytes of a ring element that holds a received frame (11 R236). -/
def RxDone.bytes (x : RxDone) : List Byte :=
  le 8 x.buf.toNat ++ le 2 x.len ++ le 2 (1 + 2 * bit x.vlan + 4 * bit x.arpNd) ++ le 6 (secOf x.stamp) ++ le 2 (fracOf x.stamp) ++
    le 4 (nsOf x.stamp) ++ le 4 x.errb ++ zeros 4

/-- The ring has no free descriptor (18 R400). -/
def RxRing.full (r : RxRing) : Bool := decide (r.count ≤ (r.pi - r.ci).toNat)

/-- A descriptor is written, then the producer index to the index-writeback address. -/
def RxRing.put (x : RxDone) (r : RxRing) : RxRing := { r with pi := r.pi + 1, back := ({ x with idx := r.pi } :: r.back).take r.count }

/-- A frame for a host slot enters its receive ring, or is dropped (11 R230, R236); a function that cannot be written to has no
descriptor to give (18 R408). -/
def rxDeliver (f : RxFrame) (i : Fin 8) (arp : Bool) (stamp : Nat) (s : State) : State :=
  match s.port.p[f.port].rxRing[i] with
  | none => portCount f.port 11 1 none s
  | some r0 =>
    let r := { r0 with ci := f.hostCi }
    let s1 := onPort f.port (fun q => { q with rxRing := upd q.rxRing i fun _ => some r }) s
    if r.full || !canWrite s i then portCount f.port 12 1 (some i) s1
    else raiseTo i (224 + 2 * i.1) (onPort f.port (fun q => { q with rxRing := upd q.rxRing i fun _ => some (r.put {
      buf := f.buf, len := f.len, vlan := !f.vlans.isEmpty, arpNd := arp, stamp := stamp, errb := errbPort s f.port }) }) s1)

/-- A calibration frame returns to the receive port of a loop-back series: receive minus transmit, both raw (12 R253). -/
def calReturn (f : RxFrame) (raw : Nat) (s : State) : State :=
  (List.finRange 4).foldl (fun s p => match s.wayp.p[p].cal with
    | some k =>
      if k.loop_ && k.rx == f.port && decide (k.results.length < k.n) then
        onWayp p (fun w => { w with cal := some { k with results := uPs ((rxRaw s f : Int) - raw) :: k.results } }) s
      else s
    | none => s) s

/-- The listening address a frame's service request is for (13 R271). -/
def servClaim (f : RxFrame) (s : State) : Option (Fin 8 × ServAddr) :=
  match f.body with
  | .udp _ dst _ dport _ _ _ _ =>
    if f.dmac == s.port.p[f.port].mac && dport == 123#16 then servAddrOf s f.port dst f.vlans else none
  | _ => none

/-- Hands a claimed frame to the service pipeline. -/
def servFrame (f : RxFrame) (x : Fin 8 × ServAddr) (stamp : Nat) (s : State) : State :=
  match f.body with
  | .udp src _ sport _ dscp frag csum (.ntp r) => servRequest f src sport dscp frag csum (some r) x.1 x.2 stamp (rxPos s f) s
  | .udp src _ sport _ dscp frag csum _ => servRequest f src sport dscp frag csum none x.1 x.2 stamp (rxPos s f) s
  | _ => s

/-- Classification of a frame of row 8: the service pipeline, the PTP engine, the owner of an address asked for, slot 0
(11 R230). -/
def classify (f : RxFrame) (stamp : Nat) (s : State) : State :=
  match servClaim f s with
  | some x => servFrame f x stamp s
  | none =>
    match ptpFrame f stamp (rxPos s f) s with
    | some s1 => s1
    | none =>
      match f.body with
      | .arpNd a => match servAddrOf s f.port a f.vlans with
        | some x => rxDeliver f x.1 true stamp s
        | none => rxDeliver f 0 false stamp s
      | .calibration raw => rxDeliver f 0 false stamp (calReturn f raw s)
      | _ => rxDeliver f 0 false stamp s

/-- The ingress fill after a frame that is stored. -/
def rxStore (f : RxFrame) (s : State) : State :=
  xoffCheck f.port (onPort f.port (fun q => { q with fill := f.fill + f.len }) s)

/-- A frame dropped under rows 1-4 of 11 R229. -/
def rxDrop (p : Fin 4) (k : Nat) (s : State) : State := portHist p 0x10#32 (portCount p k 1 none s)

/-- FRAME_RECEIVE (11 R229). -/
def execFrameReceive (f : RxFrame) (s0 : State) : Out :=
  let p := f.port
  let s := onPort p (fun q => { q with fill := f.fill }) (atTick f.off s0)
  let classified := classify f (rxStamp s f) (rxStore f (portCount p 1 f.len none (portCount p 0 1 none s)))
  .next (if !s0.port.p[p].link then s0
    else if s.port.p[p].maxFrame < f.len then rxDrop p 2 s
    else if f.len < 64 then rxDrop p 3 s
    else if !f.fcsOk then rxDrop p 4 s
    else if 98304 < f.fill + f.len then rxDrop p 5 s
    else match f.body with
      | .macControl op quanta => if op == 1#16 then pauseFrame p quanta.toNat s else portCount p 7 1 none s
      | .slow u => if u.subtype == 0x0A#8 then esmcReceive p f.dmac u s else classified
      | _ => classified)

/-! ## Host frames (11 R231-R235) -/

/-- HOST_TX_DESCRIPTOR: the host's next descriptor enters its ring; what the general pool has room for is taken and checked,
and the queues are tried (11 R231-R235). A descriptor that no queue takes is checked at once. -/
def execHostTxDescriptor (p : Fin 4) (d : TxDesc) (s : State) : Out :=
  .next (match s.port.p[p].txRing[d.slot] with
  | none => s
  | some r =>
    if r.full || !canWrite s d.slot then s
    else
      let s1 := onTxRing p d.slot (TxRing.post d) s
      let st := txCheck s1 p d
      txStart p (if 5 < d.queue then txEnd p { idx := r.pi, d := d } st s1 else s1))

/-- HOST_FRAME_SENT: the frame of queues 0-6 on the wire has left it, and the queues start the next one; with none on the
wire the queues are tried at the next free block boundary. -/
def execHostFrameSent (p : Fin 4) (s : State) : Out :=
  let q := s.port.p[p]
  .next (match inAir q with
  | some f => if inPeriod (airEnd q f) s then txStart p (txFinish p f (atQ (airEnd q f) s)) else s
  | none =>
    let b := blockCeil q.mode (max (nowQ s) q.wireFree)
    if q.link && inPeriod b s then txStartAt p b (takeAll p (atQ b s)) else s)

/-! ## Launch (12 R256-R259) -/

/-- The service transaction an identifier of the launch queue names. -/
def txnOf (s : State) (id : Nat) : Option Txn := if id % 2 = 0 then s.serv.inflight.find? (·.id == id / 2) else none

/-- The PTP emission an identifier of the launch queue names. -/
def msgOf (s : State) (id : Nat) : Option PtpMsg := if id % 2 = 1 then s.ptp.msgs.find? (·.id == id / 2) else none

/-- One waiting attempt is made again. -/
def retryOne (id : Nat) (s : State) : State :=
  match txnOf s id, msgOf s id with
  | some t, _ => servReserve t s
  | none, some m => ptpReserve m s
  | none, none => s

/-- The waiting attempts of a port are made again in the order of their requests, until one still has to wait (12 R255). -/
def retryAll (p : Fin 4) : List WaitRes → State → State
  | [], s => s
  | r :: l, s =>
    let s1 := retryOne r.txn s
    if s1.wayp.p[p].waiting.any (·.txn == r.txn) then s1 else retryAll p l s1

/-- RESERVATION_RETRY (12 R256). -/
def execReservationRetry (p : Fin 4) (s : State) : Out := .next (retryAll p s.wayp.p[p].waiting s)

/-- A transaction that did not reserve in time (01 R21, 13 R294). -/
def servLate (t : Txn) (s : State) : State :=
  faultEvent 27 (waypHist t.port.1 t.slot.1 0x40#32 (waypCount t.port 8 1 none (servHist t.slot 0x20#32 (txnCount t 18 1 s))))

/-- An emission that did not reserve in time: a stream's is a SYNC_SKIP (14 R315, R324). -/
def ptpLate (m : PtpMsg) (s : State) : State :=
  let p := m.out.port
  if m.stream then
    let s1 := ptpHist m.owner 8#32 (ptpCount p 22 m.owner s)
    let s2 := onPtp (fun v => { v with lastSkip := some s.time.odo }) s1
    if idleSecond s.ptp.lastSkip s then faultEvent 32 (raise 185 s2) else s2
  else waypHist p.1 m.owner.1 0x40#32 (waypCount p 8 1 none s)

/-- Arrival or visit of an attempt that has not reserved on a port: one that waits, or an NTS transaction in its work list. -/
def unreserved (s : State) (p : Fin 4) (id : Nat) : Option Int :=
  match s.wayp.p[p].waiting.find? (·.txn == id) with
  | some r => some r.arrival
  | none => ((txnOf s id).filter fun t => t.port == p && !t.reserved).map (·.arrPos)

/-- RESERVATION_DEADLINE: 18 us after its arrival or visit, an attempt has not reserved (01 R21, 12 R256, 13 R294). -/
def execReservationDeadline (p : Fin 4) (id : Nat) (s : State) : Out :=
  match unreserved s p id with
  | none => .next s
  | some a =>
    let t := lateQ a
    .next (if !inPeriod t s then s
      else
        let s1 := waitEnd p id (atQ t s)
        match txnOf s id, msgOf s id with
        | some x, _ => freeTxn id (servLate x s1)
        | none, some m => freeTxn id (ptpLate m s1)
        | none, none => s1)

/-- The entry belongs to a transaction that sends nothing (13 R279, R283). -/
def isSilent (s : State) (e : LaunchEnt) : Bool := !e.cal && (txnOf s e.txn).elim false (·.silent)

/-- A reservation that sends nothing is released. -/
def launchSkip (p : Fin 4) (e : LaunchEnt) (s : State) : State := txStart p (freeTxn e.txn (launchFree p e s))

/-- LAUNCH_POOL_DEADLINE: D - 128 ticks of the first entry that has not passed it (12 R257). -/
def execLaunchPoolDeadline (p : Fin 4) (late : Bool) (s : State) : Out :=
  match s.wayp.p[p].launch.find? (!·.checked) with
  | none => .next s
  | some e =>
    let t := e.d - 512
    .next (if !inPeriod t s then s
      else
        let s1 := atQ t s
        if isSilent s e then launchSkip p e s1
        else if late || decide (t < e.ready) then dropLaunch p 1 (· == e) s1
        else onWayp p (fun w => { w with launch := w.launch.map fun x => if x == e then { x with checked := true } else x }) s1)

/-- The frame of a launch entry goes out: what its owner counts and sends. -/
def launchOut (e : LaunchEnt) (s : State) : State :=
  match txnOf s e.txn, msgOf s e.txn with
  | some t, _ => servLaunch t s
  | none, some m =>
    let s1 := onPtp (fun v => { v with lastOut := some m.out }) s
    match m.out.kind with
    | .sync => ptpCount m.out.port 0 m.owner s1
    | .announce => ptpCount m.out.port 1 m.owner s1
    | .delayResp => ptpCount m.out.port 2 m.owner s1
    | .signaling => ptpCount m.out.port 3 m.owner s1
    | .delayReq | .other _ => s1
  | none, none => s

/-- What a calibration frame that starts at its D adds to its series: the offset of D from the second boundary, or the next
loop-back frame 10 us later (12 R253, R266). -/
def calSent (p : Fin 4) (e : LaunchEnt) (s : State) : State :=
  match s.wayp.p[p].cal with
  | none => s
  | some k =>
    if !k.loop_ then onWayp p (fun w => { w with cal := some { k with results := uPs (e.stamp % secU : Nat) :: k.results } }) s
    else if k.left = 0 then s
    else calLaunch p (e.d + 31250) (onWayp p (fun w => { w with cal := some { k with left := k.left - 1 } }) s)

/-- A frame starts at its D: counters, and the wire is taken. -/
def wireOut (p : Fin 4) (e : LaunchEnt) (s : State) : State :=
  onPort p (fun q => { q with wireFree := e.d + wireQ q.mode e.len }) (portCount p 14 e.len none (portCount p 13 1 none s))

/-- FRAME_LAUNCH: at D the frame starts and its in-flight slot is released, or it is dropped (12 R257, R259). -/
def execFrameLaunch (p : Fin 4) (s : State) : Out :=
  match s.wayp.p[p].launch.head? with
  | none => .next s
  | some e =>
    let s1 := atQ e.d s
    let q := s.port.p[p]
    .next (if !inPeriod e.d s then s
      else if e.cal then
        txStart p (calSent p e (onPort p (fun q => { q with lastCtl := some (.calibration e.stamp) }) (launchFree p e (wireOut p e s1))))
      else if isSilent s e then launchSkip p e s1
      else if !e.checked && decide (e.d - 512 < e.ready) then dropLaunch p 1 (· == e) s1
      else if !q.link then dropLaunch p 4 (· == e) s1
      else if scopeNow q = 2 && q.pauseTimer != 0 then dropLaunch p 3 (· == e) s1
      else txStart p (freeTxn e.txn (launchFree p e (launchOut e (waypCount p 0 1 none (wireOut p e s1))))))

/-! ## Registers (11 R245) -/

/-- A byte of a MAC address, the first sent being byte 0. -/
def macByte (m : BitVec 48) (k : Nat) : Nat := m.toNat / 2 ^ (8 * (5 - k)) % 256

/-- Fields of the PORT block that are not sticky. -/
def roPort (s : State) (_rd o : Nat) : Word :=
  match group? o 0x100 0x80 4 with
  | some (p, g) =>
    let q := s.port.p[p]
    match g with
    | 0x00 => pack [(0, q.mode), (2, bit q.fec), (3, bit q.an), (8, q.maxFrame)]
    | 0x04 => pack [(0, bit q.link), (1, bit q.pcsUp), (2, bit q.cdrLock), (3, bit (q.pauseTimer != 0)), (4, bit q.wdTripped),
        (5, bit q.xoffSent), (6, bit q.pllLock), (7, bit q.calMissing), (16, q.linkHold)]
    | 0x08 => pack [(0, macByte q.mac 0), (8, macByte q.mac 1), (16, macByte q.mac 2), (24, macByte q.mac 3)]
    | 0x0C => pack [(0, macByte q.mac 4), (8, macByte q.mac 5)]
    | 0x10 => pack [(0, q.pauseScope), (2, bit q.txPause), (6, q.pauseWd)]
    | 0x14 => pack [(0, q.xoff), (16, q.xon)]
    | 0x18 => pack [(0, q.ssm), (4, bit q.ssmExt), (5, bit (q.esmcLive s.time.odo)), (8, q.essm),
        (16, satU 16 (q.esmcAt.elim 0 fun t => (s.time.odo - t) / tickSec))]
    | 0x1C => pack [(0, bit q.esmcEn), (1, bit q.txQlMode), (2, bit q.extTlv), (8, q.txSsm), (16, q.txEssm)]
    | 0x20 => w32 q.fill
    | 0x24 => pack [(0, q.launchCells), (16, q.genCells)]
    | _ => 0#32
  | none =>
    match o with
    | 0x00 => lkWord s 8
    | 0x04 => (List.finRange 4).foldl (fun a p =>
        let q := s.port.p[p]
        a ||| pack [(p.1, bit q.link), (4 + p.1, bit (q.pauseTimer != 0)), (8 + p.1, bit q.wdTripped)]) 0#32
    | _ => 0#32

/-! ## Commands (11 R246, R247) -/

/-- What forbids a change of a port's mode or the gating of its domain (11 R227, 02 R33). -/
def portCarries (s : State) (p : Fin 4) : Bool :=
  (List.finRange 8).any (fun i => (s.serv.slots[i].addrs.toList.filterMap id).any (·.ports.getLsbD p.1)) ||
  s.ptp.grants.any (fun e => !e.2.free && e.2.port == p) ||
  (List.finRange 2).any (fun c => s.ptp.client[c].en && s.ptp.client[c].port == p) ||
  s.sign.slots[5 + p.1].state != .disabled

/-- The command changes a port's mode or FEC option. -/
def modeChange (s : State) (p : Fin 4) (a : PortConfigArgs) : Bool := a.mode.toNat != s.port.p[p].mode || a.fec != s.port.p[p].fec

/-- Checks of `ICP_PORT_CONFIG` that need the port. -/
def portChecks (s : State) (p : Fin 4) (a : PortConfigArgs) : List (Bool × Nat) :=
  [(s.port.p[p].rxRing.toList.any (fun r => r.elim false fun r => decide (r.bufKiB * 1024 < a.maxFrame.toNat)), stOrder),
   (modeChange s p a && a.mode != 0#8 && s.sys.mode != .provision && (calFind s p a.mode.toNat a.fec).isNone, stOrder),
   (modeChange s p a && s.regs.lk.getLsbD 3, stLocked),
   (modeChange s p a && portCarries s p, stBusy)]

/-- Queued descriptors longer than a new MAX_FRAME allows complete with TOO_LONG; a frame that has started is sent (11 R247). -/
def txTooLong (p : Fin 4) (s : State) : State :=
  let long (d : TxDesc) : Bool := decide (s.port.p[p].maxFrame - 4 < d.len)
  let started (e : TxEnt) : Bool := (inAir s.port.p[p]).elim false fun f => f.desc == some e.d && f.idx == e.idx
  let fs := s.port.p[p].txq.filter fun f => f.start.isNone && f.desc.elim false long
  let s1 := onPort p (fun q => { q with
    txq := q.txq.filter fun f => !(f.start.isNone && f.desc.elim false long)
    genCells := q.genCells - (fs.map poolCells).sum }) (fs.foldl (fun s f => fenceWaited p (nowQ s) f s) s)
  txStart p ((List.finRange 8).foldl (fun s i => txEndAll p i 2 (fun e => long e.d && !started e) s) s1)

/-- A change of mode or FEC option (11 R227; 12 R253, R262). -/
def portMode (p : Fin 4) (mode : Nat) (fec : Bool) (s : State) : State :=
  let s1 := onPort p (fun q => { q with mode := mode, fec := fec }) (txFlush p true (fun _ => true) (linkDown p s))
  calLoad p (portOff p (onWayp p (fun w => { w with tsq := [] }) s1))

/-- `ICP_PORT_CONFIG`. -/
def execIcpPortConfig (c : CmdRef) (a : PortConfigArgs) (s : State) : Out :=
  icpDo c 0x600
    (fun s => [
      (a.rsv || (portArg a.port).isNone || decide (3 < a.mode.toNat) || (a.fec && a.mode != 1#8) || (a.an && a.mode != 3#8), stBadArg),
      (a.setMac && (a.mac.getLsbD 40 || a.mac == 0#48), stBadArg), (a.maxFrame == 0#16, stBadArg),
      (outside a.maxFrame.toNat 1518 9600 || decide (10000 < a.linkHold.toNat), stRange)] ++
      (portArg a.port).elim [] fun p => portChecks s p a)
    (fun s => match portArg a.port with
      | none => s
      | some p =>
        let s1 := if modeChange s p a then portMode p a.mode.toNat a.fec s else s
        txTooLong p (onPort p (fun q => { q with
          an := a.an, maxFrame := a.maxFrame.toNat, linkHold := a.linkHold.toNat, mac := if a.setMac then a.mac else q.mac }) s1))
    (fun _ => []) s

/-- `ICP_PORT_STATUS`: PORT_p_HIST as zero. -/
def execIcpPortStatus (c : CmdRef) (port : BitVec 8) (rsv : Bool) (s : State) : Out :=
  icpDo c 0x601 (fun _ => [(rsv || (portArg port).isNone, stBadArg)]) id
    (fun s => viewBytes roPort s c.slot (regRun (0x80100 + 0x80 * port.toNat) 10) ++ zeros 8) s

/-- `ICP_PORT_PAUSE_CONFIG`: it also ends a watchdog trip (11 R238). -/
def execIcpPortPauseConfig (c : CmdRef) (a : PauseArgs) (s : State) : Out :=
  icpDo c 0x602
    (fun _ => [(a.rsv || (portArg a.port).isNone || decide (2 < a.scope.toNat) || a.wd == 0#16 || a.xoff == 0#8, stBadArg),
      (decide (1000 < a.wd.toNat) || decide (64 < a.xoff.toNat) || decide (a.xoff.toNat < a.xon.toNat + 8), stRange)])
    (fun s => match portArg a.port with
      | none => s
      | some p => txStart p (xoffCheck p (portConds (onPort p (fun q => { q with
          pauseScope := a.scope.toNat, txPause := a.txPause, pauseWd := a.wd.toNat, xoff := a.xoff.toNat, xon := a.xon.toNat
          wdTripped := false, xoffSent := q.xoffSent && a.txPause }) s))))
    (fun _ => []) s

/-- A code of the table "ESMC QL to rank" (04). -/
def esmcCodes (ssm essm : Nat) : Bool :=
  ssm == 0xF || ((ssm == 2 || ssm == 4 || ssm == 8 || ssm == 0xB) && (within essm 0x20 0x23 || essm == 0xFF))

/-- `ICP_PORT_ESMC_CONFIG`: a change of the transmitted QL leaves an event PDU due. -/
def execIcpPortEsmcConfig (c : CmdRef) (a : EsmcArgs) (s : State) : Out :=
  icpDo c 0x603
    (fun _ => [(a.rsv || (portArg a.port).isNone || decide (15 < a.ssm.toNat) || (a.qlMode && !esmcCodes a.ssm.toNat a.essm.toNat), stBadArg)])
    (fun s => match portArg a.port with
      | none => s
      | some p => onPort p (fun q =>
          let n := { q with esmcEn := a.en, txQlMode := a.qlMode, extTlv := a.ext, txSsm := a.ssm.toNat, txEssm := a.essm.toNat }
          { n with esmcEventDue := a.en && (q.esmcEventDue || (q.esmcEn && esmcFrame n true != esmcFrame q true)) }) s)
    (fun _ => []) s

/-- A power of two. -/
def isPow2 (n : Nat) : Bool := n != 0 && 2 ^ Nat.log2 n == n

/-- A slot holds a listening address on a port. -/
def hasAddr (s : State) (i : Fin 8) (port : BitVec 8) : Bool :=
  (s.serv.slots[i].addrs.toList.filterMap id).any fun x => decide (port.toNat < 4) && x.ports.getLsbD port.toNat

/-- A slot's transmit ring on a port ends: its pending descriptors complete with FLUSHED and its two-step entries are freed
(11 R247, 12 R262). -/
def txRingEnd (p : Fin 4) (i : Fin 8) (s : State) : State :=
  txStart p (onPort p (fun q => { q with txRing := upd q.txRing i fun _ => none }) (tsqFree p i (txFlush p false (· == i) s)))

/-- `ICP_PORT_RING_CONFIG`. -/
def execIcpPortRingConfig (c : CmdRef) (a : RingArgs) (s : State) : Out :=
  let rx := a.dir == 1#8
  icpDo c 0x604
    (fun s => [(decide (3 < a.port.toNat), stBadArg),
      (cmdRole c s == .operator && !hasAddr s c.slot a.port, stDenied),
      (a.rsv || decide (1 < a.dir.toNat) || decide (1 < a.enable.toNat) || (pfOf s c.slot).isNone || a.count == 0#16 ||
        (rx && a.bufKiB == 0#16), stBadArg),
      (outside a.count.toNat 16 4096 || !isPow2 a.count.toNat || (rx && outside a.bufKiB.toNat 2 10), stRange),
      (rx && (portArg a.port).elim false fun p => decide (a.bufKiB.toNat * 1024 < s.port.p[p].maxFrame), stOrder)])
    (fun s => match portArg a.port with
      | none => s
      | some p =>
        let on := a.enable == 1#8
        let n := a.count.toNat
        let r : RxRing := { count := n, bufKiB := a.bufKiB.toNat, base := a.base, wb := a.wb }
        let t : TxRing := { count := n, base := a.base, wb := a.wb }
        if rx then onPort p (fun q => { q with rxRing := upd q.rxRing c.slot fun _ => if on then some r else none }) s
        else onPort p (fun q => { q with txRing := upd q.txRing c.slot fun _ => if on then some t else none }) (txRingEnd p c.slot s))
    (fun _ => []) s

end Sys2Proof.Machine
end

