-- ==== Sys2Proof/Machine/Mailbox.lean ====
section
/-!
DEFINITION. The host interface of chapter 18: the MBOX registers of a slot, the mailbox engine that takes requests from the
rings, moderation, host sleep, loss and return of an endpoint, and `ICP_HELLO`.
-/
namespace Sys2Proof.Machine
open Sys2Proof

/-- Updates a slot's mailbox. -/
def onMbox (i : Fin 8) (f : MboxSlot → MboxSlot) (s : State) : State :=
  { s with host := { s.host with mbox := upd s.host.mbox i f } }

/-- A framing or ring error of a slot: REQ_ERR and MBOX_EVT (18 R397, R401, R409, R413). -/
def reqErr (i : Fin 8) (s : State) : State := raiseTo i (225 + 2 * i.1) (stickyAt i.1 0x20004 2#32 s)

/-! ## Registers (18 R413) -/

/-- Register fields of a slot's mailbox. -/
def roMboxAt (s : State) (i : Fin 8) (o : Nat) : Word :=
  let m := s.host.mbox[i]
  let pcie := (pfOf s i).isSome
  let only (w : Word) : Word := if pcie then w else 0#32
  if 0x1000 ≤ o && o < 0x2000 then (if pcie then 0#32 else w32 (leVal (mgets 0#8 o 4 m.win)))
  else match o with
    | 0x00 => pack [(0, bit m.lk), (1, bit m.en)]
    | 0x04 => pack [(0, 1), (8, m.active.length), (16, satU 8 m.held.length)]
    | 0x08 => pack [(0, m.major)]
    | 0x10 => only m.reqBaseLo
    | 0x14 => only m.reqBaseHi
    | 0x18 => w32 (if pcie then m.reqSize else 5)
    | 0x1C => m.reqPi
    | 0x20 => m.reqCi
    | 0x30 => only m.cplBaseLo
    | 0x34 => only m.cplBaseHi
    | 0x38 => w32 (if pcie then m.cplSize else 5)
    | 0x3C => m.cplPi
    | 0x40 => m.cplCi
    | 0x48 => only m.wbLo
    | 0x4C => only m.wbHi
    | 0x50 => pack [(0, m.modUs), (16, m.modCnt)]
    | 0x54 => pack [(0, bit m.sleepReq), (1, bit m.sleepAck), (2, bit m.wake)]
    | 0x58 => w32 m.lostCpl
    | _ => 0#32

/-- Register fields of the MBOX block as a reader sees them: its own slot's copy, zero until the engine runs. -/
def roMbox (s : State) (rd o : Nat) : Word :=
  match fin? 8 rd with
  | some i => if s.host.ready then roMboxAt s i o else 0#32
  | none => 0#32

/-- The value a write gives a register: the word itself at its own address, or the bits its alias acts on (19 R417). -/
def aliasVal (al : Nat) (old v : Word) : Word :=
  match al with
  | 0 => v
  | 1 => old ||| v
  | 2 => old &&& ~~~v
  | _ => old ^^^ v

/-- A write covers a field of these bits (19 R419). -/
def covers (al : Nat) (v mask : Word) : Bool := al == 0 || v &&& mask != 0#32

/-- The LK registers of a mailbox with the bits of their field. -/
def mboxLk (o : Nat) : Option Word :=
  match o with
  | 0x10 | 0x30 => some 0xFFFFF000#32
  | 0x14 | 0x34 | 0x4C => some 0xFFFFFFFF#32
  | 0x18 | 0x38 => some 0xF#32
  | 0x48 => some 0xFFFFFFF8#32
  | _ => none

/-- A ring size field takes the values 6 to 14. -/
def ringK (old : Nat) (v : Word) : Nat := if 6 ≤ v.toNat % 16 && v.toNat % 16 ≤ 14 then v.toNat % 16 else old

/-- Stores an LK register of a PCIe slot's mailbox. -/
def mboxStore (o : Nat) (v : Word) (m : MboxSlot) : MboxSlot :=
  match o with
  | 0x10 => { m with reqBaseLo := v &&& 0xFFFFF000#32 }
  | 0x14 => { m with reqBaseHi := v }
  | 0x18 => { m with reqSize := ringK m.reqSize v }
  | 0x30 => { m with cplBaseLo := v &&& 0xFFFFF000#32 }
  | 0x34 => { m with cplBaseHi := v }
  | 0x38 => { m with cplSize := ringK m.cplSize v }
  | 0x48 => { m with wbLo := v &&& 0xFFFFFFF8#32 }
  | 0x4C => { m with wbHi := v }
  | _ => m

/-- Sets EN: the indices restart at 0; a lost slot returns with major 1 and a true condition signals at once (18 R412). -/
def mboxStart (i : Fin 8) (s : State) : State :=
  let m := s.host.mbox[i]
  let s1 := onMbox i (fun m => { m with
    en := true, lost := false, major := if m.lost then 1 else m.major, reqPi := 0#32, reqCi := 0#32, cplPi := 0#32, cplCi := 0#32 }) s
  if m.lost then icuAgain i s1 else flushHeld i s1

/-- A write of MBOX_CTRL: LK is only ever set, EN follows the value written (18 R413, 19 R418). -/
def mboxCtrl (i : Fin 8) (v : Word) (s : State) : State :=
  let s1 := onMbox i (fun m => { m with lk := m.lk || v.getLsbD 0 }) s
  if v.getLsbD 1 then (if s.host.mbox[i].en then s1 else mboxStart i s1)
  else onMbox i (fun m => { m with en := false }) s1

/-- MBOX_SLEEP.REQ is set: a hold ends with its signal and ACK follows (18 R410). -/
def sleepStart (i : Fin 8) (s : State) : State :=
  onMbox i (fun m =>
    let m1 := if m.hold.isSome && m.cond then m.signal (pfOf s i).isSome else { m with hold := none }
    if m.sleepReq then m else { m1 with sleepReq := true, sleepAck := true }) s

/-- MBOX_SLEEP.REQ is cleared: ACK, WAKE and the hold on WAKE_N go, and a true condition signals at once (18 R410). -/
def sleepEnd (i : Fin 8) (s : State) : State :=
  if s.host.mbox[i].sleepReq then
    icuAgain i (onMbox i (fun m => { m with sleepReq := false, sleepAck := false, wake := false, wakePin := false }) s)
  else s

/-- A decided write of a slot's mailbox register: `al` is the alias it came through. -/
def mboxWrite (i : Fin 8) (o al : Nat) (v : Word) (s : State) : State :=
  if !s.host.ready then s
  else
    let pcie := (pfOf s i).isSome
    let old := roMboxAt s i o
    let new := aliasVal al old v
    match mboxLk o with
    | some mask =>
      if !pcie && o != 0x18 && o != 0x38 then s
      else
        let m := s.host.mbox[i]
        let viol := m.lk && covers al v mask
        let s1 := if viol then lockViol i.1 (0x20000 + o + 0x4000 * al) false s else s
        if m.en then reqErr i s1 else if m.lk || !pcie then s1 else onMbox i (mboxStore o new) s1
    | none =>
      match o with
      | 0x00 => mboxCtrl i new s
      | 0x1C => onMbox i (fun m => { m with reqPi := new }) s
      | 0x40 => cairnGapEnd (flushHeld i (onMbox i (fun m => { m with cplCi := new }) s))
      | 0x50 => onMbox i (fun m => { m with modUs := bits new.toNat 15 0, modCnt := bits new.toNat 23 16 }) s
      | 0x54 => if new.getLsbD 0 then sleepStart i s else sleepEnd i s
      | _ =>
        if 0x1000 ≤ o && o < 0x1800 && !pcie then onMbox i (fun m => { m with win := mputs 0#8 o (le 4 new.toNat) m.win }) s
        else s

/-- A write of a mailbox register by its slot at the register's own address. -/
def mboxBy (i : Fin 8) (o : Nat) (v : Word) (s : State) : State :=
  writeBy ⟨i.1, by omega⟩ (0x20000 + o) (mboxWrite i o 0 v) s

/-- REQUEST_PI_WRITE (18 R400). -/
def execRequestPiWrite (slot : Fin 8) (val : Word) (s : State) : Out := .next (mboxBy slot 0x1C val s)

/-- COMPLETION_CI_WRITE (18 R400, R408): the space it frees lets held completions and records go out. -/
def execCompletionCiWrite (slot : Fin 8) (val : Word) (s : State) : Out := .next (mboxBy slot 0x40 val s)

/-- MBOX_ENABLE (18 R412). -/
def execMboxEnable (slot : Fin 8) (val : Word) (s : State) : Out := .next (mboxBy slot 0 val s)

/-- SLEEP_SET (18 R410). -/
def execSleepSet (slot : Fin 8) (s : State) : Out := .next (mboxBy slot 0x54 1#32 s)

/-- SLEEP_CLEAR (18 R410). -/
def execSleepClear (slot : Fin 8) (s : State) : Out := .next (mboxBy slot 0x54 0#32 s)

/-- MOD_US has passed since the rise; while PD_TIME is gated no Odometer measures it, and the event tells it (log 197). -/
def holdOver (s : State) (m : MboxSlot) : Bool :=
  m.hold.isSome && (!timeUp s || decide (m.holdAt + cdiv (m.modUs * 3125) 4 ≤ s.time.odo))

/-- MODERATION_TIMEOUT: MOD_US has passed since the rise (18 R409). -/
def execModerationTimeout (slot : Fin 8) (off : BitVec 16) (s0 : State) : Out :=
  let s := atOdo off s0
  .next (onMbox slot (fun m => if holdOver s m then m.signal (pfOf s slot).isSome else m) s)

/-! ## The mailbox engine (18 R400-R408) -/

/-- The engine may take a request of a slot: it runs and has left BOOT, the rings are enabled, no completion is held and
fewer than 16 commands are in progress (18 R407, R408, 02 R44). -/
def mayTakeReq (s : State) (i : Fin 8) : Bool :=
  let m := s.host.mbox[i]
  s.host.ready && s.sys.mode != .boot && m.en && !m.lost && s.slots.s[i].bind.isSome && !m.held.any (!·.unsol) &&
    decide (m.active.length < 16) && m.reqPi != m.reqCi

/-- The engine's turn is a slot's: no slot before it in the round may have a request taken (18 R407). -/
def hasTurn (s : State) (i : Fin 8) : Bool :=
  let turn (j : Fin 8) : Nat := (j.1 + 8 - s.host.nextSlot) % 8
  !(List.finRange 8).any fun j => mayTakeReq s j && decide (turn j < turn i)

/-- A request header of 16 bytes (18 R402). -/
def hdrOf (l : List Byte) : ReqHdr :=
  let half (o : Nat) : BitVec 16 := BitVec.ofNat 16 (leVal ((l.drop o).take 2))
  { major := l.getD 0 0#8, minor := l.getD 1 0#8, op := half 2, tag := half 4, len := half 6, flags := half 10,
    rsv := half 8 != 0#16 || (l.drop 12).any (· != 0#8) }

/-- The header of the message at REQ_CI: in the slot's ring window, or as the engine reads it in host memory (18 R399). -/
def hdrAt (s : State) (i : Fin 8) (hdr : ReqHdr) : ReqHdr :=
  if (pfOf s i).isSome then hdr
  else hdrOf (mgets 0#8 (0x1000 + s.host.mbox[i].reqCi.toNat % 32 * 64) 16 s.host.mbox[i].win)

/-- Elements between CI and PI. -/
def MboxSlot.waitingReqs (m : MboxSlot) : Nat := (m.reqPi - m.reqCi).toNat

/-- The framing checks before role and mode (18 R404 steps 1 to 4). -/
def reqChecks (s : State) (i : Fin 8) (h : ReqHdr) : Nat :=
  firstFail
    [(h.rsv || h.flags.getLsbD 0 || bits h.flags.toNat 15 3 != 0, stBadArg),
     (h.major.toNat != s.host.mbox[i].major && h.op != 0x100#16, stVersion),
     (h.tag == 0#16, stBadArg),
     (s.host.mbox[i].active.any (·.tag == h.tag), stStaleSeq),
     ((opRow h.op.toNat).isNone, stBadArg)]

/-- A request that fails a check completes header-only (18 R403). -/
def reqFail (i : Fin 8) (h : ReqHdr) (st : Nat) (s : State) : State :=
  deliver i { op := h.op.toNat, tag := h.tag, status := st } s

/-- Checks a taken request in order and starts its command (18 R404). -/
def reqStart (i : Fin 8) (h : ReqHdr) (s : State) : State :=
  if reqChecks s i h != stOk then reqFail i h (reqChecks s i h) s
  else
    match roleMode i h.op.toNat s with
    | some (st, d) => reqFail i h st (if d then deny i 5 h.op.toNat s else s)
    | none =>
      if (opRow h.op.toNat).elim false fun r => r.len.ok h.minor.toNat h.len.toNat then
        onMbox i (fun m => { m with active := m.active ++ [{ tag := h.tag, op := h.op.toNat, role := roleOf s i, minor := h.minor.toNat }] }) s
      else reqFail i h stBadLen s

/-- Takes the message at REQ_CI: a PAD is skipped, one the ring cannot hold is a framing error, one not yet complete below
PI waits. Either way the turn passes on (18 R399-R401, R407). -/
def reqTake (i : Fin 8) (h : ReqHdr) (s : State) : State :=
  let m := s.host.mbox[i]
  let size := ringSize s i m.reqSize
  let n := cdiv (16 + h.len.toNat) 64
  let turn : State := { s with host := { s.host with nextSlot := (i.1 + 1) % 8 } }
  let ci (k : Nat) : State :=
    let c := m.reqCi + w32 k
    onMbox i (fun m => { m with reqCi := c, wb := if (pfOf s i).isSome && canWrite s i then (c, m.cplPi) else m.wb }) turn
  if h.flags.getLsbD 2 then ci (min (size - m.reqCi.toNat % size) m.waitingReqs)
  else if size < n then reqErr i (reqFail i h stBadLen (ci m.waitingReqs))
  else if m.waitingReqs < n then turn
  else reqStart i h (ci n)

/-- COMMAND_DISPATCH: the engine takes the next request of the slot whose turn it is, with the header it finds; `hdr` is what
host memory holds, for a PCIe slot (18 R407). -/
def execCommandDispatch (slot : Fin 8) (hdr : ReqHdr) (s : State) : Out :=
  .next (if mayTakeReq s slot && hasTurn s slot then reqTake slot (hdrAt s slot hdr) s else s)

/-- ICP_HELLO (18 R405). -/
def execIcpHello (c : CmdRef) (majors : Word) (s : State) : Out :=
  icp c 0x100 (fun s =>
    let m := s.host.mbox[c.slot]
    let largest := min (min (ringSize s c.slot m.reqSize) (ringSize s c.slot m.cplSize) * 64) 0xFFFF
    let resp (major : Nat) : List Byte := le 1 major ++ zeros 3 ++ le 4 2 ++ le 2 largest ++ [16#8, 0#8]
    if majors = 0#32 then .done stBadArg [] s
    else if majors.getLsbD 1 then .done stOk (resp 1) (onMbox c.slot (fun m => { m with major := 1 }) s)
    else .done stVersion (resp 0) s) s

/-! ## Loss and return (18 R411, 02 R45) -/

/-- A slot's mailbox at a loss: what is held is discarded and counted, the rings stop (18 R411). -/
def MboxSlot.lose (m : MboxSlot) : MboxSlot :=
  { m with held := [], lostCpl := satU 32 (m.lostCpl + m.held.length), en := false, lost := true, hold := none }

/-- A slot loses its endpoint. -/
def slotLose (i : Fin 8) (s : State) : State :=
  let s1 := (List.finRange 4).foldl (fun s p => txStart p (tsqFree p i (txDrop p i s))) s
  stickyAt i.1 0x20004 4#32 (onMbox i MboxSlot.lose s1)

/-- The functions an event takes down. -/
def lossHits (k : LossKind) (f : Fin 8) : Bool :=
  match k with
  | .flr g => f == g
  | _ => true

/-- The slots an event loses: those bound to a function it takes down and not lost already; PERST_N in BOOT loses none. -/
def lossSlots (k : LossKind) (s : State) : List (Fin 8) :=
  if !s.host.ready || (k == .perst && s.sys.mode == .boot) then []
  else (List.finRange 8).filter fun i => !s.host.mbox[i].lost && (pfOf s i).elim false (lossHits k)

/-- SLOT_LOSS (18 R411, 02 R37, R45): the functions return to their reset state, every slot bound to one is lost, and
PCIE_LINK latches when one is. -/
def execSlotLoss (k : LossKind) (s : State) : Out :=
  let s1 : State := { s with host := { s.host with
    pf := updAll s.host.pf fun f p => if lossHits k f then { p with busMaster := false, d0 := true } else p
    pcieUp := match k with | .flr _ => s.host.pcieUp | _ => false
    perst := s.host.perst || k == .perst } }
  let l := lossSlots k s
  let s2 := l.foldl (fun s i => slotLose i s) s1
  .next (if l.isEmpty then s2 else faultEvent 52 s2)

/-- PCIE_CONFIG_WRITE: the host writes a function's command and power-management registers; what was held while it could
not write host memory goes out (18 R395, R408). A function that answers has its link up; under PERST_N none answers. -/
def execPcieConfigWrite (pf : Fin 8) (busMaster d0 pmeEn l2 : Bool) (s : State) : Out :=
  let s1 : State := { s with host := { s.host with
    pcieUp := true
    pf := upd s.host.pf pf fun p => { p with busMaster := busMaster, d0 := d0, pmeEn := pmeEn, l2 := l2 } } }
  .next (if s.host.perst then s
    else (List.finRange 8).foldl (fun s i => if pfOf s i == some pf then flushHeld i s else s) s1)

/-- PERST_N_RELEASE: the link trains again (18 R395). -/
def execPerstNRelease (s : State) : Out := .next { s with host := { s.host with perst := false, pcieUp := true } }

end Sys2Proof.Machine
end

