-- ==== Sys2Proof/Machine/Regs.lean ====
section
/-!
DEFINITION. The register accesses of chapters 19 and 20: what each block reads as, aliases and locks, reports and their
acknowledges, the indirect window, the interrupt controller's claim protocol, and the host SPI and SMBus transactions.
-/
namespace Sys2Proof.Machine
open Sys2Proof

/-! ## SYS, FAULT, PERF and IND blocks (20 R437-R442) -/

/-- SYS_ID. -/
def sysId : Word := 0x00B04825#32

/-- SYS_MODE (20 R437, R438). -/
def sysMode (s : State) : Word :=
  if !s.aon.locked then 0#32
  else pack [(0, modeCode s.sys.mode), (4, modeCode s.sys.prev), (8, s.sys.cause), (16, bit (leaseHeld s)), (17, bit (pertArmed s)),
    (18, bit s.pert.live), (19, bit s.aon.provN)]

/-- Fields of the SYS block that are not sticky. -/
def roSys (s : State) (rd o : Nat) : Word :=
  match o with
  | 0x00 => lkWord s 0
  | 0x04 => sysId
  | 0x08 => sysMode s
  | 0x0C => w32 s.sys.secs
  | 0x14 => pack [(0, twos 16 s.sys.temp), (16, bit s.sys.warn)]
  | 0x20 => Config.uid.extractLsb' 0 32
  | 0x24 => Config.uid.extractLsb' 32 32
  | 0x40 => (fin? 8 rd).elim 0#32 fun i =>
      pack [(0, i.1), (4, roleCode (roleOf s i)), (8, s.slots.s[i].bind.elim 0 fun b => b.1)]
  | 0x44 => (fin? 8 rd).elim 0#32 fun i => w32 s.slots.s[i].deny
  | 0x48 => (fin? 8 rd).elim 0#32 fun i => pack [(0, s.slots.s[i].denyWhere), (20, s.slots.s[i].denyKind)]
  | _ => roVault s o

/-- FAULT_TRAIL_STAT without its sticky fields (21 R449). -/
def trailStat (s : State) : Word :=
  pack [(0, s.trail.firstFill / 8), (12, bit s.trail.firstFull), (13, bit s.trail.flushing), (15, bit s.trail.flogFull)]

/-- Fields of the FAULT block that are not sticky (21 R449). -/
def roFault (s : State) (_rd o : Nat) : Word :=
  match o with
  | 0x00 => lkWord s 13
  | 0x0C => (raw s).extractLsb' 0 32
  | 0x10 => (raw s).extractLsb' 32 32
  | 0x24 => s.fault.inj.extractLsb' 0 32
  | 0x28 => s.fault.inj.extractLsb' 32 32
  | 0x40 => trailStat s
  | _ =>
    match group? o 0x14 4 4 with
    | some (m, _) => pack ((List.finRange 16).map fun j => (2 * j.1, s.fault.sev[16 * m.1 + j.1]'(by omega)))
    | none => 0#32

/-- Programmable counters bound. -/
def boundCount (s : State) : Nat := (s.perf.bound.toList.filter (·.isSome)).length

/-- The value of counter `n` as a reader sees it: an Operator its slot's tally, the others the device total (22 R459). -/
def cntValue (s : State) (rd n : Nat) : Nat :=
  match fin? 8 rd with
  | some i => if roleOf s i == .operator then mget 0 (n * 9 + 1 + i.1) s.perf.cnt else cntTotal s n
  | none => cntTotal s n

/-- PERF_DUMP_CFG. -/
def dumpCfg (s : State) : Word := pack [(0, s.perf.dumpFirst), (10, s.perf.dumpLast), (20, s.perf.dumpPeriod)]

/-- Fields of the PERF block that are not sticky (20 R442, 22 R459). -/
def roPerf (s : State) (rd o : Nat) : Word :=
  match cntIndex o with
  | some n =>
    if o % 8 = 0 then w32 (cntValue s rd n)
    else w32 (cntValue s rd n / 2 ^ 32)
  | none =>
    match o with
    | 0x00 => lkWord s 14
    | 0x04 => pack [(0, bit (s.perf.dumpPeriod != 0)), (1, bit s.perf.lastBuf), (8, boundCount s), (16, low 16 s.perf.dumpSeq)]
    | 0x10 => s.perf.acl
    | 0x20 => dumpCfg s
    | 0x24 => s.perf.dumpBase.extractLsb' 0 32
    | 0x28 => s.perf.dumpBase.extractLsb' 32 32
    | _ => 0#32

/-- Fields of the IND block (19 R424, 20 IND_STAT). -/
def roInd (s : State) (rd o : Nat) : Word :=
  (fin? 9 rd).elim 0#32 fun i =>
    match o with
    | 0x00 => s.regs.indAddr[i] ||| pack [(31, bit s.regs.indInc[i])]
    | 0x08 =>
      let code := regionOf s.regs.indAddr[i].toNat
      pack [(0, code), (3, bit (regionUp s code))]
    | _ => 0#32

/-! ## The interrupt controller (19 R428-R433) -/

/-- The value a claim of a target returns (19 R431). -/
def claimValue (t : IcuTarget) : Nat :=
  match lowest t.live with
  | some n => n
  | none => if t.pend ≠ 0#256 || t.sigSince then 255 else 0

/-- Fields of the ICU block: the reader's own target (19 R433). -/
def roIcu (s : State) (rd o : Nat) : Word :=
  match fin? 9 rd with
  | none => 0#32
  | some i =>
    let t := s.icu.t[i]
    match group? o 0x100 4 8 with
    | some (k, _) => t.pend.extractLsb' (32 * k.1) 32
    | none =>
      match group? o 0x120 4 8 with
      | some (k, _) => t.en.extractLsb' (32 * k.1) 32
      | none =>
        match group? o 0x140 4 8 with
        | some (k, _) => t.insvc.extractLsb' (32 * k.1) 32
        | none =>
          match o with
          | 0x00 => lkWord s 1
          | 0x04 => pack [(0, bit (decide (t.live ≠ 0#256))), (1, bit t.sigSince), (8, ones t.insvc), (16, ones t.pend)]
          | 0x10 => w32 (claimValue t)
          | _ => 0#32

/-- Updates a target. -/
def onTarget (i : Fin 9) (f : IcuTarget → IcuTarget) (s : State) : State := { s with icu := { s.icu with t := upd s.icu.t i f } }

/-- A claim: the source returned leaves PEND for INSVC, and SIG_SINCE clears (19 R431). -/
def icuClaim (rd : Fin 9) (s : State) : Word × State :=
  let v := claimValue s.icu.t[rd]
  let b := 1#256 <<< v
  (w32 v, icuEval (onTarget rd (fun t =>
    let t1 := if t.live ≠ 0#256 then { t with pend := t.pend &&& ~~~b, insvc := t.insvc ||| b } else t
    { t1 with sigSince := false }) s))

/-- A target whose condition stays true after a complete signals again, unless a moderation hold is running (18 R409). -/
def icuResend (rd : Fin 9) (s : State) : State :=
  match fin? 8 rd.1 with
  | some i => if s.host.mbox[i].cond && s.host.mbox[i].hold.isNone then icuAgain i s else icuEval s
  | none =>
    let s1 := icuEval s
    if s.icu.mgmtCond && s1.icu.mgmtCond then onTarget rd (fun t => { t with sigSince := true }) s1 else s1

/-- A complete (19 R432). -/
def icuDone (rd : Fin 9) (v : Word) (s : State) : State :=
  let n := low 8 v.toNat
  if n = 0 || n = 255 then s
  else if s.icu.t[rd].insvc.getLsbD n then icuResend rd (onTarget rd (fun t => { t with insvc := t.insvc &&& ~~~(1#256 <<< n) }) s)
  else stickyAt rd.1 0x10004 4#32 s

/-- The word `k` of a 256-bit set. -/
def word256 (k : Nat) (v : Word) : BitVec 256 := v.setWidth 256 <<< (32 * k)

/-- Raises sources in a reader's own target (19 R429). -/
def pendSetOwn (rd : Fin 9) (k : Nat) (v : Word) (s : State) : State :=
  icuEval (onTarget rd (fun t => { t with pend := t.pend ||| (word256 k v &&& sourceMask s rd) }) s)

/-- Withdraws sources of a reader's own target (19 R429). -/
def pendClearOwn (rd : Fin 9) (k : Nat) (v : Word) (s : State) : State :=
  icuEval (onTarget rd (fun t => { t with pend := t.pend &&& ~~~(word256 k v) }) s)

/-- A decided write of an ICU register (19 R429, R432). -/
def icuWrite (rd : Fin 9) (o al : Nat) (v : Word) (s : State) : State :=
  match group? o 0x100 4 8 with
  | some (k, _) => if al = 1 then pendSetOwn rd k.1 v s else if al = 2 then pendClearOwn rd k.1 v s else s
  | none =>
    match group? o 0x120 4 8 with
    | some (k, _) =>
      let old := s.icu.t[rd].en.extractLsb' (32 * k.1) 32
      let new := word256 k.1 (aliasVal al old v) &&& sourceMask s rd
      icuEval (onTarget rd (fun t => { t with en := (t.en &&& ~~~(word256 k.1 0xFFFFFFFF#32)) ||| new }) s)
    | none => if o = 0xC && al ≤ 1 then icuDone rd v s else s

/-! ## Reports and acknowledges (19 R421, R422) -/

/-- Registers of the window that hold sticky fields. -/
def stickyReg (a : Nat) : Bool :=
  perSlotReg a || a == 0x00080 || a == 0x30004 || a == 0x30090 || a == 0x50004 || a == 0x60004 || a == 0x70004 || a == 0x70104 ||
  a == 0x70120 || a == 0x70130 || a == 0xA0010 || a == 0xD002C || a == 0xD0030 || a == 0xD0040 || a == 0xE0004 ||
  (inGroup a 0x50100 0x40 16 == some 0x18) || (inGroup a 0x60100 0x20 8 == some 0x18)

/-- Sticky registers whose high half is a count (19 R422). -/
def stickyCnt (r : Nat) : Bool :=
  r == 0xD0040 || (inGroup r 0x50100 0x40 16 == some 0x18) || (inGroup r 0x60100 0x20 8 == some 0x18)

/-- The multi-bit cause fields of a sticky register, as masks (19 R422). -/
def stickyCauses (r : Nat) : List Word :=
  if r == 0x00010 then [0xFF00#32]
  else if 0x40300 ≤ r && r < 0x40330 then [0xFF00#32, 0xFF0000#32, 0xFF000000#32]
  else if r == 0x40340 then [0xFF0000#32]
  else if r == 0xC0080 then [0xF00#32]
  else if (inGroup r 0x90100 0x40 4).elim false (· == 0x28) then [0xFFFF#32, 0xFFFF0000#32]
  else if r == 0xA0010 then [0x3FF0000#32]
  else []

/-- What stays of a sticky word after the acknowledge of a report that returned `value`, with the bits hardware has
written `again` since (19 R422). -/
def ackValue (r : Nat) (cur value again : Word) : Word :=
  let causes := stickyCauses r
  let multi := (causes.foldl (· ||| ·) 0#32) ||| (if stickyCnt r then 0xFFFF0000#32 else 0#32)
  let oneBit := cur &&& ~~~(value &&& ~~~again) &&& ~~~multi
  let kept := causes.foldl (fun a m => if again &&& m == 0#32 then a else a ||| (cur &&& m)) 0#32
  let n := bits cur.toNat 31 16
  let count := if !stickyCnt r then 0#32
    else w32 ((if n = 0xFFFF then n else n - bits value.toNat 31 16) * 2 ^ 16)
  oneBit ||| kept ||| count

/-- The channel whose CH_STAT a report key names. -/
def chanOfKey (r : Nat) : Option (Fin 128) :=
  if 2 ^ 20 + 0x100000 ≤ r && (r - 2 ^ 20) % 0x200 = 4 then fin? 128 ((r - 2 ^ 20 - 0x100000) / 0x200) else none

/-- Sticky flags of a channel, at their places in CH_STAT. -/
def chanSticky (c : GnssCh) : Word := pack [(2, bit c.rateClamp), (3, bit c.adjErr), (4, bit c.cfgErr)]

/-- Clears the flags of a channel that a word names. -/
def GnssCh.clearFlags (v : Word) (c : GnssCh) : GnssCh :=
  { c with rateClamp := c.rateClamp && !v.getLsbD 2, adjErr := c.adjErr && !v.getLsbD 3, cfgErr := c.cfgErr && !v.getLsbD 4 }

/-- Marks what hardware has set again in a channel into the reports held on it. -/
def chanAgain (n : Fin 128) (r : Nat) (s : State) : State :=
  { onChan n (fun c => { c with again := 0#3 }) s with
    regs := { s.regs with reports := againReports (fun _ => true) r (s.gnss.chans[n].again.setWidth 32 <<< 2) s.regs.reports } }

/-- The port whose WAYP_p_TSQ_LOST a register is. -/
def lostPort (r : Nat) : Option (Fin 4) := (List.finRange 4).find? fun p => r == 0x90128 + 0x40 * p.1

/-- With the lost identifiers the acknowledge clears their count, unless a stamp was discarded since the report (12 R262,
19 R422). -/
def stickyEnd (i : Fin 8) (r : Nat) (again : Word) (s : State) : State :=
  match lostPort r with
  | some p => if again = 0#32 then onWayp p (fun w => { w with tsqSlot := upd w.tsqSlot i fun t => { t with ovf := 0 } }) s else s
  | none => s

/-- The acknowledge of a held report clears what it returned and voids it (19 R422). -/
def ackReport (q : Report) (s : State) : State :=
  let gone (g : RegsSt) : RegsSt := { g with reports := g.reports.erase q }
  match chanOfKey q.reg with
  | some n =>
    let s1 := chanAgain n q.reg s
    let again := ((s1.regs.reports.find? fun x => x.slot == q.slot && x.blk == q.blk && x.seq == q.seq).map (·.again)).getD 0#32
    { onChan n (GnssCh.clearFlags (q.value &&& ~~~again)) s1 with
      regs := { s1.regs with reports := s1.regs.reports.filter fun x => !(x.slot == q.slot && x.blk == q.blk && x.seq == q.seq) } }
  | none =>
    let k := stickyKey (stickyCopy q.slot.1 q.reg) q.reg
    let s := stickyEnd q.slot q.reg q.again s
    { s with regs := if !mayClear q.slot.1 q.reg then gone s.regs else gone { s.regs with sticky := mset 0#32 k (ackValue q.reg (mget 0#32 k s.regs.sticky) q.value q.again ||| (if q.again = 0#32 then peakNow s q.reg else 0#32)) s.regs.sticky } }

/-- A write of BLK_ACK by a slot (19 R422). -/
def ackWrite (rd : Fin 9) (blk : Nat) (v : Word) (s : State) : State :=
  match s.regs.reports.find? fun q => q.slot.1 == rd.1 && q.blk == blk && q.seq == low 8 v.toNat with
  | some q => ackReport q s
  | none => s

/-- BLK_SEQ of a reader (19 R421). -/
def blkSeq (s : State) (rd b : Nat) : Word :=
  let q := mget {} (rd * 16 + b) s.regs.seqs
  if 8 ≤ rd || q.seq = 0 then 0#32
  else pack [(0, q.seq), (8, bit (s.regs.reports.any fun x => x.slot == q.slot && x.blk == b && x.seq == q.seq)),
    (16, low 12 (q.reg % 2 ^ 16 / 4))]

/-! ## Plain reads -/

/-- The block's register fields as a reader sees them. -/
def roBlock (s : State) (rd b o : Nat) : Word :=
  match b with
  | 0x0 => roSys s rd o
  | 0x1 => roIcu s rd o
  | 0x2 => roMbox s rd o
  | 0x3 => roTime s rd o
  | 0x4 => roSign s rd o
  | 0x5 => roMile s rd o
  | 0x6 => roTdc s rd o
  | 0x7 => roGnss s rd o
  | 0x8 => roPort s rd o
  | 0x9 => roWayp s rd o
  | 0xA => roServ s rd o
  | 0xB => roPtp s rd o
  | 0xC => roFoot s rd o
  | 0xD => roFault s rd o
  | 0xE => roPerf s rd o
  | _ => roInd s rd o

/-- The word at a window offset as a reader sees it, its copy of the sticky fields included. -/
def regView (s : State) (rd a : Nat) : Word :=
  let b := blkOf a
  let o := regOf a
  if o = 0x3FF8 then blkSeq s rd b
  else if 0x3FF8 ≤ o then 0#32
  else roBlock s rd b o ||| stickyOf s rd (b * 0x10000 + o)

/-- The state a meaning answers, if it answers one. -/
def after (o : Out) (s : State) : State :=
  match o with
  | .next t => t
  | _ => s

/-- Registers of the window whose next word holds the rest of one value (01 R18). -/
def firstWord (a : Nat) : Bool :=
  a == 0x00020 || a == 0x00088 || a == 0x30030 || a == 0x30038 || a == 0x30044 || a == 0x30220 || a == 0x30228 || a == 0x30260 ||
  a == 0x30268 || a == 0x70030 || a == 0xB004C || a == 0xB006C || a == 0xC0038 ||
  (inGroup a 0x80100 0x80 4 == some 8) || (inGroup a 0xE1000 8 1024 == some 0)

/-- A permitted read of a register without a meaning of its own: a first word latches the second, which reads as latched once it
has been (01 R18); sticky fields are taken. -/
def plainRead (rd : Fin 9) (a : Nat) (s : State) : Word × State :=
  let r := blkOf a * 0x10000 + regOf a
  let s1 := if firstWord r then shadowSet rd.1 (r + 4) (regView s rd.1 (a + 4)) s else s
  (if firstWord (r - 4) then shadowOr s rd.1 r (regView s rd.1 a) else regView s rd.1 a,
   if stickyReg r then stickyTake rd r s1 else s1)

/-! ## The indirect window (19 R424-R426) -/

/-- AON region registers (20 R441). -/
def roAon (s : State) (o : Nat) : Word :=
  match o with
  | 0x00 => sysId
  | 0x10 => rstCause s
  | 0x14 => pack [(0, s.aon.pwrOn.toNat), (30, bit s.aon.pwrBusy)]
  | 0x18 => w32 s.aon.pcycle
  | 0x1C => w32 s.aon.ophrs
  | 0x20 => pack [(0, s.aon.fatalSource), (7, bit s.aon.fatalValid), (8, modeCode s.aon.fatalMode)]
  | _ => 0#32

/-- PERTURB region registers (22 R465). -/
def roPert (s : State) (o : Nat) : Word :=
  match group? o 0x10 0x10 4 with
  | some (k, 0) => s.pert.k[k].cfg0
  | some (k, 4) => s.pert.k[k].cfg1
  | some (k, 8) => w32 (pertLeft s k)
  | some _ => 0#32
  | none =>
    if o = 0 then pack (((List.finRange 4).map fun k => (k.1, bit s.pert.k[k].armed)) ++ [(4, bit s.pert.live)]) else 0#32

/-- The words of a Tollgate bucket. -/
def bucketWords (x : Bucket) : List Word := [x.tat, pack [(0, x.kodAt.toNat), (12, bit x.kodValid)]]

/-- The words of a grant table entry. -/
def grantWords (s : State) (i : Nat) : List Word :=
  let g := grantGet s i
  let bs := if g.free then zeros 32 else grantBytes g
  (List.range 8).map fun k => w32 (leVal ((bs.drop (4 * k)).take 4))

/-- A word of an entry that its first word latches (19 R426). -/
def latchRead (i : Fin 9) (base n a : Nat) (entry : Nat → List Word) (s : State) : Word × State :=
  let k := (a - base) / (4 * n)
  let w := (a - base) / 4 % n
  if w = 0 then
    ((entry k).headD 0#32, { s with regs := { s.regs with indLatch := s.regs.indLatch.set i.1 (base + 4 * n * k, entry k) } })
  else
    let l := s.regs.indLatch[i]
    (if l.1 = base + 4 * n * k then l.2.getD w 0#32 else (entry k).getD w 0#32, s)

/-- A read of a channel register through the indirect region; its status word is sticky, and the management processor's read
clears it in every mode (09 R198, 19 R420, R421). -/
def chanRegion (rd : Fin 9) (c : Option (Fin 128)) (o r : Nat) (s : State) : Word × State :=
  match c with
  | none => (0#32, s)
  | some n =>
    let x := chanRead rd n o s
    match (if o != 4 || modeNormal s.sys.mode then none else fin? 8 rd.1) with
    | none => if o != 4 then x else (x.1, onChan n (GnssCh.clearFlags 0xFFFFFFFF#32) x.2)
    | some i =>
      let s1 := reportNow i r (chanAgain n r x.2)
      let mark (q : Report) : Report :=
        if q.slot == i && q.blk == 0xF && q.seq == (mget {} (i.1 * 16 + 0xF) s1.regs.seqs).seq then
          { q with value := chanSticky s.gnss.chans[n] } else q
      (x.1, { s1 with regs := { s1.regs with reports := s1.regs.reports.map mark } })

/-- A permitted read of the word at an indirect address, by its region. -/
def regionWord (rd : Fin 9) (a : Nat) (s : State) : Word × State :=
  match regionOf a with
  | 1 =>
    let r := 2 ^ 20 + a
    (roAon s a ||| stickyOf s rd.1 r, if a = 0x14 then stickyTake rd r s else s)
  | 2 => (roPert s (a - 0x10000), s)
  | 3 => chanRegion rd (fin? 128 ((a - 0x100000) / 0x200)) ((a - 0x100000) % 0x200) (2 ^ 20 + a) s
  | 4 => latchRead rd 0x400000 2 a (fun b => bucketWords (bucketAt s b)) s
  | 5 => latchRead rd 0x800000 8 a (grantWords s) s
  | _ => (0#32, s)

/-- ADDR after an access with AUTOINC (19 R424). -/
def indStep (i : Fin 9) (s : State) : State :=
  if s.regs.indInc[i] then
    { s with regs := { s.regs with indAddr := s.regs.indAddr.set i.1 (w32 ((s.regs.indAddr[i].toNat + 4) % 2 ^ 28)) } }
  else s

/-- A permitted read of IND_DATA: the region decides, and ADDR advances whatever comes of it. The management processor may
read every region. -/
def indRead (rd : Fin 9) (s : State) : Word × State :=
  let a := s.regs.indAddr[rd].toNat
  let code := regionOf a
  match (fin? 8 rd.1).filter fun i => !regionRead (roleOf s i) code with
  | some i => (0#32, indStep rd (deny i 3 a s))
  | none =>
    if !regionUp s code then (0#32, indStep rd s)
    else
      let x := regionWord rd a s
      (x.1, indStep rd x.2)

/-- A permitted write of IND_DATA or one of its aliases: every indirect word is read-only from the host slots (19 R424, R426,
20 R441, 22 R464); the management processor writes the channel registers (09 R198). -/
def indWrite (rd : Fin 9) (al : Nat) (v : Word) (s : State) : State :=
  let a := s.regs.indAddr[rd].toNat
  indStep rd (match fin? 8 rd.1 with
    | some i => if regionWrite (roleOf s i) (regionOf a) then s else deny i 4 a s
    | none =>
      if regionOf a = 3 then (fin? 128 ((a - 0x100000) / 0x200)).elim s fun n =>
        let o := (a - 0x100000) % 0x200
        chanWrite n o (aliasVal al (roChan s n o) v) s
      else s)

/-! ## Any read -/

/-- The row a read with a meaning of its own stands for: a read of TIME_NOW_NS, a FIFO head, a claim and the like. -/
def ownRead (rd : Fin 9) (a : Nat) (off : BitVec 16) (s : State) : Option Out :=
  if a = 0x30010 then some (execNowLatchRead rd off s)
  else if a = 0x30020 then some (execOdometerRead rd off s)
  else if a = 0x30094 then some (execSnapshotRead rd s)
  else
    match group? a 0x50100 0x40 16 with
    | some (n, 0x20) => some (execCapturePop rd n s)
    | _ =>
      match group? a 0x60100 0x20 8 with
      | some (n, 0xC) => some (execTdcResultPop rd n s)
      | _ =>
        match group? a 0x90100 0x40 4 with
        | some (p, 0x10) => some (execTsqPop rd p s)
        | some (p, 0x28) => some (execTsqLostRead rd p s)
        | _ => none

/-- A read of a window offset: at an alias it returns zero without effect (19 R417). -/
def regRead (rd : Fin 9) (a : Nat) (off : BitVec 16) (s : State) : State :=
  if aliasOf a ≠ 0 then readBy rd a (fun s => (0#32, s)) s
  else
    let w := a / 4 * 4
    match ownRead rd w off s with
    | some o => after o s
    | none =>
      if w = 0x10008 then readBy rd w (icuClaim rd) s
      else if w = 0xF0004 then readBy rd w (indRead rd) s
      else readBy rd w (plainRead rd w) s

/-! ## Any write -/

/-- LK fields of the device-wide registers, as masks (03 R64; 20 TIME_CAL_UNC; 22 PERF_ACL, PERF_DUMP_CFG). -/
def lkMask (b o : Nat) : Option Word :=
  if b = 3 && within o 0x70 0x80 then some 0xFFFF#32
  else if b = 0xE && (o == 0x10 || o == 0x20) then some 0xFFFFFFFF#32
  else none

/-- Firmware's write of an LK register that is not locked. -/
def lkStore (b o : Nat) (v : Word) (s : State) : State :=
  if b = 3 then
    match fin? 4 ((o - 0x70) / 4) with
    | some p => { s with time := { s.time with calUnc := s.time.calUnc.set p.1 (low 16 v.toNat) } }
    | none => { s with time := { s.time with calUncOut := low 16 v.toNat } }
  else if o = 0x10 then { s with perf := { s.perf with acl := v &&& 0x01FF01FF#32 } }
  else { s with perf := { s.perf with
    dumpFirst := bits v.toNat 9 0, dumpLast := bits v.toNat 19 10, dumpPeriod := bits v.toNat 31 20 } }

/-- A write of an LK register: after the lock it latches LOCK_VIOL where it covers the field (19 R418, R419). -/
def lkWrite (rd : Fin 9) (a b o al : Nat) (v mask : Word) (s : State) : State :=
  if s.regs.lk.getLsbD b then (if covers al v mask then lockViol rd.1 a false s else s)
  else if rd.1 = 8 then lkStore b o (aliasVal al (regView s rd.1 (b * 0x10000 + o)) v) s
  else s

/-- CTRL.LK: only ever set (19 R418). -/
def ctrlWrite (b al : Nat) (v : Word) (s : State) : State :=
  if (aliasVal al (lkWord s b) v).getLsbD 0 then { s with regs := { s.regs with lk := putBit s.regs.lk b true } } else s

/-- Firmware's writes of the TIME registers (03 R53). -/
def timeWrite (o : Nat) (v : Word) (s : State) : State :=
  match o with
  | 0x30 => { s with time := { s.time with incrLo := v } }
  | 0x34 => after (execTimeIncrCommit v s) s
  | 0x38 => { s with time := { s.time with slewLo := v } }
  | 0x3C => after (execTimeSlewCommit v s) s
  | _ => s

/-- A write of IND_ADDR by its slot. -/
def indAddrWrite (rd : Fin 9) (v : Word) (s : State) : State :=
  { s with regs := { s.regs with
    indAddr := s.regs.indAddr.set rd.1 (v &&& 0x0FFFFFFC#32), indInc := s.regs.indInc.set rd.1 (v.getLsbD 31) } }

/-- A permitted write of a window offset, `al` the alias it came through (19 R416-R419). -/
def regStore (rd : Fin 9) (a : Nat) (v : Word) (s : State) : State :=
  let b := blkOf a
  let o := regOf a
  let al := aliasOf a
  let new := aliasVal al (regView s rd.1 (b * 0x10000 + o)) v
  if o = 0x3FFC then (if al ≤ 1 then ackWrite rd b v s else s)
  else
    match lkMask b o with
    | some mask => lkWrite rd a b o al v mask s
    | none =>
      if b = 2 then (fin? 8 rd.1).elim s fun i => mboxWrite i o al v s
      else if b = 0xF then (if o = 0 then indAddrWrite rd new s else if o = 4 then indWrite rd al v s else s)
      else if o = 0 then ctrlWrite b al v s
      else
        match b with
        | 1 => icuWrite rd o al v s
        | 3 => if o = 0x90 then (if new.getLsbD 0 then snapGo 0#16 s else s) else if rd.1 = 8 then timeWrite o new s else s
        | 5 => if rd.1 = 0 then mileWrite o new s else s
        | 6 => if rd.1 = 0 then tdcWrite o new s else s
        | 7 => gnssWrite rd o new s
        | _ => s

/-- A write of a window offset, through an alias or not. -/
def regWrite (rd : Fin 9) (a : Nat) (v : Word) (s : State) : State := writeBy rd a (regStore rd a v) s

/-! ## Rows -/

/-- REGISTER_WRITE: a write with fewer than four bytes enabled has no effect (19 R416). -/
def execRegisterWrite (rd : Fin 9) (addr : BitVec 20) (be : BitVec 4) (val : Word) (s : State) : Out :=
  .next (if be = 0xF#4 then regWrite rd addr.toNat val s else writeBy rd addr.toNat id s)

/-- The offset of a register at one of its aliases. -/
def aliasAt (addr : BitVec 20) (al : Nat) : Nat := blkOf addr.toNat * 0x10000 + al * 0x4000 + regOf addr.toNat

/-- ALIAS_SET_WRITE (19 R417). -/
def execAliasSetWrite (rd : Fin 9) (addr : BitVec 20) (val : Word) (s : State) : Out := .next (regWrite rd (aliasAt addr 1) val s)

/-- ALIAS_CLR_WRITE (19 R417). -/
def execAliasClrWrite (rd : Fin 9) (addr : BitVec 20) (val : Word) (s : State) : Out := .next (regWrite rd (aliasAt addr 2) val s)

/-- ALIAS_TGL_WRITE (19 R417). -/
def execAliasTglWrite (rd : Fin 9) (addr : BitVec 20) (val : Word) (s : State) : Out := .next (regWrite rd (aliasAt addr 3) val s)

/-- LOCK_SET: a write of 1 to a block's CTRL.LK, its other bits zero, by the SET alias (19 R418). -/
def execLockSet (rd : Fin 9) (blk : Fin 16) (s : State) : Out :=
  .next (if blk.1 = 0xF then s else regWrite rd (blk.1 * 0x10000 + 0x4000) 1#32 s)

/-- STICKY_READ (19 R420). -/
def execStickyRead (rd : Fin 9) (addr : BitVec 20) (s : State) : Out := .next (regRead rd addr.toNat 0#16 s)

/-- REPORT_READ (19 R421). -/
def execReportRead (rd : Fin 9) (addr : BitVec 20) (s : State) : Out := .next (regRead rd addr.toNat 0#16 s)

/-- REPORT_ACK (19 R422). -/
def execReportAck (rd : Fin 9) (blk : Fin 16) (val : Word) (s : State) : Out := .next (regWrite rd (blk.1 * 0x10000 + 0x3FFC) val s)

/-- MULTIWORD_FIRST_READ: the first word of a value latches the rest (01 R18). -/
def execMultiwordFirstRead (rd : Fin 9) (addr : BitVec 20) (off : BitVec 16) (s : State) : Out :=
  .next (regRead rd addr.toNat off (if addr = 0x70030#20 then atTick off s else s))

/-- IND_DATA_READ (19 R424). -/
def execIndDataRead (rd : Fin 9) (s : State) : Out := .next (regRead rd 0xF0004 0#16 s)

/-- IND_DATA_WRITE (19 R424). -/
def execIndDataWrite (rd : Fin 9) (val : Word) (s : State) : Out := .next (regWrite rd 0xF0004 val s)

/-- ICU_CLAIM (19 R431). -/
def execIcuClaim (rd : Fin 9) (s : State) : Out := .next (regRead rd 0x10008 0#16 s)

/-- ICU_COMPLETE (19 R432). -/
def execIcuComplete (rd : Fin 9) (val : Word) (s : State) : Out := .next (regWrite rd 0x1000C val s)

/-- ICU_PEND_RAISE: a write through the SET alias of a pending word (19 R429). -/
def execIcuPendRaise (rd : Fin 9) (k : Fin 8) (val : Word) (s : State) : Out := .next (regWrite rd (0x14100 + 4 * k.1) val s)

/-- ICU_PEND_WITHDRAW: a write through the CLR alias of a pending word (19 R429). -/
def execIcuPendWithdraw (rd : Fin 9) (k : Fin 8) (val : Word) (s : State) : Out := .next (regWrite rd (0x18100 + 4 * k.1) val s)

/-! ## Host SPI and SMBus (18 R396, R397) -/

/-- The slot bound to an endpoint. -/
def boundTo (s : State) (e : Nat) : Option (Fin 8) := (List.finRange 8).find? fun i => s.slots.s[i].bind.elim false fun b => b.1 == e

/-- A word read by the bus of an endpoint: zero beyond the window or where no slot is bound. -/
def busRead (e a : Nat) (s : State) : Word × State :=
  match boundTo s e with
  | some i =>
    if a ≤ 0xFFFFF then
      let rd : Fin 9 := ⟨i.1, by omega⟩
      let s1 := regRead rd a 0#16 s
      (s1.host.rd[rd], s1)
    else (0#32, s)
  | none => (0#32, s)

/-- A word written by the bus of an endpoint. -/
def busWrite (e a : Nat) (v : Word) (s : State) : State :=
  match boundTo s e with
  | some i => if a ≤ 0xFFFFF then regWrite ⟨i.1, by omega⟩ a v s else s
  | none => s

/-- Words written one after the other. -/
def busWrites (e : Nat) : Nat → List Word → State → State
  | _, [], s => s
  | a, v :: l, s => busWrites e (a + 4) l (busWrite e a v s)

/-- Words read one after the other; those named `late` are not ready and read as ones without a side effect. -/
def busReads (e : Nat) (late : List Nat) : Nat → Nat → Nat → State → List Byte × State
  | 0, _, _, s => ([], s)
  | n + 1, k, a, s =>
    let x := if late.contains k then (0xFFFFFFFF#32, s) else busRead e a s
    let r := busReads e late n (k + 1) (a + 4) x.2
    (le 4 x.1.toNat ++ r.1, r.2)

/-- The address of a host SPI transaction is aligned and its upper bits are zero. -/
def spiAddrOk (addr : BitVec 24) : Bool := decide (addr.toNat % 4 = 0) && decide (addr.toNat < 2 ^ 20)

/-- HOST_SPI latches for a misaligned transaction (21 R443). -/
def spiBad (addr : BitVec 24) (s : State) : State := if addr.toNat % 4 = 0 then s else faultEvent 54 s

/-- HOST_SPI_WRITE (18 R396): `part` says that bytes of a last, incomplete word arrived. -/
def execHostSpiWrite (addr : BitVec 24) (data : List Word) (part : Bool) (s : State) : Out :=
  if !spiAddrOk addr then .next (spiBad addr s)
  else
    let s1 := busWrites 8 addr.toNat data s
    .next (if part then faultEvent 54 { s1 with host := { s1.host with spiDrop := true } } else s1)

/-- HOST_SPI_READ (18 R396). -/
def execHostSpiRead (addr : BitVec 24) (n : Nat) (late : List Nat) (s : State) : Out :=
  if !spiAddrOk addr then .next (spiBad addr { s with host := { s.host with spiOut := zeros (4 * n) } })
  else
    let r := busReads 8 late n 0 addr.toNat s
    let s1 : State := { r.2 with host := { r.2.host with spiOut := r.1 } }
    .next (if late.any (· < n) then faultEvent 54 { s1 with host := { s1.host with spiLate := true } } else s1)

/-- HOST_SPI_STATUS (18 R396). -/
def execHostSpiStatus (s : State) : Out :=
  .next { s with host := { s.host with
    spiOut := [BitVec.ofNat 8 (bit s.host.ready + 2 * bit s.host.spiLate + 4 * bit s.host.spiDrop)]
    spiLate := false
    spiDrop := false } }

/-- A block write is discarded: REQ_ERR of the bound slot and fault SMBUS (18 R397, 21 R443). -/
def smbusDiscard (s : State) : State :=
  faultEvent 55 (match boundTo s 9 with
    | some i => if s.host.ready then reqErr i s else s
    | none => s)

/-- The packet error code of SMBus over a transaction's bytes: CRC-8 with polynomial x^8 + x^2 + x + 1 (18 R397: SMBus 3.1). -/
def pecOf (bs : List Byte) : Byte :=
  bs.foldl (fun c b => (List.range 8).foldl (fun c _ => if c.getLsbD 7 then (c <<< 1) ^^^ 0x07#8 else c <<< 1) (c ^^^ b)) 0#8

/-- The device's SMBus address with a read or write bit (18 R397). -/
def smbAddr (s : State) (rd : Bool) : Byte := BitVec.ofNat 8 ((if s.aon.unitB then 0x9A else 0x98) + bit rd)

/-- A block write's PEC, where the host sent one, is that of its bytes. -/
def pecOk (s : State) (code : Byte) (data : List Byte) (pec : Option Byte) : Bool :=
  pec.elim true (· == pecOf ([smbAddr s false, code] ++ le 1 data.length ++ data))

/-- SMBUS_SET_POINTER (18 R397). -/
def execSmbusSetPointer (p : Word) (pec : Option Byte) (s : State) : Out :=
  .next (if pecOk s 0xA0#8 (le 4 p.toNat) pec then { s with host := { s.host with smbPtr := p } } else smbusDiscard s)

/-- The words of a byte string. -/
def wordsOf : List Byte → List Word
  | a :: b :: c :: d :: l => w32 (leVal [a, b, c, d]) :: wordsOf l
  | _ => []

/-- SMBUS_BLOCK_WRITE (18 R397). -/
def execSmbusBlockWrite (data : List Byte) (pec : Option Byte) (s : State) : Out :=
  .next (if !pecOk s 0xA1#8 data pec || data.length % 4 != 0 || outside data.length 4 32 then smbusDiscard s
    else
      let s1 := busWrites 9 s.host.smbPtr.toNat (wordsOf data) s
      { s1 with host := { s1.host with smbPtr := s.host.smbPtr + w32 data.length } })

/-- SMBUS_BLOCK_READ, with a PEC byte when the host clocks one (18 R397). -/
def execSmbusBlockRead (pec : Bool) (s : State) : Out :=
  let r := busReads 9 [] 8 0 s.host.smbPtr.toNat s
  let code := pecOf ([smbAddr s false, 0xA2#8, smbAddr s true, 32#8] ++ r.1)
  .next { r.2 with host := { r.2.host with smbOut := if pec then r.1 ++ [code] else r.1, smbPtr := s.host.smbPtr + 32#32 } }

/-- SMBUS_ALERT_RESPONSE: the device answers with its own address while ALERT_N is asserted (18 R397). -/
def execSmbusAlertResponse (s : State) : Out :=
  let alert := (boundTo s 9).elim false fun i => s.host.mbox[i].pin
  .next { s with host := { s.host with
    smbOut := if alert then [smbAddr s false] else [] } }

end Sys2Proof.Machine
end

