-- ==== Sys2Proof/Machine/Slots.lean ====
section
/-!
DEFINITION. Roles, bindings and the purge of a slot: the slot commands of chapter 16.
-/
namespace Sys2Proof.Machine
open Sys2Proof

/-- The provisioned roles and bindings, as the PROVISION section holds them (23 R481). -/
def provision (s : State) : Vector (Role × Option (Fin 10)) 8 := s.slots.s.map fun q => (q.role, q.bind)

/-- A slot holds a listening address, a PTP instance or a key (16 R356). -/
def slotHolds (i : Fin 8) (s : State) : Bool :=
  s.serv.slots[i].addrs.toList.any (·.isSome) || s.ptp.inst.toList.any (fun p => p.elim false (·.owner == i)) ||
  !(slotKeys s i.1).isEmpty

/-- The rings a slot's keys lie in: NTS, or PTP with its SPP. -/
def slotRings (i : Fin 8) (s : State) : List (Bool × Nat) :=
  ((slotKeys s i.1).map fun k => (s.vault.keys[k].ptp, s.vault.keys[k].spp)).eraseDups

/-- A purge's hard invalidation of every ring of a slot, committed to the key store (16 R356, 17 R381). -/
def purgeKeys (i : Fin 8) (s : State) : State :=
  if (slotKeys s i.1).isEmpty then s
  else
    let ks := slotKeys s i.1
    storeCommit (invalidateKeys i ks true ((slotRings i s).foldl (fun s r => ringAdvance i r.1 r.2 s) s))

/-- History registers: the per-slot copies of sticky status other than the slot's own target and mailbox (16 R356). -/
def historyKey (i : Fin 8) (k : Nat) : Bool :=
  decide (k / 2 ^ 28 = i.1) && perSlotReg (k % 2 ^ 28) && k % 2 ^ 28 != 0x10004 && k % 2 ^ 28 != 0x20004

/-- Clears a slot's counter tallies and history copies. -/
def purgeStats (i : Fin 8) (s : State) : State :=
  { s with
    perf := { s.perf with cnt := s.perf.cnt.filter fun e => e.1 % 9 != 1 + i.1 }
    regs := { s.regs with sticky := s.regs.sticky.filter fun e => !historyKey i e.1 } }

/-- What PURGE does at once (16 R356). -/
def purgeNow (i : Fin 8) (s : State) : State :=
  let s1 := (List.finRange 32).foldl (fun s k => if (s.serv.slots[i].addrs[k]).isSome then addrDelete i k s else s) s
  let s2 := (List.finRange 16).foldl (fun s k =>
    if (s.ptp.inst[k]).elim false (·.owner == i) then instDelete (BitVec.ofNat 8 k.1) s else s) s1
  let s3 := (List.finRange 4).foldl (fun s p =>
    onPort p (fun q => { q with rxRing := upd q.rxRing i fun _ => none }) (tsqFree p i (txRingEnd p i s))) (purgeKeys i s2)
  purgeStats i s3

/-- A slot takes a binding: the old endpoint loses the slot, the new one starts with empty rings and major 1 (16 R355,
18 R405). -/
def setBind (i : Fin 8) (b : Option (Fin 10)) (s : State) : State :=
  if s.slots.s[i].bind = b then s
  else
    let s1 := if s.slots.s[i].bind.isSome then slotLose i s else s
    onMbox i (fun m => { m with en := false, major := 1, pin := false, wakePin := false })
      { s1 with slots := { s1.slots with s := upd s1.slots.s i fun q => { q with bind := b } } }

/-- The binding a code names. -/
def bindOf (v : BitVec 8) : Option (Fin 10) := fin? 10 v.toNat

/-- Argument checks of `ICP_SLOT_CONFIG` (16 R371). -/
def slotChecks (a : SlotConfigArgs) (i : Fin 8) (s : State) : List (Bool × Nat) :=
  let b := bindOf a.bind
  let zero := i == 0
  [(a.rsv || (b.isNone && a.bind != 0xFF#8) || decide (3 < a.role.toNat) || (zero != (a.role == 0#8)) ||
      (zero && (b.isNone || a.purge)), stBadArg),
   (zero && s.sys.mode != .provision, stLocked),
   ((List.finRange 8).any (fun j => j != i && b.isSome && s.slots.s[j].bind == b) ||
      (b.elim false (fun e => decide (e.1 < 8)) && !powered s 3) ||
      (roleOf s i == .operator && a.role != 1#8 && !a.purge && slotHolds i s), stOrder),
   (s.slots.s[i].purge.isSome, stBusy)]

/-- Carries out an accepted `ICP_SLOT_CONFIG`: the SLOT record, the binding, the configuration area, then the role or the
purge that ends with it. -/
def slotApply (c : CmdRef) (a : SlotConfigArgs) (i : Fin 8) (s : State) : IcpRes :=
  let r := roleOfCode a.role.toNat
  let s1 := setBind i (bindOf a.bind) (trail 0x23 ([BitVec.ofNat 8 i.1, a.bind, a.role, BitVec.ofNat 8 (bit a.purge)] ++ zeros 4) s)
  let table := (provision s1).set i.1 (r, bindOf a.bind)
  let s2 := cfgUpdate (fun k => { k with slots := some table }) s1
  if a.purge then
    let s3 := purgeNow i s2
    .later (purgeDone i { s3 with slots := { s3.slots with s := upd s3.slots.s i fun q => { q with purge := some (c, r) } } })
  else .done stOk [] (setRole i r s2)

/-- `ICP_SLOT_CONFIG` (16 R355, R356, R371). -/
def execIcpSlotConfig (c : CmdRef) (a : SlotConfigArgs) (s : State) : Out :=
  icp c 0x130 (fun s =>
    match fin? 8 a.slot.toNat with
    | none => .done stBadArg [] s
    | some i =>
      if firstFail (slotChecks a i s) = stOk then slotApply c a i s else .done (firstFail (slotChecks a i s)) [] s) s

/-- The 16 bytes of a slot in `ICP_SLOT_INFO` and `ICP_SLOT_LIST`; an unbound slot carries BIND = 0xF (16 R370). -/
def slotInfo (s : State) (i : Fin 8) : List Byte :=
  let q := s.slots.s[i]
  le 4 (pack [(0, i.1), (4, roleCode q.role), (8, q.bind.elim 0xF fun b => b.1)]).toNat ++ le 4 q.deny ++
    le 4 (pack [(0, q.denyWhere), (20, q.denyKind)]).toNat ++ zeros 4

/-- `ICP_SLOT_INFO`. -/
def execIcpSlotInfo (c : CmdRef) (s : State) : Out := icpGet c 0x131 (fun s => slotInfo s c.slot) s

/-- `ICP_SLOT_LIST`. -/
def execIcpSlotList (c : CmdRef) (s : State) : Out := icpGet c 0x132 (fun s => (List.finRange 8).flatMap (slotInfo s)) s

end Sys2Proof.Machine
end

