-- ==== Sys2Proof/Machine/Reset.lean ====
section
/-!
DEFINITION. Reset sources and start-up (02 R37-R44), the loss of Ridgepole's lock (03 R50), die temperature (23 R487) and
error lines that rise by themselves (21 R444).
-/
namespace Sys2Proof.Machine
open Sys2Proof

/-! ## What a reset leaves (02 R37, R38) -/

/-- Vault state that lies in flash or OTP, with the generator's draw number, which is the model's own. -/
def vaultKeep (v : VaultSt) : VaultSt :=
  { enrolled := v.enrolled, enrollNo := v.enrollNo, kcv := v.kcv, draws := v.draws, bank := v.bank, cert := v.cert,
    otpSvn := v.otpSvn, pref := v.pref }

/-- Footbridge after a reset: the level of FB_PEEROWN and the AON time are not the unit's to reset. -/
def footKeep (f : FootSt) : FootSt := { peerOwn := f.peerOwn, peerOwnLowSince := f.peerOwnLowSince, ck := f.ck }

/-- Trail Register after a reset other than power-on: contents kept, a flush in progress ended. -/
def trailKeep (t : TrailSt) : TrailSt := { t with flushing := false, flushCmd := none, period := 60 }

/-- Trail Register after power-on: only the logs in flash are left. -/
def trailFresh (t : TrailSt) : TrailSt :=
  { first := [], firstFill := 0, flogUsed := t.flogUsed, flogFull := t.flogFull, fcirc := t.fcirc, ffirst := t.ffirst }

/-- Sticky words of the AON region. -/
def stickyAon (l : List (Nat × Word)) : List (Nat × Word) := l.filter fun e => e.1 == stickyKey 8 (2 ^ 20 + 0x14)

/-- Sticky words a reset with code 0x05 leaves: the AON region, the SYS block and FAULT_STAT (02 R38, 19 R489). -/
def sticky5 (l : List (Nat × Word)) : List (Nat × Word) :=
  l.filter fun e =>
    let r := e.1 % 2 ^ 28
    r == 2 ^ 20 + 0x14 || r < 0x10000 || r == 0xD0004 || r == 0xD0008 || r == 0xD0040

/-- Reports a reset with code 0x05 leaves: those of SYS, FAULT and the AON region. -/
def reportKept (q : Report) : Bool := q.blk == 0 || q.blk == 0xD || q.reg == 2 ^ 20 + 0x14

/-- The device as a full reset leaves it before the AON state is set: flash, the pins and the waiting commands stay. -/
def resetBase (s : State) : State :=
  { State.reset with
    pending := s.pending
    flash := s.flash
    vault := vaultKeep s.vault
    foot := footKeep s.foot
    host := { perst := s.host.perst, pcieUp := !s.host.perst } }

/-- Power-on (02 R37, R38; 21 R451): the count of power-ons advances and the POWER_ON record is the first. -/
def powerOn (provN unitB : Bool) (s : State) : State :=
  let a : AonSt := { provN := provN, unitB := unitB, pcycle := satU 32 (s.aon.pcycle + 1) }
  let s1 : State := { resetBase s with aon := a, trail := trailFresh s.trail }
  trail 0x01 (le 4 a.pcycle ++ le 4 (rstCause s1).toNat ++ le 4 sysId.toNat ++ zeros 4) s1

/-- The RESET record of a reset other than power-on (21 R451, R453). -/
def trailReset2 (s : State) : State := trail 0x02 (le 4 (rstCause s).toNat ++ le 4 (roAon s 0x20).toNat) s

/-- What AON keeps through every reset but power-on (02 R38). -/
def aonKeep (code : Nat) (provN unitB : Bool) (a : AonSt) : AonSt :=
  { cause := code, provN := provN, unitB := unitB, bankFail := a.bankFail, bootTries := a.bootTries, pcycle := a.pcycle,
    ophrs := a.ophrs, fatalSource := a.fatalSource, fatalValid := a.fatalValid, fatalMode := a.fatalMode, oscAbsentAt := a.oscAbsentAt }

/-- THERMAL_CRIT's comparator lies in AON beside the resets (23 R487). -/
def critMask : BitVec 64 := 1#64 <<< 57

/-- A reset with code 0x02, 0x03 or 0x04. -/
def resetFull (code : Nat) (provN unitB : Bool) (s : State) : State :=
  trailReset2 { resetBase s with
    aon := aonKeep code provN unitB s.aon
    trail := trailKeep s.trail
    fault := { real := s.fault.real &&& critMask, sev := s.fault.sev }
    regs := { sticky := stickyAon s.regs.sticky }
    sys := { cause := code, prev := s.sys.mode } }

/-- A reset with code 0x05: the derived domains restart; HOST, AON and the PCIe link go on (02 R37, R38; 01 R19). -/
def reset5 (s : State) : State :=
  let keepBit (b : Nat) : BitVec 16 := s.regs.lk &&& (1#16 <<< b)
  let s1 : State := { State.reset with
    pending := s.pending
    flash := s.flash
    vault := vaultKeep s.vault
    foot := footKeep s.foot
    aon := { aonKeep 5 s.aon.provN s.aon.unitB s.aon with
      pwrOn := (s.aon.pwrOn &&& 0x008#10) ||| 0x205#10, bootStep := 2 }
    trail := trailKeep s.trail
    fault := { real := s.fault.real &&& (critMask ||| 1#64 ||| (1#64 <<< 56)), sev := s.fault.sev }
    host := { s.host with ready := false, mbox := Vector.replicate 8 {}, nextSlot := 0 }
    slots := { s := s.slots.s.map fun q => { q with purge := none } }
    regs := { s.regs with
      lk := keepBit 0 ||| keepBit 13
      sticky := sticky5 s.regs.sticky
      reports := s.regs.reports.filter reportKept
      seqs := s.regs.seqs.filter fun e => e.1 % 16 == 0 || e.1 % 16 == 0xD || e.1 % 16 == 0xF
      indLatch := Vector.replicate 9 (0, [])
      shadow := s.regs.shadow.filter fun e => decide (e.1 % 2 ^ 28 < 0x10000) }
    sys := { cause := 5, prev := s.sys.mode, temp := s.sys.temp, warn := s.sys.warn } }
  trailReset2 (stickyFirst 0x00010 8 8 5 (sticky 0x00010 1#32 s1))

/-- POWER_ON_RESET (02 R37, 23 R472). -/
def execPowerOnReset (provN unitB : Bool) (s : State) : Out := .next (powerOn provN unitB s)

/-- RESET_N_ASSERT (02 R37, 23 R476). -/
def execResetNAssert (provN unitB : Bool) (s : State) : Out := .next (resetFull 2 provN unitB s)

/-- COMMANDED_RESET: 1 ms after the completion of `ICP_SYS_RESET` (02 R48). -/
def execCommandedReset (s : State) : Out :=
  .next (if s.sys.resetArmed then resetFull 3 s.aon.provN s.aon.unitB s else s)

/-- An image runs: a bank has been started (02 R39 step 7). -/
def imageRuns (s : State) : Bool := s.aon.bank < 2 && s.aon.locked

/-- A watchdog reset before the start was confirmed counts against the bank; the second marks it (02 R43). -/
def failedStart (s : State) : State :=
  if s.vault.confirmed then s
  else
    let n := satU 8 (s.aon.bootTries + 1)
    let s1 : State := { s with aon := { s.aon with bootTries := n } }
    if n < 2 then s1
    else trailFw 4 s.aon.bank s.vault.svn { s1 with aon := { s1.aon with bankFail := s.aon.bankFail ||| (1 <<< s.aon.bank) } }

/-- WATCHDOG_EXPIRY (02 R43). -/
def execWatchdogExpiry (s : State) : Out :=
  .next (if imageRuns s then resetFull 4 s.aon.provN s.aon.unitB (failedStart s) else s)

/-- WDOG_WARN: 1 s since the last kick (19 R427, 21 R443). -/
def execWdogWarn (s : State) : Out := .next (if imageRuns s then faultEvent 62 (raise 240 s) else s)

/-- RIDGEPOLE_LOSS_OF_LOCK: the fault latch takes the hardware part of the fatal reaction, then the derived domains are
reset (03 R50). -/
def execRidgepoleLossOfLock (s : State) : Out := .next (if s.aon.locked then reset5 (faultCond 0 true s) else s)

/-! ## Start-up (02 R39-R44) -/

/-- The OSC_MAIN frequency a measurement identifies: within 1 % of an allowed value (02 R40). -/
def oscOf (khz : Nat) : Option Nat := [10, 20, 25, 40, 50].find? fun f => 990 * f ≤ khz && khz ≤ 1010 * f

/-- OSC_MAIN_CHECK: the sequencer measures OSC_MAIN (02 R39 step 2, R40). -/
def execOscMainCheck (khz : Nat) (s : State) : Out :=
  .next (if s.aon.locked then s
    else
      match oscOf khz with
      | some f => { s with aon := { s.aon with oscPresent := true, oscMHz := f, bootStep := 2 } }
      | none =>
        let s1 : State := { s with aon := { s.aon with oscPresent := false, bootStep := 2, oscAbsentAt := some s.aon.ophrs } }
        if s.aon.oscAbsentAt = some s.aon.ophrs then s1 else trail 0x14 (le 4 khz ++ zeros 4) s1)

/-- RIDGEPOLE_LOCK: PD_TIME is powered and the derived domains are released (02 R39 step 3). -/
def execRidgepoleLock (s : State) : Out :=
  .next (if s.aon.locked || !s.aon.oscPresent then s
    else faultCond 0 false { s with
      aon := { s.aon with locked := true, pwrOn := s.aon.pwrOn ||| 2#10, bootStep := 3 }
      host := { s.host with ready := true } })

/-- Trailhead moves to RECOVERY without an image (02 R41-R43). -/
def bootRecovery (cause : Nat) (s : State) : State :=
  enterMode .recovery cause { s with aon := { s.aon with bank := 3, bootStep := 9 } }

/-- The bank Trailhead chooses (02 R42). -/
def chooseBank (s : State) : Option (Fin 2) :=
  let ok (b : Fin 2) : Bool := !s.aon.bankFail.testBit b.1 && imageValid s b
  if ok 0 && ok 1 then
    (if bankSvn s 0 < bankSvn s 1 then some 1 else if bankSvn s 1 < bankSvn s 0 then some 0
     else if prefBank s == some true then some 1 else some 0)
  else if ok 0 then some 0 else if ok 1 then some 1 else none

/-- Step 6 and 7: a bank is selected and its image started (02 R42, R43). -/
def startImage (s : State) : State :=
  if s.aon.bankFail = 3 then bootRecovery 0x17 s
  else
    match chooseBank s with
    | none => bootRecovery 0x13 (faultEvent 46 s)
    | some b => { s with
        aon := { s.aon with bank := b.1, bootStep := 7, bootTries := if 2 ≤ s.aon.bootTries then 0 else s.aon.bootTries }
        vault := { s.vault with svn := bankSvn s b, imageHash := bankBytes s b 16 48, confirmed := false } }

/-- TRAILHEAD_START: the root secret is regenerated, with `pufFails` attempts failing (each does while PD_VAULT is off), and a
bank selected (02 R39, R41). -/
def execTrailheadStart (pufFails : Fin 4) (s : State) : Out :=
  .next (if !s.aon.locked || s.aon.bootStep != 3 || s.sys.mode != .boot || !powered s 2 then s
    else if !s.vault.enrolled then startImage (if powered s 9 then startKeys s else s)
    else
      let s1 : State := { s with aon := { s.aon with pufTries := min (pufFails.1 + 1) 3 } }
      if pufFails = 3 || !powered s 9 then bootRecovery 0x14 (faultEvent 45 s1) else startImage (startKeys (rootKeys s1)))

/-! ## Firmware starts -/

/-- One calibration record of the configuration area goes back where it is used (23 R481). -/
def calRestore (r : CalRec) (s : State) : State :=
  match r.kind with
  | 0 => (fin? 4 (r.idx / 8)).elim s fun p =>
      calStore p (r.idx % 8 / 2) (r.idx % 2 == 1) { txLat := r.a.toNat, rxLat := r.b.toNat, unc := r.c, conn := r.conn, eq := r.eq } s
  | 1 => (fin? 4 r.idx).elim s fun i => { s with mile := { s.mile with pps := upd s.mile.pps i fun o => { o with outDelay := r.a } } }
  | 2 => (fin? 2 r.idx).elim s fun i => { s with mile := { s.mile with freq := upd s.mile.freq i fun o => { o with outDelay := r.a } } }
  | 3 => (fin? 16 r.idx).elim s fun i => onEvt i (fun e => { e with inDelay := r.a }) s
  | 4 => (fin? 8 r.idx).elim s fun i => onCh i (fun c => { c with skew := r.a }) s
  | _ => s

/-- Roles and bindings of the PROVISION section. -/
def slotsRestore (t : Vector (Role × Option (Fin 10)) 8) (s : State) : State :=
  { s with slots := { s.slots with s := updAll s.slots.s fun i q => { q with role := t[i].1, bind := t[i].2 } } }

/-- The loaded configuration bank takes effect: roles, calibration, Guyline models, position (23 R481, 06 R134, 10 R210). -/
def cfgLoad (b : CfgBank) (s : State) : State :=
  let s1 := b.slots.elim s fun t => slotsRestore t s
  let s2 := (b.cal.getD []).foldl (fun s r => calRestore r s) s1
  let s3 : State := b.guy.elim s2 fun g => { s2 with
    guy := { s2.guy with main := g.1.restore s2.guy.main, atom := g.2.restore s2.guy.atom } }
  b.pos.elim s3 fun p => { s3 with
    gnss := { s3.gnss with posMode := some true, pos := (p.1, p.2.1, p.2.2.1), posUnc := p.2.2.2 } }

/-- The configuration bank a start loads: none without a root secret, which its MAC needs (02 R41). -/
def cfgBank (s : State) : Option CfgBank := if s.vault.rootOk then (bestCfg s).map fun b => s.flash.cfg[b] else none

/-- The mode and cause that end BOOT: a fatal fault comes first (02 R25, R27). -/
def bootEnd (s : State) : Mode × Nat :=
  if s.sys.fatalPending then (.recovery, 0x24)
  else if !s.aon.provN then (.provision, 0x10)
  else if (cfgBank s).elim false fun b => b.done && b.cal.isSome then (.acquire, 0x15)
  else (.provision, 0x11)

/-- The domains a domain requires (02 R34). -/
def requires (d : Nat) : BitVec 10 :=
  match d with
  | 6 | 7 => 0x10#10
  | 4 => 0x22#10
  | 5 | 8 => 0x02#10
  | _ => 0#10

/-- Domains of a set that have what they require; twice, as the requirements are two deep. -/
def supported (on : BitVec 10) : BitVec 10 :=
  let once (v : BitVec 10) : BitVec 10 := (List.range 10).foldl (fun a d => putBit a d (v.getLsbD d && requires d &&& ~~~v == 0#10)) 0#10
  once (once on)

/-- The domains that run after step 8: those start-up powered before, and of PD_CORE, PD_CRYPT, PD_NETA, PD_NETB and PD_GNSS
those the firmware's configuration requires, but for one that did not reach power-good at this start (02 R36, R39). -/
def bootDomains (want : BitVec 10) (s : State) : BitVec 10 :=
  supported (s.aon.pwrOn ||| (want &&& 0x1F0#10 &&& ~~~s.aon.pgFailed))

/-- FIRMWARE_START: steps 8 and 9; `want` is what the firmware's configuration requires of the domains of step 8. A firmware
that reaches them has confirmed its start (02 R39, R43, R25). -/
def execFirmwareStart (want : BitVec 10) (s : State) : Out :=
  .next (if !imageRuns s || s.aon.bootStep != 7 || s.sys.mode != .boot then s
    else
      let s1 : State := { s with
        aon := { s.aon with pwrOn := bootDomains want s, bootStep := 9, bootTries := 0 }
        vault := { s.vault with confirmed := true }
        guy := { s.guy with savedAt := s.aon.ophrs }
        sys := { s.sys with mgmtFwRunning := true, kicked := true } }
      let s2 := if s1.vault.rootOk then loadStore s1 else s1
      let s3 := (cfgBank s2).elim s2 fun b => cfgLoad b s2
      raise 241 (lanternAll (enterMode (bootEnd s3).1 (bootEnd s3).2 s3)))

/-! ## Temperature and error lines -/

/-- The die temperature crosses the warning limit (23 R487). -/
def tempWarn (w : Bool) (s : State) : State :=
  if s.sys.warn = w then s else faultCond 56 w (raise 11 { s with sys := { s.sys with warn := w } })

/-- What passes with a second outside the time base: the operating-hours meter, the seconds in the mode, the age of the
re-masker's sweep and of the lease state (20 R437, R441; 17 R377; 15 FOOT_STAT). -/
def aonSecond (s : State) : State :=
  { s with
    aon := { s.aon with ophrs := satU 32 (s.aon.ophrs + 1) }
    sys := { s.sys with secs := satU 32 (s.sys.secs + 1) }
    vault := { s.vault with sweepAge := satU 16 (s.vault.sweepAge + 1) }
    foot := { s.foot with since := satU 16 (s.foot.since + 1) } }

/-- TEMP_SAMPLE: the on-die sensor is read once per second; none where it does not answer (23 R487, 06 R126). The other
once-per-second counts outside the time base advance with it. -/
def execTempSample (temp : Option Int) (s : State) : Out :=
  let s0 := aonSecond s
  .next (if !s.aon.locked then s0
    else
      match temp with
      | none => { s0 with guy := { s0.guy with dieMiss := s0.guy.dieMiss + 1 } }
      | some t =>
        let s1 : State := { s0 with
          sys := { s0.sys with temp := t }
          guy := { s0.guy with dieTemp := t, dieTempOk := true, dieMiss := 0 } }
        let s2 := tempWarn (if s.sys.warn then decide (9500 < t) else decide (10000 ≤ t)) s1
        if t ≤ 11000 then faultCond 57 false s2 else s2)

/-- Sources whose line is a condition (21 R443). -/
def conditionLine (src : Nat) : Bool := (0x030D830203B05375#64).getLsbD src

/-- FAULT_LINE_RISE: a source's own line rises (21 R443, R444). -/
def execFaultLineRise (src : Fin 64) (s : State) : Out :=
  if faultReserved src.1 then .next s
  else if src = 0 then execRidgepoleLossOfLock s
  else .next (if conditionLine src.1 then faultCond src true s else faultEvent src s)

end Sys2Proof.Machine
end

