-- ==== Sys2Proof/Machine/Faults.lean ====
section
/-!
DEFINITION. The fault commands, injection with its overlap, and the Trail Register's flushes and reads (21 R445-R457).
-/
namespace Sys2Proof.Machine
open Sys2Proof

/-! ## Injection (21 R446-R448) -/

/-- The source a command names, if it has a line. -/
def faultSrc (v : BitVec 8) : Option (Fin 64) := if faultReserved v.toNat then none else fin? 64 v.toNat

/-- Arms injection for a number of ms: the injected rise takes the reaction, or, with the real line asserted, is an overlap at
once. The injected rise of RIDGEPOLE_LOL ends in the reset with code 0x05 (21 R444, R446, R447). -/
def injectArm (src : Fin 64) (ms : Nat) (s : State) : State :=
  let s1 : State := { s with fault := { s.fault with
    injEnd := s.fault.injEnd.set src.1 (aonNow s + 25000 * ms)
    inj := putBit s.fault.inj src.1 true, ovl := putBit s.fault.ovl src.1 false } }
  lanternFast (if s.fault.real.getLsbD src.1 then overlap src s1 else faultReact src true false s1)

/-- An injection ends; after an overlap the real line is sampled 16 AON cycles later (21 R447). -/
def injectEnd (src : Fin 64) (s : State) : State :=
  if s.fault.inj.getLsbD src.1 then
    let o := s.fault.ovl.getLsbD src.1
    lanternFast { s with fault := { s.fault with
      inj := putBit s.fault.inj src.1 false
      injEnd := s.fault.injEnd.set src.1 (aonNow s + 16)
      ovl := putBit s.fault.ovl src.1 false
      resample := putBit s.fault.resample src.1 o
      handled := putBit s.fault.handled src.1 false } }
  else s

/-- The AON cycle of an injection's next event has come. -/
def injDue (src : Fin 64) (s : State) : Bool := decide (s.fault.injEnd[src] ≤ aonNow s)

/-- INJECTION_END, at AON cycle `ck`: the duration has passed (21 R446, R447). -/
def execInjectionEnd (src : Fin 64) (ck : Nat) (s0 : State) : Out :=
  let s := atCk ck s0
  .next (if injDue src s then injectEnd src s else s)

/-- INJECTION_RESAMPLE, at AON cycle `ck`: 16 cycles after the end the real line is sampled; if it is asserted and no rise was
taken since, the error is real (21 R447). -/
def execInjectionResample (src : Fin 64) (ck : Nat) (s0 : State) : Out :=
  let s := atCk ck s0
  .next (if s.fault.resample.getLsbD src.1 && injDue src s then
    let s1 : State := { s with fault := { s.fault with
      resample := putBit s.fault.resample src.1 false, handled := putBit s.fault.handled src.1 false } }
    if s.fault.real.getLsbD src.1 && !s.fault.handled.getLsbD src.1 then lanternFast (faultReact src false true s1) else s1
  else s)

/-- Arguments of `ICP_FAULT_INJECT` (21 R448, R457). -/
def injectChecks (a : InjectArgs) (s : State) : List (Bool × Nat) :=
  let src := faultSrc a.source
  let arm := a.action == 0#8
  [(a.rsv || src.isNone || decide (1 < a.action.toNat) || (arm && a.duration == 0#32), stBadArg),
   (arm && decide (60000 < a.duration.toNat), stRange),
   (arm && src.elim false (fun i => s.fault.inj.getLsbD i.1 ||
      (decide (2 ≤ s.fault.sev[i]) && s.sys.mode != .provision && s.sys.mode != .quiesce)), stOrder)]

/-- `ICP_FAULT_INJECT` (21 R446). The reset an injected RIDGEPOLE_LOL ends in leaves the command uncompleted (01 R19). -/
def execIcpFaultInject (c : CmdRef) (a : InjectArgs) (s : State) : Out :=
  icp c 0xB02 (fun s =>
    match faultSrc a.source with
    | none => .done stBadArg [] s
    | some src =>
      if firstFail (injectChecks a s) ≠ stOk then .done (firstFail (injectChecks a s)) [] s
      else if a.action ≠ 0#8 then .done stOk [] (injectEnd src s)
      else if src = 0 then .later (reset5 (injectArm src a.duration.toNat s))
      else .done stOk [] (injectArm src a.duration.toNat s)) s

/-- `ICP_FAULT_CONFIG` (21 R445): a severity counts at once for every rule that tests lines; no reaction is taken. -/
def execIcpFaultConfig (c : CmdRef) (source severity : BitVec 8) (rsv : Bool) (s : State) : Out :=
  icpDo c 0xB01
    (fun s => [(rsv || (faultSrc source).isNone || source == 0#8 || source == 57#8 || source == 58#8 || decide (3 < severity.toNat), stBadArg),
      ((faultSrc source).elim false (fun i => s.fault.inj.getLsbD i.1), stOrder)])
    (fun s => (faultSrc source).elim s fun i =>
      lanternFast { s with fault := { s.fault with sev := s.fault.sev.set i.1 severity.toNat } })
    (fun _ => []) s

/-- `ICP_FAULT_STATUS` (21 R456). -/
def execIcpFaultStatus (c : CmdRef) (s : State) : Out :=
  icpGet c 0xB00 (fun s => viewBytes roFault s c.slot (regRun 0xD0004 12) ++ le 4 (roAon s 0x20).toNat) s

/-! ## The Trail Register in flash (21 R454, R455) -/

/-- A record with its header (21 R453). -/
def TrailRec.bytes (r : TrailRec) : List Byte :=
  le 1 r.type ++ le 1 r.payload.length ++ le 2 r.rep ++ le 4 (r.time + r.pcyc * 2 ^ 28) ++ r.payload

/-- Bytes of a list of records. -/
def trailSize (l : List TrailRec) : Nat := (l.map TrailRec.size).sum

/-- Appends a record to the circular log: to the newest sector, or to the next one, which is erased for it (21 R454). -/
def logPut (l : List (List TrailRec)) (r : TrailRec) : List (List TrailRec) :=
  match l with
  | [] => [[r]]
  | q :: t => if trailSize q + r.size ≤ 4096 then (q ++ [r]) :: t else ([r] :: q :: t).take 64

/-- A record after its copy: flushed and closed. -/
def TrailRec.copied (r : TrailRec) : TrailRec := { r with flushed := true, closed := true }

/-- Marks the first `n` records that are not flushed as copied. -/
def markCopied : Nat → List TrailRec → List TrailRec
  | _, [] => []
  | 0, l => l
  | n + 1, r :: l => if r.flushed then r :: markCopied (n + 1) l else r.copied :: markCopied n l

/-- Appends the records of the present power cycle's first area to its slot of the first log; a new slot where it has none yet. -/
def slotPut (mine : Bool) (rs : List TrailRec) (l : List (List TrailRec)) : List (List TrailRec) :=
  match l with
  | q :: t => if mine then (q ++ rs) :: t else rs :: l
  | [] => [rs]

/-- The power cycle's first area has a slot of the first log, or one is free for it. -/
def firstRoom (t : TrailSt) : Bool := t.flogThis || !t.flogFull

/-- Records of the first area a flush copies. -/
def newFirst (t : TrailSt) : List TrailRec := if firstRoom t then t.first.filter (!·.flushed) else []

/-- Records of the circular area a flush copies. -/
def newCirc (t : TrailSt) : List TrailRec := t.circ.filter (!·.flushed)

/-- A flush copies `n` records: the first area's into its slot of the first log, then the circular area's to the circular log.
Answers the bytes copied. -/
def trailCopy (n : Nat) (t : TrailSt) : TrailSt × Nat :=
  let fs := (newFirst t).take n
  let cs := (newCirc t).take (n - fs.length)
  let slot := !fs.isEmpty && !t.flogThis
  let used := if slot then t.flogUsed + 1 else t.flogUsed
  ({ t with
      first := markCopied fs.length t.first
      circ := markCopied cs.length t.circ
      ffirst := if fs.isEmpty then t.ffirst else slotPut t.flogThis (fs.map TrailRec.copied) t.ffirst
      fcirc := (cs.map TrailRec.copied).foldl logPut t.fcirc
      flogUsed := used
      flogThis := t.flogThis || slot
      flogFull := decide (48 ≤ used)
      flushing := false
      flushCmd := none },
   trailSize fs + trailSize cs)

/-- A flush starts. -/
def flushStart (s : State) : State := { s with trail := { s.trail with flushing := true, flushAt := s.aon.ophrs } }

/-- A flush is due: FLUSH_PERIOD has passed, FIRST_FULL has set, or 36 KiB of the circular area are not flushed (21 R455). -/
def flushDue (s : State) : Bool :=
  decide (s.trail.flushAt + s.trail.period ≤ s.aon.ophrs) || (s.trail.firstFull && !(newFirst s.trail).isEmpty) ||
    decide (36864 ≤ trailSize (newCirc s.trail))

/-- TRAIL_FLUSH_PERIODIC: at FLUSH_PERIOD or a fill threshold, by firmware or the recovery loader (21 R455). -/
def execTrailFlushPeriodic (s : State) : Out :=
  .next (if s.aon.locked && (s.sys.mgmtFwRunning || s.sys.mode == .recovery) && flushDue s then flushStart s else s)

/-- TRAIL_FLUSH_DONE: a flush completes and raises TRAIL_FLUSH, or its program or read-back fails at the record after `fail`
copied ones, with FLASH_ERR (21 R455, R456). -/
def execTrailFlushDone (fail : Option Nat) (s : State) : Out :=
  .next (if !s.trail.flushing then s
    else
      match fail with
      | none =>
        let r := trailCopy (s.trail.first.length + s.trail.circ.length) s.trail
        let s1 := raise 12 { s with trail := r.1 }
        s.trail.flushCmd.elim s1 fun c => complete c 0xB04 stOk (le 4 r.2) s1
      | some n =>
        let s1 := faultEvent 63 (sticky 0xD0040 0x4000#32 { s with trail := (trailCopy n s.trail).1 })
        s.trail.flushCmd.elim s1 fun c => complete c 0xB04 stBusy [] s1)

/-- `ICP_TRAIL_FLUSH` (21 R456): it completes when the flush has ended. -/
def execIcpTrailFlush (c : CmdRef) (period : BitVec 16) (rsv : Bool) (s : State) : Out :=
  icp c 0xB04 (fun s =>
    let chk := [(rsv, stBadArg), (decide (3600 < period.toNat), stRange), (s.trail.flushCmd.isSome, stBusy)]
    if firstFail chk ≠ stOk then .done (firstFail chk) [] s
    else .later (flushStart { s with trail := { s.trail with
      period := if period = 0#16 then s.trail.period else period.toNat, flushCmd := some c } })) s

/-! ## Reading the Trail Register (21 R456, R457) -/

/-- The records of an area with the position after its last one. -/
def trailArea (circ : Bool) (t : TrailSt) : List TrailRec × Nat :=
  if circ then (t.circ, t.circPos) else (t.first, t.firstFill)

/-- Whole records from the front of a list that fit a number of bytes. -/
def fitRecs : Nat → List TrailRec → List TrailRec
  | _, [] => []
  | n, r :: l => if r.size ≤ n then r :: fitRecs (n - r.size) l else []

/-- What a read from a position returns: records, next position, END and SKIPPED; none at a position that is no boundary. -/
def trailRead (circ : Bool) (start max_ : Nat) (t : TrailSt) : Option (List TrailRec × Nat × Bool × Bool) :=
  let a := trailArea circ t
  let oldest := (a.1.head?.map (·.pos)).getD a.2
  let skipped := circ && decide (start < oldest)
  let from_ := if skipped then oldest else start
  if from_ != a.2 && !a.1.any (·.pos == from_) then none
  else
    let got := fitRecs max_ (a.1.filter fun r => decide (from_ ≤ r.pos))
    let next := from_ + trailSize got
    some (got, next, next == a.2, skipped)

/-- `ICP_TRAIL_READ`. -/
def execIcpTrailRead (c : CmdRef) (a : TrailReadArgs) (s : State) : Out :=
  icp c 0xB03 (fun s =>
    let r := trailRead (a.area == 1#8) a.start.toNat a.max.toNat s.trail
    let chk := [(a.rsv || decide (1 < a.area.toNat) || a.max == 0#16, stBadArg), (outside a.max.toNat 256 1024, stRange), (r.isNone, stOrder)]
    match r with
    | some (got, next, end_, skipped) =>
      if firstFail chk ≠ stOk then .done (firstFail chk) [] s
      else .done stOk (le 4 next ++ le 2 (trailSize got) ++ le 2 (bit end_ + 2 * bit skipped) ++ got.flatMap TrailRec.bytes) s
    | none => .done (firstFail chk) [] s) s

end Sys2Proof.Machine
end

