-- ==== Sys2Proof/Machine/Perf.lean ====
section
/-!
DEFINITION. Performance counters and perturbation: reads, bindings, dumps, PERF_ACL, arming and PERTURB_LIVE (22).
-/
namespace Sys2Proof.Machine
open Sys2Proof

/-! ## Reading counters (22 R460, R463) -/

/-- Sum of the tallies of the slots whose role lies in a mask. -/
def tallySum (s : State) (i : Nat) (roles : Nat) : Nat :=
  ((List.finRange 8).map fun k => if roles.testBit (roleCode (roleOf s k)) then mget 0 (i * 9 + 1 + k.1) s.perf.cnt else 0).sum % 2 ^ 48

/-- What a MASTER filter selects of a counter: its value, or nothing for a counter not kept per slot. -/
def filtered (s : State) (i master roles : Nat) : Option Nat :=
  if master = 0xFF then some (cntTotal s i)
  else if !cntPerSlot s i then none
  else if master = 0xFE then some (tallySum s i roles)
  else some (mget 0 (i * 9 + 1 + master) s.perf.cnt)

/-- The role of the reader admits an index. -/
def admitsCnt (s : State) (role : Role) (slot i master : Nat) : Bool :=
  match role with
  | .owner => true
  | .auditor => master == 0xFF && mayReadCnt s .auditor slot i
  | r => mayReadCnt s r slot i

/-- One response entry: value, class, VALID (22 R463). -/
def cntEntry (s : State) (role : Role) (slot master roles classes i : Nat) : List Byte :=
  let cls := cntClass s i
  let v := if cls.elim false (fun c => classes.testBit c) && admitsCnt s role slot i master then filtered s i master roles else none
  le 6 (v.getD 0) ++ le 1 (cls.getD 0) ++ le 1 (bit v.isSome)

/-- The counters of an index return to zero, tallies included. -/
def cntZero (first n : Nat) (s : State) : State :=
  let s1 : State := { s with perf := { s.perf with cnt := mclear (first * 9) ((first + n) * 9) s.perf.cnt } }
  (List.finRange 4).foldl (fun s p =>
    if first ≤ 32 * p.1 + 23 && 32 * p.1 + 23 < first + n then onPort p (fun q => { q with pauseRem := 0, pauseFrom := s.time.odo }) s else s) s1

/-- The programmable counter an index names. -/
def progIdx (v : BitVec 16) : Option (Fin 64) := if 960 ≤ v.toNat then fin? 64 (v.toNat - 960) else none

/-- A MASTER code that names a slot, the slots of ROLES, or all. -/
def masterOk (m roles : BitVec 8) : Bool := decide (m.toNat < 8) || m == 0xFF#8 || (m == 0xFE#8 && roles != 0#8)

/-- The prefix of a BIND is zero. -/
def zeroAddr : NetAddr → Bool
  | .v4 a => a == 0#32
  | .v6 a => a == 0#128

/-- Argument checks of `ICP_PERF_READ` (22 R467). -/
def perfChecks (c : CmdRef) (a : PerfReadArgs) (s : State) : List (Bool × Nat) :=
  let r := cmdRole c s
  let prog := a.kind == 1#8 || a.kind == 2#8
  let bind := a.kind == 1#8
  let reg := a.cls == 7#8
  let pfx := a.cls == 8#8
  [((prog && r != .owner) || (r == .operator && a.master.toNat != c.slot.1), stDenied),
   (a.rsv || decide (2 < a.kind.toNat) || decide (511 < a.classes.toNat) || decide (15 < a.roles.toNat) || !masterOk a.master a.roles ||
      (a.clear && (a.master != 0xFF#8 || r != .owner)) || a.count == 0#16 ||
      (prog && ((progIdx a.first).isNone || a.count != 1#16)) ||
      (bind && ((!reg && !pfx) ||
        (reg && (a.event == 0#8 || decide (7 < a.event.toNat) || !zeroAddr a.pre)) ||
        (pfx && (a.lo != 0#32 || a.hi != 0#32 || decide (15 < a.ports.toNat) || a.master == 0xFE#8)))), stBadArg),
   (decide (128 < a.count.toNat) || decide (1024 < a.first.toNat + a.count.toNat) ||
      (bind && pfx && (decide (20 < a.event.toNat) || decide ((match a.pre with | .v4 _ => 32 | .v6 _ => 128) < a.plen.toNat))), stRange),
   (bind && reg && decide (a.hi.toNat < a.lo.toNat), stOrder)]

/-- Binds or unbinds a programmable counter, which starts from zero (22 R461). -/
def perfBind (k : Fin 64) (b : Option PerfBind) (s : State) : State :=
  cntZero (960 + k.1) 1 { s with perf := { s.perf with bound := s.perf.bound.set k.1 b } }

/-- The binding a request describes. -/
def bindOfArgs (a : PerfReadArgs) : PerfBind :=
  { cls := a.cls.toNat, event := a.event.toNat, ports := a.ports.setWidth 4, len := a.plen.toNat, pre := a.pre, lo := a.lo.toNat,
    hi := a.hi.toNat, master := a.master.toNat, roles := a.roles.setWidth 4 }

/-- `ICP_PERF_READ` (22 R460, R461). -/
def execIcpPerfRead (c : CmdRef) (a : PerfReadArgs) (s : State) : Out :=
  icp c 0xB20 (fun s =>
    let st := firstFail (perfChecks c a s)
    if st ≠ stOk then .done st [] s
    else
      match progIdx a.first with
      | some k =>
        if a.kind = 1#8 then .done stOk [] (perfBind k (some (bindOfArgs a)) s)
        else if a.kind = 2#8 then .done stOk [] (perfBind k none s)
        else readIt s
      | none => readIt s) s
where
  /-- Kind READ: the captured entries, then CLEAR. -/
  readIt (s : State) : IcpRes :=
    let role := cmdRole c s
    let es := (List.range a.count.toNat).flatMap fun i =>
      cntEntry s role c.slot.1 a.master.toNat a.roles.toNat a.classes.toNat (a.first.toNat + i)
    .done stOk (le 8 s.time.odo ++ le 2 a.count.toNat ++ zeros 6 ++ es) (if a.clear then cntZero a.first.toNat a.count.toNat s else s)

/-- `ICP_PERF_DUMP_CONFIG` (22 R462, R467). -/
def execIcpPerfDumpConfig (c : CmdRef) (a : DumpConfigArgs) (s : State) : Out :=
  icpDo c 0xB21
    (fun s => [(a.rsv || decide (a.base.toNat % 64 ≠ 0), stBadArg),
      (decide (4095 < a.period.toNat) || decide (1023 < a.first.toNat) || decide (1023 < a.last.toNat), stRange),
      (s.regs.lk.getLsbD 14, stLocked),
      (decide (a.last.toNat < a.first.toNat) || (a.period != 0#16 && (pfOf s 0).isNone), stOrder)])
    (fun s => { s with perf := { s.perf with
      dumpPeriod := a.period.toNat, dumpFirst := a.first.toNat, dumpLast := a.last.toNat, dumpBase := a.base, nextBuf := false
      dumpAt := s.time.odo + a.period.toNat * 7812500 } })
    (fun _ => []) s

/-- The function bound to slot 0 can take a dump (22 R462). -/
def canDump (s : State) : Bool := (pfOf s 0).isSome && canWrite s 0 && !s.host.mbox[0].lost

/-- PERF_DUMP: every PERIOD x 10 ms indices FIRST to LAST of the Owner's view, to the two buffers in turn (22 R462). -/
def execPerfDump (off : BitVec 16) (s1 : State) : Out :=
  let s := atOdo off s1
  let p := s.perf
  let due := p.dumpAt + p.dumpPeriod * 7812500
  .next (if p.dumpPeriod = 0 || (timeUp s && decide (s.time.odo < p.dumpAt)) then s
    else if !canDump s then sticky 0xE0004 4#32 { s with perf := { p with dumpAt := due } }
    else
      let n := p.dumpLast + 1 - p.dumpFirst
      let q := low 32 (p.dumpSeq + 1)
      { s with perf := { p with
        dumpSeq := q
        dumpAt := due
        lastBuf := p.nextBuf
        nextBuf := !p.nextBuf
        lastDump := le 4 q ++ le 2 n ++ le 2 p.dumpFirst ++ le 8 s.time.odo ++
          (List.range n).flatMap fun i => cntEntry s .owner 0 0xFF 0 0xFFFF (p.dumpFirst + i) } })

/-- `ICP_PERF_ACL` (22 R467). -/
def execIcpPerfAcl (c : CmdRef) (op aud : BitVec 16) (s : State) : Out :=
  icpDo c 0xB22
    (fun s => [(decide (511 < op.toNat) || decide (511 < aud.toNat), stBadArg), (s.regs.lk.getLsbD 14, stLocked)])
    (fun s => { s with perf := { s.perf with acl := pack [(0, op.toNat), (16, aud.toNat)] } })
    (fun _ => []) s

/-! ## Perturbation (22 R464, R465) -/

/-- One perturbation parameter: its value and its range; 0 is never valid, a larger value is out of range. -/
structure PertParam where
  val : Nat
  max : Nat

/-- The parameters of a kind that have a range from 1. -/
def pertParams (k : Nat) (cfg0 cfg1 : Nat) : List PertParam :=
  match k with
  | 0 => [⟨bits cfg0 15 8, 255⟩, ⟨cfg1, 20000⟩]
  | 1 => [⟨bits cfg0 9 0, 511⟩, ⟨bits cfg1 6 0, 100⟩]
  | 3 => [⟨bits cfg0 9 0, 1000⟩]
  | _ => []

/-- Reserved bits of the parameters. -/
def pertRsv (k : Nat) (cfg0 cfg1 : Word) : Bool :=
  match k with
  | 0 => cfg0 &&& 0xFFFF00F0#32 != 0#32
  | 1 => cfg0 &&& 0xFFFFFC00#32 != 0#32 || cfg1 &&& 0xFFFFFF80#32 != 0#32
  | 2 => cfg0 &&& 0xF0#32 != 0#32
  | _ => cfg0 &&& 0xFFFEFC00#32 != 0#32 || cfg1 != 0#32

/-- Argument checks of `ICP_PERTURB_ARM` (22 R467). -/
def pertChecks (a : PerturbArgs) (s : State) : List (Bool × Nat) :=
  let k := a.kind.toNat
  let arm := a.action == 0#8
  let ps := pertParams k a.cfg0.toNat a.cfg1.toNat
  let slot := bits a.cfg0.toNat 3 0
  [(a.rsv || decide (3 < k) || decide (2 < a.action.toNat) ||
      (arm && (pertRsv k a.cfg0 a.cfg1 || (k != 3 && a.duration == 0#16) || ps.any (·.val == 0))), stBadArg),
   (arm && (decide (3600 < a.duration.toNat) || ps.any (fun p => decide (p.max < p.val)) || (k == 2 && decide (11 < slot))), stRange),
   (arm && (s.sys.mode == .serve || s.sys.mode == .holdover) && !s.pert.live, stLocked),
   (arm && ((k == 3 && !s.foot.en) ||
      (k == 2 && (fin? 12 slot).elim false fun n => s.sign.slots[n].state == .disabled)), stOrder)]

/-- Updates one kind. -/
def onPert (k : Fin 4) (f : PertKind → PertKind) (s : State) : State := { s with pert := { s.pert with k := upd s.pert.k k f } }

/-- One kind ends. -/
def pertStop (k : Fin 4) (s : State) : State :=
  if s.pert.k[k].armed then raise 6 (onPert k (fun q => { q with armed := false }) s) else s

/-- Arms a kind, or restarts it with new parameters. -/
def pertArm (k : Fin 4) (a : PerturbArgs) (s : State) : State :=
  raise 6 (onPert k (fun _ => {
    armed := true, cfg0 := a.cfg0, cfg1 := a.cfg1, start := s.time.odo, stop := s.time.odo + a.duration.toNat * tickSec
    remain := if k = 3 then bits a.cfg0.toNat 9 0 else 0 }) s)

/-- `ICP_PERTURB_ARM` (22 R464, R467). -/
def execIcpPerturbArm (c : CmdRef) (a : PerturbArgs) (s : State) : Out :=
  icpDo c 0xB30 (pertChecks a)
    (fun s => match fin? 4 a.kind.toNat with
      | some k => if a.action = 0#8 then pertArm k a s else if a.action = 1#8 then pertStop k s else pertEnd s
      | none => s)
    (fun _ => []) s

/-- `ICP_PERTURB_LIVE` (22 R465): closing it in SERVE or HOLDOVER first disarms every kind. -/
def execIcpPerturbLive (c : CmdRef) (val : Word) (s : State) : Out :=
  icpDo c 0xB31
    (fun _ => [(val != 0xA11E0001#32 && val != 0#32, stBadArg)])
    (fun s =>
      if val ≠ 0#32 then pertLive true s
      else pertLive false (if s.sys.mode == .serve || s.sys.mode == .holdover then pertEnd s else s))
    (fun _ => []) s

/-- PERTURB_EXPIRY: a kind's duration has ended, or its heartbeats are spent (22 R464). -/
def execPerturbExpiry (k : Fin 4) (off : BitVec 16) (s0 : State) : Out :=
  let s := atOdo off s0
  .next (if pertLeft s k = 0 then pertStop k s else s)

end Sys2Proof.Machine
end

