-- ==== Sys2Proof/Machine/Power.lean ====
section
/-!
DEFINITION. Mode and power commands: what gating a domain takes away, power-up, `ICP_QUIESCE` and its drain, the end of
provisioning (02 R32-R36, R46-R48).
-/
namespace Sys2Proof.Machine
open Sys2Proof

/-! ## What gating takes away (02 R32, R35)

The settings of PD_TIME that firmware writes back keep their place in State; while the domain is gated its registers read
zero. -/

/-- A bit of the CTRL.LK vector for each block of PD_TIME: TIME, SIGN, MILE, TDC, WAYP and FOOT. -/
def timeBlocks : BitVec 16 := 0x1278#16

/-- A sticky register lies in PD_TIME. -/
def timeSticky (r : Nat) : Bool := decide (r < 2 ^ 20) && timeBlocks.getLsbD (r / 0x10000)

/-- Registers and reports of the PD_TIME blocks; the lock bits are kept in management SRAM. -/
def timeRegs (g : RegsSt) : RegsSt :=
  { g with
    lk := g.lk &&& ~~~timeBlocks
    sticky := g.sticky.filter fun e => !timeSticky (e.1 % 2 ^ 28)
    reports := g.reports.filter fun q => !timeBlocks.getLsbD q.blk
    seqs := g.seqs.filter fun e => !timeBlocks.getLsbD (e.1 % 16) }

/-- The time block: UTC set by hand and the calibration uncertainties are settings. -/
def timeOff (t : TimeSt) : TimeSt :=
  let u : TimeSt := { calUnc := t.calUnc, calUncOut := t.calUncOut }
  if t.utcManual then { u with
    utcOffset := t.utcOffset, leap := t.leap, utcManual := true, utcKnown := t.utcKnown, leapAt := t.leapAt, announcedAt := t.announcedAt }
  else u

/-- Cairn's settings. -/
def cairnOff (c : CairnSt) : CairnSt := { period := c.period, events := c.events, flash := c.flash }

/-- The settings of a reference slot. -/
def slotOff (q : SignSlot) : SignSlot :=
  { enable := q.enable, holdoff := q.holdoff, instUnc := q.instUnc, noiseUnc := q.noiseUnc, rankFloor := q.rankFloor,
    qualRankMax := q.qualRankMax, asymComp := q.asymComp, asymUnc := q.asymUnc, input := q.input, edgeFall := q.edgeFall, todSel := q.todSel,
    freqSel := q.freqSel, todBaud := q.todBaud, ppsWin := q.ppsWin, cable := q.cable }

/-- Signpost's and Switchback's settings. -/
def signOff (g : SignSt) : SignSt :=
  { slots := g.slots.map slotOff, freqWin := g.freqWin, freqWinCold := g.freqWinCold, driftY := g.driftY, driftRate := g.driftRate,
    disagree := g.disagree, compareWin := g.compareWin, pathStepNs := g.pathStepNs, pref := g.pref, revertive := g.revertive,
    revertWait := g.revertWait, upgradeMargin := g.upgradeMargin, slope := g.slopeNext, slopeNext := g.slopeNext, acqStepMin := g.acqStepMin,
    lantern := g.lanternPending.getD g.lantern }

/-- A flywheel model: its priors and temperature source are settings, its coefficients come back from the saved model. -/
def modelOff (m : GuyModel) : GuyModel :=
  GuyModel.restore m { uY := m.pUY, uA1 := m.pUA1, uA2 := m.pUA2, uCT := m.pUCT, noiseY := m.noiseY, pUY := m.pUY, pUA1 := m.pUA1, pUA2 := m.pUA2,
                       pUCT := m.pUCT, tempAtom := m.tempAtom, tempSet := m.tempSet }

/-- Guyline's settings. -/
def guyOff (g : GuySt) : GuySt :=
  { main := modelOff g.main, atom := modelOff g.atom, atomEn := g.atomEn, uart := g.uart, oosLimit := g.oosLimit,
    policyContinue := g.policyContinue, learnRankMax := g.learnRankMax, learnMin := g.learnMin, learnRestore := g.learnRestore,
    tempSpan := g.tempSpan }

/-- A Milestone channel: its configuration without targets. -/
def evtOff (e : EvtCh) : EvtCh :=
  { dir := e.dir, kind := e.kind, cont := e.cont, pol := e.pol, edge := e.edge, irq := e.irq, width := e.width, inDelay := e.inDelay,
    per := e.per, perFrac := e.perFrac }

/-- Outputs and Milestone: their configuration. -/
def mileOff (m : MileSt) : MileSt :=
  { pps := m.pps.map fun p =>
      { en := p.en, inv := p.inv, acqQuiet := p.acqQuiet, width := p.width, cable := p.cable, outDelay := p.outDelay }
    freq := m.freq.map fun f =>
      { en := f.en, hcsl := f.hcsl, acqQuiet := f.acqQuiet, hz := f.hzNext.getD f.hz, cable := f.cable, outDelay := f.outDelay }
    tod := m.tod.map fun t => { en := t.en, utc := t.utc, baud := t.baud, delay := t.delay }
    evt := m.evt.map evtOff
    epochRate := m.epochNext.elim m.epochRate (·.1)
    epochEn := m.epochNext.elim m.epochEn (·.2) }

/-- The interval meter: its configuration; channels 0 to 5 stay armed for firmware. -/
def tdcOff (t : TdcSt) : TdcSt :=
  { ch := updAll t.ch fun n c =>
      { mode := c.mode, arm := c.arm && decide (n.1 < 6), cont := c.cont, irq := c.irq, tbInternal := c.tbInternal, startSrc := c.startSrc,
        startFall := c.startFall, stopSrc := c.stopSrc, stopFall := c.stopFall, timeout := c.timeout, count := c.count, skew := c.skew }
    tbNom := t.tbNom, tbEn := t.tbEn, calPeriod := t.calPeriod }

/-- Waypoint: LAUNCH_MARGIN, calibration and the two-step limits. -/
def waypOff (w : WaypSt) : WaypSt :=
  { margin := w.margin
    p := w.p.map fun q =>
      { txLat := q.txLat, rxLat := q.rxLat, calValid := q.calValid, planeConn := q.planeConn, records := q.records,
        tsqSlot := q.tsqSlot.map fun t => { limit := t.limit } } }

/-- Footbridge's settings, with the pins and the AON time. -/
def footOff (f : FootSt) : FootSt :=
  { footKeep f with
    en := f.en, autoHo := f.autoHo, annCount := f.annCount, leaseMs := f.leaseMs, xtalPpm := f.xtalPpm, guardBase := f.guardBase,
    annGap := f.annGap, readyPs := f.readyPs, asym := f.asym }

/-- Commands that wait for something in PD_TIME complete with BUSY; a measurement is cancelled (08 R178). -/
def timeWaiters (s : State) : State :=
  let s1 := tdcCancel 7 (tdcCancel 6 s)
  let s2 := s1.time.steps.foldl (fun s r => r.cmd.elim s fun c => complete c 0x122 1 [] s) s1
  let s3 := s2.mile.outCal.elim s2 fun k => complete k.cmd 0x403 1 [] s2
  (List.finRange 4).foldl (fun s p => (s.wayp.p[p].cal).elim s fun k => complete k.cmd (if k.loop_ then 0x613 else 0x612) 1 [] s) s3

/-- PD_TIME is gated. -/
def timeGate (s : State) : State :=
  let s1 := pertLive false (pertEnd (timeWaiters s))
  let s2 := [(2 : Fin 64), 4, 5, 6, 40, 41].foldl (fun s f => faultCond f false s) s1
  lanternFast { s2 with
    time := timeOff s2.time
    cairn := cairnOff s2.cairn
    sign := signOff s2.sign
    guy := guyOff s2.guy
    mile := mileOff s2.mile
    tdc := tdcOff s2.tdc
    wayp := waypOff s2.wayp
    foot := footOff s2.foot
    sys := { s2.sys with savedLk := s2.sys.savedLk ||| (s2.regs.lk &&& timeBlocks), lockRun := 0 }
    regs := timeRegs s2.regs }

/-- PD_CORE is gated: table contents are lost, and what was in the pipeline with them. -/
def coreGate (s : State) : State :=
  let s1 := (List.finRange 4).foldl (fun s p => dropLaunch p 4 (fun _ => true) (onWayp p (fun w => { w with waiting := [] }) s)) s
  let s2 : State := { s1 with
    serv := { s1.serv with tollgate := [], inflight := [], sweepPos := 0 }
    ptp := { s1.ptp with
      grants := [], nextHop := [], msgs := []
      client := s1.ptp.client.map fun k => { k with
        cands := k.cands.map fun d => { d with grantedAnn := none, grantedSync := none, grantedDresp := none, asked := [] }
        best := none, sync := none, syncPend := none, dreq := none, dreqSync := none } } }
  (List.finRange 8).foldl (fun s i => purgeDone i s) s2

/-- A channel's configuration values are part of the channel state that is lost. -/
def feOff (f : FeStream) : FeStream :=
  { en := f.en, format := f.format, qInv := f.qInv, iqSwap := f.iqSwap, capPhase := f.capPhase, feLat := f.feLat, ifHz := f.ifHz }

/-- PD_GNSS: what is set by command stays, channels, rings, banks and the guard's running state are lost. -/
def gnssOff (g : GnssSt) : GnssSt :=
  { clkEn := g.clkEn, spiMode3 := g.spiMode3, spiDiv := g.spiDiv, fe := g.fe.map feOff
    ring := g.ring.map fun r => { base := r.base, size := r.size, thr := r.thr }
    sigMask := g.sigMask, clusterMask := g.clusterMask, clusterEn := g.clusterEn, measBase := g.measBase
    posMode := g.posMode, pos := g.pos, posUnc := g.posUnc, surveyTime := g.surveyTime
    surveyLeft := if g.posMode == some false then g.surveyTime else 0
    delay0 := g.delay0, delay1 := g.delay1, delayUnc := g.delayUnc, traimLimit := g.traimLimit, traimMaxExcl := g.traimMaxExcl
    distLimit := g.distLimit, distMin := g.distMin, agcDev := g.agcDev
    guard := { en := g.guard.en, latch := g.guard.latch, spoofLimit := g.guard.spoofLimit, window := g.guard.window }
    burst := { exitCause := if g.burst.active then 3 else g.burst.exitCause, lead := g.burst.lead, w := g.burst.w, en := g.burst.en && !g.burst.active } }

/-- PD_GNSS is gated: REF_GNSS goes DISABLED with cause DOMAIN_GATED (02 R32, 04 R100, 10 R220). -/
def gnssGate (s : State) : State :=
  let spi := s.gnss.spi
  let s1 := slotSettle (slotDisable 0 0x02 { s with gnss := gnssOff s.gnss })
  let s2 := [(8 : Fin 64), 9, 12, 14].foldl (fun s f => faultCond f false s) s1
  spi.foldl (fun s t => t.cmd.elim s fun c => complete c 0x501 1 [] s) s2

/-- A domain is gated. -/
def gateOne (d : Fin 10) (s : State) : State :=
  if !powered s d.1 then s
  else
    let s1 := match d with
      | 1 => timeGate s
      | 3 => { s with host := { s.host with pcieUp := false } }
      | 4 => coreGate s
      | 6 => portOff 1 (portOff 0 s)
      | 7 => portOff 3 (portOff 2 s)
      | 8 => gnssGate s
      | 9 => vaultWipe s
      | _ => s
    { s1 with aon := { s1.aon with pwrOn := putBit s1.aon.pwrOn d.1 false } }

/-- Gating proceeds from the network domains towards PD_TIME (02 R34). -/
def gateOrder : List (Fin 10) := [6, 7, 8, 4, 5, 9, 3, 1]

/-- The domains of a mask are gated. -/
def gateMask (mask : BitVec 10) (s : State) : State :=
  gateOrder.foldl (fun s d => if mask.getLsbD d.1 then gateOne d s else s) s

/-! ## Checks of `ICP_POWER_GATE` (02 R32-R34, R48) -/

/-- Every domain of a set has the domains it requires. -/
def closed (on : BitVec 10) : Bool := (List.range 10).all fun d => !on.getLsbD d || requires d &&& ~~~on == 0#10

/-- The mode lets a domain be gated: the "Gated in" column (02 R32). -/
def gateMode (m : Mode) (d : Nat) : Bool :=
  match d with
  | 1 => m == .quiesce
  | 4 | 5 | 9 => m == .quiesce || m == .recovery
  | _ => m != .boot

/-- A domain is in use (02 R33, R48). -/
def gateBusy (s : State) (d : Nat) : Bool :=
  let region : Bool := contending s.sys.mode
  match d with
  | 3 => (List.finRange 8).any fun i => (pfOf s i).isSome
  | 6 => region && (portCarries s 0 || portCarries s 1)
  | 7 => region && (portCarries s 2 || portCarries s 3)
  | 8 => s.sign.sel == some 0
  | _ => false

/-- Some domain of a mask satisfies a test. -/
def anyDom (mask : BitVec 10) (test : Nat → Bool) : Bool := (List.range 10).any fun d => mask.getLsbD d && test d

/-- Checks of `ICP_POWER_GATE` in their order; one during another power-up is BUSY (DESIGN CHOICE, log 27). -/
def gateChecks (mask : BitVec 10) (on rsv : Bool) (s : State) : List (Bool × Nat) :=
  [(rsv || mask == 0#10 || mask &&& 5#10 != 0#10, stBadArg),
   (!on && anyDom mask fun d => !gateMode s.sys.mode d, stMode),
   (s.aon.pwrBusy || (!on && anyDom mask (gateBusy s)), stBusy),
   (!closed (if on then s.aon.pwrOn ||| mask else s.aon.pwrOn &&& ~~~mask), stOrder)]

/-- AON_PWR_STAT as a response shows it. -/
def pwrStat (s : State) : List Byte := le 4 (roAon s 0x14 ||| stickyOf s 8 (2 ^ 20 + 0x14)).toNat

/-- `ICP_POWER_GATE`: gating is carried out at once; a power-up completes once every domain is up (02 R34, R35, R48). -/
def execIcpPowerGate (c : CmdRef) (mask : BitVec 10) (on rsv : Bool) (s : State) : Out :=
  icp c 0x114 (fun s =>
    let st := firstFail (gateChecks mask on rsv s)
    let left := mask &&& ~~~s.aon.pwrOn
    if st ≠ stOk then .done st [] s
    else if !on then .done stOk (pwrStat (gateMask mask s)) (gateMask mask s)
    else if left = 0#10 then .done stOk (pwrStat s) s
    else .later { s with aon := { s.aon with pwrBusy := true, pwrReq := some { cmd := some c, left := left } } }) s

/-! ## Power-up (02 R35, R36) -/

/-- Firmware writes the settings of PD_TIME back: the locks, and the enables of the slots, which start over (02 R35). -/
def timeBack (s : State) : State :=
  let s1 : State := { s with
    regs := { s.regs with lk := s.regs.lk ||| s.sys.savedLk }
    sys := { s.sys with savedLk := 0#16 } }
  (List.finRange 12).foldl (fun s n =>
    let en := enableOf s n
    if en = 0 then s else enableSlot n en (onSlot n (fun q => { q with enable := 0 }) s)) s1

/-- What a domain does when it comes up. -/
def domainBack (d : Fin 10) (s : State) : State :=
  match d with
  | 1 => timeBack s
  | 3 => { s with host := { s.host with pcieUp := !s.host.perst } }
  | _ => s

/-- The sequencer's request ends. -/
def pwrEnd (s : State) : State := { s with aon := { s.aon with pwrBusy := false, pwrReq := none } }

/-- DOMAIN_POWER_UP_DONE: a domain of the request reaches power-good, those it requires before it (02 R34, R35). -/
def execDomainPowerUpDone (d : Fin 10) (s : State) : Out :=
  .next (match s.aon.pwrReq with
    | none => s
    | some q =>
      if !q.left.getLsbD d.1 || requires d.1 &&& ~~~s.aon.pwrOn != 0#10 then s
      else
        let left := putBit q.left d.1 false
        let s1 := domainBack d { s with aon := { s.aon with
          pwrOn := putBit s.aon.pwrOn d.1 true, pwrReq := some { q with left := left } } }
        if left != 0#10 then s1
        else
          let s2 := pwrEnd s1
          q.cmd.elim s2 fun c => complete c 0x114 stOk (pwrStat s2) s2)

/-- PG_FAIL of a domain sets with its fault (02 R36). -/
def pgFail (d : Fin 10) (s : State) : State :=
  let vital := d == 1 || d == 4 || d == 5
  faultEvent (if vital then 58 else 59) (raise 5 (sticky (2 ^ 20 + 0x14) (1#32 <<< (16 + d.1)) s))

/-- Start-up has just asked a domain to come up: PD_MGMT, PD_HOST and PD_VAULT at step 1, PD_TIME at step 3, the others at
step 8 (02 R39). -/
def bootWaits (s : State) (d : Nat) : Bool :=
  if s.aon.bootStep ≤ 2 then d == 2 || d == 9 || (d == 3 && s.aon.cause != 5)
  else if s.aon.bootStep = 3 then d == 1
  else s.aon.bootStep == 7 && decide (4 ≤ d) && decide (d ≤ 8)

/-- A domain does not come up at start-up: it is left gated (02 R36, R39). -/
def bootFail (d : Fin 10) (s : State) : State :=
  pgFail d { s with
    aon := { s.aon with pwrOn := putBit s.aon.pwrOn d.1 false, pgFailed := putBit s.aon.pgFailed d.1 true }
    host := { s.host with pcieUp := s.host.pcieUp && d != 3 } }

/-- POWER_GOOD_TIMEOUT: the domain stays gated, and the request that named it ends (02 R36); a domain that start-up powers
can fail too (02 R39). -/
def execPowerGoodTimeout (d : Fin 10) (s : State) : Out :=
  .next (match s.aon.pwrReq with
    | some q =>
      if !q.left.getLsbD d.1 then s
      else
        let s1 := pwrEnd (pgFail d s)
        q.cmd.elim s1 fun c => complete c 0x114 stBusy [] s1
    | none =>
      if bootWaits s d.1 && !s.aon.pgFailed.getLsbD d.1 then bootFail d s else s)

/-! ## Modes (02 R46-R48) -/

/-- `ICP_MODE_GET`. -/
def execIcpModeGet (c : CmdRef) (s : State) : Out :=
  icpGet c 0x110 (fun s =>
    le 1 (modeCode s.sys.mode) ++ le 1 (modeCode s.sys.prev) ++ le 1 s.sys.cause ++
    le 1 (bit (leaseHeld s) + 2 * bit (pertArmed s) + 4 * bit s.pert.live + 8 * bit s.aon.provN) ++ le 4 s.sys.secs) s

/-- A port's calibration record exists for the mode and FEC option in force (02 R48). -/
def calReady (s : State) (p : Fin 4) : Bool :=
  let q := s.port.p[p]
  q.mode == 0 || (calFind s p q.mode q.fec).isSome

/-- Every calibration record of the device, as the configuration area keeps it (23 R481). -/
def calAll (s : State) : List CalRec :=
  ((List.finRange 4).flatMap fun p => s.wayp.p[p].records.map fun r =>
    { kind := 0, idx := p.1 * 8 + r.1 * 2 + bit r.2.1, a := r.2.2.txLat, b := r.2.2.rxLat, c := r.2.2.unc, conn := r.2.2.conn, eq := r.2.2.eq }) ++
  ((List.finRange 4).map fun i => { kind := 1, idx := i.1, a := s.mile.pps[i].outDelay }) ++
  ((List.finRange 2).map fun i => { kind := 2, idx := i.1, a := s.mile.freq[i].outDelay }) ++
  ((List.finRange 16).map fun i => { kind := 3, idx := i.1, a := s.mile.evt[i].inDelay }) ++
  ((List.finRange 8).map fun i => { kind := 4, idx := i.1, a := s.tdc.ch[i].skew })

/-- `ICP_PROVISION_DONE` (02 R25, R48; 23 R481). -/
def execIcpProvisionDone (c : CmdRef) (s : State) : Out :=
  icpDo c 0x111
    (fun s => [(!s.aon.provN, stLocked),
      (!((List.finRange 4).all (calReady s) && (List.finRange 8).any fun i => !(slotKeys s i.1).isEmpty), stOrder)])
    (fun s => cfgUpdate (fun b => { b with done := true, slots := some (provision s), cal := some (calAll s) })
      { s with sys := { s.sys with provDone := true } })
    (fun _ => []) s

/-- `ICP_QUIESCE`, step 1: the lease is handed over, or given up under FORCE (02 R46). -/
def execIcpQuiesce (c : CmdRef) (force gate rsv : Bool) (s : State) : Out :=
  icp c 0x112 (fun s =>
    let st := firstFail [(rsv, stBadArg), (s.sys.quiesce.isSome, stBusy)]
    let s1 : State := { s with sys := { s.sys with quiesce := some { cmd := c, force := force, gate := gate } } }
    if st ≠ stOk then .done st [] s
    else if !s.foot.en || !holds s then .later (quiesceAdmit s1)
    else if s.foot.hPending then .later s1
    else if peerReady s then .later (startHandover 20 none s1)
    else if force then .later (relinquish 4 .follow s1)
    else .done stBusy [] s) s

/-- Nothing admitted is left in the pipelines. -/
def drained (s : State) : Bool :=
  s.serv.inflight.isEmpty && s.ptp.msgs.isEmpty && s.wayp.p.toList.all (·.launch.isEmpty)

/-- QUIESCE_DRAINED: at a moment that 07 R154 allows OE_TIMING and FB_OWN go low together, the final record is written and the
Trail Register is flushed (02 R46 steps 3 to 5); a lease taken back in the meantime is given up. -/
def execQuiesceDrained (off : BitVec 16) (s0 : State) : Out :=
  let s := atTick off s0
  .next (match s.sys.quiesce with
    | none => s0
    | some q =>
      if q.step != 3 || !drained s || (s.mile.oe && !oeMoment s s.time.odo) then s0
      else
        let s1 := if s.foot.en && holds s then relinquish 4 .follow s else s
        let s2 := ownLevel (setOe false { s1 with sys := { s1.sys with quiesceOwnLow := true } })
        let s3 := flushStart (guySave (cairnRecord false s2))
        { s3 with sys := { s3.sys with quiesce := some { q with
            step := 5, done := true, drainUs := (s.time.odo - q.startUs) * 128 / 100000 } } })

/-- `ICP_RESUME`: the mode follows at the next evaluation. -/
def execIcpResume (c : CmdRef) (s : State) : Out :=
  icpDo c 0x113 (fun _ => []) (fun s => { s with sys := { s.sys with resume := true } }) (fun _ => []) s

/-- `ICP_SYS_RESET`: COMMANDED_RESET follows 1 ms after the completion (02 R48). -/
def execIcpSysReset (c : CmdRef) (confirm : Word) (s : State) : Out :=
  icpDo c 0x115 (fun _ => [(confirm != 0xB0070001#32, stBadArg)])
    (fun s => { s with sys := { s.sys with resetArmed := true } }) (fun _ => []) s

/-- `ICP_MODE_CONFIG`. -/
def execIcpModeConfig (c : CmdRef) (phase : Word) (dwell : BitVec 16) (rsv : Bool) (s : State) : Out :=
  icpDo c 0x116
    (fun _ => [(rsv || phase == 0#32 || dwell == 0#16, stBadArg),
      (outside phase.toNat 10 10000 || outside dwell.toNat 1 600, stRange)])
    (fun s => { s with sys := { s.sys with lockPhase := phase.toNat, lockDwell := dwell.toNat } })
    (fun _ => []) s

end Sys2Proof.Machine
end

