-- ==== Sys2Proof/Machine/Boundary.lean ====
section
/-!
DEFINITION. The steering boundary (01 R12): the increments in force, steps, the mode evaluation, holdover, Switchback,
ERRB_CORE and Cairn's event records; and the second boundary (07 R147).
-/
namespace Sys2Proof.Machine
open Sys2Proof

/-! ## The counter at a boundary (01 R12, 03 R51) -/

/-- The boundary tick: the counter has advanced by a whole period, and what was committed in the period before last takes
effect. -/
def advance (s : State) : State :=
  let b := s.time.bOdo + periodTicks
  { s with
    time := { s.time with
      cnt := cntAt s b, bOdo := b, odo := b
      incr := s.time.incrNext, incrNext := s.time.incrReg, slew := s.time.slewNext, slewNext := s.time.slewReg, stepped := false, landed := false }
    sign := { s.sign with slope := s.sign.slopeNext }
    guy := { s.guy with flyTime := flyAt s b, flyInc := incrOf (flyPred s b) } }

/-! ## Mode evaluation (02 R25-R29) -/

/-- The servo's phase error against the selected slot lies within ±LOCK_PHASE (02 R26). -/
def phaseLocked (s : State) : Bool :=
  s.sign.sel.elim false fun n =>
    ((servoErrors s.sign.slots[n]).head?).elim false fun e => decide (e.natAbs ≤ s.sys.lockPhase * 1000)

/-- One more steering period within the limit, or none. -/
def lockCount (s : State) : State :=
  { s with sys := { s.sys with lockRun := if phaseLocked s then satU 32 (s.sys.lockRun + 1) else 0 } }

/-- The error has stayed within the limit for LOCK_DWELL: a period is 83,886.08 ns. -/
def dwelt (s : State) : Bool := decide (s.sys.lockDwell * 100000000000 ≤ (s.sys.lockRun - 1) * 8388608)

/-- No perturbation stands against SERVE (02 R29). -/
def pertClear (s : State) : Bool := !pertArmed s || s.pert.live

/-- All SERVE entry conditions hold (02 R26). -/
def serveReady (s : State) : Bool :=
  s.sign.sel.isSome && decide (0 < s.sys.lockRun) && dwelt s && leaseHeld s && pertClear s && !severeLine s

/-- Some slot other than REF_PEER is QUALIFIED. -/
def otherQualified (s : State) : Bool := (List.finRange 12).any fun n => n != 11 && s.sign.slots[n].state == .qualified

/-- The transition that a lease change or a reference change makes (02 R25). -/
def leaseOrRef (s : State) : Option (Mode × Nat) :=
  match s.sys.mode with
  | .acquire =>
    if s.foot.en && s.foot.lstate == .follow then some (.standby, 0x25)
    else if serveReady s then some (.serve, 0x20) else none
  | .serve =>
    if !leaseHeld s then some (.standby, 0x26)
    else if s.sign.sel.isNone then some (.holdover, 0x21) else none
  | .holdover =>
    if !leaseHeld s then some (.standby, 0x26)
    else if s.sign.sel.isSome && pertClear s && !severeLine s then some (.serve, 0x22) else none
  | .standby =>
    if !leaseHeld s then none
    else if !pertClear s || !s.foot.refPeerSel then some (.acquire, 0x29)
    else if otherQualified s then some (.serve, 0x27) else some (.holdover, 0x28)
  | .boot | .provision | .recovery | .quiesce => none

/-- `ICP_QUIESCE` has done its steps 1 to 5 and the flush has ended (02 R46). -/
def quiesceReady (s : State) : Bool := s.sys.quiesce.elim false fun q => q.done && !s.trail.flushing

/-- The transition of an evaluation, by priority (02 R27). -/
def modeNext (s : State) : Option (Mode × Nat) :=
  if s.sys.mode == .recovery then none
  else if s.sys.fatalPending then some (.recovery, 0x24)
  else if s.sys.degradePending && (s.sys.mode == .serve || s.sys.mode == .holdover) then some (.acquire, 0x23)
  else if contending s.sys.mode && quiesceReady s then some (.quiesce, 0x30)
  else if s.sys.mode == .quiesce && s.sys.resume then some (.acquire, 0x31)
  else if s.sys.mode == .provision && s.sys.provDone then some (.acquire, 0x16)
  else leaseOrRef s

/-- Step 6 of `ICP_QUIESCE`: gating, and the completion (02 R46). -/
def quiesceEnd (s : State) : State :=
  match s.sys.quiesce with
  | none => s
  | some q =>
    let s1 : State := { s with sys := { s.sys with quiesce := none, admissionStopped := false } }
    let s2 := if q.gate then gateMask 0x1F0#10 s1 else s1
    complete q.cmd 0x112 stOk (le 4 q.dropped ++ le 4 q.drainUs) s2

/-- A holder degraded to ACQUIRE hands over to a READY peer (15 R345). -/
def autoHandover (s : State) : State :=
  if s.foot.en && s.foot.autoHo && s.foot.lstate == .hold && !s.foot.hPending && peerReady s then startHandover 20 none s else s

/-- What a transition brings with it at its boundary. DESIGN CHOICE: the selection is computed again at every mode change, which
uses PREF_CHANGED up (log 175). -/
def modeEffects (m : Mode) (cause : Nat) (s : State) : State :=
  let old := s.sys.mode
  let s1 := enterMode m cause s
  let s2 := if old == .holdover then holdExit s1 else s1
  let s3 := if m == .recovery then signStop s2 else peerFollow s2
  let s4 := reselect s3
  let s5 := if m == .holdover then holdEnter s4.time.bOdo s4 else s4
  let s6 := if m == .quiesce then quiesceEnd s5 else s5
  if cause = 0x23 then autoHandover s6 else s6

/-- The mode evaluation: a degrade fault met in STANDBY beside a lease take decides again at the next boundary (02 R27). -/
def modeEval (s : State) : State :=
  let s0 := lockCount s
  if !s.sys.mgmtFwRunning then s0
  else
    let keep := s0.sys.degradePending && s0.sys.mode == .standby && leaseHeld s0
    let s1 := match modeNext s0 with
      | some (m, cause) => modeEffects m cause s0
      | none => s0
    { s1 with sys := { s1.sys with
      degradePending := keep && s1.sys.mode != .recovery
      resume := false, provDone := false, fatalPending := s1.sys.fatalPending && s1.sys.mode != .recovery } }

/-! ## Steps (03 R54, R60; 05 R113) -/

/-- Applies the steps due; the outputs follow, and a step forward across LEAP_AT applies the leap. -/
def boundarySteps (s : State) : State :=
  let s1 := stepsAt s
  if !s1.time.stepped then s1
  else
    let crossed := s1.time.leap.isSome && decide (secOf s.time.cnt < s1.time.leapAt) && decide (s1.time.leapAt ≤ secOf s1.time.cnt)
    outStep s.time.cnt (if crossed then applyLeap s1 else s1)

/-! ## Holdover (06 R130, R136, R137) -/

/-- Guyline at a boundary while the device runs on its flywheel: the flywheel, the second that has passed, the increment for
the period after next (06 R130; 05 R107). -/
def holdPeriod (second : Bool) (s : State) : State :=
  let s0 := flyFollow s
  if !flying s0 then s0
  else
    let s1 := holdSwitch s0.time.bOdo s0
    let s2 := if second then holdSecond s1 else s1
    commitIncr (incrOf (flyFreq s2 (s2.time.bOdo + 2 * periodTicks))) { s2 with
      guy := { s2.guy with lastHold := holdQuarters (holdAt s2 (s2.time.bOdo + periodTicks)) } }

/-- Sources 4, 5 and 6 follow Guyline's conditions (21 R443). -/
def guyLines (s : State) : State :=
  faultCond 6 (!modelTempOk s (flyAtom s)) (faultCond 5 (s.guy.atomEn && !s.guy.atomPresent) (faultCond 4 s.guy.oos s))

/-! ## ERRB_CORE (03 R62, R63, R65) -/

/-- ASYM of a selected slot: its own uncertainty when it is a PTP slot, its contributions, and those another slot held when
it was left, which count until SWB has reached 0 (03 R62, R63). -/
def asymTerm (s : State) (n : Fin 12) : Nat :=
  let q := s.sign.slots[n]
  let tails := (List.finRange 12).map fun m => if m != n then s.sign.slots[m].contribTail else 0
  (if isPtp n then q.asymUnc else 0) + q.contrib + tails.sum

/-- SERVO of a selected slot. -/
def servoTerm (q : SignSlot) : Nat :=
  cdiv ((servoErrors q).foldl (fun a e => max a e.natAbs) 0) 250 + q.noiseUnc

/-- SWB: the phase still to pull (03 R62). -/
def swbTerm (s : State) : Nat := satE (cdiv s.sign.p.natAbs 250000000000)

/-- The six terms: those of the selected slot; with none selected those of the last selection, SWB the pull that remained
and stands still, and HOLD as Guyline, which supplies the increment, predicts it (03 R62, 05 R107). -/
def errbTerms (s : State) : Vector Nat 6 :=
  match s.sign.sel with
  | some n =>
    let q := s.sign.slots[n]
    ((#v[q.unc, servoTerm q, 0, asymTerm s n, dispUnits s, 0] : Vector Nat 6).map satE).set 5 (swbTerm s)
  | none => (s.time.terms.set 5 (swbTerm s)).set 2 (if flying s then s.guy.lastHold else s.time.terms[2])

/-- Publishes ERRB_CORE for the period that starts. -/
def errbCompose (s : State) : State :=
  let t := errbTerms s
  let s1 : State := { s with time := { s.time with terms := t } }
  setErrb (if !s.time.selectedOnce || s.time.stepped then 0xFFFFFFFF else satE t.toList.sum) s1

/-! ## The boundary -/

/-- An event record, at most 16 in a second (03 R66); an event of this boundary is recorded at it (DEDUCED, log 38). -/
def cairnBoundary (s : State) : State :=
  if s.cairn.pendingEvent && decide (s.cairn.eventsThisSec < 16) then
    let s1 := cairnRecord true s
    { s1 with cairn := { s1.cairn with pendingEvent := false, eventsThisSec := s1.cairn.eventsThisSec + 1 } }
  else s

/-- From the first boundary at or after H less 200 µs the holder counts as not holding for admission (15 R343 step 4). -/
def fenceLease (s : State) : State :=
  if s.foot.lstate == .handover && s.foot.h.elim false (fun h => decide ((h - 200000) * nsU ≤ s.time.cnt)) then
    { s with foot := { s.foot with fenced := true } }
  else s

/-- A periodic record falls due, or does not, at a boundary (03 R66). -/
def cairnDue (passed : Bool) (s : State) : State := { s with cairn := { s.cairn with due := passed || periodLanded s } }

/-- STEERING_BOUNDARY: every 65,536 ticks of a running time base (01 R12). -/
def boundary (s : State) : State :=
  let s1 := advance s
  let second := secOf s.time.cnt != secOf s1.time.cnt && flying s
  let s2 := holdPeriod second (modeEval s1)
  let s3 := cairnDue (periodPassed s s.time.cnt s1.time.cnt) (mileTai (boundarySteps s2))
  let s4 := swbPeriod (errbCompose s3)
  let s5 := burstWatch (guyWatch (guyLines (holdCompare s4)))
  slotSettle (cairnBoundary (conflictCheck (lanternAll (outFollow (fenceLease (readySet (readyLive s5) s5))))))

/-- STEERING_BOUNDARY (01 R12). -/
def execSteeringBoundary (s : State) : Out := .next (if timeUp s then boundary s else s)

/-- SECOND_BOUNDARY: the counter reaches the next whole second within the present steering period (07 R147). -/
def execSecondBoundary (s : State) : Out :=
  let t := nextSecond s
  let tick := tickOf s t
  .next (if !timeUp s || decide (s.time.bOdo + periodTicks < tick) then s
    else
      let s1 : State := { s with
        time := { s.time with odo := max s.time.odo tick, landed := false }
        cairn := { s.cairn with eventsThisSec := 0 } }
      let s2 := outSecond t s1
      let s3 := clientSecond (calSecond (4 * tick) (if gnssUp s2 then gnssSecond (guyTemps s2) else guyTemps s2))
      (List.finRange 4).foldl (fun s p => if portUp s p then portSecond p s else s) s3)

end Sys2Proof.Machine
end

