-- ==== Sys2Proof/Machine/Dispatch.lean ====
section
/-!
DEFINITION. The dispatch of commands to their meanings, one arm per row of the opcode table, in its order.
-/
namespace Sys2Proof.Machine
open Sys2Proof

def exec (i : Instr) (s : State) : Host.Outcome State Fault Refusal :=
  match i with
  | .powerOnReset provN unitB => Sys2Proof.Machine.execPowerOnReset provN unitB s
  | .resetNAssert provN unitB => Sys2Proof.Machine.execResetNAssert provN unitB s
  | .watchdogExpiry => Sys2Proof.Machine.execWatchdogExpiry s
  | .wdogWarn => Sys2Proof.Machine.execWdogWarn s
  | .ridgepoleLossOfLock => Sys2Proof.Machine.execRidgepoleLossOfLock s
  | .oscMainCheck khz => Sys2Proof.Machine.execOscMainCheck khz s
  | .ridgepoleLock => Sys2Proof.Machine.execRidgepoleLock s
  | .trailheadStart pufFails => Sys2Proof.Machine.execTrailheadStart pufFails s
  | .firmwareStart want => Sys2Proof.Machine.execFirmwareStart want s
  | .slotLoss k => Sys2Proof.Machine.execSlotLoss k s
  | .faultLineRise src => Sys2Proof.Machine.execFaultLineRise src s
  | .powerGoodTimeout dom => Sys2Proof.Machine.execPowerGoodTimeout dom s
  | .domainPowerUpDone dom => Sys2Proof.Machine.execDomainPowerUpDone dom s
  | .steeringBoundary => Sys2Proof.Machine.execSteeringBoundary s
  | .secondBoundary => Sys2Proof.Machine.execSecondBoundary s
  | .slotEvaluation f0 f1 => Sys2Proof.Machine.execSlotEvaluation f0 f1 s
  | .holdoffExpiry n => Sys2Proof.Machine.execHoldoffExpiry n s
  | .revertWaitExpiry => Sys2Proof.Machine.execRevertWaitExpiry s
  | .driftWindowEnd d => Sys2Proof.Machine.execDriftWindowEnd d s
  | .asymCheckEnd n => Sys2Proof.Machine.execAsymCheckEnd n s
  | .todinMessage line ms bytes => Sys2Proof.Machine.execTodinMessage line ms bytes s
  | .todQualityTimeout n => Sys2Proof.Machine.execTodQualityTimeout n s
  | .stepPermitExpiry => Sys2Proof.Machine.execStepPermitExpiry s
  | .lanternHoldExpiry pin => Sys2Proof.Machine.execLanternHoldExpiry pin s
  | .leapApply => Sys2Proof.Machine.execLeapApply s
  | .smearWindowEdge slot idx => Sys2Proof.Machine.execSmearWindowEdge slot idx s
  | .timeIncrCommit hi => Sys2Proof.Machine.execTimeIncrCommit hi s
  | .timeSlewCommit hi => Sys2Proof.Machine.execTimeSlewCommit hi s
  | .nowLatchRead rd off => Sys2Proof.Machine.execNowLatchRead rd off s
  | .odometerRead rd off => Sys2Proof.Machine.execOdometerRead rd off s
  | .snapshotGo rd off => Sys2Proof.Machine.execSnapshotGo rd off s
  | .snapshotRead rd => Sys2Proof.Machine.execSnapshotRead rd s
  | .cairnPeriodicRecord => Sys2Proof.Machine.execCairnPeriodicRecord s
  | .cairnSignDone ok => Sys2Proof.Machine.execCairnSignDone ok s
  | .learnWindowEnd freq => Sys2Proof.Machine.execLearnWindowEnd freq s
  | .atomAbsent => Sys2Proof.Machine.execAtomAbsent s
  | .atomUartPoll => Sys2Proof.Machine.execAtomUartPoll s
  | .atomUartResponse bytes => Sys2Proof.Machine.execAtomUartResponse bytes s
  | .tempLost uart => Sys2Proof.Machine.execTempLost uart s
  | .guylineModelSave => Sys2Proof.Machine.execGuylineModelSave s
  | .tempSample temp => Sys2Proof.Machine.execTempSample temp s
  | .todoutMessage line => Sys2Proof.Machine.execTodoutMessage line s
  | .oeTimingChange off ck => Sys2Proof.Machine.execOeTimingChange off ck s
  | .milestoneFire n => Sys2Proof.Machine.execMilestoneFire n s
  | .evtCapture n off eighth falling => Sys2Proof.Machine.execEvtCapture n off eighth falling s
  | .mileArmWrite rd n val => Sys2Proof.Machine.execMileArmWrite rd n val s
  | .capturePop rd n => Sys2Proof.Machine.execCapturePop rd n s
  | .measEpoch => Sys2Proof.Machine.execMeasEpoch s
  | .outCalibrateDone loopPs rms ok => Sys2Proof.Machine.execOutCalibrateDone loopPs rms ok s
  | .tdcResult ch deltaFs gap tbOpen => Sys2Proof.Machine.execTdcResult ch deltaFs gap tbOpen s
  | .tdcTimeout ch => Sys2Proof.Machine.execTdcTimeout ch s
  | .tdcDllUnlock ch => Sys2Proof.Machine.execTdcDllUnlock ch s
  | .tdcDllLock ch => Sys2Proof.Machine.execTdcDllLock ch s
  | .tdcCalibration ch => Sys2Proof.Machine.execTdcCalibration ch s
  | .timebasePresence which present => Sys2Proof.Machine.execTimebasePresence which present s
  | .tdcArmWrite rd ch val => Sys2Proof.Machine.execTdcArmWrite rd ch val s
  | .tdcResultPop rd ch => Sys2Proof.Machine.execTdcResultPop rd ch s
  | .dumpBoundary ch samples => Sys2Proof.Machine.execDumpBoundary ch samples s
  | .forcedBoundary ch samples => Sys2Proof.Machine.execForcedBoundary ch samples s
  | .feMagPeriod st samples => Sys2Proof.Machine.execFeMagPeriod st samples s
  | .channelEnable ch ctrl w => Sys2Proof.Machine.execChannelEnable ch ctrl w s
  | .channelApply ch w => Sys2Proof.Machine.execChannelApply ch w s
  | .gnssSpiDone rx => Sys2Proof.Machine.execGnssSpiDone rx s
  | .measBankClaim bank => Sys2Proof.Machine.execMeasBankClaim bank s
  | .gnssSolution rep residuals => Sys2Proof.Machine.execGnssSolution rep residuals s
  | .distortionCheck inp => Sys2Proof.Machine.execDistortionCheck inp s
  | .agcCheck => Sys2Proof.Machine.execAgcCheck s
  | .guardWindowEnd => Sys2Proof.Machine.execGuardWindowEnd s
  | .surveyComplete x y z unc => Sys2Proof.Machine.execSurveyComplete x y z unc s
  | .snapshotEnter => Sys2Proof.Machine.execSnapshotEnter s
  | .burstWindowOpen => Sys2Proof.Machine.execBurstWindowOpen s
  | .burstWindowClose => Sys2Proof.Machine.execBurstWindowClose s
  | .snapshotExit => Sys2Proof.Machine.execSnapshotExit s
  | .frameReceive f => Sys2Proof.Machine.execFrameReceive f s
  | .xoffRepeat p => Sys2Proof.Machine.execXoffRepeat p s
  | .xonSend p => Sys2Proof.Machine.execXonSend p s
  | .pauseTimerExpiry p => Sys2Proof.Machine.execPauseTimerExpiry p s
  | .pauseWatchdogTrip p => Sys2Proof.Machine.execPauseWatchdogTrip p s
  | .pcsLoss p => Sys2Proof.Machine.execPcsLoss p s
  | .linkUp p => Sys2Proof.Machine.execLinkUp p s
  | .serdesPllLoss p => Sys2Proof.Machine.execSerdesPllLoss p s
  | .syncePhaseMeasure p phasePs cdrLock ppmOk => Sys2Proof.Machine.execSyncePhaseMeasure p phasePs cdrLock ppmOk s
  | .esmcEventPdu p => Sys2Proof.Machine.execEsmcEventPdu p s
  | .hostTxDescriptor p d => Sys2Proof.Machine.execHostTxDescriptor p d s
  | .hostFrameSent p => Sys2Proof.Machine.execHostFrameSent p s
  | .reservationRetry p => Sys2Proof.Machine.execReservationRetry p s
  | .reservationDeadline p id => Sys2Proof.Machine.execReservationDeadline p id s
  | .launchPoolDeadline p late => Sys2Proof.Machine.execLaunchPoolDeadline p late s
  | .frameLaunch p => Sys2Proof.Machine.execFrameLaunch p s
  | .tsqPop rd p => Sys2Proof.Machine.execTsqPop rd p s
  | .tsqLostRead rd p => Sys2Proof.Machine.execTsqLostRead rd p s
  | .waypCalDone p => Sys2Proof.Machine.execWaypCalDone p s
  | .ntsCryptoDone id => Sys2Proof.Machine.execNtsCryptoDone id s
  | .creditRateUpdate => Sys2Proof.Machine.execCreditRateUpdate s
  | .tollgateScrubVisit b => Sys2Proof.Machine.execTollgateScrubVisit b s
  | .cryptoSelfTest aesOk shaOk => Sys2Proof.Machine.execCryptoSelfTest aesOk shaOk s
  | .grantVisit idx off => Sys2Proof.Machine.execGrantVisit idx off s
  | .mcastVisit k p off => Sys2Proof.Machine.execMcastVisit k p off s
  | .clientRenewal c cand kind => Sys2Proof.Machine.execClientRenewal c cand kind s
  | .clientRequestRetry c cand => Sys2Proof.Machine.execClientRequestRetry c cand s
  | .clientDelayReqSend c => Sys2Proof.Machine.execClientDelayReqSend c s
  | .clientAnnounceTimeout c cand => Sys2Proof.Machine.execClientAnnounceTimeout c cand s
  | .heartbeatSend off ck => Sys2Proof.Machine.execHeartbeatSend off ck s
  | .heartbeatReceive f off ck => Sys2Proof.Machine.execHeartbeatReceive f off ck s
  | .heartbeatMiss ck => Sys2Proof.Machine.execHeartbeatMiss ck s
  | .fbLinkDown ck => Sys2Proof.Machine.execFbLinkDown ck s
  | .fbOffer f ck => Sys2Proof.Machine.execFbOffer f ck s
  | .fbAccept f ck => Sys2Proof.Machine.execFbAccept f ck s
  | .fbAbort off => Sys2Proof.Machine.execFbAbort off s
  | .acceptTimeout ck => Sys2Proof.Machine.execAcceptTimeout ck s
  | .handoverInstant off ck => Sys2Proof.Machine.execHandoverInstant off ck s
  | .plannedTake off ck => Sys2Proof.Machine.execPlannedTake off ck s
  | .handoverRetake off ck => Sys2Proof.Machine.execHandoverRetake off ck s
  | .leaseRelinquish off ck => Sys2Proof.Machine.execLeaseRelinquish off ck s
  | .expiryTake ck => Sys2Proof.Machine.execExpiryTake ck s
  | .relinquishTake ck => Sys2Proof.Machine.execRelinquishTake ck s
  | .coldStartTake ck => Sys2Proof.Machine.execColdStartTake ck s
  | .retakeTake ck => Sys2Proof.Machine.execRetakeTake ck s
  | .deferredTake ck => Sys2Proof.Machine.execDeferredTake ck s
  | .peerownChange high ck => Sys2Proof.Machine.execPeerownChange high ck s
  | .addressAnnounceRound => Sys2Proof.Machine.execAddressAnnounceRound s
  | .remaskVisit k flips => Sys2Proof.Machine.execRemaskVisit k flips s
  | .rngReseed failed passed => Sys2Proof.Machine.execRngReseed failed passed s
  | .ecdsaSelfTest ok => Sys2Proof.Machine.execEcdsaSelfTest ok s
  | .keyStoreCommit ok => Sys2Proof.Machine.execKeyStoreCommit ok s
  | .keyDrained k => Sys2Proof.Machine.execKeyDrained k s
  | .keyCommandTimeout off => Sys2Proof.Machine.execKeyCommandTimeout off s
  | .vaultReload => Sys2Proof.Machine.execVaultReload s
  | .quiesceDrained off => Sys2Proof.Machine.execQuiesceDrained off s
  | .requestPiWrite slot val => Sys2Proof.Machine.execRequestPiWrite slot val s
  | .commandDispatch slot hdr => Sys2Proof.Machine.execCommandDispatch slot hdr s
  | .completionCiWrite slot val => Sys2Proof.Machine.execCompletionCiWrite slot val s
  | .mboxEnable slot val => Sys2Proof.Machine.execMboxEnable slot val s
  | .sleepSet slot => Sys2Proof.Machine.execSleepSet slot s
  | .sleepClear slot => Sys2Proof.Machine.execSleepClear slot s
  | .moderationTimeout slot off => Sys2Proof.Machine.execModerationTimeout slot off s
  | .hostSpiWrite addr data part => Sys2Proof.Machine.execHostSpiWrite addr data part s
  | .hostSpiRead addr n late => Sys2Proof.Machine.execHostSpiRead addr n late s
  | .hostSpiStatus => Sys2Proof.Machine.execHostSpiStatus s
  | .smbusSetPointer p pec => Sys2Proof.Machine.execSmbusSetPointer p pec s
  | .smbusBlockWrite data pec => Sys2Proof.Machine.execSmbusBlockWrite data pec s
  | .smbusBlockRead pec => Sys2Proof.Machine.execSmbusBlockRead pec s
  | .smbusAlertResponse => Sys2Proof.Machine.execSmbusAlertResponse s
  | .registerWrite rd addr be val => Sys2Proof.Machine.execRegisterWrite rd addr be val s
  | .aliasSetWrite rd addr val => Sys2Proof.Machine.execAliasSetWrite rd addr val s
  | .aliasClrWrite rd addr val => Sys2Proof.Machine.execAliasClrWrite rd addr val s
  | .aliasTglWrite rd addr val => Sys2Proof.Machine.execAliasTglWrite rd addr val s
  | .lockSet rd blk => Sys2Proof.Machine.execLockSet rd blk s
  | .stickyRead rd addr => Sys2Proof.Machine.execStickyRead rd addr s
  | .reportRead rd addr => Sys2Proof.Machine.execReportRead rd addr s
  | .reportAck rd blk val => Sys2Proof.Machine.execReportAck rd blk val s
  | .multiwordFirstRead rd addr off => Sys2Proof.Machine.execMultiwordFirstRead rd addr off s
  | .indDataRead rd => Sys2Proof.Machine.execIndDataRead rd s
  | .indDataWrite rd val => Sys2Proof.Machine.execIndDataWrite rd val s
  | .icuClaim rd => Sys2Proof.Machine.execIcuClaim rd s
  | .icuComplete rd val => Sys2Proof.Machine.execIcuComplete rd val s
  | .icuPendRaise rd k val => Sys2Proof.Machine.execIcuPendRaise rd k val s
  | .icuPendWithdraw rd k val => Sys2Proof.Machine.execIcuPendWithdraw rd k val s
  | .injectionEnd src ck => Sys2Proof.Machine.execInjectionEnd src ck s
  | .injectionResample src ck => Sys2Proof.Machine.execInjectionResample src ck s
  | .trailFlushPeriodic => Sys2Proof.Machine.execTrailFlushPeriodic s
  | .trailFlushDone fail => Sys2Proof.Machine.execTrailFlushDone fail s
  | .perfDump off => Sys2Proof.Machine.execPerfDump off s
  | .perturbExpiry k off => Sys2Proof.Machine.execPerturbExpiry k off s
  | .icpHello c majors => Sys2Proof.Machine.execIcpHello c majors s
  | .icpModeGet c => Sys2Proof.Machine.execIcpModeGet c s
  | .icpProvisionDone c => Sys2Proof.Machine.execIcpProvisionDone c s
  | .icpQuiesce c force gate rsv => Sys2Proof.Machine.execIcpQuiesce c force gate rsv s
  | .icpResume c => Sys2Proof.Machine.execIcpResume c s
  | .icpPowerGate c mask on rsv => Sys2Proof.Machine.execIcpPowerGate c mask on rsv s
  | .icpSysReset c confirm => Sys2Proof.Machine.execIcpSysReset c confirm s
  | .icpModeConfig c phase dwell rsv => Sys2Proof.Machine.execIcpModeConfig c phase dwell rsv s
  | .icpTimeGet c off => Sys2Proof.Machine.execIcpTimeGet c off s
  | .icpLeapSet c a => Sys2Proof.Machine.execIcpLeapSet c a s
  | .icpTimeStep c a => Sys2Proof.Machine.execIcpTimeStep c a s
  | .icpStepPermit c window rsv => Sys2Proof.Machine.execIcpStepPermit c window rsv s
  | .icpSlotConfig c a => Sys2Proof.Machine.execIcpSlotConfig c a s
  | .icpSlotInfo c => Sys2Proof.Machine.execIcpSlotInfo c s
  | .icpSlotList c => Sys2Proof.Machine.execIcpSlotList c s
  | .icpRefConfig c a => Sys2Proof.Machine.execIcpRefConfig c a s
  | .icpRefPpsInput c a => Sys2Proof.Machine.execIcpRefPpsInput c a s
  | .icpRefThresh c a => Sys2Proof.Machine.execIcpRefThresh c a s
  | .icpRefStatus c => Sys2Proof.Machine.execIcpRefStatus c s
  | .icpRefClear c slot rsv => Sys2Proof.Machine.execIcpRefClear c slot rsv s
  | .icpRefAsym c slot comp unc rsv => Sys2Proof.Machine.execIcpRefAsym c slot comp unc rsv s
  | .icpSelConfig c a => Sys2Proof.Machine.execIcpSelConfig c a s
  | .icpSwbConfig c slope acq => Sys2Proof.Machine.execIcpSwbConfig c slope acq s
  | .icpLanternConfig c a => Sys2Proof.Machine.execIcpLanternConfig c a s
  | .icpHoldConfig c a => Sys2Proof.Machine.execIcpHoldConfig c a s
  | .icpHoldOscConfig c a => Sys2Proof.Machine.execIcpHoldOscConfig c a s
  | .icpHoldStatus c => Sys2Proof.Machine.execIcpHoldStatus c s
  | .icpHoldReset c main atom rsv => Sys2Proof.Machine.execIcpHoldReset c main atom rsv s
  | .icpAtomUartConfig c a => Sys2Proof.Machine.execIcpAtomUartConfig c a s
  | .icpPpsConfig c a => Sys2Proof.Machine.execIcpPpsConfig c a s
  | .icpFreqConfig c a => Sys2Proof.Machine.execIcpFreqConfig c a s
  | .icpTodConfig c a => Sys2Proof.Machine.execIcpTodConfig c a s
  | .icpOutCalibrate c a => Sys2Proof.Machine.execIcpOutCalibrate c a s
  | .icpMileArm c a => Sys2Proof.Machine.execIcpMileArm c a s
  | .icpMileDisarm c pin rsv => Sys2Proof.Machine.execIcpMileDisarm c pin rsv s
  | .icpMileCaptureConfig c a => Sys2Proof.Machine.execIcpMileCaptureConfig c a s
  | .icpEpochConfig c rate enable rsv => Sys2Proof.Machine.execIcpEpochConfig c rate enable rsv s
  | .icpOutStatus c => Sys2Proof.Machine.execIcpOutStatus c s
  | .icpTdcConfig c a => Sys2Proof.Machine.execIcpTdcConfig c a s
  | .icpTdcMeasure c ch rsv => Sys2Proof.Machine.execIcpTdcMeasure c ch rsv s
  | .icpTdcTimebase c enable nom rsv => Sys2Proof.Machine.execIcpTdcTimebase c enable nom rsv s
  | .icpTdcCalConfig c period rsv => Sys2Proof.Machine.execIcpTdcCalConfig c period rsv s
  | .icpTdcSkew c ch skew rsv => Sys2Proof.Machine.execIcpTdcSkew c ch skew rsv s
  | .icpTdcStatus c => Sys2Proof.Machine.execIcpTdcStatus c s
  | .icpGnssFeConfig c a => Sys2Proof.Machine.execIcpGnssFeConfig c a s
  | .icpGnssFeSpi c a => Sys2Proof.Machine.execIcpGnssFeSpi c a s
  | .icpGnssSignals c sigs clusters rsv => Sys2Proof.Machine.execIcpGnssSignals c sigs clusters rsv s
  | .icpGnssChanStatus c first count rsv => Sys2Proof.Machine.execIcpGnssChanStatus c first count rsv s
  | .icpGnssMeasGet c => Sys2Proof.Machine.execIcpGnssMeasGet c s
  | .icpGnssPosition c a => Sys2Proof.Machine.execIcpGnssPosition c a s
  | .icpGnssSolStatus c => Sys2Proof.Machine.execIcpGnssSolStatus c s
  | .icpGnssDelay c d0 d1 unc rsv => Sys2Proof.Machine.execIcpGnssDelay c d0 d1 unc rsv s
  | .icpGnssIntegrityConfig c a => Sys2Proof.Machine.execIcpGnssIntegrityConfig c a s
  | .icpGnssGuardConfig c a => Sys2Proof.Machine.execIcpGnssGuardConfig c a s
  | .icpGnssGuardRelease c => Sys2Proof.Machine.execIcpGnssGuardRelease c s
  | .icpGnssBurst c a => Sys2Proof.Machine.execIcpGnssBurst c a s
  | .icpPortConfig c a => Sys2Proof.Machine.execIcpPortConfig c a s
  | .icpPortStatus c port rsv => Sys2Proof.Machine.execIcpPortStatus c port rsv s
  | .icpPortPauseConfig c a => Sys2Proof.Machine.execIcpPortPauseConfig c a s
  | .icpPortEsmcConfig c a => Sys2Proof.Machine.execIcpPortEsmcConfig c a s
  | .icpPortRingConfig c a => Sys2Proof.Machine.execIcpPortRingConfig c a s
  | .icpWaypConfig c margin rsv => Sys2Proof.Machine.execIcpWaypConfig c margin rsv s
  | .icpWaypTsqLimit c slot port limit rsv => Sys2Proof.Machine.execIcpWaypTsqLimit c slot port limit rsv s
  | .icpWaypCalPulse c port n rsv => Sys2Proof.Machine.execIcpWaypCalPulse c port n rsv s
  | .icpWaypLoopback c tx rx n rsv => Sys2Proof.Machine.execIcpWaypLoopback c tx rx n rsv s
  | .icpWaypCalSet c a => Sys2Proof.Machine.execIcpWaypCalSet c a s
  | .icpServAddrSet c a => Sys2Proof.Machine.execIcpServAddrSet c a s
  | .icpServAddrDel c idx rsv => Sys2Proof.Machine.execIcpServAddrDel c idx rsv s
  | .icpServAddrList c => Sys2Proof.Machine.execIcpServAddrList c s
  | .icpServConfig c a => Sys2Proof.Machine.execIcpServConfig c a s
  | .icpServSlotLimit c slot limit rsv => Sys2Proof.Machine.execIcpServSlotLimit c slot limit rsv s
  | .icpServStatus c => Sys2Proof.Machine.execIcpServStatus c s
  | .icpNtsMint c a => Sys2Proof.Machine.execIcpNtsMint c a s
  | .icpPtpClockConfig c ident => Sys2Proof.Machine.execIcpPtpClockConfig c ident s
  | .icpPtpInstanceSet c a => Sys2Proof.Machine.execIcpPtpInstanceSet c a s
  | .icpPtpInstanceDel c idx rsv => Sys2Proof.Machine.execIcpPtpInstanceDel c idx rsv s
  | .icpPtpQuota c slot grants rate rsv => Sys2Proof.Machine.execIcpPtpQuota c slot grants rate rsv s
  | .icpPtpBudget c budget => Sys2Proof.Machine.execIcpPtpBudget c budget s
  | .icpPtpStatus c => Sys2Proof.Machine.execIcpPtpStatus c s
  | .icpPtpGrantRead c first count rsv => Sys2Proof.Machine.execIcpPtpGrantRead c first count rsv s
  | .icpPtpGrantLoad c count recs rsv => Sys2Proof.Machine.execIcpPtpGrantLoad c count recs rsv s
  | .icpPtpGrantCancel c inst rsv => Sys2Proof.Machine.execIcpPtpGrantCancel c inst rsv s
  | .icpPtpClientConfig c a => Sys2Proof.Machine.execIcpPtpClientConfig c a s
  | .icpFbConfig c a => Sys2Proof.Machine.execIcpFbConfig c a s
  | .icpFbStatus c => Sys2Proof.Machine.execIcpFbStatus c s
  | .icpFbHandover c lead rsv => Sys2Proof.Machine.execIcpFbHandover c lead rsv s
  | .icpFbAsym c asym => Sys2Proof.Machine.execIcpFbAsym c asym s
  | .icpFbTake c confirm => Sys2Proof.Machine.execIcpFbTake c confirm s
  | .icpNtsKeyInstall c a => Sys2Proof.Machine.execIcpNtsKeyInstall c a s
  | .icpNtsKeyRotate c num => Sys2Proof.Machine.execIcpNtsKeyRotate c num s
  | .icpNtsKeyInvalidate c a => Sys2Proof.Machine.execIcpNtsKeyInvalidate c a s
  | .icpNtsKeyList c => Sys2Proof.Machine.execIcpNtsKeyList c s
  | .icpPtpKeyInstall c a => Sys2Proof.Machine.execIcpPtpKeyInstall c a s
  | .icpPtpKeyRotate c spp keyId rsv => Sys2Proof.Machine.execIcpPtpKeyRotate c spp keyId rsv s
  | .icpPtpKeyInvalidate c a => Sys2Proof.Machine.execIcpPtpKeyInvalidate c a s
  | .icpPtpKeyList c => Sys2Proof.Machine.execIcpPtpKeyList c s
  | .icpIdGet c => Sys2Proof.Machine.execIcpIdGet c s
  | .icpAttest c nonce => Sys2Proof.Machine.execIcpAttest c nonce s
  | .icpKeyEnroll c confirm => Sys2Proof.Machine.execIcpKeyEnroll c confirm s
  | .icpIdCertSet c len cert rsv => Sys2Proof.Machine.execIcpIdCertSet c len cert rsv s
  | .icpVaultConfig c period rsv => Sys2Proof.Machine.execIcpVaultConfig c period rsv s
  | .icpVaultStatus c => Sys2Proof.Machine.execIcpVaultStatus c s
  | .icpFwStatus c => Sys2Proof.Machine.execIcpFwStatus c s
  | .icpFwBegin c bank rsv => Sys2Proof.Machine.execIcpFwBegin c bank rsv s
  | .icpFwWrite c a => Sys2Proof.Machine.execIcpFwWrite c a s
  | .icpFwFinish c activate rsv => Sys2Proof.Machine.execIcpFwFinish c activate rsv s
  | .icpFwCommit c force rsv => Sys2Proof.Machine.execIcpFwCommit c force rsv s
  | .icpFaultStatus c => Sys2Proof.Machine.execIcpFaultStatus c s
  | .icpFaultConfig c source severity rsv => Sys2Proof.Machine.execIcpFaultConfig c source severity rsv s
  | .icpFaultInject c a => Sys2Proof.Machine.execIcpFaultInject c a s
  | .icpTrailRead c a => Sys2Proof.Machine.execIcpTrailRead c a s
  | .icpTrailFlush c period rsv => Sys2Proof.Machine.execIcpTrailFlush c period rsv s
  | .icpCairnConfig c period events flash rsv => Sys2Proof.Machine.execIcpCairnConfig c period events flash rsv s
  | .icpCairnLast c => Sys2Proof.Machine.execIcpCairnLast c s
  | .icpPerfRead c a => Sys2Proof.Machine.execIcpPerfRead c a s
  | .icpPerfDumpConfig c a => Sys2Proof.Machine.execIcpPerfDumpConfig c a s
  | .icpPerfAcl c op aud => Sys2Proof.Machine.execIcpPerfAcl c op aud s
  | .icpPerturbArm c a => Sys2Proof.Machine.execIcpPerturbArm c a s
  | .icpPerturbLive c val => Sys2Proof.Machine.execIcpPerturbLive c val s
  | .commandedReset => Sys2Proof.Machine.execCommandedReset s
  | .pcsUp p => Sys2Proof.Machine.execPcsUp p s
  | .autonegRestart p => Sys2Proof.Machine.execAutonegRestart p s
  | .serdesPllRelock p => Sys2Proof.Machine.execSerdesPllRelock p s
  | .finePhaseTrackLost p => Sys2Proof.Machine.execFinePhaseTrackLost p s
  | .finePhaseTrackRegained p => Sys2Proof.Machine.execFinePhaseTrackRegained p s
  | .pcieConfigWrite pf busMaster d0 pmeEn l2 => Sys2Proof.Machine.execPcieConfigWrite pf busMaster d0 pmeEn l2 s
  | .perstNRelease => Sys2Proof.Machine.execPerstNRelease s

end Sys2Proof.Machine
end

