-- ==== Sys2Proof/Safety.lean ====
section
/-!
DEFINITION. What counts as a safe run of the block, in the terms claims use.
-/
namespace Sys2Proof.Machine
open Sys2Proof

/-- The block completes a step: neither a fault nor a refusal. -/
def Completes (s : State) : Prop := ∃ t, step s = .next t

/-- A command completes on a state. -/
def Runs (c : Instr) (s : State) : Prop := ∃ t, exec c s = .next t

/-- The fault severities are as 21 R444 and R449 bound them: 0 to 3, 0 for a reserved source, 3 for the three fixed sources. -/
def SeveritiesOk (s : State) : Prop :=
  (∀ i : Fin 64, s.fault.sev[i] ≤ 3) ∧ (∀ i : Fin 64, faultReserved i.1 = true → s.fault.sev[i] = 0) ∧
  s.fault.sev[0] = 3 ∧ s.fault.sev[57] = 3 ∧ s.fault.sev[58] = 3

/-- Every sparse memory and table has its canonical form: the sticky words, the counters, the Tollgate table, the grant and
next-hop tables, the generations of the PTP rings, the image banks of flash, and the ring windows of SPI and SMBus slots. -/
def MapsOk (s : State) : Prop :=
  mwf 0#32 s.regs.sticky = true ∧ mwf 0 s.perf.cnt = true ∧ mwf ({} : Bucket) s.serv.tollgate = true ∧
  mwf ({} : Grant) s.ptp.grants = true ∧ mwf 0#48 s.ptp.nextHop = true ∧ mwf 1#32 s.vault.ptpRingGen = true ∧
  mwf 0xFF#8 s.flash.image = true ∧ ∀ i : Fin 8, mwf 0#8 s.host.mbox[i].win = true

/-- What every step keeps: bounded severities, canonical memories, and a power-cycle count of 32 bits. -/
def Inv (s : State) : Prop := SeveritiesOk s ∧ MapsOk s ∧ s.aon.pcycle ≤ 0xFFFFFFFF

end Sys2Proof.Machine
end

