-- ==== Sys2Proof/Certificates/Slice0/Obligations.lean ====
section
/-!
DEFINITION. The statements about the model, one per rule or group of rules, for the provers. What a statement uses beyond the
model stands before it. `Ready` says when a command is taken and its answer fits the slot's ring.
-/
namespace Sys2Proof.Claims
open Sys2Proof Sys2Proof.Machine

/-- A command is taken: Ridgepole is locked, and no check before the command's own turns it away (01 R19; 16 R358; 18 R405). -/
abbrev Taken (c : CmdRef) (op : Nat) (s : State) : Prop := s.aon.locked = true ∧ gate c op s = none

/-- A command is taken and an answer of `n` bytes fits its slot's completion ring (18 R408). -/
def Ready (c : CmdRef) (op n : Nat) (s : State) : Prop := Taken c op s ∧ fitsRing s c.slot n = true

/-- The command completes with OK and payload `p` after the effect `t` (18 R402). -/
def ok (c : CmdRef) (op : Nat) (p : List Byte) (t : State) : Out := .next (complete c op stOk p t)

/-- The command completes with OK and an answer of `n` bytes, and has no other effect. -/
def Reads (i : Instr) (c : CmdRef) (op n : Nat) (s : State) : Prop := ∃ p, p.length = n ∧ exec i s = ok c op p s

/-- The time block may be used: the time base runs and the access is permitted (16 R366; 19 R418). -/
def MayUse (rd : Fin 9) (a : Nat) (write : Bool) (s : State) : Prop := timeUp s = true ∧ decideAccess s rd a write = .ok

/-- The time block's state in one tick, as the NOW latch holds it (03 R55). -/
def latchOf (s : State) : NowLatch :=
  { ns := nsOf (cntNow s), frac := fracOf (cntNow s), sec := secOf (cntNow s), odo := BitVec.ofNat 64 s.time.odo
    errb := s.time.errb, latched := true, odoHi := w32 (s.time.odo / 2 ^ 32) }

/-- What every reset but power-on retains (02 R38), in BOOT with the previous mode recorded. -/
def RetainsR38 (s t : State) : Prop :=
  t.sys.mode = .boot ∧ t.sys.prev = s.sys.mode ∧ t.aon.pcycle = s.aon.pcycle ∧ t.aon.ophrs = s.aon.ophrs ∧
  t.aon.bankFail = s.aon.bankFail ∧ t.aon.bootTries = s.aon.bootTries ∧ t.aon.fatalSource = s.aon.fatalSource ∧
  t.aon.fatalValid = s.aon.fatalValid ∧ t.aon.fatalMode = s.aon.fatalMode ∧ t.fault.sev = s.fault.sev ∧
  t.flash = s.flash ∧ t.pending = s.pending

/-- A key command joins the queue of key-store updates (17 R380). -/
def Queues (i : Instr) (c : CmdRef) (k : KeyOp) (s : State) : Prop :=
  exec i s = .next (keyNext { s with vault := { s.vault with queue := s.vault.queue ++ [{ cmd := c, op := k, at_ := s.time.odo }] } })

/-- A register write is carried out, denied or ignored as the access is decided (16 R366). -/
def Stores (i : Instr) (rd : Fin 9) (a : Nat) (v : Word) (s : State) : Prop :=
  (decideAccess s rd a true = .ok → exec i s = .next (regStore rd a v (countReg rd 1 a s))) ∧
  (decideAccess s rd a true = .denied → exec i s = .next (denyAccess rd 2 a (countReg rd 2 a s))) ∧
  (decideAccess s rd a true = .nothing → exec i s = .next s)

/-- A permitted register read gives the word `act` answers and has its effect; one that nothing answers gives zero. -/
def Gives (i : Instr) (rd : Fin 9) (a : Nat) (act : State → Word × State) (s : State) : Prop :=
  (decideAccess s rd a false = .ok → exec i s = .next (give rd (act (countReg rd 0 a s)).1 (act (countReg rd 0 a s)).2)) ∧
  (decideAccess s rd a false = .nothing → exec i s = .next (give rd 0#32 s)) ∧
  (decideAccess s rd a false = .denied → ∃ k, exec i s = .next (give rd 0#32 (denyAccess rd k a (countReg rd 2 a s))))

/-- The parts of the state; what is waiting is apart, no command touches it. -/
inductive StatePart where
  | aon | time | cairn | sign | guy | mile | tdc | gnss | port | wayp | serv | ptp | foot | vault | flash | host |
  slots | regs | icu | trail | fault | perf | pert | sys
  deriving DecidableEq, Repr

/-- A part is the same in two states. -/
def StatePart.same (p : StatePart) (s t : State) : Prop :=
  match p with
  | .aon => t.aon = s.aon
  | .time => t.time = s.time
  | .cairn => t.cairn = s.cairn
  | .sign => t.sign = s.sign
  | .guy => t.guy = s.guy
  | .mile => t.mile = s.mile
  | .tdc => t.tdc = s.tdc
  | .gnss => t.gnss = s.gnss
  | .port => t.port = s.port
  | .wayp => t.wayp = s.wayp
  | .serv => t.serv = s.serv
  | .ptp => t.ptp = s.ptp
  | .foot => t.foot = s.foot
  | .vault => t.vault = s.vault
  | .flash => t.flash = s.flash
  | .host => t.host = s.host
  | .slots => t.slots = s.slots
  | .regs => t.regs = s.regs
  | .icu => t.icu = s.icu
  | .trail => t.trail = s.trail
  | .fault => t.fault = s.fault
  | .perf => t.perf = s.perf
  | .pert => t.pert = s.pert
  | .sys => t.sys = s.sys

/-- What posting a completion, or counting a denial, can touch: the ring, the slot's denials, the interrupt controller, the
Trail Register and its sticky words. -/
def answerParts : List StatePart := [.host, .slots, .regs, .icu, .trail]

/-- What a fault's reaction can touch (21 R444): beside its record and interrupt, the mode, the outputs and the lease. -/
def faultParts : List StatePart :=
  [.aon, .cairn, .sign, .mile, .port, .wayp, .serv, .ptp, .foot, .host, .slots, .regs, .icu, .trail, .fault, .perf, .sys]

/-- Every part. -/
def everyPart : List StatePart := [.time, .guy, .tdc, .gnss, .vault, .flash, .pert] ++ faultParts

/-- The parts a command may change; every other part it leaves as it was. -/
def mayChange : Instr → List StatePart
  | .powerOnReset .. | .resetNAssert .. | .watchdogExpiry | .ridgepoleLossOfLock | .faultLineRise .. |
    .icpFaultInject .. | .commandedReset => everyPart
  | .oscMainCheck .. => [.aon, .regs, .trail]
  | .domainPowerUpDone .. => [.aon, .sign, .host, .regs, .icu, .sys]
  | .cairnPeriodicRecord => [.cairn]
  | .surveyComplete .. => [.gnss, .flash, .host, .icu]
  | .snapshotExit => [.gnss, .host, .regs, .icu]
  | .guylineModelSave => [.guy, .flash]
  | .atomUartPoll => [.guy]
  | .pcieConfigWrite .. => [.host, .icu]
  | .outCalibrateDone .. => [.mile, .tdc, .host, .icu]
  | .smearWindowEdge .. => [.serv, .host, .regs, .icu]
  | .creditRateUpdate => [.serv]
  | .injectionEnd .. => [.sign, .foot, .fault]
  | .driftWindowEnd .. => [.sign, .guy, .host, .regs, .icu]
  | .syncePhaseMeasure .. => [.sign, .port]
  | .timebasePresence .. => [.tdc, .host, .icu]
  | .tdcCalibration .. => [.tdc]
  | .leapApply => [.time, .cairn, .host, .regs, .icu]
  | .plannedTake .. => [.time, .cairn, .sign, .foot, .host, .regs, .icu, .trail, .sys]
  | .revertWaitExpiry => [.time, .cairn, .sign, .guy, .host, .regs, .icu, .trail, .sys]
  | .heartbeatSend .. => [.time, .foot, .host, .icu, .pert]
  | .perturbExpiry .. => [.time, .host, .icu, .pert]
  | .moderationTimeout .. => [.time, .host]
  | .todoutMessage .. => [.time, .mile]
  | .perfDump .. => [.time, .regs, .perf]
  | .timeSlewCommit .. => [.time, .regs]
  | .todinMessage .. => [.time, .sign, .mile, .regs]
  | .clientAnnounceTimeout .. => [.time, .sign, .ptp, .host, .regs, .icu]
  | .keyCommandTimeout .. => [.time, .vault, .host, .icu]
  | .trailFlushPeriodic => [.trail]
  | .keyDrained .. => [.vault, .host, .icu]
  | .waypCalDone .. => [.wayp, .host, .icu]
  | .icpFbTake .. => answerParts ++ [.cairn, .sign, .foot]
  | .icpCairnConfig .. => answerParts ++ [.cairn]
  | .icpProvisionDone .. => answerParts ++ [.flash, .sys]
  | .icpGnssPosition .. => answerParts ++ [.gnss, .flash]
  | .icpOutCalibrate .. => answerParts ++ [.mile, .tdc]
  | .icpPerfRead .. => answerParts ++ [.port, .perf]
  | .reservationRetry .. => answerParts ++ [.port, .wayp, .serv, .ptp, .perf, .pert]
  | .ntsCryptoDone .. => answerParts ++ [.port, .wayp, .serv, .ptp, .vault, .perf, .pert]
  | .icpPortEsmcConfig .. => answerParts ++ [.port]
  | .icpServAddrDel .. => answerParts ++ [.serv, .ptp]
  | .icpFaultConfig .. => answerParts ++ [.sign, .fault]
  | .icpPtpClientConfig .. => answerParts ++ [.sign, .port, .wayp, .ptp, .perf, .pert]
  | .secondBoundary => answerParts ++ [.time, .cairn, .guy, .mile, .gnss, .port, .wayp, .ptp, .perf]
  | .addressAnnounceRound => answerParts ++ [.time, .port, .wayp, .foot, .perf]
  | .icpWaypCalSet .. => answerParts ++ [.time, .port, .wayp]
  | .icpNtsMint .. => answerParts ++ [.vault, .perf]
  | .firmwareStart .. => faultParts ++ [.guy, .tdc, .gnss, .vault, .pert]
  | .tempSample .. => faultParts ++ [.guy, .vault]
  | .cryptoSelfTest .. => faultParts ++ [.pert]
  | .quiesceDrained .. => faultParts ++ [.time, .guy, .flash]
  | .slotEvaluation .. => faultParts ++ [.time, .guy, .gnss]
  | .frameReceive .. => faultParts ++ [.time, .pert]
  | .icpSlotConfig .. => faultParts ++ [.vault, .flash, .pert]
  | .cairnSignDone .. => faultParts ++ [.vault, .flash]
  | .trailheadStart .. => faultParts ++ [.vault, .pert]
  | .fbOffer .. | .fbAccept .. => [.foot]
  | .gnssSpiDone .. | .distortionCheck .. => [.gnss, .host, .icu]
  | .tdcResult .. | .tdcTimeout .. => [.sign, .guy, .tdc, .foot, .host, .regs, .icu]
  | .holdoffExpiry .. | .asymCheckEnd .. => [.time, .cairn, .sign, .guy, .gnss, .host, .regs, .icu, .trail, .sys]
  | .burstWindowOpen | .burstWindowClose => [.time, .gnss]
  | .milestoneFire .. | .evtCapture .. => [.time, .mile, .host, .regs, .icu]
  | .icpFbHandover .. | .icpFbAsym .. => answerParts ++ [.foot]
  | .mileArmWrite .. | .capturePop .. => answerParts ++ [.mile, .perf]
  | .icpPerfDumpConfig .. | .icpPerfAcl .. => answerParts ++ [.perf]
  | .icpPerturbArm .. | .icpPerturbLive .. => answerParts ++ [.pert]
  | .icpPtpInstanceDel .. | .icpPtpGrantCancel .. => answerParts ++ [.port, .wayp, .ptp, .perf, .pert]
  | .tdcArmWrite .. | .tdcResultPop .. => answerParts ++ [.tdc, .perf]
  | .pauseTimerExpiry .. | .hostFrameSent .. => answerParts ++ [.time, .port, .wayp, .perf]
  | .icpFwBegin .. | .icpFwWrite .. => answerParts ++ [.vault, .flash]
  | .tsqPop .. | .tsqLostRead .. => answerParts ++ [.wayp, .perf]
  | .tdcDllUnlock .. | .tdcDllLock .. => faultParts ++ [.tdc]
  | .measEpoch | .gnssSolution .. => faultParts ++ [.time, .gnss]
  | .steeringBoundary | .icpPowerGate .. => faultParts ++ [.time, .guy, .tdc, .gnss, .vault, .pert]
  | .hostSpiStatus | .smbusAlertResponse | .perstNRelease => [.host]
  | .todQualityTimeout .. | .stepPermitExpiry | .lanternHoldExpiry .. => [.sign]
  | .icpServAddrSet .. | .icpServConfig .. | .icpServSlotLimit .. => answerParts ++ [.serv]
  | .icpResume .. | .icpSysReset .. | .icpModeConfig .. => answerParts ++ [.sys]
  | .icpTimeGet .. | .icpLeapSet .. | .icpTimeStep .. => answerParts ++ [.time]
  | .learnWindowEnd .. | .atomAbsent | .atomUartResponse .. | .tempLost .. => [.guy, .host, .regs, .icu]
  | .icpHoldConfig .. | .icpHoldOscConfig .. | .icpHoldReset .. | .icpAtomUartConfig .. => answerParts ++ [.guy]
  | .icpPtpClockConfig .. | .icpPtpInstanceSet .. | .icpPtpQuota .. | .icpPtpGrantLoad .. => answerParts ++ [.ptp]
  | .nowLatchRead .. | .odometerRead .. | .snapshotGo .. | .snapshotRead .. => answerParts ++ [.time, .perf]
  | .icpWaypConfig .. | .icpWaypTsqLimit .. | .icpWaypCalPulse .. | .icpWaypLoopback .. => answerParts ++ [.wayp]
  | .expiryTake .. | .relinquishTake .. | .coldStartTake .. | .retakeTake .. | .deferredTake .. => [.cairn, .sign,
    .foot, .host, .regs, .icu, .trail]
  | .channelEnable .. | .channelApply .. | .measBankClaim .. | .guardWindowEnd | .snapshotEnter => [.gnss]
  | .grantVisit .. | .mcastVisit .. | .clientRenewal .. | .clientRequestRetry .. | .clientDelayReqSend .. => [.time,
    .port, .wayp, .ptp, .perf, .pert]
  | .xoffRepeat .. | .xonSend .. | .esmcEventPdu .. | .hostTxDescriptor .. | .icpPortRingConfig .. => answerParts ++
    [.port, .wayp, .perf]
  | .icpTdcConfig .. | .icpTdcMeasure .. | .icpTdcTimebase .. | .icpTdcCalConfig .. | .icpTdcSkew .. => answerParts ++
    [.tdc]
  | .icpGnssFeConfig .. | .icpGnssFeSpi .. | .icpGnssSignals .. | .icpGnssDelay .. | .icpGnssIntegrityConfig .. |
    .icpGnssBurst .. => answerParts ++ [.gnss]
  | .smbusBlockRead .. | .stickyRead .. | .reportRead .. | .multiwordFirstRead .. | .indDataRead .. | .icuClaim .. =>
    answerParts ++ [.time, .mile, .tdc, .gnss, .wayp, .perf]
  | .dumpBoundary .. | .forcedBoundary .. | .feMagPeriod .. | .agcCheck | .icpGnssGuardConfig .. |
    .icpGnssGuardRelease .. => faultParts ++ [.gnss]
  | .icpPpsConfig .. | .icpFreqConfig .. | .icpTodConfig .. | .icpMileArm .. | .icpMileDisarm .. |
    .icpMileCaptureConfig .. | .icpEpochConfig .. => answerParts ++ [.mile]
  | .remaskVisit .. | .rngReseed .. | .ecdsaSelfTest .. | .keyStoreCommit .. | .vaultReload | .icpAttest .. |
    .icpFwFinish .. => faultParts ++ [.vault]
  | .icpStepPermit .. | .icpRefConfig .. | .icpRefPpsInput .. | .icpRefThresh .. | .icpRefClear .. | .icpRefAsym .. |
    .icpSelConfig .. | .icpSwbConfig .. | .icpLanternConfig .. => answerParts ++ [.sign]
  | .icpNtsKeyInstall .. | .icpNtsKeyRotate .. | .icpNtsKeyInvalidate .. | .icpPtpKeyInstall .. | .icpPtpKeyRotate ..
    | .icpPtpKeyInvalidate .. | .icpKeyEnroll .. | .icpIdCertSet .. | .icpVaultConfig .. | .icpFwCommit .. =>
    answerParts ++ [.vault]
  | .timeIncrCommit .. | .oeTimingChange .. | .pauseWatchdogTrip .. | .reservationDeadline .. | .launchPoolDeadline ..
    | .frameLaunch .. | .heartbeatReceive .. | .fbAbort .. | .handoverInstant .. | .handoverRetake .. |
    .leaseRelinquish .. | .icpPortConfig .. => faultParts ++ [.time]
  | .hostSpiWrite .. | .hostSpiRead .. | .smbusBlockWrite .. | .registerWrite .. | .aliasSetWrite .. |
    .aliasClrWrite .. | .aliasTglWrite .. | .lockSet .. | .reportAck .. | .indDataWrite .. | .icuComplete .. |
    .icuPendRaise .. | .icuPendWithdraw .. => faultParts ++ [.time, .tdc, .gnss]
  | .commandDispatch .. | .icpHello .. | .icpModeGet .. | .icpSlotInfo .. | .icpSlotList .. | .icpRefStatus .. |
    .icpHoldStatus .. | .icpOutStatus .. | .icpTdcStatus .. | .icpGnssChanStatus .. | .icpGnssMeasGet .. |
    .icpGnssSolStatus .. | .icpPortStatus .. | .icpServAddrList .. | .icpServStatus .. | .icpPtpStatus .. |
    .icpPtpGrantRead .. | .icpFbStatus .. | .icpNtsKeyList .. | .icpPtpKeyList .. | .icpIdGet .. | .icpVaultStatus .. |
    .icpFwStatus .. | .icpFaultStatus .. | .icpTrailRead .. | .icpTrailFlush .. | .icpCairnLast .. => answerParts
  | .wdogWarn | .ridgepoleLock | .slotLoss .. | .powerGoodTimeout .. | .pcsLoss .. | .linkUp .. | .serdesPllLoss .. |
    .tollgateScrubVisit .. | .heartbeatMiss .. | .fbLinkDown .. | .acceptTimeout .. | .peerownChange .. |
    .requestPiWrite .. | .completionCiWrite .. | .mboxEnable .. | .sleepSet .. | .sleepClear .. | .smbusSetPointer .. |
    .injectionResample .. | .trailFlushDone .. | .icpQuiesce .. | .icpPortPauseConfig .. | .icpPtpBudget .. |
    .icpFbConfig .. | .pcsUp .. | .autonegRestart .. | .serdesPllRelock .. | .finePhaseTrackLost .. |
    .finePhaseTrackRegained .. => faultParts

/-- What an access to IND_DATA does to the addresses (19 R424). -/
def AddrStepped (i : Fin 9) (s t : State) : Prop :=
  t.regs.indAddr[i].toNat = (if s.regs.indInc[i] then (s.regs.indAddr[i].toNat + 4) % 2 ^ 28 else s.regs.indAddr[i].toNat) ∧
  (∀ j : Fin 9, j ≠ i → t.regs.indAddr[j] = s.regs.indAddr[j]) ∧ t.regs.indInc = s.regs.indInc

/-- The slot reference and the opcode of an ICP command (18 R414). -/
def icpOf : Instr → Option (CmdRef × Nat)
  | .icpHello c .. => some (c, 0x100) | .icpModeGet c => some (c, 0x110) | .icpProvisionDone c => some (c, 0x111)
  | .icpQuiesce c .. => some (c, 0x112) | .icpResume c => some (c, 0x113) | .icpPowerGate c .. => some (c, 0x114)
  | .icpSysReset c .. => some (c, 0x115) | .icpModeConfig c .. => some (c, 0x116)
  | .icpTimeGet c .. => some (c, 0x120) | .icpLeapSet c .. => some (c, 0x121) | .icpTimeStep c .. => some (c, 0x122)
  | .icpStepPermit c .. => some (c, 0x123) | .icpSlotConfig c .. => some (c, 0x130)
  | .icpSlotInfo c => some (c, 0x131) | .icpSlotList c => some (c, 0x132) | .icpRefConfig c .. => some (c, 0x200)
  | .icpRefPpsInput c .. => some (c, 0x201) | .icpRefThresh c .. => some (c, 0x202)
  | .icpRefStatus c => some (c, 0x203) | .icpRefClear c .. => some (c, 0x204) | .icpRefAsym c .. => some (c, 0x205)
  | .icpSelConfig c .. => some (c, 0x206) | .icpSwbConfig c .. => some (c, 0x207)
  | .icpLanternConfig c .. => some (c, 0x440) | .icpHoldConfig c .. => some (c, 0x300)
  | .icpHoldOscConfig c .. => some (c, 0x301) | .icpHoldStatus c => some (c, 0x302)
  | .icpHoldReset c .. => some (c, 0x303) | .icpAtomUartConfig c .. => some (c, 0x304)
  | .icpPpsConfig c .. => some (c, 0x400) | .icpFreqConfig c .. => some (c, 0x401)
  | .icpTodConfig c .. => some (c, 0x402) | .icpOutCalibrate c .. => some (c, 0x403)
  | .icpMileArm c .. => some (c, 0x410) | .icpMileDisarm c .. => some (c, 0x411)
  | .icpMileCaptureConfig c .. => some (c, 0x412) | .icpEpochConfig c .. => some (c, 0x413)
  | .icpOutStatus c => some (c, 0x414) | .icpTdcConfig c .. => some (c, 0x420)
  | .icpTdcMeasure c .. => some (c, 0x421) | .icpTdcTimebase c .. => some (c, 0x422)
  | .icpTdcCalConfig c .. => some (c, 0x423) | .icpTdcSkew c .. => some (c, 0x424)
  | .icpTdcStatus c => some (c, 0x425) | .icpGnssFeConfig c .. => some (c, 0x500)
  | .icpGnssFeSpi c .. => some (c, 0x501) | .icpGnssSignals c .. => some (c, 0x502)
  | .icpGnssChanStatus c .. => some (c, 0x503) | .icpGnssMeasGet c => some (c, 0x504)
  | .icpGnssPosition c .. => some (c, 0x505) | .icpGnssSolStatus c => some (c, 0x506)
  | .icpGnssDelay c .. => some (c, 0x507) | .icpGnssIntegrityConfig c .. => some (c, 0x508)
  | .icpGnssGuardConfig c .. => some (c, 0x509) | .icpGnssGuardRelease c => some (c, 0x50A)
  | .icpGnssBurst c .. => some (c, 0x50B) | .icpPortConfig c .. => some (c, 0x600)
  | .icpPortStatus c .. => some (c, 0x601) | .icpPortPauseConfig c .. => some (c, 0x602)
  | .icpPortEsmcConfig c .. => some (c, 0x603) | .icpPortRingConfig c .. => some (c, 0x604)
  | .icpWaypConfig c .. => some (c, 0x610) | .icpWaypTsqLimit c .. => some (c, 0x611)
  | .icpWaypCalPulse c .. => some (c, 0x612) | .icpWaypLoopback c .. => some (c, 0x613)
  | .icpWaypCalSet c .. => some (c, 0x614) | .icpServAddrSet c .. => some (c, 0x700)
  | .icpServAddrDel c .. => some (c, 0x701) | .icpServAddrList c => some (c, 0x702)
  | .icpServConfig c .. => some (c, 0x703) | .icpServSlotLimit c .. => some (c, 0x704)
  | .icpServStatus c => some (c, 0x705) | .icpNtsMint c .. => some (c, 0x710)
  | .icpPtpClockConfig c .. => some (c, 0x800) | .icpPtpInstanceSet c .. => some (c, 0x801)
  | .icpPtpInstanceDel c .. => some (c, 0x802) | .icpPtpQuota c .. => some (c, 0x803)
  | .icpPtpBudget c .. => some (c, 0x804) | .icpPtpStatus c => some (c, 0x805)
  | .icpPtpGrantRead c .. => some (c, 0x806) | .icpPtpGrantLoad c .. => some (c, 0x807)
  | .icpPtpGrantCancel c .. => some (c, 0x808) | .icpPtpClientConfig c .. => some (c, 0x810)
  | .icpFbConfig c .. => some (c, 0x900) | .icpFbStatus c => some (c, 0x901) | .icpFbHandover c .. => some (c, 0x902)
  | .icpFbAsym c .. => some (c, 0x903) | .icpFbTake c .. => some (c, 0x904)
  | .icpNtsKeyInstall c .. => some (c, 0xA00) | .icpNtsKeyRotate c .. => some (c, 0xA01)
  | .icpNtsKeyInvalidate c .. => some (c, 0xA02) | .icpNtsKeyList c => some (c, 0xA03)
  | .icpPtpKeyInstall c .. => some (c, 0xA10) | .icpPtpKeyRotate c .. => some (c, 0xA11)
  | .icpPtpKeyInvalidate c .. => some (c, 0xA12) | .icpPtpKeyList c => some (c, 0xA13)
  | .icpIdGet c => some (c, 0xA20) | .icpAttest c .. => some (c, 0xA21) | .icpKeyEnroll c .. => some (c, 0xA22)
  | .icpIdCertSet c .. => some (c, 0xA23) | .icpVaultConfig c .. => some (c, 0xA24)
  | .icpVaultStatus c => some (c, 0xA25) | .icpFwStatus c => some (c, 0xC00) | .icpFwBegin c .. => some (c, 0xC01)
  | .icpFwWrite c .. => some (c, 0xC02) | .icpFwFinish c .. => some (c, 0xC03) | .icpFwCommit c .. => some (c, 0xC04)
  | .icpFaultStatus c => some (c, 0xB00) | .icpFaultConfig c .. => some (c, 0xB01)
  | .icpFaultInject c .. => some (c, 0xB02) | .icpTrailRead c .. => some (c, 0xB03)
  | .icpTrailFlush c .. => some (c, 0xB04) | .icpCairnConfig c .. => some (c, 0xB10)
  | .icpCairnLast c => some (c, 0xB11) | .icpPerfRead c .. => some (c, 0xB20)
  | .icpPerfDumpConfig c .. => some (c, 0xB21) | .icpPerfAcl c .. => some (c, 0xB22)
  | .icpPerturbArm c .. => some (c, 0xB30) | .icpPerturbLive c .. => some (c, 0xB31)
  | .powerOnReset .. | .resetNAssert .. | .watchdogExpiry | .wdogWarn | .ridgepoleLossOfLock | .oscMainCheck .. |
    .ridgepoleLock | .trailheadStart .. | .firmwareStart .. | .slotLoss .. | .faultLineRise .. | .powerGoodTimeout ..
    | .domainPowerUpDone .. | .steeringBoundary | .secondBoundary | .slotEvaluation .. | .holdoffExpiry .. |
    .revertWaitExpiry | .driftWindowEnd .. | .asymCheckEnd .. | .todinMessage .. | .todQualityTimeout .. |
    .stepPermitExpiry | .lanternHoldExpiry .. | .leapApply | .smearWindowEdge .. | .timeIncrCommit .. |
    .timeSlewCommit .. | .nowLatchRead .. | .odometerRead .. | .snapshotGo .. | .snapshotRead .. |
    .cairnPeriodicRecord | .cairnSignDone .. | .learnWindowEnd .. | .atomAbsent | .atomUartPoll | .atomUartResponse ..
    | .tempLost .. | .guylineModelSave | .tempSample .. | .todoutMessage .. | .oeTimingChange .. | .milestoneFire .. |
    .evtCapture .. | .mileArmWrite .. | .capturePop .. | .measEpoch | .outCalibrateDone .. | .tdcResult .. |
    .tdcTimeout .. | .tdcDllUnlock .. | .tdcDllLock .. | .tdcCalibration .. | .timebasePresence .. | .tdcArmWrite .. |
    .tdcResultPop .. | .dumpBoundary .. | .forcedBoundary .. | .feMagPeriod .. | .channelEnable .. | .channelApply ..
    | .gnssSpiDone .. | .measBankClaim .. | .gnssSolution .. | .distortionCheck .. | .agcCheck | .guardWindowEnd |
    .surveyComplete .. | .snapshotEnter | .burstWindowOpen | .burstWindowClose | .snapshotExit | .frameReceive .. |
    .xoffRepeat .. | .xonSend .. | .pauseTimerExpiry .. | .pauseWatchdogTrip .. | .pcsLoss .. | .linkUp .. |
    .serdesPllLoss .. | .syncePhaseMeasure .. | .esmcEventPdu .. | .hostTxDescriptor .. | .hostFrameSent .. |
    .reservationRetry .. | .reservationDeadline .. | .launchPoolDeadline .. | .frameLaunch .. | .tsqPop .. |
    .tsqLostRead .. | .waypCalDone .. | .ntsCryptoDone .. | .creditRateUpdate | .tollgateScrubVisit .. |
    .cryptoSelfTest .. | .grantVisit .. | .mcastVisit .. | .clientRenewal .. | .clientRequestRetry .. |
    .clientDelayReqSend .. | .clientAnnounceTimeout .. | .heartbeatSend .. | .heartbeatReceive .. | .heartbeatMiss ..
    | .fbLinkDown .. | .fbOffer .. | .fbAccept .. | .fbAbort .. | .acceptTimeout .. | .handoverInstant .. |
    .plannedTake .. | .handoverRetake .. | .leaseRelinquish .. | .expiryTake .. | .relinquishTake .. |
    .coldStartTake .. | .retakeTake .. | .deferredTake .. | .peerownChange .. | .addressAnnounceRound |
    .remaskVisit .. | .rngReseed .. | .ecdsaSelfTest .. | .keyStoreCommit .. | .keyDrained .. | .keyCommandTimeout ..
    | .vaultReload | .quiesceDrained .. | .requestPiWrite .. | .commandDispatch .. | .completionCiWrite .. |
    .mboxEnable .. | .sleepSet .. | .sleepClear .. | .moderationTimeout .. | .hostSpiWrite .. | .hostSpiRead .. |
    .hostSpiStatus | .smbusSetPointer .. | .smbusBlockWrite .. | .smbusBlockRead .. | .smbusAlertResponse |
    .registerWrite .. | .aliasSetWrite .. | .aliasClrWrite .. | .aliasTglWrite .. | .lockSet .. | .stickyRead .. |
    .reportRead .. | .reportAck .. | .multiwordFirstRead .. | .indDataRead .. | .indDataWrite .. | .icuClaim .. |
    .icuComplete .. | .icuPendRaise .. | .icuPendWithdraw .. | .injectionEnd .. | .injectionResample .. |
    .trailFlushPeriodic | .trailFlushDone .. | .perfDump .. | .perturbExpiry .. | .commandedReset | .pcsUp .. |
    .autonegRestart .. | .serdesPllRelock .. | .finePhaseTrackLost .. | .finePhaseTrackRegained .. |
    .pcieConfigWrite .. | .perstNRelease => none

/-- The rows of the table of mode transitions but for the resets: from, to, cause (02 R25). -/
def modeTable : List (Mode × Mode × Nat) := [
  (.boot, .provision, 0x10), (.boot, .provision, 0x11), (.boot, .acquire, 0x15), (.boot, .recovery, 0x13), (.boot, .recovery, 0x14),
  (.boot, .recovery, 0x17), (.provision, .acquire, 0x16), (.acquire, .serve, 0x20), (.acquire, .standby, 0x25),
  (.serve, .holdover, 0x21), (.holdover, .serve, 0x22), (.serve, .acquire, 0x23), (.holdover, .acquire, 0x23),
  (.serve, .standby, 0x26), (.holdover, .standby, 0x26), (.standby, .serve, 0x27), (.standby, .holdover, 0x28),
  (.standby, .acquire, 0x29), (.acquire, .quiesce, 0x30), (.serve, .quiesce, 0x30), (.holdover, .quiesce, 0x30),
  (.standby, .quiesce, 0x30), (.quiesce, .acquire, 0x31)] ++
  ([.boot, .provision, .acquire, .serve, .holdover, .standby, .quiesce] : List Mode).map fun m => (m, .recovery, 0x24)

/-- The rows that can change the mode. -/
def changesMode : Instr → Bool
  | .powerOnReset .. | .resetNAssert .. | .commandedReset | .watchdogExpiry | .ridgepoleLossOfLock | .faultLineRise .. |
    .icpFaultInject .. | .trailheadStart .. | .firmwareStart .. | .steeringBoundary => true
  | _ => false

/-- Two addresses at different places of the device share ADDR and VLAN only where their PORTS masks do not overlap. -/
def AddressesOk (s : State) : Prop := ∀ (i j : Fin 8) (k l : Fin 32), (i, k) ≠ (j, l) → ∀ x y : ServAddr,
  s.serv.slots[i].addrs[k] = some x → s.serv.slots[j].addrs[l] = some y → x.addr = y.addr → x.vlan = y.vlan → x.ports &&& y.ports = 0#4

end Sys2Proof.Claims

open Sys2Proof Sys2Proof.Machine Sys2Proof.Claims

/-- A step runs the command at the front of the queue (18 R407, log 1). -/
def Obligations.StepRunsFront : Prop :=
  ∀ (c : Instr) (q : List Instr) (s : State),
    step { s with pending := c :: q } = exec c { s with pending := q } ∧ (s.pending = [] → step s = .next s)

/-- What reset leaves (02 R37, 02 R39, 20 R437, 03 R52, 03 R65). -/
def Obligations.ResetState : Prop :=
  State.reset.sys.mode = .boot ∧ State.reset.sys.cause = 0x01 ∧ State.reset.aon.pwrOn = 0x20D#10 ∧
    State.reset.aon.locked = false ∧ State.reset.time.incr = 0x147AE147AE148 ∧ State.reset.time.errb = 0xFFFFFFFF ∧
    State.reset.foot.lstate = .off ∧ State.reset.mile.oe = false ∧ State.reset.foot.fbOwn = false ∧
    roleOf State.reset 0 = .owner ∧ pfOf State.reset 0 = some 0 ∧ (∀ i : Fin 8, i ≠ 0 → roleOf State.reset i = .none_) ∧
    State.reset.regs.sticky = [] ∧ (∀ i : Fin 9, State.reset.icu.t[i].en = 0#256) ∧ State.reset.pending = []

/-- Each reset source leaves BOOT with its code, and keeps what R38 names (02 R37, 02 R38). -/
def Obligations.ResetSources : Prop :=
  ∀ (s : State) (n b : Bool),
    (∃ t, exec (.powerOnReset n b) s = .next t ∧ t.sys.mode = .boot ∧ t.aon.cause = 1 ∧
      t.aon.pcycle = min (s.aon.pcycle + 1) 0xFFFFFFFF ∧ t.aon.provN = n ∧ t.aon.unitB = b) ∧
    (∃ t, exec (.resetNAssert n b) s = .next t ∧ t.aon.cause = 2 ∧ t.aon.provN = n ∧ t.aon.unitB = b ∧ RetainsR38 s t) ∧
    (s.sys.resetArmed = true → ∃ t, exec .commandedReset s = .next t ∧ t.aon.cause = 3 ∧ RetainsR38 s t) ∧
    (imageRuns s = true → s.vault.confirmed = true → ∃ t, exec .watchdogExpiry s = .next t ∧ t.aon.cause = 4 ∧ RetainsR38 s t)

/-- The start-up sequence (02 R39, 02 R40, 02 R41, 02 R42, 02 R44, 02 R25, log 43). -/
def Obligations.StartUp : Prop :=
  ∀ (s : State),
    (∀ (khz f : Nat), s.aon.locked = false → f ∈ [10, 20, 25, 40, 50] → 990 * f ≤ khz → khz ≤ 1010 * f →
      exec (.oscMainCheck khz) s = .next { s with aon := { s.aon with oscPresent := true, oscMHz := f, bootStep := 2 } }) ∧
    (s.aon.locked = false → s.aon.oscPresent = true → s.fault.real.getLsbD 0 = false →
      exec .ridgepoleLock s = .next { s with
        aon := { s.aon with locked := true, pwrOn := s.aon.pwrOn ||| 2#10, bootStep := 3 }
        host := { s.host with ready := true } }) ∧
    (s.aon.locked = true → s.aon.bootStep = 3 → s.sys.mode = .boot → powered s 2 = true → s.vault.enrolled = false → ∀ n : Fin 4,
      exec (.trailheadStart n) s = .next (startImage (if powered s 9 then startKeys s else s))) ∧
    (s.aon.locked = true → s.aon.bootStep = 3 → s.sys.mode = .boot → powered s 2 = true → s.vault.enrolled = true →
      exec (.trailheadStart 3) s =
        .next (bootRecovery 0x14 (faultEvent 45 { s with aon := { s.aon with pufTries := 3 } }))) ∧
    (imageRuns s = true → s.aon.bootStep = 7 → s.sys.mode = .boot → s.vault.rootOk = false → s.sys.fatalPending = false →
      ∀ (want : BitVec 10) (s1 : State), s1 = { s with
        aon := { s.aon with pwrOn := bootDomains want s, bootStep := 9, bootTries := 0 }
        vault := { s.vault with confirmed := true }
        guy := { s.guy with savedAt := s.aon.ophrs }
        sys := { s.sys with mgmtFwRunning := true, kicked := true } } →
      bootEnd s1 = (.provision, if s.aon.provN then 0x11 else 0x10) ∧
      exec (.firmwareStart want) s = .next (raise 241 (lanternAll (enterMode .provision (if s.aon.provN then 0x11 else 0x10) s1))))

/-- The mode commands complete and have their effect (02 R46, 02 R47, 02 R48). -/
def Obligations.ModeCommands : Prop :=
  ∀ (c : CmdRef) (s : State),
    (Ready c 0x110 8 s → ∃ r, r.length = 5 ∧ exec (.icpModeGet c) s =
      ok c 0x110 (le 1 (modeCode s.sys.mode) ++ le 1 (modeCode s.sys.prev) ++ le 1 s.sys.cause ++ r) s) ∧
    (Ready c 0x111 0 s → s.aon.provN = true → (∀ p : Fin 4, calReady s p = true) → (∃ i : Fin 8, slotKeys s i.1 ≠ []) →
      ∃ t, exec (.icpProvisionDone c) s = ok c 0x111 [] t ∧ t.sys = { s.sys with provDone := true } ∧ t.aon = s.aon) ∧
    (Taken c 0x112 s → s.sys.quiesce = none → s.foot.en = false → ∀ force g : Bool,
      exec (.icpQuiesce c force g false) s = .next { s with sys := { s.sys with
        quiesce := some { cmd := c, force := force, gate := g, step := 3, startUs := s.time.odo }
        admissionStopped := true } }) ∧
    (Ready c 0x113 0 s → exec (.icpResume c) s = ok c 0x113 [] { s with sys := { s.sys with resume := true } }) ∧
    (Ready c 0x115 0 s → exec (.icpSysReset c 0xB0070001#32) s = ok c 0x115 [] { s with sys := { s.sys with resetArmed := true } }) ∧
    (∀ (phase : Word) (dwell : BitVec 16), Ready c 0x116 0 s → 10 ≤ phase.toNat → phase.toNat ≤ 10000 → 1 ≤ dwell.toNat → dwell.toNat ≤ 600 →
      exec (.icpModeConfig c phase dwell false) s =
        ok c 0x116 [] { s with sys := { s.sys with lockPhase := phase.toNat, lockDwell := dwell.toNat } }) ∧
    (∀ (mask : BitVec 10) (on : Bool), Ready c 0x114 4 s → firstFail (gateChecks mask on false s) = stOk →
      (on = false → ∃ p, p.length = 4 ∧ exec (.icpPowerGate c mask on false) s = ok c 0x114 p (gateMask mask s)) ∧
      (on = true → mask &&& ~~~s.aon.pwrOn = 0#10 → ∃ p, p.length = 4 ∧ exec (.icpPowerGate c mask on false) s = ok c 0x114 p s) ∧
      (on = true → mask &&& ~~~s.aon.pwrOn ≠ 0#10 → exec (.icpPowerGate c mask on false) s = .next { s with
        aon := { s.aon with pwrBusy := true, pwrReq := some { cmd := some c, left := mask &&& ~~~s.aon.pwrOn } } }))

/-- Power, reset, fault and Trail events have their effect (02 R34, 02 R35, 02 R36, 02 R46, 03 R50, 21 R443, 21 R444, 21
R447, 19 R427, 23 R487, 21 R455). -/
def Obligations.PowerAndFaultEvents : Prop :=
  ∀ (s : State),
    (∀ (q : PowerReq) (d : Fin 10), s.aon.pwrReq = some q → q.left.getLsbD d.1 = true → requires d.1 &&& ~~~s.aon.pwrOn = 0#10 →
      (putBit q.left d.1 false ≠ 0#10 → exec (.domainPowerUpDone d) s = .next (domainBack d { s with
        aon := { s.aon with pwrOn := putBit s.aon.pwrOn d.1 true, pwrReq := some { q with left := putBit q.left d.1 false } } })) ∧
      (putBit q.left d.1 false = 0#10 → ∀ c, q.cmd = some c → ∃ t p, exec (.domainPowerUpDone d) s = ok c 0x114 p t ∧
        t.aon.pwrBusy = false ∧ t.aon.pwrReq = none ∧ p.length = 4)) ∧
    (∀ (q : PowerReq) (d : Fin 10) (c : CmdRef), s.aon.pwrReq = some q → q.left.getLsbD d.1 = true → q.cmd = some c →
      exec (.powerGoodTimeout d) s = .next (complete c 0x114 stBusy [] (pwrEnd (pgFail d s)))) ∧
    (∀ d : Fin 10, s.aon.pwrReq = none → bootWaits s d.1 = true → s.aon.pgFailed.getLsbD d.1 = false →
      exec (.powerGoodTimeout d) s = .next (bootFail d s)) ∧
    (∀ (q : Quiesce) (off : BitVec 16) (u : State), u = atTick off s → s.sys.quiesce = some q → q.step = 3 → drained u = true →
      (s.mile.oe = true → oeMoment u u.time.odo = true) →
      ∃ t, exec (.quiesceDrained off) s = .next t ∧ t.mile.oe = false ∧ t.sys.quiesce = some { q with
        step := 5, done := true, drainUs := (u.time.odo - q.startUs) * 128 / 100000 }) ∧
    (s.aon.locked = true → ∃ t, exec .ridgepoleLossOfLock s = .next t ∧ t.sys.mode = .boot ∧ t.sys.cause = 5 ∧
      t.aon.locked = false ∧ t.aon.cause = 5) ∧
    (imageRuns s = true → exec .wdogWarn s = .next (faultEvent 62 (raise 240 s))) ∧
    (∀ src : Fin 64, src ≠ 0 → faultReserved src.1 = false → exec (.faultLineRise src) s =
      .next (if conditionLine src.1 then faultCond src true s else faultEvent src s)) ∧
    (∀ src : Fin 64, faultReserved src.1 = true → exec (.faultLineRise src) s = .next s) ∧
    (∀ (src : Fin 64) (ck : Nat), s.fault.inj.getLsbD src.1 = true → s.fault.ovl.getLsbD src.1 = false →
      s.fault.injEnd[src] ≤ aonNow (atCk ck s) →
      ∃ t, exec (.injectionEnd src ck) s = .next t ∧ t.fault = { s.fault with
        inj := putBit s.fault.inj src.1 false
        injEnd := s.fault.injEnd.set src.1 (aonNow (atCk ck s) + 16)
        ovl := putBit s.fault.ovl src.1 false
        resample := putBit s.fault.resample src.1 false
        handled := putBit s.fault.handled src.1 false }) ∧
    (∀ (src : Fin 64) (ck : Nat) (u : State), s.fault.resample.getLsbD src.1 = true → s.fault.injEnd[src] ≤ aonNow (atCk ck s) →
      u = { atCk ck s with fault := { s.fault with
        resample := putBit s.fault.resample src.1 false, handled := putBit s.fault.handled src.1 false } } →
      (s.fault.real.getLsbD src.1 = false → exec (.injectionResample src ck) s = .next u) ∧
      (s.fault.real.getLsbD src.1 = true → s.fault.handled.getLsbD src.1 = false →
        exec (.injectionResample src ck) s = .next (lanternFast (faultReact src false true u)))) ∧
    (s.aon.locked = true → ∀ temp : Int, temp ≤ 9500 → s.sys.warn = false → s.fault.real.getLsbD 57 = false →
      ∃ t, exec (.tempSample (some temp)) s = .next t ∧ t.sys.temp = temp ∧ t.guy.dieTemp = temp ∧ t.guy.dieMiss = 0 ∧
        t.aon.ophrs = min (s.aon.ophrs + 1) 0xFFFFFFFF ∧ t.sys.warn = false) ∧
    (s.aon.locked = true → s.sys.mgmtFwRunning = true → flushDue s = true → exec .trailFlushPeriodic s =
      .next { s with trail := { s.trail with flushing := true, flushAt := s.aon.ophrs } }) ∧
    (∀ (c : CmdRef) (r : TrailSt × Nat), s.trail.flushing = true → s.trail.flushCmd = some c →
      r = trailCopy (s.trail.first.length + s.trail.circ.length) s.trail →
      ∃ t, exec (.trailFlushDone none) s = ok c 0xB04 (le 4 r.2) t ∧ t.trail = r.1)

/-- TIME_INCR_COMMIT, TIME_SLEW_COMMIT, NOW_LATCH_READ, ODOMETER_READ, SNAPSHOT_GO and SNAPSHOT_READ complete (03 R51, 03
R53, 03 R55, 03 R56). -/
def Obligations.TimeCommitsAndReads : Prop :=
  ∀ (s : State),
    (∀ (hi : Word) (v : Nat), timeUp s = true → v = hi.toNat % 2 ^ 20 * 2 ^ 32 + s.time.incrLo.toNat →
      (360107826204545 ≤ v → v ≤ 360468114174734 →
        exec (.timeIncrCommit hi) s = .next { s with time := { s.time with incrReg := v } }) ∧
      (∀ k, (v < 360107826204545 ∧ k = 360107826204545) ∨ (360468114174734 < v ∧ k = 360468114174734) →
        exec (.timeIncrCommit hi) s = .next (faultEvent 3 (sticky 0x30004 4#32 { s with time := { s.time with incrReg := k } })))) ∧
    (∀ (hi : Word) (v : Int), timeUp s = true → v = (hi.setWidth 8 ++ s.time.slewLo : BitVec 40).toInt →
      (-3602879702 ≤ v → v ≤ 3602879702 →
        exec (.timeSlewCommit hi) s = .next { s with time := { s.time with slewReg := v } }) ∧
      (∀ k, (v < -3602879702 ∧ k = -3602879702) ∨ (3602879702 < v ∧ k = 3602879702) →
        exec (.timeSlewCommit hi) s = .next (sticky 0x30004 8#32 { s with time := { s.time with slewReg := k } }))) ∧
    (∀ (rd : Fin 9) (off : BitVec 16) (u : State), MayUse rd 0x30010 false s → u = atTick off (countReg rd 0 0x30010 s) →
      exec (.nowLatchRead rd off) s = .next (give rd (w32 (nsOf (cntNow u)))
        { u with time := { u.time with now := u.time.now.set rd.1 (latchOf u) } })) ∧
    (∀ (rd : Fin 9) (off : BitVec 16), MayUse rd 0x30020 false s →
      (s.time.now[rd].latched = true → exec (.odometerRead rd off) s =
        .next (give rd (s.time.now[rd].odo.setWidth 32) (countReg rd 0 0x30020 s))) ∧
      (s.time.now[rd].latched = false → ∀ u : State, u = atTick off (countReg rd 0 0x30020 s) → exec (.odometerRead rd off) s =
        .next (give rd (w32 u.time.odo) { u with time := { u.time with
          now := upd u.time.now rd fun l => { l with odoHi := w32 (u.time.odo / 2 ^ 32) } } }))) ∧
    (∀ (rd : Fin 9) (off : BitVec 16) (u v : State), MayUse rd 0x30090 true s → u = atTick off (countReg rd 1 0x30090 s) →
      v = { u with time := { u.time with snap := {
        ns := nsOf (cntNow u), frac := fracOf (cntNow u), sec := secOf (cntNow u), odo := BitVec.ofNat 64 u.time.odo
        errb := u.time.errb, mode := modeCode u.sys.mode, sel := u.sign.sel.elim 0xFF (·.1), valid := true } } } →
      exec (.snapshotGo rd off) s = .next (if s.time.snap.valid then sticky 0x30090 4#32 v else v)) ∧
    (∀ rd : Fin 9, MayUse rd 0x30094 false s → ∀ u : State, u = countReg rd 0 0x30094 s →
      exec (.snapshotRead rd) s = .next (give rd (w32 u.time.snap.ns)
        { u with time := { u.time with snap := { u.time.snap with valid := false } } }))

/-- LEAP_APPLY at LEAP_AT and CAIRN_PERIODIC_RECORD at its boundary complete and have their effect (03 R57, 03 R59, 03 R66,
03 R67). -/
def Obligations.LeapAndPeriodicRecord : Prop :=
  ∀ (s : State), timeUp s = true →
    (∀ k, s.time.leap = some k → s.time.leapAt ≤ secNow s → ∃ t, exec .leapApply s = .next t ∧ t.time = { s.time with
        utcOffset := s.time.utcOffset + leapStep k, leap := none
        lastLeap := some { leapAt := s.time.leapAt, kind := k, before := s.time.utcOffset, announced := s.time.announcedAt } } ∧
      t.host = (raise 9 (sticky 0x30004 16#32 s)).host ∧ t.regs = (sticky 0x30004 16#32 s).regs) ∧
    (s.cairn.due = true → ∃ t, exec .cairnPeriodicRecord s = .next t ∧ t.time = s.time ∧ t.cairn.due = false ∧
      t.cairn.seq = (s.cairn.seq + 1) % 2 ^ 32 ∧ t.cairn.errbMax = 0 ∧ t.cairn.steppedSince = false ∧
      ∃ r, t.cairn.unsigned = s.cairn.unsigned ++ [r] ∧ r.seq = s.cairn.seq ∧ r.cnt = s.time.cnt ∧ r.errb = s.time.errb ∧
        r.terms = s.time.terms ∧ r.utcOffset = s.time.utcOffset ∧ r.pcycle = s.aon.pcycle ∧ r.mode = modeCode s.sys.mode)

/-- The time, step, Cairn, fault and Trail commands complete and have their effect (03 R57, 03 R58, 03 R69, 03 R70, 05 R113,
05 R114, 21 R445, 21 R446, 21 R456, 21 R457). -/
def Obligations.TimeAndTrailCommands : Prop :=
  ∀ (c : CmdRef) (s : State),
    (∀ off : BitVec 16, Ready c 0x120 32 s → ∃ p, p.length = 32 ∧ exec (.icpTimeGet c off) s = ok c 0x120 p (atTick off s)) ∧
    (∀ (a : LeapSetArgs), Ready c 0x121 0 s → a.rsv = false →
      (a.action = 0#8 → exec (.icpLeapSet c a) s = ok c 0x121 [] { s with time := { s.time with utcManual := false } }) ∧
      (a.action = 1#8 → exec (.icpLeapSet c a) s = ok c 0x121 [] { s with time := { s.time with
        utcManual := true, utcOffset := a.offset.toInt, utcKnown := true, leap := none } }) ∧
      (∀ k, leapAction a.action.toNat = some k → ((a.leapAt.toNat : Int) - (a.offset.toInt + leapStep k)) % 86400 = 0 →
        secNow s + 2 ≤ a.leapAt.toNat → a.leapAt.toNat ≤ secNow s + 200 * 86400 →
        exec (.icpLeapSet c a) s = ok c 0x121 [] { s with time := { s.time with
          utcManual := true, utcOffset := a.offset.toInt, utcKnown := true, leap := some k, leapAt := a.leapAt.toNat
          announcedAt := if s.time.leap = some k ∧ s.time.leapAt = a.leapAt.toNat then s.time.announcedAt else cntNow s / nsU } })) ∧
    (∀ (n : BitVec 16) (e f : Bool), Ready c 0xB10 0 s → 1 ≤ n.toNat → n.toNat ≤ 3600 → exec (.icpCairnConfig c n e f false) s =
      ok c 0xB10 [] { s with cairn := { s.cairn with period := n.toNat, events := e, flash := f } }) ∧
    (∀ r, Ready c 0xB11 (recWhole r).length s → s.cairn.last = some r → exec (.icpCairnLast c) s = ok c 0xB11 (recWhole r) s) ∧
    (Ready c 0xB00 52 s → Reads (.icpFaultStatus c) c 0xB00 52 s) ∧
    (∀ (src sev : BitVec 8) (i : Fin 64), Ready c 0xB01 0 s → faultSrc src = some i → src ≠ 0#8 → src ≠ 57#8 → src ≠ 58#8 → sev.toNat ≤ 3 →
      s.fault.inj.getLsbD i.1 = false → ∃ t, exec (.icpFaultConfig c src sev false) s = ok c 0xB01 [] t ∧
        t.fault = { s.fault with sev := s.fault.sev.set i.1 sev.toNat }) ∧
    (∀ (a : InjectArgs) (i : Fin 64), Ready c 0xB02 0 s → faultSrc a.source = some i → i ≠ 0 → firstFail (injectChecks a s) = stOk →
      (a.action = 0#8 → exec (.icpFaultInject c a) s = ok c 0xB02 [] (injectArm i a.duration.toNat s)) ∧
      (a.action ≠ 0#8 → exec (.icpFaultInject c a) s = ok c 0xB02 [] (injectEnd i s))) ∧
    (∀ n : BitVec 16, Ready c 0xB04 0 s → n ≠ 0#16 → n.toNat ≤ 3600 → s.trail.flushCmd = none → exec (.icpTrailFlush c n false) s =
      .next { s with trail := { s.trail with period := n.toNat, flushCmd := some c, flushing := true, flushAt := s.aon.ophrs } }) ∧
    (∀ (a : TrailReadArgs) (got : List TrailRec) (next : Nat) (e sk : Bool), a.rsv = false → a.area.toNat ≤ 1 → 256 ≤ a.max.toNat →
      a.max.toNat ≤ 1024 → trailRead (a.area == 1#8) a.start.toNat a.max.toNat s.trail = some (got, next, e, sk) →
      Ready c 0xB03 (8 + (got.flatMap TrailRec.bytes).length) s → exec (.icpTrailRead c a) s =
        ok c 0xB03 (le 4 next ++ le 2 (trailSize got) ++ le 2 (bit e + 2 * bit sk) ++ got.flatMap TrailRec.bytes) s)

/-- The events of the boundaries and of the reference slots have their effect (04 R74, 04 R77, 04 R87, 04 R90, 04 R97, 05
R105, 05 R114, 05 R119, 01 R12, 07 R147). -/
def Obligations.ReferenceEvents : Prop :=
  ∀ (s : State), timeUp s = true →
    (exec .steeringBoundary s = .next (boundary s) ∧ (advance s).time.bOdo = s.time.bOdo + 65536 ∧ (advance s).time.incr = s.time.incrNext ∧
      (advance s).time.slew = s.time.slewNext ∧ (advance s).time.cnt = cntAt s (s.time.bOdo + 65536)) ∧
    (tickOf s (nextSecond s) ≤ s.time.bOdo + periodTicks → ∃ t, exec .secondBoundary s = .next t ∧
      t.cairn = { s.cairn with eventsThisSec := 0 } ∧ t.time = { s.time with odo := max s.time.odo (tickOf s (nextSecond s)), landed := false }) ∧
    (qualModes s.sys.mode = true → ∀ f : Int × Int, exec (.slotEvaluation f.1 f.2) s = .next (readyEval (evalSelect (rollSecond
      ((List.finRange 12).foldl (fun u n => decideSlot n (evalMeasure f s).2[n] u) (evalMeasure f s).1))))) ∧
    (qualModes s.sys.mode = true → ∀ n : Fin 12, exec (.holdoffExpiry n) s = .next (evalSelect (qualifyNow n s))) ∧
    (∀ p, s.sign.pref = some p → eligible s p = true → revertDue s p = true → exec .revertWaitExpiry s = .next (reselect s)) ∧
    (∀ d : DriftIn, s.sign.sel = none → exec (.driftWindowEnd d) s =
      .next { s with sign := { s.sign with slots := updAll s.sign.slots fun n q => driftSlot s d.y[n] q } }) ∧
    (∀ (n : Fin 12) (k : AsymCheck), s.sign.slots[n].asymCheck = some k → k.left = 0 → asymmetric s.sign.slots[n] k = false →
      exec (.asymCheckEnd n) s = .next (onSlot n (fun q => { q with asymCheck := none }) s)) ∧
    (∀ (line : Fin 2) (ms : Nat) (bytes : List Byte), todFrameOk bytes = false → exec (.todinMessage line ms bytes) s =
      .next (sticky 0x50004 0x100#32 { s with mile := { s.mile with todBad := s.mile.todBad + 1 } })) ∧
    (∀ (line : Fin 2) (n : Fin 12) (ms : Nat) (bytes : List Byte), todSlot s line = some n →
      (todFrameOk bytes = true → ms < 10 ∨ 900 < ms →
        exec (.todinMessage line ms bytes) s = .next (onSlot n (fun q => { q with todLate := q.todLate + 1 }) s)) ∧
      (todFrameOk bytes = true → 10 ≤ ms → ms ≤ 900 → s.sign.slots[n].labelled = true →
        exec (.todinMessage line ms bytes) s = .next (onSlot n (fun q => { q with todDup := q.todDup + 1 }) s)) ∧
      (todFrameOk bytes = true → 10 ≤ ms → ms ≤ 900 → s.sign.slots[n].labelled = false →
        exec (.todinMessage line ms bytes) s = .next (utcFrom n (onSlot n (todAccept s bytes) s)))) ∧
    (∀ n : Fin 12, isPps n = true → s.sign.slots[n].todSel ≠ 0 →
      exec (.todQualityTimeout n) s = .next (onSlot n (fun q => { q with qUnknown := true }) s)) ∧
    (s.sign.permit = true → s.sign.permitLeft = 0 → exec .stepPermitExpiry s = .next { s with sign := { s.sign with permit := false, permitLeft := 0 } }) ∧
    (∀ pin : Fin 4, s.sign.lantern[pin].holding = true → ∃ t, exec (.lanternHoldExpiry pin) s = .next t ∧
      t.sign.lantern[pin].holding = false ∧ t.sign.lantern[pin].level = (s.sign.lantern[pin].want != s.sign.lantern[pin].inv))

/-- The reference, selection, step and Lantern commands complete and have their effect (04 R101, 04 R102, 05 R104, 05 R113,
05 R114, 05 R115, 05 R123). -/
def Obligations.ReferenceCommands : Prop :=
  ∀ (c : CmdRef) (s : State),
    (∀ (a : TimeStepArgs), Taken c 0x122 s → a.rsv = false → (a.kind = 0#8 ∧ (stepOf c a).offset ≠ 0 ∨ a.kind = 1#8 ∧ a.ns.toNat ≤ 999999999) →
      s.sys.mode ≠ .serve → s.sys.mode ≠ .holdover →
      exec (.icpTimeStep c a) s = .next { s with time := { s.time with steps := s.time.steps ++ [stepOf c a] } }) ∧
    (∀ w : BitVec 16, Ready c 0x123 0 s → w.toNat ≤ 600 → exec (.icpStepPermit c w false) s =
      ok c 0x123 [] { s with sign := { s.sign with permit := w != 0#16, permitLeft := w.toNat } }) ∧
    (∀ (a : RefConfigArgs) (n : Fin 12), Ready c 0x200 0 s → a.rsv = false → a.slot.toNat = n.1 → a.enable.toNat ≤ 2 → 1 ≤ a.holdoff.toNat →
      a.holdoff.toNat ≤ 3600 → a.qualRankMax.toNat ≤ 14 → a.rankFloor.toNat ≤ 15 → (n = 11 → s.foot.en = true) → (n = 0 → powered s 8 = true) →
      exec (.icpRefConfig c a) s = ok c 0x200 [] (enableSlot n a.enable.toNat (onSlot n (fun q => { q with
        holdoff := a.holdoff.toNat, instUnc := a.instUnc.toNat, noiseUnc := a.noiseUnc.toNat, rankFloor := a.rankFloor.toNat
        qualRankMax := a.qualRankMax.toNat
        timer := if q.state == .qualifying && !q.timerRun then a.holdoff.toNat else q.timer }) s))) ∧
    (∀ (a : RefPpsArgs) (n : Fin 12), Ready c 0x201 0 s → a.rsv = false → a.slot.toNat = n.1 → 1 ≤ n.1 → n.1 ≤ 4 → a.input.toNat ≤ 1 → a.edge.toNat ≤ 1 →
      a.todSel = 0#8 → a.freqSel = 0#8 → 1 ≤ a.ppsWin.toNat → a.ppsWin.toNat ≤ 100000 → a.cable.toInt.natAbs ≤ 10000000 → a.baud.toNat ≤ 7 → s.sign.slots[n].todSel = 0 →
      ∀ s1, s1 = onSlot n (fun q => { q with
        input := a.input == 1#8, edgeFall := a.edge == 1#8, todSel := 0, freqSel := 0, todBaud := a.baud.toNat
        ppsWin := a.ppsWin.toNat, cable := a.cable.toInt }) s →
      exec (.icpRefPpsInput c a) s = ok c 0x201 [] (if s.sign.slots[n].freqSel ≠ 0 ∨ s.sign.slots[n].input ≠ (a.input == 1#8) ∨
        s.sign.slots[n].edgeFall ≠ (a.edge == 1#8) ∨ s.sign.slots[n].cable ≠ a.cable.toInt then configured n s1 else s1)) ∧
    (∀ (a : RefThreshArgs), Ready c 0x202 0 s → a.rsv = false → 1 ≤ a.freqWin.toNat → a.freqWin.toNat ≤ 100000 → 100 ≤ a.freqWinCold.toNat →
      a.freqWinCold.toNat ≤ 500000 → 1 ≤ a.driftY.toNat → a.driftY.toNat ≤ 100000 → 1 ≤ a.driftRate.toNat → a.driftRate.toNat ≤ 100000 →
      1 ≤ a.disagree.toNat → a.disagree.toNat ≤ 1000000 → 10 ≤ a.compareWin.toNat → a.compareWin.toNat ≤ 10000 → 10 ≤ a.pathStep.toNat →
      a.pathStep.toNat ≤ 100000 → ∃ t, exec (.icpRefThresh c a) s = ok c 0x202 [] t ∧ t.sign.freqWin = a.freqWin.toNat ∧
        t.sign.freqWinCold = a.freqWinCold.toNat ∧ t.sign.driftY = a.driftY.toNat ∧ t.sign.driftRate = a.driftRate.toNat ∧
        t.sign.disagree = a.disagree.toNat ∧ t.sign.compareWin = a.compareWin.toNat ∧ t.sign.pathStepNs = a.pathStep.toNat) ∧
    (Ready c 0x203 388 s → Reads (.icpRefStatus c) c 0x203 388 s) ∧
    (∀ (slot : BitVec 8) (n : Fin 12), Ready c 0x204 0 s → slot.toNat = n.1 →
      (s.sign.slots[n].state ≠ .softFail ∨ s.sign.slots[n].pathAsym = false ∧ s.sign.slots[n].phaseJump = false →
        exec (.icpRefClear c slot false) s = ok c 0x204 [] s) ∧
      (s.sign.slots[n].state = .softFail → s.sign.slots[n].pathAsym = true ∨ s.sign.slots[n].phaseJump = true →
        exec (.icpRefClear c slot false) s = ok c 0x204 [] (slotSettle (requalify n 0x41 (onSlot n (fun q => { q with
          pathAsym := false, phaseJump := false, outOfWin := 0, contrib := 0, contribTail := 0 }) s))))) ∧
    (∀ (slot : BitVec 8) (n : Fin 12) (comp unc : Word), Ready c 0x205 0 s → slot.toNat = n.1 → n.1 = 9 ∨ n.1 = 10 →
      exec (.icpRefAsym c slot comp unc false) s = ok c 0x205 [] (configured n (onSlot n (fun q => { q with
        asymComp := comp.toInt, asymUnc := unc.toNat, pathAsym := false, contrib := 0, contribTail := 0, asymCheck := none }) s))) ∧
    (∀ (a : SelConfigArgs), Ready c 0x206 0 s → a.rsv = false → a.revertive.toNat ≤ 1 → a.revertWait.toNat ≤ 3600 → a.upgradeMargin.toNat ≤ 15 →
      (a.pref = 0xFF#8 → ∃ t, exec (.icpSelConfig c a) s = ok c 0x206 [] t ∧ t.sign.pref = none ∧ t.sign.revertWait = a.revertWait.toNat) ∧
      (∀ n : Fin 12, a.pref.toNat = n.1 → n.1 ≤ 4 ∨ n.1 = 9 ∨ n.1 = 10 → ∃ t, exec (.icpSelConfig c a) s = ok c 0x206 [] t ∧
        t.sign.pref = some n ∧ t.sign.revertive = (a.revertive == 1#8) ∧ t.sign.upgradeMargin = a.upgradeMargin.toNat)) ∧
    (∀ slope acq : Word, Ready c 0x207 0 s → 1 ≤ slope.toNat → slope.toNat ≤ 100000 → 1 ≤ acq.toNat → acq.toNat ≤ 1000000 →
      exec (.icpSwbConfig c slope acq) s = ok c 0x207 [] { s with sign := { s.sign with slopeNext := slope.toNat, acqStepMin := acq.toNat } }) ∧
    (∀ (a : LanternArgs), Ready c 0x440 0 s → a.rsv = false → (∀ i : Fin 4, lanternCode a.pins[i].1.toNat = true ∧ a.pins[i].2.2.toNat ≤ 1000) →
      ∃ t l, exec (.icpLanternConfig c a) s = ok c 0x440 [] t ∧ t.sign = { s.sign with lanternPending := some l } ∧
        ∀ i : Fin 4, l[i].func = a.pins[i].1.toNat ∧ l[i].inv = a.pins[i].2.1 ∧ l[i].minHold = a.pins[i].2.2.toNat)

/-- Guyline's events and commands have their effect (06 R125, 06 R126, 06 R127, 06 R131, 06 R134, 06 R143, 06 R144). -/
def Obligations.GuylineCommands : Prop :=
  ∀ (c : CmdRef) (s : State),
    (timeUp s = true → ∀ y : Int, exec (.learnWindowEnd y) s = .next (guyLevel { s with guy := { s.guy with
      main := s.guy.main.windowEnd (odoSec s / 1000 * 1000) y (guyCond s)
      atom := s.guy.atom.windowEnd (odoSec s / 1000 * 1000) (y - 1000 * meanOf s.guy.atomWin)
        (guyCond s && s.guy.atomPresent && s.guy.atomLock)
      atomWin := [] } })) ∧
    (timeUp s = true → exec .atomAbsent s = .next (atomPresence false { s with guy := { s.guy with missEdges := 10 } })) ∧
    (∀ u, s.guy.uart = some u → exec .atomUartPoll s = .next { s with guy := { s.guy with
      queryOut := u.query, awaiting := true, uartMiss := s.guy.uartMiss + 1 } }) ∧
    (∀ u, s.guy.uart = some u → s.guy.awaiting = true → ∀ bytes : List Byte, u.respLen ≤ bytes.length → uartTempOf u (bytes.take u.respLen) = none →
      exec (.atomUartResponse bytes) s = .next (guyLevel { s with guy := { s.guy with
        awaiting := false,
        atomLock := ((bytes.take u.respLen).getD u.lockOfs 0#8 &&& u.lockMask != 0#8) != u.polarity } })) ∧
    (s.guy.dieTempOk = true → 3 ≤ s.guy.dieMiss → ∃ t, exec (.tempLost false) s = .next t ∧ t.guy = { s.guy with dieTempOk := false }) ∧
    (s.guy.uartTempOk = true → 3 ≤ s.guy.uartMiss → ∃ t, exec (.tempLost true) s = .next t ∧ t.guy = { s.guy with uartTempOk := false }) ∧
    (s.sys.mgmtFwRunning = true → s.guy.savedAt + 3600 ≤ s.aon.ophrs → exec .guylineModelSave s = .next (guySave s)) ∧
    (∀ a : HoldConfigArgs, Ready c 0x300 0 s → a.rsv = false → 4 ≤ a.oosLimit.toNat → a.oosLimit.toNat ≤ 4000000 → a.policy.toNat ≤ 1 →
      a.learnRankMax.toNat ≤ 14 → 4 ≤ a.learnMin.toNat → a.learnMin.toNat ≤ 1000 → 1 ≤ a.learnRestore.toNat → a.learnRestore.toNat ≤ 100 →
      1 ≤ a.tempSpan.toNat → a.tempSpan.toNat ≤ 100 → exec (.icpHoldConfig c a) s = ok c 0x300 [] (guyLevel { s with guy := { s.guy with
        oosLimit := a.oosLimit.toNat, policyContinue := a.policy == 1#8, learnRankMax := a.learnRankMax.toNat,
        learnMin := a.learnMin.toNat, learnRestore := a.learnRestore.toNat, tempSpan := a.tempSpan.toNat } })) ∧
    (∀ a : HoldOscArgs, Ready c 0x301 0 s → a.rsv = false → a.enable.toNat ≤ 1 → a.tempSrc = 0#8 → 1 ≤ a.uY.toNat → 1 ≤ a.noiseY.toNat →
      (a.osc = 0#8 → a.enable = 0#8 → exec (.icpHoldOscConfig c a) s = ok c 0x301 [] { s with guy := { s.guy with main := s.guy.main.config a } }) ∧
      (a.osc = 1#8 → exec (.icpHoldOscConfig c a) s = ok c 0x301 [] (guyLevel { s with guy := { s.guy with
        atomEn := a.enable == 1#8, atom := s.guy.atom.config a } }))) ∧
    (Ready c 0x302 160 s → Reads (.icpHoldStatus c) c 0x302 160 s) ∧
    (∀ m a : Bool, Ready c 0x303 0 s → (m || a) = true → ∃ t, exec (.icpHoldReset c m a false) s = ok c 0x303 [] t ∧
      t.guy = { s.guy with main := if m then s.guy.main.reset else s.guy.main, atom := if a then s.guy.atom.reset else s.guy.atom }) ∧
    (∀ a : AtomUartArgs, Ready c 0x304 0 s → a.rsv = false → a.qlen.toNat ≤ 16 → 1 ≤ a.respLen.toNat → a.respLen.toNat ≤ 64 →
      a.lockOfs.toNat < a.respLen.toNat → a.tempOfs.toNat + (if a.format.toNat ≤ 1 then 1 else 0) < a.respLen.toNat → a.format.toNat ≤ 2 →
      a.scale.toNat ≤ 2 → a.polarity.toNat ≤ 1 → a.poll.toNat ≤ 60 → a.baud.toNat ≤ 7 → exec (.icpAtomUartConfig c a) s =
      ok c 0x304 [] (guyLevel { s with guy := { s.guy with
        uart := uartOf a, atomLock := a.poll == 0#8 || s.guy.atomLock, awaiting := false, uartMiss := 0
        uartTempOk := s.guy.uartTempOk && a.poll != 0#8 } }))

/-- The interval meter's events and commands have their effect (08 R166, 08 R167, 08 R168, 08 R172, 08 R173, 08 R174, 08
R176, 08 R177, 08 R178, 08 R179). -/
def Obligations.IntervalMeter : Prop :=
  ∀ (c : CmdRef) (s : State),
    (timeUp s = true → ∀ (ch : Fin 8) (d : Int) (g b : Bool), (tdcCh s ch).arm = true → (ch = 6 → s.tdc.ch6Held = false) →
      exec (.tdcResult ch d g b) s = .next (tdcGive ch (tdcOutcome (tdcCh s ch)
        (s.tdc.tbSeen && decide (s.tdc.tbGoneAt + d.natAbs / 1280000 ≤ s.time.odo)) (if (tdcCh s ch).freq then d else d - (tdcCh s ch).skew * 1000) g b) s)) ∧
    (timeUp s = true → ∀ ch : Fin 8, (tdcCh s ch).arm = true → ch.1 < 6 → (tdcCh s ch).dllLock = true → (tdcCh s ch).dllBad = false →
      exec (.tdcTimeout ch) s = .next (tdcGive ch (tdcEmpty 1) s)) ∧
    (timeUp s = true → ∀ ch : Fin 8, s.tdc.ch[ch].dllLock = true → exec (.tdcDllUnlock ch) s = .next (raise 89 (dllFault (sticky 0x60004
      (1#32 <<< (16 + ch.1)) (onCh ch (fun c => { c with dllLock := false, dllOut := true, dllBad := true }) s))))) ∧
    (timeUp s = true → ∀ ch : Fin 8, s.tdc.ch[ch].dllLock = false → ∀ u : State, u = dllFault
      (onCh ch (fun c => { c with dllLock := true, dllOut := false }) s) →
      exec (.tdcDllLock ch) s = .next (if s.tdc.ch[ch].dllOut then raise 90 u else u)) ∧
    (timeUp s = true → ∀ ch : Fin 8, s.tdc.lines[ch].getLastD 0 + s.tdc.calPeriod * tickSec ≤ s.time.odo →
      exec (.tdcCalibration ch) s = .next { s with tdc := { s.tdc with
        lines := upd s.tdc.lines ch fun l => l.drop 1 ++ [s.time.odo] } }) ∧
    (timeUp s = true → ∀ p : Bool, exec (.timebasePresence 0 p) s = .next (tbPresence (p && s.tdc.tbEn) { s with tdc := { s.tdc with
        tbSeen := p, tbGoneAt := if s.tdc.tbSeen && !p then s.time.odo else s.tdc.tbGoneAt } }) ∧
      exec (.timebasePresence 1 p) s = .next { s with tdc := { s.tdc with f1Present := p } }) ∧
    (∀ (rd : Fin 9) (ch : Fin 8) (v : Word), decideAccess s rd (chReg ch 0) true = .ok →
      exec (.tdcArmWrite rd ch v) s = .next (tdcCfgWrite ch v (countReg rd 1 (chReg ch 0) s))) ∧
    (∀ (ch : Fin 8) (r : TdcRes) (l : List TdcRes), decideAccess s 0 (chReg ch 0xC) false = .ok → s.tdc.ch[ch].fifo = r :: l →
      ∃ t, exec (.tdcResultPop 0 ch) s = .next t ∧ t.tdc.ch[ch].fifo = l ∧ t.tdc.ch[ch].shadow = r ∧ t.host.rd[0] = w32 (twos 32 r.value)) ∧
    (∀ (a : TdcArgs) (n : Fin 8), Ready c 0x420 0 s → a.rsv = false → generalCh a.ch = some n → a.mode.toNat ≤ 2 → tdcSource a.start.toNat = true →
      tdcSource a.stop.toNat = true → a.start ≠ 0#8 → a.stop ≠ 0#8 → a.start ≠ a.stop → 1 ≤ a.timeout.toNat → a.timeout.toNat ≤ 2000000 →
      1 ≤ a.n.toNat → a.n.toNat ≤ 16777215 → ch6Busy s a.ch = false → exec (.icpTdcConfig c a) s = ok c 0x420 []
        (onCh n (fun c => { c with cont := a.cont, irq := a.irq, startFall := a.startFall, stopFall := a.stopFall, timeout := a.timeout.toNat, count := a.n.toNat })
          (tdcSet n (fun c => { c with mode := a.mode.toNat, startSrc := a.start.toNat, stopSrc := a.stop.toNat, tbInternal := a.internal }) s))) ∧
    (∀ (ch : BitVec 8) (n : Fin 8) (k : Fin 2), Taken c 0x421 s → generalCh ch = some n → measureIdx n = some k → s.tdc.ch[n].armBad = false →
      ch6Busy s ch = false → s.tdc.ch[n].arm = false → s.tdc.measure[k] = none → exec (.icpTdcMeasure c ch false) s =
        .next (tdcArm n { s with tdc := { s.tdc with measure := s.tdc.measure.set k.1 (some c) } })) ∧
    (∀ code : BitVec 8, Ready c 0x422 0 s → code.toNat ≤ 3 →
      exec (.icpTdcTimebase c 1#8 code false) s = ok c 0x422 [] { s with tdc := { s.tdc with tbEn := true, tbNom := code.toNat } } ∧
      exec (.icpTdcTimebase c 0#8 code false) s = ok c 0x422 [] (tbPresence false { s with tdc := { s.tdc with tbEn := false, tbNom := code.toNat } })) ∧
    (∀ n : BitVec 16, Ready c 0x423 0 s → 1 ≤ n.toNat → n.toNat ≤ 3600 →
      exec (.icpTdcCalConfig c n false) s = ok c 0x423 [] { s with tdc := { s.tdc with calPeriod := n.toNat } }) ∧
    (∀ (ch : BitVec 8) (n : Fin 8) (k : Word), Ready c 0x424 0 s → ch.toNat = n.1 → k.toInt.natAbs ≤ 32767 →
      exec (.icpTdcSkew c ch k false) s = ok c 0x424 [] (onCh n (fun c => { c with skew := k.toInt }) s)) ∧
    (Ready c 0x425 44 s → Reads (.icpTdcStatus c) c 0x425 44 s)

/-- The outputs' events and commands have their effect (07 R149, 07 R150, 07 R151, 07 R154, 07 R164, 07 R165, 08 R171, 15
R335). -/
def Obligations.OutputCommands : Prop :=
  ∀ (c : CmdRef) (s : State),
    (∀ (line : Fin 2) (at_ : Nat) (m : List Byte) (k : Nat), timeUp s = true → (s.mile.tod[line]).pending = some (at_, m) → k = tickOf s at_ →
      k ≤ s.time.bOdo + periodTicks → exec (.todoutMessage line) s = .next { s with
        time := { s.time with odo := max s.time.odo k }
        mile := { s.mile with tod := s.mile.tod.set line.1 (if todRuns s s.mile.tod[line]
          then { s.mile.tod[line] with last := m, start := k, pending := none } else { s.mile.tod[line] with pending := none }) } }) ∧
    (∀ (off : BitVec 16) (ck : Nat) (low : Bool) (s0 : State), low = (!s.foot.peerOwn &&
        decide (max s.foot.peerOwnLowSince s.foot.takenAt + 25 * s.foot.oeNeedUs ≤ (atCk ck s).foot.ck)) →
      s0 = { atCk ck s with foot := { (atCk ck s).foot with oeBlocked := s.foot.oeBlocked && !low } } → timeUp s = true →
      oeWanted s0 ≠ s.mile.oe → oeMoment s (s.time.bOdo + off.toNat) = true →
      exec (.oeTimingChange off ck) s = .next (conflictCheck (setOe (oeWanted s0) (atTick off s0)))) ∧
    (∀ (a : PpsArgs) (k : Fin 4), Ready c 0x400 0 s → a.rsv = false → a.out.toNat = k.1 → a.enable.toNat ≤ 1 → 100 ≤ a.widthNs.toNat →
      a.widthNs.toNat ≤ 500000000 → a.widthNs.toNat % 100 = 0 → a.cable.toInt.natAbs ≤ 100000 →
      exec (.icpPpsConfig c a) s = ok c 0x400 [] { s with mile := { s.mile with pps := upd s.mile.pps k fun p => { p with
        en := a.enable == 1#8, inv := a.inv, acqQuiet := a.acqQuiet, width := a.widthNs.toNat / 100, cable := a.cable.toInt } } }) ∧
    (∀ (a : FreqArgs) (j : Fin 2), Ready c 0x401 0 s → a.rsv = false → a.out.toNat = j.1 → a.enable.toNat ≤ 1 → a.standard.toNat ≤ 1 →
      1 ≤ a.hz.toNat → a.hz.toNat ≤ 100000000 → a.cable.toInt.natAbs ≤ 100000 →
      exec (.icpFreqConfig c a) s = ok c 0x401 [] (outFollow { s with mile := { s.mile with freq := upd s.mile.freq j fun f => { f with
          en := a.enable == 1#8, hcsl := a.standard == 1#8, acqQuiet := a.acqQuiet, cable := a.cable.toInt,
          hz := if f.run then f.hz else a.hz.toNat,
          hzNext := if f.run && a.hz.toNat != f.hz then some a.hz.toNat else none } } })) ∧
    (∀ (a : TodArgs) (j : Fin 2), Ready c 0x402 0 s → a.rsv = false → a.out.toNat = j.1 → a.enable.toNat ≤ 1 → a.scale.toNat ≤ 1 →
      10 ≤ a.delay.toNat → a.delay.toNat ≤ 800 → a.baud.toNat ≤ 7 →
      exec (.icpTodConfig c a) s = ok c 0x402 [] { s with mile := { s.mile with tod := upd s.mile.tod j fun l => { l with
        en := a.enable == 1#8, utc := a.scale == 1#8, baud := a.baud.toNat, delay := a.delay.toNat } } }) ∧
    (∀ (a : OutCalArgs) (pin : Fin 16), Taken c 0x403 s → a.rsv = false → a.freq.toNat ≤ 1 →
      a.out.toNat ≤ (if a.freq = 0#8 then 3 else 1) → 1 ≤ a.edges.toNat → a.edges.toNat ≤ 1000 → a.pin.toNat = pin.1 →
      s.mile.evt[pin].dir = 2 → s.mile.outCal = none → ∃ t, exec (.icpOutCalibrate c a) s = .next t ∧ t.tdc.ch6Held = true ∧
        t.mile = { s.mile with outCal := some { cmd := c, freq := a.freq == 1#8, out := a.out.toNat, pin := pin.1, cable := a.cable.toInt, edges := a.edges.toNat } }) ∧
    (∀ (loop rms : Word) (w : OutCal) (pin : Fin 16) (d : Int) (t : State), s.mile.outCal = some w → w.pin = pin.1 →
      d = loop.toInt - w.cable - s.mile.evt[pin].inDelay → -100000 ≤ d → d ≤ 100000 →
      t = { onCh 6 (fun c => { c with arm := false, busy := false }) s with
        tdc := { (onCh 6 (fun c => { c with arm := false, busy := false }) s).tdc with ch6Held := false }, mile := { s.mile with outCal := none } } →
      exec (.outCalibrateDone loop rms true) s = ok w.cmd 0x403 (le 4 loop.toNat ++ le 4 rms.toNat ++ leI 4 d) (outDelaySet w d t) ∧
      exec (.outCalibrateDone loop rms false) s = .next (complete w.cmd 0x403 stBusy [] t)) ∧
    (Ready c 0x414 80 s → Reads (.icpOutStatus c) c 0x414 80 s)

/-- Milestone's events and commands have their effect (07 R155, 07 R156, 07 R157, 07 R158, 07 R159, 07 R160, 07 R161, 07
R162, 07 R163, 07 R165). -/
def Obligations.MilestoneCommands : Prop :=
  ∀ (c : CmdRef) (s : State),
    (∀ (n : Fin 16) (k : Int), timeUp s = true → s.mile.evt[n].armed = true → s.mile.evt[n].dir = 1 → edgePos s s.mile.evt[n] = some k →
      k ≤ 256 * ((s.time.bOdo : Int) + 65536) → exec (.milestoneFire n) s =
        .next (mileEdge n k { s with time := { s.time with odo := max s.time.odo (k / 256).toNat } })) ∧
    (∀ (n : Fin 16) (off : BitVec 16) (eighth : BitVec 3) (falling : Bool) (l : List CapEntry), timeUp s = true → s.mile.evt[n].dir = 2 →
      s.mile.evt[n].edge = 2 ∨ (s.mile.evt[n].edge = 0 ∧ falling = false) ∨ (s.mile.evt[n].edge = 1 ∧ falling = true) →
      (∀ p, s.mile.evt[n].lastEdge = some p → p + 128 ≤ (s.time.bOdo + off.toNat) * 8 + eighth.toNat) →
      s.mile.evt[n].fifo = l → l.length < 16 → ∃ t e, exec (.evtCapture n off eighth falling) s = .next t ∧ e.falling = falling ∧
        e.mode = modeCode s.sys.mode ∧ t.mile.evt[n].fifo = l ++ [e]) ∧
    (∀ (n : Fin 16) (e : CapEntry) (l : List CapEntry), decideAccess s 0 (evtReg n 0x20) false = .ok → s.mile.evt[n].fifo = e :: l →
      ∃ t, exec (.capturePop 0 n) s = .next t ∧ t.mile.evt[n].fifo = l ∧ t.mile.evt[n].shadow = e ∧ t.mile.evt[n].shadowValid = true ∧
        t.host.rd[0] = w32 (nsOf e.cnt)) ∧
    (∀ (rd : Fin 9) (n : Fin 16) (v : Word), decideAccess s rd (evtReg n 0) true = .ok →
      exec (.mileArmWrite rd n v) s = .next (mileCfgWrite n v (countReg rd 1 (evtReg n 0) s))) ∧
    (∀ (a : MileArmArgs) (n : Fin 16) (s1 : State), Ready c 0x410 8 s → a.pin.toNat = n.1 → firstFail (armChecks a s) = stOk →
      s1 = onEvt n (fun e => { e with
          kind := a.kind.toNat, cont := a.cont, pol := a.pol, irq := a.irq, width := a.width.toNat, per := a.per,
          perFrac := a.perFrac.setWidth 32, count := a.count.toNat }) s →
      (a.tai = true → ∃ p, p.length = 8 ∧ exec (.icpMileArm c a) s =
        ok c 0x410 p (mileConvert n (onEvt n (fun e => { e with armed := false, tai := some (armTai a) }) s1))) ∧
      (a.tai = false → ∃ p, p.length = 8 ∧ exec (.icpMileArm c a) s = ok c 0x410 p (mileStart n (onEvt n (fun e => { e with
          tgtLo := a.target.setWidth 32, tgtHi := w32 (bits a.target.toNat 47 32) }) s1)))) ∧
    (∀ (pin : BitVec 8) (n : Fin 16), Ready c 0x411 0 s → pin.toNat = n.1 →
      exec (.icpMileDisarm c pin false) s = ok c 0x411 [] (mileCancel n s)) ∧
    (∀ (a : MileCapArgs) (n : Fin 16), Ready c 0x412 0 s → a.rsv = false → a.pin.toNat = n.1 → a.edge.toNat ≤ 2 → s.mile.evt[n].dir = 2 →
      a.inDelay.toInt.natAbs ≤ 100000 → exec (.icpMileCaptureConfig c a) s =
        ok c 0x412 [] (onEvt n (fun e => { e with edge := a.edge.toNat, irq := a.irq, inDelay := a.inDelay.toInt }) s)) ∧
    (∀ rate en : BitVec 8, Ready c 0x413 0 s → en.toNat ≤ 1 → rate.toNat ≤ 50 → (en = 1#8 → rate ≠ 0#8) →
      exec (.icpEpochConfig c rate en false) s = ok c 0x413 [] { s with mile := { s.mile with epochNext := some (rate.toNat, en == 1#8) } })

/-- The GNSS baseband's events and commands have their effect (09 R183, 09 R185, 09 R187, 09 R190, 09 R193, 09 R195, 09
R196, 09 R199, 09 R201). -/
def Obligations.BasebandCommands : Prop :=
  ∀ (c : CmdRef) (s : State),
    (gnssUp s = true → ∀ (ch : Fin 128) (v : Word) (w : List (BitVec 9 × Word)),
      exec (.channelEnable ch v w) s = .next (onChan ch (fun c => (c.stage w).ctrlWrite (scntNow s) v) s) ∧
      exec (.channelApply ch w) s = .next (onChan ch (fun c => { c.stage w with pending := true }) s)) ∧
    (∀ (ch : Fin 128) (l : List (BitVec 4)) (c : GnssCh), c = s.gnss.chans[ch] → chanClock s ch = true → c.run = true →
      firstInCycle s ch = true →
      (∀ k, c.samplesToDump = some k → c.since + k ≤ 125000 → exec (.dumpBoundary ch l) s =
        .next (dumpAt ch k false (c.laneSums s.gnss.fe[sigStream c.sig] k l) s)) ∧
      ((∀ k, c.samplesToDump = some k → 125000 < c.since + k) → exec (.forcedBoundary ch l) s =
        .next (dumpAt ch (125000 - c.since) true (c.laneSums s.gnss.fe[sigStream c.sig] (125000 - c.since) l) s))) ∧
    (gnssUp s = true → s.gnss.clkEn = true → ∀ (st : Fin 2) (l : List (BitVec 4)), ∃ t, exec (.feMagPeriod st l) s = .next t ∧
      t.gnss = { s.gnss with fe := s.gnss.fe.set st.1 (s.gnss.fe[st].period l) }) ∧
    (∀ (rx : List Byte) (x : SpiTxn) (l : List SpiTxn) (d : CmdRef), s.gnss.spi = x :: l → x.cmd = some d →
      exec (.gnssSpiDone rx) s = .next (raise 98 (complete d 0x501 stOk
        ((rx ++ zeros 64).take x.bytes.length ++ zeros (64 - x.bytes.length)) (spiStart { s with gnss := { s.gnss with spi := l } })))) ∧
    (∀ (a : FeConfigArgs) (k : Fin 2), Ready c 0x500 0 s → a.rsv = false → a.stream.toNat = k.1 → a.enable.toNat ≤ 1 → a.format.toNat ≤ 1 →
      a.capPhase.toNat ≤ 15 → a.feLat.toNat ≤ 15 → a.ifHz.toInt.natAbs ≤ 20000000 → gnssSelected s = false → gnssUp s = true →
      exec (.icpGnssFeConfig c a) s = ok c 0x500 [] { s with gnss := { s.gnss with fe := upd s.gnss.fe k fun f => { f with
          en := a.enable == 1#8, format := a.format == 1#8, qInv := a.qInv, iqSwap := a.iqSwap, capPhase := a.capPhase.toNat,
          feLat := a.feLat.toNat, ifHz := a.ifHz.toInt } } }) ∧
    (∀ (a : FeSpiArgs) (u : State), Taken c 0x501 s → a.cs.toNat ≤ 1 → a.mode = 0#8 ∨ a.mode = 3#8 → 1 ≤ a.len.toNat → a.len.toNat ≤ 64 →
      (∀ b ∈ a.bytes.toList.drop a.len.toNat, b = 0#8) → 7 ≤ a.div.toNat → gnssSelected s = false → gnssUp s = true →
      u = { s with gnss := { s.gnss with spi := s.gnss.spi ++ [{
        cmd := some c, cs := a.cs == 1#8, mode3 := a.mode == 3#8, div := a.div.toNat, bytes := a.bytes.toList.take a.len.toNat }] } } →
      exec (.icpGnssFeSpi c a) s = .next (if s.gnss.spi.isEmpty then spiStart u else u)) ∧
    (∀ (g : BitVec 16) (k : BitVec 8), Ready c 0x502 0 s → g.toNat ≤ 2047 → 1 ≤ k.toNat → k.toNat ≤ 15 → exec (.icpGnssSignals c g k false) s =
      ok c 0x502 [] (clusterWrite (k.setWidth 4) { s with gnss := { s.gnss with sigMask := g.setWidth 11, clusterMask := k.setWidth 4 } })) ∧
    (∀ (f n : BitVec 8) (p : List Byte), p = ((List.range n.toNat).flatMap fun i => (fin? 128 (f.toNat + i)).elim [] (chanBytes s)) →
      Ready c 0x503 p.length s → 1 ≤ n.toNat → n.toNat ≤ 32 → f.toNat + n.toNat ≤ 128 → exec (.icpGnssChanStatus c f n false) s = ok c 0x503 p s)

/-- The GNSS measurement engine's events have their effect (10 R203, 10 R205, 10 R208, 10 R209, 10 R210, 10 R212, 10 R213,
10 R215, 10 R218, 10 R219, 10 R220, 07 R161). -/
def Obligations.GnssMeasurementCommands : Prop :=
  ∀ (s : State),
    (∀ k : Nat, timeUp s = true → gnssUp s = true → epochInstant s = some k → max s.time.odo (tickOf s k) ≤ s.time.bOdo + periodTicks →
      (s.gnss.burst.active = true → s.gnss.burst.windowOpen = true) →
      exec .measEpoch s = .next (measLatch k (epochPulse (launchAt s k 0) (raiseEpoch { s with
        time := { s.time with odo := max s.time.odo (tickOf s k) }
        mile := { s.mile with epochK := s.mile.epochK + 1, epochs := s.mile.epochs + 1 } })))) ∧
    (gnssUp s = true → ∀ b : Fin 2, (s.gnss.bank[b].full = true → s.gnss.claim = none →
        exec (.measBankClaim (some b)) s = .next { s with gnss := { s.gnss with claim := some b } }) ∧
      (s.gnss.claim = some b → exec (.measBankClaim none) s =
        .next { s with gnss := { s.gnss with claim := none, bank := upd s.gnss.bank b fun q => { q with full := false } } })) ∧
    (gnssUp s = true → ∀ (r : SolReport) (l : List (List Nat)), ∃ t, exec (.gnssSolution r l) s = .next t ∧ t.gnss.sol = solOf s r l) ∧
    (gnssUp s = true → ∀ x : DistIn, ∃ t, exec (.distortionCheck [x]) s = .next t ∧
      t.gnss = { s.gnss with chans := upd s.gnss.chans x.chan (·.distSecond s.gnss.distLimit x) }) ∧
    (gnssUp s = true → ∃ t, exec .agcCheck s = .next t ∧ t.gnss = { s.gnss with fe := updAll s.gnss.fe fun _ f => f.agcSecond s.gnss.agcDev }) ∧
    (gnssUp s = true → s.gnss.guard.state = 1 → s.gnss.guard.window ≤ s.gnss.guard.winAge → exec .guardWindowEnd s = .next (withGuard {
      s.gnss.guard with
      tau := s.gnss.guard.winAge, dBase := s.gnss.guard.winBase, temp := s.gnss.guard.winTemp, holdBase := 0, winAge := 0,
      winBase := s.sign.slots[0].fly.headD 0, winTemp := 0 } s)) ∧
    (gnssUp s = true → s.gnss.posMode = some false → s.gnss.surveyLeft = 0 → ∀ (x y z : BitVec 64) (u : Word), ∃ t,
      exec (.surveyComplete x y z u) s = .next t ∧ t.gnss = { s.gnss with posMode := some true, pos := (x.toInt, y.toInt, z.toInt), posUnc := u.toNat }) ∧
    (gnssUp s = true → s.gnss.burst.en = true → s.gnss.burst.active = false → s.guy.atom.valid = true → gnssSelected s = false →
      exec .snapshotEnter s = .next { s with gnss := { s.gnss with
        burst := { s.gnss.burst with active := true, windowOpen := true, firstLatch := true, exitPending := 0 } } }) ∧
    (gnssUp s = true → s.gnss.burst.active = true → ∀ k : Nat,
      (s.gnss.burst.windowOpen = false → k = max s.time.odo (tickOf s (nextAtMs s (-(s.gnss.burst.lead : Int)))) → k ≤ s.time.bOdo + periodTicks →
        exec .burstWindowOpen s = .next (burstResume { s with
          time := { s.time with odo := k }
          gnss := { s.gnss with burst := { s.gnss.burst with windowOpen := true, firstLatch := true } } })) ∧
      (s.gnss.burst.windowOpen = true → k = max s.time.odo (tickOf s (nextAtMs s ((s.gnss.burst.w : Int) - s.gnss.burst.lead))) →
        k ≤ s.time.bOdo + periodTicks → ∃ t, exec .burstWindowClose s = .next t ∧ t.gnss.burst.windowOpen = false ∧
          t.time = { s.time with odo := k } ∧ ∀ n : Fin 128, t.gnss.chans[n].since = 0)) ∧
    (gnssUp s = true → s.gnss.burst.active = true → s.gnss.burst.exitPending ≠ 0 → ∃ t, exec .snapshotExit s = .next t ∧ t.gnss.burst.windowOpen = false ∧
      t.gnss.burst.active = false ∧ t.gnss.burst.exitCause = s.gnss.burst.exitPending ∧ t.gnss.burst.en = (s.gnss.burst.en && s.gnss.burst.exitPending == 3))

/-- The GNSS measurement engine's ICP commands complete and have their effect (10 R205, 10 R209, 10 R210, 10 R214, 10 R217,
10 R218, 10 R220, 10 R224). -/
def Obligations.GnssConfigCommands : Prop :=
  ∀ (c : CmdRef) (s : State), gnssUp s = true →
    (∀ p : List Byte, p = (match s.gnss.latest with | some b => bankBytesOf s.gnss.bank[b] | none => zeros 4160) →
      Ready c 0x504 p.length s → exec (.icpGnssMeasGet c) s = ok c 0x504 p s) ∧
    (Ready c 0x506 48 s → Reads (.icpGnssSolStatus c) c 0x506 48 s) ∧
    (∀ a : PositionArgs, Ready c 0x505 0 s → a.rsv = false → gnssSelected s = false →
      (a.mode = 0#8 → 3600 ≤ a.survey.toNat → a.survey.toNat ≤ 604800 → exec (.icpGnssPosition c a) s = ok c 0x505 [] { s with
        gnss := { s.gnss with posMode := some false, surveyTime := a.survey.toNat, surveyLeft := a.survey.toNat } }) ∧
      (a.mode = 1#8 → 1 ≤ a.unc.toNat → farOut a.x.toInt a.y.toInt a.z.toInt = false → ∃ t, exec (.icpGnssPosition c a) s = ok c 0x505 [] t ∧
        t.gnss = { s.gnss with posMode := some true, pos := (a.x.toInt, a.y.toInt, a.z.toInt), posUnc := a.unc.toNat })) ∧
    (∀ d0 d1 u : Word, Ready c 0x507 0 s → 1 ≤ u.toNat → d0.toInt.natAbs ≤ 10000000 → d1.toInt.natAbs ≤ 10000000 → gnssSelected s = false →
      exec (.icpGnssDelay c d0 d1 u false) s = ok c 0x507 [] { s with
        gnss := { s.gnss with delay0 := d0.toInt, delay1 := d1.toInt, delayUnc := u.toNat } }) ∧
    (∀ a : IntegrityArgs, Ready c 0x508 0 s → a.rsv = false → 10 ≤ a.traimLimit.toNat → a.traimLimit.toNat ≤ 10000 → 1 ≤ a.maxExcl.toNat →
      a.maxExcl.toNat ≤ 8 → 1 ≤ a.distMin.toNat → a.distMin.toNat ≤ 32 → 1 ≤ a.distLimit.toNat → a.distLimit.toNat ≤ 1000 →
      5 ≤ a.agcDev.toNat → a.agcDev.toNat ≤ 500 → exec (.icpGnssIntegrityConfig c a) s = ok c 0x508 [] { s with gnss := { s.gnss with
        traimLimit := a.traimLimit.toNat, traimMaxExcl := a.maxExcl.toNat, distMin := a.distMin.toNat, distLimit := a.distLimit.toNat,
        agcDev := a.agcDev.toNat } }) ∧
    (∀ (a : GuardArgs) (s1 : State), Ready c 0x509 0 s → a.rsv = false → 5 ≤ a.spoofLimit.toNat → a.spoofLimit.toNat ≤ 100000 →
      60 ≤ a.window.toNat → a.window.toNat ≤ 86400 → (a.enable = false → gnssSelected s = false) →
      s1 = withGuard { s.gnss.guard with
        spoofLimit := a.spoofLimit.toNat, window := a.window.toNat, en := a.enable, latch := a.latch } s →
      exec (.icpGnssGuardConfig c a) s = ok c 0x509 [] (if a.enable then s1 else guardOff s1)) ∧
    (Ready c 0x50A 0 s → s.gnss.guard.state = 3 → exec (.icpGnssGuardRelease c) s = ok c 0x50A [] (requalify 0 0x41 (faultCond 12 false
      (withGuard (s.gnss.guard.anchored s.gnss.guard.flyAtom (s.sign.slots[0].fly.headD 0) 1) s)))) ∧
    (∀ a : BurstArgs, Ready c 0x50B 0 s → a.rsv = false →
      (a.enable = 1#8 → 20 ≤ a.w.toNat → a.w.toNat ≤ 500 → 10 ≤ a.lead.toNat → a.lead.toNat ≤ a.w.toNat - 10 → gnssSelected s = false →
        s.guy.atom.valid = true → exec (.icpGnssBurst c a) s = ok c 0x50B [] { s with
          gnss := { s.gnss with burst := { s.gnss.burst with en := true, w := a.w.toNat, lead := a.lead.toNat } } }) ∧
      (a.enable = 0#8 → exec (.icpGnssBurst c a) s = ok c 0x50B [] { s with gnss := { s.gnss with burst := { s.gnss.burst with
          en := false
          exitPending := if s.gnss.burst.active && s.gnss.burst.exitPending = 0 then 3 else s.gnss.burst.exitPending } } }))

/-- The ports' events have their effect (11 R228, 11 R229, 11 R232, 11 R233, 11 R236, 11 R237, 11 R238, 11 R240, 11 R242, 11
R243, 12 R263). -/
def Obligations.PortEvents : Prop :=
  ∀ (s : State) (p : Fin 4),
    (portUp s p = true → s.port.p[p].pcsUp = false →
      exec (.pcsUp p) s = .next (holdStart p (onPort p (fun q => { q with pcsUp := true, cdrLock := true }) s))) ∧
    exec (.pcsLoss p) s = .next (linkDown p (onPort p (fun q => { q with pcsUp := false, cdrLock := false }) s)) ∧
    (linkMay s p = true → s.port.p[p].holdRunning = true → exec (.linkUp p) s = .next (linkRise p s)) ∧
    (portUp s p = true → s.port.p[p].mode = 3 → s.port.p[p].an = true →
      exec (.autonegRestart p) s = .next (linkDown p (onPort p (fun q => { q with pcsUp := false }) s))) ∧
    (portUp s p = true → s.port.p[p].pllLock = true → exec (.serdesPllLoss p) s = .next (linkDown p (portConds (portHist p 0x20#32
      (onPort p (fun q => { q with pllLock := false }) s))))) ∧
    (portUp s p = true → s.port.p[p].pllLock = false → exec (.serdesPllRelock p) s = .next (holdStart p (portConds
      (onPort p (fun q => { q with pllLock := true }) s)))) ∧
    (portUp s p = true → exec (.finePhaseTrackLost p) s = .next (linkDown p (portConds (onPort p (fun q => { q with phaseLost := true }) s)))) ∧
    (s.port.p[p].phaseLost = true →
      exec (.finePhaseTrackRegained p) s = .next (holdStart p (portConds (onPort p (fun q => { q with phaseLost := false }) s)))) ∧
    (∀ k : Nat, k = 4 * s.port.p[p].pauseAt + s.port.p[p].pauseTimer * quantumQ s.port.p[p].mode → s.port.p[p].pauseTimer ≠ 0 →
      inPeriod k s = true → exec (.pauseTimerExpiry p) s = .next (txStart p (pauseLoad p 0 (atQ k s)))) ∧
    (∀ k : Nat, k = 4 * (s.port.p[p].pauseSince + 781250 * s.port.p[p].pauseWd) → s.port.p[p].pauseTimer ≠ 0 → scopeNow s.port.p[p] ≠ 0 →
      inPeriod k s = true → exec (.pauseWatchdogTrip p) s = .next (txStart p (portConds (raise (132 + p.1) (portHist p 4#32
        (portCount p 24 1 none (onPort p (fun q => { q with wdTripped := true }) (atQ k s)))))))) ∧
    (s.port.p[p].txPause = true → s.port.p[p].xoffSent = true →
      (s.port.p[p].xon * 1024 < s.port.p[p].fill → exec (.xoffRepeat p) s = .next (ctlSend p (.pause 0xFFFF) s)) ∧
      exec (.xonSend p) s = .next (ctlSend p (.pause 0)
        (onPort p (fun q => { q with xoffSent := false, fill := min q.fill (q.xon * 1024) }) s))) ∧
    (s.port.p[p].esmcEn = true → s.port.p[p].esmcEventDue = true → s.port.p[p].link = true → exec (.esmcEventPdu p) s =
      .next (ctlSend p (esmcFrame s.port.p[p] true) (onPort p (fun q => { q with esmcEventDue := false }) s))) ∧
    (s.port.p[p].link = true → ∀ ps : Int, exec (.syncePhaseMeasure p ps true true) s =
      .next (pushMeas ⟨5 + p.1, by omega⟩ (5 * rdiv ps 5) (odoTime s.time.odo) s.time.odo
        (onPort p (fun q => { q with cdrLock := true }) s))) ∧
    (∀ (f : RxFrame) (s1 : State), f.port = p → s.port.p[p].link = true → 64 ≤ f.len → f.len ≤ s.port.p[p].maxFrame → f.fcsOk = true →
      f.fill + f.len ≤ 98304 → s1 = onPort p (fun q => { q with fill := f.fill }) (atTick f.off s) →
      (∀ q, f.body = .macControl 1#16 q → exec (.frameReceive f) s = .next (pauseFrame p q.toNat s1)) ∧
      (∀ u, f.body = .slow u → u.subtype = 0x0A#8 → exec (.frameReceive f) s = .next (esmcReceive p f.dmac u s1)) ∧
      (f.body = .other ∨ (∃ u, f.body = .slow u ∧ u.subtype ≠ 0x0A#8) → exec (.frameReceive f) s = .next (classify f (rxStamp s1 f) (rxStore f
        (portCount p 1 f.len none (portCount p 0 1 none s1)))))) ∧
    (∀ (d : TxDesc) (r : TxRing) (s1 : State), s.port.p[p].txRing[d.slot] = some r → r.full = false → canWrite s d.slot = true →
      s1 = onTxRing p d.slot (TxRing.post d) s →
      (d.queue ≤ 5 → exec (.hostTxDescriptor p d) s = .next (txStart p s1)) ∧
      (5 < d.queue → exec (.hostTxDescriptor p d) s = .next (txStart p (txEnd p { idx := r.pi, d := d } (txCheck s1 p d) s1)))) ∧
    (∀ f, inAir s.port.p[p] = some f → inPeriod (airEnd s.port.p[p] f) s = true →
      exec (.hostFrameSent p) s = .next (txStart p (txFinish p f (atQ (airEnd s.port.p[p] f) s))))

/-- The ports' and Waypoint's ICP commands complete and have their effect (11 R228, 11 R238, 11 R242, 11 R246, 12 R247, 12
R252, 12 R253, 12 R262, 12 R266). -/
def Obligations.PortCommands : Prop :=
  ∀ (c : CmdRef) (s : State),
    (∀ (a : PortConfigArgs) (p : Fin 4), Ready c 0x600 0 s → a.rsv = false → a.port.toNat = p.1 → a.mode.toNat ≤ 3 →
      (a.fec = true → a.mode = 1#8) → (a.an = true → a.mode = 3#8) → (a.setMac = true → a.mac.getLsbD 40 = false ∧ a.mac ≠ 0#48) →
      1518 ≤ a.maxFrame.toNat → a.maxFrame.toNat ≤ 9600 → a.linkHold.toNat ≤ 10000 → firstFail (portChecks s p a) = stOk →
      exec (.icpPortConfig c a) s = ok c 0x600 [] (txTooLong p (onPort p (fun q => { q with
          an := a.an, maxFrame := a.maxFrame.toNat, linkHold := a.linkHold.toNat, mac := if a.setMac then a.mac else q.mac })
        (if modeChange s p a then portMode p a.mode.toNat a.fec s else s)))) ∧
    (∀ b : BitVec 8, b.toNat < 4 → Ready c 0x601 48 s → Reads (.icpPortStatus c b false) c 0x601 48 s) ∧
    (∀ (a : PauseArgs) (p : Fin 4), Ready c 0x602 0 s → a.rsv = false → a.port.toNat = p.1 → a.scope.toNat ≤ 2 → 1 ≤ a.wd.toNat →
      a.wd.toNat ≤ 1000 → a.xoff.toNat ≤ 64 → a.xon.toNat + 8 ≤ a.xoff.toNat → exec (.icpPortPauseConfig c a) s = ok c 0x602 [] (txStart p
        (xoffCheck p (portConds (onPort p (fun q => { q with
          pauseScope := a.scope.toNat, txPause := a.txPause, pauseWd := a.wd.toNat, xoff := a.xoff.toNat, xon := a.xon.toNat
          wdTripped := false, xoffSent := q.xoffSent && a.txPause }) s))))) ∧
    (∀ (a : EsmcArgs) (p : Fin 4), Ready c 0x603 0 s → a.rsv = false → a.port.toNat = p.1 → a.ssm.toNat ≤ 15 →
      (a.qlMode = true → esmcCodes a.ssm.toNat a.essm.toNat = true) → ∃ t, exec (.icpPortEsmcConfig c a) s = ok c 0x603 [] t ∧
        t.port.p[p].esmcEn = a.en ∧ t.port.p[p].txQlMode = a.qlMode ∧ t.port.p[p].extTlv = a.ext ∧ t.port.p[p].txSsm = a.ssm.toNat ∧
        t.port.p[p].txEssm = a.essm.toNat) ∧
    (∀ (a : RingArgs) (p : Fin 4), Ready c 0x604 0 s → cmdRole c s = .owner → pfOf s c.slot ≠ none → a.rsv = false → a.port.toNat = p.1 →
      a.enable.toNat ≤ 1 → 16 ≤ a.count.toNat → a.count.toNat ≤ 4096 → isPow2 a.count.toNat = true → ∀ (r : Option RxRing) (t : Option TxRing),
      r = (if a.enable = 1#8 then some { count := a.count.toNat, bufKiB := a.bufKiB.toNat, base := a.base, wb := a.wb } else none) →
      t = (if a.enable = 1#8 then some { count := a.count.toNat, base := a.base, wb := a.wb } else none) →
      (a.dir = 1#8 → 2 ≤ a.bufKiB.toNat → a.bufKiB.toNat ≤ 10 → s.port.p[p].maxFrame ≤ a.bufKiB.toNat * 1024 →
        exec (.icpPortRingConfig c a) s = ok c 0x604 [] (onPort p (fun q => { q with rxRing := upd q.rxRing c.slot fun _ => r }) s)) ∧
      (a.dir = 0#8 → exec (.icpPortRingConfig c a) s =
        ok c 0x604 [] (onPort p (fun q => { q with txRing := upd q.txRing c.slot fun _ => t }) (txRingEnd p c.slot s)))) ∧
    (∀ m : BitVec 16, Ready c 0x610 0 s → 500 ≤ m.toNat → m.toNat ≤ 50000 →
      exec (.icpWaypConfig c m false) s = ok c 0x610 [] { s with wayp := { s.wayp with margin := m.toNat } }) ∧
    (∀ (sl po li : BitVec 8) (i : Fin 8) (p : Fin 4), Ready c 0x611 0 s → sl.toNat = i.1 → po.toNat = p.1 → 1 ≤ li.toNat → li.toNat ≤ 64 →
      exec (.icpWaypTsqLimit c sl po li false) s =
        ok c 0x611 [] (onWayp p (fun w => { w with tsqSlot := upd w.tsqSlot i fun t => { t with limit := li.toNat } }) s)) ∧
    (∀ (po : BitVec 8) (p : Fin 4) (n : BitVec 16), po.toNat = p.1 → s.port.p[p].link = true → s.port.p[p].mode ≠ 0 → s.wayp.p[p].cal = none →
      1 ≤ n.toNat → n.toNat ≤ 1000 →
      (Taken c 0x612 s → ppsRuns s s.mile.pps[0] = true → exec (.icpWaypCalPulse c po n false) s =
        .next (onWayp p (fun w => { w with cal := some {
          cmd := c, loop_ := false, n := n.toNat, rx := p, left := n.toNat, start := s.time.odo } }) s)) ∧
      (∀ (rx : BitVec 8) (r : Fin 4), rx.toNat = r.1 → s.port.p[r].link = true → s.port.p[r].mode ≠ 0 → Taken c 0x613 s →
        exec (.icpWaypLoopback c po rx n false) s =
          .next (calLaunch p (nowQ s) (onWayp p (fun w => { w with cal := some {
            cmd := c, loop_ := true, n := n.toNat, rx := r, left := n.toNat - 1, start := s.time.odo } }) s)))) ∧
    (∀ (a : CalSetArgs) (p : Fin 4), Ready c 0x614 0 s → a.rsv = false → a.port.toNat = p.1 → 1 ≤ a.unc.toNat → a.unc.toNat ≤ 4000 →
      a.txLat.toNat ≤ 1000000 → a.rxLat.toNat ≤ 1000000 → s.regs.lk.getLsbD 3 = false → exec (.icpWaypCalSet c a) s =
        ok c 0x614 [] (calLoad p (calStore p s.port.p[p].mode s.port.p[p].fec
          { txLat := a.txLat.toNat, rxLat := a.rxLat.toNat, unc := a.unc.toNat, conn := a.conn, eq := s.port.p[p].eq } s)))

/-- Waypoint's events have their effect (12 R250, 12 R251, 12 R253, 12 R256, 12 R257, 12 R258, 12 R259, 12 R261, 12 R266, 01
R21). -/
def Obligations.WaypointEvents : Prop :=
  ∀ (s : State) (p : Fin 4),
    exec (.reservationRetry p) s = .next (retryAll p s.wayp.p[p].waiting s) ∧
    (∀ (id : Nat) (a : Int), unreserved s p id = some a → inPeriod (lateQ a) s = true → ∀ u : State, u = waitEnd p id (atQ (lateQ a) s) →
      (∀ x, txnOf s id = some x → exec (.reservationDeadline p id) s = .next (freeTxn id (servLate x u))) ∧
      (∀ m, txnOf s id = none → msgOf s id = some m → exec (.reservationDeadline p id) s = .next (freeTxn id (ptpLate m u)))) ∧
    (∀ e, s.wayp.p[p].launch.find? (!·.checked) = some e → inPeriod (e.d - 512) s = true → isSilent s e = false → e.ready ≤ e.d - 512 →
      exec (.launchPoolDeadline p false) s = .next (onWayp p (fun w => { w with
        launch := w.launch.map fun x => if x == e then { x with checked := true } else x }) (atQ (e.d - 512) s))) ∧
    (∀ e, s.wayp.p[p].launch.head? = some e → inPeriod e.d s = true → e.cal = false → isSilent s e = false → e.checked = true → s.port.p[p].link = true →
      (scopeNow s.port.p[p] = 2 → s.port.p[p].pauseTimer = 0) → exec (.frameLaunch p) s = .next (txStart p
        (freeTxn e.txn (launchFree p e (launchOut e (waypCount p 0 1 none (wireOut p e (atQ e.d s)))))))) ∧
    (∀ e, s.wayp.p[p].launch.head? = some e → inPeriod e.d s = true → e.cal = true → exec (.frameLaunch p) s = .next (txStart p (calSent p e
      (onPort p (fun q => { q with lastCtl := some (.calibration e.stamp) }) (launchFree p e (wireOut p e (atQ e.d s))))))) ∧
    (∀ (i : Fin 8) (e : TsqEnt), decideAccess s ⟨i.1, by omega⟩ (0x90110 + 0x40 * p.1) false = .ok → s.wayp.p[p].tsq.find? (·.slot == i) = some e →
      ∃ t, exec (.tsqPop ⟨i.1, by omega⟩ p) s = .next t ∧ t.wayp.p[p].tsq = s.wayp.p[p].tsq.erase e ∧ t.wayp.p[p].tsqSlot[i].shadow = e) ∧
    (∀ i : Fin 8, decideAccess s ⟨i.1, by omega⟩ (0x90128 + 0x40 * p.1) false = .ok → ∃ t, exec (.tsqLostRead ⟨i.1, by omega⟩ p) s = .next t ∧
      t.wayp.p[p].tsqSlot[i].ovf = (if modeNormal s.sys.mode then 0 else s.wayp.p[p].tsqSlot[i].ovf) ∧ t.wayp.p[p].tsqSlot[i].ovfShadow = s.wayp.p[p].tsqSlot[i].ovf) ∧
    (∀ (k : WaypCal) (u : State), s.wayp.p[p].cal = some k →
      u = onWayp p (fun w => { w with cal := none, launch := w.launch.filter (!·.cal) }) s →
      (k.loop_ = true → k.n ≤ k.results.length → exec (.waypCalDone p) s =
        ok k.cmd 0x613 (leI 4 (calMean k.results).1 ++ le 4 (calMean k.results).2) u) ∧
      (k.loop_ = true → k.results.length < k.n → k.start + tickSec ≤ s.time.odo → exec (.waypCalDone p) s =
        .next (complete k.cmd 0x613 stBusy [] u)) ∧
      (k.loop_ = false → k.left = 0 → (∀ e ∈ s.wayp.p[p].launch, e.cal = false) → k.results ≠ [] → exec (.waypCalDone p) s =
        ok k.cmd 0x612 (leI 4 (calMean k.results).1 ++ le 4 (calMean k.results).2) u))

/-- The time service's events and commands have their effect (13 R269, 13 R274, 13 R275, 13 R276, 13 R282, 13 R283, 13 R285,
13 R293, 13 R295, 13 R297, 13 R300, 13 R301). -/
def Obligations.ServiceCommands : Prop :=
  ∀ (c : CmdRef) (s : State),
    (∀ (id : Nat) (x x1 : Txn) (cur late : Option (Fin 64)), s.serv.inflight.find? (fun t => t.id == id && t.nts && t.authOk = 0) = some x →
      x.kodR = false → cur = currentKey s x.slot.1 false 0 → late = (if x.sealNum.isSome then none else cur) →
      x1 = { x with
        sealNum := x.sealNum.orElse fun _ => late.map fun j => s.vault.keys[j].num
        sealKey := late.elim x.sealKey fun j => s.vault.keys[j].key
        sealAt := late.elim x.sealAt fun j => some (j.1, s.vault.keys[j].gen)
        authOk := authResult cur.isSome x, draw0 := s.vault.draws, silent := authResult cur.isSome x != 1 && !s.serv.nakEn } → ∀ s1 : State,
      s1 = onTxn id (fun _ => x1) { s with vault := { s.vault with draws := s.vault.draws + x.cookies + 1 } } →
      (authResult cur.isSome x = 1 → exec (.ntsCryptoDone id) s = .next (servReserve x1 s1)) ∧
      (authResult cur.isSome x = 2 → exec (.ntsCryptoDone id) s = .next (servReserve x1 (servReject x.slot (txnCount x 10 1 s1)))) ∧
      (authResult cur.isSome x = 3 → exec (.ntsCryptoDone id) s = .next (servReserve x1 (servReject x.slot (txnCount x 11 1 s1))))) ∧
    (s.sys.mgmtFwRunning = true → (s.pert.k[1]).armed = false → ∀ n : Nat, n = (if (fillPools s).serv.resCnt = 0 then 4000
        else (fillPools s).serv.resSum / (fillPools s).serv.resCnt) → ∃ t, exec .creditRateUpdate s = .next t ∧ t.serv.tProc = n ∧
        t.serv.pool.rate = min ((fillPools s).serv.creditMax * ones (fillPools s).serv.aesLanes / 8)
          (512000000 / (n + (fillPools s).wayp.margin))) ∧
    (timeUp s = true → s.time.odo ≤ s.serv.sweepStart + 468750000000 → ∀ b : BitVec 18, b.toNat = s.serv.sweepPos → b.toNat + 1 < 262144 →
      exec (.tollgateScrubVisit b) s = .next (onServ (fun v => { v with sweepPos := v.sweepPos + 1 })
        (bucketSet b.toNat ((bucketAt s b.toNat).scrub s) s))) ∧
    (∀ (i : Fin 8) (k : Fin 32) (a : ServAddr), s.serv.slots[i].addrs[k] = some a → smearOpenNow s a ≠ a.smearOpen →
      exec (.smearWindowEdge i k) s = .next (raiseOwn i 163 (servHist i 0x10#32 (onServSlot i (fun q => { q with
        addrs := q.addrs.set k.1 (some { a with smearOpen := !a.smearOpen }) }) s)))) ∧
    (powered s 5 = true → ∀ (x : BitVec 8) (h : BitVec 4), s.serv.aesLanes &&& x ≠ s.serv.aesLanes →
      exec (.cryptoSelfTest x h) s = .next (authTrim (authCap (faultCond 25 (s.serv.shaEng &&& h != 0xF#4)
        (faultCond 24 (s.serv.aesLanes &&& x != 0xFF#8) (raise 165
          (onServ (fun v => { v with aesLanes := v.aesLanes &&& x, shaEng := v.shaEng &&& h }) s))))))) ∧
    (∀ (a : AddrSetArgs) (k : Fin 32), Ready c 0x700 0 s → a.rsv = false → a.idx.toNat = k.1 → (a.ntp || a.nts) = true →
      (a.ipv6 = false → a.addr.toNat % 2 ^ 96 = 0) → isUnicast (setAddr a) = true → a.vlan.toNat ≤ 4094 →
      (a.ipv6 = true → 32 ≤ a.prefix6.toNat ∧ a.prefix6.toNat ≤ 128) → 1 ≤ a.ports.toNat → a.ports.toNat ≤ 15 → 1 ≤ a.rate.toNat →
      a.rate.toNat ≤ 1048575 → 1 ≤ a.burst.toNat → a.burst.toNat ≤ 1024 → (a.smear = true → a.w ≠ 0#32) →
      (a.w ≠ 0#32 → 3600 ≤ a.w.toNat ∧ a.w.toNat ≤ 172800) → (a.burst.toNat - 1) * emission a.rate.toNat < 2 ^ 30 →
      (addrAt s c.slot k.1 = none → addrTotal s < 256) → (∀ b ∈ otherAddrs s c.slot k.1, addrClash (newAddr a) b = false) →
      smearLocked s c.slot a = false → exec (.icpServAddrSet c a) s = ok c 0x700 [] (onServSlot c.slot (fun q => { q with
        addrs := q.addrs.set k.1 (some { newAddr a with smearOpen := (addrAt s c.slot k.1).elim false (·.smearOpen) }) }) s)) ∧
    (∀ (b : BitVec 8) (k : Fin 32), Ready c 0x701 0 s → b.toNat = k.1 → exec (.icpServAddrDel c b false) s =
      ok c 0x701 [] (if (s.serv.slots[c.slot].addrs[k]).isSome then addrDelete c.slot k s else s)) ∧
    (∀ p : List Byte, p = le 1 (addrCount s.serv.slots[c.slot]) ++ zeros 3 ++
        ((List.finRange 32).flatMap fun k => s.serv.slots[c.slot].addrs[k].elim [] (addrRecord k.1)) →
      Ready c 0x702 p.length s → exec (.icpServAddrList c) s = ok c 0x702 p s) ∧
    (∀ a : ServConfigArgs, Ready c 0x703 0 s → a.rsv = false → 1 ≤ a.creditMax.toNat → a.creditMax.toNat ≤ 32000 → 1 ≤ a.maxCookies.toNat →
      a.maxCookies.toNat ≤ 8 → exec (.icpServConfig c a) s = ok c 0x703 [] { s with
        serv := { s.serv with creditMax := a.creditMax.toNat, maxCookies := a.maxCookies.toNat, nakEn := a.nakEn } }) ∧
    (∀ (b : BitVec 8) (i : Fin 8) (l : BitVec 16), Ready c 0x704 0 s → b.toNat = i.1 → 1 ≤ l.toNat → l.toNat ≤ 32000 →
      exec (.icpServSlotLimit c b l false) s =
        ok c 0x704 [] (onServSlot i (fun q => { q with pool := { q.pool with rate := l.toNat } }) (fillPools s))) ∧
    (Ready c 0x705 40 s → Reads (.icpServStatus c) c 0x705 40 s) ∧
    (∀ (a : MintArgs) (k : Fin 64), Ready c 0x710 (8 + 104 * a.count.toNat) s → a.rsv = false → a.alg = 15#16 → 1 ≤ a.count.toNat →
      a.count.toNat ≤ 8 → s.vault.storeLoaded = true → currentKey s c.slot.1 false 0 = some k → ntsUp s = true →
      ∃ p, p.length = 8 + 104 * a.count.toNat ∧ exec (.icpNtsMint c a) s = ok c 0x710 p (countN (192 + 17) (some c.slot) a.count.toNat
        { s with vault := { s.vault with draws := s.vault.draws + a.count.toNat } }))

/-- The PTP engine's events and commands have their effect (14 R308, 14 R309, 14 R310, 14 R313, 14 R314, 14 R315, 14 R316,
14 R319, 14 R328). -/
def Obligations.PtpCommands : Prop :=
  ∀ (c : CmdRef) (s : State),
    (∀ (i : BitVec 17) (off : BitVec 16) (k : PtpInst) (s1 : State), s1 = atTick off s → timeUp s = true →
      landsEvery s1 gridFrame (i.toNat * 7808500 * 2 ^ 31) = true → (grantGet s1 i.toNat).free = false →
      s.ptp.inst[(grantGet s1 i.toNat).inst] = some k →
      ((grantGet s1 i.toNat).expired s1 = true →
        exec (.grantVisit i off) s = .next (ptpCount (grantGet s1 i.toNat).port 18 k.owner (grantPut i.toNat {} s1))) ∧
      ((grantGet s1 i.toNat).expired s1 = false → servOpen s1 = true → -16384 ≤ ((grantGet s1 i.toNat).dreqTat - dreqTime s1).toInt →
        exec (.grantVisit i off) s = .next (emitDue (grantGet s1 i.toNat).inst k i.toNat (grantGet s1 i.toNat).logSync (grantGet s1 i.toNat).logAnn
          { port := (grantGet s1 i.toNat).port, dst := some (grantGet s1 i.toNat).addr, mac := mget 0#48 (grantGet s1 i.toNat).nh s1.ptp.nextHop } s1))) ∧
    (∀ (k : Fin 16) (p : Fin 4) (off : BitVec 16) (q : PtpInst) (s1 : State), s1 = atTick off s → timeUp s = true →
      landsEvery s1 gridFrame (7808500 * nsU + (16 * p.1 + k.1) * 125 * 2 ^ 47) = true → s.ptp.inst[k] = some q → servOpen s1 = true →
      q.unicast = false → q.ports.getLsbD p.1 = true → exec (.mcastVisit k p off) s =
        .next (emitDue k q (16 * p.1 + k.1) q.logSync q.logAnn { port := p, mac := ptpMac q.transport q.nonfwd } s1)) ∧
    (∀ ident : BitVec 64, Ready c 0x800 0 s →
      exec (.icpPtpClockConfig c ident) s = ok c 0x800 [] { s with ptp := { s.ptp with clockId := ident } }) ∧
    (∀ (a : InstArgs) (k : PtpInst), Ready c 0x801 0 s → k = newInst c a → notOwn c a.idx s = false → a.rsv = false → a.idx.toNat ≤ 15 →
      a.profile.toNat ≤ 2 → a.transport.toNat ≤ 2 → a.ports.toNat ≤ 15 → transportOk k.profile k.transport k.unicast = true →
      (k.unicast = true → instAddr s k ≠ none) → (k.unicast = false → c.slot = 0 ∧ 1 ≤ a.ports.toNat ∧ breaksBudget a.idx k s = false) →
      domainOk k.profile k.domain = true → annOk k.profile k.logAnn = true → syncOk k.profile k.unicast k.logSync = true →
      (k.profile ≠ 0 → k.prio1 = 128) → classOk k.profile k.oosClass = true → 0x17 ≤ k.accFloor → k.accFloor ≤ 0x30 → 10 ≤ k.durMax →
      k.durMax ≤ 1000 → clientClash s k = false → (k.auth = true → ringKeys s c.slot.1 true k.spp ≠ []) →
      (∀ x, instAt s a.idx = some x → (instMoved x k && hasGrants s a.idx) = false) →
      exec (.icpPtpInstanceSet c a) s = ok c 0x801 [] (putInst a.idx (some { k with
        mcastTat := (instAt s a.idx).elim k.mcastTat (·.mcastTat) }) s)) ∧
    (∀ idx : BitVec 8, Ready c 0x802 0 s → notOwn c idx s = false → idx.toNat ≤ 15 →
      exec (.icpPtpInstanceDel c idx false) s = ok c 0x802 [] (instDelete idx s)) ∧
    (∀ (b : BitVec 8) (i : Fin 8) (g r : Word), Ready c 0x803 0 s → b.toNat = i.1 → g.toNat ≤ 131072 → r.toNat ≤ 16000000 →
      exec (.icpPtpQuota c b g r false) s =
        ok c 0x803 [] (onPtpSlot i (fun q => { q with grantQuota := g.toNat, rateQuota := 8 * r.toNat }) s)) ∧
    (∀ b : Word, Ready c 0x804 0 s → 1000 ≤ b.toNat → b.toNat ≤ 16000000 →
      exec (.icpPtpBudget c b) s = ok c 0x804 [] (authCap { s with ptp := { s.ptp with budget := 8 * b.toNat } })) ∧
    (Ready c 0x805 88 s → Reads (.icpPtpStatus c) c 0x805 88 s) ∧
    (∀ (f : Word) (n : BitVec 16) (l : List (Nat × Grant)) (p : List Byte), l = s.ptp.grants.filter (fun e => f.toNat ≤ e.1) → 1 ≤ n.toNat →
      n.toNat ≤ 100 → p = le 2 (l.take n.toNat).length ++ zeros 2 ++ le 4 ((l.drop n.toNat).head?.elim 0xFFFFFFFF (·.1)) ++
        ((l.take n.toNat).flatMap fun e => grantRecord s e.2) →
      Ready c 0x806 p.length s → exec (.icpPtpGrantRead c f n false) s = ok c 0x806 p s) ∧
    (∀ (n : BitVec 16) (l : List GrantRec), Ready c 0x807 4 s → 1 ≤ n.toNat → n.toNat ≤ 100 → (∀ r ∈ l, r.inst.toNat ≤ 15) →
      exec (.icpPtpGrantLoad c n l false) s =
        ok c 0x807 (le 2 (grantLoads l s).1 ++ le 2 (l.length - (grantLoads l s).1)) (grantLoads l s).2) ∧
    (∀ b : BitVec 8, Ready c 0x808 4 s → notOwn c b s = false → b.toNat ≤ 15 ∨ b = 0xFF#8 → exec (.icpPtpGrantCancel c b false) s =
      ok c 0x808 (le 4 (s.ptp.grants.filter fun e => cancelNames c b s e.2.inst).length) (cancelAll (cancelNames c b s) s))

/-- The PTP client's events and command have their effect (14 R320, 14 R321, 14 R322, 14 R328). -/
def Obligations.ClientCommands : Prop :=
  ∀ (s : State) (k : Fin 2), 
    (clientRuns s k = true → s.ptp.client[k].unicast = true → ∀ (j : Fin 4) (x : PtpCand), s.ptp.client[k].cands[j.1]? = some x →
      (∀ (n : Fin 3) (g : Int × Nat × Nat) (q : PtpKind) (t : Nat), q = clientKind n → x.asked.contains q = false → candGrant x q = some g →
        t = 4 * g.2.1 + 2 * g.2.2 * tickSec → inPeriod t s = true →
        exec (.clientRenewal k j n) s = .next (clientAsk k j.1 [q] 0 (atQ t s))) ∧
      (inPeriod (4 * askDue x) s = true → exec (.clientRequestRetry k j) s = .next (clientAsk k j.1 (askAgain (atQ (4 * askDue x) s) x)
        (if x.asked = [] then 0 else if x.retry = 0 then 1 else min 64 (2 * x.retry)) (atQ (4 * askDue x) s)))) ∧
    (clientRuns s k = true → s.ptp.client[k].unicast = true → ∀ (j : Nat) (x : PtpCand) (l : Int) (t : Nat) (u : State),
      s.ptp.client[k].best = some j → s.ptp.client[k].cands[j]? = some x → candHeld s x .delayResp = some l →
      t = 4 * (s.ptp.client[k].dreqAt.elim 0 fun t => t + logTicks l) → inPeriod t s = true → u = atQ t s → candHeld u x .delayResp ≠ none →
      exec (.clientDelayReqSend k) s = .next (clientSend k
        { kind := .delayReq, seq := s.ptp.client[k].dreqSeq, log := 127, dst := some x.addr, mac := 0#48 }
        (onClient k (fun q => { q with dreqSeq := (q.dreqSeq + 1) % 65536, dreqAt := some u.time.odo }) u))) ∧
    (clientRuns s k = true → ∀ (j : Nat) (x : PtpCand) (t : Nat), s.ptp.client[k].cands[j]? = some x → candEnd s.ptp.client[k] x = some t →
      inPeriod (4 * t) s = true → exec (.clientAnnounceTimeout k j) s = .next (clientChoose k (atQ (4 * t) s))) ∧
    (∀ (c : CmdRef) (a : ClientArgs) (n : PtpClient), n = newClient a {} → Ready c 0x810 0 s → a.rsv = false → a.client.toNat = k.1 →
      a.enable.toNat ≤ 1 → a.profile.toNat ≤ 2 → a.transport.toNat ≤ 2 → a.port.toNat ≤ 3 → transportOk n.profile n.transport n.unicast = true →
      (a.unicast = true → 1 ≤ a.cands.toNat) → a.cands.toNat ≤ 4 → 1 ≤ a.duration.toNat → domainOk n.profile n.domain = true →
      annOk n.profile n.logAnn = true → syncOk n.profile n.unicast n.logSync = true → syncOk n.profile n.unicast n.logDreq = true →
      (n.en = true → instClash s n = false) → (n.auth = true → ringKeys s 0 true n.spp ≠ []) →
      exec (.icpPtpClientConfig c a) s = ok c 0x810 [] (clientSet k a s))

/-- Footbridge's heartbeats, takes and announcements have their effect (15 R330, 15 R331, 15 R333, 15 R334, 15 R335, 15
R336, 15 R338, 15 R339, 15 R344, 15 R347). -/
def Obligations.FootbridgeEvents : Prop :=
  ∀ (s : State) (off : BitVec 16) (ck : Nat) (u : State), u = atCk ck (atTick off s) →
    (footRuns s = true → landsEvery (atTick off s) msU 0 = true → (s.pert.k[3]).armed = false →
      ∃ t, exec (.heartbeatSend off ck) s = .next t ∧ t.foot.hbSeq = s.foot.hbSeq + 1#32) ∧
    (∀ f : FbFrame, footRuns s = true → f.kind = 1 → exec (.heartbeatReceive f off ck) s = .next (conflictCheck (hbReady f (hbLease f
      (s.foot.peer.elim false (·.lease)) (hbStrap f (hbAck f (hbLink f (hbPhase f u)))))))) ∧
    (∀ v : Nat, footRuns s = true → s.foot.lastValid = some v → v + 31250 + 25000 * s.foot.missNow ≤ ck → ∃ t, exec (.heartbeatMiss ck) s = .next t ∧ (s.foot.link = false ∨ s.foot.missNow < 9 → t.foot.missNow = satU 16 (s.foot.missNow + 1) ∧
      t.foot.missed = satU 16 (s.foot.missed + 1) ∧ t.foot.goodRun = 0) ∧ (s.foot.link = true → 9 ≤ s.foot.missNow → ∃ x, t = footLinkDown x ∧
      x.foot.missNow = satU 16 (s.foot.missNow + 1) ∧ x.foot.missed = satU 16 (s.foot.missed + 1) ∧ x.foot.goodRun = 0)) ∧
    (s.foot.en = true → s.foot.link = true → exec (.fbLinkDown ck) s = .next (faultCond 40 true (raise 195 (footHist 4#32 { atCk ck s with
      foot := { (atCk ck s).foot with link := false, aligned := false, goodRun := 0, clearRun := 0 } })))) ∧
    (∀ e : Nat, s.foot.lstate = .hold → s.foot.ackArmed = true → armedEnd s = some e →
      (u.foot.ck < e → oeMoment u u.time.odo = true → oeLater u u.time.odo ((e - u.foot.ck) * 125 / 4) = false →
        exec (.leaseRelinquish off ck) s = .next (conflictCheck (raise 202 (footHist 128#32 (setOe false (relinquish 2 .retake u)))))) ∧
      (e ≤ u.foot.ck → oeMoment u u.time.odo = false →
        exec (.leaseRelinquish off ck) s = .next (conflictCheck (raise 202 (footHist 128#32 (relinquish 2 .retake u)))))) ∧
    (∀ l : Nat, s.foot.lstate = .follow → s.foot.lastLease = some l → l + bigLease s + bigGuard s ≤ (atCk ck s).foot.ck →
      s.foot.peerOwnLowSince + bigGuard s ≤ (atCk ck s).foot.ck → exec (.expiryTake ck) s = .next (takeDue false (atCk ck s))) ∧
    (∀ r : Nat, s.foot.lstate = .follow → s.foot.relinq = some r → r + bigGuard s ≤ (atCk ck s).foot.ck →
      exec (.relinquishTake ck) s = .next (takeDue false (atCk ck s))) ∧
    (s.foot.lstate = .cold → s.foot.coldAt + (if s.aon.unitB then 3 else 2) * s.foot.leaseMs * 25000 ≤ (atCk ck s).foot.ck →
      exec (.coldStartTake ck) s = .next (takeDue false (atCk ck s))) ∧
    (s.foot.lstate = .retake → s.foot.peerOwn = false → max s.foot.retakeAt s.foot.peerOwnLowSince + 50 * guardUs s + 50000 ≤ (atCk ck s).foot.ck →
      exec (.retakeTake ck) s = .next (takeDue false (atCk ck s))) ∧
    (s.foot.takeBlocked = true → exec (.deferredTake ck) s = .next (takeDue false (atCk ck s))) ∧
    (exec (.peerownChange false ck) s = .next (conflictCheck { atCk ck s with
      foot := { (atCk ck s).foot with peerOwn := false, peerOwnLowSince := (atCk ck s).foot.ck } })) ∧
    (s.foot.roundsLeft ≠ 0 → inPeriod (4 * s.foot.roundAt) s = true → ∃ t, exec .addressAnnounceRound s = .next t ∧
      t.foot.roundsLeft = s.foot.roundsLeft - 1 ∧ t.foot.roundAt = s.foot.roundAt + s.foot.annGap * 781250)

/-- The planned handover and Footbridge's ICP commands have their effect (15 R335, 15 R341, 15 R343, 15 R344, 15 R351, 15
R352). -/
def Obligations.FootbridgeHandover : Prop :=
  ∀ (c : CmdRef) (s : State),
    (∀ (f : FbFrame) (ck : Nat), footRuns s = true → f.kind = 2 → s.foot.ready = true → s.foot.lstate = .follow → ∃ t, exec (.fbOffer f ck) s = .next t ∧
      t.foot.h = some (f.hSec * 1000000000 + f.hNs) ∧ t.foot.hAccepted = true ∧ t.foot.lastTx ≠ []) ∧
    (footRuns s = true → s.foot.hPending = true → (∀ (f : FbFrame) (ck : Nat), f.kind = 3 → s.foot.lstate = .hold → ck ≤ s.foot.offerAt + 50000 →
        exec (.fbAccept f ck) s = .next { atCk ck s with foot := { (atCk ck s).foot with lstate := .handover, hPending := false } }) ∧
      (∀ off : BitVec 16, beforeH (atTick off s) = true → exec (.fbAbort off) s = .next (handoverFail (atTick off s)))) ∧
    (∀ ck : Nat, s.foot.hPending = true → s.foot.offerAt + 50000 ≤ ck → exec (.acceptTimeout ck) s = .next (handoverFail (atCk ck s))) ∧
    (∀ (off : BitVec 16) (ck : Nat) (u v : State), u = atCk ck (atTick off s) →
      (s.foot.lstate = .handover → landsAt u (hAt s) 0 = true → v = setOe false (relinquish 1 .follow u) →
        exec (.handoverInstant off ck) s = .next { v with foot := { v.foot with former := true, lastLease := none } }) ∧
      (s.foot.en = true → s.foot.hAccepted = true → landsAt u (hAt s) 64 = true →
        v = takeDue true { u with foot := { u.foot with hAccepted := false } } →
        exec (.plannedTake off ck) s = .next (if holds v then handoverDone v else v)) ∧
      (s.foot.former = true → s.foot.lstate = .follow → s.foot.peerOwn = false → s.foot.lastLease = none → hAt s + 2 * msU ≤ cntNow u →
        exec (.handoverRetake off ck) s =
          .next (handoverEnd false (handoverFlag (takeDue false { u with foot := { u.foot with former := false } }))))) ∧
    (∀ a : FbConfigArgs, Ready c 0x900 0 s → a.rsv = false → a.enable.toNat ≤ 1 → 8 ≤ a.leaseMs.toNat → a.leaseMs.toNat ≤ 1000 →
      10 ≤ a.xtalPpm.toNat → a.xtalPpm.toNat ≤ 500 → 2000 ≤ a.guardBase.toNat → a.guardBase.toNat ≤ 100000 →
      guardOf a.guardBase.toNat a.xtalPpm.toNat a.leaseMs.toNat + 3000 ≤ a.leaseMs.toNat * 1000 → 1 ≤ a.annCount.toNat → a.annCount.toNat ≤ 10 →
      10 ≤ a.annGap.toNat → a.annGap.toNat ≤ 2000 → 100 ≤ a.readyPs.toNat → a.readyPs.toNat ≤ 100000 →
      (s.sys.mode = .standby → (a.enable == 1#8) = s.foot.en) →
      exec (.icpFbConfig c a) s = ok c 0x900 [] (footEnable (a.enable == 1#8) { s with foot := { s.foot with
        autoHo := a.autoHo, annCount := a.annCount.toNat, leaseMs := a.leaseMs.toNat, xtalPpm := a.xtalPpm.toNat,
        guardBase := a.guardBase.toNat, annGap := a.annGap.toNat, readyPs := a.readyPs.toNat } })) ∧
    (Ready c 0x901 64 s → Reads (.icpFbStatus c) c 0x901 64 s) ∧
    (∀ l : BitVec 16, Taken c 0x902 s → 10 ≤ l.toNat → l.toNat ≤ 1000 → s.foot.lstate = .hold → peerReady s = true → s.foot.hPending = false →
      exec (.icpFbHandover c l false) s = .next (startHandover l.toNat (some c) s)) ∧
    (∀ a : Word, Ready c 0x903 0 s → a.toInt.natAbs ≤ 1000000 →
      exec (.icpFbAsym c a) s = ok c 0x903 [] { s with foot := { s.foot with asym := a.toInt } }) ∧
    (Ready c 0x904 0 s → s.foot.lstate = .cold ∨ s.foot.lstate = .retake → s.foot.peerOwn = false →
      exec (.icpFbTake c 0xF0B70001#32) s = ok c 0x904 [] (takeDue false s))

/-- The vault's events have their effect (17 R372, 17 R375, 17 R377, 17 R380, 17 R381, 17 R384, 17 R385, 17 R386, 17 R391,
03 R68). -/
def Obligations.VaultEvents : Prop :=
  ∀ (s : State),
    (∀ (q : KeyReq) (l : List KeyReq), s.vault.queue = q :: l → q.started = true → s.vault.keys[1].faulty = false → s.vault.keys[2].faulty = false →
      exec (.keyStoreCommit true) s = .next (keyNext (keyApply q { s with vault := { s.vault with queue := l } })) ∧
      exec (.keyStoreCommit false) s = .next (keyNext (complete q.cmd (keyOpcode q.op) stBusy [] (raise 213 (faultEvent 49
        (sticky 0x00080 0x800000#32 { s with vault := { s.vault with
          queue := l, bank := s.vault.bank.set (spareBank s).1 {} } })))))) ∧
    (∀ (i : Fin 64) (w : Fin 8), s.vault.keys[i].draining = true → s.vault.keys[i].used = false → oldUse i s = false → s.vault.keys[i].owner = w.1 →
      exec (.keyDrained i) s = .next (keyNext (drainStep i (raiseOwn w 211
        (setKey i (fun k => if k.used then { k with draining := false }
          else { k with draining := false, key := [], mask := 0, chk := 0#32, num := 0, spp := 0 }) s))))) ∧
    (∀ (q : KeyReq) (l : List KeyReq) (off : BitVec 16) (u : State), dropUnstarted s.vault.queue = some (q, l) → timeUp s = true →
      u = atOdo off s → q.at_ + 5 * tickSec ≤ u.time.odo → exec (.keyCommandTimeout off) s =
        .next (complete q.cmd (keyOpcode q.op) stBusy [] { u with vault := { u.vault with queue := l } })) ∧
    (powered s 9 = true → s.vault.enrolled = true → s.vault.rootOk = false → exec .vaultReload s = .next (raise 215 (loadStore (startKeys (rootKeys s))))) ∧
    (powered s 9 = true → ∀ (i : Fin 64) (flips : List Byte), i.1 = s.vault.sweepPos → (i.1 = 0 → s.vault.remaskPeriod ≤ s.vault.sweepAge) →
      s.vault.keys[i].used = true → ∃ t, exec (.remaskVisit i flips) s = .next t ∧ t.vault.sweepPos = (i.1 + 1) % 64 ∧
        t.vault.keys[i].key = upsetKey s.vault.keys[i].key flips ∧ t.vault.keys[i].mask = s.vault.draws ∧
        t.vault.keys[i].faulty = (s.vault.keys[i].faulty || crc32c (upsetKey s.vault.keys[i].key flips) != s.vault.keys[i].chk)) ∧
    (∀ n : Nat, (n < 1024 → ∃ t, exec (.rngReseed true n) s = .next t ∧ t.vault.rngOk = false ∧ t.vault.rngPass = n) ∧
      (1024 ≤ s.vault.rngPass + n →
        exec (.rngReseed false n) s = .next (faultCond 51 false { s with vault := { s.vault with rngPass := 1024, rngOk := true } }))) ∧
    (exec (.ecdsaSelfTest true) s = .next (faultCond 50 false { s with vault := { s.vault with ecdsaOk := true } }) ∧
      exec (.ecdsaSelfTest false) s = .next (raise 220 (faultCond 50 true { s with vault := { s.vault with ecdsaOk := false } })))

/-- Key commands join the key-store queue (17 R378, 17 R379, 17 R380, 17 R381, 17 R393, 17 R394). -/
def Obligations.KeyCommands : Prop :=
  ∀ (c : CmdRef) (s : State), s.vault.rootOk = true →
    (∀ a : NtsInstallArgs, Taken c 0xA00 s → a.rsv = false → 1 ≤ a.num.toNat → a.num.toNat ≤ 0x1FFFFFFF →
      Queues (.icpNtsKeyInstall c a) c (.installNts c.slot a.num.toNat a.cur a.key.toList) s) ∧
    (∀ n : Word, Taken c 0xA01 s → 1 ≤ n.toNat → n.toNat ≤ 0x1FFFFFFF → Queues (.icpNtsKeyRotate c n) c (.rotate c.slot false 0 n.toNat) s) ∧
    (∀ a : NtsInvArgs, Taken c 0xA02 s → a.rsv = false → a.kind.toNat ≤ 1 → (a.all = false → 1 ≤ a.num.toNat ∧ a.num.toNat ≤ 0x1FFFFFFF) →
      Queues (.icpNtsKeyInvalidate c a) c (.invalidate c.slot false 0 a.num.toNat (a.kind == 1#8) a.all) s) ∧
    (∀ a : PtpInstallArgs, Taken c 0xA10 s → a.rsv = false → 16 ≤ a.len.toNat → a.len.toNat ≤ 64 →
      (∀ b ∈ a.key.toList.drop a.len.toNat, b = 0#8) →
      Queues (.icpPtpKeyInstall c a) c (.installPtp c.slot a.spp.toNat a.keyId.toNat a.cur (a.key.toList.take a.len.toNat)) s) ∧
    (∀ (p : BitVec 8) (n : Word), Taken c 0xA11 s → Queues (.icpPtpKeyRotate c p n false) c (.rotate c.slot true p.toNat n.toNat) s) ∧
    (∀ a : PtpInvArgs, Taken c 0xA12 s → a.rsv = false → a.kind.toNat ≤ 1 →
      Queues (.icpPtpKeyInvalidate c a) c (.invalidate c.slot true a.spp.toNat a.keyId.toNat (a.kind == 1#8) a.all) s) ∧
    (∀ n : Nat, n = 4 + 12 * (ringKeys s c.slot.1 false 0).length → Ready c 0xA03 n s → Reads (.icpNtsKeyList c) c 0xA03 n s) ∧
    (∀ n : Nat, n = 4 + 12 * ((slotKeys s c.slot.1).filter fun i => s.vault.keys[i].ptp).length → Ready c 0xA13 n s →
      Reads (.icpPtpKeyList c) c 0xA13 n s)

/-- Identity, vault and firmware commands complete and have their effect (17 R373, 17 R377, 17 R386, 17 R387, 17 R388, 17
R389, 17 R390, 17 R394). -/
def Obligations.VaultCommands : Prop :=
  ∀ (c : CmdRef) (s : State),
    (∀ n : Nat, n = 100 + s.vault.cert.length → Ready c 0xA20 n s → Reads (.icpIdGet c) c 0xA20 n s) ∧
    (∀ nonce : Vector Byte 32, Ready c 0xA21 256 s → ∃ p, p.length = 256 ∧
      exec (.icpAttest c nonce) s = ok c 0xA21 p (if canSign s then (draw s).2 else faultEvent 1 s)) ∧
    (Ready c 0xA22 97 s → (s.aon.provN && s.vault.enrolled) = false → ∃ t p, p.length = 97 ∧ exec (.icpKeyEnroll c 0xE1A00001#32) s =
      ok c 0xA22 p t ∧ t.vault.enrolled = true ∧ t.vault.enrollNo = s.vault.enrollNo + 1 ∧ t.vault.bank = Vector.replicate 2 {}) ∧
    (∀ (l : BitVec 16) (d : List Byte), Ready c 0xA23 0 s → l.toNat = d.length → d.length ≤ 2048 →
      exec (.icpIdCertSet c l d false) s = ok c 0xA23 [] { s with vault := { s.vault with cert := d } }) ∧
    (∀ p : BitVec 16, Ready c 0xA24 0 s → 1 ≤ p.toNat → p.toNat ≤ 3600 →
      exec (.icpVaultConfig c p false) s = ok c 0xA24 [] { s with vault := { s.vault with remaskPeriod := p.toNat } }) ∧
    (Ready c 0xA25 532 s → Reads (.icpVaultStatus c) c 0xA25 532 s) ∧
    (Ready c 0xC00 8 s → Reads (.icpFwStatus c) c 0xC00 8 s) ∧
    (∀ b : BitVec 8, Ready c 0xC01 0 s → b.toNat ≤ 1 → b.toNat ≠ s.aon.bank → exec (.icpFwBegin c b false) s = ok c 0xC01 [] { s with
      flash := { s.flash with image := mclear (0x200000 * b.toNat) (0x200000 * (b.toNat + 1)) s.flash.image }
      vault := { s.vault with updateOpen := true, target := b == 1#8, fwOfs := 0 } }) ∧
    (∀ a : FwWriteArgs, Ready c 0xC02 0 s → a.rsv = false → a.len.toNat = a.data.length → 4 ≤ a.len.toNat → a.len.toNat ≤ 4096 →
      a.len.toNat % 4 = 0 → a.offset.toNat + a.len.toNat ≤ 512 + 1572864 → s.vault.updateOpen = true → a.offset.toNat = s.vault.fwOfs →
      exec (.icpFwWrite c a) s = ok c 0xC02 [] { s with
        flash := { s.flash with image := mputs 0xFF#8 (0x200000 * bit s.vault.target + a.offset.toNat) a.data s.flash.image }
        vault := { s.vault with fwOfs := a.offset.toNat + a.len.toNat } }) ∧
    (∀ act : Bool, Ready c 0xC03 4 s → s.vault.updateOpen = true → imageValid s (fwTarget s) = true →
      exec (.icpFwFinish c act false) s = ok c 0xC03 (le 1 (bankSvn s (fwTarget s)) ++ zeros 3) (fwPass act s)) ∧
    (∀ f : Bool, Ready c 0xC04 4 s → (s.vault.otpSvn ≠ s.vault.svn → mayCommit f s = true) → ∃ t, exec (.icpFwCommit c f false) s =
      ok c 0xC04 (le 1 s.vault.svn ++ zeros 3) t ∧ t.vault.otpSvn = s.vault.svn)

/-- The mailbox's registers, dispatch and link events have their effect (18 R395, 18 R400, 18 R405, 18 R407, 18 R408, 18
R409, 18 R410, 18 R411, 18 R412, 18 R413, 16 R358). -/
def Obligations.MailboxCommands : Prop :=
  ∀ (s : State) (i : Fin 8) (v : Word),
    (s.host.ready = true →
      (decideAccess s ⟨i.1, by omega⟩ 0x2001C true = .ok → exec (.requestPiWrite i v) s =
        .next (onMbox i (fun m => { m with reqPi := v }) (countReg ⟨i.1, by omega⟩ 1 0x2001C s))) ∧
      (decideAccess s ⟨i.1, by omega⟩ 0x20040 true = .ok → exec (.completionCiWrite i v) s =
        .next (cairnGapEnd (flushHeld i (onMbox i (fun m => { m with cplCi := v }) (countReg ⟨i.1, by omega⟩ 1 0x20040 s))))) ∧
      (decideAccess s ⟨i.1, by omega⟩ 0x20000 true = .ok →
        exec (.mboxEnable i v) s = .next (mboxCtrl i v (countReg ⟨i.1, by omega⟩ 1 0x20000 s))) ∧
      (decideAccess s ⟨i.1, by omega⟩ 0x20054 true = .ok →
        exec (.sleepSet i) s = .next (sleepStart i (countReg ⟨i.1, by omega⟩ 1 0x20054 s)) ∧
        exec (.sleepClear i) s = .next (sleepEnd i (countReg ⟨i.1, by omega⟩ 1 0x20054 s)))) ∧
    (∀ (off : BitVec 16) (u : State), u = atOdo off s → s.host.mbox[i].hold ≠ none →
      (timeUp s = true → s.host.mbox[i].holdAt + cdiv (s.host.mbox[i].modUs * 3125) 4 ≤ u.time.odo) →
      exec (.moderationTimeout i off) s = .next (onMbox i (fun m => m.signal (pfOf s i).isSome) u)) ∧
    (mayTakeReq s i = true → hasTurn s i = true → ∀ h : ReqHdr, exec (.commandDispatch i h) s = .next (reqTake i (hdrAt s i h) s)) ∧
    (∀ (c : CmdRef) (n : Nat), n = min (min (ringSize s c.slot s.host.mbox[c.slot].reqSize) (ringSize s c.slot s.host.mbox[c.slot].cplSize) * 64) 0xFFFF →
      Ready c 0x100 12 s → v.getLsbD 1 = true → exec (.icpHello c v) s =
        ok c 0x100 (le 1 1 ++ zeros 3 ++ le 4 2 ++ le 2 n ++ [16#8, 0#8]) (onMbox c.slot (fun m => { m with major := 1 }) s)) ∧
    (∀ (k : LossKind) (s1 : State), s1 = { s with host := { s.host with
        pf := updAll s.host.pf fun f p => if lossHits k f then { p with busMaster := false, d0 := true } else p
        pcieUp := match k with | .flr _ => s.host.pcieUp | _ => false
        perst := s.host.perst || k == .perst } } →
      (lossSlots k s = [] → exec (.slotLoss k) s = .next s1) ∧
      (lossSlots k s ≠ [] → exec (.slotLoss k) s = .next (faultEvent 52 ((lossSlots k s).foldl (fun s i => slotLose i s) s1)))) ∧
    (∀ bm d0 pme l2 : Bool, (s.host.perst = true → exec (.pcieConfigWrite i bm d0 pme l2) s = .next s) ∧
      (s.host.perst = false → (∀ j, pfOf s j ≠ some i) → exec (.pcieConfigWrite i bm d0 pme l2) s = .next { s with host := { s.host with
        pcieUp := true, pf := upd s.host.pf i fun p => { p with busMaster := bm, d0 := d0, pmeEn := pme, l2 := l2 } } })) ∧
    exec .perstNRelease s = .next { s with host := { s.host with perst := false, pcieUp := true } }

/-- Register accesses are decided, counted and carried out (01 R18, 16 R366, 19 R416, 19 R417, 19 R418, 19 R420, 19 R421, 19
R422, 19 R424, 19 R429, 19 R431, 19 R432). -/
def Obligations.RegisterCommands : Prop :=
  ∀ (s : State) (rd : Fin 9) (v : Word),
    (∀ a : BitVec 20, Stores (.registerWrite rd a 0xF#4 v) rd a.toNat v s ∧ Stores (.aliasSetWrite rd a v) rd (aliasAt a 1) v s ∧
      Stores (.aliasClrWrite rd a v) rd (aliasAt a 2) v s ∧ Stores (.aliasTglWrite rd a v) rd (aliasAt a 3) v s ∧
      (∀ be : BitVec 4, be ≠ 0xF#4 → decideAccess s rd a.toNat true = .ok →
        exec (.registerWrite rd a be v) s = .next (countReg rd 1 a.toNat s))) ∧
    (∀ b : Fin 16, (b ≠ 15 → Stores (.lockSet rd b) rd (b.1 * 0x10000 + 0x4000) 1#32 s) ∧ (b = 15 → exec (.lockSet rd b) s = .next s) ∧
      Stores (.reportAck rd b v) rd (b.1 * 0x10000 + 0x3FFC) v s) ∧
    Stores (.indDataWrite rd v) rd 0xF0004 v s ∧ Stores (.icuComplete rd v) rd 0x1000C v s ∧
    (∀ k : Fin 8, Stores (.icuPendRaise rd k v) rd (0x14100 + 4 * k.1) v s ∧ Stores (.icuPendWithdraw rd k v) rd (0x18100 + 4 * k.1) v s) ∧
    Gives (.icuClaim rd) rd 0x10008 (icuClaim rd) s ∧ Gives (.indDataRead rd) rd 0xF0004 (indRead rd) s ∧
    (∀ (a : BitVec 20) (w : Nat), w = a.toNat / 4 * 4 → aliasOf a.toNat = 0 → w ≠ 0x10008 → w ≠ 0xF0004 →
      (ownRead rd w 0#16 s = none → Gives (.stickyRead rd a) rd w (plainRead rd w) s ∧ Gives (.reportRead rd a) rd w (plainRead rd w) s) ∧
      (∀ off, a ≠ 0x70030#20 → ownRead rd w off s = none → Gives (.multiwordFirstRead rd a off) rd w (plainRead rd w) s))

/-- Host SPI and SMBus transactions have their effect (18 R396, 18 R397, 21 R443). -/
def Obligations.BusCommands : Prop :=
  ∀ (s : State) (a : BitVec 24),
    (spiAddrOk a = true → ∀ d : List Word, exec (.hostSpiWrite a d false) s = .next (busWrites 8 a.toNat d s)) ∧
    (spiAddrOk a = true → ∀ n : Nat, exec (.hostSpiRead a n []) s = .next { (busReads 8 [] n 0 a.toNat s).2 with
      host := { (busReads 8 [] n 0 a.toNat s).2.host with spiOut := (busReads 8 [] n 0 a.toNat s).1 } }) ∧
    (a.toNat % 4 ≠ 0 → ∀ d p, exec (.hostSpiWrite a d p) s = .next (faultEvent 54 s)) ∧
    (exec .hostSpiStatus s = .next { s with host := { s.host with
      spiOut := [BitVec.ofNat 8 (bit s.host.ready + 2 * bit s.host.spiLate + 4 * bit s.host.spiDrop)], spiLate := false, spiDrop := false } }) ∧
    (∀ (p : Word) (pec : Option Byte), (pecOk s 0xA0#8 (le 4 p.toNat) pec = true →
        exec (.smbusSetPointer p pec) s = .next { s with host := { s.host with smbPtr := p } }) ∧
      (pecOk s 0xA0#8 (le 4 p.toNat) pec = false → exec (.smbusSetPointer p pec) s = .next (smbusDiscard s))) ∧
    (∀ (d : List Byte) (pec : Option Byte), d.length % 4 = 0 → 4 ≤ d.length → d.length ≤ 32 → (pecOk s 0xA1#8 d pec = false →
        exec (.smbusBlockWrite d pec) s = .next (smbusDiscard s)) ∧
      (pecOk s 0xA1#8 d pec = true → exec (.smbusBlockWrite d pec) s = .next { busWrites 9 s.host.smbPtr.toNat (wordsOf d) s with
        host := { (busWrites 9 s.host.smbPtr.toNat (wordsOf d) s).host with smbPtr := s.host.smbPtr + w32 d.length } })) ∧
    (exec (.smbusBlockRead false) s = .next { (busReads 9 [] 8 0 s.host.smbPtr.toNat s).2 with
      host := { (busReads 9 [] 8 0 s.host.smbPtr.toNat s).2.host with
        smbOut := (busReads 9 [] 8 0 s.host.smbPtr.toNat s).1, smbPtr := s.host.smbPtr + 32#32 } }) ∧
    (∃ t, exec (.smbusBlockRead true) s = .next t ∧ t.host.smbOut.length = (busReads 9 [] 8 0 s.host.smbPtr.toNat s).1.length + 1 ∧
      t.host.smbPtr = s.host.smbPtr + 32#32) ∧
    (∀ i, boundTo s 9 = some i → s.host.mbox[i].pin = true → exec .smbusAlertResponse s = .next { s with
      host := { s.host with smbOut := [if s.aon.unitB then 0x9A#8 else 0x98#8] } })

/-- Slot, counter and perturbation commands complete and have their effect (16 R355, 16 R356, 16 R370, 16 R371, 22 R460, 22
R461, 22 R462, 22 R464, 22 R465, 22 R467, 03 R68). -/
def Obligations.SlotAndCounterCommands : Prop :=
  ∀ (c : CmdRef) (s : State),
    (∀ (a : SlotConfigArgs) (i : Fin 8) (s1 s2 : State), a.slot.toNat = i.1 → firstFail (slotChecks a i s) = stOk →
      s1 = setBind i (bindOf a.bind) (trail 0x23 ([BitVec.ofNat 8 i.1, a.bind, a.role, BitVec.ofNat 8 (bit a.purge)] ++ zeros 4) s) →
      s2 = cfgUpdate (fun k => { k with slots := some ((provision s1).set i.1 (roleOfCode a.role.toNat, bindOf a.bind)) }) s1 →
      (a.purge = false → Ready c 0x130 0 s → exec (.icpSlotConfig c a) s = ok c 0x130 [] (setRole i (roleOfCode a.role.toNat) s2)) ∧
      (a.purge = true → Taken c 0x130 s → exec (.icpSlotConfig c a) s = .next (purgeDone i { purgeNow i s2 with
        slots := { (purgeNow i s2).slots with s := upd (purgeNow i s2).slots.s i fun q => { q with
          purge := some (c, roleOfCode a.role.toNat) } } }))) ∧
    (Ready c 0x131 16 s → Reads (.icpSlotInfo c) c 0x131 16 s) ∧ (Ready c 0x132 128 s → Reads (.icpSlotList c) c 0x132 128 s) ∧
    (∀ a : PerfReadArgs, firstFail (perfChecks c a s) = stOk →
      (progIdx a.first = none → Ready c 0xB20 (16 + 8 * a.count.toNat) s → ∃ p, p.length = 16 + 8 * a.count.toNat ∧ exec (.icpPerfRead c a) s =
        ok c 0xB20 p (if a.clear then cntZero a.first.toNat a.count.toNat s else s)) ∧
      (∀ k, progIdx a.first = some k → Ready c 0xB20 0 s →
        (a.kind = 1#8 → exec (.icpPerfRead c a) s = ok c 0xB20 [] (perfBind k (some (bindOfArgs a)) s)) ∧
        (a.kind = 2#8 → exec (.icpPerfRead c a) s = ok c 0xB20 [] (perfBind k none s)))) ∧
    (∀ a : DumpConfigArgs, Ready c 0xB21 0 s → a.rsv = false → a.base.toNat % 64 = 0 → a.period.toNat ≤ 4095 → a.first.toNat ≤ a.last.toNat →
      a.last.toNat ≤ 1023 → s.regs.lk.getLsbD 14 = false → (a.period = 0#16 ∨ pfOf s 0 ≠ none) → exec (.icpPerfDumpConfig c a) s = ok c 0xB21 [] { s with
        perf := { s.perf with
          dumpPeriod := a.period.toNat, dumpFirst := a.first.toNat, dumpLast := a.last.toNat, dumpBase := a.base, nextBuf := false
          dumpAt := s.time.odo + a.period.toNat * 7812500 } }) ∧
    (∀ x y : BitVec 16, Ready c 0xB22 0 s → x.toNat ≤ 511 → y.toNat ≤ 511 → s.regs.lk.getLsbD 14 = false →
      exec (.icpPerfAcl c x y) s = ok c 0xB22 [] { s with perf := { s.perf with acl := pack [(0, x.toNat), (16, y.toNat)] } }) ∧
    (∀ (off : BitVec 16) (u : State), u = atOdo off s → s.perf.dumpPeriod ≠ 0 →
      (timeUp s = true → s.perf.dumpAt ≤ u.time.odo) → (canDump s = true → ∃ t, exec (.perfDump off) s = .next t ∧
        t.perf.dumpAt = s.perf.dumpAt + s.perf.dumpPeriod * 7812500 ∧ t.perf.dumpSeq = low 32 (s.perf.dumpSeq + 1) ∧
        t.perf.nextBuf = !s.perf.nextBuf) ∧ (canDump s = false → exec (.perfDump off) s = .next (sticky 0xE0004 4#32 { u with
        perf := { u.perf with dumpAt := u.perf.dumpAt + u.perf.dumpPeriod * 7812500 } }))) ∧
    (∀ (a : PerturbArgs) (k : Fin 4), Ready c 0xB30 0 s → a.kind.toNat = k.1 → firstFail (pertChecks a s) = stOk →
      exec (.icpPerturbArm c a) s =
        ok c 0xB30 [] (if a.action = 0#8 then pertArm k a s else if a.action = 1#8 then pertStop k s else pertEnd s)) ∧
    (Ready c 0xB31 0 s → exec (.icpPerturbLive c 0xA11E0001#32) s = ok c 0xB31 [] (pertLive true s) ∧
      exec (.icpPerturbLive c 0#32) s = ok c 0xB31 []
        (pertLive false (if s.sys.mode == .serve || s.sys.mode == .holdover then pertEnd s else s))) ∧
    (∀ (k : Fin 4) (off : BitVec 16) (u : State), u = atOdo off s → pertLeft u k = 0 →
      exec (.perturbExpiry k off) s = .next (pertStop k u)) ∧
    (∀ (r : CairnRec) (l : List CairnRec), s.cairn.unsigned = r :: l → canSign s = true →
      ∃ t, exec (.cairnSignDone true) s = .next t ∧ t.cairn.unsigned = l ∧
        t.cairn.last = some { r with sig := some (ecdsaSign s (recBytes r)) })

/-- No command stops the block (18 R403, 18 R404, 16 R365). -/
def Obligations.EveryCommandRuns : Prop :=
  ∀ (c : Instr) (s : State), Runs c s

/-- No command touches what waits behind it (18 R407). -/
def Obligations.QueueKept : Prop :=
  (∀ (c : Instr) (s t : State), exec c s = .next t → t.pending = s.pending) ∧
    (∀ s t : State, step s = .next t → t.pending = s.pending.tail)

/-- A command leaves every part of the state it does not act on as it was (16 R365, 18 R403, 21 R444, 02 R37). -/
def Obligations.FrameOfEveryCommand : Prop :=
  ∀ (c : Instr) (s t : State), exec c s = .next t → ∀ p : StatePart, p ∉ mayChange c → p.same s t

/-- The invariant holds after reset (21 R444, 21 R449, 02 R37). -/
def Obligations.InvariantAtReset : Prop :=
  Inv State.reset

/-- Every step keeps the invariant (21 R444, 21 R449, 13 R275, 14 R307, 14 R309, 17 R388, 19 R420, 22 R458, 02 R37). -/
def Obligations.InvariantKept : Prop :=
  ∀ s t : State, Inv s → step s = .next t → Inv t

/-- The power-cycle count and the anti-rollback counter never fall (02 R37, 02 R38, 17 R390). -/
def Obligations.CountsNeverFall : Prop :=
  ∀ s t : State, s.aon.pcycle ≤ 0xFFFFFFFF → step s = .next t →
    s.aon.pcycle ≤ t.aon.pcycle ∧ s.vault.otpSvn ≤ t.vault.otpSvn

/-- Root dispersion is the port's ERRB in NTP short format, rounded up (R289). -/
def Obligations.RootDispersion : Prop :=
  ∀ (s : State) (t : Txn) (stamp : Nat), ∃ E : Nat, E = min (s.time.errb + s.time.calUnc[t.port]) 0xFFFFFFFF ∧
    (E = 0xFFFFFFFF → (ntpHeader s t stamp).1.rootDisp = 0xFFFFFFFF) ∧
    (E ≠ 0xFFFFFFFF → E * 32 ≤ (ntpHeader s t stamp).1.rootDisp * 1953125 ∧
      ∀ d : Nat, E * 32 ≤ d * 1953125 → (ntpHeader s t stamp).1.rootDisp ≤ d)

/-- CUR, PREV and CAUSE change together, at a transition, and SYS_MODE_SECS restarts (R438). -/
def Obligations.ModeChangesTogether : Prop :=
  ∀ s : State, s.sys.mgmtFwRunning = true →
    (∀ m k, modeNext (lockCount s) = some (m, k) → (modeEval s).sys.mode = m ∧ (modeEval s).sys.prev = s.sys.mode ∧
      (modeEval s).sys.cause = k ∧ (modeEval s).sys.secs = 0) ∧
    (modeNext (lockCount s) = none → (modeEval s).sys.mode = s.sys.mode ∧ (modeEval s).sys.prev = s.sys.prev ∧
      (modeEval s).sys.cause = s.sys.cause ∧ (modeEval s).sys.secs = s.sys.secs) ∧
    (s.aon.locked = true → s.sys.cause < 256 → (sysMode s).toNat % 16 = modeCode s.sys.mode ∧
      (sysMode s).toNat / 16 % 16 = modeCode s.sys.prev ∧ (sysMode s).toNat / 256 % 256 = s.sys.cause) ∧
    (∀ c : CmdRef, Ready c 0x110 8 s → ∃ r, r.length = 5 ∧ exec (.icpModeGet c) s =
      ok c 0x110 (le 1 (modeCode s.sys.mode) ++ le 1 (modeCode s.sys.prev) ++ le 1 s.sys.cause ++ r) s)

/-- ICP_OUT_CALIBRATE holds channel 6 of the interval meter while it runs (R171). -/
def Obligations.CalibrationHoldsChannel6 : Prop :=
  ∀ (c : CmdRef) (s : State),
    (∀ (a : OutCalArgs) (pin : Fin 16), Taken c 0x403 s → a.rsv = false → a.freq.toNat ≤ 1 →
      a.out.toNat ≤ (if a.freq = 0#8 then 3 else 1) → 1 ≤ a.edges.toNat → a.edges.toNat ≤ 1000 → a.pin.toNat = pin.1 →
      s.mile.evt[pin].dir = 2 → s.mile.outCal = none → ∃ o : OutCal,
      (s.tdc.ch[(6 : Fin 8)].busy = true → ∀ (u : State) (k : Nat),
        k = (if s.tdc.ch[(6 : Fin 8)].dllLock = true ∧ s.tdc.ch[(6 : Fin 8)].dllBad = false then 4 else 3) →
        u = tdcDeliver 6 (tdcEmpty k) (onCh 6 (fun k => { k with arm := false, busy := false, dllBad := false }) s) →
        exec (.icpOutCalibrate c a) s = .next { u with tdc := { u.tdc with ch6Held := true }, mile := { u.mile with outCal := some o } } ∧
        (tdcEmpty k).flags.toNat / 2 % 8 = k) ∧
      (s.tdc.ch[(6 : Fin 8)].busy = false → ∃ t, exec (.icpOutCalibrate c a) s = .next t ∧ t.tdc.ch6Held = true ∧ t.mile.outCal = some o ∧
        t.tdc.ch[(6 : Fin 8)].arm = false)) ∧
    (s.tdc.ch6Held = true →
      (∀ a : TdcArgs, Taken c 0x420 s → a.rsv = false → a.ch = 6#8 → a.mode.toNat ≤ 2 → tdcSource a.start.toNat = true →
        tdcSource a.stop.toNat = true → a.start ≠ 0#8 → (a.stop = 0#8 → a.mode = 2#8) → (a.start ≠ a.stop ∨ a.startFall ≠ a.stopFall) →
        a.timeout ≠ 0#32 → (a.mode = 2#8 → a.n ≠ 0#32) → a.timeout.toNat ≤ 2000000 → a.n.toNat ≤ 16777215 →
        exec (.icpTdcConfig c a) s = .next (complete c 0x420 stBusy [] s)) ∧
      (Taken c 0x421 s → exec (.icpTdcMeasure c 6#8 false) s = .next (complete c 0x421 stBusy [] s)) ∧
      (∀ (rd : Fin 9) (v : Word), decideAccess s rd (chReg 6 0) true = .ok →
        exec (.tdcArmWrite rd 6 v) s = .next (countReg rd 1 (chReg 6 0) s))) ∧
    (s.mile.outCal ≠ none → ∀ (l r : Word) (b : Bool), ∃ t, exec (.outCalibrateDone l r b) s = .next t ∧ t.mile.outCal = none ∧
      t.tdc.ch6Held = false ∧ t.tdc.ch[(6 : Fin 8)].arm = false ∧ t.tdc.ch[(6 : Fin 8)].busy = false)

/-- An entry of a response or of a dump: value, class, flags (R463). -/
def Obligations.EntryLayout : Prop :=
  ∀ s : State,
    (∀ (role : Role) (slot m r k i : Nat), ∃ (v : Nat) (cls : Nat) (valid : Bool),
      cntEntry s role slot m r k i = le 6 v ++ le 1 cls ++ le 1 (bit valid) ∧ (cntEntry s role slot m r k i).length = 8) ∧
    (∀ (c : CmdRef) (a : PerfReadArgs), firstFail (perfChecks c a s) = stOk → progIdx a.first = none →
      Ready c 0xB20 (16 + 8 * a.count.toNat) s → ∃ h, h.length = 16 ∧ exec (.icpPerfRead c a) s = ok c 0xB20 (h ++
        (List.range a.count.toNat).flatMap fun i =>
          cntEntry s (cmdRole c s) c.slot.1 a.master.toNat a.roles.toNat a.classes.toNat (a.first.toNat + i))
        (if a.clear then cntZero a.first.toNat a.count.toNat s else s)) ∧
    (∀ (off : BitVec 16) (u : State), u = atOdo off s → s.perf.dumpPeriod ≠ 0 →
      (timeUp s = true → s.perf.dumpAt ≤ u.time.odo) → canDump s = true → ∃ t h, exec (.perfDump off) s = .next t ∧ h.length = 16 ∧ t.perf.lastDump = h ++
      (List.range (s.perf.dumpLast + 1 - s.perf.dumpFirst)).flatMap fun i => cntEntry u .owner 0 0xFF 0 0xFFFF (s.perf.dumpFirst + i))

/-- A role change clears the sources the new role may not receive (R430). -/
def Obligations.RoleChangeClears : Prop :=
  ∀ (s : State) (i : Fin 8) (r : Role) (t : IcuTarget), roleOf s i ≠ r → t = (setRole i r s).icu.t[(⟨i.1, by omega⟩ : Fin 9)] →
    (∀ k : Fin 256, mayReceive r ((224 ≤ k.1 && k.1 ≤ 239) → ownMailbox i.1 k.1) k.1 = false →
      t.pend.getLsbD k.1 = false ∧ t.en.getLsbD k.1 = false ∧ t.insvc.getLsbD k.1 = false) ∧
    (∀ k : Fin 256, mayReceive r ((224 ≤ k.1 && k.1 ≤ 239) → ownMailbox i.1 k.1) k.1 = true →
      t.en.getLsbD k.1 = s.icu.t[(⟨i.1, by omega⟩ : Fin 9)].en.getLsbD k.1 ∧
      t.insvc.getLsbD k.1 = s.icu.t[(⟨i.1, by omega⟩ : Fin 9)].insvc.getLsbD k.1) ∧
    (s.icu.t[(⟨i.1, by omega⟩ : Fin 9)].sigSince = true → t.live = 0#256 → claimValue t = 255)

/-- A channel enabled with a reserved component stays stopped until EN is cleared (09 R195, 09 R199). -/
def Obligations.BadComponentStaysStopped : Prop :=
  ∀ (s : State) (ch : Fin 128) (v : Word) (w : List (BitVec 9 × Word)), gnssUp s = true →
    (s.gnss.chans[ch].en = false → v.getLsbD 0 = true → sigOk (bits v.toNat 7 4) (bits v.toNat 13 8) = false →
      ∃ t, exec (.channelEnable ch v w) s = .next t ∧ t.gnss.chans[ch].en = true ∧ t.gnss.chans[ch].run = false ∧ t.gnss.chans[ch].cfgErr = true) ∧
    (s.gnss.chans[ch].en = true → s.gnss.chans[ch].run = false →
      (v.getLsbD 0 = true → ∃ t, exec (.channelEnable ch v w) s = .next t ∧ t.gnss.chans[ch].en = true ∧ t.gnss.chans[ch].run = false) ∧
      (v.getLsbD 0 = false → ∃ t, exec (.channelEnable ch v w) s = .next t ∧ t.gnss.chans[ch].en = false) ∧
      (∃ t, exec (.channelApply ch w) s = .next t ∧ t.gnss.chans[ch].en = true ∧ t.gnss.chans[ch].run = false))

/-- An announcement that is not valid: BAD_ARG from the command, ignored and counted in AUTO (R58). -/
def Obligations.LeapAnnouncements : Prop :=
  ∀ (s : State) (k : LeapKind) (at_ : Nat) (o n : Int), n = o + (match k with | .leap61 => 1 | .leap59 => -1) → ((at_ : Int) - n) % 86400 ≠ 0 →
    (∀ (c : CmdRef) (a : LeapSetArgs), Taken c 0x121 s → a.rsv = false → leapAction a.action.toNat = some k → a.leapAt.toNat = at_ →
      a.offset.toInt = o → exec (.icpLeapSet c a) s = .next (complete c 0x121 stBadArg [] s)) ∧
    (s.time.utcManual = false → (adoptUtc o (some (at_, k)) s).time = { s.time with
      utcOffset := o, utcKnown := true, leapInvalid := s.time.leapInvalid + 1 })

/-- The smear correction within, before and after its window (03 R61). -/
def Obligations.SmearCorrection : Prop :=
  ∀ (l w t : Nat) (S : Int), 0 < w → S = (l : Int) * 1000000000 - (w : Int) * 500000000 →
    ((t : Int) ≤ S → smearC l (w * 500000000) t = 0) ∧ (S + (w : Int) * 1000000000 ≤ t → smearC l (w * 500000000) t = 1000000000) ∧
    (S ≤ t → (t : Int) ≤ S + (w : Int) * 1000000000 → (smearC l (w * 500000000) t : Int) * w ≤ t - S ∧ (t : Int) - S < ((smearC l (w * 500000000) t : Int) + 1) * w) ∧
    (∀ u : Nat, t ≤ u → smearC l (w * 500000000) t ≤ smearC l (w * 500000000) u)

/-- The leap indicator of a synchronised response without smear (13 R290, log 142). -/
def Obligations.LeapIndicator : Prop :=
  ∀ (s : State) (t : Txn) (stamp : Nat), synced s = true → kissId t = none → t.cfg.smear = false →
    (∀ k, s.time.leap = some k → s.time.leapAt ≤ secOf stamp + 86400 → secOf stamp < s.time.leapAt →
      (ntpHeader s t stamp).1.li = (match k with | .leap61 => 1 | .leap59 => 2)) ∧
    (s.time.leap = none ∨ secOf stamp + 86400 < s.time.leapAt ∨ s.time.leapAt ≤ secOf stamp → (ntpHeader s t stamp).1.li = 0)

/-- IND_ADDR advances after every access to IND_DATA that reaches the block (19 R424, log 182). -/
def Obligations.IndirectAddress : Prop :=
  ∀ (s : State) (rd : Fin 9),
    (decideAccess s rd 0xF0004 false = .ok → ∃ t, exec (.indDataRead rd) s = .next t ∧ AddrStepped rd s t) ∧
    (∀ v : Word, decideAccess s rd 0xF0004 true = .ok → ∃ t, exec (.indDataWrite rd v) s = .next t ∧ AddrStepped rd s t)

/-- A command sent by a role or in a mode outside its row completes with DENIED or MODE and has no other effect (18 R403, 18
R404, 16 R365, 16 R366, 02 R47). -/
def Obligations.TurnedAway : Prop :=
  ∀ (i : Instr) (c : CmdRef) (op : Nat) (r : OpRow) (s : State), icpOf i = some (c, op) → s.aon.locked = true → activeOf c s = none → loaderRuns s = false →
    opRow op = some r →
    (r.allows (roleOf s c.slot) = false → exec i s = .next (complete c op stDenied [] (deny c.slot 5 op s))) ∧
    (r.allows (roleOf s c.slot) = true → r.inMode s.sys.mode = false → exec i s = .next (complete c op stMode [] s))

/-- A denied register access changes nothing but the count of the denial and its report (16 R365, 16 R366, 16 R367). -/
def Obligations.DeniedAccess : Prop :=
  ∀ (s : State) (i : Fin 8) (rd : Fin 9) (a : BitVec 20) (v : Word), rd.1 = i.1 →
    (decideAccess s rd a.toNat true = .denied → ∃ t, exec (.registerWrite rd a 0xF#4 v) s = .next t ∧
      t.slots.s[i].deny = satU 32 (s.slots.s[i].deny + 1) ∧ t.slots.s[i].denyWhere = a.toNat ∧ t.slots.s[i].denyKind = 2 ∧
      (∀ j : Fin 8, j ≠ i → t.slots.s[j] = s.slots.s[j]) ∧
      ∀ p : StatePart, p ∉ [.slots, .trail, .regs, .icu, .host, .perf] → p.same s t) ∧
    (∀ w, w = a.toNat / 4 * 4 → aliasOf a.toNat = 0 → w ≠ 0x10008 → w ≠ 0xF0004 → ownRead rd w 0#16 s = none →
      decideAccess s rd w false = .denied → ∃ t, exec (.stickyRead rd a) s = .next t ∧ t.host.rd[rd] = 0#32 ∧
        t.slots.s[i].deny = satU 32 (s.slots.s[i].deny + 1) ∧ (∀ j : Fin 8, j ≠ i → t.slots.s[j] = s.slots.s[j]) ∧
        ∀ p : StatePart, p ∉ [.slots, .trail, .regs, .icu, .host, .perf] → p.same s t)

/-- Every byte of flash the firmware commands store, and every byte they leave (17 R388, 17 R389). -/
def Obligations.FirmwareImageBytes : Prop :=
  ∀ (c : CmdRef) (s : State) (x : Nat), mwf 0xFF#8 s.flash.image = true →
    (∀ (a : FwWriteArgs) (b : Nat), Ready c 0xC02 0 s → a.rsv = false → a.len.toNat = a.data.length → 4 ≤ a.len.toNat → a.len.toNat ≤ 4096 →
      a.len.toNat % 4 = 0 → a.offset.toNat + a.len.toNat ≤ 512 + 1572864 → s.vault.updateOpen = true → a.offset.toNat = s.vault.fwOfs →
      b = 0x200000 * bit s.vault.target + a.offset.toNat → ∃ t, exec (.icpFwWrite c a) s = ok c 0xC02 [] t ∧
        mget 0xFF#8 x t.flash.image = (if b ≤ x then (a.data[x - b]?).getD (mget 0xFF#8 x s.flash.image) else mget 0xFF#8 x s.flash.image)) ∧
    (∀ b : BitVec 8, Ready c 0xC01 0 s → b.toNat ≤ 1 → b.toNat ≠ s.aon.bank → ∃ t, exec (.icpFwBegin c b false) s = ok c 0xC01 [] t ∧
      mget 0xFF#8 x t.flash.image =
        (if 0x200000 * b.toNat ≤ x ∧ x < 0x200000 * (b.toNat + 1) then 0xFF#8 else mget 0xFF#8 x s.flash.image))

/-- A read clears only the reader's own copy of a sticky register (05 R116, 19 R420, 19 R421). -/
def Obligations.StickyCopies : Prop :=
  ∀ (s : State) (r : Nat) (v : Word), perSlotReg r = true → r < 2 ^ 28 → mwf 0#32 s.regs.sticky = true →
    (∀ i : Fin 8, stickyOf (sticky r v s) i.1 r = stickyOf s i.1 r ||| v) ∧
    (∀ (i : Fin 8) (q : Nat), q ≠ r → q < 2 ^ 28 → stickyOf (sticky r v s) i.1 q = stickyOf s i.1 q) ∧
    (modeNormal s.sys.mode = true → ∀ rd : Fin 9, stickyOf (stickyTake rd r s) rd.1 r = 0#32 ∧
      (∀ j : Fin 9, j ≠ rd → stickyOf (stickyTake rd r s) j.1 r = stickyOf s j.1 r) ∧
      (∀ (j : Fin 9) (q : Nat), q ≠ r → q < 2 ^ 28 → stickyOf (stickyTake rd r s) j.1 q = stickyOf s j.1 q))

/-- A raised source becomes pending exactly in the targets that may receive it (16 R364, 19 R428, 01 R19, 20 R434). -/
def Obligations.SourcesReachReceivers : Prop :=
  ∀ (s : State) (src : Fin 256), src.1 < 224 ∨ 240 ≤ src.1 →
    (s.aon.locked = true → (∀ i : Fin 8, (raise src.1 s).icu.t[(⟨i.1, by omega⟩ : Fin 9)].pend.getLsbD src.1 =
      (s.icu.t[(⟨i.1, by omega⟩ : Fin 9)].pend.getLsbD src.1 || mayReceive (roleOf s i) true src.1)) ∧
      (raise src.1 s).icu.t[(8 : Fin 9)].pend.getLsbD src.1 = true) ∧
    (s.aon.locked = false → ∀ i : Fin 9, (raise src.1 s).icu.t[i].pend.getLsbD src.1 = s.icu.t[i].pend.getLsbD src.1) ∧
    (∀ (i : Fin 9) (k : Fin 256), k ≠ src → k.1 ≠ 225 + 2 * i.1 →
      (raise src.1 s).icu.t[i].pend.getLsbD k.1 = s.icu.t[i].pend.getLsbD k.1) ∧
    (∀ i : Fin 9, (raise src.1 s).icu.t[i].en = s.icu.t[i].en ∧ (raise src.1 s).icu.t[i].insvc = s.icu.t[i].insvc)

/-- A locked register keeps its value, and a write of it is a violation (19 R418, 19 R419, 03 R64, log 96). -/
def Obligations.LockedRegister : Prop :=
  ∀ (s : State) (rd : Fin 9) (a : BitVec 20) (v : Word), aliasOf a.toNat = 0 → decideAccess s rd a.toNat true = .ok →
    (∀ m, lkMask (blkOf a.toNat) (regOf a.toNat) = some m →
      (s.regs.lk.getLsbD (blkOf a.toNat) = true → ∃ t, exec (.registerWrite rd a 0xF#4 v) s = .next t ∧
        t = lockViol rd.1 a.toNat false (countReg rd 1 a.toNat s) ∧ t.time = s.time ∧ t.vault = s.vault ∧ t.flash = s.flash) ∧
      (s.regs.lk.getLsbD (blkOf a.toNat) = false → rd ≠ 8 → exec (.registerWrite rd a 0xF#4 v) s = .next (countReg rd 1 a.toNat s))) ∧
    (∀ p : Fin 4, a.toNat = 0x30070 + 4 * p.1 → rd = 8 → s.regs.lk.getLsbD 3 = false → exec (.registerWrite rd a 0xF#4 v) s =
      .next { s with time := { s.time with calUnc := s.time.calUnc.set p.1 (v.toNat % 65536) } })

/-- A host word written into a request ring's window changes its four bytes and no other (18 R399, 18 R412). -/
def Obligations.RingWindowBytes : Prop :=
  ∀ (s : State) (i : Fin 8) (rd : Fin 9) (a : BitVec 20) (o : Nat) (v : Word), rd.1 = i.1 → s.host.ready = true → (pfOf s i).isNone = true →
    o = a.toNat - 0x20000 → 0x21000 ≤ a.toNat → a.toNat < 0x21800 → a.toNat % 4 = 0 → decideAccess s rd a.toNat true = .ok →
    mwf 0#8 s.host.mbox[i].win = true → ∃ t, exec (.registerWrite rd a 0xF#4 v) s = .next t ∧
      (∀ k : Fin 4, mget 0#8 (o + k.1) t.host.mbox[i].win = v.extractLsb' (8 * k.1) 8) ∧
      (∀ x : Nat, x < o ∨ o + 4 ≤ x → mget 0#8 x t.host.mbox[i].win = mget 0#8 x s.host.mbox[i].win) ∧
      (∀ j : Fin 8, j ≠ i → t.host.mbox[j].win = s.host.mbox[j].win)

/-- The mode changes only at the resets, at the end of BOOT and at a steering boundary, and only along the table (02 R25, 02
R27, 02 R37, 20 R438). -/
def Obligations.ModeTransitions : Prop :=
  ∀ (c : Instr) (s t : State), exec c s = .next t →
    (changesMode c = false → t.sys.mode = s.sys.mode ∧ t.sys.prev = s.sys.prev ∧ t.sys.cause = s.sys.cause) ∧
    ((t.sys.mode = s.sys.mode ∧ t.sys.prev = s.sys.prev ∧ t.sys.cause = s.sys.cause) ∨
      (t.sys.mode = .boot ∧ 1 ≤ t.sys.cause ∧ t.sys.cause ≤ 5) ∨
      (t.sys.prev = s.sys.mode ∧ (s.sys.mode, t.sys.mode, t.sys.cause) ∈ modeTable))

/-- No two listening addresses share ADDR and VLAN on a port (R269). -/
def Obligations.AddressesApart : Prop :=
  AddressesOk State.reset ∧ (∀ s t : State, AddressesOk s → step s = .next t → AddressesOk t) ∧
    ∀ (c : CmdRef) (a : AddrSetArgs) (s : State) (j : Fin 8) (l : Fin 32) (y : ServAddr), Taken c 0x700 s → a.rsv = false →
      a.idx.toNat ≤ 31 → (a.ntp || a.nts) = true → (a.ipv6 = false → a.addr.toNat % 2 ^ 96 = 0) → isUnicast (setAddr a) = true → a.vlan.toNat ≤ 4094 →
      (a.ipv6 = true → 32 ≤ a.prefix6.toNat ∧ a.prefix6.toNat ≤ 128) → 1 ≤ a.ports.toNat → a.ports.toNat ≤ 15 → 1 ≤ a.rate.toNat →
      a.rate.toNat ≤ 1048575 → 1 ≤ a.burst.toNat → a.burst.toNat ≤ 1024 → (a.smear = true → a.w ≠ 0#32) →
      (a.w ≠ 0#32 → 3600 ≤ a.w.toNat ∧ a.w.toNat ≤ 172800) → (a.burst.toNat - 1) * emission a.rate.toNat < 2 ^ 30 →
      (addrAt s c.slot a.idx.toNat = none → addrTotal s < 256) → (j, l.1) ≠ (c.slot, a.idx.toNat) → s.serv.slots[j].addrs[l] = some y → y.addr = setAddr a → y.vlan = a.vlan.toNat →
      y.ports &&& BitVec.ofNat 4 a.ports.toNat ≠ 0#4 → exec (.icpServAddrSet c a) s = .next (complete c 0x700 stOrder [] s)
end

