-- ==== Sys2Proof/Laws/Maps.lean ====
section
/-!
SUPPORT. Sparse maps: a read after a write, writes to other keys, and the canonical form under every operation on them.
-/
namespace Sys2Proof.Laws
open Sys2Proof Sys2Proof.Machine

variable {α : Type}

theorem mget_mset_same [DecidableEq α] (d : α) (k : Nat) (v : α) (m : List (Nat × α)) (h : mwf d m = true) :
    mget d k (mset d k v m) = v := by
  induction m with
  | nil => by_cases hv : v = d <;> simp [mset, mget, hv]
  | cons e l ih =>
    obtain ⟨a, u⟩ := e
    simp only [mwf, Bool.and_eq_true, decide_eq_true_eq, List.all_eq_true] at h
    obtain ⟨⟨_, h2⟩, h3⟩ := h
    have hl : ∀ l' : List (Nat × α), (∀ x ∈ l', k < x.1) → mget d k l' = d := by
      intro l' hx
      cases l' with
      | nil => rfl
      | cons b t =>
        have : k < b.1 := hx b (by simp)
        simp [mget, show ¬ b.1 = k by omega, this]
    by_cases hak : a = k
    · subst hak
      by_cases hv : v = d
      · simp only [mset, hv, if_true]
        exact hl l h2
      · simp [mset, mget, hv]
    · by_cases hka : k < a
      · by_cases hv : v = d
        · simp [mset, hak, hka, hv, mget]
        · simp [mset, hak, hka, hv, mget]
      · simp [mset, hak, hka, mget, ih h3]

theorem mget_above [DecidableEq α] (d : α) (k : Nat) (l : List (Nat × α)) (h : ∀ x ∈ l, k < x.1) : mget d k l = d := by
  cases l with
  | nil => rfl
  | cons b t =>
    have : k < b.1 := h b (by simp)
    simp [mget, show ¬ b.1 = k by omega, this]

theorem mget_mset_other [DecidableEq α] (d : α) (k j : Nat) (v : α) (m : List (Nat × α)) (h : mwf d m = true) (hj : j ≠ k) :
    mget d j (mset d k v m) = mget d j m := by
  induction m with
  | nil =>
    by_cases hv : v = d
    · simp [mset, mget, hv]
    · simp only [mset, hv, if_false, mget]
      split
      · omega
      · split <;> rfl
  | cons e l ih =>
    obtain ⟨a, u⟩ := e
    simp only [mwf, Bool.and_eq_true, decide_eq_true_eq, List.all_eq_true] at h
    obtain ⟨⟨_, h2⟩, h3⟩ := h
    by_cases hak : a = k
    · subst hak
      by_cases hv : v = d
      · simp only [mset, hv, if_true, mget, show ¬ a = j from fun e => hj e.symm, if_false]
        by_cases hja : j < a
        · simp only [hja, if_true]
          exact mget_above d j l fun x hx => Nat.lt_trans hja (h2 x hx)
        · simp [hja]
      · simp [mset, mget, hv, show ¬ a = j from fun e => hj e.symm]
    · by_cases hka : k < a
      · by_cases hv : v = d
        · simp [mset, hak, hka, hv]
        · simp only [mset, hak, hka, hv, if_true, if_false]
          conv_lhs => unfold mget
          simp only [show ¬ k = j from fun e => hj e.symm, if_false]
          by_cases hjk : j < k
          · simp only [hjk, if_true]
            exact (mget_above d j _ (by
              intro x hx
              rcases List.mem_cons.1 hx with rfl | hx
              · exact Nat.lt_trans hjk hka
              · exact Nat.lt_trans (Nat.lt_trans hjk hka) (h2 x hx))).symm
          · simp [hjk]
      · simp only [mset, hak, hka, if_false, mget, ih h3]

theorem mset_keys [DecidableEq α] (d : α) (k : Nat) (v : α) (m : List (Nat × α)) :
    ∀ x ∈ mset d k v m, x.1 = k ∨ x ∈ m := by
  induction m with
  | nil =>
    intro x hx
    by_cases hv : v = d
    · simp [mset, hv] at hx
    · simp [mset, hv] at hx; exact .inl (by rw [hx])
  | cons e l ih =>
    obtain ⟨a, u⟩ := e
    intro x hx
    by_cases hak : a = k
    · by_cases hv : v = d
      · simp only [mset, hak, hv, if_true] at hx
        exact .inr (List.mem_cons_of_mem _ hx)
      · simp only [mset, hak, hv, if_true, if_false] at hx
        rcases List.mem_cons.1 hx with rfl | hx
        · exact .inl rfl
        · exact .inr (List.mem_cons_of_mem _ hx)
    · by_cases hka : k < a
      · by_cases hv : v = d
        · simp only [mset, hak, hka, hv, if_true, if_false] at hx
          exact .inr hx
        · simp only [mset, hak, hka, hv, if_true, if_false] at hx
          rcases List.mem_cons.1 hx with rfl | hx
          · exact .inl rfl
          · exact .inr hx
      · simp only [mset, hak, hka, if_false] at hx
        rcases List.mem_cons.1 hx with rfl | hx
        · exact .inr (by simp)
        · rcases ih x hx with h | h
          · exact .inl h
          · exact .inr (List.mem_cons_of_mem _ h)

theorem mwf_mset [DecidableEq α] (d : α) (k : Nat) (v : α) (m : List (Nat × α)) (h : mwf d m = true) :
    mwf d (mset d k v m) = true := by
  induction m with
  | nil => by_cases hv : v = d <;> simp [mset, mwf, hv]
  | cons e l ih =>
    obtain ⟨a, u⟩ := e
    have h' := h
    simp only [mwf, Bool.and_eq_true, decide_eq_true_eq, List.all_eq_true] at h
    obtain ⟨⟨h1, h2⟩, h3⟩ := h
    by_cases hak : a = k
    · by_cases hv : v = d
      · simpa [mset, hak, hv] using h3
      · simp only [mset, hak, hv, if_true, if_false, mwf, Bool.and_eq_true, decide_eq_true_eq, List.all_eq_true]
        exact ⟨⟨hv, fun x hx => hak ▸ h2 x hx⟩, h3⟩
    · by_cases hka : k < a
      · by_cases hv : v = d
        · simpa [mset, hak, hka, hv] using h'
        · simp only [mset, hak, hka, hv, if_true, if_false]
          rw [mwf]
          simp only [Bool.and_eq_true, decide_eq_true_eq, List.all_eq_true]
          refine ⟨⟨hv, fun x hx => ?_⟩, h'⟩
          rcases List.mem_cons.1 hx with rfl | hx
          · exact hka
          · exact Nat.lt_trans hka (h2 x hx)
      · simp only [mset, hak, hka, if_false, mwf, Bool.and_eq_true, decide_eq_true_eq, List.all_eq_true]
        refine ⟨⟨h1, fun x hx => ?_⟩, ih h3⟩
        rcases mset_keys d k v l x hx with hx | hx
        · rw [hx]; omega
        · exact h2 x hx

theorem mwf_filter [DecidableEq α] (d : α) (p : Nat × α → Bool) (m : List (Nat × α)) (h : mwf d m = true) :
    mwf d (m.filter p) = true := by
  induction m with
  | nil => rfl
  | cons e l ih =>
    obtain ⟨a, u⟩ := e
    simp only [mwf, Bool.and_eq_true, decide_eq_true_eq, List.all_eq_true] at h
    obtain ⟨⟨h1, h2⟩, h3⟩ := h
    by_cases hp : p (a, u) = true
    · simp only [List.filter_cons, hp, if_true, mwf, Bool.and_eq_true, decide_eq_true_eq, List.all_eq_true]
      exact ⟨⟨h1, fun x hx => h2 x (List.mem_of_mem_filter hx)⟩, ih h3⟩
    · simpa [List.filter_cons, hp] using ih h3

theorem mwf_mclear [DecidableEq α] (d : α) (lo hi : Nat) (m : List (Nat × α)) (h : mwf d m = true) :
    mwf d (mclear lo hi m) = true := mwf_filter d _ m h

theorem mwf_mputs (d : Byte) (bs : List Byte) (k : Nat) (m : List (Nat × Byte)) (h : mwf d m = true) :
    mwf d (mputs d k bs m) = true := by
  induction bs generalizing k m with
  | nil => exact h
  | cons b l ih => exact ih (k + 1) _ (mwf_mset d k b m h)

end Sys2Proof.Laws
end

