-- ==== Sys2Proof/Laws/Frame.lean ====
section
/-!
SUPPORT. What a step may change: `Moves m r t` says that the components of State outside the mask `m` are those of `r`, that
the waiting commands are untouched, that what only grows has not shrunk, and that what is canonical or fixed in `r` is so in
`t`. One lemma per function of the model stands in the files Laws/Moves*.lean.
-/
namespace Sys2Proof.Laws
open Sys2Proof Sys2Proof.Machine

/-! ## What is kept inside a component -/

/-- The power-cycle count never falls (02 R37, R38). -/
def AonOn (a b : AonSt) : Prop := a.pcycle ≤ 0xFFFFFFFF → a.pcycle ≤ b.pcycle ∧ b.pcycle ≤ 0xFFFFFFFF

/-- The anti-rollback counter never falls (17 R390); the sparse table of ring generations stays canonical. -/
def VaultOn (a b : VaultSt) : Prop := a.otpSvn ≤ b.otpSvn ∧ (mwf 1#32 a.ptpRingGen = true → mwf 1#32 b.ptpRingGen = true)

/-- The image banks stay canonical. -/
def FlashOn (a b : FlashSt) : Prop := mwf 0xFF#8 a.image = true → mwf 0xFF#8 b.image = true

/-- The ring windows stay canonical. -/
def HostOn (a b : HostSt) : Prop := (∀ i : Fin 8, mwf 0#8 a.mbox[i].win = true) → ∀ i : Fin 8, mwf 0#8 b.mbox[i].win = true

/-- Every listening address of `b` has the address, VLAN and ports of the one at its index of `a`. -/
def AddrsOf (a b : ServSt) : Prop := ∀ (i : Fin 8) (k : Fin 32) (y : ServAddr), b.slots[i].addrs[k] = some y →
  ∃ x, a.slots[i].addrs[k] = some x ∧ x.addr = y.addr ∧ x.vlan = y.vlan ∧ x.ports = y.ports

/-- No two listening addresses clash (13 R269). -/
def AddrsApart (a : ServSt) : Prop := ∀ (i j : Fin 8) (k l : Fin 32), (i, k) ≠ (j, l) → ∀ x y : ServAddr,
  a.slots[i].addrs[k] = some x → a.slots[j].addrs[l] = some y → addrClash x y = false

/-- The Tollgate table stays canonical, and the listening addresses apart. -/
def ServOn (a b : ServSt) : Prop :=
  (mwf ({} : Bucket) a.tollgate = true → mwf ({} : Bucket) b.tollgate = true) ∧ (AddrsApart a → AddrsApart b)

/-- The grant and next-hop tables stay canonical. -/
def PtpOn (a b : PtpSt) : Prop :=
  (mwf ({} : Grant) a.grants = true → mwf ({} : Grant) b.grants = true) ∧ (mwf 0#48 a.nextHop = true → mwf 0#48 b.nextHop = true)

/-- The sticky words stay canonical. -/
def RegsOn (a b : RegsSt) : Prop := mwf 0#32 a.sticky = true → mwf 0#32 b.sticky = true

/-- The counters stay canonical. -/
def PerfOn (a b : PerfSt) : Prop := mwf 0 a.cnt = true → mwf 0 b.cnt = true

/-- Severities as 21 R444 and R449 bound them: two bits, fixed for the sources marked fixed, 0 for reserved sources. -/
def SevOk (v : Vector Nat 64) : Prop :=
  (∀ i : Fin 64, v[i] ≤ 3) ∧ (∀ i : Fin 64, faultReserved i.1 = true → v[i] = 0) ∧ v[0] = 3 ∧ v[57] = 3 ∧ v[58] = 3

/-- The severities stay within their bounds. -/
def FaultOn (a b : FaultSt) : Prop := SevOk a.sev → SevOk b.sev

/-- What SYS_MODE and SYS_MODE_SECS hold of the mode: the mode, the one before, the cause of the transition and its age. -/
abbrev sysWord (q : SysSt) : Mode × Mode × Nat × Nat := (q.mode, q.prev, q.cause, q.secs)

theorem AonOn.refl (a : AonSt) : AonOn a a := fun h => ⟨Nat.le_refl _, h⟩
theorem VaultOn.refl (a : VaultSt) : VaultOn a a := ⟨Nat.le_refl _, id⟩
theorem FlashOn.refl (a : FlashSt) : FlashOn a a := id
theorem HostOn.refl (a : HostSt) : HostOn a a := id
theorem ServOn.refl (a : ServSt) : ServOn a a := ⟨id, id⟩
theorem PtpOn.refl (a : PtpSt) : PtpOn a a := ⟨id, id⟩
theorem RegsOn.refl (a : RegsSt) : RegsOn a a := id
theorem PerfOn.refl (a : PerfSt) : PerfOn a a := id
theorem FaultOn.refl (a : FaultSt) : FaultOn a a := id
theorem AonOn.trans {a b c : AonSt} (h : AonOn a b) (k : AonOn b c) : AonOn a c := fun x =>
  ⟨Nat.le_trans (h x).1 (k (h x).2).1, (k (h x).2).2⟩
theorem VaultOn.trans {a b c : VaultSt} (h : VaultOn a b) (k : VaultOn b c) : VaultOn a c :=
  ⟨Nat.le_trans h.1 k.1, fun x => k.2 (h.2 x)⟩
theorem FlashOn.trans {a b c : FlashSt} (h : FlashOn a b) (k : FlashOn b c) : FlashOn a c := fun x => k (h x)
theorem HostOn.trans {a b c : HostSt} (h : HostOn a b) (k : HostOn b c) : HostOn a c := fun x => k (h x)
theorem ServOn.trans {a b c : ServSt} (h : ServOn a b) (k : ServOn b c) : ServOn a c := ⟨fun x => k.1 (h.1 x), fun x => k.2 (h.2 x)⟩
theorem PtpOn.trans {a b c : PtpSt} (h : PtpOn a b) (k : PtpOn b c) : PtpOn a c := ⟨fun x => k.1 (h.1 x), fun x => k.2 (h.2 x)⟩
theorem RegsOn.trans {a b c : RegsSt} (h : RegsOn a b) (k : RegsOn b c) : RegsOn a c := fun x => k (h x)
theorem PerfOn.trans {a b c : PerfSt} (h : PerfOn a b) (k : PerfOn b c) : PerfOn a c := fun x => k (h x)
theorem FaultOn.trans {a b c : FaultSt} (h : FaultOn a b) (k : FaultOn b c) : FaultOn a c := fun x => k (h x)

/-! ## The relation -/

/-- `t` comes from `r` by changes inside the components of the mask `m`; bit j is the j-th field of State, bit 25 the
mode's own fields of `sys`. -/
structure Moves (m : Nat) (r t : State) : Prop where
  pending : t.pending = r.pending
  aon : m.testBit 1 = false → t.aon = r.aon
  time : m.testBit 2 = false → t.time = r.time
  cairn : m.testBit 3 = false → t.cairn = r.cairn
  sign : m.testBit 4 = false → t.sign = r.sign
  guy : m.testBit 5 = false → t.guy = r.guy
  mile : m.testBit 6 = false → t.mile = r.mile
  tdc : m.testBit 7 = false → t.tdc = r.tdc
  gnss : m.testBit 8 = false → t.gnss = r.gnss
  port : m.testBit 9 = false → t.port = r.port
  wayp : m.testBit 10 = false → t.wayp = r.wayp
  serv : m.testBit 11 = false → t.serv = r.serv
  ptp : m.testBit 12 = false → t.ptp = r.ptp
  foot : m.testBit 13 = false → t.foot = r.foot
  vault : m.testBit 14 = false → t.vault = r.vault
  flash : m.testBit 15 = false → t.flash = r.flash
  host : m.testBit 16 = false → t.host = r.host
  slots : m.testBit 17 = false → t.slots = r.slots
  regs : m.testBit 18 = false → t.regs = r.regs
  icu : m.testBit 19 = false → t.icu = r.icu
  trail : m.testBit 20 = false → t.trail = r.trail
  fault : m.testBit 21 = false → t.fault = r.fault
  perf : m.testBit 22 = false → t.perf = r.perf
  pert : m.testBit 23 = false → t.pert = r.pert
  sys : m.testBit 24 = false → t.sys = r.sys
  word : m.testBit 25 = false → sysWord t.sys = sysWord r.sys
  aonOn : AonOn r.aon t.aon
  vaultOn : VaultOn r.vault t.vault
  flashOn : FlashOn r.flash t.flash
  hostOn : HostOn r.host t.host
  servOn : ServOn r.serv t.serv
  ptpOn : PtpOn r.ptp t.ptp
  regsOn : RegsOn r.regs t.regs
  perfOn : PerfOn r.perf t.perf
  faultOn : FaultOn r.fault t.fault

theorem Moves.refl (m : Nat) (r : State) : Moves m r r := by
  constructor
  all_goals first
    | exact .refl _
    | exact fun _ => rfl

/-- A mask that includes another has its bits. -/
theorem bit_of {k m j : Nat} (hm : k ||| m = m) (hk : k.testBit j = true) : m.testBit j = true := by
  rw [← hm, Nat.testBit_or, hk, Bool.true_or]

/-- A mask that includes another includes what the other includes. -/
theorem mask_sub {a k m : Nat} (hm : k ||| m = m) (hk : a ||| k = k) : a ||| m = m := by
  rw [← hm, ← Nat.or_assoc, hk]

/-- A component is unchanged, or in the mask. -/
def Chg {α : Type} (m j : Nat) (a b : α) : Prop := b = a ∨ m.testBit j = true

theorem Chg.same {α : Type} {m j : Nat} {a : α} : Chg m j a a := .inl rfl
theorem Chg.word {m : Nat} {a b : SysSt} (h1 : b.mode = a.mode) (h2 : b.prev = a.prev) (h3 : b.cause = a.cause) (h4 : b.secs = a.secs) :
    Chg m 25 (sysWord a) (sysWord b) := .inl (by simp [sysWord, h1, h2, h3, h4])
theorem Chg.bit {α : Type} {k m j : Nat} {a b : α} (hm : k ||| m = m) (hk : k.testBit j = true) : Chg m j a b := .inr (bit_of hm hk)

theorem AonOn.same {a b : AonSt} (h : b.pcycle = a.pcycle) : AonOn a b := fun x => by rw [h]; exact ⟨Nat.le_refl _, x⟩
theorem VaultOn.same {a b : VaultSt} (h : b.otpSvn = a.otpSvn) (k : b.ptpRingGen = a.ptpRingGen) : VaultOn a b := by
  rw [VaultOn, h, k]; exact ⟨Nat.le_refl _, id⟩
theorem FlashOn.same {a b : FlashSt} (h : b.image = a.image) : FlashOn a b := by rw [FlashOn, h]; exact id
theorem HostOn.same {a b : HostSt} (h : b.mbox = a.mbox) : HostOn a b := by rw [HostOn, h]; exact id
theorem AddrsOf.apart {a b : ServSt} (h : AddrsOf a b) (q : AddrsApart a) : AddrsApart b := by
  intro i j k l ne x y hx hy
  obtain ⟨u, hu, u1, u2, u3⟩ := h i k x hx
  obtain ⟨v, hv, v1, v2, v3⟩ := h j l y hy
  have := q i j k l ne u v hu hv
  simpa [addrClash, u1, u2, u3, v1, v2, v3] using this
theorem ServOn.of {a b : ServSt} (h : b.tollgate = a.tollgate) (k : AddrsOf a b) : ServOn a b :=
  ⟨by rw [h]; exact id, k.apart⟩
theorem ServOn.same {a b : ServSt} (h : b.tollgate = a.tollgate) (k : b.slots = a.slots) : ServOn a b :=
  .of h fun i k' y e => ⟨y, by rw [← k]; exact e, rfl, rfl, rfl⟩
/-- One slot is changed outside its addresses. -/
theorem ServOn.slot {a b : ServSt} {i : Fin 8} {f : ServSlot → ServSlot} (h : b.tollgate = a.tollgate) (k : b.slots = Machine.upd a.slots i f)
    (hf : (f a.slots[i]).addrs = a.slots[i].addrs) : ServOn a b := by
  refine .of h fun j l y e => ⟨y, ?_, rfl, rfl, rfl⟩
  rw [k] at e
  by_cases q : i = j
  · subst q; rw [← e, ← hf]; simp [Machine.upd]
  · have : (i : Nat) ≠ j := fun x => q (Fin.ext x)
    simpa [Machine.upd, Vector.getElem_set, this] using e
theorem ServOn.slotUpd {a : ServSt} {i : Fin 8} {f : ServSlot → ServSlot} (hf : (f a.slots[i]).addrs = a.slots[i].addrs) :
    ServOn a { a with slots := Machine.upd a.slots i f } := .slot rfl rfl hf
/-- One address is removed, or replaced by one with the same address, VLAN and ports. -/
theorem ServOn.addr {a b : ServSt} {i : Fin 8} {l : Fin 32} {o : Option ServAddr} (h : b.tollgate = a.tollgate)
    (k : b.slots = Machine.upd a.slots i fun q => { q with addrs := q.addrs.set l.1 o })
    (ho : ∀ y, o = some y → ∃ x, a.slots[i].addrs[l] = some x ∧ x.addr = y.addr ∧ x.vlan = y.vlan ∧ x.ports = y.ports) : ServOn a b := by
  refine .of h fun j n y e => ?_
  rw [k] at e
  by_cases q : i = j
  · subst q
    by_cases w : l = n
    · subst w; exact ho y (by simpa [Machine.upd] using e)
    · have : (l : Nat) ≠ n := fun x => w (Fin.ext x)
      exact ⟨y, by simpa [Machine.upd, Vector.getElem_set, this] using e, rfl, rfl, rfl⟩
  · have : (i : Nat) ≠ j := fun x => q (Fin.ext x)
    exact ⟨y, by simpa [Machine.upd, Vector.getElem_set, this] using e, rfl, rfl, rfl⟩
theorem PtpOn.same {a b : PtpSt} (h : b.grants = a.grants) (k : b.nextHop = a.nextHop) : PtpOn a b := by rw [PtpOn, h, k]; exact ⟨id, id⟩
theorem RegsOn.same {a b : RegsSt} (h : b.sticky = a.sticky) : RegsOn a b := by rw [RegsOn, h]; exact id
theorem PerfOn.same {a b : PerfSt} (h : b.cnt = a.cnt) : PerfOn a b := by rw [PerfOn, h]; exact id
theorem FaultOn.same {a b : FaultSt} (h : b.sev = a.sev) : FaultOn a b := by rw [FaultOn, h]; exact id

/-- One ring window is replaced by a canonical one. -/
theorem HostOn.upd {a b : HostSt} {i : Fin 8} {f : MboxSlot → MboxSlot} (hb : b.mbox = Machine.upd a.mbox i f)
    (hf : mwf 0#8 a.mbox[i].win = true → mwf 0#8 (f a.mbox[i]).win = true) : HostOn a b := by
  intro h j
  rw [hb]
  by_cases e : i = j
  · subst e; simpa [Machine.upd] using hf (h i)
  · have : (i : Nat) ≠ j := fun x => e (Fin.ext x)
    simpa [Machine.upd, Vector.getElem_set, this] using h j

/-- One slot's mailbox is replaced by one whose window is canonical. -/
theorem HostOn.set {a b : HostSt} {i : Fin 8} {v : MboxSlot} (hb : b.mbox = a.mbox.set i.1 v i.2)
    (hf : mwf 0#8 a.mbox[i].win = true → mwf 0#8 v.win = true) : HostOn a b :=
  HostOn.upd (f := fun _ => v) (i := i) hb hf

/-- Every slot's mailbox is replaced. -/
theorem HostOn.all {a b : HostSt} (hb : ∀ i : Fin 8, mwf 0#8 a.mbox[i].win = true → mwf 0#8 b.mbox[i].win = true) : HostOn a b :=
  fun h i => hb i (h i)

/-- An update of components: those that change lie in the mask. -/
theorem Moves.upd {m : Nat} {r s : State} (h : Moves m r s)
    {aon : AonSt}
    {time : TimeSt}
    {cairn : CairnSt}
    {sign : SignSt}
    {guy : GuySt}
    {mile : MileSt}
    {tdc : TdcSt}
    {gnss : GnssSt}
    {port : PortBlk}
    {wayp : WaypSt}
    {serv : ServSt}
    {ptp : PtpSt}
    {foot : FootSt}
    {vault : VaultSt}
    {flash : FlashSt}
    {host : HostSt}
    {slots : SlotsSt}
    {regs : RegsSt}
    {icu : IcuSt}
    {trail : TrailSt}
    {fault : FaultSt}
    {perf : PerfSt}
    {pert : PertSt}
    {sys : SysSt}
    (c1 : Chg m 1 s.aon aon) (c2 : Chg m 2 s.time time) (c3 : Chg m 3 s.cairn cairn) (c4 : Chg m 4 s.sign sign) (c5 : Chg m 5 s.guy guy) (c6 : Chg m 6 s.mile mile) (c7 : Chg m 7 s.tdc tdc) (c8 : Chg m 8 s.gnss gnss) (c9 : Chg m 9 s.port port) (c10 : Chg m 10 s.wayp wayp) (c11 : Chg m 11 s.serv serv) (c12 : Chg m 12 s.ptp ptp) (c13 : Chg m 13 s.foot foot) (c14 : Chg m 14 s.vault vault) (c15 : Chg m 15 s.flash flash) (c16 : Chg m 16 s.host host) (c17 : Chg m 17 s.slots slots) (c18 : Chg m 18 s.regs regs) (c19 : Chg m 19 s.icu icu) (c20 : Chg m 20 s.trail trail) (c21 : Chg m 21 s.fault fault) (c22 : Chg m 22 s.perf perf) (c23 : Chg m 23 s.pert pert) (c24 : Chg m 24 s.sys sys) (c25 : Chg m 25 (sysWord s.sys) (sysWord sys))
    (oaon : AonOn s.aon aon) (ovault : VaultOn s.vault vault) (oflash : FlashOn s.flash flash) (ohost : HostOn s.host host) (oserv : ServOn s.serv serv) (optp : PtpOn s.ptp ptp) (oregs : RegsOn s.regs regs) (operf : PerfOn s.perf perf) (ofault : FaultOn s.fault fault) :
    Moves m r ⟨s.pending, aon, time, cairn, sign, guy, mile, tdc, gnss, port, wayp, serv, ptp, foot, vault, flash, host, slots, regs, icu, trail, fault, perf, pert, sys⟩ :=
  ⟨h.pending,
    fun e => c1.elim (fun q => q.trans (h.aon e)) (fun q => by rw [e] at q; cases q),
    fun e => c2.elim (fun q => q.trans (h.time e)) (fun q => by rw [e] at q; cases q),
    fun e => c3.elim (fun q => q.trans (h.cairn e)) (fun q => by rw [e] at q; cases q),
    fun e => c4.elim (fun q => q.trans (h.sign e)) (fun q => by rw [e] at q; cases q),
    fun e => c5.elim (fun q => q.trans (h.guy e)) (fun q => by rw [e] at q; cases q),
    fun e => c6.elim (fun q => q.trans (h.mile e)) (fun q => by rw [e] at q; cases q),
    fun e => c7.elim (fun q => q.trans (h.tdc e)) (fun q => by rw [e] at q; cases q),
    fun e => c8.elim (fun q => q.trans (h.gnss e)) (fun q => by rw [e] at q; cases q),
    fun e => c9.elim (fun q => q.trans (h.port e)) (fun q => by rw [e] at q; cases q),
    fun e => c10.elim (fun q => q.trans (h.wayp e)) (fun q => by rw [e] at q; cases q),
    fun e => c11.elim (fun q => q.trans (h.serv e)) (fun q => by rw [e] at q; cases q),
    fun e => c12.elim (fun q => q.trans (h.ptp e)) (fun q => by rw [e] at q; cases q),
    fun e => c13.elim (fun q => q.trans (h.foot e)) (fun q => by rw [e] at q; cases q),
    fun e => c14.elim (fun q => q.trans (h.vault e)) (fun q => by rw [e] at q; cases q),
    fun e => c15.elim (fun q => q.trans (h.flash e)) (fun q => by rw [e] at q; cases q),
    fun e => c16.elim (fun q => q.trans (h.host e)) (fun q => by rw [e] at q; cases q),
    fun e => c17.elim (fun q => q.trans (h.slots e)) (fun q => by rw [e] at q; cases q),
    fun e => c18.elim (fun q => q.trans (h.regs e)) (fun q => by rw [e] at q; cases q),
    fun e => c19.elim (fun q => q.trans (h.icu e)) (fun q => by rw [e] at q; cases q),
    fun e => c20.elim (fun q => q.trans (h.trail e)) (fun q => by rw [e] at q; cases q),
    fun e => c21.elim (fun q => q.trans (h.fault e)) (fun q => by rw [e] at q; cases q),
    fun e => c22.elim (fun q => q.trans (h.perf e)) (fun q => by rw [e] at q; cases q),
    fun e => c23.elim (fun q => q.trans (h.pert e)) (fun q => by rw [e] at q; cases q),
    fun e => c24.elim (fun q => q.trans (h.sys e)) (fun q => by rw [e] at q; cases q),
    fun e => c25.elim (fun q => q.trans (h.word e)) (fun q => by rw [e] at q; cases q),
    h.aonOn.trans oaon,
    h.vaultOn.trans ovault,
    h.flashOn.trans oflash,
    h.hostOn.trans ohost,
    h.servOn.trans oserv,
    h.ptpOn.trans optp,
    h.regsOn.trans oregs,
    h.perfOn.trans operf,
    h.faultOn.trans ofault⟩

theorem Moves.ite {m : Nat} {r a b : State} {p : Prop} [Decidable p] (ha : Moves m r a) (hb : Moves m r b) :
    Moves m r (if p then a else b) := by split <;> assumption

theorem Moves.ite_app {m : Nat} {r s : State} {p : Prop} [Decidable p] {f g : State → State} (ha : Moves m r (f s))
    (hb : Moves m r (g s)) : Moves m r ((if p then f else g) s) := by split <;> assumption

theorem Moves.self {m : Nat} {r s : State} (h : Moves m r s) : Moves m r (id s) := h

theorem Moves.dite {m : Nat} {r : State} {p : Prop} [Decidable p] {a : p → State} {b : ¬p → State} (ha : ∀ h, Moves m r (a h))
    (hb : ∀ h, Moves m r (b h)) : Moves m r (if h : p then a h else b h) := by split <;> simp_all

theorem Moves.ite_snd {m : Nat} {α : Type} {r : State} {a b : α × State} {p : Prop} [Decidable p] (ha : Moves m r a.2)
    (hb : Moves m r b.2) : Moves m r (if p then a else b).2 := by split <;> assumption

theorem Moves.ite_fst {m : Nat} {α : Type} {r : State} {a b : State × α} {p : Prop} [Decidable p] (ha : Moves m r a.1)
    (hb : Moves m r b.1) : Moves m r (if p then a else b).1 := by split <;> assumption

theorem Moves.foldl {m : Nat} {α : Type} {r : State} {f : State → α → State} (hf : ∀ s a, Moves m r s → Moves m r (f s a)) (l : List α) :
    ∀ {s : State}, Moves m r s → Moves m r (l.foldl f s) := by
  induction l with
  | nil => exact id
  | cons a l ih => exact fun h => ih (hf _ a h)

theorem Moves.foldl_snd {m : Nat} {α β : Type} {r : State} {f : β × State → α → β × State}
    (hf : ∀ x a, Moves m r x.2 → Moves m r (f x a).2) (l : List α) : ∀ {x : β × State}, Moves m r x.2 → Moves m r (l.foldl f x).2 := by
  induction l with
  | nil => exact id
  | cons a l ih => exact fun h => ih (hf _ a h)

theorem Moves.foldl_fst {m : Nat} {α β : Type} {r : State} {f : State × β → α → State × β}
    (hf : ∀ x a, Moves m r x.1 → Moves m r (f x a).1) (l : List α) : ∀ {x : State × β}, Moves m r x.1 → Moves m r (l.foldl f x).1 := by
  induction l with
  | nil => exact id
  | cons a l ih => exact fun h => ih (hf _ a h)

theorem Moves.elim {m : Nat} {α : Type} {r b : State} {f : α → State} (o : Option α) (hb : Moves m r b) (hf : ∀ a, Moves m r (f a)) :
    Moves m r (o.elim b f) := by cases o <;> simp [hb, hf]

theorem Moves.elim_snd {m : Nat} {α β : Type} {r : State} {b : β × State} {f : α → β × State} (o : Option α) (hb : Moves m r b.2)
    (hf : ∀ a, Moves m r (f a).2) : Moves m r (o.elim b f).2 := by cases o <;> simp [hb, hf]

/-- A step answers a next state that comes from `r` by changes inside the mask. -/
def MovesOut (m : Nat) (r : State) (o : Out) : Prop := ∀ t, o = .next t → Moves m r t

theorem MovesOut.next {m : Nat} {r t : State} (h : Moves m r t) : MovesOut m r (.next t) := fun _ e => by cases e; exact h

theorem MovesOut.ite {m : Nat} {r : State} {a b : Out} {p : Prop} [Decidable p] (ha : MovesOut m r a) (hb : MovesOut m r b) :
    MovesOut m r (if p then a else b) := by split <;> assumption

/-- What a command's own part answers comes from `r` by changes inside the mask. -/
def MovesRes (m : Nat) (r : State) : IcpRes → Prop
  | .done _ _ t => Moves m r t
  | .later t => Moves m r t

theorem MovesRes.done {m : Nat} {r t : State} {st : Nat} {pl : List Byte} (h : Moves m r t) : MovesRes m r (.done st pl t) := h
theorem MovesRes.later {m : Nat} {r t : State} (h : Moves m r t) : MovesRes m r (.later t) := h

theorem MovesRes.ite {m : Nat} {r : State} {a b : IcpRes} {p : Prop} [Decidable p] (ha : MovesRes m r a) (hb : MovesRes m r b) :
    MovesRes m r (if p then a else b) := by split <;> assumption

end Sys2Proof.Laws
end

