-- ==== Sys2Proof/Laws/Kept.lean ====
section
/-!
SUPPORT. What the operations inside one component keep: canonical maps stay canonical.
-/
namespace Sys2Proof.Laws
open Sys2Proof Sys2Proof.Machine

theorem RegsOn.foldl {α : Type} {f : RegsSt → α → RegsSt} (hf : ∀ g a, RegsOn g (f g a)) (l : List α) :
    ∀ g, RegsOn g (l.foldl f g) := by
  induction l with
  | nil => exact RegsOn.refl
  | cons a l ih => exact fun g => (hf g a).trans (ih _)

theorem ServOn.ite {g a b : ServSt} {p : Prop} [Decidable p] (ha : ServOn g a) (hb : ServOn g b) : ServOn g (if p then a else b) := by
  split <;> assumption

theorem RegsOn.ite {g a b : RegsSt} {p : Prop} [Decidable p] (ha : RegsOn g a) (hb : RegsOn g b) : RegsOn g (if p then a else b) := by
  split <;> assumption

theorem stickyIn_on (c r : Nat) (v : Word) (g : RegsSt) : RegsOn g (stickyIn c r v g) := fun h => mwf_mset _ _ _ _ h

theorem stickyRegs_on (r : Nat) (v : Word) (g : RegsSt) : RegsOn g (stickyRegs r v g) :=
  RegsOn.foldl (fun g c => stickyIn_on c r v g) _ g

theorem stickyField_on (r lo w : Nat) (f : Nat → Nat) (c : Nat) (g : RegsSt) : RegsOn g (stickyField r lo w f c g) :=
  fun h => mwf_mset _ _ _ _ h

/-- One more field keeps what a change keeps. -/
theorem stickyField_after {a : RegsSt} (r lo w : Nat) (f : Nat → Nat) (c : Nat) (g : RegsSt) (h : RegsOn a g) :
    RegsOn a (stickyField r lo w f c g) := h.trans (stickyField_on r lo w f c g)

/-- One more sticky word keeps what a change keeps. -/
theorem stickyRegs_after {a : RegsSt} (r : Nat) (v : Word) (g : RegsSt) (h : RegsOn a g) : RegsOn a (stickyRegs r v g) :=
  h.trans (stickyRegs_on r v g)

theorem RegsOn.filter {a b : RegsSt} {p : Nat × Word → Bool} (h : b.sticky = a.sticky.filter p) : RegsOn a b := by
  rw [RegsOn, h]; exact mwf_filter _ _ _

theorem cntAdd_on (key n : Nat) (m : List (Nat × Nat)) (h : mwf 0 m = true) : mwf 0 (cntAdd key n m) = true := mwf_mset _ _ _ _ h

theorem mboxEval_win (a b c d : Bool) (l : BitVec 256) (n : Nat) (e : Bool) (m : MboxSlot) :
    (mboxEval a b c d l n e m).1.win = m.win := by
  unfold mboxEval MboxSlot.signal; dsimp only; repeat' split
  all_goals rfl

theorem evalSlot_on (sl : SlotsSt) (n : Nat) (again : Bool) (i : Fin 8) (p : IcuSt × HostSt) :
    HostOn p.2 (evalSlot sl n again i p).2 := by
  intro h j
  simp only [evalSlot, Fin.getElem_fin, Vector.getElem_set]
  split
  · rw [mboxEval_win]; exact h i
  · exact h j

theorem foldEval_on (sl : SlotsSt) (n : Nat) (l : List (Fin 8)) :
    ∀ p : IcuSt × HostSt, HostOn p.2 (l.foldl (fun p i => evalSlot sl n false i p) p).2 := by
  induction l with
  | nil => exact fun p => HostOn.refl _
  | cons a l ih => exact fun p => (evalSlot_on sl n false a p).trans (ih _)

theorem ringPut_win (pcie can : Bool) (m : MboxSlot) (x : Msg) (h : mwf 0#8 m.win = true) :
    ∀ v, ringPut pcie can m x = some v → mwf 0#8 v.win = true := by
  intro v e
  cases pcie <;> simp only [ringPut, if_true, if_false, Bool.false_eq_true] at e <;> split at e
  · cases e
    simp only
    apply mwf_mputs
    split
    · exact h
    · exact mwf_mputs _ _ _ _ h
  · cases e
  · cases e; exact h
  · cases e

theorem modCount_win (pcie : Bool) (m : MboxSlot) : (modCount pcie m).win = m.win := by
  unfold modCount MboxSlot.signal; repeat' split
  all_goals rfl

theorem drainHeld_win (pcie can : Bool) (l : List Msg) : ∀ m : MboxSlot, mwf 0#8 m.win = true → mwf 0#8 (drainHeld pcie can l m).1.win = true := by
  induction l with
  | nil => exact fun m h => h
  | cons x l ih =>
    intro m h
    unfold drainHeld
    split
    · rename_i m' e
      exact ih _ (ringPut_win pcie can { m with held := [] } x h m' e)
    · exact h

theorem mbox_set_on {a b : HostSt} (i : Fin 8) (v : MboxSlot) (hb : b.mbox = a.mbox.set i.1 v i.2) (hv : v.win = a.mbox[i].win) :
    HostOn a b := HostOn.set hb fun h => by rw [hv]; exact h

theorem mbox_upd_on {a b : HostSt} {i : Fin 8} {f : MboxSlot → MboxSlot} (hb : b.mbox = Machine.upd a.mbox i f)
    (hf : ∀ x, (f x).win = x.win) : HostOn a b := HostOn.upd hb fun h => by rw [hf]; exact h

end Sys2Proof.Laws
end

