-- ==== Sys2Proof/Laws/Sets.lean ====
section
/-!
SUPPORT. An update of some components of State lies in `Moves` of their mask: one lemma for each set of components that a
definition of the model updates together.
-/
namespace Sys2Proof.Laws
open Sys2Proof Sys2Proof.Machine

theorem Moves.set_aon {m : Nat} {r s : State} (h : Moves m r s) (hm : 2 ||| m = m) {x1 : AonSt} (o1 : AonOn s.aon x1) :
    Moves m r { s with aon := x1 } := by
  apply h.upd <;> first | assumption | exact .same | exact .bit hm rfl | exact .refl _

theorem Moves.set_time {m : Nat} {r s : State} (h : Moves m r s) (hm : 4 ||| m = m) {x2 : TimeSt}  :
    Moves m r { s with time := x2 } := by
  apply h.upd <;> first | assumption | exact .same | exact .bit hm rfl | exact .refl _

theorem Moves.set_cairn {m : Nat} {r s : State} (h : Moves m r s) (hm : 8 ||| m = m) {x3 : CairnSt}  :
    Moves m r { s with cairn := x3 } := by
  apply h.upd <;> first | assumption | exact .same | exact .bit hm rfl | exact .refl _

theorem Moves.set_sign {m : Nat} {r s : State} (h : Moves m r s) (hm : 16 ||| m = m) {x4 : SignSt}  :
    Moves m r { s with sign := x4 } := by
  apply h.upd <;> first | assumption | exact .same | exact .bit hm rfl | exact .refl _

theorem Moves.set_guy {m : Nat} {r s : State} (h : Moves m r s) (hm : 32 ||| m = m) {x5 : GuySt}  :
    Moves m r { s with guy := x5 } := by
  apply h.upd <;> first | assumption | exact .same | exact .bit hm rfl | exact .refl _

theorem Moves.set_mile {m : Nat} {r s : State} (h : Moves m r s) (hm : 64 ||| m = m) {x6 : MileSt}  :
    Moves m r { s with mile := x6 } := by
  apply h.upd <;> first | assumption | exact .same | exact .bit hm rfl | exact .refl _

theorem Moves.set_tdc {m : Nat} {r s : State} (h : Moves m r s) (hm : 128 ||| m = m) {x7 : TdcSt}  :
    Moves m r { s with tdc := x7 } := by
  apply h.upd <;> first | assumption | exact .same | exact .bit hm rfl | exact .refl _

theorem Moves.set_gnss {m : Nat} {r s : State} (h : Moves m r s) (hm : 256 ||| m = m) {x8 : GnssSt}  :
    Moves m r { s with gnss := x8 } := by
  apply h.upd <;> first | assumption | exact .same | exact .bit hm rfl | exact .refl _

theorem Moves.set_port {m : Nat} {r s : State} (h : Moves m r s) (hm : 512 ||| m = m) {x9 : PortBlk}  :
    Moves m r { s with port := x9 } := by
  apply h.upd <;> first | assumption | exact .same | exact .bit hm rfl | exact .refl _

theorem Moves.set_wayp {m : Nat} {r s : State} (h : Moves m r s) (hm : 1024 ||| m = m) {x10 : WaypSt}  :
    Moves m r { s with wayp := x10 } := by
  apply h.upd <;> first | assumption | exact .same | exact .bit hm rfl | exact .refl _

theorem Moves.set_serv {m : Nat} {r s : State} (h : Moves m r s) (hm : 2048 ||| m = m) {x11 : ServSt} (o11 : ServOn s.serv x11) :
    Moves m r { s with serv := x11 } := by
  apply h.upd <;> first | assumption | exact .same | exact .bit hm rfl | exact .refl _

theorem Moves.set_ptp {m : Nat} {r s : State} (h : Moves m r s) (hm : 4096 ||| m = m) {x12 : PtpSt} (o12 : PtpOn s.ptp x12) :
    Moves m r { s with ptp := x12 } := by
  apply h.upd <;> first | assumption | exact .same | exact .bit hm rfl | exact .refl _

theorem Moves.set_foot {m : Nat} {r s : State} (h : Moves m r s) (hm : 8192 ||| m = m) {x13 : FootSt}  :
    Moves m r { s with foot := x13 } := by
  apply h.upd <;> first | assumption | exact .same | exact .bit hm rfl | exact .refl _

theorem Moves.set_vault {m : Nat} {r s : State} (h : Moves m r s) (hm : 16384 ||| m = m) {x14 : VaultSt} (o14 : VaultOn s.vault x14) :
    Moves m r { s with vault := x14 } := by
  apply h.upd <;> first | assumption | exact .same | exact .bit hm rfl | exact .refl _

theorem Moves.set_flash {m : Nat} {r s : State} (h : Moves m r s) (hm : 32768 ||| m = m) {x15 : FlashSt} (o15 : FlashOn s.flash x15) :
    Moves m r { s with flash := x15 } := by
  apply h.upd <;> first | assumption | exact .same | exact .bit hm rfl | exact .refl _

theorem Moves.set_host {m : Nat} {r s : State} (h : Moves m r s) (hm : 65536 ||| m = m) {x16 : HostSt} (o16 : HostOn s.host x16) :
    Moves m r { s with host := x16 } := by
  apply h.upd <;> first | assumption | exact .same | exact .bit hm rfl | exact .refl _

theorem Moves.set_slots {m : Nat} {r s : State} (h : Moves m r s) (hm : 131072 ||| m = m) {x17 : SlotsSt}  :
    Moves m r { s with slots := x17 } := by
  apply h.upd <;> first | assumption | exact .same | exact .bit hm rfl | exact .refl _

theorem Moves.set_regs {m : Nat} {r s : State} (h : Moves m r s) (hm : 262144 ||| m = m) {x18 : RegsSt} (o18 : RegsOn s.regs x18) :
    Moves m r { s with regs := x18 } := by
  apply h.upd <;> first | assumption | exact .same | exact .bit hm rfl | exact .refl _

theorem Moves.set_icu {m : Nat} {r s : State} (h : Moves m r s) (hm : 524288 ||| m = m) {x19 : IcuSt}  :
    Moves m r { s with icu := x19 } := by
  apply h.upd <;> first | assumption | exact .same | exact .bit hm rfl | exact .refl _

theorem Moves.set_trail {m : Nat} {r s : State} (h : Moves m r s) (hm : 1048576 ||| m = m) {x20 : TrailSt}  :
    Moves m r { s with trail := x20 } := by
  apply h.upd <;> first | assumption | exact .same | exact .bit hm rfl | exact .refl _

theorem Moves.set_fault {m : Nat} {r s : State} (h : Moves m r s) (hm : 2097152 ||| m = m) {x21 : FaultSt} (o21 : FaultOn s.fault x21) :
    Moves m r { s with fault := x21 } := by
  apply h.upd <;> first | assumption | exact .same | exact .bit hm rfl | exact .refl _

theorem Moves.set_perf {m : Nat} {r s : State} (h : Moves m r s) (hm : 4194304 ||| m = m) {x22 : PerfSt} (o22 : PerfOn s.perf x22) :
    Moves m r { s with perf := x22 } := by
  apply h.upd <;> first | assumption | exact .same | exact .bit hm rfl | exact .refl _

theorem Moves.set_pert {m : Nat} {r s : State} (h : Moves m r s) (hm : 8388608 ||| m = m) {x23 : PertSt}  :
    Moves m r { s with pert := x23 } := by
  apply h.upd <;> first | assumption | exact .same | exact .bit hm rfl | exact .refl _

theorem Moves.set_sys {m : Nat} {r s : State} (h : Moves m r s) (hm : 16777216 ||| m = m) {x24 : SysSt} (c25 : Chg m 25 (sysWord s.sys) (sysWord x24)) :
    Moves m r { s with sys := x24 } := by
  apply h.upd <;> first | assumption | exact .same | exact .bit hm rfl | exact .refl _

theorem Moves.set_aon_vault {m : Nat} {r s : State} (h : Moves m r s) (hm : 16386 ||| m = m) {x1 : AonSt} {x14 : VaultSt} (o1 : AonOn s.aon x1) (o14 : VaultOn s.vault x14) :
    Moves m r { s with aon := x1, vault := x14 } := by
  apply h.upd <;> first | assumption | exact .same | exact .bit hm rfl | exact .refl _

theorem Moves.set_aon_host {m : Nat} {r s : State} (h : Moves m r s) (hm : 65538 ||| m = m) {x1 : AonSt} {x16 : HostSt} (o1 : AonOn s.aon x1) (o16 : HostOn s.host x16) :
    Moves m r { s with aon := x1, host := x16 } := by
  apply h.upd <;> first | assumption | exact .same | exact .bit hm rfl | exact .refl _

theorem Moves.set_aon_trail {m : Nat} {r s : State} (h : Moves m r s) (hm : 1048578 ||| m = m) {x1 : AonSt} {x20 : TrailSt} (o1 : AonOn s.aon x1) :
    Moves m r { s with aon := x1, trail := x20 } := by
  apply h.upd <;> first | assumption | exact .same | exact .bit hm rfl | exact .refl _

theorem Moves.set_time_cairn {m : Nat} {r s : State} (h : Moves m r s) (hm : 12 ||| m = m) {x2 : TimeSt} {x3 : CairnSt}  :
    Moves m r { s with time := x2, cairn := x3 } := by
  apply h.upd <;> first | assumption | exact .same | exact .bit hm rfl | exact .refl _

theorem Moves.set_time_sign {m : Nat} {r s : State} (h : Moves m r s) (hm : 20 ||| m = m) {x2 : TimeSt} {x4 : SignSt}  :
    Moves m r { s with time := x2, sign := x4 } := by
  apply h.upd <;> first | assumption | exact .same | exact .bit hm rfl | exact .refl _

theorem Moves.set_time_mile {m : Nat} {r s : State} (h : Moves m r s) (hm : 68 ||| m = m) {x2 : TimeSt} {x6 : MileSt}  :
    Moves m r { s with time := x2, mile := x6 } := by
  apply h.upd <;> first | assumption | exact .same | exact .bit hm rfl | exact .refl _

theorem Moves.set_cairn_flash {m : Nat} {r s : State} (h : Moves m r s) (hm : 32776 ||| m = m) {x3 : CairnSt} {x15 : FlashSt} (o15 : FlashOn s.flash x15) :
    Moves m r { s with cairn := x3, flash := x15 } := by
  apply h.upd <;> first | assumption | exact .same | exact .bit hm rfl | exact .refl _

theorem Moves.set_cairn_host {m : Nat} {r s : State} (h : Moves m r s) (hm : 65544 ||| m = m) {x3 : CairnSt} {x16 : HostSt} (o16 : HostOn s.host x16) :
    Moves m r { s with cairn := x3, host := x16 } := by
  apply h.upd <;> first | assumption | exact .same | exact .bit hm rfl | exact .refl _

theorem Moves.set_sign_gnss {m : Nat} {r s : State} (h : Moves m r s) (hm : 272 ||| m = m) {x4 : SignSt} {x8 : GnssSt}  :
    Moves m r { s with sign := x4, gnss := x8 } := by
  apply h.upd <;> first | assumption | exact .same | exact .bit hm rfl | exact .refl _

theorem Moves.set_sign_sys {m : Nat} {r s : State} (h : Moves m r s) (hm : 16777232 ||| m = m) {x4 : SignSt} {x24 : SysSt} (c25 : Chg m 25 (sysWord s.sys) (sysWord x24)) :
    Moves m r { s with sign := x4, sys := x24 } := by
  apply h.upd <;> first | assumption | exact .same | exact .bit hm rfl | exact .refl _

theorem Moves.set_guy_sys {m : Nat} {r s : State} (h : Moves m r s) (hm : 16777248 ||| m = m) {x5 : GuySt} {x24 : SysSt} (c25 : Chg m 25 (sysWord s.sys) (sysWord x24)) :
    Moves m r { s with guy := x5, sys := x24 } := by
  apply h.upd <;> first | assumption | exact .same | exact .bit hm rfl | exact .refl _

theorem Moves.set_mile_tdc {m : Nat} {r s : State} (h : Moves m r s) (hm : 192 ||| m = m) {x6 : MileSt} {x7 : TdcSt}  :
    Moves m r { s with mile := x6, tdc := x7 } := by
  apply h.upd <;> first | assumption | exact .same | exact .bit hm rfl | exact .refl _

theorem Moves.set_serv_ptp {m : Nat} {r s : State} (h : Moves m r s) (hm : 6144 ||| m = m) {x11 : ServSt} {x12 : PtpSt} (o11 : ServOn s.serv x11) (o12 : PtpOn s.ptp x12) :
    Moves m r { s with serv := x11, ptp := x12 } := by
  apply h.upd <;> first | assumption | exact .same | exact .bit hm rfl | exact .refl _

theorem Moves.set_vault_flash {m : Nat} {r s : State} (h : Moves m r s) (hm : 49152 ||| m = m) {x14 : VaultSt} {x15 : FlashSt} (o14 : VaultOn s.vault x14) (o15 : FlashOn s.flash x15) :
    Moves m r { s with vault := x14, flash := x15 } := by
  apply h.upd <;> first | assumption | exact .same | exact .bit hm rfl | exact .refl _

theorem Moves.set_host_slots {m : Nat} {r s : State} (h : Moves m r s) (hm : 196608 ||| m = m) {x16 : HostSt} {x17 : SlotsSt} (o16 : HostOn s.host x16) :
    Moves m r { s with host := x16, slots := x17 } := by
  apply h.upd <;> first | assumption | exact .same | exact .bit hm rfl | exact .refl _

theorem Moves.set_host_icu {m : Nat} {r s : State} (h : Moves m r s) (hm : 589824 ||| m = m) {x16 : HostSt} {x19 : IcuSt} (o16 : HostOn s.host x16) :
    Moves m r { s with host := x16, icu := x19 } := by
  apply h.upd <;> first | assumption | exact .same | exact .bit hm rfl | exact .refl _

theorem Moves.set_regs_trail {m : Nat} {r s : State} (h : Moves m r s) (hm : 1310720 ||| m = m) {x18 : RegsSt} {x20 : TrailSt} (o18 : RegsOn s.regs x18) :
    Moves m r { s with regs := x18, trail := x20 } := by
  apply h.upd <;> first | assumption | exact .same | exact .bit hm rfl | exact .refl _

theorem Moves.set_regs_perf {m : Nat} {r s : State} (h : Moves m r s) (hm : 4456448 ||| m = m) {x18 : RegsSt} {x22 : PerfSt} (o18 : RegsOn s.regs x18) (o22 : PerfOn s.perf x22) :
    Moves m r { s with regs := x18, perf := x22 } := by
  apply h.upd <;> first | assumption | exact .same | exact .bit hm rfl | exact .refl _

theorem Moves.set_regs_sys {m : Nat} {r s : State} (h : Moves m r s) (hm : 17039360 ||| m = m) {x18 : RegsSt} {x24 : SysSt} (o18 : RegsOn s.regs x18) (c25 : Chg m 25 (sysWord s.sys) (sysWord x24)) :
    Moves m r { s with regs := x18, sys := x24 } := by
  apply h.upd <;> first | assumption | exact .same | exact .bit hm rfl | exact .refl _

theorem Moves.set_trail_sys {m : Nat} {r s : State} (h : Moves m r s) (hm : 17825792 ||| m = m) {x20 : TrailSt} {x24 : SysSt} (c25 : Chg m 25 (sysWord s.sys) (sysWord x24)) :
    Moves m r { s with trail := x20, sys := x24 } := by
  apply h.upd <;> first | assumption | exact .same | exact .bit hm rfl | exact .refl _

theorem Moves.set_aon_foot_sys {m : Nat} {r s : State} (h : Moves m r s) (hm : 16785410 ||| m = m) {x1 : AonSt} {x13 : FootSt} {x24 : SysSt} (o1 : AonOn s.aon x1) (c25 : Chg m 25 (sysWord s.sys) (sysWord x24)) :
    Moves m r { s with aon := x1, foot := x13, sys := x24 } := by
  apply h.upd <;> first | assumption | exact .same | exact .bit hm rfl | exact .refl _

theorem Moves.set_time_sign_guy {m : Nat} {r s : State} (h : Moves m r s) (hm : 52 ||| m = m) {x2 : TimeSt} {x4 : SignSt} {x5 : GuySt}  :
    Moves m r { s with time := x2, sign := x4, guy := x5 } := by
  apply h.upd <;> first | assumption | exact .same | exact .bit hm rfl | exact .refl _

theorem Moves.set_foot_vault_host {m : Nat} {r s : State} (h : Moves m r s) (hm : 90112 ||| m = m) {x13 : FootSt} {x14 : VaultSt} {x16 : HostSt} (o14 : VaultOn s.vault x14) (o16 : HostOn s.host x16) :
    Moves m r { s with foot := x13, vault := x14, host := x16 } := by
  apply h.upd <;> first | assumption | exact .same | exact .bit hm rfl | exact .refl _

theorem Moves.set_aon_guy_vault_sys {m : Nat} {r s : State} (h : Moves m r s) (hm : 16793634 ||| m = m) {x1 : AonSt} {x5 : GuySt} {x14 : VaultSt} {x24 : SysSt} (o1 : AonOn s.aon x1) (o14 : VaultOn s.vault x14) (c25 : Chg m 25 (sysWord s.sys) (sysWord x24)) :
    Moves m r { s with aon := x1, guy := x5, vault := x14, sys := x24 } := by
  apply h.upd <;> first | assumption | exact .same | exact .bit hm rfl | exact .refl _

theorem Moves.set_aon_foot_vault_sys {m : Nat} {r s : State} (h : Moves m r s) (hm : 16801794 ||| m = m) {x1 : AonSt} {x13 : FootSt} {x14 : VaultSt} {x24 : SysSt} (o1 : AonOn s.aon x1) (o14 : VaultOn s.vault x14) (c25 : Chg m 25 (sysWord s.sys) (sysWord x24)) :
    Moves m r { s with aon := x1, foot := x13, vault := x14, sys := x24 } := by
  apply h.upd <;> first | assumption | exact .same | exact .bit hm rfl | exact .refl _

theorem Moves.set_time_cairn_sign_gnss {m : Nat} {r s : State} (h : Moves m r s) (hm : 284 ||| m = m) {x2 : TimeSt} {x3 : CairnSt} {x4 : SignSt} {x8 : GnssSt}  :
    Moves m r { s with time := x2, cairn := x3, sign := x4, gnss := x8 } := by
  apply h.upd <;> first | assumption | exact .same | exact .bit hm rfl | exact .refl _

theorem Moves.set_aon_regs_trail_fault_sys {m : Nat} {r s : State} (h : Moves m r s) (hm : 20185090 ||| m = m) {x1 : AonSt} {x18 : RegsSt} {x20 : TrailSt} {x21 : FaultSt} {x24 : SysSt} (o1 : AonOn s.aon x1) (o18 : RegsOn s.regs x18) (o21 : FaultOn s.fault x21) (c25 : Chg m 25 (sysWord s.sys) (sysWord x24)) :
    Moves m r { s with aon := x1, regs := x18, trail := x20, fault := x21, sys := x24 } := by
  apply h.upd <;> first | assumption | exact .same | exact .bit hm rfl | exact .refl _

theorem Moves.set_aon_foot_vault_host_slots_regs_trail_fault_sys {m : Nat} {r s : State} (h : Moves m r s) (hm : 20406274 ||| m = m) {x1 : AonSt} {x13 : FootSt} {x14 : VaultSt} {x16 : HostSt} {x17 : SlotsSt} {x18 : RegsSt} {x20 : TrailSt} {x21 : FaultSt} {x24 : SysSt} (o1 : AonOn s.aon x1) (o14 : VaultOn s.vault x14) (o16 : HostOn s.host x16) (o18 : RegsOn s.regs x18) (o21 : FaultOn s.fault x21) (c25 : Chg m 25 (sysWord s.sys) (sysWord x24)) :
    Moves m r { s with aon := x1, foot := x13, vault := x14, host := x16, slots := x17, regs := x18, trail := x20, fault := x21, sys := x24 } := by
  apply h.upd <;> first | assumption | exact .same | exact .bit hm rfl | exact .refl _

theorem Moves.set_time_cairn_sign_guy_mile_tdc_wayp_foot_regs_sys {m : Nat} {r s : State} (h : Moves m r s) (hm : 17048828 ||| m = m) {x2 : TimeSt} {x3 : CairnSt} {x4 : SignSt} {x5 : GuySt} {x6 : MileSt} {x7 : TdcSt} {x10 : WaypSt} {x13 : FootSt} {x18 : RegsSt} {x24 : SysSt} (o18 : RegsOn s.regs x18) (c25 : Chg m 25 (sysWord s.sys) (sysWord x24)) :
    Moves m r { s with time := x2, cairn := x3, sign := x4, guy := x5, mile := x6, tdc := x7, wayp := x10, foot := x13, regs := x18, sys := x24 } := by
  apply h.upd <;> first | assumption | exact .same | exact .bit hm rfl | exact .refl _

end Sys2Proof.Laws
end

