-- ==== Sys2Proof/Laws/MovesOps.lean ====
section
/-!
SUPPORT. What each function of Machine/Ops, Clock may change, as `Moves`.
-/
namespace Sys2Proof.Laws
open Sys2Proof Sys2Proof.Machine

theorem sticky_moves {m : Nat} {r s : State} (hm : 262144 ||| m = m) (h : Moves m r s) (x0 : _) (x1 : _)  :
    Moves m r (Sys2Proof.Machine.sticky x0 x1 s) := by
  unfold Sys2Proof.Machine.sticky
  repeat' first
    | with_reducible assumption
    | with_reducible refine stickyField_after _ _ _ _ _ _ ?_
    | with_reducible refine stickyRegs_after _ _ _ ?_
    | with_reducible exact RegsOn.refl _
    | exact stickyRegs_on _ _ _
    | with_reducible exact RegsOn.same rfl
    | with_reducible refine Moves.ite ?_ ?_
    | with_reducible refine Moves.dite ?_ ?_
    | with_reducible refine Moves.ite_snd ?_ ?_
    | with_reducible refine Moves.foldl ?_ _ ?_
    | with_reducible refine Moves.foldl_snd ?_ _ ?_
    | with_reducible refine Moves.elim _ ?_ ?_
    | with_reducible intro _
    | with_reducible refine Moves.set_regs ?_ ?_ ?_

theorem icuEval_moves {m : Nat} {r s : State} (hm : 589824 ||| m = m) (h : Moves m r s)   :
    Moves m r (Sys2Proof.Machine.icuEval s) := by
  unfold Sys2Proof.Machine.icuEval
  repeat' first
    | with_reducible assumption
    | exact foldEval_on _ _ _ (s.icu, s.host)
    | with_reducible exact HostOn.same rfl
    | with_reducible refine Moves.ite ?_ ?_
    | with_reducible refine Moves.dite ?_ ?_
    | with_reducible refine Moves.ite_snd ?_ ?_
    | with_reducible refine Moves.foldl ?_ _ ?_
    | with_reducible refine Moves.foldl_snd ?_ _ ?_
    | with_reducible refine Moves.elim _ ?_ ?_
    | with_reducible intro _
    | with_reducible refine Moves.set_host_icu ?_ ?_ ?_

theorem raise_moves {m : Nat} {r s : State} (hm : 589824 ||| m = m) (h : Moves m r s) (x0 : _)  :
    Moves m r (Sys2Proof.Machine.raise x0 s) := by
  unfold Sys2Proof.Machine.raise
  repeat' first
    | with_reducible assumption
    | (with_reducible refine mask_sub hm ?_); exact rfl
    | with_reducible refine icuEval_moves ?_ ?_ 
    | with_reducible refine Moves.ite ?_ ?_
    | with_reducible refine Moves.dite ?_ ?_
    | with_reducible refine Moves.ite_snd ?_ ?_
    | with_reducible refine Moves.foldl ?_ _ ?_
    | with_reducible refine Moves.foldl_snd ?_ _ ?_
    | with_reducible refine Moves.elim _ ?_ ?_
    | with_reducible intro _
    | with_reducible refine Moves.set_icu ?_ ?_

theorem countN_moves {m : Nat} {r s : State} (hm : 4194304 ||| m = m) (h : Moves m r s) (x0 : _) (x1 : _) (x2 : _)  :
    Moves m r (Sys2Proof.Machine.countN x0 x1 x2 s) := by
  unfold Sys2Proof.Machine.countN
  repeat' first
    | with_reducible assumption
    | exact fun e => cntAdd_on _ _ _ (cntAdd_on _ _ _ e)
    | exact fun e => cntAdd_on _ _ _ e
    | with_reducible exact PerfOn.same rfl
    | with_reducible refine Moves.ite ?_ ?_
    | with_reducible refine Moves.dite ?_ ?_
    | with_reducible refine Moves.ite_snd ?_ ?_
    | with_reducible refine Moves.foldl ?_ _ ?_
    | with_reducible refine Moves.foldl_snd ?_ _ ?_
    | with_reducible refine Moves.elim _ ?_ ?_
    | with_reducible intro _
    | with_reducible refine Moves.set_perf ?_ ?_ ?_
    | split

theorem raiseFor_moves {m : Nat} {r s : State} (hm : 589824 ||| m = m) (h : Moves m r s) (x0 : _) (x1 : _)  :
    Moves m r (Sys2Proof.Machine.raiseFor x0 x1 s) := by
  unfold Sys2Proof.Machine.raiseFor
  repeat' first
    | with_reducible assumption
    | (with_reducible refine mask_sub hm ?_); exact rfl
    | with_reducible refine icuEval_moves ?_ ?_ 
    | with_reducible refine Moves.ite ?_ ?_
    | with_reducible refine Moves.dite ?_ ?_
    | with_reducible refine Moves.ite_snd ?_ ?_
    | with_reducible refine Moves.foldl ?_ _ ?_
    | with_reducible refine Moves.foldl_snd ?_ _ ?_
    | with_reducible refine Moves.elim _ ?_ ?_
    | with_reducible intro _
    | with_reducible refine Moves.set_icu ?_ ?_

theorem raiseTo_moves {m : Nat} {r s : State} (hm : 589824 ||| m = m) (h : Moves m r s) (x0 : _) (x1 : _)  :
    Moves m r (Sys2Proof.Machine.raiseTo x0 x1 s) := by
  unfold Sys2Proof.Machine.raiseTo
  repeat' first
    | with_reducible assumption
    | with_reducible refine raiseFor_moves ?_ ?_ _ _

theorem stickyAt_moves {m : Nat} {r s : State} (hm : 262144 ||| m = m) (h : Moves m r s) (x0 : _) (x1 : _) (x2 : _)  :
    Moves m r (Sys2Proof.Machine.stickyAt x0 x1 x2 s) := by
  unfold Sys2Proof.Machine.stickyAt
  repeat' first
    | with_reducible assumption
    | with_reducible refine stickyField_after _ _ _ _ _ _ ?_
    | with_reducible refine stickyRegs_after _ _ _ ?_
    | with_reducible exact RegsOn.refl _
    | exact stickyIn_on _ _ _ _
    | with_reducible exact RegsOn.same rfl
    | with_reducible refine Moves.ite ?_ ?_
    | with_reducible refine Moves.dite ?_ ?_
    | with_reducible refine Moves.ite_snd ?_ ?_
    | with_reducible refine Moves.foldl ?_ _ ?_
    | with_reducible refine Moves.foldl_snd ?_ _ ?_
    | with_reducible refine Moves.elim _ ?_ ?_
    | with_reducible intro _
    | with_reducible refine Moves.set_regs ?_ ?_ ?_

theorem trail_moves {m : Nat} {r s : State} (hm : 1310720 ||| m = m) (h : Moves m r s) (x0 : _) (x1 : _)  :
    Moves m r (Sys2Proof.Machine.trail x0 x1 s) := by
  unfold Sys2Proof.Machine.trail
  repeat' first
    | with_reducible assumption
    | with_reducible refine stickyField_after _ _ _ _ _ _ ?_
    | with_reducible refine stickyRegs_after _ _ _ ?_
    | with_reducible exact RegsOn.refl _
    | exact stickyField_on _ _ _ _ _ _
    | with_reducible exact RegsOn.same rfl
    | with_reducible refine Moves.ite ?_ ?_
    | with_reducible refine Moves.dite ?_ ?_
    | with_reducible refine Moves.ite_snd ?_ ?_
    | with_reducible refine Moves.foldl ?_ _ ?_
    | with_reducible refine Moves.foldl_snd ?_ _ ?_
    | with_reducible refine Moves.elim _ ?_ ?_
    | with_reducible intro _
    | with_reducible refine Moves.set_regs_trail ?_ ?_ ?_
    | split

/-- One slot's mailbox is replaced. -/
theorem mbox_moves {m : Nat} {r s : State} (hm : 589824 ||| m = m) (h : Moves m r s) (x0 : Fin 8) (m' : MboxSlot) (hw : mwf 0#8 s.host.mbox[x0].win = true → mwf 0#8 m'.win = true) :
      Moves m r { s with host := { s.host with mbox := s.host.mbox.set x0.1 m' } } := by
    refine Moves.upd h .same .same .same .same .same .same .same .same .same .same .same .same .same .same .same
      (.bit hm rfl) .same .same .same .same .same .same .same .same .same (.refl _) (.refl _) (.refl _) (.set rfl hw) (.refl _) (.refl _)
      (.refl _) (.refl _) (.refl _)
/-- One slot's mailbox is changed outside its ring window. -/
theorem mboxUpd_moves {m : Nat} {r s : State} (hm : 65536 ||| m = m) (h : Moves m r s) (i : Fin 8) (f : MboxSlot → MboxSlot)
    (hf : ∀ x, (f x).win = x.win) : Moves m r { s with host := { s.host with mbox := upd s.host.mbox i f } } := by
  refine Moves.upd h .same .same .same .same .same .same .same .same .same .same .same .same .same .same .same
    (.bit hm rfl) .same .same .same .same .same .same .same .same .same (.refl _) (.refl _) (.refl _) (mbox_upd_on (i := i) (f := f) rfl hf)
    (.refl _) (.refl _) (.refl _) (.refl _) (.refl _)

theorem deliver_moves {m : Nat} {r s : State} (hm : 589824 ||| m = m) (h : Moves m r s) (x0 : Fin 8) (x1 : Msg)  :
    Moves m r (Sys2Proof.Machine.deliver x0 x1 s) := by
  unfold Sys2Proof.Machine.deliver
  have hp := mbox_moves hm h x0
  refine Moves.ite (hp _ (by exact id)) ?_
  split
  · rename_i m' e
    refine raiseTo_moves (mask_sub hm rfl) (hp _ fun hw => ?_) _ _
    rw [modCount_win]
    split at e
    · exact ringPut_win _ _ _ _ hw _ e
    · cases e
  · refine Moves.ite (hp _ (by exact id)) (raiseTo_moves (mask_sub hm rfl) (hp _ (by exact id)) _ _)

theorem complete_moves {m : Nat} {r s : State} (hm : 589824 ||| m = m) (h : Moves m r s) (x0 : _) (x1 : _) (x2 : _) (x3 : _)  :
    Moves m r (Sys2Proof.Machine.complete x0 x1 x2 x3 s) := by
  unfold Sys2Proof.Machine.complete
  exact deliver_moves (mask_sub hm rfl) (mboxUpd_moves (mask_sub hm rfl) h x0.slot _ (by intro _; rfl)) _ _

theorem stickyFirst_moves {m : Nat} {r s : State} (hm : 262144 ||| m = m) (h : Moves m r s) (x0 : _) (x1 : _) (x2 : _) (x3 : _)  :
    Moves m r (Sys2Proof.Machine.stickyFirst x0 x1 x2 x3 s) := by
  unfold Sys2Proof.Machine.stickyFirst
  repeat' first
    | with_reducible assumption
    | with_reducible refine stickyField_after _ _ _ _ _ _ ?_
    | with_reducible refine stickyRegs_after _ _ _ ?_
    | with_reducible exact RegsOn.refl _
    | exact RegsOn.foldl (fun g c => RegsOn.ite (stickyField_on _ _ _ _ _ _) (RegsOn.refl _)) _ _
    | with_reducible exact RegsOn.same rfl
    | with_reducible refine Moves.ite ?_ ?_
    | with_reducible refine Moves.dite ?_ ?_
    | with_reducible refine Moves.ite_snd ?_ ?_
    | with_reducible refine Moves.foldl ?_ _ ?_
    | with_reducible refine Moves.foldl_snd ?_ _ ?_
    | with_reducible refine Moves.elim _ ?_ ?_
    | with_reducible intro _
    | with_reducible refine Moves.set_regs ?_ ?_ ?_

theorem raiseOwn_moves {m : Nat} {r s : State} (hm : 589824 ||| m = m) (h : Moves m r s) (x0 : _) (x1 : _)  :
    Moves m r (Sys2Proof.Machine.raiseOwn x0 x1 s) := by
  unfold Sys2Proof.Machine.raiseOwn
  repeat' first
    | with_reducible assumption
    | with_reducible refine raiseFor_moves ?_ ?_ _ _

theorem deny_moves {m : Nat} {r s : State} (hm : 2031616 ||| m = m) (h : Moves m r s) (x0 : _) (x1 : _) (x2 : _)  :
    Moves m r (Sys2Proof.Machine.deny x0 x1 x2 s) := by
  unfold Sys2Proof.Machine.deny
  repeat' first
    | with_reducible assumption
    | (with_reducible refine mask_sub hm ?_); exact rfl
    | with_reducible refine trail_moves ?_ ?_ _ _
    | with_reducible refine raiseOwn_moves ?_ ?_ _ _
    | with_reducible refine Moves.ite ?_ ?_
    | with_reducible refine Moves.dite ?_ ?_
    | with_reducible refine Moves.ite_snd ?_ ?_
    | with_reducible refine Moves.foldl ?_ _ ?_
    | with_reducible refine Moves.foldl_snd ?_ _ ?_
    | with_reducible refine Moves.elim _ ?_ ?_
    | with_reducible intro _
    | with_reducible refine Moves.set_slots ?_ ?_

theorem draw_moves {m : Nat} {r s : State} (hm : 16384 ||| m = m) (h : Moves m r s)   :
    Moves m r (Sys2Proof.Machine.draw s).2 := by
  unfold Sys2Proof.Machine.draw
  repeat' first
    | with_reducible assumption
    | with_reducible exact VaultOn.same rfl rfl
    | with_reducible refine Moves.ite ?_ ?_
    | with_reducible refine Moves.dite ?_ ?_
    | with_reducible refine Moves.ite_snd ?_ ?_
    | with_reducible refine Moves.foldl ?_ _ ?_
    | with_reducible refine Moves.foldl_snd ?_ _ ?_
    | with_reducible refine Moves.elim _ ?_ ?_
    | with_reducible intro _
    | with_reducible refine Moves.set_vault ?_ ?_ ?_

theorem count_moves {m : Nat} {r s : State} (hm : 4194304 ||| m = m) (h : Moves m r s) (x0 : _) (x1 : _)  :
    Moves m r (Sys2Proof.Machine.count x0 x1 s) := by
  unfold Sys2Proof.Machine.count
  repeat' first
    | with_reducible assumption
    | with_reducible refine countN_moves ?_ ?_ _ _ _

theorem servCount_moves {m : Nat} {r s : State} (hm : 4194304 ||| m = m) (h : Moves m r s) (x0 : _) (x1 : _) (x2 : _) (x3 : _) (x4 : _)  :
    Moves m r (Sys2Proof.Machine.servCount x0 x1 x2 x3 x4 s) := by
  unfold Sys2Proof.Machine.servCount
  refine Moves.foldl (fun s a hs => ?_) _ (countN_moves (mask_sub hm rfl) h _ _ _)
  split
  · exact Moves.ite (countN_moves (mask_sub hm rfl) hs _ _ _) hs
  · exact hs

theorem stickyMax_moves {m : Nat} {r s : State} (hm : 262144 ||| m = m) (h : Moves m r s) (x0 : _) (x1 : _) (x2 : _) (x3 : _)  :
    Moves m r (Sys2Proof.Machine.stickyMax x0 x1 x2 x3 s) := by
  unfold Sys2Proof.Machine.stickyMax
  repeat' first
    | with_reducible assumption
    | with_reducible refine stickyField_after _ _ _ _ _ _ ?_
    | with_reducible refine stickyRegs_after _ _ _ ?_
    | with_reducible exact RegsOn.refl _
    | exact RegsOn.foldl (fun g c => RegsOn.ite (stickyField_on _ _ _ _ _ _) (RegsOn.refl _)) _ _
    | with_reducible exact RegsOn.same rfl
    | with_reducible refine Moves.ite ?_ ?_
    | with_reducible refine Moves.dite ?_ ?_
    | with_reducible refine Moves.ite_snd ?_ ?_
    | with_reducible refine Moves.foldl ?_ _ ?_
    | with_reducible refine Moves.foldl_snd ?_ _ ?_
    | with_reducible refine Moves.elim _ ?_ ?_
    | with_reducible intro _
    | with_reducible refine Moves.set_regs ?_ ?_ ?_

theorem atTick_moves {m : Nat} {r s : State} (hm : 4 ||| m = m) (h : Moves m r s) (x0 : _)  :
    Moves m r (Sys2Proof.Machine.atTick x0 s) := by
  unfold Sys2Proof.Machine.atTick
  repeat' first
    | with_reducible assumption
    | with_reducible refine Moves.ite ?_ ?_
    | with_reducible refine Moves.dite ?_ ?_
    | with_reducible refine Moves.ite_snd ?_ ?_
    | with_reducible refine Moves.foldl ?_ _ ?_
    | with_reducible refine Moves.foldl_snd ?_ _ ?_
    | with_reducible refine Moves.elim _ ?_ ?_
    | with_reducible intro _
    | with_reducible refine Moves.set_time ?_ ?_

theorem stickyCount_moves {m : Nat} {r s : State} (hm : 262144 ||| m = m) (h : Moves m r s) (x0 : _) (x1 : _) (x2 : _) (x3 : _)  :
    Moves m r (Sys2Proof.Machine.stickyCount x0 x1 x2 x3 s) := by
  unfold Sys2Proof.Machine.stickyCount
  repeat' first
    | with_reducible assumption
    | with_reducible refine stickyField_after _ _ _ _ _ _ ?_
    | with_reducible refine stickyRegs_after _ _ _ ?_
    | with_reducible exact RegsOn.refl _
    | exact RegsOn.foldl (fun g c => stickyField_on _ _ _ _ _ _) _ _
    | with_reducible exact RegsOn.same rfl
    | with_reducible refine Moves.ite ?_ ?_
    | with_reducible refine Moves.dite ?_ ?_
    | with_reducible refine Moves.ite_snd ?_ ?_
    | with_reducible refine Moves.foldl ?_ _ ?_
    | with_reducible refine Moves.foldl_snd ?_ _ ?_
    | with_reducible refine Moves.elim _ ?_ ?_
    | with_reducible intro _
    | with_reducible refine Moves.set_regs ?_ ?_ ?_

theorem icuAgain_moves {m : Nat} {r s : State} (hm : 589824 ||| m = m) (h : Moves m r s) (x0 : _)  :
    Moves m r (Sys2Proof.Machine.icuAgain x0 s) := by
  unfold Sys2Proof.Machine.icuAgain
  repeat' first
    | with_reducible assumption
    | exact evalSlot_on _ _ _ _ (s.icu, s.host)
    | with_reducible exact HostOn.same rfl
    | with_reducible refine Moves.ite ?_ ?_
    | with_reducible refine Moves.dite ?_ ?_
    | with_reducible refine Moves.ite_snd ?_ ?_
    | with_reducible refine Moves.foldl ?_ _ ?_
    | with_reducible refine Moves.foldl_snd ?_ _ ?_
    | with_reducible refine Moves.elim _ ?_ ?_
    | with_reducible intro _
    | with_reducible refine Moves.set_host_icu ?_ ?_ ?_

theorem flushHeld_moves {m : Nat} {r s : State} (hm : 589824 ||| m = m) (h : Moves m r s) (x0 : _)  :
    Moves m r (Sys2Proof.Machine.flushHeld x0 s) := by
  unfold Sys2Proof.Machine.flushHeld
  repeat' first
    | with_reducible assumption
    | (with_reducible refine mask_sub hm ?_); exact rfl
    | with_reducible refine raiseTo_moves ?_ ?_ _ _
    | exact HostOn.set rfl fun e => drainHeld_win _ _ _ _ e
    | with_reducible exact HostOn.same rfl
    | with_reducible refine Moves.ite ?_ ?_
    | with_reducible refine Moves.dite ?_ ?_
    | with_reducible refine Moves.ite_snd ?_ ?_
    | with_reducible refine Moves.foldl ?_ _ ?_
    | with_reducible refine Moves.foldl_snd ?_ _ ?_
    | with_reducible refine Moves.elim _ ?_ ?_
    | with_reducible intro _
    | with_reducible refine Moves.set_host ?_ ?_ ?_

theorem atCk_moves {m : Nat} {r s : State} (hm : 8192 ||| m = m) (h : Moves m r s) (x0 : _)  :
    Moves m r (Sys2Proof.Machine.atCk x0 s) := by
  unfold Sys2Proof.Machine.atCk
  repeat' first
    | with_reducible assumption
    | with_reducible refine Moves.ite ?_ ?_
    | with_reducible refine Moves.dite ?_ ?_
    | with_reducible refine Moves.ite_snd ?_ ?_
    | with_reducible refine Moves.foldl ?_ _ ?_
    | with_reducible refine Moves.foldl_snd ?_ _ ?_
    | with_reducible refine Moves.elim _ ?_ ?_
    | with_reducible intro _
    | with_reducible refine Moves.set_foot ?_ ?_

theorem atOdo_moves {m : Nat} {r s : State} (hm : 4 ||| m = m) (h : Moves m r s) (x0 : _)  :
    Moves m r (Sys2Proof.Machine.atOdo x0 s) := by
  unfold Sys2Proof.Machine.atOdo
  repeat' first
    | with_reducible assumption
    | with_reducible refine atTick_moves ?_ ?_ _
    | with_reducible refine Moves.ite ?_ ?_

theorem raiseAll_moves {m : Nat} {r s : State} (hm : 589824 ||| m = m) (h : Moves m r s) (x0 : _)  :
    Moves m r (Sys2Proof.Machine.raiseAll x0 s) := by
  unfold Sys2Proof.Machine.raiseAll
  repeat' first
    | with_reducible assumption
    | with_reducible refine raise_moves ?_ ?_ _
    | with_reducible refine Moves.ite ?_ ?_
    | with_reducible refine Moves.dite ?_ ?_
    | with_reducible refine Moves.ite_snd ?_ ?_
    | with_reducible refine Moves.foldl ?_ _ ?_
    | with_reducible refine Moves.foldl_snd ?_ _ ?_
    | with_reducible refine Moves.elim _ ?_ ?_
    | with_reducible intro _

theorem stickyLast_moves {m : Nat} {r s : State} (hm : 262144 ||| m = m) (h : Moves m r s) (x0 : _) (x1 : _) (x2 : _) (x3 : _)  :
    Moves m r (Sys2Proof.Machine.stickyLast x0 x1 x2 x3 s) := by
  unfold Sys2Proof.Machine.stickyLast
  repeat' first
    | with_reducible assumption
    | with_reducible refine stickyField_after _ _ _ _ _ _ ?_
    | with_reducible refine stickyRegs_after _ _ _ ?_
    | with_reducible exact RegsOn.refl _
    | exact RegsOn.foldl (fun g c => stickyField_on _ _ _ _ _ _) _ _
    | with_reducible exact RegsOn.same rfl
    | with_reducible refine Moves.ite ?_ ?_
    | with_reducible refine Moves.dite ?_ ?_
    | with_reducible refine Moves.ite_snd ?_ ?_
    | with_reducible refine Moves.foldl ?_ _ ?_
    | with_reducible refine Moves.foldl_snd ?_ _ ?_
    | with_reducible refine Moves.elim _ ?_ ?_
    | with_reducible intro _
    | with_reducible refine Moves.set_regs ?_ ?_ ?_

end Sys2Proof.Laws
end

