-- ==== Sys2Proof/Laws/MovesFlags.lean ====
section
/-!
SUPPORT. What each function of Machine/Edges, Wire, Flags may change, as `Moves`.
-/
namespace Sys2Proof.Laws
open Sys2Proof Sys2Proof.Machine

theorem waypCount_moves {m : Nat} {r s : State} (hm : 4194304 ||| m = m) (h : Moves m r s) (x0 : _) (x1 : _) (x2 : _) (x3 : _)  :
    Moves m r (Sys2Proof.Machine.waypCount x0 x1 x2 x3 s) := by
  unfold Sys2Proof.Machine.waypCount
  repeat' first
    | with_reducible assumption
    | with_reducible refine countN_moves ?_ ?_ _ _ _

theorem portCount_moves {m : Nat} {r s : State} (hm : 4194304 ||| m = m) (h : Moves m r s) (x0 : _) (x1 : _) (x2 : _) (x3 : _)  :
    Moves m r (Sys2Proof.Machine.portCount x0 x1 x2 x3 s) := by
  unfold Sys2Proof.Machine.portCount
  repeat' first
    | with_reducible assumption
    | with_reducible refine countN_moves ?_ ?_ _ _ _

theorem ctlCount_moves {m : Nat} {r s : State} (hm : 4194304 ||| m = m) (h : Moves m r s) (x0 : _) (x1 : _)  :
    Moves m r (Sys2Proof.Machine.ctlCount x0 x1 s) := by
  unfold Sys2Proof.Machine.ctlCount
  try dsimp only
  repeat' first
    | with_reducible assumption
    | with_reducible refine portCount_moves ?_ ?_ _ _ _ _
    | with_reducible refine Moves.ite ?_ ?_
    | with_reducible refine Moves.dite ?_ ?_
    | with_reducible refine Moves.ite_snd ?_ ?_
    | with_reducible refine Moves.foldl ?_ _ ?_
    | with_reducible refine Moves.foldl_snd ?_ _ ?_
    | with_reducible refine Moves.elim _ ?_ ?_
    | with_reducible intro _
    | split

theorem fenceWaited_moves {m : Nat} {r s : State} (hm : 4194304 ||| m = m) (h : Moves m r s) (x0 : _) (x1 : _) (x2 : _)  :
    Moves m r (Sys2Proof.Machine.fenceWaited x0 x1 x2 s) := by
  unfold Sys2Proof.Machine.fenceWaited
  repeat' first
    | with_reducible assumption
    | with_reducible refine waypCount_moves ?_ ?_ _ _ _ _
    | with_reducible refine Moves.ite ?_ ?_
    | with_reducible refine Moves.dite ?_ ?_
    | with_reducible refine Moves.ite_snd ?_ ?_
    | with_reducible refine Moves.foldl ?_ _ ?_
    | with_reducible refine Moves.foldl_snd ?_ _ ?_
    | with_reducible refine Moves.elim _ ?_ ?_
    | with_reducible intro _

theorem onWayp_moves {m : Nat} {r s : State} (hm : 1024 ||| m = m) (h : Moves m r s) (x0 : _) (x1 : _)  :
    Moves m r (Sys2Proof.Machine.onWayp x0 x1 s) := by
  unfold Sys2Proof.Machine.onWayp
  repeat' first
    | with_reducible assumption
    | with_reducible refine Moves.ite ?_ ?_
    | with_reducible refine Moves.dite ?_ ?_
    | with_reducible refine Moves.ite_snd ?_ ?_
    | with_reducible refine Moves.foldl ?_ _ ?_
    | with_reducible refine Moves.foldl_snd ?_ _ ?_
    | with_reducible refine Moves.elim _ ?_ ?_
    | with_reducible intro _
    | with_reducible refine Moves.set_wayp ?_ ?_

theorem tsqDiscard_moves {m : Nat} {r s : State} (hm : 5047296 ||| m = m) (h : Moves m r s) (x0 : _) (x1 : _)  :
    Moves m r (Sys2Proof.Machine.tsqDiscard x0 x1 s) := by
  unfold Sys2Proof.Machine.tsqDiscard
  repeat' first
    | with_reducible assumption
    | (with_reducible refine mask_sub hm ?_); exact rfl
    | with_reducible refine stickyAt_moves ?_ ?_ _ _ _
    | with_reducible refine raiseTo_moves ?_ ?_ _ _
    | with_reducible refine waypCount_moves ?_ ?_ _ _ _ _
    | with_reducible refine onWayp_moves ?_ ?_ _ _
    | with_reducible refine stickyField_after _ _ _ _ _ _ ?_
    | with_reducible refine stickyRegs_after _ _ _ ?_
    | with_reducible exact RegsOn.refl _
    | with_reducible exact RegsOn.same rfl
    | with_reducible refine Moves.ite ?_ ?_
    | with_reducible refine Moves.dite ?_ ?_
    | with_reducible refine Moves.ite_snd ?_ ?_
    | with_reducible refine Moves.foldl ?_ _ ?_
    | with_reducible refine Moves.foldl_snd ?_ _ ?_
    | with_reducible refine Moves.elim _ ?_ ?_
    | with_reducible intro _
    | with_reducible refine Moves.set_regs ?_ ?_ ?_
    | split

theorem tsqPut_moves {m : Nat} {r s : State} (hm : 5047296 ||| m = m) (h : Moves m r s) (x0 : _) (x1 : _)  :
    Moves m r (Sys2Proof.Machine.tsqPut x0 x1 s) := by
  unfold Sys2Proof.Machine.tsqPut
  repeat' first
    | with_reducible assumption
    | (with_reducible refine mask_sub hm ?_); exact rfl
    | with_reducible refine raiseTo_moves ?_ ?_ _ _
    | with_reducible refine onWayp_moves ?_ ?_ _ _
    | with_reducible refine waypCount_moves ?_ ?_ _ _ _ _
    | with_reducible refine tsqDiscard_moves ?_ ?_ _ _
    | with_reducible refine Moves.ite ?_ ?_

theorem tsqStart_moves {m : Nat} {r s : State} (hm : 5047296 ||| m = m) (h : Moves m r s) (x0 : _) (x1 : _)  :
    Moves m r (Sys2Proof.Machine.tsqStart x0 x1 s) := by
  unfold Sys2Proof.Machine.tsqStart
  try dsimp only
  repeat' first
    | with_reducible assumption
    | with_reducible refine tsqPut_moves ?_ ?_ _ _
    | with_reducible refine Moves.ite ?_ ?_
    | with_reducible refine Moves.dite ?_ ?_
    | with_reducible refine Moves.ite_snd ?_ ?_
    | with_reducible refine Moves.foldl ?_ _ ?_
    | with_reducible refine Moves.foldl_snd ?_ _ ?_
    | with_reducible refine Moves.elim _ ?_ ?_
    | with_reducible intro _
    | split

theorem onPort_moves {m : Nat} {r s : State} (hm : 512 ||| m = m) (h : Moves m r s) (x0 : _) (x1 : _)  :
    Moves m r (Sys2Proof.Machine.onPort x0 x1 s) := by
  unfold Sys2Proof.Machine.onPort
  repeat' first
    | with_reducible assumption
    | with_reducible refine Moves.ite ?_ ?_
    | with_reducible refine Moves.dite ?_ ?_
    | with_reducible refine Moves.ite_snd ?_ ?_
    | with_reducible refine Moves.foldl ?_ _ ?_
    | with_reducible refine Moves.foldl_snd ?_ _ ?_
    | with_reducible refine Moves.elim _ ?_ ?_
    | with_reducible intro _
    | with_reducible refine Moves.set_port ?_ ?_

theorem tryQueue_moves {m : Nat} {r s : State} (hm : 5047808 ||| m = m) (h : Moves m r s) (x0 : _) (x1 : _) (x3 : _)  :
    Moves m r (Sys2Proof.Machine.tryQueue x0 x1 s x3) := by
  unfold Sys2Proof.Machine.tryQueue
  try dsimp only
  repeat' first
    | with_reducible assumption
    | (with_reducible refine mask_sub hm ?_); exact rfl
    | with_reducible refine waypCount_moves ?_ ?_ _ _ _ _
    | with_reducible refine ctlCount_moves ?_ ?_ _ _
    | with_reducible refine fenceWaited_moves ?_ ?_ _ _ _
    | with_reducible refine tsqStart_moves ?_ ?_ _ _
    | with_reducible refine onPort_moves ?_ ?_ _ _
    | with_reducible refine Moves.ite ?_ ?_
    | with_reducible refine Moves.dite ?_ ?_
    | with_reducible refine Moves.ite_snd ?_ ?_
    | with_reducible refine Moves.foldl ?_ _ ?_
    | with_reducible refine Moves.foldl_snd ?_ _ ?_
    | with_reducible refine Moves.elim _ ?_ ?_
    | with_reducible intro _
    | split

theorem lanternPulse_moves {m : Nat} {r s : State} (hm : 16 ||| m = m) (h : Moves m r s)   :
    Moves m r (Sys2Proof.Machine.lanternPulse s) := by
  unfold Sys2Proof.Machine.lanternPulse
  repeat' first
    | with_reducible assumption
    | with_reducible refine Moves.ite ?_ ?_
    | with_reducible refine Moves.dite ?_ ?_
    | with_reducible refine Moves.ite_snd ?_ ?_
    | with_reducible refine Moves.foldl ?_ _ ?_
    | with_reducible refine Moves.foldl_snd ?_ _ ?_
    | with_reducible refine Moves.elim _ ?_ ?_
    | with_reducible intro _
    | with_reducible refine Moves.set_sign ?_ ?_

theorem lanternFast_moves {m : Nat} {r s : State} (hm : 16 ||| m = m) (h : Moves m r s)   :
    Moves m r (Sys2Proof.Machine.lanternFast s) := by
  unfold Sys2Proof.Machine.lanternFast
  repeat' first
    | with_reducible assumption
    | with_reducible refine Moves.ite ?_ ?_
    | with_reducible refine Moves.dite ?_ ?_
    | with_reducible refine Moves.ite_snd ?_ ?_
    | with_reducible refine Moves.foldl ?_ _ ?_
    | with_reducible refine Moves.foldl_snd ?_ _ ?_
    | with_reducible refine Moves.elim _ ?_ ?_
    | with_reducible intro _
    | with_reducible refine Moves.set_sign ?_ ?_

theorem faultLog_moves {m : Nat} {r s : State} (hm : 18677760 ||| m = m) (h : Moves m r s) (x0 : _) (x1 : _) (x2 : _)  :
    Moves m r (Sys2Proof.Machine.faultLog x0 x1 x2 s) := by
  unfold Sys2Proof.Machine.faultLog
  repeat' first
    | with_reducible assumption
    | (with_reducible refine mask_sub hm ?_); exact rfl
    | with_reducible refine raise_moves ?_ ?_ _
    | with_reducible refine trail_moves ?_ ?_ _ _
    | with_reducible refine sticky_moves ?_ ?_ _ _
    | with_reducible exact Chg.word rfl rfl rfl rfl
    | exact Chg.bit hm rfl
    | with_reducible refine Moves.ite ?_ ?_
    | with_reducible refine Moves.dite ?_ ?_
    | with_reducible refine Moves.ite_snd ?_ ?_
    | with_reducible refine Moves.foldl ?_ _ ?_
    | with_reducible refine Moves.foldl_snd ?_ _ ?_
    | with_reducible refine Moves.elim _ ?_ ?_
    | with_reducible intro _
    | with_reducible refine Moves.set_sys ?_ ?_ ?_

theorem setOe_moves {m : Nat} {r s : State} (hm : 589888 ||| m = m) (h : Moves m r s) (x0 : _)  :
    Moves m r (Sys2Proof.Machine.setOe x0 s) := by
  unfold Sys2Proof.Machine.setOe
  repeat' first
    | with_reducible assumption
    | (with_reducible refine mask_sub hm ?_); exact rfl
    | with_reducible refine raise_moves ?_ ?_ _
    | with_reducible refine Moves.ite ?_ ?_
    | with_reducible refine Moves.dite ?_ ?_
    | with_reducible refine Moves.ite_snd ?_ ?_
    | with_reducible refine Moves.foldl ?_ _ ?_
    | with_reducible refine Moves.foldl_snd ?_ _ ?_
    | with_reducible refine Moves.elim _ ?_ ?_
    | with_reducible intro _
    | with_reducible refine Moves.set_mile ?_ ?_

theorem quiesceAdmit_moves {m : Nat} {r s : State} (hm : 16777216 ||| m = m) (h : Moves m r s)   :
    Moves m r (Sys2Proof.Machine.quiesceAdmit s) := by
  unfold Sys2Proof.Machine.quiesceAdmit
  try dsimp only
  repeat' first
    | with_reducible assumption
    | with_reducible exact Chg.word rfl rfl rfl rfl
    | exact Chg.bit hm rfl
    | with_reducible refine Moves.ite ?_ ?_
    | with_reducible refine Moves.dite ?_ ?_
    | with_reducible refine Moves.ite_snd ?_ ?_
    | with_reducible refine Moves.foldl ?_ _ ?_
    | with_reducible refine Moves.foldl_snd ?_ _ ?_
    | with_reducible refine Moves.elim _ ?_ ?_
    | with_reducible intro _
    | split
    | with_reducible refine Moves.set_sys ?_ ?_ ?_

theorem handoverAnswer_moves {m : Nat} {r s : State} (hm : 598016 ||| m = m) (h : Moves m r s) (x0 : _)  :
    Moves m r (Sys2Proof.Machine.handoverAnswer x0 s) := by
  unfold Sys2Proof.Machine.handoverAnswer
  try dsimp only
  repeat' first
    | with_reducible assumption
    | (with_reducible refine mask_sub hm ?_); exact rfl
    | with_reducible refine complete_moves ?_ ?_ _ _ _ _
    | with_reducible refine Moves.ite ?_ ?_
    | with_reducible refine Moves.dite ?_ ?_
    | with_reducible refine Moves.ite_snd ?_ ?_
    | with_reducible refine Moves.foldl ?_ _ ?_
    | with_reducible refine Moves.foldl_snd ?_ _ ?_
    | with_reducible refine Moves.elim _ ?_ ?_
    | with_reducible intro _
    | split
    | with_reducible refine Moves.set_foot ?_ ?_

theorem handoverEnd_moves {m : Nat} {r s : State} (hm : 17375232 ||| m = m) (h : Moves m r s) (x0 : _)  :
    Moves m r (Sys2Proof.Machine.handoverEnd x0 s) := by
  unfold Sys2Proof.Machine.handoverEnd
  try dsimp only
  repeat' first
    | with_reducible assumption
    | (with_reducible refine mask_sub hm ?_); exact rfl
    | with_reducible refine complete_moves ?_ ?_ _ _ _ _
    | with_reducible refine quiesceAdmit_moves ?_ ?_ 
    | with_reducible refine handoverAnswer_moves ?_ ?_ _
    | with_reducible exact Chg.word rfl rfl rfl rfl
    | exact Chg.bit hm rfl
    | with_reducible refine Moves.ite ?_ ?_
    | with_reducible refine Moves.dite ?_ ?_
    | with_reducible refine Moves.ite_snd ?_ ?_
    | with_reducible refine Moves.foldl ?_ _ ?_
    | with_reducible refine Moves.foldl_snd ?_ _ ?_
    | with_reducible refine Moves.elim _ ?_ ?_
    | with_reducible intro _
    | split
    | with_reducible refine Moves.set_sys ?_ ?_ ?_

theorem cairnEvent_moves {m : Nat} {r s : State} (hm : 8 ||| m = m) (h : Moves m r s)   :
    Moves m r (Sys2Proof.Machine.cairnEvent s) := by
  unfold Sys2Proof.Machine.cairnEvent
  repeat' first
    | with_reducible assumption
    | with_reducible refine Moves.ite ?_ ?_
    | with_reducible refine Moves.dite ?_ ?_
    | with_reducible refine Moves.ite_snd ?_ ?_
    | with_reducible refine Moves.foldl ?_ _ ?_
    | with_reducible refine Moves.foldl_snd ?_ _ ?_
    | with_reducible refine Moves.elim _ ?_ ?_
    | with_reducible intro _
    | with_reducible refine Moves.set_cairn ?_ ?_

theorem setRole_moves {m : Nat} {r s : State} (hm : 720896 ||| m = m) (h : Moves m r s) (x0 : _) (x1 : _)  :
    Moves m r (Sys2Proof.Machine.setRole x0 x1 s) := by
  unfold Sys2Proof.Machine.setRole
  have k : HostOn s.host (if (roleOf s x0 == .auditor && x1 != .auditor) = true then
        { s.host with mbox := upd s.host.mbox x0 fun m => { m with held := m.held.filter (!·.unsol) } }
      else s.host) := by
    split
    · exact mbox_upd_on (i := x0) (f := fun m => { m with held := m.held.filter (!·.unsol) }) rfl (by intro _; rfl)
    · exact HostOn.refl _
  repeat' first
    | with_reducible assumption
    | (with_reducible refine mask_sub hm ?_); exact rfl
    | with_reducible refine icuEval_moves ?_ ?_
    | with_reducible refine Moves.ite ?_ ?_
    | with_reducible refine Moves.set_icu ?_ ?_
    | with_reducible refine Moves.set_host_slots ?_ ?_ ?_

theorem purgeDone_moves {m : Nat} {r s : State} (hm : 720896 ||| m = m) (h : Moves m r s) (x0 : _)  :
    Moves m r (Sys2Proof.Machine.purgeDone x0 s) := by
  unfold Sys2Proof.Machine.purgeDone
  try dsimp only
  repeat' first
    | with_reducible assumption
    | (with_reducible refine mask_sub hm ?_); exact rfl
    | with_reducible refine complete_moves ?_ ?_ _ _ _ _
    | with_reducible refine setRole_moves ?_ ?_ _ _
    | with_reducible refine Moves.ite ?_ ?_
    | with_reducible refine Moves.dite ?_ ?_
    | with_reducible refine Moves.ite_snd ?_ ?_
    | with_reducible refine Moves.foldl ?_ _ ?_
    | with_reducible refine Moves.foldl_snd ?_ _ ?_
    | with_reducible refine Moves.elim _ ?_ ?_
    | with_reducible intro _
    | split
    | with_reducible refine Moves.set_slots ?_ ?_

theorem freeTxn_moves {m : Nat} {r s : State} (hm : 727040 ||| m = m) (h : Moves m r s) (x0 : _)  :
    Moves m r (Sys2Proof.Machine.freeTxn x0 s) := by
  unfold Sys2Proof.Machine.freeTxn
  repeat' first
    | with_reducible assumption
    | (with_reducible refine mask_sub hm ?_); exact rfl
    | with_reducible refine purgeDone_moves ?_ ?_ _
    | with_reducible exact ServOn.same rfl rfl
    | with_reducible exact PtpOn.same rfl rfl
    | with_reducible refine Moves.ite ?_ ?_
    | with_reducible refine Moves.dite ?_ ?_
    | with_reducible refine Moves.ite_snd ?_ ?_
    | with_reducible refine Moves.foldl ?_ _ ?_
    | with_reducible refine Moves.foldl_snd ?_ _ ?_
    | with_reducible refine Moves.elim _ ?_ ?_
    | with_reducible intro _
    | with_reducible refine Moves.set_serv_ptp ?_ ?_ ?_ ?_

theorem waypHist_moves {m : Nat} {r s : State} (hm : 262144 ||| m = m) (h : Moves m r s) (x0 : _) (x1 : _) (x2 : _)  :
    Moves m r (Sys2Proof.Machine.waypHist x0 x1 x2 s) := by
  unfold Sys2Proof.Machine.waypHist
  repeat' first
    | with_reducible assumption
    | with_reducible refine stickyAt_moves ?_ ?_ _ _ _
    | with_reducible refine Moves.ite ?_ ?_
    | with_reducible refine Moves.dite ?_ ?_
    | with_reducible refine Moves.ite_snd ?_ ?_
    | with_reducible refine Moves.foldl ?_ _ ?_
    | with_reducible refine Moves.foldl_snd ?_ _ ?_
    | with_reducible refine Moves.elim _ ?_ ?_
    | with_reducible intro _

theorem launchFree_moves {m : Nat} {r s : State} (hm : 1536 ||| m = m) (h : Moves m r s) (x0 : _) (x1 : _)  :
    Moves m r (Sys2Proof.Machine.launchFree x0 x1 s) := by
  unfold Sys2Proof.Machine.launchFree
  repeat' first
    | with_reducible assumption
    | (with_reducible refine mask_sub hm ?_); exact rfl
    | with_reducible refine onPort_moves ?_ ?_ _ _
    | with_reducible refine onWayp_moves ?_ ?_ _ _

theorem dropOne_moves {m : Nat} {r s : State} (hm : 5185024 ||| m = m) (h : Moves m r s) (x0 : _) (x1 : _) (x2 : _)  :
    Moves m r (Sys2Proof.Machine.dropOne x0 x1 x2 s) := by
  unfold Sys2Proof.Machine.dropOne
  repeat' first
    | with_reducible assumption
    | (with_reducible refine mask_sub hm ?_); exact rfl
    | with_reducible refine waypCount_moves ?_ ?_ _ _ _ _
    | with_reducible refine raise_moves ?_ ?_ _
    | with_reducible refine freeTxn_moves ?_ ?_ _
    | with_reducible refine waypHist_moves ?_ ?_ _ _ _
    | with_reducible refine onWayp_moves ?_ ?_ _ _
    | with_reducible refine launchFree_moves ?_ ?_ _ _
    | with_reducible refine Moves.ite ?_ ?_

theorem txStartAt_moves {m : Nat} {r s : State} (hm : 5047808 ||| m = m) (h : Moves m r s) (x0 : _) (x1 : _)  :
    Moves m r (Sys2Proof.Machine.txStartAt x0 x1 s) := by
  unfold Sys2Proof.Machine.txStartAt
  repeat' first
    | with_reducible assumption
    | with_reducible refine tryQueue_moves ?_ ?_ _ _ _
    | with_reducible refine Moves.ite ?_ ?_
    | with_reducible refine Moves.dite ?_ ?_
    | with_reducible refine Moves.ite_snd ?_ ?_
    | with_reducible refine Moves.foldl ?_ _ ?_
    | with_reducible refine Moves.foldl_snd ?_ _ ?_
    | with_reducible refine Moves.elim _ ?_ ?_
    | with_reducible intro _

theorem poolIn_moves {m : Nat} {r s : State} (hm : 512 ||| m = m) (h : Moves m r s) (x0 : _) (x1 : _)  :
    Moves m r (Sys2Proof.Machine.poolIn x0 x1 s) := by
  unfold Sys2Proof.Machine.poolIn
  repeat' first
    | with_reducible assumption
    | with_reducible refine onPort_moves ?_ ?_ _ _

theorem takeCtl_moves {m : Nat} {r s : State} (hm : 512 ||| m = m) (h : Moves m r s) (x0 : _) (x1 : _)  :
    Moves m r (Sys2Proof.Machine.takeCtl x0 x1 s) := by
  induction x1 generalizing s with
  | nil => exact onPort_moves hm h _ _
  | cons c l ih =>
    unfold Sys2Proof.Machine.takeCtl
    split
    · exact ih (poolIn_moves hm h _ _)
    · exact onPort_moves hm h _ _

theorem onTxRing_moves {m : Nat} {r s : State} (hm : 512 ||| m = m) (h : Moves m r s) (x0 : _) (x1 : _) (x2 : _)  :
    Moves m r (Sys2Proof.Machine.onTxRing x0 x1 x2 s) := by
  unfold Sys2Proof.Machine.onTxRing
  repeat' first
    | with_reducible assumption
    | with_reducible refine onPort_moves ?_ ?_ _ _

theorem txBack_moves {m : Nat} {r s : State} (hm : 590336 ||| m = m) (h : Moves m r s) (x0 : _) (x1 : _)  :
    Moves m r (Sys2Proof.Machine.txBack x0 x1 s) := by
  unfold Sys2Proof.Machine.txBack
  repeat' first
    | with_reducible assumption
    | (with_reducible refine mask_sub hm ?_); exact rfl
    | with_reducible refine raiseTo_moves ?_ ?_ _ _
    | with_reducible refine onTxRing_moves ?_ ?_ _ _ _
    | with_reducible refine Moves.ite ?_ ?_

theorem txSettle_moves {m : Nat} {r s : State} (hm : 590336 ||| m = m) (h : Moves m r s) (x0 : _) (x1 : _)  :
    Moves m r (Sys2Proof.Machine.txSettle x0 x1 s) := by
  unfold Sys2Proof.Machine.txSettle
  repeat' first
    | with_reducible assumption
    | with_reducible refine txBack_moves ?_ ?_ _ _
    | with_reducible refine Moves.ite ?_ ?_
    | with_reducible refine Moves.dite ?_ ?_
    | with_reducible refine Moves.ite_snd ?_ ?_
    | with_reducible refine Moves.foldl ?_ _ ?_
    | with_reducible refine Moves.foldl_snd ?_ _ ?_
    | with_reducible refine Moves.elim _ ?_ ?_
    | with_reducible intro _

theorem txEnd_moves {m : Nat} {r s : State} (hm : 6226432 ||| m = m) (h : Moves m r s) (x0 : _) (x1 : _) (x2 : _)  :
    Moves m r (Sys2Proof.Machine.txEnd x0 x1 x2 s) := by
  unfold Sys2Proof.Machine.txEnd
  repeat' first
    | with_reducible assumption
    | (with_reducible refine mask_sub hm ?_); exact rfl
    | with_reducible refine onTxRing_moves ?_ ?_ _ _ _
    | with_reducible refine txSettle_moves ?_ ?_ _ _
    | with_reducible refine deny_moves ?_ ?_ _ _ _
    | with_reducible refine portCount_moves ?_ ?_ _ _ _ _
    | with_reducible refine Moves.ite ?_ ?_

theorem takeOne_moves {m : Nat} {r s : State} (hm : 6226432 ||| m = m) (h : Moves m r s) (x0 : _) (x1 : _)  :
    Moves m r (Sys2Proof.Machine.takeOne x0 x1 s) := by
  unfold Sys2Proof.Machine.takeOne
  try dsimp only
  repeat' first
    | with_reducible assumption
    | (with_reducible refine mask_sub hm ?_); exact rfl
    | with_reducible refine onTxRing_moves ?_ ?_ _ _ _
    | with_reducible refine poolIn_moves ?_ ?_ _ _
    | with_reducible refine txEnd_moves ?_ ?_ _ _ _
    | with_reducible refine onPort_moves ?_ ?_ _ _
    | with_reducible refine Moves.ite ?_ ?_
    | with_reducible refine Moves.dite ?_ ?_
    | with_reducible refine Moves.ite_snd ?_ ?_
    | with_reducible refine Moves.foldl ?_ _ ?_
    | with_reducible refine Moves.foldl_snd ?_ _ ?_
    | with_reducible refine Moves.elim _ ?_ ?_
    | with_reducible intro _
    | split

theorem takeAll_moves {m : Nat} {r s : State} (hm : 6226432 ||| m = m) (h : Moves m r s) (x0 : _)  :
    Moves m r (Sys2Proof.Machine.takeAll x0 s) := by
  unfold Sys2Proof.Machine.takeAll
  repeat' first
    | with_reducible assumption
    | (with_reducible refine mask_sub hm ?_); exact rfl
    | with_reducible refine takeCtl_moves ?_ ?_ _ _
    | with_reducible refine takeOne_moves ?_ ?_ _ _
    | with_reducible refine Moves.ite ?_ ?_
    | with_reducible refine Moves.dite ?_ ?_
    | with_reducible refine Moves.ite_snd ?_ ?_
    | with_reducible refine Moves.foldl ?_ _ ?_
    | with_reducible refine Moves.foldl_snd ?_ _ ?_
    | with_reducible refine Moves.elim _ ?_ ?_
    | with_reducible intro _

theorem txStart_moves {m : Nat} {r s : State} (hm : 6227456 ||| m = m) (h : Moves m r s) (x0 : _)  :
    Moves m r (Sys2Proof.Machine.txStart x0 s) := by
  unfold Sys2Proof.Machine.txStart
  repeat' first
    | with_reducible assumption
    | (with_reducible refine mask_sub hm ?_); exact rfl
    | with_reducible refine txStartAt_moves ?_ ?_ _ _
    | with_reducible refine takeAll_moves ?_ ?_ _
    | with_reducible refine Moves.ite ?_ ?_

theorem dropFrames_moves {m : Nat} {r s : State} (hm : 6233600 ||| m = m) (h : Moves m r s) (x0 : _) (x1 : _) (x2 : _)  :
    Moves m r (Sys2Proof.Machine.dropFrames x0 x1 x2 s) := by
  unfold Sys2Proof.Machine.dropFrames
  repeat' first
    | with_reducible assumption
    | (with_reducible refine mask_sub hm ?_); exact rfl
    | with_reducible refine dropOne_moves ?_ ?_ _ _ _
    | with_reducible refine txStart_moves ?_ ?_ _
    | with_reducible refine Moves.ite ?_ ?_
    | with_reducible refine Moves.dite ?_ ?_
    | with_reducible refine Moves.ite_snd ?_ ?_
    | with_reducible refine Moves.foldl ?_ _ ?_
    | with_reducible refine Moves.foldl_snd ?_ _ ?_
    | with_reducible refine Moves.elim _ ?_ ?_
    | with_reducible intro _

theorem dropAll_moves {m : Nat} {r s : State} (hm : 6233600 ||| m = m) (h : Moves m r s) (x0 : _)  :
    Moves m r (Sys2Proof.Machine.dropAll x0 s).1 := by
  unfold Sys2Proof.Machine.dropAll
  repeat' first
    | with_reducible assumption
    | with_reducible refine dropFrames_moves ?_ ?_ _ _ _
    | with_reducible refine Moves.ite ?_ ?_
    | with_reducible refine Moves.dite ?_ ?_
    | with_reducible refine Moves.ite_snd ?_ ?_
    | with_reducible refine Moves.ite_fst ?_ ?_
    | with_reducible refine Moves.foldl ?_ _ ?_
    | with_reducible refine Moves.foldl_snd ?_ _ ?_
    | with_reducible refine Moves.elim _ ?_ ?_
    | with_reducible intro _

theorem permitClose_moves {m : Nat} {r s : State} (hm : 16 ||| m = m) (h : Moves m r s)   :
    Moves m r (Sys2Proof.Machine.permitClose s) := by
  unfold Sys2Proof.Machine.permitClose
  repeat' first
    | with_reducible assumption
    | with_reducible refine Moves.ite ?_ ?_
    | with_reducible refine Moves.dite ?_ ?_
    | with_reducible refine Moves.ite_snd ?_ ?_
    | with_reducible refine Moves.foldl ?_ _ ?_
    | with_reducible refine Moves.foldl_snd ?_ _ ?_
    | with_reducible refine Moves.elim _ ?_ ?_
    | with_reducible intro _
    | with_reducible refine Moves.set_sign ?_ ?_

theorem leaseGive_moves {m : Nat} {r s : State} (hm : 23019032 ||| m = m) (h : Moves m r s) (x0 : _) (x1 : _)  :
    Moves m r (Sys2Proof.Machine.leaseGive x0 x1 s) := by
  unfold Sys2Proof.Machine.leaseGive
  repeat' first
    | with_reducible assumption
    | (with_reducible refine mask_sub hm ?_); exact rfl
    | with_reducible refine handoverEnd_moves ?_ ?_ _
    | with_reducible refine handoverAnswer_moves ?_ ?_ _
    | with_reducible refine lanternFast_moves ?_ ?_ 
    | with_reducible refine trail_moves ?_ ?_ _ _
    | with_reducible refine cairnEvent_moves ?_ ?_ 
    | with_reducible refine raise_moves ?_ ?_ _
    | with_reducible refine sticky_moves ?_ ?_ _ _
    | with_reducible refine stickyFirst_moves ?_ ?_ _ _ _ _
    | with_reducible refine dropAll_moves ?_ ?_ _
    | with_reducible refine permitClose_moves ?_ ?_ 
    | with_reducible refine Moves.ite ?_ ?_
    | with_reducible refine Moves.dite ?_ ?_
    | with_reducible refine Moves.ite_snd ?_ ?_
    | with_reducible refine Moves.ite_fst ?_ ?_
    | with_reducible refine Moves.foldl ?_ _ ?_
    | with_reducible refine Moves.foldl_snd ?_ _ ?_
    | with_reducible refine Moves.elim _ ?_ ?_
    | with_reducible intro _
    | with_reducible refine Moves.set_foot ?_ ?_

theorem fatalPath_moves {m : Nat} {r s : State} (hm : 23019098 ||| m = m) (h : Moves m r s) (x0 : _)  :
    Moves m r (Sys2Proof.Machine.fatalPath x0 s) := by
  unfold Sys2Proof.Machine.fatalPath
  repeat' first
    | with_reducible assumption
    | (with_reducible refine mask_sub hm ?_); exact rfl
    | with_reducible refine lanternFast_moves ?_ ?_ 
    | with_reducible refine faultLog_moves ?_ ?_ _ _ _
    | with_reducible refine setOe_moves ?_ ?_ _
    | with_reducible refine leaseGive_moves ?_ ?_ _ _
    | with_reducible refine dropAll_moves ?_ ?_ _
    | with_reducible exact AonOn.same rfl
    | with_reducible exact Chg.word rfl rfl rfl rfl
    | exact Chg.bit hm rfl
    | with_reducible refine Moves.ite ?_ ?_
    | with_reducible refine Moves.dite ?_ ?_
    | with_reducible refine Moves.ite_snd ?_ ?_
    | with_reducible refine Moves.ite_fst ?_ ?_
    | with_reducible refine Moves.foldl ?_ _ ?_
    | with_reducible refine Moves.foldl_snd ?_ _ ?_
    | with_reducible refine Moves.elim _ ?_ ?_
    | with_reducible intro _
    | with_reducible refine Moves.set_aon_foot_sys ?_ ?_ ?_ ?_

theorem faultReact_moves {m : Nat} {r s : State} (hm : 23019098 ||| m = m) (h : Moves m r s) (x0 : _) (x1 : _) (x2 : _)  :
    Moves m r (Sys2Proof.Machine.faultReact x0 x1 x2 s) := by
  unfold Sys2Proof.Machine.faultReact
  repeat' first
    | with_reducible assumption
    | (with_reducible refine mask_sub hm ?_); exact rfl
    | with_reducible refine fatalPath_moves ?_ ?_ _
    | with_reducible refine faultLog_moves ?_ ?_ _ _ _
    | with_reducible refine Moves.ite ?_ ?_

theorem overlap_moves {m : Nat} {r s : State} (hm : 3997696 ||| m = m) (h : Moves m r s) (x0 : _)  :
    Moves m r (Sys2Proof.Machine.overlap x0 s) := by
  unfold Sys2Proof.Machine.overlap
  repeat' first
    | with_reducible assumption
    | (with_reducible refine mask_sub hm ?_); exact rfl
    | with_reducible refine sticky_moves ?_ ?_ _ _
    | with_reducible refine trail_moves ?_ ?_ _ _
    | with_reducible refine raise_moves ?_ ?_ _
    | with_reducible exact FaultOn.same rfl
    | with_reducible refine Moves.ite ?_ ?_
    | with_reducible refine Moves.dite ?_ ?_
    | with_reducible refine Moves.ite_snd ?_ ?_
    | with_reducible refine Moves.foldl ?_ _ ?_
    | with_reducible refine Moves.foldl_snd ?_ _ ?_
    | with_reducible refine Moves.elim _ ?_ ?_
    | with_reducible intro _
    | with_reducible refine Moves.set_fault ?_ ?_ ?_

theorem realRise_moves {m : Nat} {r s : State} (hm : 25116250 ||| m = m) (h : Moves m r s) (x0 : _)  :
    Moves m r (Sys2Proof.Machine.realRise x0 s) := by
  unfold Sys2Proof.Machine.realRise
  repeat' first
    | with_reducible assumption
    | (with_reducible refine mask_sub hm ?_); exact rfl
    | with_reducible refine faultReact_moves ?_ ?_ _ _ _
    | with_reducible refine overlap_moves ?_ ?_ _
    | with_reducible exact FaultOn.same rfl
    | with_reducible refine Moves.ite ?_ ?_
    | with_reducible refine Moves.dite ?_ ?_
    | with_reducible refine Moves.ite_snd ?_ ?_
    | with_reducible refine Moves.foldl ?_ _ ?_
    | with_reducible refine Moves.foldl_snd ?_ _ ?_
    | with_reducible refine Moves.elim _ ?_ ?_
    | with_reducible intro _
    | with_reducible refine Moves.set_fault ?_ ?_ ?_

theorem faultEvent_moves {m : Nat} {r s : State} (hm : 25116250 ||| m = m) (h : Moves m r s) (x0 : _)  :
    Moves m r (Sys2Proof.Machine.faultEvent x0 s) := by
  unfold Sys2Proof.Machine.faultEvent
  repeat' first
    | with_reducible assumption
    | (with_reducible refine mask_sub hm ?_); exact rfl
    | with_reducible refine lanternPulse_moves ?_ ?_ 
    | with_reducible refine realRise_moves ?_ ?_ _
    | with_reducible refine lanternFast_moves ?_ ?_ 
    | with_reducible refine Moves.ite ?_ ?_

theorem waitFor_moves {m : Nat} {r s : State} (hm : 4195328 ||| m = m) (h : Moves m r s) (x0 : _) (x1 : _)  :
    Moves m r (Sys2Proof.Machine.waitFor x0 x1 s) := by
  unfold Sys2Proof.Machine.waitFor
  repeat' first
    | with_reducible assumption
    | (with_reducible refine mask_sub hm ?_); exact rfl
    | with_reducible refine onWayp_moves ?_ ?_ _ _
    | with_reducible refine waypCount_moves ?_ ?_ _ _ _ _

theorem waitEnd_moves {m : Nat} {r s : State} (hm : 1024 ||| m = m) (h : Moves m r s) (x0 : _) (x1 : _)  :
    Moves m r (Sys2Proof.Machine.waitEnd x0 x1 s) := by
  unfold Sys2Proof.Machine.waitEnd
  repeat' first
    | with_reducible assumption
    | with_reducible refine onWayp_moves ?_ ?_ _ _

theorem launchDelay_moves {m : Nat} {r s : State} (hm : 8388608 ||| m = m) (h : Moves m r s) (x0 : _)  :
    Moves m r (Sys2Proof.Machine.launchDelay x0 s).2 := by
  unfold Sys2Proof.Machine.launchDelay
  repeat' first
    | with_reducible assumption
    | with_reducible refine Moves.ite ?_ ?_
    | with_reducible refine Moves.dite ?_ ?_
    | with_reducible refine Moves.ite_snd ?_ ?_
    | with_reducible refine Moves.foldl ?_ _ ?_
    | with_reducible refine Moves.foldl_snd ?_ _ ?_
    | with_reducible refine Moves.elim _ ?_ ?_
    | with_reducible intro _
    | with_reducible refine Moves.set_pert ?_ ?_

theorem reserveSlot_moves {m : Nat} {r s : State} (hm : 8390144 ||| m = m) (h : Moves m r s) (x0 : _) (x1 : _) (x2 : _) (x3 : _)  :
    Moves m r (Sys2Proof.Machine.reserveSlot x0 x1 x2 x3 s).2 := by
  unfold Sys2Proof.Machine.reserveSlot
  repeat' first
    | with_reducible assumption
    | (with_reducible refine mask_sub hm ?_); exact rfl
    | with_reducible refine onPort_moves ?_ ?_ _ _
    | with_reducible refine onWayp_moves ?_ ?_ _ _
    | with_reducible refine launchDelay_moves ?_ ?_ _

theorem ctlSend_moves {m : Nat} {r s : State} (hm : 6227456 ||| m = m) (h : Moves m r s) (x0 : _) (x1 : _)  :
    Moves m r (Sys2Proof.Machine.ctlSend x0 x1 s) := by
  unfold Sys2Proof.Machine.ctlSend
  try dsimp only
  repeat' first
    | with_reducible assumption
    | (with_reducible refine mask_sub hm ?_); exact rfl
    | with_reducible refine onPort_moves ?_ ?_ _ _
    | with_reducible refine poolIn_moves ?_ ?_ _ _
    | with_reducible refine txStart_moves ?_ ?_ _
    | with_reducible refine Moves.ite ?_ ?_
    | with_reducible refine Moves.dite ?_ ?_
    | with_reducible refine Moves.ite_snd ?_ ?_
    | with_reducible refine Moves.foldl ?_ _ ?_
    | with_reducible refine Moves.foldl_snd ?_ _ ?_
    | with_reducible refine Moves.elim _ ?_ ?_
    | with_reducible intro _
    | split

theorem calLaunch_moves {m : Nat} {r s : State} (hm : 1024 ||| m = m) (h : Moves m r s) (x0 : _) (x1 : _)  :
    Moves m r (Sys2Proof.Machine.calLaunch x0 x1 s) := by
  unfold Sys2Proof.Machine.calLaunch
  repeat' first
    | with_reducible assumption
    | with_reducible refine onWayp_moves ?_ ?_ _ _

theorem calSecond_moves {m : Nat} {r s : State} (hm : 1024 ||| m = m) (h : Moves m r s) (x0 : _)  :
    Moves m r (Sys2Proof.Machine.calSecond x0 s) := by
  unfold Sys2Proof.Machine.calSecond
  try dsimp only
  repeat' first
    | with_reducible assumption
    | with_reducible refine calLaunch_moves ?_ ?_ _ _
    | with_reducible refine onWayp_moves ?_ ?_ _ _
    | with_reducible refine Moves.ite ?_ ?_
    | with_reducible refine Moves.dite ?_ ?_
    | with_reducible refine Moves.ite_snd ?_ ?_
    | with_reducible refine Moves.foldl ?_ _ ?_
    | with_reducible refine Moves.foldl_snd ?_ _ ?_
    | with_reducible refine Moves.elim _ ?_ ?_
    | with_reducible intro _
    | split

theorem dropLeases_moves {m : Nat} {r s : State} (hm : 25116250 ||| m = m) (h : Moves m r s)   :
    Moves m r (Sys2Proof.Machine.dropLeases s) := by
  unfold Sys2Proof.Machine.dropLeases
  repeat' first
    | with_reducible assumption
    | (with_reducible refine mask_sub hm ?_); exact rfl
    | with_reducible refine faultEvent_moves ?_ ?_ _
    | with_reducible refine dropAll_moves ?_ ?_ _
    | with_reducible refine Moves.ite ?_ ?_

theorem relinquish_moves {m : Nat} {r s : State} (hm : 25116250 ||| m = m) (h : Moves m r s) (x0 : _) (x1 : _)  :
    Moves m r (Sys2Proof.Machine.relinquish x0 x1 s) := by
  unfold Sys2Proof.Machine.relinquish
  repeat' first
    | with_reducible assumption
    | (with_reducible refine mask_sub hm ?_); exact rfl
    | with_reducible refine faultEvent_moves ?_ ?_ _
    | with_reducible refine leaseGive_moves ?_ ?_ _ _
    | with_reducible refine dropAll_moves ?_ ?_ _
    | with_reducible refine Moves.ite ?_ ?_

theorem ownLevel_moves {m : Nat} {r s : State} (hm : 8208 ||| m = m) (h : Moves m r s)   :
    Moves m r (Sys2Proof.Machine.ownLevel s) := by
  unfold Sys2Proof.Machine.ownLevel
  repeat' first
    | with_reducible assumption
    | (with_reducible refine mask_sub hm ?_); exact rfl
    | with_reducible refine lanternFast_moves ?_ ?_ 
    | with_reducible refine Moves.ite ?_ ?_
    | with_reducible refine Moves.dite ?_ ?_
    | with_reducible refine Moves.ite_snd ?_ ?_
    | with_reducible refine Moves.foldl ?_ _ ?_
    | with_reducible refine Moves.foldl_snd ?_ _ ?_
    | with_reducible refine Moves.elim _ ?_ ?_
    | with_reducible intro _
    | with_reducible refine Moves.set_foot ?_ ?_

theorem leaseMode_moves {m : Nat} {r s : State} (hm : 25116250 ||| m = m) (h : Moves m r s)   :
    Moves m r (Sys2Proof.Machine.leaseMode s) := by
  unfold Sys2Proof.Machine.leaseMode
  repeat' first
    | with_reducible assumption
    | (with_reducible refine mask_sub hm ?_); exact rfl
    | with_reducible refine relinquish_moves ?_ ?_ _ _
    | with_reducible refine ownLevel_moves ?_ ?_ 
    | with_reducible refine Moves.ite ?_ ?_
    | with_reducible refine Moves.dite ?_ ?_
    | with_reducible refine Moves.ite_snd ?_ ?_
    | with_reducible refine Moves.foldl ?_ _ ?_
    | with_reducible refine Moves.foldl_snd ?_ _ ?_
    | with_reducible refine Moves.elim _ ?_ ?_
    | with_reducible intro _
    | with_reducible refine Moves.set_foot ?_ ?_

theorem pertEnd_moves {m : Nat} {r s : State} (hm : 8978432 ||| m = m) (h : Moves m r s)   :
    Moves m r (Sys2Proof.Machine.pertEnd s) := by
  unfold Sys2Proof.Machine.pertEnd
  repeat' first
    | with_reducible assumption
    | (with_reducible refine mask_sub hm ?_); exact rfl
    | with_reducible refine raise_moves ?_ ?_ _
    | with_reducible refine Moves.ite ?_ ?_
    | with_reducible refine Moves.dite ?_ ?_
    | with_reducible refine Moves.ite_snd ?_ ?_
    | with_reducible refine Moves.foldl ?_ _ ?_
    | with_reducible refine Moves.foldl_snd ?_ _ ?_
    | with_reducible refine Moves.elim _ ?_ ?_
    | with_reducible intro _
    | with_reducible refine Moves.set_pert ?_ ?_

theorem pertLive_moves {m : Nat} {r s : State} (hm : 8978432 ||| m = m) (h : Moves m r s) (x0 : _)  :
    Moves m r (Sys2Proof.Machine.pertLive x0 s) := by
  unfold Sys2Proof.Machine.pertLive
  repeat' first
    | with_reducible assumption
    | (with_reducible refine mask_sub hm ?_); exact rfl
    | with_reducible refine raise_moves ?_ ?_ _
    | with_reducible refine Moves.ite ?_ ?_
    | with_reducible refine Moves.dite ?_ ?_
    | with_reducible refine Moves.ite_snd ?_ ?_
    | with_reducible refine Moves.foldl ?_ _ ?_
    | with_reducible refine Moves.foldl_snd ?_ _ ?_
    | with_reducible refine Moves.elim _ ?_ ?_
    | with_reducible intro _
    | with_reducible refine Moves.set_pert ?_ ?_

theorem enterRecovery_moves {m : Nat} {r s : State} (hm : 26804224 ||| m = m) (h : Moves m r s)   :
    Moves m r (Sys2Proof.Machine.enterRecovery s) := by
  unfold Sys2Proof.Machine.enterRecovery
  try dsimp only
  repeat' first
    | with_reducible assumption
    | (with_reducible refine mask_sub hm ?_); exact rfl
    | with_reducible refine complete_moves ?_ ?_ _ _ _ _
    | with_reducible refine pertEnd_moves ?_ ?_ 
    | with_reducible refine pertLive_moves ?_ ?_ _
    | with_reducible exact Chg.word rfl rfl rfl rfl
    | exact Chg.bit hm rfl
    | with_reducible refine Moves.ite ?_ ?_
    | with_reducible refine Moves.dite ?_ ?_
    | with_reducible refine Moves.ite_snd ?_ ?_
    | with_reducible refine Moves.foldl ?_ _ ?_
    | with_reducible refine Moves.foldl_snd ?_ _ ?_
    | with_reducible refine Moves.elim _ ?_ ?_
    | with_reducible intro _
    | split
    | with_reducible refine Moves.set_trail_sys ?_ ?_ ?_

theorem enterMode_moves {m : Nat} {r s : State} (hm : 67059290 ||| m = m) (h : Moves m r s) (x0 : _) (x1 : _)  :
    Moves m r (Sys2Proof.Machine.enterMode x0 x1 s) := by
  unfold Sys2Proof.Machine.enterMode
  repeat' first
    | with_reducible assumption
    | (with_reducible refine mask_sub hm ?_); exact rfl
    | with_reducible refine dropLeases_moves ?_ ?_ 
    | with_reducible refine leaseMode_moves ?_ ?_ 
    | with_reducible refine enterRecovery_moves ?_ ?_ 
    | with_reducible refine trail_moves ?_ ?_ _ _
    | with_reducible refine cairnEvent_moves ?_ ?_ 
    | with_reducible refine raise_moves ?_ ?_ _
    | with_reducible refine permitClose_moves ?_ ?_ 
    | with_reducible refine sticky_moves ?_ ?_ _ _
    | with_reducible refine stickyFirst_moves ?_ ?_ _ _ _ _
    | with_reducible refine stickyField_after _ _ _ _ _ _ ?_
    | with_reducible refine stickyRegs_after _ _ _ ?_
    | with_reducible exact RegsOn.refl _
    | with_reducible exact RegsOn.same rfl
    | with_reducible exact Chg.word rfl rfl rfl rfl
    | exact Chg.bit hm rfl
    | with_reducible refine Moves.ite ?_ ?_
    | with_reducible refine Moves.dite ?_ ?_
    | with_reducible refine Moves.ite_snd ?_ ?_
    | with_reducible refine Moves.foldl ?_ _ ?_
    | with_reducible refine Moves.foldl_snd ?_ _ ?_
    | with_reducible refine Moves.elim _ ?_ ?_
    | with_reducible intro _
    | with_reducible refine Moves.set_foot ?_ ?_
    | with_reducible refine Moves.set_regs_sys ?_ ?_ ?_ ?_

theorem tsqUndo_moves {m : Nat} {r s : State} (hm : 1024 ||| m = m) (h : Moves m r s) (x0 : _) (x1 : _)  :
    Moves m r (Sys2Proof.Machine.tsqUndo x0 x1 s) := by
  unfold Sys2Proof.Machine.tsqUndo
  try dsimp only
  repeat' first
    | with_reducible assumption
    | with_reducible refine onWayp_moves ?_ ?_ _ _
    | with_reducible refine Moves.ite ?_ ?_
    | with_reducible refine Moves.dite ?_ ?_
    | with_reducible refine Moves.ite_snd ?_ ?_
    | with_reducible refine Moves.foldl ?_ _ ?_
    | with_reducible refine Moves.foldl_snd ?_ _ ?_
    | with_reducible refine Moves.elim _ ?_ ?_
    | with_reducible intro _
    | split

theorem txRemove_moves {m : Nat} {r s : State} (hm : 4195840 ||| m = m) (h : Moves m r s) (x0 : _) (x1 : _) (x2 : _)  :
    Moves m r (Sys2Proof.Machine.txRemove x0 x1 x2 s) := by
  unfold Sys2Proof.Machine.txRemove
  repeat' first
    | with_reducible assumption
    | (with_reducible refine mask_sub hm ?_); exact rfl
    | with_reducible refine fenceWaited_moves ?_ ?_ _ _ _
    | with_reducible refine tsqUndo_moves ?_ ?_ _ _
    | with_reducible refine onPort_moves ?_ ?_ _ _
    | with_reducible refine Moves.ite ?_ ?_
    | with_reducible refine Moves.dite ?_ ?_
    | with_reducible refine Moves.ite_snd ?_ ?_
    | with_reducible refine Moves.foldl ?_ _ ?_
    | with_reducible refine Moves.foldl_snd ?_ _ ?_
    | with_reducible refine Moves.elim _ ?_ ?_
    | with_reducible intro _

theorem txEndAll_moves {m : Nat} {r s : State} (hm : 6226432 ||| m = m) (h : Moves m r s) (x0 : _) (x1 : _) (x2 : _) (x3 : _)  :
    Moves m r (Sys2Proof.Machine.txEndAll x0 x1 x2 x3 s) := by
  unfold Sys2Proof.Machine.txEndAll
  repeat' first
    | with_reducible assumption
    | with_reducible refine txEnd_moves ?_ ?_ _ _ _
    | with_reducible refine Moves.ite ?_ ?_
    | with_reducible refine Moves.dite ?_ ?_
    | with_reducible refine Moves.ite_snd ?_ ?_
    | with_reducible refine Moves.foldl ?_ _ ?_
    | with_reducible refine Moves.foldl_snd ?_ _ ?_
    | with_reducible refine Moves.elim _ ?_ ?_
    | with_reducible intro _

theorem txFlush_moves {m : Nat} {r s : State} (hm : 6227456 ||| m = m) (h : Moves m r s) (x0 : _) (x1 : _) (x2 : _)  :
    Moves m r (Sys2Proof.Machine.txFlush x0 x1 x2 s) := by
  unfold Sys2Proof.Machine.txFlush
  repeat' first
    | with_reducible assumption
    | (with_reducible refine mask_sub hm ?_); exact rfl
    | with_reducible refine txRemove_moves ?_ ?_ _ _ _
    | with_reducible refine txEndAll_moves ?_ ?_ _ _ _ _
    | with_reducible refine Moves.ite ?_ ?_
    | with_reducible refine Moves.dite ?_ ?_
    | with_reducible refine Moves.ite_snd ?_ ?_
    | with_reducible refine Moves.foldl ?_ _ ?_
    | with_reducible refine Moves.foldl_snd ?_ _ ?_
    | with_reducible refine Moves.elim _ ?_ ?_
    | with_reducible intro _

theorem tsqFree_moves {m : Nat} {r s : State} (hm : 1024 ||| m = m) (h : Moves m r s) (x0 : _) (x1 : _)  :
    Moves m r (Sys2Proof.Machine.tsqFree x0 x1 s) := by
  unfold Sys2Proof.Machine.tsqFree
  repeat' first
    | with_reducible assumption
    | with_reducible refine onWayp_moves ?_ ?_ _ _

theorem pushMeas_moves {m : Nat} {r s : State} (hm : 16 ||| m = m) (h : Moves m r s) (x0 : _) (x1 : _) (x2 : _) (x3 : _)  :
    Moves m r (Sys2Proof.Machine.pushMeas x0 x1 x2 x3 s) := by
  unfold Sys2Proof.Machine.pushMeas
  repeat' first
    | with_reducible assumption
    | with_reducible refine Moves.ite ?_ ?_
    | with_reducible refine Moves.dite ?_ ?_
    | with_reducible refine Moves.ite_snd ?_ ?_
    | with_reducible refine Moves.foldl ?_ _ ?_
    | with_reducible refine Moves.foldl_snd ?_ _ ?_
    | with_reducible refine Moves.elim _ ?_ ?_
    | with_reducible intro _
    | with_reducible refine Moves.set_sign ?_ ?_

theorem lockViol_moves {m : Nat} {r s : State} (hm : 25116250 ||| m = m) (h : Moves m r s) (x0 : _) (x1 : _) (x2 : _)  :
    Moves m r (Sys2Proof.Machine.lockViol x0 x1 x2 s) := by
  unfold Sys2Proof.Machine.lockViol
  repeat' first
    | with_reducible assumption
    | (with_reducible refine mask_sub hm ?_); exact rfl
    | with_reducible refine trail_moves ?_ ?_ _ _
    | with_reducible refine faultEvent_moves ?_ ?_ _

theorem faultCond_moves {m : Nat} {r s : State} (hm : 25116250 ||| m = m) (h : Moves m r s) (x0 : _) (x1 : _)  :
    Moves m r (Sys2Proof.Machine.faultCond x0 x1 s) := by
  unfold Sys2Proof.Machine.faultCond
  repeat' first
    | with_reducible assumption
    | (with_reducible refine mask_sub hm ?_); exact rfl
    | with_reducible refine realRise_moves ?_ ?_ _
    | with_reducible refine lanternFast_moves ?_ ?_ 
    | with_reducible exact FaultOn.same rfl
    | with_reducible refine Moves.ite ?_ ?_
    | with_reducible refine Moves.dite ?_ ?_
    | with_reducible refine Moves.ite_snd ?_ ?_
    | with_reducible refine Moves.foldl ?_ _ ?_
    | with_reducible refine Moves.foldl_snd ?_ _ ?_
    | with_reducible refine Moves.elim _ ?_ ?_
    | with_reducible intro _
    | with_reducible refine Moves.set_fault ?_ ?_ ?_

theorem atQ_moves {m : Nat} {r s : State} (hm : 4 ||| m = m) (h : Moves m r s) (x0 : _)  :
    Moves m r (Sys2Proof.Machine.atQ x0 s) := by
  unfold Sys2Proof.Machine.atQ
  repeat' first
    | with_reducible assumption
    | with_reducible refine Moves.ite ?_ ?_
    | with_reducible refine Moves.dite ?_ ?_
    | with_reducible refine Moves.ite_snd ?_ ?_
    | with_reducible refine Moves.foldl ?_ _ ?_
    | with_reducible refine Moves.foldl_snd ?_ _ ?_
    | with_reducible refine Moves.elim _ ?_ ?_
    | with_reducible intro _
    | with_reducible refine Moves.set_time ?_ ?_

theorem dropLaunch_moves {m : Nat} {r s : State} (hm : 25116250 ||| m = m) (h : Moves m r s) (x0 : _) (x1 : _) (x2 : _)  :
    Moves m r (Sys2Proof.Machine.dropLaunch x0 x1 x2 s) := by
  unfold Sys2Proof.Machine.dropLaunch
  repeat' first
    | with_reducible assumption
    | (with_reducible refine mask_sub hm ?_); exact rfl
    | with_reducible refine faultEvent_moves ?_ ?_ _
    | with_reducible refine dropFrames_moves ?_ ?_ _ _ _
    | with_reducible refine Moves.ite ?_ ?_

theorem txDrop_moves {m : Nat} {r s : State} (hm : 4195840 ||| m = m) (h : Moves m r s) (x0 : _) (x1 : _)  :
    Moves m r (Sys2Proof.Machine.txDrop x0 x1 s) := by
  unfold Sys2Proof.Machine.txDrop
  repeat' first
    | with_reducible assumption
    | (with_reducible refine mask_sub hm ?_); exact rfl
    | with_reducible refine txRemove_moves ?_ ?_ _ _ _
    | with_reducible refine onPort_moves ?_ ?_ _ _

theorem txFinish_moves {m : Nat} {r s : State} (hm : 6226432 ||| m = m) (h : Moves m r s) (x0 : _) (x1 : _)  :
    Moves m r (Sys2Proof.Machine.txFinish x0 x1 s) := by
  unfold Sys2Proof.Machine.txFinish
  repeat' first
    | with_reducible assumption
    | (with_reducible refine mask_sub hm ?_); exact rfl
    | with_reducible refine txEnd_moves ?_ ?_ _ _ _
    | with_reducible refine onPort_moves ?_ ?_ _ _
    | with_reducible refine portCount_moves ?_ ?_ _ _ _ _
    | with_reducible refine Moves.ite ?_ ?_
    | with_reducible refine Moves.dite ?_ ?_
    | with_reducible refine Moves.ite_snd ?_ ?_
    | with_reducible refine Moves.foldl ?_ _ ?_
    | with_reducible refine Moves.foldl_snd ?_ _ ?_
    | with_reducible refine Moves.elim _ ?_ ?_
    | with_reducible intro _

end Sys2Proof.Laws
end

