-- ==== Sys2Proof/Laws/MovesBase.lean ====
section
/-!
SUPPORT. What each function of Machine/Operands, Access, Time, Foot may change, as `Moves`.
-/
namespace Sys2Proof.Laws
open Sys2Proof Sys2Proof.Machine

theorem footHist_moves {m : Nat} {r s : State} (hm : 262144 ||| m = m) (h : Moves m r s) (x0 : _)  :
    Moves m r (Sys2Proof.Machine.footHist x0 s) := by
  unfold Sys2Proof.Machine.footHist
  repeat' first
    | with_reducible assumption
    | with_reducible refine sticky_moves ?_ ?_ _ _

theorem cairnGapEnd_moves {m : Nat} {r s : State} (hm : 1310728 ||| m = m) (h : Moves m r s)   :
    Moves m r (Sys2Proof.Machine.cairnGapEnd s) := by
  unfold Sys2Proof.Machine.cairnGapEnd
  repeat' first
    | with_reducible assumption
    | (with_reducible refine mask_sub hm ?_); exact rfl
    | with_reducible refine trail_moves ?_ ?_ _ _
    | with_reducible refine Moves.ite ?_ ?_
    | with_reducible refine Moves.dite ?_ ?_
    | with_reducible refine Moves.ite_snd ?_ ?_
    | with_reducible refine Moves.foldl ?_ _ ?_
    | with_reducible refine Moves.foldl_snd ?_ _ ?_
    | with_reducible refine Moves.elim _ ?_ ?_
    | with_reducible intro _
    | with_reducible refine Moves.set_cairn ?_ ?_

theorem cairnRoom_moves {m : Nat} {r s : State} (hm : 589832 ||| m = m) (h : Moves m r s)   :
    Moves m r (Sys2Proof.Machine.cairnRoom s) := by
  unfold Sys2Proof.Machine.cairnRoom
  try dsimp only
  repeat' first
    | with_reducible assumption
    | (with_reducible refine mask_sub hm ?_); exact rfl
    | with_reducible refine raise_moves ?_ ?_ _
    | (with_reducible refine mbox_upd_on rfl ?_); intro _; rfl
    | with_reducible exact HostOn.same rfl
    | with_reducible refine Moves.ite ?_ ?_
    | with_reducible refine Moves.dite ?_ ?_
    | with_reducible refine Moves.ite_snd ?_ ?_
    | with_reducible refine Moves.foldl ?_ _ ?_
    | with_reducible refine Moves.foldl_snd ?_ _ ?_
    | with_reducible refine Moves.elim _ ?_ ?_
    | with_reducible intro _
    | split
    | with_reducible refine Moves.set_cairn_host ?_ ?_ ?_

theorem execCairnSignDone_moves {m : Nat} {r s : State} (hm : 25165402 ||| m = m) (h : Moves m r s) (x0 : _)  :
    MovesOut m r (Sys2Proof.Machine.execCairnSignDone x0 s) := by
  unfold Sys2Proof.Machine.execCairnSignDone
  try dsimp only
  repeat' first
    | with_reducible assumption
    | (with_reducible refine mask_sub hm ?_); exact rfl
    | with_reducible refine cairnGapEnd_moves ?_ ?_ 
    | with_reducible refine deliver_moves ?_ ?_ _ _
    | with_reducible refine cairnRoom_moves ?_ ?_ 
    | with_reducible refine faultEvent_moves ?_ ?_ _
    | with_reducible refine draw_moves ?_ ?_ 
    | with_reducible exact FlashOn.same rfl
    | with_reducible refine Moves.ite ?_ ?_
    | with_reducible refine Moves.dite ?_ ?_
    | with_reducible refine Moves.ite_snd ?_ ?_
    | with_reducible refine Moves.foldl ?_ _ ?_
    | with_reducible refine Moves.foldl_snd ?_ _ ?_
    | with_reducible refine Moves.elim _ ?_ ?_
    | with_reducible refine MovesOut.next ?_
    | with_reducible refine MovesOut.ite ?_ ?_
    | with_reducible intro _
    | split
    | with_reducible refine Moves.set_cairn_flash ?_ ?_ ?_

theorem icpFail_moves {m : Nat} {r s : State} (hm : 2031616 ||| m = m) (h : Moves m r s) (x0 : _) (x1 : _) (x2 : _) (x3 : _)  :
    Moves m r (Sys2Proof.Machine.icpFail x0 x1 x2 x3 s) := by
  unfold Sys2Proof.Machine.icpFail
  repeat' first
    | with_reducible assumption
    | (with_reducible refine mask_sub hm ?_); exact rfl
    | with_reducible refine deny_moves ?_ ?_ _ _ _
    | with_reducible refine complete_moves ?_ ?_ _ _ _ _
    | with_reducible refine Moves.ite ?_ ?_

theorem icp_moves {m : Nat} {r s : State} (hm : 2031616 ||| m = m) (h : Moves m r s) (x0 : _) (x1 : _) (x2 : _) (hx2 : ∀ s, Moves m r s → MovesRes m r (x2 s)) :
    MovesOut m r (Sys2Proof.Machine.icp x0 x1 x2 s) := by
  unfold Sys2Proof.Machine.icp
  have hb := hx2 s h
  refine .ite (.next h) ?_
  split
  · exact .next (icpFail_moves (mask_sub hm rfl) h _ _ _ _)
  · split
    · rename_i e; rw [e] at hb
      refine .ite (.next (icpFail_moves (mask_sub hm rfl) h _ _ _ _)) (.ite (.next (complete_moves (mask_sub hm rfl) hb _ _ _ _))
        (.ite (.next (icpFail_moves (mask_sub hm rfl) h _ _ _ _)) (.next (complete_moves (mask_sub hm rfl) hb _ _ _ _))))
    · rename_i e; rw [e] at hb
      exact .next hb

theorem icpDo_moves {m : Nat} {r s : State} (hm : 2031616 ||| m = m) (h : Moves m r s) (x0 : _) (x1 : _) (x2 : _) (x3 : _) (x4 : _) (hx3 : ∀ s, Moves m r s → Moves m r (x3 s)) :
    MovesOut m r (Sys2Proof.Machine.icpDo x0 x1 x2 x3 x4 s) := by
  unfold Sys2Proof.Machine.icpDo
  repeat' first
    | with_reducible assumption
    | with_reducible refine icp_moves ?_ ?_ _ _ _ ?_
    | with_reducible refine hx3 _ ?_
    | with_reducible refine Moves.ite ?_ ?_
    | with_reducible refine Moves.dite ?_ ?_
    | with_reducible refine Moves.ite_snd ?_ ?_
    | with_reducible refine Moves.foldl ?_ _ ?_
    | with_reducible refine Moves.foldl_snd ?_ _ ?_
    | with_reducible refine Moves.elim _ ?_ ?_
    | with_reducible refine MovesOut.next ?_
    | with_reducible refine MovesOut.ite ?_ ?_
    | with_reducible refine MovesRes.ite ?_ ?_
    | with_reducible refine MovesRes.done ?_
    | with_reducible refine MovesRes.later ?_
    | with_reducible intro _

theorem adoptUtc_moves {m : Nat} {r s : State} (hm : 4 ||| m = m) (h : Moves m r s) (x0 : _) (x1 : _)  :
    Moves m r (Sys2Proof.Machine.adoptUtc x0 x1 s) := by
  unfold Sys2Proof.Machine.adoptUtc
  try dsimp only
  repeat' first
    | with_reducible assumption
    | with_reducible refine Moves.ite ?_ ?_
    | with_reducible refine Moves.dite ?_ ?_
    | with_reducible refine Moves.ite_snd ?_ ?_
    | with_reducible refine Moves.foldl ?_ _ ?_
    | with_reducible refine Moves.foldl_snd ?_ _ ?_
    | with_reducible refine Moves.elim _ ?_ ?_
    | with_reducible intro _
    | split
    | with_reducible refine Moves.set_time ?_ ?_

theorem execTimeSlewCommit_moves {m : Nat} {r s : State} (hm : 262148 ||| m = m) (h : Moves m r s) (x0 : _)  :
    MovesOut m r (Sys2Proof.Machine.execTimeSlewCommit x0 s) := by
  unfold Sys2Proof.Machine.execTimeSlewCommit
  repeat' first
    | with_reducible assumption
    | (with_reducible refine mask_sub hm ?_); exact rfl
    | with_reducible refine sticky_moves ?_ ?_ _ _
    | with_reducible refine Moves.ite ?_ ?_
    | with_reducible refine Moves.dite ?_ ?_
    | with_reducible refine Moves.ite_snd ?_ ?_
    | with_reducible refine Moves.foldl ?_ _ ?_
    | with_reducible refine Moves.foldl_snd ?_ _ ?_
    | with_reducible refine Moves.elim _ ?_ ?_
    | with_reducible refine MovesOut.next ?_
    | with_reducible refine MovesOut.ite ?_ ?_
    | with_reducible intro _
    | with_reducible refine Moves.set_time ?_ ?_

theorem commitIncr_moves {m : Nat} {r s : State} (hm : 25116254 ||| m = m) (h : Moves m r s) (x0 : _)  :
    Moves m r (Sys2Proof.Machine.commitIncr x0 s) := by
  unfold Sys2Proof.Machine.commitIncr
  repeat' first
    | with_reducible assumption
    | (with_reducible refine mask_sub hm ?_); exact rfl
    | with_reducible refine sticky_moves ?_ ?_ _ _
    | with_reducible refine faultEvent_moves ?_ ?_ _
    | with_reducible refine Moves.ite ?_ ?_
    | with_reducible refine Moves.dite ?_ ?_
    | with_reducible refine Moves.ite_snd ?_ ?_
    | with_reducible refine Moves.foldl ?_ _ ?_
    | with_reducible refine Moves.foldl_snd ?_ _ ?_
    | with_reducible refine Moves.elim _ ?_ ?_
    | with_reducible intro _
    | with_reducible refine Moves.set_time ?_ ?_

theorem execTimeIncrCommit_moves {m : Nat} {r s : State} (hm : 25116254 ||| m = m) (h : Moves m r s) (x0 : _)  :
    MovesOut m r (Sys2Proof.Machine.execTimeIncrCommit x0 s) := by
  unfold Sys2Proof.Machine.execTimeIncrCommit
  repeat' first
    | with_reducible assumption
    | with_reducible refine commitIncr_moves ?_ ?_ _
    | with_reducible refine Moves.ite ?_ ?_
    | with_reducible refine Moves.dite ?_ ?_
    | with_reducible refine Moves.ite_snd ?_ ?_
    | with_reducible refine Moves.foldl ?_ _ ?_
    | with_reducible refine Moves.foldl_snd ?_ _ ?_
    | with_reducible refine Moves.elim _ ?_ ?_
    | with_reducible refine MovesOut.next ?_
    | with_reducible refine MovesOut.ite ?_ ?_

theorem snapGo_moves {m : Nat} {r s : State} (hm : 262148 ||| m = m) (h : Moves m r s) (x0 : _)  :
    Moves m r (Sys2Proof.Machine.snapGo x0 s) := by
  unfold Sys2Proof.Machine.snapGo
  repeat' first
    | with_reducible assumption
    | (with_reducible refine mask_sub hm ?_); exact rfl
    | with_reducible refine sticky_moves ?_ ?_ _ _
    | with_reducible refine atTick_moves ?_ ?_ _
    | with_reducible refine Moves.ite ?_ ?_
    | with_reducible refine Moves.dite ?_ ?_
    | with_reducible refine Moves.ite_snd ?_ ?_
    | with_reducible refine Moves.foldl ?_ _ ?_
    | with_reducible refine Moves.foldl_snd ?_ _ ?_
    | with_reducible refine Moves.elim _ ?_ ?_
    | with_reducible intro _
    | with_reducible refine Moves.set_time ?_ ?_

theorem countReg_moves {m : Nat} {r s : State} (hm : 4194304 ||| m = m) (h : Moves m r s) (x0 : _) (x1 : _) (x2 : _)  :
    Moves m r (Sys2Proof.Machine.countReg x0 x1 x2 s) := by
  unfold Sys2Proof.Machine.countReg
  try dsimp only
  repeat' first
    | with_reducible assumption
    | with_reducible refine count_moves ?_ ?_ _ _
    | with_reducible refine Moves.ite ?_ ?_
    | with_reducible refine Moves.dite ?_ ?_
    | with_reducible refine Moves.ite_snd ?_ ?_
    | with_reducible refine Moves.foldl ?_ _ ?_
    | with_reducible refine Moves.foldl_snd ?_ _ ?_
    | with_reducible refine Moves.elim _ ?_ ?_
    | with_reducible intro _
    | split

theorem denyAccess_moves {m : Nat} {r s : State} (hm : 2031616 ||| m = m) (h : Moves m r s) (x0 : _) (x1 : _) (x2 : _)  :
    Moves m r (Sys2Proof.Machine.denyAccess x0 x1 x2 s) := by
  unfold Sys2Proof.Machine.denyAccess
  repeat' first
    | with_reducible assumption
    | with_reducible refine deny_moves ?_ ?_ _ _ _
    | with_reducible refine Moves.ite ?_ ?_
    | with_reducible refine Moves.dite ?_ ?_
    | with_reducible refine Moves.ite_snd ?_ ?_
    | with_reducible refine Moves.foldl ?_ _ ?_
    | with_reducible refine Moves.foldl_snd ?_ _ ?_
    | with_reducible refine Moves.elim _ ?_ ?_
    | with_reducible intro _

theorem writeBy_moves {m : Nat} {r s : State} (hm : 6225920 ||| m = m) (h : Moves m r s) (x0 : _) (x1 : _) (x2 : _) (hx2 : ∀ s, Moves m r s → Moves m r (x2 s)) :
    Moves m r (Sys2Proof.Machine.writeBy x0 x1 x2 s) := by
  unfold Sys2Proof.Machine.writeBy
  try dsimp only
  repeat' first
    | with_reducible assumption
    | (with_reducible refine mask_sub hm ?_); exact rfl
    | with_reducible refine countReg_moves ?_ ?_ _ _ _
    | with_reducible refine denyAccess_moves ?_ ?_ _ _ _
    | with_reducible refine hx2 _ ?_
    | with_reducible refine Moves.ite ?_ ?_
    | with_reducible refine Moves.dite ?_ ?_
    | with_reducible refine Moves.ite_snd ?_ ?_
    | with_reducible refine Moves.foldl ?_ _ ?_
    | with_reducible refine Moves.foldl_snd ?_ _ ?_
    | with_reducible refine Moves.elim _ ?_ ?_
    | with_reducible intro _
    | split

theorem reportNow_moves {m : Nat} {r s : State} (hm : 262144 ||| m = m) (h : Moves m r s) (x0 : _) (x1 : _)  :
    Moves m r (Sys2Proof.Machine.reportNow x0 x1 s) := by
  unfold Sys2Proof.Machine.reportNow
  repeat' first
    | with_reducible assumption
    | with_reducible refine stickyField_after _ _ _ _ _ _ ?_
    | with_reducible refine stickyRegs_after _ _ _ ?_
    | with_reducible exact RegsOn.refl _
    | with_reducible exact RegsOn.same rfl
    | with_reducible refine Moves.ite ?_ ?_
    | with_reducible refine Moves.dite ?_ ?_
    | with_reducible refine Moves.ite_snd ?_ ?_
    | with_reducible refine Moves.foldl ?_ _ ?_
    | with_reducible refine Moves.foldl_snd ?_ _ ?_
    | with_reducible refine Moves.elim _ ?_ ?_
    | with_reducible intro _
    | with_reducible refine Moves.set_regs ?_ ?_ ?_

theorem stickyTake_moves {m : Nat} {r s : State} (hm : 262144 ||| m = m) (h : Moves m r s) (x0 : _) (x1 : _)  :
    Moves m r (Sys2Proof.Machine.stickyTake x0 x1 s) := by
  unfold Sys2Proof.Machine.stickyTake
  repeat' first
    | with_reducible assumption
    | with_reducible refine reportNow_moves ?_ ?_ _ _
    | with_reducible refine stickyField_after _ _ _ _ _ _ ?_
    | with_reducible refine stickyRegs_after _ _ _ ?_
    | with_reducible exact RegsOn.refl _
    | exact fun e => mwf_mset _ _ _ _ e
    | with_reducible exact RegsOn.same rfl
    | with_reducible refine Moves.ite ?_ ?_
    | with_reducible refine Moves.dite ?_ ?_
    | with_reducible refine Moves.ite_snd ?_ ?_
    | with_reducible refine Moves.foldl ?_ _ ?_
    | with_reducible refine Moves.foldl_snd ?_ _ ?_
    | with_reducible refine Moves.elim _ ?_ ?_
    | with_reducible intro _
    | with_reducible refine Moves.set_regs ?_ ?_ ?_

theorem shadowSet_moves {m : Nat} {r s : State} (hm : 262144 ||| m = m) (h : Moves m r s) (x0 : _) (x1 : _) (x2 : _)  :
    Moves m r (Sys2Proof.Machine.shadowSet x0 x1 x2 s) := by
  unfold Sys2Proof.Machine.shadowSet
  repeat' first
    | with_reducible assumption
    | with_reducible refine stickyField_after _ _ _ _ _ _ ?_
    | with_reducible refine stickyRegs_after _ _ _ ?_
    | with_reducible exact RegsOn.refl _
    | with_reducible exact RegsOn.same rfl
    | with_reducible refine Moves.ite ?_ ?_
    | with_reducible refine Moves.dite ?_ ?_
    | with_reducible refine Moves.ite_snd ?_ ?_
    | with_reducible refine Moves.foldl ?_ _ ?_
    | with_reducible refine Moves.foldl_snd ?_ _ ?_
    | with_reducible refine Moves.elim _ ?_ ?_
    | with_reducible intro _
    | with_reducible refine Moves.set_regs ?_ ?_ ?_

theorem give_moves {m : Nat} {r s : State} (hm : 65536 ||| m = m) (h : Moves m r s) (x0 : _) (x1 : _)  :
    Moves m r (Sys2Proof.Machine.give x0 x1 s) := by
  unfold Sys2Proof.Machine.give
  repeat' first
    | with_reducible assumption
    | with_reducible exact HostOn.same rfl
    | with_reducible refine Moves.ite ?_ ?_
    | with_reducible refine Moves.dite ?_ ?_
    | with_reducible refine Moves.ite_snd ?_ ?_
    | with_reducible refine Moves.foldl ?_ _ ?_
    | with_reducible refine Moves.foldl_snd ?_ _ ?_
    | with_reducible refine Moves.elim _ ?_ ?_
    | with_reducible intro _
    | with_reducible refine Moves.set_host ?_ ?_ ?_

theorem readBy_moves {m : Nat} {r s : State} (hm : 6225920 ||| m = m) (h : Moves m r s) (x0 : _) (x1 : _) (x2 : _) (hx2 : ∀ s, Moves m r s → Moves m r (x2 s).2) :
    Moves m r (Sys2Proof.Machine.readBy x0 x1 x2 s) := by
  unfold Sys2Proof.Machine.readBy
  try dsimp only
  repeat' first
    | with_reducible assumption
    | (with_reducible refine mask_sub hm ?_); exact rfl
    | with_reducible refine countReg_moves ?_ ?_ _ _ _
    | with_reducible refine denyAccess_moves ?_ ?_ _ _ _
    | with_reducible refine give_moves ?_ ?_ _ _
    | with_reducible refine hx2 _ ?_
    | with_reducible refine Moves.ite ?_ ?_
    | with_reducible refine Moves.dite ?_ ?_
    | with_reducible refine Moves.ite_snd ?_ ?_
    | with_reducible refine Moves.foldl ?_ _ ?_
    | with_reducible refine Moves.foldl_snd ?_ _ ?_
    | with_reducible refine Moves.elim _ ?_ ?_
    | with_reducible intro _
    | split

theorem execSnapshotRead_moves {m : Nat} {r s : State} (hm : 6225924 ||| m = m) (h : Moves m r s) (x0 : _)  :
    MovesOut m r (Sys2Proof.Machine.execSnapshotRead x0 s) := by
  unfold Sys2Proof.Machine.execSnapshotRead
  repeat' first
    | with_reducible assumption
    | (with_reducible refine mask_sub hm ?_); exact rfl
    | with_reducible refine readBy_moves ?_ ?_ _ _ _ ?_
    | with_reducible refine Moves.ite ?_ ?_
    | with_reducible refine Moves.dite ?_ ?_
    | with_reducible refine Moves.ite_snd ?_ ?_
    | with_reducible refine Moves.foldl ?_ _ ?_
    | with_reducible refine Moves.foldl_snd ?_ _ ?_
    | with_reducible refine Moves.elim _ ?_ ?_
    | with_reducible refine MovesOut.next ?_
    | with_reducible refine MovesOut.ite ?_ ?_
    | with_reducible intro _
    | with_reducible refine Moves.set_time ?_ ?_

theorem execOdometerRead_moves {m : Nat} {r s : State} (hm : 6225924 ||| m = m) (h : Moves m r s) (x0 : _) (x1 : _)  :
    MovesOut m r (Sys2Proof.Machine.execOdometerRead x0 x1 s) := by
  unfold Sys2Proof.Machine.execOdometerRead
  repeat' first
    | with_reducible assumption
    | (with_reducible refine mask_sub hm ?_); exact rfl
    | with_reducible refine atTick_moves ?_ ?_ _
    | with_reducible refine readBy_moves ?_ ?_ _ _ _ ?_
    | with_reducible refine Moves.ite ?_ ?_
    | with_reducible refine Moves.dite ?_ ?_
    | with_reducible refine Moves.ite_snd ?_ ?_
    | with_reducible refine Moves.foldl ?_ _ ?_
    | with_reducible refine Moves.foldl_snd ?_ _ ?_
    | with_reducible refine Moves.elim _ ?_ ?_
    | with_reducible refine MovesOut.next ?_
    | with_reducible refine MovesOut.ite ?_ ?_
    | with_reducible intro _
    | with_reducible refine Moves.set_time ?_ ?_

theorem execNowLatchRead_moves {m : Nat} {r s : State} (hm : 6225924 ||| m = m) (h : Moves m r s) (x0 : _) (x1 : _)  :
    MovesOut m r (Sys2Proof.Machine.execNowLatchRead x0 x1 s) := by
  unfold Sys2Proof.Machine.execNowLatchRead
  repeat' first
    | with_reducible assumption
    | (with_reducible refine mask_sub hm ?_); exact rfl
    | with_reducible refine atTick_moves ?_ ?_ _
    | with_reducible refine readBy_moves ?_ ?_ _ _ _ ?_
    | with_reducible refine Moves.ite ?_ ?_
    | with_reducible refine Moves.dite ?_ ?_
    | with_reducible refine Moves.ite_snd ?_ ?_
    | with_reducible refine Moves.foldl ?_ _ ?_
    | with_reducible refine Moves.foldl_snd ?_ _ ?_
    | with_reducible refine Moves.elim _ ?_ ?_
    | with_reducible refine MovesOut.next ?_
    | with_reducible refine MovesOut.ite ?_ ?_
    | with_reducible intro _
    | with_reducible refine Moves.set_time ?_ ?_

theorem handoverFlag_moves {m : Nat} {r s : State} (hm : 25116250 ||| m = m) (h : Moves m r s)   :
    Moves m r (Sys2Proof.Machine.handoverFlag s) := by
  unfold Sys2Proof.Machine.handoverFlag
  repeat' first
    | with_reducible assumption
    | (with_reducible refine mask_sub hm ?_); exact rfl
    | with_reducible refine footHist_moves ?_ ?_ _
    | with_reducible refine raise_moves ?_ ?_ _
    | with_reducible refine faultEvent_moves ?_ ?_ _

theorem handoverFail_moves {m : Nat} {r s : State} (hm : 25116250 ||| m = m) (h : Moves m r s)   :
    Moves m r (Sys2Proof.Machine.handoverFail s) := by
  unfold Sys2Proof.Machine.handoverFail
  try dsimp only
  repeat' first
    | with_reducible assumption
    | (with_reducible refine mask_sub hm ?_); exact rfl
    | with_reducible refine handoverEnd_moves ?_ ?_ _
    | with_reducible refine relinquish_moves ?_ ?_ _ _
    | with_reducible refine handoverFlag_moves ?_ ?_ 
    | with_reducible refine Moves.ite ?_ ?_
    | with_reducible refine Moves.dite ?_ ?_
    | with_reducible refine Moves.ite_snd ?_ ?_
    | with_reducible refine Moves.foldl ?_ _ ?_
    | with_reducible refine Moves.foldl_snd ?_ _ ?_
    | with_reducible refine Moves.elim _ ?_ ?_
    | with_reducible intro _
    | split
    | with_reducible refine Moves.set_foot ?_ ?_

theorem execAcceptTimeout_moves {m : Nat} {r s : State} (hm : 25116250 ||| m = m) (h : Moves m r s) (x0 : _)  :
    MovesOut m r (Sys2Proof.Machine.execAcceptTimeout x0 s) := by
  unfold Sys2Proof.Machine.execAcceptTimeout
  repeat' first
    | with_reducible assumption
    | (with_reducible refine mask_sub hm ?_); exact rfl
    | with_reducible refine atCk_moves ?_ ?_ _
    | with_reducible refine handoverFail_moves ?_ ?_ 
    | with_reducible refine Moves.ite ?_ ?_
    | with_reducible refine Moves.dite ?_ ?_
    | with_reducible refine Moves.ite_snd ?_ ?_
    | with_reducible refine Moves.foldl ?_ _ ?_
    | with_reducible refine Moves.foldl_snd ?_ _ ?_
    | with_reducible refine Moves.elim _ ?_ ?_
    | with_reducible refine MovesOut.next ?_

theorem execIcpCairnConfig_moves {m : Nat} {r s : State} (hm : 2031624 ||| m = m) (h : Moves m r s) (x0 : _) (x1 : _) (x2 : _) (x3 : _) (x4 : _)  :
    MovesOut m r (Sys2Proof.Machine.execIcpCairnConfig x0 x1 x2 x3 x4 s) := by
  unfold Sys2Proof.Machine.execIcpCairnConfig
  repeat' first
    | with_reducible assumption
    | (with_reducible refine mask_sub hm ?_); exact rfl
    | with_reducible refine icpDo_moves ?_ ?_ _ _ _ _ _ ?_
    | with_reducible refine Moves.ite ?_ ?_
    | with_reducible refine Moves.self ?_
    | with_reducible refine Moves.dite ?_ ?_
    | with_reducible refine Moves.ite_snd ?_ ?_
    | with_reducible refine Moves.foldl ?_ _ ?_
    | with_reducible refine Moves.foldl_snd ?_ _ ?_
    | with_reducible refine Moves.elim _ ?_ ?_
    | with_reducible refine MovesOut.next ?_
    | with_reducible refine MovesOut.ite ?_ ?_
    | with_reducible intro _
    | with_reducible refine Moves.set_cairn ?_ ?_

theorem sendFrame_moves {m : Nat} {r s : State} (hm : 8192 ||| m = m) (h : Moves m r s) (x0 : _) (x1 : _)  :
    Moves m r (Sys2Proof.Machine.sendFrame x0 x1 s) := by
  unfold Sys2Proof.Machine.sendFrame
  repeat' first
    | with_reducible assumption
    | with_reducible refine Moves.ite ?_ ?_
    | with_reducible refine Moves.dite ?_ ?_
    | with_reducible refine Moves.ite_snd ?_ ?_
    | with_reducible refine Moves.foldl ?_ _ ?_
    | with_reducible refine Moves.foldl_snd ?_ _ ?_
    | with_reducible refine Moves.elim _ ?_ ?_
    | with_reducible intro _
    | with_reducible refine Moves.set_foot ?_ ?_

theorem icpGet_moves {m : Nat} {r s : State} (hm : 2031616 ||| m = m) (h : Moves m r s) (x0 : _) (x1 : _) (x2 : _)  :
    MovesOut m r (Sys2Proof.Machine.icpGet x0 x1 x2 s) := by
  unfold Sys2Proof.Machine.icpGet
  repeat' first
    | with_reducible assumption
    | with_reducible refine icp_moves ?_ ?_ _ _ _ ?_
    | with_reducible refine Moves.ite ?_ ?_
    | with_reducible refine Moves.dite ?_ ?_
    | with_reducible refine Moves.ite_snd ?_ ?_
    | with_reducible refine Moves.foldl ?_ _ ?_
    | with_reducible refine Moves.foldl_snd ?_ _ ?_
    | with_reducible refine Moves.elim _ ?_ ?_
    | with_reducible refine MovesOut.next ?_
    | with_reducible refine MovesOut.ite ?_ ?_
    | with_reducible refine MovesRes.ite ?_ ?_
    | with_reducible refine MovesRes.done ?_
    | with_reducible refine MovesRes.later ?_
    | with_reducible intro _

theorem execIcpFbAsym_moves {m : Nat} {r s : State} (hm : 2039808 ||| m = m) (h : Moves m r s) (x0 : _) (x1 : _)  :
    MovesOut m r (Sys2Proof.Machine.execIcpFbAsym x0 x1 s) := by
  unfold Sys2Proof.Machine.execIcpFbAsym
  repeat' first
    | with_reducible assumption
    | (with_reducible refine mask_sub hm ?_); exact rfl
    | with_reducible refine icpDo_moves ?_ ?_ _ _ _ _ _ ?_
    | with_reducible refine Moves.ite ?_ ?_
    | with_reducible refine Moves.self ?_
    | with_reducible refine Moves.dite ?_ ?_
    | with_reducible refine Moves.ite_snd ?_ ?_
    | with_reducible refine Moves.foldl ?_ _ ?_
    | with_reducible refine Moves.foldl_snd ?_ _ ?_
    | with_reducible refine Moves.elim _ ?_ ?_
    | with_reducible refine MovesOut.next ?_
    | with_reducible refine MovesOut.ite ?_ ?_
    | with_reducible intro _
    | with_reducible refine Moves.set_foot ?_ ?_

theorem applyLeap_moves {m : Nat} {r s : State} (hm : 851980 ||| m = m) (h : Moves m r s)   :
    Moves m r (Sys2Proof.Machine.applyLeap s) := by
  unfold Sys2Proof.Machine.applyLeap
  try dsimp only
  repeat' first
    | with_reducible assumption
    | (with_reducible refine mask_sub hm ?_); exact rfl
    | with_reducible refine sticky_moves ?_ ?_ _ _
    | with_reducible refine raise_moves ?_ ?_ _
    | with_reducible refine cairnEvent_moves ?_ ?_ 
    | with_reducible refine Moves.ite ?_ ?_
    | with_reducible refine Moves.dite ?_ ?_
    | with_reducible refine Moves.ite_snd ?_ ?_
    | with_reducible refine Moves.foldl ?_ _ ?_
    | with_reducible refine Moves.foldl_snd ?_ _ ?_
    | with_reducible refine Moves.elim _ ?_ ?_
    | with_reducible intro _
    | split
    | with_reducible refine Moves.set_time ?_ ?_

theorem cairnRecord_moves {m : Nat} {r s : State} (hm : 8 ||| m = m) (h : Moves m r s) (x0 : _)  :
    Moves m r (Sys2Proof.Machine.cairnRecord x0 s) := by
  unfold Sys2Proof.Machine.cairnRecord
  repeat' first
    | with_reducible assumption
    | with_reducible refine Moves.ite ?_ ?_
    | with_reducible refine Moves.dite ?_ ?_
    | with_reducible refine Moves.ite_snd ?_ ?_
    | with_reducible refine Moves.foldl ?_ _ ?_
    | with_reducible refine Moves.foldl_snd ?_ _ ?_
    | with_reducible refine Moves.elim _ ?_ ?_
    | with_reducible intro _
    | with_reducible refine Moves.set_cairn ?_ ?_

theorem execIcpCairnLast_moves {m : Nat} {r s : State} (hm : 2031616 ||| m = m) (h : Moves m r s) (x0 : _)  :
    MovesOut m r (Sys2Proof.Machine.execIcpCairnLast x0 s) := by
  unfold Sys2Proof.Machine.execIcpCairnLast
  repeat' first
    | with_reducible assumption
    | with_reducible refine icpDo_moves ?_ ?_ _ _ _ _ _ ?_
    | with_reducible refine Moves.ite ?_ ?_
    | with_reducible refine Moves.self ?_
    | with_reducible refine Moves.dite ?_ ?_
    | with_reducible refine Moves.ite_snd ?_ ?_
    | with_reducible refine Moves.foldl ?_ _ ?_
    | with_reducible refine Moves.foldl_snd ?_ _ ?_
    | with_reducible refine Moves.elim _ ?_ ?_
    | with_reducible refine MovesOut.next ?_
    | with_reducible refine MovesOut.ite ?_ ?_
    | with_reducible intro _

theorem hbAck_moves {m : Nat} {r s : State} (hm : 8192 ||| m = m) (h : Moves m r s) (x0 : _)  :
    Moves m r (Sys2Proof.Machine.hbAck x0 s) := by
  unfold Sys2Proof.Machine.hbAck
  repeat' first
    | with_reducible assumption
    | with_reducible refine Moves.ite ?_ ?_
    | with_reducible refine Moves.dite ?_ ?_
    | with_reducible refine Moves.ite_snd ?_ ?_
    | with_reducible refine Moves.foldl ?_ _ ?_
    | with_reducible refine Moves.foldl_snd ?_ _ ?_
    | with_reducible refine Moves.elim _ ?_ ?_
    | with_reducible intro _
    | with_reducible refine Moves.set_foot ?_ ?_

theorem handoverDone_moves {m : Nat} {r s : State} (hm : 17637376 ||| m = m) (h : Moves m r s)   :
    Moves m r (Sys2Proof.Machine.handoverDone s) := by
  unfold Sys2Proof.Machine.handoverDone
  repeat' first
    | with_reducible assumption
    | (with_reducible refine mask_sub hm ?_); exact rfl
    | with_reducible refine footHist_moves ?_ ?_ _
    | with_reducible refine raise_moves ?_ ?_ _
    | with_reducible refine handoverEnd_moves ?_ ?_ _
    | with_reducible refine Moves.ite ?_ ?_
    | with_reducible refine Moves.dite ?_ ?_
    | with_reducible refine Moves.ite_snd ?_ ?_
    | with_reducible refine Moves.foldl ?_ _ ?_
    | with_reducible refine Moves.foldl_snd ?_ _ ?_
    | with_reducible refine Moves.elim _ ?_ ?_
    | with_reducible intro _
    | with_reducible refine Moves.set_foot ?_ ?_

theorem conflictFlag_moves {m : Nat} {r s : State} (hm : 25116250 ||| m = m) (h : Moves m r s)   :
    Moves m r (Sys2Proof.Machine.conflictFlag s) := by
  unfold Sys2Proof.Machine.conflictFlag
  repeat' first
    | with_reducible assumption
    | (with_reducible refine mask_sub hm ?_); exact rfl
    | with_reducible refine footHist_moves ?_ ?_ _
    | with_reducible refine faultCond_moves ?_ ?_ _ _
    | with_reducible refine raise_moves ?_ ?_ _

theorem holderConflict_moves {m : Nat} {r s : State} (hm : 25116250 ||| m = m) (h : Moves m r s)   :
    Moves m r (Sys2Proof.Machine.holderConflict s) := by
  unfold Sys2Proof.Machine.holderConflict
  repeat' first
    | with_reducible assumption
    | (with_reducible refine mask_sub hm ?_); exact rfl
    | with_reducible refine relinquish_moves ?_ ?_ _ _
    | with_reducible refine conflictFlag_moves ?_ ?_ 
    | with_reducible refine Moves.ite ?_ ?_
    | with_reducible refine Moves.dite ?_ ?_
    | with_reducible refine Moves.ite_snd ?_ ?_
    | with_reducible refine Moves.foldl ?_ _ ?_
    | with_reducible refine Moves.foldl_snd ?_ _ ?_
    | with_reducible refine Moves.elim _ ?_ ?_
    | with_reducible intro _
    | with_reducible refine Moves.set_foot ?_ ?_

theorem hbLease_moves {m : Nat} {r s : State} (hm : 25116250 ||| m = m) (h : Moves m r s) (x0 : _) (x1 : _)  :
    Moves m r (Sys2Proof.Machine.hbLease x0 x1 s) := by
  unfold Sys2Proof.Machine.hbLease
  repeat' first
    | with_reducible assumption
    | (with_reducible refine mask_sub hm ?_); exact rfl
    | with_reducible refine handoverDone_moves ?_ ?_ 
    | with_reducible refine holderConflict_moves ?_ ?_ 
    | with_reducible refine Moves.ite ?_ ?_
    | with_reducible refine Moves.dite ?_ ?_
    | with_reducible refine Moves.ite_snd ?_ ?_
    | with_reducible refine Moves.foldl ?_ _ ?_
    | with_reducible refine Moves.foldl_snd ?_ _ ?_
    | with_reducible refine Moves.elim _ ?_ ?_
    | with_reducible intro _
    | with_reducible refine Moves.set_foot ?_ ?_

theorem setErrb_moves {m : Nat} {r s : State} (hm : 589836 ||| m = m) (h : Moves m r s) (x0 : _)  :
    Moves m r (Sys2Proof.Machine.setErrb x0 s) := by
  unfold Sys2Proof.Machine.setErrb
  repeat' first
    | with_reducible assumption
    | (with_reducible refine mask_sub hm ?_); exact rfl
    | with_reducible refine raise_moves ?_ ?_ _
    | with_reducible refine Moves.ite ?_ ?_
    | with_reducible refine Moves.dite ?_ ?_
    | with_reducible refine Moves.ite_snd ?_ ?_
    | with_reducible refine Moves.foldl ?_ _ ?_
    | with_reducible refine Moves.foldl_snd ?_ _ ?_
    | with_reducible refine Moves.elim _ ?_ ?_
    | with_reducible intro _
    | with_reducible refine Moves.set_time_cairn ?_ ?_

theorem hbPhase_moves {m : Nat} {r s : State} (hm : 8208 ||| m = m) (h : Moves m r s) (x0 : _)  :
    Moves m r (Sys2Proof.Machine.hbPhase x0 s) := by
  unfold Sys2Proof.Machine.hbPhase
  try dsimp only
  repeat' first
    | with_reducible assumption
    | (with_reducible refine mask_sub hm ?_); exact rfl
    | with_reducible refine pushMeas_moves ?_ ?_ _ _ _ _
    | with_reducible refine Moves.ite ?_ ?_
    | with_reducible refine Moves.dite ?_ ?_
    | with_reducible refine Moves.ite_snd ?_ ?_
    | with_reducible refine Moves.foldl ?_ _ ?_
    | with_reducible refine Moves.foldl_snd ?_ _ ?_
    | with_reducible refine Moves.elim _ ?_ ?_
    | with_reducible intro _
    | split
    | with_reducible refine Moves.set_foot ?_ ?_

theorem footLinkDown_moves {m : Nat} {r s : State} (hm : 25116250 ||| m = m) (h : Moves m r s)   :
    Moves m r (Sys2Proof.Machine.footLinkDown s) := by
  unfold Sys2Proof.Machine.footLinkDown
  repeat' first
    | with_reducible assumption
    | (with_reducible refine mask_sub hm ?_); exact rfl
    | with_reducible refine footHist_moves ?_ ?_ _
    | with_reducible refine raise_moves ?_ ?_ _
    | with_reducible refine faultCond_moves ?_ ?_ _ _
    | with_reducible refine Moves.ite ?_ ?_
    | with_reducible refine Moves.dite ?_ ?_
    | with_reducible refine Moves.ite_snd ?_ ?_
    | with_reducible refine Moves.foldl ?_ _ ?_
    | with_reducible refine Moves.foldl_snd ?_ _ ?_
    | with_reducible refine Moves.elim _ ?_ ?_
    | with_reducible intro _
    | with_reducible refine Moves.set_foot ?_ ?_

theorem announceOn_moves {m : Nat} {r s : State} (hm : 6227456 ||| m = m) (h : Moves m r s) (x0 : _)  :
    Moves m r (Sys2Proof.Machine.announceOn x0 s) := by
  unfold Sys2Proof.Machine.announceOn
  repeat' first
    | with_reducible assumption
    | with_reducible refine ctlSend_moves ?_ ?_ _ _
    | with_reducible refine Moves.ite ?_ ?_
    | with_reducible refine Moves.dite ?_ ?_
    | with_reducible refine Moves.ite_snd ?_ ?_
    | with_reducible refine Moves.foldl ?_ _ ?_
    | with_reducible refine Moves.foldl_snd ?_ _ ?_
    | with_reducible refine Moves.elim _ ?_ ?_
    | with_reducible intro _

theorem execAddressAnnounceRound_moves {m : Nat} {r s : State} (hm : 6235652 ||| m = m) (h : Moves m r s)   :
    MovesOut m r (Sys2Proof.Machine.execAddressAnnounceRound s) := by
  unfold Sys2Proof.Machine.execAddressAnnounceRound
  repeat' first
    | with_reducible assumption
    | (with_reducible refine mask_sub hm ?_); exact rfl
    | with_reducible refine raise_moves ?_ ?_ _
    | with_reducible refine announceOn_moves ?_ ?_ _
    | with_reducible refine atQ_moves ?_ ?_ _
    | with_reducible refine Moves.ite ?_ ?_
    | with_reducible refine Moves.dite ?_ ?_
    | with_reducible refine Moves.ite_snd ?_ ?_
    | with_reducible refine Moves.foldl ?_ _ ?_
    | with_reducible refine Moves.foldl_snd ?_ _ ?_
    | with_reducible refine Moves.elim _ ?_ ?_
    | with_reducible refine MovesOut.next ?_
    | with_reducible refine MovesOut.ite ?_ ?_
    | with_reducible intro _
    | with_reducible refine Moves.set_foot ?_ ?_

theorem execIcpFbStatus_moves {m : Nat} {r s : State} (hm : 2031616 ||| m = m) (h : Moves m r s) (x0 : _)  :
    MovesOut m r (Sys2Proof.Machine.execIcpFbStatus x0 s) := by
  unfold Sys2Proof.Machine.execIcpFbStatus
  repeat' first
    | with_reducible assumption
    | with_reducible refine icpGet_moves ?_ ?_ _ _ _

theorem conflictCheck_moves {m : Nat} {r s : State} (hm : 25116250 ||| m = m) (h : Moves m r s)   :
    Moves m r (Sys2Proof.Machine.conflictCheck s) := by
  unfold Sys2Proof.Machine.conflictCheck
  repeat' first
    | with_reducible assumption
    | with_reducible refine faultCond_moves ?_ ?_ _ _
    | with_reducible refine Moves.ite ?_ ?_

theorem execLeaseRelinquish_moves {m : Nat} {r s : State} (hm : 25116254 ||| m = m) (h : Moves m r s) (x0 : _) (x1 : _)  :
    MovesOut m r (Sys2Proof.Machine.execLeaseRelinquish x0 x1 s) := by
  unfold Sys2Proof.Machine.execLeaseRelinquish
  try dsimp only
  repeat' first
    | with_reducible assumption
    | (with_reducible refine mask_sub hm ?_); exact rfl
    | with_reducible refine setOe_moves ?_ ?_ _
    | with_reducible refine footHist_moves ?_ ?_ _
    | with_reducible refine raise_moves ?_ ?_ _
    | with_reducible refine conflictCheck_moves ?_ ?_ 
    | with_reducible refine relinquish_moves ?_ ?_ _ _
    | with_reducible refine atTick_moves ?_ ?_ _
    | with_reducible refine atCk_moves ?_ ?_ _
    | with_reducible refine Moves.ite ?_ ?_
    | with_reducible refine Moves.dite ?_ ?_
    | with_reducible refine Moves.ite_snd ?_ ?_
    | with_reducible refine Moves.foldl ?_ _ ?_
    | with_reducible refine Moves.foldl_snd ?_ _ ?_
    | with_reducible refine Moves.elim _ ?_ ?_
    | with_reducible refine MovesOut.next ?_
    | with_reducible refine MovesOut.ite ?_ ?_
    | with_reducible intro _
    | split

theorem leaseTake_moves {m : Nat} {r s : State} (hm : 1908760 ||| m = m) (h : Moves m r s) (x0 : _)  :
    Moves m r (Sys2Proof.Machine.leaseTake x0 s) := by
  unfold Sys2Proof.Machine.leaseTake
  repeat' first
    | with_reducible assumption
    | (with_reducible refine mask_sub hm ?_); exact rfl
    | with_reducible refine permitClose_moves ?_ ?_ 
    | with_reducible refine trail_moves ?_ ?_ _ _
    | with_reducible refine footHist_moves ?_ ?_ _
    | with_reducible refine cairnEvent_moves ?_ ?_ 
    | with_reducible refine raise_moves ?_ ?_ _
    | with_reducible refine lanternFast_moves ?_ ?_ 
    | with_reducible refine Moves.ite ?_ ?_
    | with_reducible refine Moves.dite ?_ ?_
    | with_reducible refine Moves.ite_snd ?_ ?_
    | with_reducible refine Moves.foldl ?_ _ ?_
    | with_reducible refine Moves.foldl_snd ?_ _ ?_
    | with_reducible refine Moves.elim _ ?_ ?_
    | with_reducible intro _
    | with_reducible refine Moves.set_foot ?_ ?_

theorem takeDue_moves {m : Nat} {r s : State} (hm : 1908760 ||| m = m) (h : Moves m r s) (x0 : _)  :
    Moves m r (Sys2Proof.Machine.takeDue x0 s) := by
  unfold Sys2Proof.Machine.takeDue
  repeat' first
    | with_reducible assumption
    | (with_reducible refine mask_sub hm ?_); exact rfl
    | with_reducible refine leaseTake_moves ?_ ?_ _
    | with_reducible refine Moves.ite ?_ ?_
    | with_reducible refine Moves.dite ?_ ?_
    | with_reducible refine Moves.ite_snd ?_ ?_
    | with_reducible refine Moves.foldl ?_ _ ?_
    | with_reducible refine Moves.foldl_snd ?_ _ ?_
    | with_reducible refine Moves.elim _ ?_ ?_
    | with_reducible intro _
    | with_reducible refine Moves.set_foot ?_ ?_

theorem execIcpFbTake_moves {m : Nat} {r s : State} (hm : 2039832 ||| m = m) (h : Moves m r s) (x0 : _) (x1 : _)  :
    MovesOut m r (Sys2Proof.Machine.execIcpFbTake x0 x1 s) := by
  unfold Sys2Proof.Machine.execIcpFbTake
  repeat' first
    | with_reducible assumption
    | (with_reducible refine mask_sub hm ?_); exact rfl
    | with_reducible refine takeDue_moves ?_ ?_ _
    | with_reducible refine icpDo_moves ?_ ?_ _ _ _ _ _ ?_
    | with_reducible refine Moves.ite ?_ ?_
    | with_reducible refine Moves.self ?_
    | with_reducible refine Moves.dite ?_ ?_
    | with_reducible refine Moves.ite_snd ?_ ?_
    | with_reducible refine Moves.foldl ?_ _ ?_
    | with_reducible refine Moves.foldl_snd ?_ _ ?_
    | with_reducible refine Moves.elim _ ?_ ?_
    | with_reducible refine MovesOut.next ?_
    | with_reducible refine MovesOut.ite ?_ ?_
    | with_reducible intro _

theorem startHandover_moves {m : Nat} {r s : State} (hm : 8192 ||| m = m) (h : Moves m r s) (x0 : _) (x1 : _)  :
    Moves m r (Sys2Proof.Machine.startHandover x0 x1 s) := by
  unfold Sys2Proof.Machine.startHandover
  repeat' first
    | with_reducible assumption
    | with_reducible refine sendFrame_moves ?_ ?_ _ _
    | with_reducible refine Moves.ite ?_ ?_
    | with_reducible refine Moves.dite ?_ ?_
    | with_reducible refine Moves.ite_snd ?_ ?_
    | with_reducible refine Moves.foldl ?_ _ ?_
    | with_reducible refine Moves.foldl_snd ?_ _ ?_
    | with_reducible refine Moves.elim _ ?_ ?_
    | with_reducible intro _
    | with_reducible refine Moves.set_foot ?_ ?_

theorem execIcpFbHandover_moves {m : Nat} {r s : State} (hm : 2039808 ||| m = m) (h : Moves m r s) (x0 : _) (x1 : _) (x2 : _)  :
    MovesOut m r (Sys2Proof.Machine.execIcpFbHandover x0 x1 x2 s) := by
  unfold Sys2Proof.Machine.execIcpFbHandover
  repeat' first
    | with_reducible assumption
    | (with_reducible refine mask_sub hm ?_); exact rfl
    | with_reducible refine startHandover_moves ?_ ?_ _ _
    | with_reducible refine icp_moves ?_ ?_ _ _ _ ?_
    | with_reducible refine Moves.ite ?_ ?_
    | with_reducible refine Moves.dite ?_ ?_
    | with_reducible refine Moves.ite_snd ?_ ?_
    | with_reducible refine Moves.foldl ?_ _ ?_
    | with_reducible refine Moves.foldl_snd ?_ _ ?_
    | with_reducible refine Moves.elim _ ?_ ?_
    | with_reducible refine MovesOut.next ?_
    | with_reducible refine MovesOut.ite ?_ ?_
    | with_reducible refine MovesRes.ite ?_ ?_
    | with_reducible refine MovesRes.done ?_
    | with_reducible refine MovesRes.later ?_
    | with_reducible intro _

theorem footEnable_moves {m : Nat} {r s : State} (hm : 25116250 ||| m = m) (h : Moves m r s) (x0 : _)  :
    Moves m r (Sys2Proof.Machine.footEnable x0 s) := by
  unfold Sys2Proof.Machine.footEnable
  repeat' first
    | with_reducible assumption
    | (with_reducible refine mask_sub hm ?_); exact rfl
    | with_reducible refine ownLevel_moves ?_ ?_ 
    | with_reducible refine relinquish_moves ?_ ?_ _ _
    | with_reducible refine faultCond_moves ?_ ?_ _ _
    | with_reducible refine dropLeases_moves ?_ ?_ 
    | with_reducible refine Moves.ite ?_ ?_
    | with_reducible refine Moves.dite ?_ ?_
    | with_reducible refine Moves.ite_snd ?_ ?_
    | with_reducible refine Moves.foldl ?_ _ ?_
    | with_reducible refine Moves.foldl_snd ?_ _ ?_
    | with_reducible refine Moves.elim _ ?_ ?_
    | with_reducible intro _
    | with_reducible refine Moves.set_foot ?_ ?_

theorem execIcpFbConfig_moves {m : Nat} {r s : State} (hm : 25116250 ||| m = m) (h : Moves m r s) (x0 : _) (x1 : _)  :
    MovesOut m r (Sys2Proof.Machine.execIcpFbConfig x0 x1 s) := by
  unfold Sys2Proof.Machine.execIcpFbConfig
  repeat' first
    | with_reducible assumption
    | (with_reducible refine mask_sub hm ?_); exact rfl
    | with_reducible refine footEnable_moves ?_ ?_ _
    | with_reducible refine icpDo_moves ?_ ?_ _ _ _ _ _ ?_
    | with_reducible refine Moves.ite ?_ ?_
    | with_reducible refine Moves.self ?_
    | with_reducible refine Moves.dite ?_ ?_
    | with_reducible refine Moves.ite_snd ?_ ?_
    | with_reducible refine Moves.foldl ?_ _ ?_
    | with_reducible refine Moves.foldl_snd ?_ _ ?_
    | with_reducible refine Moves.elim _ ?_ ?_
    | with_reducible refine MovesOut.next ?_
    | with_reducible refine MovesOut.ite ?_ ?_
    | with_reducible intro _
    | with_reducible refine Moves.set_foot ?_ ?_

theorem execIcpLeapSet_moves {m : Nat} {r s : State} (hm : 2031620 ||| m = m) (h : Moves m r s) (x0 : _) (x1 : _)  :
    MovesOut m r (Sys2Proof.Machine.execIcpLeapSet x0 x1 s) := by
  unfold Sys2Proof.Machine.execIcpLeapSet
  repeat' first
    | with_reducible assumption
    | (with_reducible refine mask_sub hm ?_); exact rfl
    | with_reducible refine icpDo_moves ?_ ?_ _ _ _ _ _ ?_
    | with_reducible refine Moves.ite ?_ ?_
    | with_reducible refine Moves.self ?_
    | with_reducible refine Moves.dite ?_ ?_
    | with_reducible refine Moves.ite_snd ?_ ?_
    | with_reducible refine Moves.foldl ?_ _ ?_
    | with_reducible refine Moves.foldl_snd ?_ _ ?_
    | with_reducible refine Moves.elim _ ?_ ?_
    | with_reducible refine MovesOut.next ?_
    | with_reducible refine MovesOut.ite ?_ ?_
    | with_reducible intro _
    | with_reducible refine Moves.set_time ?_ ?_

theorem execIcpTimeGet_moves {m : Nat} {r s : State} (hm : 2031620 ||| m = m) (h : Moves m r s) (x0 : _) (x1 : _)  :
    MovesOut m r (Sys2Proof.Machine.execIcpTimeGet x0 x1 s) := by
  unfold Sys2Proof.Machine.execIcpTimeGet
  repeat' first
    | with_reducible assumption
    | (with_reducible refine mask_sub hm ?_); exact rfl
    | with_reducible refine atTick_moves ?_ ?_ _
    | with_reducible refine icpDo_moves ?_ ?_ _ _ _ _ _ ?_
    | with_reducible refine Moves.ite ?_ ?_
    | with_reducible refine Moves.self ?_
    | with_reducible refine Moves.dite ?_ ?_
    | with_reducible refine Moves.ite_snd ?_ ?_
    | with_reducible refine Moves.foldl ?_ _ ?_
    | with_reducible refine Moves.foldl_snd ?_ _ ?_
    | with_reducible refine Moves.elim _ ?_ ?_
    | with_reducible refine MovesOut.next ?_
    | with_reducible refine MovesOut.ite ?_ ?_
    | with_reducible intro _

theorem execPeerownChange_moves {m : Nat} {r s : State} (hm : 25116250 ||| m = m) (h : Moves m r s) (x0 : _) (x1 : _)  :
    MovesOut m r (Sys2Proof.Machine.execPeerownChange x0 x1 s) := by
  unfold Sys2Proof.Machine.execPeerownChange
  repeat' first
    | with_reducible assumption
    | (with_reducible refine mask_sub hm ?_); exact rfl
    | with_reducible refine handoverDone_moves ?_ ?_ 
    | with_reducible refine holderConflict_moves ?_ ?_ 
    | with_reducible refine conflictCheck_moves ?_ ?_ 
    | with_reducible refine atCk_moves ?_ ?_ _
    | with_reducible refine Moves.ite ?_ ?_
    | with_reducible refine Moves.dite ?_ ?_
    | with_reducible refine Moves.ite_snd ?_ ?_
    | with_reducible refine Moves.foldl ?_ _ ?_
    | with_reducible refine Moves.foldl_snd ?_ _ ?_
    | with_reducible refine Moves.elim _ ?_ ?_
    | with_reducible refine MovesOut.next ?_
    | with_reducible refine MovesOut.ite ?_ ?_
    | with_reducible intro _
    | with_reducible refine Moves.set_foot ?_ ?_

theorem execDeferredTake_moves {m : Nat} {r s : State} (hm : 1908760 ||| m = m) (h : Moves m r s) (x0 : _)  :
    MovesOut m r (Sys2Proof.Machine.execDeferredTake x0 s) := by
  unfold Sys2Proof.Machine.execDeferredTake
  repeat' first
    | with_reducible assumption
    | (with_reducible refine mask_sub hm ?_); exact rfl
    | with_reducible refine takeDue_moves ?_ ?_ _
    | with_reducible refine atCk_moves ?_ ?_ _
    | with_reducible refine Moves.ite ?_ ?_
    | with_reducible refine Moves.dite ?_ ?_
    | with_reducible refine Moves.ite_snd ?_ ?_
    | with_reducible refine Moves.foldl ?_ _ ?_
    | with_reducible refine Moves.foldl_snd ?_ _ ?_
    | with_reducible refine Moves.elim _ ?_ ?_
    | with_reducible refine MovesOut.next ?_

theorem execRetakeTake_moves {m : Nat} {r s : State} (hm : 1908760 ||| m = m) (h : Moves m r s) (x0 : _)  :
    MovesOut m r (Sys2Proof.Machine.execRetakeTake x0 s) := by
  unfold Sys2Proof.Machine.execRetakeTake
  repeat' first
    | with_reducible assumption
    | (with_reducible refine mask_sub hm ?_); exact rfl
    | with_reducible refine takeDue_moves ?_ ?_ _
    | with_reducible refine atCk_moves ?_ ?_ _
    | with_reducible refine Moves.ite ?_ ?_
    | with_reducible refine Moves.dite ?_ ?_
    | with_reducible refine Moves.ite_snd ?_ ?_
    | with_reducible refine Moves.foldl ?_ _ ?_
    | with_reducible refine Moves.foldl_snd ?_ _ ?_
    | with_reducible refine Moves.elim _ ?_ ?_
    | with_reducible refine MovesOut.next ?_

theorem execColdStartTake_moves {m : Nat} {r s : State} (hm : 1908760 ||| m = m) (h : Moves m r s) (x0 : _)  :
    MovesOut m r (Sys2Proof.Machine.execColdStartTake x0 s) := by
  unfold Sys2Proof.Machine.execColdStartTake
  repeat' first
    | with_reducible assumption
    | (with_reducible refine mask_sub hm ?_); exact rfl
    | with_reducible refine takeDue_moves ?_ ?_ _
    | with_reducible refine atCk_moves ?_ ?_ _
    | with_reducible refine Moves.ite ?_ ?_
    | with_reducible refine Moves.dite ?_ ?_
    | with_reducible refine Moves.ite_snd ?_ ?_
    | with_reducible refine Moves.foldl ?_ _ ?_
    | with_reducible refine Moves.foldl_snd ?_ _ ?_
    | with_reducible refine Moves.elim _ ?_ ?_
    | with_reducible refine MovesOut.next ?_

theorem execRelinquishTake_moves {m : Nat} {r s : State} (hm : 1908760 ||| m = m) (h : Moves m r s) (x0 : _)  :
    MovesOut m r (Sys2Proof.Machine.execRelinquishTake x0 s) := by
  unfold Sys2Proof.Machine.execRelinquishTake
  repeat' first
    | with_reducible assumption
    | (with_reducible refine mask_sub hm ?_); exact rfl
    | with_reducible refine takeDue_moves ?_ ?_ _
    | with_reducible refine atCk_moves ?_ ?_ _
    | with_reducible refine Moves.ite ?_ ?_
    | with_reducible refine Moves.dite ?_ ?_
    | with_reducible refine Moves.ite_snd ?_ ?_
    | with_reducible refine Moves.foldl ?_ _ ?_
    | with_reducible refine Moves.foldl_snd ?_ _ ?_
    | with_reducible refine Moves.elim _ ?_ ?_
    | with_reducible refine MovesOut.next ?_

theorem execExpiryTake_moves {m : Nat} {r s : State} (hm : 1908760 ||| m = m) (h : Moves m r s) (x0 : _)  :
    MovesOut m r (Sys2Proof.Machine.execExpiryTake x0 s) := by
  unfold Sys2Proof.Machine.execExpiryTake
  repeat' first
    | with_reducible assumption
    | (with_reducible refine mask_sub hm ?_); exact rfl
    | with_reducible refine takeDue_moves ?_ ?_ _
    | with_reducible refine atCk_moves ?_ ?_ _
    | with_reducible refine Moves.ite ?_ ?_
    | with_reducible refine Moves.dite ?_ ?_
    | with_reducible refine Moves.ite_snd ?_ ?_
    | with_reducible refine Moves.foldl ?_ _ ?_
    | with_reducible refine Moves.foldl_snd ?_ _ ?_
    | with_reducible refine Moves.elim _ ?_ ?_
    | with_reducible refine MovesOut.next ?_

theorem execHandoverRetake_moves {m : Nat} {r s : State} (hm : 25116254 ||| m = m) (h : Moves m r s) (x0 : _) (x1 : _)  :
    MovesOut m r (Sys2Proof.Machine.execHandoverRetake x0 x1 s) := by
  unfold Sys2Proof.Machine.execHandoverRetake
  repeat' first
    | with_reducible assumption
    | (with_reducible refine mask_sub hm ?_); exact rfl
    | with_reducible refine handoverFlag_moves ?_ ?_ 
    | with_reducible refine handoverEnd_moves ?_ ?_ _
    | with_reducible refine takeDue_moves ?_ ?_ _
    | with_reducible refine atTick_moves ?_ ?_ _
    | with_reducible refine atCk_moves ?_ ?_ _
    | with_reducible refine Moves.ite ?_ ?_
    | with_reducible refine Moves.dite ?_ ?_
    | with_reducible refine Moves.ite_snd ?_ ?_
    | with_reducible refine Moves.foldl ?_ _ ?_
    | with_reducible refine Moves.foldl_snd ?_ _ ?_
    | with_reducible refine Moves.elim _ ?_ ?_
    | with_reducible refine MovesOut.next ?_
    | with_reducible refine MovesOut.ite ?_ ?_
    | with_reducible intro _
    | with_reducible refine Moves.set_foot ?_ ?_

theorem execPlannedTake_moves {m : Nat} {r s : State} (hm : 18685980 ||| m = m) (h : Moves m r s) (x0 : _) (x1 : _)  :
    MovesOut m r (Sys2Proof.Machine.execPlannedTake x0 x1 s) := by
  unfold Sys2Proof.Machine.execPlannedTake
  repeat' first
    | with_reducible assumption
    | (with_reducible refine mask_sub hm ?_); exact rfl
    | with_reducible refine handoverDone_moves ?_ ?_ 
    | with_reducible refine takeDue_moves ?_ ?_ _
    | with_reducible refine atTick_moves ?_ ?_ _
    | with_reducible refine atCk_moves ?_ ?_ _
    | with_reducible refine Moves.ite ?_ ?_
    | with_reducible refine Moves.dite ?_ ?_
    | with_reducible refine Moves.ite_snd ?_ ?_
    | with_reducible refine Moves.foldl ?_ _ ?_
    | with_reducible refine Moves.foldl_snd ?_ _ ?_
    | with_reducible refine Moves.elim _ ?_ ?_
    | with_reducible refine MovesOut.next ?_
    | with_reducible refine MovesOut.ite ?_ ?_
    | with_reducible intro _
    | with_reducible refine Moves.set_foot ?_ ?_

theorem execHandoverInstant_moves {m : Nat} {r s : State} (hm : 25116254 ||| m = m) (h : Moves m r s) (x0 : _) (x1 : _)  :
    MovesOut m r (Sys2Proof.Machine.execHandoverInstant x0 x1 s) := by
  unfold Sys2Proof.Machine.execHandoverInstant
  repeat' first
    | with_reducible assumption
    | (with_reducible refine mask_sub hm ?_); exact rfl
    | with_reducible refine relinquish_moves ?_ ?_ _ _
    | with_reducible refine setOe_moves ?_ ?_ _
    | with_reducible refine atTick_moves ?_ ?_ _
    | with_reducible refine atCk_moves ?_ ?_ _
    | with_reducible refine Moves.ite ?_ ?_
    | with_reducible refine Moves.dite ?_ ?_
    | with_reducible refine Moves.ite_snd ?_ ?_
    | with_reducible refine Moves.foldl ?_ _ ?_
    | with_reducible refine Moves.foldl_snd ?_ _ ?_
    | with_reducible refine Moves.elim _ ?_ ?_
    | with_reducible refine MovesOut.next ?_
    | with_reducible refine MovesOut.ite ?_ ?_
    | with_reducible intro _
    | with_reducible refine Moves.set_foot ?_ ?_

theorem execFbAbort_moves {m : Nat} {r s : State} (hm : 25116254 ||| m = m) (h : Moves m r s) (x0 : _)  :
    MovesOut m r (Sys2Proof.Machine.execFbAbort x0 s) := by
  unfold Sys2Proof.Machine.execFbAbort
  repeat' first
    | with_reducible assumption
    | (with_reducible refine mask_sub hm ?_); exact rfl
    | with_reducible refine handoverFlag_moves ?_ ?_ 
    | with_reducible refine handoverFail_moves ?_ ?_ 
    | with_reducible refine atTick_moves ?_ ?_ _
    | with_reducible refine Moves.ite ?_ ?_
    | with_reducible refine Moves.dite ?_ ?_
    | with_reducible refine Moves.ite_snd ?_ ?_
    | with_reducible refine Moves.foldl ?_ _ ?_
    | with_reducible refine Moves.foldl_snd ?_ _ ?_
    | with_reducible refine Moves.elim _ ?_ ?_
    | with_reducible refine MovesOut.next ?_
    | with_reducible refine MovesOut.ite ?_ ?_
    | with_reducible intro _
    | with_reducible refine Moves.set_foot ?_ ?_

theorem execFbAccept_moves {m : Nat} {r s : State} (hm : 8192 ||| m = m) (h : Moves m r s) (x0 : _) (x1 : _)  :
    MovesOut m r (Sys2Proof.Machine.execFbAccept x0 x1 s) := by
  unfold Sys2Proof.Machine.execFbAccept
  repeat' first
    | with_reducible assumption
    | with_reducible refine atCk_moves ?_ ?_ _
    | with_reducible refine Moves.ite ?_ ?_
    | with_reducible refine Moves.dite ?_ ?_
    | with_reducible refine Moves.ite_snd ?_ ?_
    | with_reducible refine Moves.foldl ?_ _ ?_
    | with_reducible refine Moves.foldl_snd ?_ _ ?_
    | with_reducible refine Moves.elim _ ?_ ?_
    | with_reducible refine MovesOut.next ?_
    | with_reducible refine MovesOut.ite ?_ ?_
    | with_reducible intro _
    | with_reducible refine Moves.set_foot ?_ ?_

theorem execFbOffer_moves {m : Nat} {r s : State} (hm : 8192 ||| m = m) (h : Moves m r s) (x0 : _) (x1 : _)  :
    MovesOut m r (Sys2Proof.Machine.execFbOffer x0 x1 s) := by
  unfold Sys2Proof.Machine.execFbOffer
  repeat' first
    | with_reducible assumption
    | with_reducible refine sendFrame_moves ?_ ?_ _ _
    | with_reducible refine atCk_moves ?_ ?_ _
    | with_reducible refine Moves.ite ?_ ?_
    | with_reducible refine Moves.dite ?_ ?_
    | with_reducible refine Moves.ite_snd ?_ ?_
    | with_reducible refine Moves.foldl ?_ _ ?_
    | with_reducible refine Moves.foldl_snd ?_ _ ?_
    | with_reducible refine Moves.elim _ ?_ ?_
    | with_reducible refine MovesOut.next ?_
    | with_reducible refine MovesOut.ite ?_ ?_
    | with_reducible intro _
    | with_reducible refine Moves.set_foot ?_ ?_

theorem execFbLinkDown_moves {m : Nat} {r s : State} (hm : 25116250 ||| m = m) (h : Moves m r s) (x0 : _)  :
    MovesOut m r (Sys2Proof.Machine.execFbLinkDown x0 s) := by
  unfold Sys2Proof.Machine.execFbLinkDown
  repeat' first
    | with_reducible assumption
    | (with_reducible refine mask_sub hm ?_); exact rfl
    | with_reducible refine atCk_moves ?_ ?_ _
    | with_reducible refine footLinkDown_moves ?_ ?_ 
    | with_reducible refine Moves.ite ?_ ?_
    | with_reducible refine Moves.dite ?_ ?_
    | with_reducible refine Moves.ite_snd ?_ ?_
    | with_reducible refine Moves.foldl ?_ _ ?_
    | with_reducible refine Moves.foldl_snd ?_ _ ?_
    | with_reducible refine Moves.elim _ ?_ ?_
    | with_reducible refine MovesOut.next ?_

theorem execHeartbeatMiss_moves {m : Nat} {r s : State} (hm : 25116250 ||| m = m) (h : Moves m r s) (x0 : _)  :
    MovesOut m r (Sys2Proof.Machine.execHeartbeatMiss x0 s) := by
  unfold Sys2Proof.Machine.execHeartbeatMiss
  repeat' first
    | with_reducible assumption
    | (with_reducible refine mask_sub hm ?_); exact rfl
    | with_reducible refine footLinkDown_moves ?_ ?_ 
    | with_reducible refine raise_moves ?_ ?_ _
    | with_reducible refine footHist_moves ?_ ?_ _
    | with_reducible refine atCk_moves ?_ ?_ _
    | with_reducible refine Moves.ite ?_ ?_
    | with_reducible refine Moves.dite ?_ ?_
    | with_reducible refine Moves.ite_snd ?_ ?_
    | with_reducible refine Moves.foldl ?_ _ ?_
    | with_reducible refine Moves.foldl_snd ?_ _ ?_
    | with_reducible refine Moves.elim _ ?_ ?_
    | with_reducible refine MovesOut.next ?_
    | with_reducible refine MovesOut.ite ?_ ?_
    | with_reducible intro _
    | with_reducible refine Moves.set_foot ?_ ?_

theorem hbLink_moves {m : Nat} {r s : State} (hm : 25116250 ||| m = m) (h : Moves m r s) (x0 : _)  :
    Moves m r (Sys2Proof.Machine.hbLink x0 s) := by
  unfold Sys2Proof.Machine.hbLink
  repeat' first
    | with_reducible assumption
    | (with_reducible refine mask_sub hm ?_); exact rfl
    | with_reducible refine raise_moves ?_ ?_ _
    | with_reducible refine faultCond_moves ?_ ?_ _ _
    | with_reducible refine Moves.ite ?_ ?_
    | with_reducible refine Moves.dite ?_ ?_
    | with_reducible refine Moves.ite_snd ?_ ?_
    | with_reducible refine Moves.foldl ?_ _ ?_
    | with_reducible refine Moves.foldl_snd ?_ _ ?_
    | with_reducible refine Moves.elim _ ?_ ?_
    | with_reducible intro _
    | with_reducible refine Moves.set_foot ?_ ?_

theorem hbStrap_moves {m : Nat} {r s : State} (hm : 25116250 ||| m = m) (h : Moves m r s) (x0 : _)  :
    Moves m r (Sys2Proof.Machine.hbStrap x0 s) := by
  unfold Sys2Proof.Machine.hbStrap
  repeat' first
    | with_reducible assumption
    | (with_reducible refine mask_sub hm ?_); exact rfl
    | with_reducible refine relinquish_moves ?_ ?_ _ _
    | with_reducible refine conflictFlag_moves ?_ ?_ 
    | with_reducible refine Moves.ite ?_ ?_
    | with_reducible refine Moves.dite ?_ ?_
    | with_reducible refine Moves.ite_snd ?_ ?_
    | with_reducible refine Moves.foldl ?_ _ ?_
    | with_reducible refine Moves.foldl_snd ?_ _ ?_
    | with_reducible refine Moves.elim _ ?_ ?_
    | with_reducible intro _
    | with_reducible refine Moves.set_foot ?_ ?_

theorem hbReady_moves {m : Nat} {r s : State} (hm : 25116250 ||| m = m) (h : Moves m r s) (x0 : _)  :
    Moves m r (Sys2Proof.Machine.hbReady x0 s) := by
  unfold Sys2Proof.Machine.hbReady
  repeat' first
    | with_reducible assumption
    | (with_reducible refine mask_sub hm ?_); exact rfl
    | with_reducible refine sendFrame_moves ?_ ?_ _ _
    | with_reducible refine handoverFail_moves ?_ ?_ 
    | with_reducible refine Moves.ite ?_ ?_

theorem execHeartbeatReceive_moves {m : Nat} {r s : State} (hm : 25116254 ||| m = m) (h : Moves m r s) (x0 : _) (x1 : _) (x2 : _)  :
    MovesOut m r (Sys2Proof.Machine.execHeartbeatReceive x0 x1 x2 s) := by
  unfold Sys2Proof.Machine.execHeartbeatReceive
  repeat' first
    | with_reducible assumption
    | (with_reducible refine mask_sub hm ?_); exact rfl
    | with_reducible refine atTick_moves ?_ ?_ _
    | with_reducible refine atCk_moves ?_ ?_ _
    | with_reducible refine hbPhase_moves ?_ ?_ _
    | with_reducible refine hbLink_moves ?_ ?_ _
    | with_reducible refine hbAck_moves ?_ ?_ _
    | with_reducible refine hbStrap_moves ?_ ?_ _
    | with_reducible refine hbLease_moves ?_ ?_ _ _
    | with_reducible refine hbReady_moves ?_ ?_ _
    | with_reducible refine conflictCheck_moves ?_ ?_ 
    | with_reducible refine Moves.ite ?_ ?_
    | with_reducible refine Moves.dite ?_ ?_
    | with_reducible refine Moves.ite_snd ?_ ?_
    | with_reducible refine Moves.foldl ?_ _ ?_
    | with_reducible refine Moves.foldl_snd ?_ _ ?_
    | with_reducible refine Moves.elim _ ?_ ?_
    | with_reducible refine MovesOut.next ?_
    | with_reducible refine MovesOut.ite ?_ ?_

theorem sendHeartbeat_moves {m : Nat} {r s : State} (hm : 8192 ||| m = m) (h : Moves m r s) (x0 : _)  :
    Moves m r (Sys2Proof.Machine.sendHeartbeat x0 s) := by
  unfold Sys2Proof.Machine.sendHeartbeat
  repeat' first
    | with_reducible assumption
    | with_reducible refine sendFrame_moves ?_ ?_ _ _
    | with_reducible refine Moves.ite ?_ ?_
    | with_reducible refine Moves.dite ?_ ?_
    | with_reducible refine Moves.ite_snd ?_ ?_
    | with_reducible refine Moves.foldl ?_ _ ?_
    | with_reducible refine Moves.foldl_snd ?_ _ ?_
    | with_reducible refine Moves.elim _ ?_ ?_
    | with_reducible intro _
    | with_reducible refine Moves.set_foot ?_ ?_

theorem execHeartbeatSend_moves {m : Nat} {r s : State} (hm : 8986628 ||| m = m) (h : Moves m r s) (x0 : _) (x1 : _)  :
    MovesOut m r (Sys2Proof.Machine.execHeartbeatSend x0 x1 s) := by
  unfold Sys2Proof.Machine.execHeartbeatSend
  repeat' first
    | with_reducible assumption
    | (with_reducible refine mask_sub hm ?_); exact rfl
    | with_reducible refine sendHeartbeat_moves ?_ ?_ _
    | with_reducible refine raise_moves ?_ ?_ _
    | with_reducible refine atCk_moves ?_ ?_ _
    | with_reducible refine atTick_moves ?_ ?_ _
    | with_reducible refine Moves.ite ?_ ?_
    | with_reducible refine Moves.dite ?_ ?_
    | with_reducible refine Moves.ite_snd ?_ ?_
    | with_reducible refine Moves.foldl ?_ _ ?_
    | with_reducible refine Moves.foldl_snd ?_ _ ?_
    | with_reducible refine Moves.elim _ ?_ ?_
    | with_reducible refine MovesOut.next ?_
    | with_reducible refine MovesOut.ite ?_ ?_
    | with_reducible intro _
    | with_reducible refine Moves.set_pert ?_ ?_

theorem execCairnPeriodicRecord_moves {m : Nat} {r s : State} (hm : 8 ||| m = m) (h : Moves m r s)   :
    MovesOut m r (Sys2Proof.Machine.execCairnPeriodicRecord s) := by
  unfold Sys2Proof.Machine.execCairnPeriodicRecord
  repeat' first
    | with_reducible assumption
    | with_reducible refine cairnRecord_moves ?_ ?_ _
    | with_reducible refine Moves.ite ?_ ?_
    | with_reducible refine Moves.dite ?_ ?_
    | with_reducible refine Moves.ite_snd ?_ ?_
    | with_reducible refine Moves.foldl ?_ _ ?_
    | with_reducible refine Moves.foldl_snd ?_ _ ?_
    | with_reducible refine Moves.elim _ ?_ ?_
    | with_reducible refine MovesOut.next ?_
    | with_reducible refine MovesOut.ite ?_ ?_
    | with_reducible intro _
    | with_reducible refine Moves.set_cairn ?_ ?_

theorem execSnapshotGo_moves {m : Nat} {r s : State} (hm : 6225924 ||| m = m) (h : Moves m r s) (x0 : _) (x1 : _)  :
    MovesOut m r (Sys2Proof.Machine.execSnapshotGo x0 x1 s) := by
  unfold Sys2Proof.Machine.execSnapshotGo
  repeat' first
    | with_reducible assumption
    | (with_reducible refine mask_sub hm ?_); exact rfl
    | with_reducible refine snapGo_moves ?_ ?_ _
    | with_reducible refine writeBy_moves ?_ ?_ _ _ _ ?_
    | with_reducible refine Moves.ite ?_ ?_
    | with_reducible refine Moves.dite ?_ ?_
    | with_reducible refine Moves.ite_snd ?_ ?_
    | with_reducible refine Moves.foldl ?_ _ ?_
    | with_reducible refine Moves.foldl_snd ?_ _ ?_
    | with_reducible refine Moves.elim _ ?_ ?_
    | with_reducible refine MovesOut.next ?_
    | with_reducible refine MovesOut.ite ?_ ?_
    | with_reducible intro _

theorem execLeapApply_moves {m : Nat} {r s : State} (hm : 851980 ||| m = m) (h : Moves m r s)   :
    MovesOut m r (Sys2Proof.Machine.execLeapApply s) := by
  unfold Sys2Proof.Machine.execLeapApply
  repeat' first
    | with_reducible assumption
    | with_reducible refine applyLeap_moves ?_ ?_ 
    | with_reducible refine Moves.ite ?_ ?_
    | with_reducible refine Moves.dite ?_ ?_
    | with_reducible refine Moves.ite_snd ?_ ?_
    | with_reducible refine Moves.foldl ?_ _ ?_
    | with_reducible refine Moves.foldl_snd ?_ _ ?_
    | with_reducible refine Moves.elim _ ?_ ?_
    | with_reducible refine MovesOut.next ?_

end Sys2Proof.Laws
end

