-- ==== Sys2Proof/Laws/MovesVault.lean ====
section
/-!
SUPPORT. What each function of Machine/Vault, Guyline may change, as `Moves`.
-/
namespace Sys2Proof.Laws
open Sys2Proof Sys2Proof.Machine

theorem guyLevel_moves {m : Nat} {r s : State} (hm : 852000 ||| m = m) (h : Moves m r s)   :
    Moves m r (Sys2Proof.Machine.guyLevel s) := by
  unfold Sys2Proof.Machine.guyLevel
  repeat' first
    | with_reducible assumption
    | (with_reducible refine mask_sub hm ?_); exact rfl
    | with_reducible refine sticky_moves ?_ ?_ _ _
    | with_reducible refine raise_moves ?_ ?_ _
    | with_reducible refine Moves.ite ?_ ?_
    | with_reducible refine Moves.dite ?_ ?_
    | with_reducible refine Moves.ite_snd ?_ ?_
    | with_reducible refine Moves.foldl ?_ _ ?_
    | with_reducible refine Moves.foldl_snd ?_ _ ?_
    | with_reducible refine Moves.elim _ ?_ ?_
    | with_reducible intro _
    | with_reducible refine Moves.set_guy ?_ ?_

theorem discardOne_moves {m : Nat} {r s : State} (hm : 6233600 ||| m = m) (h : Moves m r s) (x0 : _) (x1 : _)  :
    Moves m r (Sys2Proof.Machine.discardOne x0 x1 s) := by
  unfold Sys2Proof.Machine.discardOne
  try dsimp only
  repeat' first
    | with_reducible assumption
    | (with_reducible refine mask_sub hm ?_); exact rfl
    | with_reducible refine launchFree_moves ?_ ?_ _ _
    | with_reducible refine freeTxn_moves ?_ ?_ _
    | with_reducible refine txStart_moves ?_ ?_ _
    | with_reducible refine count_moves ?_ ?_ _ _
    | with_reducible refine servCount_moves ?_ ?_ _ _ _ _ _
    | with_reducible refine Moves.ite ?_ ?_
    | with_reducible refine Moves.dite ?_ ?_
    | with_reducible refine Moves.ite_snd ?_ ?_
    | with_reducible refine Moves.foldl ?_ _ ?_
    | with_reducible refine Moves.foldl_snd ?_ _ ?_
    | with_reducible refine Moves.elim _ ?_ ?_
    | with_reducible intro _
    | split

theorem guyTemps_moves {m : Nat} {r s : State} (hm : 32 ||| m = m) (h : Moves m r s)   :
    Moves m r (Sys2Proof.Machine.guyTemps s) := by
  unfold Sys2Proof.Machine.guyTemps
  repeat' first
    | with_reducible assumption
    | with_reducible refine Moves.ite ?_ ?_
    | with_reducible refine Moves.dite ?_ ?_
    | with_reducible refine Moves.ite_snd ?_ ?_
    | with_reducible refine Moves.foldl ?_ _ ?_
    | with_reducible refine Moves.foldl_snd ?_ _ ?_
    | with_reducible refine Moves.elim _ ?_ ?_
    | with_reducible intro _
    | with_reducible refine Moves.set_guy ?_ ?_

theorem setKey_moves {m : Nat} {r s : State} (hm : 16384 ||| m = m) (h : Moves m r s) (x0 : _) (x1 : _)  :
    Moves m r (Sys2Proof.Machine.setKey x0 x1 s) := by
  unfold Sys2Proof.Machine.setKey
  repeat' first
    | with_reducible assumption
    | with_reducible exact VaultOn.same rfl rfl
    | with_reducible refine Moves.ite ?_ ?_
    | with_reducible refine Moves.dite ?_ ?_
    | with_reducible refine Moves.ite_snd ?_ ?_
    | with_reducible refine Moves.foldl ?_ _ ?_
    | with_reducible refine Moves.foldl_snd ?_ _ ?_
    | with_reducible refine Moves.elim _ ?_ ?_
    | with_reducible intro _
    | with_reducible refine Moves.set_vault ?_ ?_ ?_

theorem putKey_moves {m : Nat} {r s : State} (hm : 16384 ||| m = m) (h : Moves m r s) (x0 : _) (x1 : _)  :
    Moves m r (Sys2Proof.Machine.putKey x0 x1 s) := by
  unfold Sys2Proof.Machine.putKey
  repeat' first
    | with_reducible assumption
    | with_reducible refine draw_moves ?_ ?_ 
    | with_reducible refine setKey_moves ?_ ?_ _ _

theorem rootKeys_moves {m : Nat} {r s : State} (hm : 16384 ||| m = m) (h : Moves m r s)   :
    Moves m r (Sys2Proof.Machine.rootKeys s) := by
  unfold Sys2Proof.Machine.rootKeys
  repeat' first
    | with_reducible assumption
    | with_reducible refine putKey_moves ?_ ?_ _ _
    | with_reducible exact VaultOn.same rfl rfl
    | with_reducible refine Moves.ite ?_ ?_
    | with_reducible refine Moves.dite ?_ ?_
    | with_reducible refine Moves.ite_snd ?_ ?_
    | with_reducible refine Moves.foldl ?_ _ ?_
    | with_reducible refine Moves.foldl_snd ?_ _ ?_
    | with_reducible refine Moves.elim _ ?_ ?_
    | with_reducible intro _
    | with_reducible refine Moves.set_vault ?_ ?_ ?_

theorem drawKey_moves {m : Nat} {r s : State} (hm : 16384 ||| m = m) (h : Moves m r s) (x0 : _) (x1 : _)  :
    Moves m r (Sys2Proof.Machine.drawKey x0 x1 s) := by
  unfold Sys2Proof.Machine.drawKey
  repeat' first
    | with_reducible assumption
    | with_reducible refine draw_moves ?_ ?_ 
    | with_reducible refine putKey_moves ?_ ?_ _ _

theorem startKeys_moves {m : Nat} {r s : State} (hm : 22528 ||| m = m) (h : Moves m r s)   :
    Moves m r (Sys2Proof.Machine.startKeys s) := by
  unfold Sys2Proof.Machine.startKeys
  repeat' first
    | with_reducible assumption
    | (with_reducible refine mask_sub hm ?_); exact rfl
    | with_reducible refine drawKey_moves ?_ ?_ _ _
    | with_reducible exact ServOn.same rfl rfl
    | with_reducible exact PtpOn.same rfl rfl
    | with_reducible refine Moves.ite ?_ ?_
    | with_reducible refine Moves.dite ?_ ?_
    | with_reducible refine Moves.ite_snd ?_ ?_
    | with_reducible refine Moves.foldl ?_ _ ?_
    | with_reducible refine Moves.foldl_snd ?_ _ ?_
    | with_reducible refine Moves.elim _ ?_ ?_
    | with_reducible intro _
    | with_reducible refine Moves.set_serv_ptp ?_ ?_ ?_ ?_

theorem keyStart_moves {m : Nat} {r s : State} (hm : 606208 ||| m = m) (h : Moves m r s) (x0 : _)  :
    Moves m r (Sys2Proof.Machine.keyStart x0 s) := by
  induction x0 generalizing s with
  | nil => exact h.set_vault (mask_sub hm rfl) (.same rfl rfl)
  | cons q l ih =>
    unfold Sys2Proof.Machine.keyStart
    split
    · exact ih (complete_moves (mask_sub hm rfl) h _ _ _ _)
    · exact h.set_vault (mask_sub hm rfl) (.same rfl rfl)

theorem keyNext_moves {m : Nat} {r s : State} (hm : 606208 ||| m = m) (h : Moves m r s)   :
    Moves m r (Sys2Proof.Machine.keyNext s) := by
  unfold Sys2Proof.Machine.keyNext
  repeat' first
    | with_reducible assumption
    | with_reducible refine keyStart_moves ?_ ?_ _
    | with_reducible refine Moves.ite ?_ ?_

theorem keyCmd_moves {m : Nat} {r s : State} (hm : 2048000 ||| m = m) (h : Moves m r s) (x0 : _) (x1 : _) (x2 : _) (x3 : _)  :
    MovesOut m r (Sys2Proof.Machine.keyCmd x0 x1 x2 x3 s) := by
  unfold Sys2Proof.Machine.keyCmd
  repeat' first
    | with_reducible assumption
    | (with_reducible refine mask_sub hm ?_); exact rfl
    | with_reducible refine keyNext_moves ?_ ?_ 
    | with_reducible refine icp_moves ?_ ?_ _ _ _ ?_
    | with_reducible exact VaultOn.same rfl rfl
    | with_reducible refine Moves.ite ?_ ?_
    | with_reducible refine Moves.dite ?_ ?_
    | with_reducible refine Moves.ite_snd ?_ ?_
    | with_reducible refine Moves.foldl ?_ _ ?_
    | with_reducible refine Moves.foldl_snd ?_ _ ?_
    | with_reducible refine Moves.elim _ ?_ ?_
    | with_reducible refine MovesOut.next ?_
    | with_reducible refine MovesOut.ite ?_ ?_
    | with_reducible refine MovesRes.ite ?_ ?_
    | with_reducible refine MovesRes.done ?_
    | with_reducible refine MovesRes.later ?_
    | with_reducible intro _
    | with_reducible refine Moves.set_vault ?_ ?_ ?_

theorem execIcpPtpKeyInvalidate_moves {m : Nat} {r s : State} (hm : 2048000 ||| m = m) (h : Moves m r s) (x0 : _) (x1 : _)  :
    MovesOut m r (Sys2Proof.Machine.execIcpPtpKeyInvalidate x0 x1 s) := by
  unfold Sys2Proof.Machine.execIcpPtpKeyInvalidate
  repeat' first
    | with_reducible assumption
    | with_reducible refine keyCmd_moves ?_ ?_ _ _ _ _

theorem trailFw_moves {m : Nat} {r s : State} (hm : 1310720 ||| m = m) (h : Moves m r s) (x0 : _) (x1 : _) (x2 : _)  :
    Moves m r (Sys2Proof.Machine.trailFw x0 x1 x2 s) := by
  unfold Sys2Proof.Machine.trailFw
  repeat' first
    | with_reducible assumption
    | with_reducible refine trail_moves ?_ ?_ _ _

theorem flyStart_moves {m : Nat} {r s : State} (hm : 32 ||| m = m) (h : Moves m r s) (x0 : _)  :
    Moves m r (Sys2Proof.Machine.flyStart x0 s) := by
  unfold Sys2Proof.Machine.flyStart
  repeat' first
    | with_reducible assumption
    | with_reducible refine Moves.ite ?_ ?_
    | with_reducible refine Moves.dite ?_ ?_
    | with_reducible refine Moves.ite_snd ?_ ?_
    | with_reducible refine Moves.foldl ?_ _ ?_
    | with_reducible refine Moves.foldl_snd ?_ _ ?_
    | with_reducible refine Moves.elim _ ?_ ?_
    | with_reducible intro _
    | with_reducible refine Moves.set_guy ?_ ?_

theorem guyBreak_moves {m : Nat} {r s : State} (hm : 32 ||| m = m) (h : Moves m r s)   :
    Moves m r (Sys2Proof.Machine.guyBreak s) := by
  unfold Sys2Proof.Machine.guyBreak
  repeat' first
    | with_reducible assumption
    | with_reducible refine Moves.ite ?_ ?_
    | with_reducible refine Moves.dite ?_ ?_
    | with_reducible refine Moves.ite_snd ?_ ?_
    | with_reducible refine Moves.foldl ?_ _ ?_
    | with_reducible refine Moves.foldl_snd ?_ _ ?_
    | with_reducible refine Moves.elim _ ?_ ?_
    | with_reducible intro _
    | with_reducible refine Moves.set_guy ?_ ?_

theorem holdCompare_moves {m : Nat} {r s : State} (hm : 852008 ||| m = m) (h : Moves m r s)   :
    Moves m r (Sys2Proof.Machine.holdCompare s) := by
  unfold Sys2Proof.Machine.holdCompare
  repeat' first
    | with_reducible assumption
    | (with_reducible refine mask_sub hm ?_); exact rfl
    | with_reducible refine sticky_moves ?_ ?_ _ _
    | with_reducible refine raise_moves ?_ ?_ _
    | with_reducible refine cairnEvent_moves ?_ ?_ 
    | with_reducible refine Moves.ite ?_ ?_
    | with_reducible refine Moves.dite ?_ ?_
    | with_reducible refine Moves.ite_snd ?_ ?_
    | with_reducible refine Moves.foldl ?_ _ ?_
    | with_reducible refine Moves.foldl_snd ?_ _ ?_
    | with_reducible refine Moves.elim _ ?_ ?_
    | with_reducible intro _
    | with_reducible refine Moves.set_guy ?_ ?_

theorem execIcpIdCertSet_moves {m : Nat} {r s : State} (hm : 2048000 ||| m = m) (h : Moves m r s) (x0 : _) (x1 : _) (x2 : _) (x3 : _)  :
    MovesOut m r (Sys2Proof.Machine.execIcpIdCertSet x0 x1 x2 x3 s) := by
  unfold Sys2Proof.Machine.execIcpIdCertSet
  repeat' first
    | with_reducible assumption
    | (with_reducible refine mask_sub hm ?_); exact rfl
    | with_reducible refine icpDo_moves ?_ ?_ _ _ _ _ _ ?_
    | with_reducible exact VaultOn.same rfl rfl
    | with_reducible refine Moves.ite ?_ ?_
    | with_reducible refine Moves.self ?_
    | with_reducible refine Moves.dite ?_ ?_
    | with_reducible refine Moves.ite_snd ?_ ?_
    | with_reducible refine Moves.foldl ?_ _ ?_
    | with_reducible refine Moves.foldl_snd ?_ _ ?_
    | with_reducible refine Moves.elim _ ?_ ?_
    | with_reducible refine MovesOut.next ?_
    | with_reducible refine MovesOut.ite ?_ ?_
    | with_reducible intro _
    | with_reducible refine Moves.set_vault ?_ ?_ ?_

theorem holdEnter_moves {m : Nat} {r s : State} (hm : 852000 ||| m = m) (h : Moves m r s) (x0 : _)  :
    Moves m r (Sys2Proof.Machine.holdEnter x0 s) := by
  unfold Sys2Proof.Machine.holdEnter
  repeat' first
    | with_reducible assumption
    | (with_reducible refine mask_sub hm ?_); exact rfl
    | with_reducible refine sticky_moves ?_ ?_ _ _
    | with_reducible refine raise_moves ?_ ?_ _
    | with_reducible refine flyStart_moves ?_ ?_ _
    | with_reducible refine guyLevel_moves ?_ ?_ 
    | with_reducible refine guyBreak_moves ?_ ?_ 
    | with_reducible refine Moves.ite ?_ ?_
    | with_reducible refine Moves.dite ?_ ?_
    | with_reducible refine Moves.ite_snd ?_ ?_
    | with_reducible refine Moves.foldl ?_ _ ?_
    | with_reducible refine Moves.foldl_snd ?_ _ ?_
    | with_reducible refine Moves.elim _ ?_ ?_
    | with_reducible intro _
    | with_reducible refine Moves.set_guy ?_ ?_

theorem execIcpAttest_moves {m : Nat} {r s : State} (hm : 25132634 ||| m = m) (h : Moves m r s) (x0 : _) (x1 : _)  :
    MovesOut m r (Sys2Proof.Machine.execIcpAttest x0 x1 s) := by
  unfold Sys2Proof.Machine.execIcpAttest
  repeat' first
    | with_reducible assumption
    | (with_reducible refine mask_sub hm ?_); exact rfl
    | with_reducible refine faultEvent_moves ?_ ?_ _
    | with_reducible refine draw_moves ?_ ?_ 
    | with_reducible refine icp_moves ?_ ?_ _ _ _ ?_
    | with_reducible refine Moves.ite ?_ ?_
    | with_reducible refine Moves.dite ?_ ?_
    | with_reducible refine Moves.ite_snd ?_ ?_
    | with_reducible refine Moves.foldl ?_ _ ?_
    | with_reducible refine Moves.foldl_snd ?_ _ ?_
    | with_reducible refine Moves.elim _ ?_ ?_
    | with_reducible refine MovesOut.next ?_
    | with_reducible refine MovesOut.ite ?_ ?_
    | with_reducible refine MovesRes.ite ?_ ?_
    | with_reducible refine MovesRes.done ?_
    | with_reducible refine MovesRes.later ?_
    | with_reducible intro _

theorem ringList_moves {m : Nat} {r s : State} (hm : 2031616 ||| m = m) (h : Moves m r s) (x0 : _) (x1 : _) (x2 : _)  :
    MovesOut m r (Sys2Proof.Machine.ringList x0 x1 x2 s) := by
  unfold Sys2Proof.Machine.ringList
  repeat' first
    | with_reducible assumption
    | with_reducible refine icpDo_moves ?_ ?_ _ _ _ _ _ ?_
    | with_reducible refine Moves.ite ?_ ?_
    | with_reducible refine Moves.self ?_
    | with_reducible refine Moves.dite ?_ ?_
    | with_reducible refine Moves.ite_snd ?_ ?_
    | with_reducible refine Moves.foldl ?_ _ ?_
    | with_reducible refine Moves.foldl_snd ?_ _ ?_
    | with_reducible refine Moves.elim _ ?_ ?_
    | with_reducible refine MovesOut.next ?_
    | with_reducible refine MovesOut.ite ?_ ?_
    | with_reducible intro _

theorem execIcpPtpKeyList_moves {m : Nat} {r s : State} (hm : 2031616 ||| m = m) (h : Moves m r s) (x0 : _)  :
    MovesOut m r (Sys2Proof.Machine.execIcpPtpKeyList x0 s) := by
  unfold Sys2Proof.Machine.execIcpPtpKeyList
  repeat' first
    | with_reducible assumption
    | with_reducible refine ringList_moves ?_ ?_ _ _ _

theorem guyWatch_moves {m : Nat} {r s : State} (hm : 32 ||| m = m) (h : Moves m r s)   :
    Moves m r (Sys2Proof.Machine.guyWatch s) := by
  unfold Sys2Proof.Machine.guyWatch
  repeat' first
    | with_reducible assumption
    | with_reducible refine Moves.ite ?_ ?_
    | with_reducible refine Moves.dite ?_ ?_
    | with_reducible refine Moves.ite_snd ?_ ?_
    | with_reducible refine Moves.foldl ?_ _ ?_
    | with_reducible refine Moves.foldl_snd ?_ _ ?_
    | with_reducible refine Moves.elim _ ?_ ?_
    | with_reducible intro _
    | with_reducible refine Moves.set_guy ?_ ?_

theorem writePref_moves {m : Nat} {r s : State} (hm : 16384 ||| m = m) (h : Moves m r s) (x0 : _)  :
    Moves m r (Sys2Proof.Machine.writePref x0 s) := by
  unfold Sys2Proof.Machine.writePref
  repeat' first
    | with_reducible assumption
    | with_reducible exact VaultOn.same rfl rfl
    | with_reducible refine Moves.ite ?_ ?_
    | with_reducible refine Moves.dite ?_ ?_
    | with_reducible refine Moves.ite_snd ?_ ?_
    | with_reducible refine Moves.foldl ?_ _ ?_
    | with_reducible refine Moves.foldl_snd ?_ _ ?_
    | with_reducible refine Moves.elim _ ?_ ?_
    | with_reducible intro _
    | with_reducible refine Moves.set_vault ?_ ?_ ?_

theorem atomPresence_moves {m : Nat} {r s : State} (hm : 852000 ||| m = m) (h : Moves m r s) (x0 : _)  :
    Moves m r (Sys2Proof.Machine.atomPresence x0 s) := by
  unfold Sys2Proof.Machine.atomPresence
  repeat' first
    | with_reducible assumption
    | (with_reducible refine mask_sub hm ?_); exact rfl
    | with_reducible refine sticky_moves ?_ ?_ _ _
    | with_reducible refine raise_moves ?_ ?_ _
    | with_reducible refine guyLevel_moves ?_ ?_ 
    | with_reducible refine Moves.ite ?_ ?_
    | with_reducible refine Moves.dite ?_ ?_
    | with_reducible refine Moves.ite_snd ?_ ?_
    | with_reducible refine Moves.foldl ?_ _ ?_
    | with_reducible refine Moves.foldl_snd ?_ _ ?_
    | with_reducible refine Moves.elim _ ?_ ?_
    | with_reducible intro _
    | with_reducible refine Moves.set_guy ?_ ?_

theorem execAtomAbsent_moves {m : Nat} {r s : State} (hm : 852000 ||| m = m) (h : Moves m r s)   :
    MovesOut m r (Sys2Proof.Machine.execAtomAbsent s) := by
  unfold Sys2Proof.Machine.execAtomAbsent
  repeat' first
    | with_reducible assumption
    | (with_reducible refine mask_sub hm ?_); exact rfl
    | with_reducible refine atomPresence_moves ?_ ?_ _
    | with_reducible refine Moves.ite ?_ ?_
    | with_reducible refine Moves.dite ?_ ?_
    | with_reducible refine Moves.ite_snd ?_ ?_
    | with_reducible refine Moves.foldl ?_ _ ?_
    | with_reducible refine Moves.foldl_snd ?_ _ ?_
    | with_reducible refine Moves.elim _ ?_ ?_
    | with_reducible refine MovesOut.next ?_
    | with_reducible refine MovesOut.ite ?_ ?_
    | with_reducible intro _
    | with_reducible refine Moves.set_guy ?_ ?_

theorem holdSwitch_moves {m : Nat} {r s : State} (hm : 32 ||| m = m) (h : Moves m r s) (x0 : _)  :
    Moves m r (Sys2Proof.Machine.holdSwitch x0 s) := by
  unfold Sys2Proof.Machine.holdSwitch
  try dsimp only
  repeat' first
    | with_reducible assumption
    | with_reducible refine Moves.ite ?_ ?_
    | with_reducible refine Moves.dite ?_ ?_
    | with_reducible refine Moves.ite_snd ?_ ?_
    | with_reducible refine Moves.foldl ?_ _ ?_
    | with_reducible refine Moves.foldl_snd ?_ _ ?_
    | with_reducible refine Moves.elim _ ?_ ?_
    | with_reducible intro _
    | split
    | with_reducible refine Moves.set_guy ?_ ?_

theorem vaultWipe_moves {m : Nat} {r s : State} (hm : 25132634 ||| m = m) (h : Moves m r s)   :
    Moves m r (Sys2Proof.Machine.vaultWipe s) := by
  unfold Sys2Proof.Machine.vaultWipe
  repeat' first
    | with_reducible assumption
    | (with_reducible refine mask_sub hm ?_); exact rfl
    | with_reducible refine faultCond_moves ?_ ?_ _ _
    | with_reducible refine complete_moves ?_ ?_ _ _ _ _
    | exact ⟨Nat.le_refl _, fun _ => rfl⟩
    | with_reducible exact VaultOn.same rfl rfl
    | with_reducible refine Moves.ite ?_ ?_
    | with_reducible refine Moves.dite ?_ ?_
    | with_reducible refine Moves.ite_snd ?_ ?_
    | with_reducible refine Moves.foldl ?_ _ ?_
    | with_reducible refine Moves.foldl_snd ?_ _ ?_
    | with_reducible refine Moves.elim _ ?_ ?_
    | with_reducible intro _
    | with_reducible refine Moves.set_vault ?_ ?_ ?_

theorem execIcpVaultConfig_moves {m : Nat} {r s : State} (hm : 2048000 ||| m = m) (h : Moves m r s) (x0 : _) (x1 : _) (x2 : _)  :
    MovesOut m r (Sys2Proof.Machine.execIcpVaultConfig x0 x1 x2 s) := by
  unfold Sys2Proof.Machine.execIcpVaultConfig
  repeat' first
    | with_reducible assumption
    | (with_reducible refine mask_sub hm ?_); exact rfl
    | with_reducible refine icpDo_moves ?_ ?_ _ _ _ _ _ ?_
    | with_reducible exact VaultOn.same rfl rfl
    | with_reducible refine Moves.ite ?_ ?_
    | with_reducible refine Moves.self ?_
    | with_reducible refine Moves.dite ?_ ?_
    | with_reducible refine Moves.ite_snd ?_ ?_
    | with_reducible refine Moves.foldl ?_ _ ?_
    | with_reducible refine Moves.foldl_snd ?_ _ ?_
    | with_reducible refine Moves.elim _ ?_ ?_
    | with_reducible refine MovesOut.next ?_
    | with_reducible refine MovesOut.ite ?_ ?_
    | with_reducible intro _
    | with_reducible refine Moves.set_vault ?_ ?_ ?_

theorem ringAdvance_moves {m : Nat} {r s : State} (hm : 16384 ||| m = m) (h : Moves m r s) (x0 : _) (x1 : _) (x2 : _)  :
    Moves m r (Sys2Proof.Machine.ringAdvance x0 x1 x2 s) := by
  unfold Sys2Proof.Machine.ringAdvance
  repeat' first
    | with_reducible assumption
    | exact ⟨Nat.le_refl _, fun e => mwf_mset _ _ _ _ e⟩
    | with_reducible exact VaultOn.same rfl rfl
    | with_reducible refine Moves.ite ?_ ?_
    | with_reducible refine Moves.dite ?_ ?_
    | with_reducible refine Moves.ite_snd ?_ ?_
    | with_reducible refine Moves.foldl ?_ _ ?_
    | with_reducible refine Moves.foldl_snd ?_ _ ?_
    | with_reducible refine Moves.elim _ ?_ ?_
    | with_reducible intro _
    | with_reducible refine Moves.set_vault ?_ ?_ ?_

theorem discardFrames_moves {m : Nat} {r s : State} (hm : 6233600 ||| m = m) (h : Moves m r s) (x0 : _)  :
    Moves m r (Sys2Proof.Machine.discardFrames x0 s) := by
  unfold Sys2Proof.Machine.discardFrames
  repeat' first
    | with_reducible assumption
    | with_reducible refine discardOne_moves ?_ ?_ _ _
    | with_reducible refine Moves.ite ?_ ?_
    | with_reducible refine Moves.dite ?_ ?_
    | with_reducible refine Moves.ite_snd ?_ ?_
    | with_reducible refine Moves.foldl ?_ _ ?_
    | with_reducible refine Moves.foldl_snd ?_ _ ?_
    | with_reducible refine Moves.elim _ ?_ ?_
    | with_reducible intro _

theorem hardDiscard_moves {m : Nat} {r s : State} (hm : 6233600 ||| m = m) (h : Moves m r s) (x0 : _)  :
    Moves m r (Sys2Proof.Machine.hardDiscard x0 s) := by
  unfold Sys2Proof.Machine.hardDiscard
  repeat' first
    | with_reducible assumption
    | (with_reducible refine mask_sub hm ?_); exact rfl
    | with_reducible refine count_moves ?_ ?_ _ _
    | with_reducible refine freeTxn_moves ?_ ?_ _
    | with_reducible refine discardFrames_moves ?_ ?_ _
    | with_reducible exact ServOn.same rfl rfl
    | with_reducible refine Moves.ite ?_ ?_
    | with_reducible refine Moves.dite ?_ ?_
    | with_reducible refine Moves.ite_snd ?_ ?_
    | with_reducible refine Moves.foldl ?_ _ ?_
    | with_reducible refine Moves.foldl_snd ?_ _ ?_
    | with_reducible refine Moves.elim _ ?_ ?_
    | with_reducible intro _
    | with_reducible refine Moves.set_serv ?_ ?_ ?_

theorem withdraw_moves {m : Nat} {r s : State} (hm : 16384 ||| m = m) (h : Moves m r s) (x0 : _)  :
    Moves m r (Sys2Proof.Machine.withdraw x0 s) := by
  unfold Sys2Proof.Machine.withdraw
  repeat' first
    | with_reducible assumption
    | with_reducible refine setKey_moves ?_ ?_ _ _
    | with_reducible refine Moves.ite ?_ ?_
    | with_reducible refine Moves.dite ?_ ?_
    | with_reducible refine Moves.ite_snd ?_ ?_
    | with_reducible refine Moves.foldl ?_ _ ?_
    | with_reducible refine Moves.foldl_snd ?_ _ ?_
    | with_reducible refine Moves.elim _ ?_ ?_
    | with_reducible intro _

theorem invalidateKeys_moves {m : Nat} {r s : State} (hm : 6249984 ||| m = m) (h : Moves m r s) (x0 : _) (x1 : _) (x2 : _)  :
    Moves m r (Sys2Proof.Machine.invalidateKeys x0 x1 x2 s) := by
  unfold Sys2Proof.Machine.invalidateKeys
  repeat' first
    | with_reducible assumption
    | (with_reducible refine mask_sub hm ?_); exact rfl
    | with_reducible refine hardDiscard_moves ?_ ?_ _
    | with_reducible refine withdraw_moves ?_ ?_ _
    | with_reducible refine raiseOwn_moves ?_ ?_ _ _
    | with_reducible refine Moves.ite ?_ ?_

theorem storeCommit_moves {m : Nat} {r s : State} (hm : 25132634 ||| m = m) (h : Moves m r s)   :
    Moves m r (Sys2Proof.Machine.storeCommit s) := by
  unfold Sys2Proof.Machine.storeCommit
  repeat' first
    | with_reducible assumption
    | (with_reducible refine mask_sub hm ?_); exact rfl
    | with_reducible refine raise_moves ?_ ?_ _
    | with_reducible refine faultCond_moves ?_ ?_ _ _
    | with_reducible exact VaultOn.same rfl rfl
    | with_reducible refine Moves.ite ?_ ?_
    | with_reducible refine Moves.dite ?_ ?_
    | with_reducible refine Moves.ite_snd ?_ ?_
    | with_reducible refine Moves.foldl ?_ _ ?_
    | with_reducible refine Moves.foldl_snd ?_ _ ?_
    | with_reducible refine Moves.elim _ ?_ ?_
    | with_reducible intro _
    | with_reducible refine Moves.set_vault ?_ ?_ ?_

theorem cfgUpdate_moves {m : Nat} {r s : State} (hm : 32768 ||| m = m) (h : Moves m r s) (x0 : _)  :
    Moves m r (Sys2Proof.Machine.cfgUpdate x0 s) := by
  unfold Sys2Proof.Machine.cfgUpdate
  repeat' first
    | with_reducible assumption
    | with_reducible exact FlashOn.same rfl
    | with_reducible refine Moves.ite ?_ ?_
    | with_reducible refine Moves.dite ?_ ?_
    | with_reducible refine Moves.ite_snd ?_ ?_
    | with_reducible refine Moves.foldl ?_ _ ?_
    | with_reducible refine Moves.foldl_snd ?_ _ ?_
    | with_reducible refine Moves.elim _ ?_ ?_
    | with_reducible intro _
    | with_reducible refine Moves.set_flash ?_ ?_ ?_

theorem execIcpPtpKeyInstall_moves {m : Nat} {r s : State} (hm : 2048000 ||| m = m) (h : Moves m r s) (x0 : _) (x1 : _)  :
    MovesOut m r (Sys2Proof.Machine.execIcpPtpKeyInstall x0 x1 s) := by
  unfold Sys2Proof.Machine.execIcpPtpKeyInstall
  repeat' first
    | with_reducible assumption
    | with_reducible refine keyCmd_moves ?_ ?_ _ _ _ _

theorem demote_moves {m : Nat} {r s : State} (hm : 16384 ||| m = m) (h : Moves m r s) (x0 : _) (x1 : _) (x2 : _)  :
    Moves m r (Sys2Proof.Machine.demote x0 x1 x2 s) := by
  unfold Sys2Proof.Machine.demote
  repeat' first
    | with_reducible assumption
    | with_reducible refine setKey_moves ?_ ?_ _ _
    | with_reducible refine Moves.ite ?_ ?_
    | with_reducible refine Moves.dite ?_ ?_
    | with_reducible refine Moves.ite_snd ?_ ?_
    | with_reducible refine Moves.foldl ?_ _ ?_
    | with_reducible refine Moves.foldl_snd ?_ _ ?_
    | with_reducible refine Moves.elim _ ?_ ?_
    | with_reducible intro _

theorem loadEntry_moves {m : Nat} {r s : State} (hm : 16384 ||| m = m) (h : Moves m r s) (x0 : _)  :
    Moves m r (Sys2Proof.Machine.loadEntry x0 s) := by
  unfold Sys2Proof.Machine.loadEntry
  split
  · rename_i i o _ _
    have h1 := setKey_moves hm (draw_moves hm h) i fun k => { k with
      key := x0.key, used := true, owner := x0.owner, ptp := x0.ptp, num := x0.num, spp := x0.spp, state := x0.state,
      order := x0.order, ringGen := x0.gen, draining := false, mask := s.vault.draws }
    exact h1.set_vault hm ⟨Nat.le_refl _, fun e => by
      split
      · exact mwf_mset _ _ _ _ e
      · exact e⟩
  · exact h

theorem loadStore_moves {m : Nat} {r s : State} (hm : 25132634 ||| m = m) (h : Moves m r s)   :
    Moves m r (Sys2Proof.Machine.loadStore s) := by
  unfold Sys2Proof.Machine.loadStore
  split
  · with_reducible refine faultCond_moves (mask_sub hm rfl) ?_ _ _
    with_reducible refine Moves.foldl ?_ _ ?_
    · exact fun s a hs => loadEntry_moves (mask_sub hm rfl) hs a
    · with_reducible refine h.set_vault (mask_sub hm rfl) ?_
      with_reducible exact .same rfl rfl
  · have h1 : Moves m r { s with vault := { s.vault with storeLoaded := false, storeBank := false, storeCnt := 0 } } := by
      with_reducible refine h.set_vault (mask_sub hm rfl) ?_
      with_reducible exact .same rfl rfl
    cases s.vault.enrolled
    · exact h1
    · exact faultCond_moves (mask_sub hm rfl) h1 _ _

theorem execVaultReload_moves {m : Nat} {r s : State} (hm : 25132634 ||| m = m) (h : Moves m r s)   :
    MovesOut m r (Sys2Proof.Machine.execVaultReload s) := by
  unfold Sys2Proof.Machine.execVaultReload
  repeat' first
    | with_reducible assumption
    | (with_reducible refine mask_sub hm ?_); exact rfl
    | with_reducible refine rootKeys_moves ?_ ?_ 
    | with_reducible refine startKeys_moves ?_ ?_ 
    | with_reducible refine loadStore_moves ?_ ?_ 
    | with_reducible refine raise_moves ?_ ?_ _
    | with_reducible refine Moves.ite ?_ ?_
    | with_reducible refine Moves.dite ?_ ?_
    | with_reducible refine Moves.ite_snd ?_ ?_
    | with_reducible refine Moves.foldl ?_ _ ?_
    | with_reducible refine Moves.foldl_snd ?_ _ ?_
    | with_reducible refine Moves.elim _ ?_ ?_
    | with_reducible refine MovesOut.next ?_
    | with_reducible refine MovesOut.ite ?_ ?_

theorem execIcpVaultStatus_moves {m : Nat} {r s : State} (hm : 2031616 ||| m = m) (h : Moves m r s) (x0 : _)  :
    MovesOut m r (Sys2Proof.Machine.execIcpVaultStatus x0 s) := by
  unfold Sys2Proof.Machine.execIcpVaultStatus
  repeat' first
    | with_reducible assumption
    | with_reducible refine icpGet_moves ?_ ?_ _ _ _

theorem flyFollow_moves {m : Nat} {r s : State} (hm : 32 ||| m = m) (h : Moves m r s)   :
    Moves m r (Sys2Proof.Machine.flyFollow s) := by
  unfold Sys2Proof.Machine.flyFollow
  repeat' first
    | with_reducible assumption
    | with_reducible refine flyStart_moves ?_ ?_ _
    | with_reducible refine Moves.ite ?_ ?_
    | with_reducible refine Moves.dite ?_ ?_
    | with_reducible refine Moves.ite_snd ?_ ?_
    | with_reducible refine Moves.foldl ?_ _ ?_
    | with_reducible refine Moves.foldl_snd ?_ _ ?_
    | with_reducible refine Moves.elim _ ?_ ?_
    | with_reducible intro _
    | with_reducible refine Moves.set_guy ?_ ?_

theorem applyInstall_moves {m : Nat} {r s : State} (hm : 6249984 ||| m = m) (h : Moves m r s) (x0 : _) (x1 : _) (x2 : _) (x3 : _) (x4 : _) (x5 : _)  :
    Moves m r (Sys2Proof.Machine.applyInstall x0 x1 x2 x3 x4 x5 s) := by
  unfold Sys2Proof.Machine.applyInstall
  try dsimp only
  repeat' first
    | with_reducible assumption
    | (with_reducible refine mask_sub hm ?_); exact rfl
    | with_reducible refine raiseOwn_moves ?_ ?_ _ _
    | with_reducible refine draw_moves ?_ ?_ 
    | with_reducible refine setKey_moves ?_ ?_ _ _
    | with_reducible refine demote_moves ?_ ?_ _ _ _
    | with_reducible refine invalidateKeys_moves ?_ ?_ _ _ _
    | with_reducible exact VaultOn.same rfl rfl
    | with_reducible refine Moves.ite ?_ ?_
    | with_reducible refine Moves.dite ?_ ?_
    | with_reducible refine Moves.ite_snd ?_ ?_
    | with_reducible refine Moves.foldl ?_ _ ?_
    | with_reducible refine Moves.foldl_snd ?_ _ ?_
    | with_reducible refine Moves.elim _ ?_ ?_
    | with_reducible intro _
    | split
    | with_reducible refine Moves.set_vault ?_ ?_ ?_

theorem guySave_moves {m : Nat} {r s : State} (hm : 32800 ||| m = m) (h : Moves m r s)   :
    Moves m r (Sys2Proof.Machine.guySave s) := by
  unfold Sys2Proof.Machine.guySave
  repeat' first
    | with_reducible assumption
    | (with_reducible refine mask_sub hm ?_); exact rfl
    | with_reducible refine cfgUpdate_moves ?_ ?_ _
    | with_reducible refine Moves.ite ?_ ?_
    | with_reducible refine Moves.dite ?_ ?_
    | with_reducible refine Moves.ite_snd ?_ ?_
    | with_reducible refine Moves.foldl ?_ _ ?_
    | with_reducible refine Moves.foldl_snd ?_ _ ?_
    | with_reducible refine Moves.elim _ ?_ ?_
    | with_reducible intro _
    | with_reducible refine Moves.set_guy ?_ ?_

theorem execIcpNtsKeyRotate_moves {m : Nat} {r s : State} (hm : 2048000 ||| m = m) (h : Moves m r s) (x0 : _) (x1 : _)  :
    MovesOut m r (Sys2Proof.Machine.execIcpNtsKeyRotate x0 x1 s) := by
  unfold Sys2Proof.Machine.execIcpNtsKeyRotate
  repeat' first
    | with_reducible assumption
    | with_reducible refine keyCmd_moves ?_ ?_ _ _ _ _

theorem holdSecond_moves {m : Nat} {r s : State} (hm : 32 ||| m = m) (h : Moves m r s)   :
    Moves m r (Sys2Proof.Machine.holdSecond s) := by
  unfold Sys2Proof.Machine.holdSecond
  try dsimp only
  repeat' first
    | with_reducible assumption
    | with_reducible refine Moves.ite ?_ ?_
    | with_reducible refine Moves.dite ?_ ?_
    | with_reducible refine Moves.ite_snd ?_ ?_
    | with_reducible refine Moves.foldl ?_ _ ?_
    | with_reducible refine Moves.foldl_snd ?_ _ ?_
    | with_reducible refine Moves.elim _ ?_ ?_
    | with_reducible intro _
    | split
    | with_reducible refine Moves.set_guy ?_ ?_

theorem execIcpHoldReset_moves {m : Nat} {r s : State} (hm : 2031648 ||| m = m) (h : Moves m r s) (x0 : _) (x1 : _) (x2 : _) (x3 : _)  :
    MovesOut m r (Sys2Proof.Machine.execIcpHoldReset x0 x1 x2 x3 s) := by
  unfold Sys2Proof.Machine.execIcpHoldReset
  repeat' first
    | with_reducible assumption
    | (with_reducible refine mask_sub hm ?_); exact rfl
    | with_reducible refine sticky_moves ?_ ?_ _ _
    | with_reducible refine icpDo_moves ?_ ?_ _ _ _ _ _ ?_
    | with_reducible refine Moves.ite ?_ ?_
    | with_reducible refine Moves.self ?_
    | with_reducible refine Moves.dite ?_ ?_
    | with_reducible refine Moves.ite_snd ?_ ?_
    | with_reducible refine Moves.foldl ?_ _ ?_
    | with_reducible refine Moves.foldl_snd ?_ _ ?_
    | with_reducible refine Moves.elim _ ?_ ?_
    | with_reducible refine MovesOut.next ?_
    | with_reducible refine MovesOut.ite ?_ ?_
    | with_reducible intro _
    | with_reducible refine Moves.set_guy ?_ ?_

theorem execRemaskVisit_moves {m : Nat} {r s : State} (hm : 25132634 ||| m = m) (h : Moves m r s) (x0 : _) (x1 : _)  :
    MovesOut m r (Sys2Proof.Machine.execRemaskVisit x0 x1 s) := by
  unfold Sys2Proof.Machine.execRemaskVisit
  repeat' first
    | with_reducible assumption
    | (with_reducible refine mask_sub hm ?_); exact rfl
    | with_reducible refine faultCond_moves ?_ ?_ _ _
    | with_reducible refine raise_moves ?_ ?_ _
    | with_reducible refine draw_moves ?_ ?_ 
    | with_reducible refine setKey_moves ?_ ?_ _ _
    | with_reducible exact VaultOn.same rfl rfl
    | with_reducible refine Moves.ite ?_ ?_
    | with_reducible refine Moves.dite ?_ ?_
    | with_reducible refine Moves.ite_snd ?_ ?_
    | with_reducible refine Moves.foldl ?_ _ ?_
    | with_reducible refine Moves.foldl_snd ?_ _ ?_
    | with_reducible refine Moves.elim _ ?_ ?_
    | with_reducible refine MovesOut.next ?_
    | with_reducible refine MovesOut.ite ?_ ?_
    | with_reducible intro _
    | with_reducible refine Moves.set_vault ?_ ?_ ?_

theorem execAtomUartPoll_moves {m : Nat} {r s : State} (hm : 32 ||| m = m) (h : Moves m r s)   :
    MovesOut m r (Sys2Proof.Machine.execAtomUartPoll s) := by
  unfold Sys2Proof.Machine.execAtomUartPoll
  try dsimp only
  repeat' first
    | with_reducible assumption
    | with_reducible refine Moves.ite ?_ ?_
    | with_reducible refine Moves.dite ?_ ?_
    | with_reducible refine Moves.ite_snd ?_ ?_
    | with_reducible refine Moves.foldl ?_ _ ?_
    | with_reducible refine Moves.foldl_snd ?_ _ ?_
    | with_reducible refine Moves.elim _ ?_ ?_
    | with_reducible refine MovesOut.next ?_
    | with_reducible refine MovesOut.ite ?_ ?_
    | with_reducible intro _
    | split
    | with_reducible refine Moves.set_guy ?_ ?_

theorem execIcpFwCommit_moves {m : Nat} {r s : State} (hm : 2048000 ||| m = m) (h : Moves m r s) (x0 : _) (x1 : _) (x2 : _)  :
    MovesOut m r (Sys2Proof.Machine.execIcpFwCommit x0 x1 x2 s) := by
  unfold Sys2Proof.Machine.execIcpFwCommit Sys2Proof.Machine.icpDo
  refine icp_moves (mask_sub hm rfl) h _ _ _ fun s h => ?_
  dsimp only
  split
  · rename_i e
    refine MovesRes.done ?_
    split
    · exact h
    · rename_i ne
      have lt : s.vault.otpSvn < s.vault.svn := by
        by_contra nl
        have hc : mayCommit x1 s = false := by simp [mayCommit, nl]
        have hn : (s.vault.otpSvn != s.vault.svn) = true := by simpa using ne
        rw [hc, hn] at e
        cases x2 <;> simp [firstFail, stOk, stBadArg, stOrder] at e
      refine raise_moves (mask_sub hm rfl) (trailFw_moves (mask_sub hm rfl) (h.set_vault (mask_sub hm rfl) ?_) _ _ _) _
      exact ⟨Nat.le_of_lt lt, id⟩
  · exact .done h

theorem fwPass_moves {m : Nat} {r s : State} (hm : 1916930 ||| m = m) (h : Moves m r s) (x0 : _)  :
    Moves m r (Sys2Proof.Machine.fwPass x0 s) := by
  unfold Sys2Proof.Machine.fwPass
  repeat' first
    | with_reducible assumption
    | (with_reducible refine mask_sub hm ?_); exact rfl
    | with_reducible refine writePref_moves ?_ ?_ _
    | with_reducible refine trailFw_moves ?_ ?_ _ _ _
    | with_reducible refine raise_moves ?_ ?_ _
    | with_reducible exact AonOn.same rfl
    | with_reducible exact VaultOn.same rfl rfl
    | with_reducible refine Moves.ite ?_ ?_
    | with_reducible refine Moves.dite ?_ ?_
    | with_reducible refine Moves.ite_snd ?_ ?_
    | with_reducible refine Moves.foldl ?_ _ ?_
    | with_reducible refine Moves.foldl_snd ?_ _ ?_
    | with_reducible refine Moves.elim _ ?_ ?_
    | with_reducible intro _
    | with_reducible refine Moves.set_aon_vault ?_ ?_ ?_ ?_

theorem execIcpFwFinish_moves {m : Nat} {r s : State} (hm : 25132634 ||| m = m) (h : Moves m r s) (x0 : _) (x1 : _) (x2 : _)  :
    MovesOut m r (Sys2Proof.Machine.execIcpFwFinish x0 x1 x2 s) := by
  unfold Sys2Proof.Machine.execIcpFwFinish
  repeat' first
    | with_reducible assumption
    | (with_reducible refine mask_sub hm ?_); exact rfl
    | with_reducible refine trailFw_moves ?_ ?_ _ _ _
    | with_reducible refine faultEvent_moves ?_ ?_ _
    | with_reducible refine raise_moves ?_ ?_ _
    | with_reducible refine fwPass_moves ?_ ?_ _
    | with_reducible refine icp_moves ?_ ?_ _ _ _ ?_
    | with_reducible exact VaultOn.same rfl rfl
    | with_reducible refine Moves.ite ?_ ?_
    | with_reducible refine Moves.dite ?_ ?_
    | with_reducible refine Moves.ite_snd ?_ ?_
    | with_reducible refine Moves.foldl ?_ _ ?_
    | with_reducible refine Moves.foldl_snd ?_ _ ?_
    | with_reducible refine Moves.elim _ ?_ ?_
    | with_reducible refine MovesOut.next ?_
    | with_reducible refine MovesOut.ite ?_ ?_
    | with_reducible refine MovesRes.ite ?_ ?_
    | with_reducible refine MovesRes.done ?_
    | with_reducible refine MovesRes.later ?_
    | with_reducible intro _
    | with_reducible refine Moves.set_vault ?_ ?_ ?_

theorem execIcpFwWrite_moves {m : Nat} {r s : State} (hm : 2080768 ||| m = m) (h : Moves m r s) (x0 : _) (x1 : _)  :
    MovesOut m r (Sys2Proof.Machine.execIcpFwWrite x0 x1 s) := by
  unfold Sys2Proof.Machine.execIcpFwWrite
  repeat' first
    | with_reducible assumption
    | (with_reducible refine mask_sub hm ?_); exact rfl
    | with_reducible refine icpDo_moves ?_ ?_ _ _ _ _ _ ?_
    | exact fun e => mwf_mputs _ _ _ _ e
    | with_reducible exact VaultOn.same rfl rfl
    | with_reducible exact FlashOn.same rfl
    | with_reducible refine Moves.ite ?_ ?_
    | with_reducible refine Moves.self ?_
    | with_reducible refine Moves.dite ?_ ?_
    | with_reducible refine Moves.ite_snd ?_ ?_
    | with_reducible refine Moves.foldl ?_ _ ?_
    | with_reducible refine Moves.foldl_snd ?_ _ ?_
    | with_reducible refine Moves.elim _ ?_ ?_
    | with_reducible refine MovesOut.next ?_
    | with_reducible refine MovesOut.ite ?_ ?_
    | with_reducible intro _
    | with_reducible refine Moves.set_vault_flash ?_ ?_ ?_ ?_

theorem execIcpFwBegin_moves {m : Nat} {r s : State} (hm : 2080768 ||| m = m) (h : Moves m r s) (x0 : _) (x1 : _) (x2 : _)  :
    MovesOut m r (Sys2Proof.Machine.execIcpFwBegin x0 x1 x2 s) := by
  unfold Sys2Proof.Machine.execIcpFwBegin
  repeat' first
    | with_reducible assumption
    | (with_reducible refine mask_sub hm ?_); exact rfl
    | with_reducible refine icpDo_moves ?_ ?_ _ _ _ _ _ ?_
    | exact fun e => mwf_mclear _ _ _ _ e
    | with_reducible exact VaultOn.same rfl rfl
    | with_reducible exact FlashOn.same rfl
    | with_reducible refine Moves.ite ?_ ?_
    | with_reducible refine Moves.self ?_
    | with_reducible refine Moves.dite ?_ ?_
    | with_reducible refine Moves.ite_snd ?_ ?_
    | with_reducible refine Moves.foldl ?_ _ ?_
    | with_reducible refine Moves.foldl_snd ?_ _ ?_
    | with_reducible refine Moves.elim _ ?_ ?_
    | with_reducible refine MovesOut.next ?_
    | with_reducible refine MovesOut.ite ?_ ?_
    | with_reducible intro _
    | with_reducible refine Moves.set_vault_flash ?_ ?_ ?_ ?_

theorem execIcpFwStatus_moves {m : Nat} {r s : State} (hm : 2031616 ||| m = m) (h : Moves m r s) (x0 : _)  :
    MovesOut m r (Sys2Proof.Machine.execIcpFwStatus x0 s) := by
  unfold Sys2Proof.Machine.execIcpFwStatus
  repeat' first
    | with_reducible assumption
    | with_reducible refine icpGet_moves ?_ ?_ _ _ _

theorem execIcpKeyEnroll_moves {m : Nat} {r s : State} (hm : 2048000 ||| m = m) (h : Moves m r s) (x0 : _) (x1 : _)  :
    MovesOut m r (Sys2Proof.Machine.execIcpKeyEnroll x0 x1 s) := by
  unfold Sys2Proof.Machine.execIcpKeyEnroll
  repeat' first
    | with_reducible assumption
    | (with_reducible refine mask_sub hm ?_); exact rfl
    | with_reducible refine rootKeys_moves ?_ ?_ 
    | with_reducible refine icpDo_moves ?_ ?_ _ _ _ _ _ ?_
    | with_reducible exact VaultOn.same rfl rfl
    | with_reducible refine Moves.ite ?_ ?_
    | with_reducible refine Moves.self ?_
    | with_reducible refine Moves.dite ?_ ?_
    | with_reducible refine Moves.ite_snd ?_ ?_
    | with_reducible refine Moves.foldl ?_ _ ?_
    | with_reducible refine Moves.foldl_snd ?_ _ ?_
    | with_reducible refine Moves.elim _ ?_ ?_
    | with_reducible refine MovesOut.next ?_
    | with_reducible refine MovesOut.ite ?_ ?_
    | with_reducible intro _
    | with_reducible refine Moves.set_vault ?_ ?_ ?_

theorem execIcpIdGet_moves {m : Nat} {r s : State} (hm : 2031616 ||| m = m) (h : Moves m r s) (x0 : _)  :
    MovesOut m r (Sys2Proof.Machine.execIcpIdGet x0 s) := by
  unfold Sys2Proof.Machine.execIcpIdGet
  repeat' first
    | with_reducible assumption
    | with_reducible refine icpGet_moves ?_ ?_ _ _ _

theorem execIcpPtpKeyRotate_moves {m : Nat} {r s : State} (hm : 2048000 ||| m = m) (h : Moves m r s) (x0 : _) (x1 : _) (x2 : _) (x3 : _)  :
    MovesOut m r (Sys2Proof.Machine.execIcpPtpKeyRotate x0 x1 x2 x3 s) := by
  unfold Sys2Proof.Machine.execIcpPtpKeyRotate
  repeat' first
    | with_reducible assumption
    | with_reducible refine keyCmd_moves ?_ ?_ _ _ _ _

theorem execIcpNtsKeyList_moves {m : Nat} {r s : State} (hm : 2031616 ||| m = m) (h : Moves m r s) (x0 : _)  :
    MovesOut m r (Sys2Proof.Machine.execIcpNtsKeyList x0 s) := by
  unfold Sys2Proof.Machine.execIcpNtsKeyList
  repeat' first
    | with_reducible assumption
    | with_reducible refine ringList_moves ?_ ?_ _ _ _

theorem execIcpNtsKeyInvalidate_moves {m : Nat} {r s : State} (hm : 2048000 ||| m = m) (h : Moves m r s) (x0 : _) (x1 : _)  :
    MovesOut m r (Sys2Proof.Machine.execIcpNtsKeyInvalidate x0 x1 s) := by
  unfold Sys2Proof.Machine.execIcpNtsKeyInvalidate
  repeat' first
    | with_reducible assumption
    | with_reducible refine keyCmd_moves ?_ ?_ _ _ _ _

theorem execIcpNtsKeyInstall_moves {m : Nat} {r s : State} (hm : 2048000 ||| m = m) (h : Moves m r s) (x0 : _) (x1 : _)  :
    MovesOut m r (Sys2Proof.Machine.execIcpNtsKeyInstall x0 x1 s) := by
  unfold Sys2Proof.Machine.execIcpNtsKeyInstall
  repeat' first
    | with_reducible assumption
    | with_reducible refine keyCmd_moves ?_ ?_ _ _ _ _

theorem execIcpAtomUartConfig_moves {m : Nat} {r s : State} (hm : 2031648 ||| m = m) (h : Moves m r s) (x0 : _) (x1 : _)  :
    MovesOut m r (Sys2Proof.Machine.execIcpAtomUartConfig x0 x1 s) := by
  unfold Sys2Proof.Machine.execIcpAtomUartConfig
  repeat' first
    | with_reducible assumption
    | (with_reducible refine mask_sub hm ?_); exact rfl
    | with_reducible refine guyLevel_moves ?_ ?_ 
    | with_reducible refine icpDo_moves ?_ ?_ _ _ _ _ _ ?_
    | with_reducible refine Moves.ite ?_ ?_
    | with_reducible refine Moves.self ?_
    | with_reducible refine Moves.dite ?_ ?_
    | with_reducible refine Moves.ite_snd ?_ ?_
    | with_reducible refine Moves.foldl ?_ _ ?_
    | with_reducible refine Moves.foldl_snd ?_ _ ?_
    | with_reducible refine Moves.elim _ ?_ ?_
    | with_reducible refine MovesOut.next ?_
    | with_reducible refine MovesOut.ite ?_ ?_
    | with_reducible intro _
    | with_reducible refine Moves.set_guy ?_ ?_

theorem execIcpHoldStatus_moves {m : Nat} {r s : State} (hm : 2031616 ||| m = m) (h : Moves m r s) (x0 : _)  :
    MovesOut m r (Sys2Proof.Machine.execIcpHoldStatus x0 s) := by
  unfold Sys2Proof.Machine.execIcpHoldStatus
  repeat' first
    | with_reducible assumption
    | with_reducible refine icpGet_moves ?_ ?_ _ _ _

theorem execIcpHoldOscConfig_moves {m : Nat} {r s : State} (hm : 2031648 ||| m = m) (h : Moves m r s) (x0 : _) (x1 : _)  :
    MovesOut m r (Sys2Proof.Machine.execIcpHoldOscConfig x0 x1 s) := by
  unfold Sys2Proof.Machine.execIcpHoldOscConfig
  repeat' first
    | with_reducible assumption
    | (with_reducible refine mask_sub hm ?_); exact rfl
    | with_reducible refine guyLevel_moves ?_ ?_ 
    | with_reducible refine icpDo_moves ?_ ?_ _ _ _ _ _ ?_
    | with_reducible refine Moves.ite ?_ ?_
    | with_reducible refine Moves.self ?_
    | with_reducible refine Moves.dite ?_ ?_
    | with_reducible refine Moves.ite_snd ?_ ?_
    | with_reducible refine Moves.foldl ?_ _ ?_
    | with_reducible refine Moves.foldl_snd ?_ _ ?_
    | with_reducible refine Moves.elim _ ?_ ?_
    | with_reducible refine MovesOut.next ?_
    | with_reducible refine MovesOut.ite ?_ ?_
    | with_reducible intro _
    | with_reducible refine Moves.set_guy ?_ ?_

theorem execIcpHoldConfig_moves {m : Nat} {r s : State} (hm : 2031648 ||| m = m) (h : Moves m r s) (x0 : _) (x1 : _)  :
    MovesOut m r (Sys2Proof.Machine.execIcpHoldConfig x0 x1 s) := by
  unfold Sys2Proof.Machine.execIcpHoldConfig
  repeat' first
    | with_reducible assumption
    | (with_reducible refine mask_sub hm ?_); exact rfl
    | with_reducible refine guyLevel_moves ?_ ?_ 
    | with_reducible refine icpDo_moves ?_ ?_ _ _ _ _ _ ?_
    | with_reducible refine Moves.ite ?_ ?_
    | with_reducible refine Moves.self ?_
    | with_reducible refine Moves.dite ?_ ?_
    | with_reducible refine Moves.ite_snd ?_ ?_
    | with_reducible refine Moves.foldl ?_ _ ?_
    | with_reducible refine Moves.foldl_snd ?_ _ ?_
    | with_reducible refine Moves.elim _ ?_ ?_
    | with_reducible refine MovesOut.next ?_
    | with_reducible refine MovesOut.ite ?_ ?_
    | with_reducible intro _
    | with_reducible refine Moves.set_guy ?_ ?_

theorem execKeyCommandTimeout_moves {m : Nat} {r s : State} (hm : 606212 ||| m = m) (h : Moves m r s) (x0 : _)  :
    MovesOut m r (Sys2Proof.Machine.execKeyCommandTimeout x0 s) := by
  unfold Sys2Proof.Machine.execKeyCommandTimeout
  try dsimp only
  repeat' first
    | with_reducible assumption
    | (with_reducible refine mask_sub hm ?_); exact rfl
    | with_reducible refine complete_moves ?_ ?_ _ _ _ _
    | with_reducible refine atOdo_moves ?_ ?_ _
    | with_reducible exact VaultOn.same rfl rfl
    | with_reducible refine Moves.ite ?_ ?_
    | with_reducible refine Moves.dite ?_ ?_
    | with_reducible refine Moves.ite_snd ?_ ?_
    | with_reducible refine Moves.foldl ?_ _ ?_
    | with_reducible refine Moves.foldl_snd ?_ _ ?_
    | with_reducible refine Moves.elim _ ?_ ?_
    | with_reducible refine MovesOut.next ?_
    | with_reducible refine MovesOut.ite ?_ ?_
    | with_reducible intro _
    | split
    | with_reducible refine Moves.set_vault ?_ ?_ ?_

theorem drainStep_moves {m : Nat} {r s : State} (hm : 606208 ||| m = m) (h : Moves m r s) (x0 : _)  :
    Moves m r (Sys2Proof.Machine.drainStep x0 s) := by
  unfold Sys2Proof.Machine.drainStep
  repeat' first
    | with_reducible assumption
    | (with_reducible refine mask_sub hm ?_); exact rfl
    | with_reducible refine complete_moves ?_ ?_ _ _ _ _
    | with_reducible exact VaultOn.same rfl rfl
    | with_reducible refine Moves.ite ?_ ?_
    | with_reducible refine Moves.dite ?_ ?_
    | with_reducible refine Moves.ite_snd ?_ ?_
    | with_reducible refine Moves.foldl ?_ _ ?_
    | with_reducible refine Moves.foldl_snd ?_ _ ?_
    | with_reducible refine Moves.elim _ ?_ ?_
    | with_reducible intro _
    | with_reducible refine Moves.set_vault ?_ ?_ ?_

theorem execKeyDrained_moves {m : Nat} {r s : State} (hm : 606208 ||| m = m) (h : Moves m r s) (x0 : _)  :
    MovesOut m r (Sys2Proof.Machine.execKeyDrained x0 s) := by
  unfold Sys2Proof.Machine.execKeyDrained
  repeat' first
    | with_reducible assumption
    | (with_reducible refine mask_sub hm ?_); exact rfl
    | with_reducible refine raiseOwn_moves ?_ ?_ _ _
    | with_reducible refine raise_moves ?_ ?_ _
    | with_reducible refine drainStep_moves ?_ ?_ _
    | with_reducible refine keyNext_moves ?_ ?_ 
    | with_reducible refine setKey_moves ?_ ?_ _ _
    | with_reducible refine Moves.ite ?_ ?_
    | with_reducible refine Moves.dite ?_ ?_
    | with_reducible refine Moves.ite_snd ?_ ?_
    | with_reducible refine Moves.foldl ?_ _ ?_
    | with_reducible refine Moves.foldl_snd ?_ _ ?_
    | with_reducible refine Moves.elim _ ?_ ?_
    | with_reducible refine MovesOut.next ?_
    | with_reducible refine MovesOut.ite ?_ ?_
    | with_reducible intro _

theorem applyInvalidate_moves {m : Nat} {r s : State} (hm : 6249984 ||| m = m) (h : Moves m r s) (x0 : _) (x1 : _) (x2 : _) (x3 : _) (x4 : _) (x5 : _) (x6 : _)  :
    Moves m r (Sys2Proof.Machine.applyInvalidate x0 x1 x2 x3 x4 x5 x6 s) := by
  unfold Sys2Proof.Machine.applyInvalidate
  repeat' first
    | with_reducible assumption
    | (with_reducible refine mask_sub hm ?_); exact rfl
    | with_reducible refine ringAdvance_moves ?_ ?_ _ _ _
    | with_reducible refine invalidateKeys_moves ?_ ?_ _ _ _
    | with_reducible exact VaultOn.same rfl rfl
    | with_reducible refine Moves.ite ?_ ?_
    | with_reducible refine Moves.dite ?_ ?_
    | with_reducible refine Moves.ite_snd ?_ ?_
    | with_reducible refine Moves.foldl ?_ _ ?_
    | with_reducible refine Moves.foldl_snd ?_ _ ?_
    | with_reducible refine Moves.elim _ ?_ ?_
    | with_reducible intro _
    | with_reducible refine Moves.set_vault ?_ ?_ ?_

theorem applyRotate_moves {m : Nat} {r s : State} (hm : 606208 ||| m = m) (h : Moves m r s) (x0 : _) (x1 : _) (x2 : _) (x3 : _)  :
    Moves m r (Sys2Proof.Machine.applyRotate x0 x1 x2 x3 s) := by
  unfold Sys2Proof.Machine.applyRotate
  try dsimp only
  repeat' first
    | with_reducible assumption
    | (with_reducible refine mask_sub hm ?_); exact rfl
    | with_reducible refine demote_moves ?_ ?_ _ _ _
    | with_reducible refine setKey_moves ?_ ?_ _ _
    | with_reducible refine raiseOwn_moves ?_ ?_ _ _
    | with_reducible refine Moves.ite ?_ ?_
    | with_reducible refine Moves.dite ?_ ?_
    | with_reducible refine Moves.ite_snd ?_ ?_
    | with_reducible refine Moves.foldl ?_ _ ?_
    | with_reducible refine Moves.foldl_snd ?_ _ ?_
    | with_reducible refine Moves.elim _ ?_ ?_
    | with_reducible intro _
    | split

theorem keyApply_moves {m : Nat} {r s : State} (hm : 25132634 ||| m = m) (h : Moves m r s) (x0 : _)  :
    Moves m r (Sys2Proof.Machine.keyApply x0 s) := by
  unfold Sys2Proof.Machine.keyApply
  try dsimp only
  repeat' first
    | with_reducible assumption
    | (with_reducible refine mask_sub hm ?_); exact rfl
    | with_reducible refine applyInvalidate_moves ?_ ?_ _ _ _ _ _ _ _
    | with_reducible refine applyRotate_moves ?_ ?_ _ _ _ _
    | with_reducible refine applyInstall_moves ?_ ?_ _ _ _ _ _ _
    | with_reducible refine storeCommit_moves ?_ ?_ 
    | with_reducible refine complete_moves ?_ ?_ _ _ _ _
    | with_reducible refine Moves.ite ?_ ?_
    | with_reducible refine Moves.dite ?_ ?_
    | with_reducible refine Moves.ite_snd ?_ ?_
    | with_reducible refine Moves.foldl ?_ _ ?_
    | with_reducible refine Moves.foldl_snd ?_ _ ?_
    | with_reducible refine Moves.elim _ ?_ ?_
    | with_reducible intro _
    | split

theorem execKeyStoreCommit_moves {m : Nat} {r s : State} (hm : 25132634 ||| m = m) (h : Moves m r s) (x0 : _)  :
    MovesOut m r (Sys2Proof.Machine.execKeyStoreCommit x0 s) := by
  unfold Sys2Proof.Machine.execKeyStoreCommit
  try dsimp only
  repeat' first
    | with_reducible assumption
    | (with_reducible refine mask_sub hm ?_); exact rfl
    | with_reducible refine sticky_moves ?_ ?_ _ _
    | with_reducible refine faultEvent_moves ?_ ?_ _
    | with_reducible refine raise_moves ?_ ?_ _
    | with_reducible refine keyApply_moves ?_ ?_ _
    | with_reducible refine complete_moves ?_ ?_ _ _ _ _
    | with_reducible refine keyNext_moves ?_ ?_ 
    | with_reducible exact VaultOn.same rfl rfl
    | with_reducible refine Moves.ite ?_ ?_
    | with_reducible refine Moves.dite ?_ ?_
    | with_reducible refine Moves.ite_snd ?_ ?_
    | with_reducible refine Moves.foldl ?_ _ ?_
    | with_reducible refine Moves.foldl_snd ?_ _ ?_
    | with_reducible refine Moves.elim _ ?_ ?_
    | with_reducible refine MovesOut.next ?_
    | with_reducible refine MovesOut.ite ?_ ?_
    | with_reducible intro _
    | split
    | with_reducible refine Moves.set_vault ?_ ?_ ?_

theorem execEcdsaSelfTest_moves {m : Nat} {r s : State} (hm : 25132634 ||| m = m) (h : Moves m r s) (x0 : _)  :
    MovesOut m r (Sys2Proof.Machine.execEcdsaSelfTest x0 s) := by
  unfold Sys2Proof.Machine.execEcdsaSelfTest
  repeat' first
    | with_reducible assumption
    | (with_reducible refine mask_sub hm ?_); exact rfl
    | with_reducible refine raise_moves ?_ ?_ _
    | with_reducible refine faultCond_moves ?_ ?_ _ _
    | with_reducible exact VaultOn.same rfl rfl
    | with_reducible refine Moves.ite ?_ ?_
    | with_reducible refine Moves.dite ?_ ?_
    | with_reducible refine Moves.ite_snd ?_ ?_
    | with_reducible refine Moves.foldl ?_ _ ?_
    | with_reducible refine Moves.foldl_snd ?_ _ ?_
    | with_reducible refine Moves.elim _ ?_ ?_
    | with_reducible refine MovesOut.next ?_
    | with_reducible refine MovesOut.ite ?_ ?_
    | with_reducible intro _
    | with_reducible refine Moves.set_vault ?_ ?_ ?_

theorem execRngReseed_moves {m : Nat} {r s : State} (hm : 25132634 ||| m = m) (h : Moves m r s) (x0 : _) (x1 : _)  :
    MovesOut m r (Sys2Proof.Machine.execRngReseed x0 x1 s) := by
  unfold Sys2Proof.Machine.execRngReseed
  repeat' first
    | with_reducible assumption
    | (with_reducible refine mask_sub hm ?_); exact rfl
    | with_reducible refine faultCond_moves ?_ ?_ _ _
    | with_reducible refine raise_moves ?_ ?_ _
    | with_reducible exact VaultOn.same rfl rfl
    | with_reducible refine Moves.ite ?_ ?_
    | with_reducible refine Moves.dite ?_ ?_
    | with_reducible refine Moves.ite_snd ?_ ?_
    | with_reducible refine Moves.foldl ?_ _ ?_
    | with_reducible refine Moves.foldl_snd ?_ _ ?_
    | with_reducible refine Moves.elim _ ?_ ?_
    | with_reducible refine MovesOut.next ?_
    | with_reducible refine MovesOut.ite ?_ ?_
    | with_reducible intro _
    | with_reducible refine Moves.set_vault ?_ ?_ ?_

theorem execGuylineModelSave_moves {m : Nat} {r s : State} (hm : 32800 ||| m = m) (h : Moves m r s)   :
    MovesOut m r (Sys2Proof.Machine.execGuylineModelSave s) := by
  unfold Sys2Proof.Machine.execGuylineModelSave
  repeat' first
    | with_reducible assumption
    | with_reducible refine guySave_moves ?_ ?_ 
    | with_reducible refine Moves.ite ?_ ?_
    | with_reducible refine Moves.dite ?_ ?_
    | with_reducible refine Moves.ite_snd ?_ ?_
    | with_reducible refine Moves.foldl ?_ _ ?_
    | with_reducible refine Moves.foldl_snd ?_ _ ?_
    | with_reducible refine Moves.elim _ ?_ ?_
    | with_reducible refine MovesOut.next ?_

theorem execTempLost_moves {m : Nat} {r s : State} (hm : 852000 ||| m = m) (h : Moves m r s) (x0 : _)  :
    MovesOut m r (Sys2Proof.Machine.execTempLost x0 s) := by
  unfold Sys2Proof.Machine.execTempLost
  repeat' first
    | with_reducible assumption
    | (with_reducible refine mask_sub hm ?_); exact rfl
    | with_reducible refine sticky_moves ?_ ?_ _ _
    | with_reducible refine raise_moves ?_ ?_ _
    | with_reducible refine Moves.ite ?_ ?_
    | with_reducible refine Moves.dite ?_ ?_
    | with_reducible refine Moves.ite_snd ?_ ?_
    | with_reducible refine Moves.foldl ?_ _ ?_
    | with_reducible refine Moves.foldl_snd ?_ _ ?_
    | with_reducible refine Moves.elim _ ?_ ?_
    | with_reducible refine MovesOut.next ?_
    | with_reducible refine MovesOut.ite ?_ ?_
    | with_reducible intro _
    | with_reducible refine Moves.set_guy ?_ ?_

theorem execAtomUartResponse_moves {m : Nat} {r s : State} (hm : 852000 ||| m = m) (h : Moves m r s) (x0 : _)  :
    MovesOut m r (Sys2Proof.Machine.execAtomUartResponse x0 s) := by
  unfold Sys2Proof.Machine.execAtomUartResponse
  try dsimp only
  repeat' first
    | with_reducible assumption
    | (with_reducible refine mask_sub hm ?_); exact rfl
    | with_reducible refine guyLevel_moves ?_ ?_ 
    | with_reducible refine Moves.ite ?_ ?_
    | with_reducible refine Moves.dite ?_ ?_
    | with_reducible refine Moves.ite_snd ?_ ?_
    | with_reducible refine Moves.foldl ?_ _ ?_
    | with_reducible refine Moves.foldl_snd ?_ _ ?_
    | with_reducible refine Moves.elim _ ?_ ?_
    | with_reducible refine MovesOut.next ?_
    | with_reducible refine MovesOut.ite ?_ ?_
    | with_reducible intro _
    | split
    | with_reducible refine Moves.set_guy ?_ ?_

theorem execLearnWindowEnd_moves {m : Nat} {r s : State} (hm : 852000 ||| m = m) (h : Moves m r s) (x0 : _)  :
    MovesOut m r (Sys2Proof.Machine.execLearnWindowEnd x0 s) := by
  unfold Sys2Proof.Machine.execLearnWindowEnd
  repeat' first
    | with_reducible assumption
    | (with_reducible refine mask_sub hm ?_); exact rfl
    | with_reducible refine guyLevel_moves ?_ ?_ 
    | with_reducible refine Moves.ite ?_ ?_
    | with_reducible refine Moves.dite ?_ ?_
    | with_reducible refine Moves.ite_snd ?_ ?_
    | with_reducible refine Moves.foldl ?_ _ ?_
    | with_reducible refine Moves.foldl_snd ?_ _ ?_
    | with_reducible refine Moves.elim _ ?_ ?_
    | with_reducible refine MovesOut.next ?_
    | with_reducible refine MovesOut.ite ?_ ?_
    | with_reducible intro _
    | with_reducible refine Moves.set_guy ?_ ?_

theorem condemn_moves {m : Nat} {r s : State} (hm : 852000 ||| m = m) (h : Moves m r s)   :
    Moves m r (Sys2Proof.Machine.condemn s) := by
  unfold Sys2Proof.Machine.condemn
  repeat' first
    | with_reducible assumption
    | (with_reducible refine mask_sub hm ?_); exact rfl
    | with_reducible refine sticky_moves ?_ ?_ _ _
    | with_reducible refine raise_moves ?_ ?_ _
    | with_reducible refine guyBreak_moves ?_ ?_ 
    | with_reducible refine Moves.ite ?_ ?_
    | with_reducible refine Moves.dite ?_ ?_
    | with_reducible refine Moves.ite_snd ?_ ?_
    | with_reducible refine Moves.foldl ?_ _ ?_
    | with_reducible refine Moves.foldl_snd ?_ _ ?_
    | with_reducible refine Moves.elim _ ?_ ?_
    | with_reducible intro _
    | with_reducible refine Moves.set_guy ?_ ?_

theorem holdExit_moves {m : Nat} {r s : State} (hm : 852000 ||| m = m) (h : Moves m r s)   :
    Moves m r (Sys2Proof.Machine.holdExit s) := by
  unfold Sys2Proof.Machine.holdExit
  repeat' first
    | with_reducible assumption
    | (with_reducible refine mask_sub hm ?_); exact rfl
    | with_reducible refine sticky_moves ?_ ?_ _ _
    | with_reducible refine raise_moves ?_ ?_ _
    | with_reducible refine Moves.ite ?_ ?_
    | with_reducible refine Moves.dite ?_ ?_
    | with_reducible refine Moves.ite_snd ?_ ?_
    | with_reducible refine Moves.foldl ?_ _ ?_
    | with_reducible refine Moves.foldl_snd ?_ _ ?_
    | with_reducible refine Moves.elim _ ?_ ?_
    | with_reducible intro _
    | with_reducible refine Moves.set_guy ?_ ?_

end Sys2Proof.Laws
end

