-- ==== Sys2Proof/Laws/MovesSign.lean ====
section
/-!
SUPPORT. What each function of Machine/Sign, Select may change, as `Moves`.
-/
namespace Sys2Proof.Laws
open Sys2Proof Sys2Proof.Machine

theorem onSlot_moves {m : Nat} {r s : State} (hm : 16 ||| m = m) (h : Moves m r s) (x0 : _) (x1 : _)  :
    Moves m r (Sys2Proof.Machine.onSlot x0 x1 s) := by
  unfold Sys2Proof.Machine.onSlot
  repeat' first
    | with_reducible assumption
    | with_reducible refine Moves.ite ?_ ?_
    | with_reducible refine Moves.dite ?_ ?_
    | with_reducible refine Moves.ite_snd ?_ ?_
    | with_reducible refine Moves.foldl ?_ _ ?_
    | with_reducible refine Moves.foldl_snd ?_ _ ?_
    | with_reducible refine Moves.elim _ ?_ ?_
    | with_reducible intro _
    | with_reducible refine Moves.set_sign ?_ ?_

theorem spared_moves {m : Nat} {r s : State} (hm : 262160 ||| m = m) (h : Moves m r s) (x0 : _) (x1 : _)  :
    Moves m r (Sys2Proof.Machine.spared x0 x1 s) := by
  unfold Sys2Proof.Machine.spared
  repeat' first
    | with_reducible assumption
    | (with_reducible refine mask_sub hm ?_); exact rfl
    | with_reducible refine onSlot_moves ?_ ?_ _ _
    | with_reducible refine sticky_moves ?_ ?_ _ _
    | with_reducible refine Moves.ite_app ?_ ?_
    | with_reducible refine Moves.self ?_
    | with_reducible refine Moves.ite ?_ ?_

theorem utcFrom_moves {m : Nat} {r s : State} (hm : 4 ||| m = m) (h : Moves m r s) (x0 : _)  :
    Moves m r (Sys2Proof.Machine.utcFrom x0 s) := by
  unfold Sys2Proof.Machine.utcFrom
  try dsimp only
  repeat' first
    | with_reducible assumption
    | with_reducible refine adoptUtc_moves ?_ ?_ _ _
    | with_reducible refine Moves.ite ?_ ?_
    | with_reducible refine Moves.dite ?_ ?_
    | with_reducible refine Moves.ite_snd ?_ ?_
    | with_reducible refine Moves.foldl ?_ _ ?_
    | with_reducible refine Moves.foldl_snd ?_ _ ?_
    | with_reducible refine Moves.elim _ ?_ ?_
    | with_reducible intro _
    | split
    | with_reducible refine Moves.set_time ?_ ?_

theorem slotHistory_moves {m : Nat} {r s : State} (hm : 262144 ||| m = m) (h : Moves m r s) (x0 : _) (x1 : _) (x2 : _)  :
    Moves m r (Sys2Proof.Machine.slotHistory x0 x1 x2 s) := by
  unfold Sys2Proof.Machine.slotHistory
  try dsimp only
  repeat' first
    | with_reducible assumption
    | with_reducible refine stickyFirst_moves ?_ ?_ _ _ _ _
    | with_reducible refine sticky_moves ?_ ?_ _ _
    | with_reducible refine Moves.ite ?_ ?_
    | with_reducible refine Moves.dite ?_ ?_
    | with_reducible refine Moves.ite_snd ?_ ?_
    | with_reducible refine Moves.foldl ?_ _ ?_
    | with_reducible refine Moves.foldl_snd ?_ _ ?_
    | with_reducible refine Moves.elim _ ?_ ?_
    | with_reducible intro _
    | split

theorem slotMove_moves {m : Nat} {r s : State} (hm : 851984 ||| m = m) (h : Moves m r s) (x0 : _) (x1 : _) (x2 : _)  :
    Moves m r (Sys2Proof.Machine.slotMove x0 x1 x2 s) := by
  unfold Sys2Proof.Machine.slotMove
  repeat' first
    | with_reducible assumption
    | (with_reducible refine mask_sub hm ?_); exact rfl
    | with_reducible refine raise_moves ?_ ?_ _
    | with_reducible refine slotHistory_moves ?_ ?_ _ _ _
    | with_reducible refine Moves.ite ?_ ?_
    | with_reducible refine Moves.dite ?_ ?_
    | with_reducible refine Moves.ite_snd ?_ ?_
    | with_reducible refine Moves.foldl ?_ _ ?_
    | with_reducible refine Moves.foldl_snd ?_ _ ?_
    | with_reducible refine Moves.elim _ ?_ ?_
    | with_reducible intro _
    | with_reducible refine Moves.set_sign ?_ ?_

theorem requalify_moves {m : Nat} {r s : State} (hm : 851984 ||| m = m) (h : Moves m r s) (x0 : _) (x1 : _)  :
    Moves m r (Sys2Proof.Machine.requalify x0 x1 s) := by
  unfold Sys2Proof.Machine.requalify
  repeat' first
    | with_reducible assumption
    | (with_reducible refine mask_sub hm ?_); exact rfl
    | with_reducible refine onSlot_moves ?_ ?_ _ _
    | with_reducible refine slotMove_moves ?_ ?_ _ _ _

theorem slotSettle_moves {m : Nat} {r s : State} (hm : 16 ||| m = m) (h : Moves m r s)   :
    Moves m r (Sys2Proof.Machine.slotSettle s) := by
  unfold Sys2Proof.Machine.slotSettle
  repeat' first
    | with_reducible assumption
    | with_reducible refine Moves.ite ?_ ?_
    | with_reducible refine Moves.dite ?_ ?_
    | with_reducible refine Moves.ite_snd ?_ ?_
    | with_reducible refine Moves.foldl ?_ _ ?_
    | with_reducible refine Moves.foldl_snd ?_ _ ?_
    | with_reducible refine Moves.elim _ ?_ ?_
    | with_reducible intro _
    | with_reducible refine Moves.set_sign ?_ ?_

theorem configured_moves {m : Nat} {r s : State} (hm : 851984 ||| m = m) (h : Moves m r s) (x0 : _)  :
    Moves m r (Sys2Proof.Machine.configured x0 s) := by
  unfold Sys2Proof.Machine.configured
  repeat' first
    | with_reducible assumption
    | (with_reducible refine mask_sub hm ?_); exact rfl
    | with_reducible refine onSlot_moves ?_ ?_ _ _
    | with_reducible refine requalify_moves ?_ ?_ _ _
    | with_reducible refine slotSettle_moves ?_ ?_ 
    | with_reducible refine Moves.ite ?_ ?_

theorem slotDisable_moves {m : Nat} {r s : State} (hm : 851984 ||| m = m) (h : Moves m r s) (x0 : _) (x1 : _)  :
    Moves m r (Sys2Proof.Machine.slotDisable x0 x1 s) := by
  unfold Sys2Proof.Machine.slotDisable
  repeat' first
    | with_reducible assumption
    | (with_reducible refine mask_sub hm ?_); exact rfl
    | with_reducible refine onSlot_moves ?_ ?_ _ _
    | with_reducible refine slotMove_moves ?_ ?_ _ _ _

theorem signStop_moves {m : Nat} {r s : State} (hm : 851984 ||| m = m) (h : Moves m r s)   :
    Moves m r (Sys2Proof.Machine.signStop s) := by
  unfold Sys2Proof.Machine.signStop
  repeat' first
    | with_reducible assumption
    | with_reducible refine slotDisable_moves ?_ ?_ _ _
    | with_reducible refine Moves.ite ?_ ?_
    | with_reducible refine Moves.dite ?_ ?_
    | with_reducible refine Moves.ite_snd ?_ ?_
    | with_reducible refine Moves.foldl ?_ _ ?_
    | with_reducible refine Moves.foldl_snd ?_ _ ?_
    | with_reducible refine Moves.elim _ ?_ ?_
    | with_reducible intro _

theorem execIcpSelConfig_moves {m : Nat} {r s : State} (hm : 2031632 ||| m = m) (h : Moves m r s) (x0 : _) (x1 : _)  :
    MovesOut m r (Sys2Proof.Machine.execIcpSelConfig x0 x1 s) := by
  unfold Sys2Proof.Machine.execIcpSelConfig
  repeat' first
    | with_reducible assumption
    | (with_reducible refine mask_sub hm ?_); exact rfl
    | with_reducible refine icpDo_moves ?_ ?_ _ _ _ _ _ ?_
    | with_reducible refine Moves.ite ?_ ?_
    | with_reducible refine Moves.self ?_
    | with_reducible refine Moves.dite ?_ ?_
    | with_reducible refine Moves.ite_snd ?_ ?_
    | with_reducible refine Moves.foldl ?_ _ ?_
    | with_reducible refine Moves.foldl_snd ?_ _ ?_
    | with_reducible refine Moves.elim _ ?_ ?_
    | with_reducible refine MovesOut.next ?_
    | with_reducible refine MovesOut.ite ?_ ?_
    | with_reducible intro _
    | with_reducible refine Moves.set_sign ?_ ?_

theorem enableSlot_moves {m : Nat} {r s : State} (hm : 851984 ||| m = m) (h : Moves m r s) (x0 : _) (x1 : _)  :
    Moves m r (Sys2Proof.Machine.enableSlot x0 x1 s) := by
  unfold Sys2Proof.Machine.enableSlot
  repeat' first
    | with_reducible assumption
    | (with_reducible refine mask_sub hm ?_); exact rfl
    | with_reducible refine slotMove_moves ?_ ?_ _ _ _
    | with_reducible refine requalify_moves ?_ ?_ _ _
    | with_reducible refine slotDisable_moves ?_ ?_ _ _
    | with_reducible refine slotSettle_moves ?_ ?_ 
    | with_reducible refine onSlot_moves ?_ ?_ _ _
    | with_reducible refine Moves.ite ?_ ?_

theorem leaveSlot_moves {m : Nat} {r s : State} (hm : 851984 ||| m = m) (h : Moves m r s) (x0 : _)  :
    Moves m r (Sys2Proof.Machine.leaveSlot x0 s) := by
  unfold Sys2Proof.Machine.leaveSlot
  repeat' first
    | with_reducible assumption
    | (with_reducible refine mask_sub hm ?_); exact rfl
    | with_reducible refine slotMove_moves ?_ ?_ _ _ _
    | with_reducible refine onSlot_moves ?_ ?_ _ _
    | with_reducible refine Moves.ite ?_ ?_

theorem rollSecond_moves {m : Nat} {r s : State} (hm : 272 ||| m = m) (h : Moves m r s)   :
    Moves m r (Sys2Proof.Machine.rollSecond s) := by
  unfold Sys2Proof.Machine.rollSecond
  repeat' first
    | with_reducible assumption
    | with_reducible refine Moves.ite ?_ ?_
    | with_reducible refine Moves.dite ?_ ?_
    | with_reducible refine Moves.ite_snd ?_ ?_
    | with_reducible refine Moves.foldl ?_ _ ?_
    | with_reducible refine Moves.foldl_snd ?_ _ ?_
    | with_reducible refine Moves.elim _ ?_ ?_
    | with_reducible intro _
    | with_reducible refine Moves.set_sign_gnss ?_ ?_

theorem setPull_moves {m : Nat} {r s : State} (hm : 20 ||| m = m) (h : Moves m r s) (x0 : _)  :
    Moves m r (Sys2Proof.Machine.setPull x0 s) := by
  unfold Sys2Proof.Machine.setPull
  repeat' first
    | with_reducible assumption
    | (with_reducible refine mask_sub hm ?_); exact rfl
    | with_reducible refine onSlot_moves ?_ ?_ _ _
    | with_reducible refine Moves.ite ?_ ?_
    | with_reducible refine Moves.dite ?_ ?_
    | with_reducible refine Moves.ite_snd ?_ ?_
    | with_reducible refine Moves.foldl ?_ _ ?_
    | with_reducible refine Moves.foldl_snd ?_ _ ?_
    | with_reducible refine Moves.elim _ ?_ ?_
    | with_reducible intro _
    | with_reducible refine Moves.set_time_sign ?_ ?_

theorem withGuard_moves {m : Nat} {r s : State} (hm : 256 ||| m = m) (h : Moves m r s) (x0 : _)  :
    Moves m r (Sys2Proof.Machine.withGuard x0 s) := by
  unfold Sys2Proof.Machine.withGuard
  repeat' first
    | with_reducible assumption
    | with_reducible refine Moves.ite ?_ ?_
    | with_reducible refine Moves.dite ?_ ?_
    | with_reducible refine Moves.ite_snd ?_ ?_
    | with_reducible refine Moves.foldl ?_ _ ?_
    | with_reducible refine Moves.foldl_snd ?_ _ ?_
    | with_reducible refine Moves.elim _ ?_ ?_
    | with_reducible intro _
    | with_reducible refine Moves.set_gnss ?_ ?_

theorem guardArm_moves {m : Nat} {r s : State} (hm : 256 ||| m = m) (h : Moves m r s)   :
    Moves m r (Sys2Proof.Machine.guardArm s) := by
  unfold Sys2Proof.Machine.guardArm
  repeat' first
    | with_reducible assumption
    | with_reducible refine withGuard_moves ?_ ?_ _
    | with_reducible refine Moves.ite ?_ ?_

theorem returnCheck_moves {m : Nat} {r s : State} (hm : 1900576 ||| m = m) (h : Moves m r s) (x0 : _)  :
    Moves m r (Sys2Proof.Machine.returnCheck x0 s) := by
  unfold Sys2Proof.Machine.returnCheck
  repeat' first
    | with_reducible assumption
    | (with_reducible refine mask_sub hm ?_); exact rfl
    | with_reducible refine sticky_moves ?_ ?_ _ _
    | with_reducible refine raise_moves ?_ ?_ _
    | with_reducible refine trail_moves ?_ ?_ _ _
    | with_reducible refine Moves.ite ?_ ?_
    | with_reducible refine Moves.dite ?_ ?_
    | with_reducible refine Moves.ite_snd ?_ ?_
    | with_reducible refine Moves.foldl ?_ _ ?_
    | with_reducible refine Moves.foldl_snd ?_ _ ?_
    | with_reducible refine Moves.elim _ ?_ ?_
    | with_reducible intro _
    | with_reducible refine Moves.set_guy ?_ ?_

theorem switchTo_moves {m : Nat} {r s : State} (hm : 18677820 ||| m = m) (h : Moves m r s) (x0 : _) (x1 : _)  :
    Moves m r (Sys2Proof.Machine.switchTo x0 x1 s) := by
  unfold Sys2Proof.Machine.switchTo
  try dsimp only
  repeat' first
    | with_reducible assumption
    | (with_reducible refine mask_sub hm ?_); exact rfl
    | with_reducible refine adoptUtc_moves ?_ ?_ _ _
    | with_reducible refine setPull_moves ?_ ?_ _
    | with_reducible refine returnCheck_moves ?_ ?_ _
    | with_reducible refine onSlot_moves ?_ ?_ _ _
    | with_reducible refine slotMove_moves ?_ ?_ _ _ _
    | with_reducible refine raise_moves ?_ ?_ _
    | with_reducible refine guyBreak_moves ?_ ?_ 
    | with_reducible refine cairnEvent_moves ?_ ?_ 
    | with_reducible refine sticky_moves ?_ ?_ _ _
    | with_reducible refine stickyFirst_moves ?_ ?_ _ _ _ _
    | with_reducible refine leaveSlot_moves ?_ ?_ _
    | with_reducible exact Chg.word rfl rfl rfl rfl
    | exact Chg.bit hm rfl
    | with_reducible refine Moves.ite ?_ ?_
    | with_reducible refine Moves.dite ?_ ?_
    | with_reducible refine Moves.ite_snd ?_ ?_
    | with_reducible refine Moves.foldl ?_ _ ?_
    | with_reducible refine Moves.foldl_snd ?_ _ ?_
    | with_reducible refine Moves.elim _ ?_ ?_
    | with_reducible intro _
    | split
    | with_reducible refine Moves.set_time ?_ ?_
    | with_reducible refine Moves.set_sign_sys ?_ ?_ ?_

theorem reselect_moves {m : Nat} {r s : State} (hm : 18677820 ||| m = m) (h : Moves m r s)   :
    Moves m r (Sys2Proof.Machine.reselect s) := by
  unfold Sys2Proof.Machine.reselect
  repeat' first
    | with_reducible assumption
    | (with_reducible refine mask_sub hm ?_); exact rfl
    | with_reducible refine switchTo_moves ?_ ?_ _ _
    | with_reducible refine Moves.ite ?_ ?_
    | with_reducible refine Moves.dite ?_ ?_
    | with_reducible refine Moves.ite_snd ?_ ?_
    | with_reducible refine Moves.foldl ?_ _ ?_
    | with_reducible refine Moves.foldl_snd ?_ _ ?_
    | with_reducible refine Moves.elim _ ?_ ?_
    | with_reducible intro _
    | with_reducible refine Moves.set_sign ?_ ?_

theorem evalSelect_moves {m : Nat} {r s : State} (hm : 18678076 ||| m = m) (h : Moves m r s)   :
    Moves m r (Sys2Proof.Machine.evalSelect s) := by
  unfold Sys2Proof.Machine.evalSelect
  try dsimp only
  repeat' first
    | with_reducible assumption
    | (with_reducible refine mask_sub hm ?_); exact rfl
    | with_reducible refine setPull_moves ?_ ?_ _
    | with_reducible refine guardArm_moves ?_ ?_ 
    | with_reducible refine reselect_moves ?_ ?_ 
    | with_reducible refine Moves.ite ?_ ?_
    | with_reducible refine Moves.dite ?_ ?_
    | with_reducible refine Moves.ite_snd ?_ ?_
    | with_reducible refine Moves.foldl ?_ _ ?_
    | with_reducible refine Moves.foldl_snd ?_ _ ?_
    | with_reducible refine Moves.elim _ ?_ ?_
    | with_reducible intro _
    | split
    | with_reducible refine Moves.set_time_sign ?_ ?_

theorem readySet_moves {m : Nat} {r s : State} (hm : 25116250 ||| m = m) (h : Moves m r s) (x0 : _)  :
    Moves m r (Sys2Proof.Machine.readySet x0 s) := by
  unfold Sys2Proof.Machine.readySet
  repeat' first
    | with_reducible assumption
    | (with_reducible refine mask_sub hm ?_); exact rfl
    | with_reducible refine sendFrame_moves ?_ ?_ _ _
    | with_reducible refine handoverFlag_moves ?_ ?_ 
    | with_reducible refine faultEvent_moves ?_ ?_ _
    | with_reducible refine Moves.ite ?_ ?_
    | with_reducible refine Moves.dite ?_ ?_
    | with_reducible refine Moves.ite_snd ?_ ?_
    | with_reducible refine Moves.foldl ?_ _ ?_
    | with_reducible refine Moves.foldl_snd ?_ _ ?_
    | with_reducible refine Moves.elim _ ?_ ?_
    | with_reducible intro _
    | with_reducible refine Moves.set_foot ?_ ?_

theorem readyEval_moves {m : Nat} {r s : State} (hm : 25116250 ||| m = m) (h : Moves m r s)   :
    Moves m r (Sys2Proof.Machine.readyEval s) := by
  unfold Sys2Proof.Machine.readyEval
  repeat' first
    | with_reducible assumption
    | (with_reducible refine mask_sub hm ?_); exact rfl
    | with_reducible refine readySet_moves ?_ ?_ _
    | with_reducible refine Moves.ite ?_ ?_
    | with_reducible refine Moves.dite ?_ ?_
    | with_reducible refine Moves.ite_snd ?_ ?_
    | with_reducible refine Moves.foldl ?_ _ ?_
    | with_reducible refine Moves.foldl_snd ?_ _ ?_
    | with_reducible refine Moves.elim _ ?_ ?_
    | with_reducible intro _
    | with_reducible refine Moves.set_foot ?_ ?_

theorem qualifySecond_moves {m : Nat} {r s : State} (hm : 851984 ||| m = m) (h : Moves m r s) (x0 : _)  :
    Moves m r (Sys2Proof.Machine.qualifySecond x0 s) := by
  unfold Sys2Proof.Machine.qualifySecond
  repeat' first
    | with_reducible assumption
    | (with_reducible refine mask_sub hm ?_); exact rfl
    | with_reducible refine slotMove_moves ?_ ?_ _ _ _
    | with_reducible refine onSlot_moves ?_ ?_ _ _
    | with_reducible refine Moves.ite ?_ ?_

theorem decideOrder_moves {m : Nat} {r s : State} (hm : 851984 ||| m = m) (h : Moves m r s) (x0 : _) (x1 : _)  :
    Moves m r (Sys2Proof.Machine.decideOrder x0 x1 s) := by
  unfold Sys2Proof.Machine.decideOrder
  try dsimp only
  repeat' first
    | with_reducible assumption
    | (with_reducible refine mask_sub hm ?_); exact rfl
    | with_reducible refine qualifySecond_moves ?_ ?_ _
    | with_reducible refine requalify_moves ?_ ?_ _ _
    | with_reducible refine onSlot_moves ?_ ?_ _ _
    | with_reducible refine slotMove_moves ?_ ?_ _ _ _
    | with_reducible refine Moves.ite ?_ ?_
    | with_reducible refine Moves.dite ?_ ?_
    | with_reducible refine Moves.ite_snd ?_ ?_
    | with_reducible refine Moves.foldl ?_ _ ?_
    | with_reducible refine Moves.foldl_snd ?_ _ ?_
    | with_reducible refine Moves.elim _ ?_ ?_
    | with_reducible intro _
    | split

theorem decideCandidate_moves {m : Nat} {r s : State} (hm : 851984 ||| m = m) (h : Moves m r s) (x0 : _) (x1 : _)  :
    Moves m r (Sys2Proof.Machine.decideCandidate x0 x1 s) := by
  unfold Sys2Proof.Machine.decideCandidate
  repeat' first
    | with_reducible assumption
    | with_reducible refine requalify_moves ?_ ?_ _ _
    | with_reducible refine decideOrder_moves ?_ ?_ _ _
    | with_reducible refine Moves.ite ?_ ?_

theorem decideSlot_moves {m : Nat} {r s : State} (hm : 851984 ||| m = m) (h : Moves m r s) (x0 : _) (x1 : _)  :
    Moves m r (Sys2Proof.Machine.decideSlot x0 x1 s) := by
  unfold Sys2Proof.Machine.decideSlot
  repeat' first
    | with_reducible assumption
    | (with_reducible refine mask_sub hm ?_); exact rfl
    | with_reducible refine decideCandidate_moves ?_ ?_ _ _
    | with_reducible refine onSlot_moves ?_ ?_ _ _
    | with_reducible refine slotMove_moves ?_ ?_ _ _ _
    | with_reducible refine slotDisable_moves ?_ ?_ _ _
    | with_reducible refine Moves.ite ?_ ?_

theorem guardTest_moves {m : Nat} {r s : State} (hm : 25116506 ||| m = m) (h : Moves m r s) (x0 : _)  :
    Moves m r (Sys2Proof.Machine.guardTest x0 s) := by
  unfold Sys2Proof.Machine.guardTest
  repeat' first
    | with_reducible assumption
    | (with_reducible refine mask_sub hm ?_); exact rfl
    | with_reducible refine onSlot_moves ?_ ?_ _ _
    | with_reducible refine faultCond_moves ?_ ?_ _ _
    | with_reducible refine withGuard_moves ?_ ?_ _
    | with_reducible refine sticky_moves ?_ ?_ _ _
    | with_reducible refine raise_moves ?_ ?_ _
    | with_reducible refine Moves.ite ?_ ?_

theorem guardOff_moves {m : Nat} {r s : State} (hm : 25116506 ||| m = m) (h : Moves m r s)   :
    Moves m r (Sys2Proof.Machine.guardOff s) := by
  unfold Sys2Proof.Machine.guardOff
  repeat' first
    | with_reducible assumption
    | (with_reducible refine mask_sub hm ?_); exact rfl
    | with_reducible refine faultCond_moves ?_ ?_ _ _
    | with_reducible refine onSlot_moves ?_ ?_ _ _
    | with_reducible refine withGuard_moves ?_ ?_ _
    | with_reducible refine Moves.ite ?_ ?_

theorem guardEval_moves {m : Nat} {r s : State} (hm : 25116506 ||| m = m) (h : Moves m r s) (x0 : _)  :
    Moves m r (Sys2Proof.Machine.guardEval x0 s) := by
  unfold Sys2Proof.Machine.guardEval
  repeat' first
    | with_reducible assumption
    | (with_reducible refine mask_sub hm ?_); exact rfl
    | with_reducible refine guardTest_moves ?_ ?_ _
    | with_reducible refine withGuard_moves ?_ ?_ _
    | with_reducible refine guardOff_moves ?_ ?_ 
    | with_reducible refine Moves.ite ?_ ?_

theorem dispute_moves {m : Nat} {r s : State} (hm : 851984 ||| m = m) (h : Moves m r s) (x0 : _) (x1 : _) (x2 : _) (x3 : _) (x4 : _)  :
    Moves m r (Sys2Proof.Machine.dispute x0 x1 x2 x3 x4 s) := by
  unfold Sys2Proof.Machine.dispute
  repeat' first
    | with_reducible assumption
    | (with_reducible refine mask_sub hm ?_); exact rfl
    | with_reducible refine sticky_moves ?_ ?_ _ _
    | with_reducible refine raise_moves ?_ ?_ _
    | with_reducible refine onSlot_moves ?_ ?_ _ _
    | with_reducible refine Moves.ite ?_ ?_

theorem pairVerdict_moves {m : Nat} {r s : State} (hm : 851984 ||| m = m) (h : Moves m r s) (x0 : _) (x1 : _)  :
    Moves m r (Sys2Proof.Machine.pairVerdict x0 x1 s) := by
  unfold Sys2Proof.Machine.pairVerdict
  try dsimp only
  repeat' first
    | with_reducible assumption
    | (with_reducible refine mask_sub hm ?_); exact rfl
    | with_reducible refine spared_moves ?_ ?_ _ _
    | with_reducible refine dispute_moves ?_ ?_ _ _ _ _ _
    | with_reducible refine onSlot_moves ?_ ?_ _ _
    | with_reducible refine Moves.ite ?_ ?_
    | with_reducible refine Moves.dite ?_ ?_
    | with_reducible refine Moves.ite_snd ?_ ?_
    | with_reducible refine Moves.foldl ?_ _ ?_
    | with_reducible refine Moves.foldl_snd ?_ _ ?_
    | with_reducible refine Moves.elim _ ?_ ?_
    | with_reducible intro _
    | split

theorem pairsEval_moves {m : Nat} {r s : State} (hm : 851984 ||| m = m) (h : Moves m r s)   :
    Moves m r (Sys2Proof.Machine.pairsEval s) := by
  unfold Sys2Proof.Machine.pairsEval
  repeat' first
    | with_reducible assumption
    | (with_reducible refine mask_sub hm ?_); exact rfl
    | with_reducible refine pairVerdict_moves ?_ ?_ _ _
    | with_reducible refine Moves.ite ?_ ?_
    | with_reducible refine Moves.dite ?_ ?_
    | with_reducible refine Moves.ite_snd ?_ ?_
    | with_reducible refine Moves.foldl ?_ _ ?_
    | with_reducible refine Moves.foldl_snd ?_ _ ?_
    | with_reducible refine Moves.elim _ ?_ ?_
    | with_reducible intro _
    | with_reducible refine Moves.set_sign ?_ ?_

theorem sparedEval_moves {m : Nat} {r s : State} (hm : 16 ||| m = m) (h : Moves m r s)   :
    Moves m r (Sys2Proof.Machine.sparedEval s) := by
  unfold Sys2Proof.Machine.sparedEval
  repeat' first
    | with_reducible assumption
    | with_reducible refine Moves.ite ?_ ?_
    | with_reducible refine Moves.dite ?_ ?_
    | with_reducible refine Moves.ite_snd ?_ ?_
    | with_reducible refine Moves.foldl ?_ _ ?_
    | with_reducible refine Moves.foldl_snd ?_ _ ?_
    | with_reducible refine Moves.elim _ ?_ ?_
    | with_reducible intro _
    | with_reducible refine Moves.set_sign ?_ ?_

theorem agreeEval_moves {m : Nat} {r s : State} (hm : 16 ||| m = m) (h : Moves m r s)   :
    Moves m r (Sys2Proof.Machine.agreeEval s) := by
  unfold Sys2Proof.Machine.agreeEval
  repeat' first
    | with_reducible assumption
    | with_reducible refine sparedEval_moves ?_ ?_ 
    | with_reducible refine Moves.ite ?_ ?_
    | with_reducible refine Moves.dite ?_ ?_
    | with_reducible refine Moves.ite_snd ?_ ?_
    | with_reducible refine Moves.foldl ?_ _ ?_
    | with_reducible refine Moves.foldl_snd ?_ _ ?_
    | with_reducible refine Moves.elim _ ?_ ?_
    | with_reducible intro _
    | with_reducible refine Moves.set_sign ?_ ?_

theorem evalMeasure_moves {m : Nat} {r s : State} (hm : 25116506 ||| m = m) (h : Moves m r s) (x0 : _)  :
    Moves m r (Sys2Proof.Machine.evalMeasure x0 s).1 := by
  unfold Sys2Proof.Machine.evalMeasure
  repeat' first
    | with_reducible assumption
    | (with_reducible refine mask_sub hm ?_); exact rfl
    | with_reducible refine guardEval_moves ?_ ?_ _
    | with_reducible refine pairsEval_moves ?_ ?_ 
    | with_reducible refine agreeEval_moves ?_ ?_ 
    | with_reducible refine Moves.ite ?_ ?_
    | with_reducible refine Moves.dite ?_ ?_
    | with_reducible refine Moves.ite_snd ?_ ?_
    | with_reducible refine Moves.ite_fst ?_ ?_
    | with_reducible refine Moves.foldl ?_ _ ?_
    | with_reducible refine Moves.foldl_snd ?_ _ ?_
    | with_reducible refine Moves.elim _ ?_ ?_
    | with_reducible intro _
    | with_reducible refine Moves.set_sign ?_ ?_

theorem execSlotEvaluation_moves {m : Nat} {r s : State} (hm : 25116542 ||| m = m) (h : Moves m r s) (x0 : _) (x1 : _)  :
    MovesOut m r (Sys2Proof.Machine.execSlotEvaluation x0 x1 s) := by
  unfold Sys2Proof.Machine.execSlotEvaluation
  repeat' first
    | with_reducible assumption
    | (with_reducible refine mask_sub hm ?_); exact rfl
    | with_reducible refine rollSecond_moves ?_ ?_ 
    | with_reducible refine evalSelect_moves ?_ ?_ 
    | with_reducible refine readyEval_moves ?_ ?_ 
    | with_reducible refine decideSlot_moves ?_ ?_ _ _
    | with_reducible refine evalMeasure_moves ?_ ?_ _
    | with_reducible refine Moves.ite ?_ ?_
    | with_reducible refine Moves.dite ?_ ?_
    | with_reducible refine Moves.ite_snd ?_ ?_
    | with_reducible refine Moves.ite_fst ?_ ?_
    | with_reducible refine Moves.foldl ?_ _ ?_
    | with_reducible refine Moves.foldl_snd ?_ _ ?_
    | with_reducible refine Moves.elim _ ?_ ?_
    | with_reducible refine MovesOut.next ?_
    | with_reducible refine MovesOut.ite ?_ ?_
    | with_reducible intro _

theorem execTodinMessage_moves {m : Nat} {r s : State} (hm : 262228 ||| m = m) (h : Moves m r s) (x0 : _) (x1 : _) (x2 : _)  :
    MovesOut m r (Sys2Proof.Machine.execTodinMessage x0 x1 x2 s) := by
  unfold Sys2Proof.Machine.execTodinMessage
  try dsimp only
  repeat' first
    | with_reducible assumption
    | (with_reducible refine mask_sub hm ?_); exact rfl
    | with_reducible refine utcFrom_moves ?_ ?_ _
    | with_reducible refine onSlot_moves ?_ ?_ _ _
    | with_reducible refine sticky_moves ?_ ?_ _ _
    | with_reducible refine Moves.ite ?_ ?_
    | with_reducible refine Moves.dite ?_ ?_
    | with_reducible refine Moves.ite_snd ?_ ?_
    | with_reducible refine Moves.foldl ?_ _ ?_
    | with_reducible refine Moves.foldl_snd ?_ _ ?_
    | with_reducible refine Moves.elim _ ?_ ?_
    | with_reducible refine MovesOut.next ?_
    | with_reducible refine MovesOut.ite ?_ ?_
    | with_reducible intro _
    | split
    | with_reducible refine Moves.set_mile ?_ ?_

theorem execIcpRefAsym_moves {m : Nat} {r s : State} (hm : 2031632 ||| m = m) (h : Moves m r s) (x0 : _) (x1 : _) (x2 : _) (x3 : _) (x4 : _)  :
    MovesOut m r (Sys2Proof.Machine.execIcpRefAsym x0 x1 x2 x3 x4 s) := by
  unfold Sys2Proof.Machine.execIcpRefAsym
  repeat' first
    | with_reducible assumption
    | (with_reducible refine mask_sub hm ?_); exact rfl
    | with_reducible refine onSlot_moves ?_ ?_ _ _
    | with_reducible refine configured_moves ?_ ?_ _
    | with_reducible refine icpDo_moves ?_ ?_ _ _ _ _ _ ?_
    | with_reducible refine Moves.ite ?_ ?_
    | with_reducible refine Moves.self ?_
    | with_reducible refine Moves.dite ?_ ?_
    | with_reducible refine Moves.ite_snd ?_ ?_
    | with_reducible refine Moves.foldl ?_ _ ?_
    | with_reducible refine Moves.foldl_snd ?_ _ ?_
    | with_reducible refine Moves.elim _ ?_ ?_
    | with_reducible refine MovesOut.next ?_
    | with_reducible refine MovesOut.ite ?_ ?_
    | with_reducible intro _

theorem execIcpRefThresh_moves {m : Nat} {r s : State} (hm : 2031632 ||| m = m) (h : Moves m r s) (x0 : _) (x1 : _)  :
    MovesOut m r (Sys2Proof.Machine.execIcpRefThresh x0 x1 s) := by
  unfold Sys2Proof.Machine.execIcpRefThresh
  repeat' first
    | with_reducible assumption
    | (with_reducible refine mask_sub hm ?_); exact rfl
    | with_reducible refine icpDo_moves ?_ ?_ _ _ _ _ _ ?_
    | with_reducible refine Moves.ite ?_ ?_
    | with_reducible refine Moves.self ?_
    | with_reducible refine Moves.dite ?_ ?_
    | with_reducible refine Moves.ite_snd ?_ ?_
    | with_reducible refine Moves.foldl ?_ _ ?_
    | with_reducible refine Moves.foldl_snd ?_ _ ?_
    | with_reducible refine Moves.elim _ ?_ ?_
    | with_reducible refine MovesOut.next ?_
    | with_reducible refine MovesOut.ite ?_ ?_
    | with_reducible intro _
    | with_reducible refine Moves.set_sign ?_ ?_

theorem execIcpLanternConfig_moves {m : Nat} {r s : State} (hm : 2031632 ||| m = m) (h : Moves m r s) (x0 : _) (x1 : _)  :
    MovesOut m r (Sys2Proof.Machine.execIcpLanternConfig x0 x1 s) := by
  unfold Sys2Proof.Machine.execIcpLanternConfig
  repeat' first
    | with_reducible assumption
    | (with_reducible refine mask_sub hm ?_); exact rfl
    | with_reducible refine icpDo_moves ?_ ?_ _ _ _ _ _ ?_
    | with_reducible refine Moves.ite ?_ ?_
    | with_reducible refine Moves.self ?_
    | with_reducible refine Moves.dite ?_ ?_
    | with_reducible refine Moves.ite_snd ?_ ?_
    | with_reducible refine Moves.foldl ?_ _ ?_
    | with_reducible refine Moves.foldl_snd ?_ _ ?_
    | with_reducible refine Moves.elim _ ?_ ?_
    | with_reducible refine MovesOut.next ?_
    | with_reducible refine MovesOut.ite ?_ ?_
    | with_reducible intro _
    | with_reducible refine Moves.set_sign ?_ ?_

theorem qualifyNow_moves {m : Nat} {r s : State} (hm : 851984 ||| m = m) (h : Moves m r s) (x0 : _)  :
    Moves m r (Sys2Proof.Machine.qualifyNow x0 s) := by
  unfold Sys2Proof.Machine.qualifyNow
  repeat' first
    | with_reducible assumption
    | with_reducible refine slotMove_moves ?_ ?_ _ _ _
    | with_reducible refine Moves.ite ?_ ?_

theorem execHoldoffExpiry_moves {m : Nat} {r s : State} (hm : 18678076 ||| m = m) (h : Moves m r s) (x0 : _)  :
    MovesOut m r (Sys2Proof.Machine.execHoldoffExpiry x0 s) := by
  unfold Sys2Proof.Machine.execHoldoffExpiry
  repeat' first
    | with_reducible assumption
    | (with_reducible refine mask_sub hm ?_); exact rfl
    | with_reducible refine qualifyNow_moves ?_ ?_ _
    | with_reducible refine evalSelect_moves ?_ ?_ 
    | with_reducible refine Moves.ite ?_ ?_
    | with_reducible refine Moves.dite ?_ ?_
    | with_reducible refine Moves.ite_snd ?_ ?_
    | with_reducible refine Moves.foldl ?_ _ ?_
    | with_reducible refine Moves.foldl_snd ?_ _ ?_
    | with_reducible refine Moves.elim _ ?_ ?_
    | with_reducible refine MovesOut.next ?_

theorem dropFrom_moves {m : Nat} {r s : State} (hm : 25116250 ||| m = m) (h : Moves m r s) (x0 : _)  :
    Moves m r (Sys2Proof.Machine.dropFrom x0 s) := by
  unfold Sys2Proof.Machine.dropFrom
  repeat' first
    | with_reducible assumption
    | with_reducible refine dropLaunch_moves ?_ ?_ _ _ _
    | with_reducible refine Moves.ite ?_ ?_
    | with_reducible refine Moves.dite ?_ ?_
    | with_reducible refine Moves.ite_snd ?_ ?_
    | with_reducible refine Moves.foldl ?_ _ ?_
    | with_reducible refine Moves.foldl_snd ?_ _ ?_
    | with_reducible refine Moves.elim _ ?_ ?_
    | with_reducible intro _

theorem applyStep_moves {m : Nat} {r s : State} (hm : 25116542 ||| m = m) (h : Moves m r s) (x0 : _)  :
    Moves m r (Sys2Proof.Machine.applyStep x0 s) := by
  unfold Sys2Proof.Machine.applyStep
  try dsimp only
  repeat' first
    | with_reducible assumption
    | (with_reducible refine mask_sub hm ?_); exact rfl
    | with_reducible refine permitClose_moves ?_ ?_ 
    | with_reducible refine complete_moves ?_ ?_ _ _ _ _
    | with_reducible refine trail_moves ?_ ?_ _ _
    | with_reducible refine guyBreak_moves ?_ ?_ 
    | with_reducible refine cairnEvent_moves ?_ ?_ 
    | with_reducible refine sticky_moves ?_ ?_ _ _
    | with_reducible refine raise_moves ?_ ?_ _
    | with_reducible refine dropFrom_moves ?_ ?_ _
    | with_reducible refine Moves.ite ?_ ?_
    | with_reducible refine Moves.dite ?_ ?_
    | with_reducible refine Moves.ite_snd ?_ ?_
    | with_reducible refine Moves.foldl ?_ _ ?_
    | with_reducible refine Moves.foldl_snd ?_ _ ?_
    | with_reducible refine Moves.elim _ ?_ ?_
    | with_reducible intro _
    | split
    | with_reducible refine Moves.set_time_cairn_sign_gnss ?_ ?_

theorem stepDue_moves {m : Nat} {r s : State} (hm : 25116542 ||| m = m) (h : Moves m r s) (x0 : _)  :
    Moves m r (Sys2Proof.Machine.stepDue x0 s) := by
  unfold Sys2Proof.Machine.stepDue
  try dsimp only
  repeat' first
    | with_reducible assumption
    | (with_reducible refine mask_sub hm ?_); exact rfl
    | with_reducible refine complete_moves ?_ ?_ _ _ _ _
    | with_reducible refine applyStep_moves ?_ ?_ _
    | with_reducible refine Moves.ite ?_ ?_
    | with_reducible refine Moves.dite ?_ ?_
    | with_reducible refine Moves.ite_snd ?_ ?_
    | with_reducible refine Moves.foldl ?_ _ ?_
    | with_reducible refine Moves.foldl_snd ?_ _ ?_
    | with_reducible refine Moves.elim _ ?_ ?_
    | with_reducible intro _
    | split

theorem stepsAt_moves {m : Nat} {r s : State} (hm : 25116542 ||| m = m) (h : Moves m r s)   :
    Moves m r (Sys2Proof.Machine.stepsAt s) := by
  unfold Sys2Proof.Machine.stepsAt
  repeat' first
    | with_reducible assumption
    | (with_reducible refine mask_sub hm ?_); exact rfl
    | with_reducible refine stepDue_moves ?_ ?_ _
    | with_reducible refine Moves.ite ?_ ?_
    | with_reducible refine Moves.dite ?_ ?_
    | with_reducible refine Moves.ite_snd ?_ ?_
    | with_reducible refine Moves.foldl ?_ _ ?_
    | with_reducible refine Moves.foldl_snd ?_ _ ?_
    | with_reducible refine Moves.elim _ ?_ ?_
    | with_reducible intro _
    | with_reducible refine Moves.set_time ?_ ?_

theorem ppsPulse_moves {m : Nat} {r s : State} (hm : 16 ||| m = m) (h : Moves m r s) (x0 : _) (x1 : _)  :
    Moves m r (Sys2Proof.Machine.ppsPulse x0 x1 s) := by
  unfold Sys2Proof.Machine.ppsPulse
  repeat' first
    | with_reducible assumption
    | with_reducible refine onSlot_moves ?_ ?_ _ _

theorem execIcpSwbConfig_moves {m : Nat} {r s : State} (hm : 2031632 ||| m = m) (h : Moves m r s) (x0 : _) (x1 : _) (x2 : _)  :
    MovesOut m r (Sys2Proof.Machine.execIcpSwbConfig x0 x1 x2 s) := by
  unfold Sys2Proof.Machine.execIcpSwbConfig
  repeat' first
    | with_reducible assumption
    | (with_reducible refine mask_sub hm ?_); exact rfl
    | with_reducible refine icpDo_moves ?_ ?_ _ _ _ _ _ ?_
    | with_reducible refine Moves.ite ?_ ?_
    | with_reducible refine Moves.self ?_
    | with_reducible refine Moves.dite ?_ ?_
    | with_reducible refine Moves.ite_snd ?_ ?_
    | with_reducible refine Moves.foldl ?_ _ ?_
    | with_reducible refine Moves.foldl_snd ?_ _ ?_
    | with_reducible refine Moves.elim _ ?_ ?_
    | with_reducible refine MovesOut.next ?_
    | with_reducible refine MovesOut.ite ?_ ?_
    | with_reducible intro _
    | with_reducible refine Moves.set_sign ?_ ?_

theorem execIcpRefClear_moves {m : Nat} {r s : State} (hm : 2031632 ||| m = m) (h : Moves m r s) (x0 : _) (x1 : _) (x2 : _)  :
    MovesOut m r (Sys2Proof.Machine.execIcpRefClear x0 x1 x2 s) := by
  unfold Sys2Proof.Machine.execIcpRefClear
  repeat' first
    | with_reducible assumption
    | (with_reducible refine mask_sub hm ?_); exact rfl
    | with_reducible refine onSlot_moves ?_ ?_ _ _
    | with_reducible refine requalify_moves ?_ ?_ _ _
    | with_reducible refine slotSettle_moves ?_ ?_ 
    | with_reducible refine icpDo_moves ?_ ?_ _ _ _ _ _ ?_
    | with_reducible refine Moves.ite ?_ ?_
    | with_reducible refine Moves.self ?_
    | with_reducible refine Moves.dite ?_ ?_
    | with_reducible refine Moves.ite_snd ?_ ?_
    | with_reducible refine Moves.foldl ?_ _ ?_
    | with_reducible refine Moves.foldl_snd ?_ _ ?_
    | with_reducible refine Moves.elim _ ?_ ?_
    | with_reducible refine MovesOut.next ?_
    | with_reducible refine MovesOut.ite ?_ ?_
    | with_reducible intro _

theorem execIcpRefStatus_moves {m : Nat} {r s : State} (hm : 2031616 ||| m = m) (h : Moves m r s) (x0 : _)  :
    MovesOut m r (Sys2Proof.Machine.execIcpRefStatus x0 s) := by
  unfold Sys2Proof.Machine.execIcpRefStatus
  repeat' first
    | with_reducible assumption
    | with_reducible refine icpGet_moves ?_ ?_ _ _ _

theorem execIcpRefPpsInput_moves {m : Nat} {r s : State} (hm : 2031632 ||| m = m) (h : Moves m r s) (x0 : _) (x1 : _)  :
    MovesOut m r (Sys2Proof.Machine.execIcpRefPpsInput x0 x1 s) := by
  unfold Sys2Proof.Machine.execIcpRefPpsInput
  repeat' first
    | with_reducible assumption
    | (with_reducible refine mask_sub hm ?_); exact rfl
    | with_reducible refine configured_moves ?_ ?_ _
    | with_reducible refine onSlot_moves ?_ ?_ _ _
    | with_reducible refine icpDo_moves ?_ ?_ _ _ _ _ _ ?_
    | with_reducible refine Moves.ite ?_ ?_
    | with_reducible refine Moves.self ?_
    | with_reducible refine Moves.dite ?_ ?_
    | with_reducible refine Moves.ite_snd ?_ ?_
    | with_reducible refine Moves.foldl ?_ _ ?_
    | with_reducible refine Moves.foldl_snd ?_ _ ?_
    | with_reducible refine Moves.elim _ ?_ ?_
    | with_reducible refine MovesOut.next ?_
    | with_reducible refine MovesOut.ite ?_ ?_
    | with_reducible intro _

theorem execIcpRefConfig_moves {m : Nat} {r s : State} (hm : 2031632 ||| m = m) (h : Moves m r s) (x0 : _) (x1 : _)  :
    MovesOut m r (Sys2Proof.Machine.execIcpRefConfig x0 x1 s) := by
  unfold Sys2Proof.Machine.execIcpRefConfig
  repeat' first
    | with_reducible assumption
    | (with_reducible refine mask_sub hm ?_); exact rfl
    | with_reducible refine onSlot_moves ?_ ?_ _ _
    | with_reducible refine enableSlot_moves ?_ ?_ _ _
    | with_reducible refine icpDo_moves ?_ ?_ _ _ _ _ _ ?_
    | with_reducible refine Moves.ite ?_ ?_
    | with_reducible refine Moves.self ?_
    | with_reducible refine Moves.dite ?_ ?_
    | with_reducible refine Moves.ite_snd ?_ ?_
    | with_reducible refine Moves.foldl ?_ _ ?_
    | with_reducible refine Moves.foldl_snd ?_ _ ?_
    | with_reducible refine Moves.elim _ ?_ ?_
    | with_reducible refine MovesOut.next ?_
    | with_reducible refine MovesOut.ite ?_ ?_
    | with_reducible intro _

theorem execIcpStepPermit_moves {m : Nat} {r s : State} (hm : 2031632 ||| m = m) (h : Moves m r s) (x0 : _) (x1 : _) (x2 : _)  :
    MovesOut m r (Sys2Proof.Machine.execIcpStepPermit x0 x1 x2 s) := by
  unfold Sys2Proof.Machine.execIcpStepPermit
  repeat' first
    | with_reducible assumption
    | (with_reducible refine mask_sub hm ?_); exact rfl
    | with_reducible refine icpDo_moves ?_ ?_ _ _ _ _ _ ?_
    | with_reducible refine Moves.ite ?_ ?_
    | with_reducible refine Moves.self ?_
    | with_reducible refine Moves.dite ?_ ?_
    | with_reducible refine Moves.ite_snd ?_ ?_
    | with_reducible refine Moves.foldl ?_ _ ?_
    | with_reducible refine Moves.foldl_snd ?_ _ ?_
    | with_reducible refine Moves.elim _ ?_ ?_
    | with_reducible refine MovesOut.next ?_
    | with_reducible refine MovesOut.ite ?_ ?_
    | with_reducible intro _
    | with_reducible refine Moves.set_sign ?_ ?_

theorem execIcpTimeStep_moves {m : Nat} {r s : State} (hm : 2031620 ||| m = m) (h : Moves m r s) (x0 : _) (x1 : _)  :
    MovesOut m r (Sys2Proof.Machine.execIcpTimeStep x0 x1 s) := by
  unfold Sys2Proof.Machine.execIcpTimeStep
  repeat' first
    | with_reducible assumption
    | (with_reducible refine mask_sub hm ?_); exact rfl
    | with_reducible refine icp_moves ?_ ?_ _ _ _ ?_
    | with_reducible refine Moves.ite ?_ ?_
    | with_reducible refine Moves.dite ?_ ?_
    | with_reducible refine Moves.ite_snd ?_ ?_
    | with_reducible refine Moves.foldl ?_ _ ?_
    | with_reducible refine Moves.foldl_snd ?_ _ ?_
    | with_reducible refine Moves.elim _ ?_ ?_
    | with_reducible refine MovesOut.next ?_
    | with_reducible refine MovesOut.ite ?_ ?_
    | with_reducible refine MovesRes.ite ?_ ?_
    | with_reducible refine MovesRes.done ?_
    | with_reducible refine MovesRes.later ?_
    | with_reducible intro _
    | with_reducible refine Moves.set_time ?_ ?_

theorem execLanternHoldExpiry_moves {m : Nat} {r s : State} (hm : 16 ||| m = m) (h : Moves m r s) (x0 : _)  :
    MovesOut m r (Sys2Proof.Machine.execLanternHoldExpiry x0 s) := by
  unfold Sys2Proof.Machine.execLanternHoldExpiry
  repeat' first
    | with_reducible assumption
    | with_reducible refine Moves.ite ?_ ?_
    | with_reducible refine Moves.dite ?_ ?_
    | with_reducible refine Moves.ite_snd ?_ ?_
    | with_reducible refine Moves.foldl ?_ _ ?_
    | with_reducible refine Moves.foldl_snd ?_ _ ?_
    | with_reducible refine Moves.elim _ ?_ ?_
    | with_reducible refine MovesOut.next ?_
    | with_reducible refine MovesOut.ite ?_ ?_
    | with_reducible intro _
    | with_reducible refine Moves.set_sign ?_ ?_

theorem execStepPermitExpiry_moves {m : Nat} {r s : State} (hm : 16 ||| m = m) (h : Moves m r s)   :
    MovesOut m r (Sys2Proof.Machine.execStepPermitExpiry s) := by
  unfold Sys2Proof.Machine.execStepPermitExpiry
  repeat' first
    | with_reducible assumption
    | with_reducible refine permitClose_moves ?_ ?_ 
    | with_reducible refine Moves.ite ?_ ?_
    | with_reducible refine Moves.dite ?_ ?_
    | with_reducible refine Moves.ite_snd ?_ ?_
    | with_reducible refine Moves.foldl ?_ _ ?_
    | with_reducible refine Moves.foldl_snd ?_ _ ?_
    | with_reducible refine Moves.elim _ ?_ ?_
    | with_reducible refine MovesOut.next ?_

theorem execTodQualityTimeout_moves {m : Nat} {r s : State} (hm : 16 ||| m = m) (h : Moves m r s) (x0 : _)  :
    MovesOut m r (Sys2Proof.Machine.execTodQualityTimeout x0 s) := by
  unfold Sys2Proof.Machine.execTodQualityTimeout
  repeat' first
    | with_reducible assumption
    | with_reducible refine onSlot_moves ?_ ?_ _ _
    | with_reducible refine Moves.ite ?_ ?_
    | with_reducible refine Moves.dite ?_ ?_
    | with_reducible refine Moves.ite_snd ?_ ?_
    | with_reducible refine Moves.foldl ?_ _ ?_
    | with_reducible refine Moves.foldl_snd ?_ _ ?_
    | with_reducible refine Moves.elim _ ?_ ?_
    | with_reducible refine MovesOut.next ?_

theorem execAsymCheckEnd_moves {m : Nat} {r s : State} (hm : 18678076 ||| m = m) (h : Moves m r s) (x0 : _)  :
    MovesOut m r (Sys2Proof.Machine.execAsymCheckEnd x0 s) := by
  unfold Sys2Proof.Machine.execAsymCheckEnd
  try dsimp only
  repeat' first
    | with_reducible assumption
    | (with_reducible refine mask_sub hm ?_); exact rfl
    | with_reducible refine slotMove_moves ?_ ?_ _ _ _
    | with_reducible refine evalSelect_moves ?_ ?_ 
    | with_reducible refine onSlot_moves ?_ ?_ _ _
    | with_reducible refine Moves.ite ?_ ?_
    | with_reducible refine Moves.dite ?_ ?_
    | with_reducible refine Moves.ite_snd ?_ ?_
    | with_reducible refine Moves.foldl ?_ _ ?_
    | with_reducible refine Moves.foldl_snd ?_ _ ?_
    | with_reducible refine Moves.elim _ ?_ ?_
    | with_reducible refine MovesOut.next ?_
    | with_reducible refine MovesOut.ite ?_ ?_
    | with_reducible intro _
    | split

theorem execDriftWindowEnd_moves {m : Nat} {r s : State} (hm : 852016 ||| m = m) (h : Moves m r s) (x0 : _)  :
    MovesOut m r (Sys2Proof.Machine.execDriftWindowEnd x0 s) := by
  unfold Sys2Proof.Machine.execDriftWindowEnd
  try dsimp only
  repeat' first
    | with_reducible assumption
    | (with_reducible refine mask_sub hm ?_); exact rfl
    | with_reducible refine condemn_moves ?_ ?_ 
    | with_reducible refine Moves.ite ?_ ?_
    | with_reducible refine Moves.dite ?_ ?_
    | with_reducible refine Moves.ite_snd ?_ ?_
    | with_reducible refine Moves.foldl ?_ _ ?_
    | with_reducible refine Moves.foldl_snd ?_ _ ?_
    | with_reducible refine Moves.elim _ ?_ ?_
    | with_reducible refine MovesOut.next ?_
    | with_reducible refine MovesOut.ite ?_ ?_
    | with_reducible intro _
    | split
    | with_reducible refine Moves.set_sign ?_ ?_

theorem execRevertWaitExpiry_moves {m : Nat} {r s : State} (hm : 18677820 ||| m = m) (h : Moves m r s)   :
    MovesOut m r (Sys2Proof.Machine.execRevertWaitExpiry s) := by
  unfold Sys2Proof.Machine.execRevertWaitExpiry
  repeat' first
    | with_reducible assumption
    | with_reducible refine reselect_moves ?_ ?_ 
    | with_reducible refine Moves.ite ?_ ?_
    | with_reducible refine Moves.dite ?_ ?_
    | with_reducible refine Moves.ite_snd ?_ ?_
    | with_reducible refine Moves.foldl ?_ _ ?_
    | with_reducible refine Moves.foldl_snd ?_ _ ?_
    | with_reducible refine Moves.elim _ ?_ ?_
    | with_reducible refine MovesOut.next ?_

theorem lanternAll_moves {m : Nat} {r s : State} (hm : 16 ||| m = m) (h : Moves m r s)   :
    Moves m r (Sys2Proof.Machine.lanternAll s) := by
  unfold Sys2Proof.Machine.lanternAll
  repeat' first
    | with_reducible assumption
    | with_reducible refine Moves.ite ?_ ?_
    | with_reducible refine Moves.dite ?_ ?_
    | with_reducible refine Moves.ite_snd ?_ ?_
    | with_reducible refine Moves.foldl ?_ _ ?_
    | with_reducible refine Moves.foldl_snd ?_ _ ?_
    | with_reducible refine Moves.elim _ ?_ ?_
    | with_reducible intro _
    | with_reducible refine Moves.set_sign ?_ ?_

theorem tailsEnd_moves {m : Nat} {r s : State} (hm : 16 ||| m = m) (h : Moves m r s)   :
    Moves m r (Sys2Proof.Machine.tailsEnd s) := by
  unfold Sys2Proof.Machine.tailsEnd
  repeat' first
    | with_reducible assumption
    | with_reducible refine Moves.ite ?_ ?_
    | with_reducible refine Moves.dite ?_ ?_
    | with_reducible refine Moves.ite_snd ?_ ?_
    | with_reducible refine Moves.foldl ?_ _ ?_
    | with_reducible refine Moves.foldl_snd ?_ _ ?_
    | with_reducible refine Moves.elim _ ?_ ?_
    | with_reducible intro _
    | with_reducible refine Moves.set_sign ?_ ?_

theorem pullTo_moves {m : Nat} {r s : State} (hm : 851984 ||| m = m) (h : Moves m r s) (x0 : _)  :
    Moves m r (Sys2Proof.Machine.pullTo x0 s) := by
  unfold Sys2Proof.Machine.pullTo
  repeat' first
    | with_reducible assumption
    | (with_reducible refine mask_sub hm ?_); exact rfl
    | with_reducible refine sticky_moves ?_ ?_ _ _
    | with_reducible refine raise_moves ?_ ?_ _
    | with_reducible refine Moves.ite ?_ ?_
    | with_reducible refine Moves.dite ?_ ?_
    | with_reducible refine Moves.ite_snd ?_ ?_
    | with_reducible refine Moves.foldl ?_ _ ?_
    | with_reducible refine Moves.foldl_snd ?_ _ ?_
    | with_reducible refine Moves.elim _ ?_ ?_
    | with_reducible intro _
    | with_reducible refine Moves.set_sign ?_ ?_

theorem swbPeriod_moves {m : Nat} {r s : State} (hm : 851988 ||| m = m) (h : Moves m r s)   :
    Moves m r (Sys2Proof.Machine.swbPeriod s) := by
  unfold Sys2Proof.Machine.swbPeriod
  try dsimp only
  repeat' first
    | with_reducible assumption
    | (with_reducible refine mask_sub hm ?_); exact rfl
    | with_reducible refine tailsEnd_moves ?_ ?_ 
    | with_reducible refine pullTo_moves ?_ ?_ _
    | with_reducible refine Moves.ite ?_ ?_
    | with_reducible refine Moves.dite ?_ ?_
    | with_reducible refine Moves.ite_snd ?_ ?_
    | with_reducible refine Moves.foldl ?_ _ ?_
    | with_reducible refine Moves.foldl_snd ?_ _ ?_
    | with_reducible refine Moves.elim _ ?_ ?_
    | with_reducible intro _
    | split
    | with_reducible refine Moves.set_time_sign ?_ ?_

theorem peerFollow_moves {m : Nat} {r s : State} (hm : 851984 ||| m = m) (h : Moves m r s)   :
    Moves m r (Sys2Proof.Machine.peerFollow s) := by
  unfold Sys2Proof.Machine.peerFollow
  repeat' first
    | with_reducible assumption
    | (with_reducible refine mask_sub hm ?_); exact rfl
    | with_reducible refine onSlot_moves ?_ ?_ _ _
    | with_reducible refine slotMove_moves ?_ ?_ _ _ _
    | with_reducible refine requalify_moves ?_ ?_ _ _
    | with_reducible refine Moves.ite ?_ ?_

end Sys2Proof.Laws
end

