-- ==== Sys2Proof/Laws/MovesOutputs.lean ====
section
/-!
SUPPORT. What each function of Machine/Meter, Outputs, Signal, Gnss may change, as `Moves`.
-/
namespace Sys2Proof.Laws
open Sys2Proof Sys2Proof.Machine

theorem onEvt_moves {m : Nat} {r s : State} (hm : 64 ||| m = m) (h : Moves m r s) (x0 : _) (x1 : _)  :
    Moves m r (Sys2Proof.Machine.onEvt x0 x1 s) := by
  unfold Sys2Proof.Machine.onEvt
  repeat' first
    | with_reducible assumption
    | with_reducible refine Moves.ite ?_ ?_
    | with_reducible refine Moves.dite ?_ ?_
    | with_reducible refine Moves.ite_snd ?_ ?_
    | with_reducible refine Moves.foldl ?_ _ ?_
    | with_reducible refine Moves.foldl_snd ?_ _ ?_
    | with_reducible refine Moves.elim _ ?_ ?_
    | with_reducible intro _
    | with_reducible refine Moves.set_mile ?_ ?_

theorem evtRaise_moves {m : Nat} {r s : State} (hm : 589824 ||| m = m) (h : Moves m r s) (x0 : _) (x1 : _)  :
    Moves m r (Sys2Proof.Machine.evtRaise x0 x1 s) := by
  unfold Sys2Proof.Machine.evtRaise
  repeat' first
    | with_reducible assumption
    | with_reducible refine raise_moves ?_ ?_ _
    | with_reducible refine Moves.ite ?_ ?_

theorem mileEdge_moves {m : Nat} {r s : State} (hm : 852032 ||| m = m) (h : Moves m r s) (x0 : _) (x1 : _)  :
    Moves m r (Sys2Proof.Machine.mileEdge x0 x1 s) := by
  unfold Sys2Proof.Machine.mileEdge
  repeat' first
    | with_reducible assumption
    | (with_reducible refine mask_sub hm ?_); exact rfl
    | with_reducible refine onEvt_moves ?_ ?_ _ _
    | with_reducible refine sticky_moves ?_ ?_ _ _
    | with_reducible refine evtRaise_moves ?_ ?_ _ _

theorem execMilestoneFire_moves {m : Nat} {r s : State} (hm : 852036 ||| m = m) (h : Moves m r s) (x0 : _)  :
    MovesOut m r (Sys2Proof.Machine.execMilestoneFire x0 s) := by
  unfold Sys2Proof.Machine.execMilestoneFire
  try dsimp only
  repeat' first
    | with_reducible assumption
    | (with_reducible refine mask_sub hm ?_); exact rfl
    | with_reducible refine mileEdge_moves ?_ ?_ _ _
    | with_reducible refine Moves.ite ?_ ?_
    | with_reducible refine Moves.dite ?_ ?_
    | with_reducible refine Moves.ite_snd ?_ ?_
    | with_reducible refine Moves.foldl ?_ _ ?_
    | with_reducible refine Moves.foldl_snd ?_ _ ?_
    | with_reducible refine Moves.elim _ ?_ ?_
    | with_reducible refine MovesOut.next ?_
    | with_reducible refine MovesOut.ite ?_ ?_
    | with_reducible intro _
    | split
    | with_reducible refine Moves.set_time ?_ ?_

theorem skipSeen_moves {m : Nat} {r s : State} (hm : 262144 ||| m = m) (h : Moves m r s)   :
    Moves m r (Sys2Proof.Machine.skipSeen s) := by
  unfold Sys2Proof.Machine.skipSeen
  repeat' first
    | with_reducible assumption
    | with_reducible refine sticky_moves ?_ ?_ _ _

theorem outSkip_moves {m : Nat} {r s : State} (hm : 851968 ||| m = m) (h : Moves m r s)   :
    Moves m r (Sys2Proof.Machine.outSkip s) := by
  unfold Sys2Proof.Machine.outSkip
  repeat' first
    | with_reducible assumption
    | (with_reducible refine mask_sub hm ?_); exact rfl
    | with_reducible refine skipSeen_moves ?_ ?_ 
    | with_reducible refine raise_moves ?_ ?_ _

theorem outSecond_moves {m : Nat} {r s : State} (hm : 852032 ||| m = m) (h : Moves m r s) (x0 : _)  :
    Moves m r (Sys2Proof.Machine.outSecond x0 s) := by
  unfold Sys2Proof.Machine.outSecond
  repeat' first
    | with_reducible assumption
    | (with_reducible refine mask_sub hm ?_); exact rfl
    | with_reducible refine outSkip_moves ?_ ?_ 
    | with_reducible refine raise_moves ?_ ?_ _
    | with_reducible refine Moves.ite ?_ ?_
    | with_reducible refine Moves.dite ?_ ?_
    | with_reducible refine Moves.ite_snd ?_ ?_
    | with_reducible refine Moves.foldl ?_ _ ?_
    | with_reducible refine Moves.foldl_snd ?_ _ ?_
    | with_reducible refine Moves.elim _ ?_ ?_
    | with_reducible intro _
    | with_reducible refine Moves.set_mile ?_ ?_

theorem clusterWrite_moves {m : Nat} {r s : State} (hm : 256 ||| m = m) (h : Moves m r s) (x0 : _)  :
    Moves m r (Sys2Proof.Machine.clusterWrite x0 s) := by
  unfold Sys2Proof.Machine.clusterWrite
  repeat' first
    | with_reducible assumption
    | with_reducible refine Moves.ite ?_ ?_
    | with_reducible refine Moves.dite ?_ ?_
    | with_reducible refine Moves.ite_snd ?_ ?_
    | with_reducible refine Moves.foldl ?_ _ ?_
    | with_reducible refine Moves.foldl_snd ?_ _ ?_
    | with_reducible refine Moves.elim _ ?_ ?_
    | with_reducible intro _
    | with_reducible refine Moves.set_gnss ?_ ?_

theorem clkWrite_moves {m : Nat} {r s : State} (hm : 256 ||| m = m) (h : Moves m r s) (x0 : _)  :
    Moves m r (Sys2Proof.Machine.clkWrite x0 s) := by
  unfold Sys2Proof.Machine.clkWrite
  repeat' first
    | with_reducible assumption
    | with_reducible refine Moves.ite ?_ ?_
    | with_reducible refine Moves.dite ?_ ?_
    | with_reducible refine Moves.ite_snd ?_ ?_
    | with_reducible refine Moves.foldl ?_ _ ?_
    | with_reducible refine Moves.foldl_snd ?_ _ ?_
    | with_reducible refine Moves.elim _ ?_ ?_
    | with_reducible intro _
    | with_reducible refine Moves.set_gnss ?_ ?_

theorem gnssWrite_moves {m : Nat} {r s : State} (hm : 256 ||| m = m) (h : Moves m r s) (x0 : _) (x1 : _) (x2 : _)  :
    Moves m r (Sys2Proof.Machine.gnssWrite x0 x1 x2 s) := by
  unfold Sys2Proof.Machine.gnssWrite
  repeat' first
    | with_reducible assumption
    | with_reducible refine clusterWrite_moves ?_ ?_ _
    | with_reducible refine clkWrite_moves ?_ ?_ _
    | with_reducible refine Moves.ite ?_ ?_
    | with_reducible refine Moves.dite ?_ ?_
    | with_reducible refine Moves.ite_snd ?_ ?_
    | with_reducible refine Moves.foldl ?_ _ ?_
    | with_reducible refine Moves.foldl_snd ?_ _ ?_
    | with_reducible refine Moves.elim _ ?_ ?_
    | with_reducible intro _
    | with_reducible refine Moves.set_gnss ?_ ?_

theorem onCh_moves {m : Nat} {r s : State} (hm : 128 ||| m = m) (h : Moves m r s) (x0 : _) (x1 : _)  :
    Moves m r (Sys2Proof.Machine.onCh x0 x1 s) := by
  unfold Sys2Proof.Machine.onCh
  repeat' first
    | with_reducible assumption
    | with_reducible refine Moves.ite ?_ ?_
    | with_reducible refine Moves.dite ?_ ?_
    | with_reducible refine Moves.ite_snd ?_ ?_
    | with_reducible refine Moves.foldl ?_ _ ?_
    | with_reducible refine Moves.foldl_snd ?_ _ ?_
    | with_reducible refine Moves.elim _ ?_ ?_
    | with_reducible intro _
    | with_reducible refine Moves.set_tdc ?_ ?_

theorem tdcPush_moves {m : Nat} {r s : State} (hm : 852096 ||| m = m) (h : Moves m r s) (x0 : _) (x1 : _)  :
    Moves m r (Sys2Proof.Machine.tdcPush x0 x1 s) := by
  unfold Sys2Proof.Machine.tdcPush
  repeat' first
    | with_reducible assumption
    | (with_reducible refine mask_sub hm ?_); exact rfl
    | with_reducible refine onCh_moves ?_ ?_ _ _
    | with_reducible refine sticky_moves ?_ ?_ _ _
    | with_reducible refine stickyCount_moves ?_ ?_ _ _ _ _
    | with_reducible refine raise_moves ?_ ?_ _
    | with_reducible refine Moves.ite ?_ ?_

theorem tdcDeliver_moves {m : Nat} {r s : State} (hm : 852096 ||| m = m) (h : Moves m r s) (x0 : _) (x1 : _)  :
    Moves m r (Sys2Proof.Machine.tdcDeliver x0 x1 s) := by
  unfold Sys2Proof.Machine.tdcDeliver
  try dsimp only
  repeat' first
    | with_reducible assumption
    | (with_reducible refine mask_sub hm ?_); exact rfl
    | with_reducible refine tdcPush_moves ?_ ?_ _ _
    | with_reducible refine complete_moves ?_ ?_ _ _ _ _
    | with_reducible refine Moves.ite ?_ ?_
    | with_reducible refine Moves.dite ?_ ?_
    | with_reducible refine Moves.ite_snd ?_ ?_
    | with_reducible refine Moves.foldl ?_ _ ?_
    | with_reducible refine Moves.foldl_snd ?_ _ ?_
    | with_reducible refine Moves.elim _ ?_ ?_
    | with_reducible intro _
    | split
    | with_reducible refine Moves.set_tdc ?_ ?_

theorem tdcCancel_moves {m : Nat} {r s : State} (hm : 852096 ||| m = m) (h : Moves m r s) (x0 : _)  :
    Moves m r (Sys2Proof.Machine.tdcCancel x0 s) := by
  unfold Sys2Proof.Machine.tdcCancel
  repeat' first
    | with_reducible assumption
    | (with_reducible refine mask_sub hm ?_); exact rfl
    | with_reducible refine onCh_moves ?_ ?_ _ _
    | with_reducible refine tdcDeliver_moves ?_ ?_ _ _
    | with_reducible refine Moves.ite ?_ ?_

theorem tdcArm_moves {m : Nat} {r s : State} (hm : 262272 ||| m = m) (h : Moves m r s) (x0 : _)  :
    Moves m r (Sys2Proof.Machine.tdcArm x0 s) := by
  unfold Sys2Proof.Machine.tdcArm
  repeat' first
    | with_reducible assumption
    | (with_reducible refine mask_sub hm ?_); exact rfl
    | with_reducible refine onCh_moves ?_ ?_ _ _
    | with_reducible refine sticky_moves ?_ ?_ _ _
    | with_reducible refine Moves.ite ?_ ?_

theorem tdcSet_moves {m : Nat} {r s : State} (hm : 852096 ||| m = m) (h : Moves m r s) (x0 : _) (x1 : _)  :
    Moves m r (Sys2Proof.Machine.tdcSet x0 x1 s) := by
  unfold Sys2Proof.Machine.tdcSet
  repeat' first
    | with_reducible assumption
    | (with_reducible refine mask_sub hm ?_); exact rfl
    | with_reducible refine tdcCancel_moves ?_ ?_ _
    | with_reducible refine onCh_moves ?_ ?_ _ _
    | with_reducible refine Moves.ite ?_ ?_

theorem tdcCfgWrite_moves {m : Nat} {r s : State} (hm : 852096 ||| m = m) (h : Moves m r s) (x0 : _) (x1 : _)  :
    Moves m r (Sys2Proof.Machine.tdcCfgWrite x0 x1 s) := by
  unfold Sys2Proof.Machine.tdcCfgWrite
  repeat' first
    | with_reducible assumption
    | (with_reducible refine mask_sub hm ?_); exact rfl
    | with_reducible refine tdcCancel_moves ?_ ?_ _
    | with_reducible refine tdcArm_moves ?_ ?_ _
    | with_reducible refine tdcSet_moves ?_ ?_ _ _
    | with_reducible refine Moves.ite ?_ ?_

theorem tdcWrite_moves {m : Nat} {r s : State} (hm : 852096 ||| m = m) (h : Moves m r s) (x0 : _) (x1 : _)  :
    Moves m r (Sys2Proof.Machine.tdcWrite x0 x1 s) := by
  unfold Sys2Proof.Machine.tdcWrite
  try dsimp only
  repeat' first
    | with_reducible assumption
    | (with_reducible refine mask_sub hm ?_); exact rfl
    | with_reducible refine onCh_moves ?_ ?_ _ _
    | with_reducible refine tdcCfgWrite_moves ?_ ?_ _ _
    | with_reducible refine Moves.ite ?_ ?_
    | with_reducible refine Moves.dite ?_ ?_
    | with_reducible refine Moves.ite_snd ?_ ?_
    | with_reducible refine Moves.foldl ?_ _ ?_
    | with_reducible refine Moves.foldl_snd ?_ _ ?_
    | with_reducible refine Moves.elim _ ?_ ?_
    | with_reducible intro _
    | split

theorem mileCancel_moves {m : Nat} {r s : State} (hm : 589888 ||| m = m) (h : Moves m r s) (x0 : _)  :
    Moves m r (Sys2Proof.Machine.mileCancel x0 s) := by
  unfold Sys2Proof.Machine.mileCancel
  repeat' first
    | with_reducible assumption
    | (with_reducible refine mask_sub hm ?_); exact rfl
    | with_reducible refine evtRaise_moves ?_ ?_ _ _
    | with_reducible refine onEvt_moves ?_ ?_ _ _
    | with_reducible refine Moves.ite ?_ ?_

theorem mileStart_moves {m : Nat} {r s : State} (hm : 852032 ||| m = m) (h : Moves m r s) (x0 : _)  :
    Moves m r (Sys2Proof.Machine.mileStart x0 s) := by
  unfold Sys2Proof.Machine.mileStart
  repeat' first
    | with_reducible assumption
    | (with_reducible refine mask_sub hm ?_); exact rfl
    | with_reducible refine sticky_moves ?_ ?_ _ _
    | with_reducible refine evtRaise_moves ?_ ?_ _ _
    | with_reducible refine onEvt_moves ?_ ?_ _ _
    | with_reducible refine Moves.ite ?_ ?_

theorem mileArm_moves {m : Nat} {r s : State} (hm : 852032 ||| m = m) (h : Moves m r s) (x0 : _)  :
    Moves m r (Sys2Proof.Machine.mileArm x0 s) := by
  unfold Sys2Proof.Machine.mileArm
  repeat' first
    | with_reducible assumption
    | (with_reducible refine mask_sub hm ?_); exact rfl
    | with_reducible refine mileStart_moves ?_ ?_ _
    | with_reducible refine sticky_moves ?_ ?_ _ _
    | with_reducible refine onEvt_moves ?_ ?_ _ _
    | with_reducible refine Moves.ite ?_ ?_

theorem mileCfgWrite_moves {m : Nat} {r s : State} (hm : 852032 ||| m = m) (h : Moves m r s) (x0 : _) (x1 : _)  :
    Moves m r (Sys2Proof.Machine.mileCfgWrite x0 x1 s) := by
  unfold Sys2Proof.Machine.mileCfgWrite
  repeat' first
    | with_reducible assumption
    | (with_reducible refine mask_sub hm ?_); exact rfl
    | with_reducible refine mileCancel_moves ?_ ?_ _
    | with_reducible refine mileArm_moves ?_ ?_ _
    | with_reducible refine onEvt_moves ?_ ?_ _ _
    | with_reducible refine Moves.ite ?_ ?_

theorem mileWrite_moves {m : Nat} {r s : State} (hm : 852032 ||| m = m) (h : Moves m r s) (x0 : _) (x1 : _)  :
    Moves m r (Sys2Proof.Machine.mileWrite x0 x1 s) := by
  unfold Sys2Proof.Machine.mileWrite
  try dsimp only
  repeat' first
    | with_reducible assumption
    | (with_reducible refine mask_sub hm ?_); exact rfl
    | with_reducible refine onEvt_moves ?_ ?_ _ _
    | with_reducible refine mileCfgWrite_moves ?_ ?_ _ _
    | with_reducible refine Moves.ite ?_ ?_
    | with_reducible refine Moves.dite ?_ ?_
    | with_reducible refine Moves.ite_snd ?_ ?_
    | with_reducible refine Moves.foldl ?_ _ ?_
    | with_reducible refine Moves.foldl_snd ?_ _ ?_
    | with_reducible refine Moves.elim _ ?_ ?_
    | with_reducible intro _
    | split

theorem onChan_moves {m : Nat} {r s : State} (hm : 256 ||| m = m) (h : Moves m r s) (x0 : _) (x1 : _)  :
    Moves m r (Sys2Proof.Machine.onChan x0 x1 s) := by
  unfold Sys2Proof.Machine.onChan
  repeat' first
    | with_reducible assumption
    | with_reducible refine Moves.ite ?_ ?_
    | with_reducible refine Moves.dite ?_ ?_
    | with_reducible refine Moves.ite_snd ?_ ?_
    | with_reducible refine Moves.foldl ?_ _ ?_
    | with_reducible refine Moves.foldl_snd ?_ _ ?_
    | with_reducible refine Moves.elim _ ?_ ?_
    | with_reducible intro _
    | with_reducible refine Moves.set_gnss ?_ ?_

theorem chanWrite_moves {m : Nat} {r s : State} (hm : 256 ||| m = m) (h : Moves m r s) (x0 : _) (x1 : _) (x2 : _)  :
    Moves m r (Sys2Proof.Machine.chanWrite x0 x1 x2 s) := by
  unfold Sys2Proof.Machine.chanWrite
  repeat' first
    | with_reducible assumption
    | with_reducible refine onChan_moves ?_ ?_ _ _
    | with_reducible refine Moves.ite ?_ ?_

theorem chanRead_moves {m : Nat} {r s : State} (hm : 262144 ||| m = m) (h : Moves m r s) (x0 : _) (x1 : _) (x2 : _)  :
    Moves m r (Sys2Proof.Machine.chanRead x0 x1 x2 s).2 := by
  unfold Sys2Proof.Machine.chanRead
  repeat' first
    | with_reducible assumption
    | with_reducible refine shadowSet_moves ?_ ?_ _ _ _
    | with_reducible refine Moves.ite ?_ ?_
    | with_reducible refine Moves.dite ?_ ?_
    | with_reducible refine Moves.ite_snd ?_ ?_

theorem execTdcResultPop_moves {m : Nat} {r s : State} (hm : 6226048 ||| m = m) (h : Moves m r s) (x0 : _) (x1 : _)  :
    MovesOut m r (Sys2Proof.Machine.execTdcResultPop x0 x1 s) := by
  unfold Sys2Proof.Machine.execTdcResultPop
  try dsimp only
  repeat' first
    | with_reducible assumption
    | (with_reducible refine mask_sub hm ?_); exact rfl
    | with_reducible refine onCh_moves ?_ ?_ _ _
    | with_reducible refine readBy_moves ?_ ?_ _ _ _ ?_
    | with_reducible refine Moves.ite ?_ ?_
    | with_reducible refine Moves.dite ?_ ?_
    | with_reducible refine Moves.ite_snd ?_ ?_
    | with_reducible refine Moves.foldl ?_ _ ?_
    | with_reducible refine Moves.foldl_snd ?_ _ ?_
    | with_reducible refine Moves.elim _ ?_ ?_
    | with_reducible refine MovesOut.next ?_
    | with_reducible refine MovesOut.ite ?_ ?_
    | with_reducible intro _
    | split

theorem execCapturePop_moves {m : Nat} {r s : State} (hm : 6225984 ||| m = m) (h : Moves m r s) (x0 : _) (x1 : _)  :
    MovesOut m r (Sys2Proof.Machine.execCapturePop x0 x1 s) := by
  unfold Sys2Proof.Machine.execCapturePop
  try dsimp only
  repeat' first
    | with_reducible assumption
    | (with_reducible refine mask_sub hm ?_); exact rfl
    | with_reducible refine onEvt_moves ?_ ?_ _ _
    | with_reducible refine readBy_moves ?_ ?_ _ _ _ ?_
    | with_reducible refine Moves.ite ?_ ?_
    | with_reducible refine Moves.dite ?_ ?_
    | with_reducible refine Moves.ite_snd ?_ ?_
    | with_reducible refine Moves.foldl ?_ _ ?_
    | with_reducible refine Moves.foldl_snd ?_ _ ?_
    | with_reducible refine Moves.elim _ ?_ ?_
    | with_reducible refine MovesOut.next ?_
    | with_reducible refine MovesOut.ite ?_ ?_
    | with_reducible intro _
    | split

theorem mileConvert_moves {m : Nat} {r s : State} (hm : 852032 ||| m = m) (h : Moves m r s) (x0 : _)  :
    Moves m r (Sys2Proof.Machine.mileConvert x0 s) := by
  unfold Sys2Proof.Machine.mileConvert
  try dsimp only
  repeat' first
    | with_reducible assumption
    | (with_reducible refine mask_sub hm ?_); exact rfl
    | with_reducible refine onEvt_moves ?_ ?_ _ _
    | with_reducible refine sticky_moves ?_ ?_ _ _
    | with_reducible refine evtRaise_moves ?_ ?_ _ _
    | with_reducible refine Moves.ite ?_ ?_
    | with_reducible refine Moves.dite ?_ ?_
    | with_reducible refine Moves.ite_snd ?_ ?_
    | with_reducible refine Moves.foldl ?_ _ ?_
    | with_reducible refine Moves.foldl_snd ?_ _ ?_
    | with_reducible refine Moves.elim _ ?_ ?_
    | with_reducible intro _
    | split

theorem execIcpOutStatus_moves {m : Nat} {r s : State} (hm : 2031616 ||| m = m) (h : Moves m r s) (x0 : _)  :
    MovesOut m r (Sys2Proof.Machine.execIcpOutStatus x0 s) := by
  unfold Sys2Proof.Machine.execIcpOutStatus
  repeat' first
    | with_reducible assumption
    | with_reducible refine icpGet_moves ?_ ?_ _ _ _

theorem spiStart_moves {m : Nat} {r s : State} (hm : 256 ||| m = m) (h : Moves m r s)   :
    Moves m r (Sys2Proof.Machine.spiStart s) := by
  unfold Sys2Proof.Machine.spiStart
  try dsimp only
  repeat' first
    | with_reducible assumption
    | with_reducible refine Moves.ite ?_ ?_
    | with_reducible refine Moves.dite ?_ ?_
    | with_reducible refine Moves.ite_snd ?_ ?_
    | with_reducible refine Moves.foldl ?_ _ ?_
    | with_reducible refine Moves.foldl_snd ?_ _ ?_
    | with_reducible refine Moves.elim _ ?_ ?_
    | with_reducible intro _
    | split
    | with_reducible refine Moves.set_gnss ?_ ?_

theorem execTodoutMessage_moves {m : Nat} {r s : State} (hm : 68 ||| m = m) (h : Moves m r s) (x0 : _)  :
    MovesOut m r (Sys2Proof.Machine.execTodoutMessage x0 s) := by
  unfold Sys2Proof.Machine.execTodoutMessage
  try dsimp only
  repeat' first
    | with_reducible assumption
    | with_reducible refine Moves.ite ?_ ?_
    | with_reducible refine Moves.dite ?_ ?_
    | with_reducible refine Moves.ite_snd ?_ ?_
    | with_reducible refine Moves.foldl ?_ _ ?_
    | with_reducible refine Moves.foldl_snd ?_ _ ?_
    | with_reducible refine Moves.elim _ ?_ ?_
    | with_reducible refine MovesOut.next ?_
    | with_reducible refine MovesOut.ite ?_ ?_
    | with_reducible intro _
    | split
    | with_reducible refine Moves.set_time_mile ?_ ?_

theorem tbPresence_moves {m : Nat} {r s : State} (hm : 589952 ||| m = m) (h : Moves m r s) (x0 : _)  :
    Moves m r (Sys2Proof.Machine.tbPresence x0 s) := by
  unfold Sys2Proof.Machine.tbPresence
  repeat' first
    | with_reducible assumption
    | (with_reducible refine mask_sub hm ?_); exact rfl
    | with_reducible refine raise_moves ?_ ?_ _
    | with_reducible refine Moves.ite ?_ ?_
    | with_reducible refine Moves.dite ?_ ?_
    | with_reducible refine Moves.ite_snd ?_ ?_
    | with_reducible refine Moves.foldl ?_ _ ?_
    | with_reducible refine Moves.foldl_snd ?_ _ ?_
    | with_reducible refine Moves.elim _ ?_ ?_
    | with_reducible intro _
    | with_reducible refine Moves.set_tdc ?_ ?_

theorem execTimebasePresence_moves {m : Nat} {r s : State} (hm : 589952 ||| m = m) (h : Moves m r s) (x0 : _) (x1 : _)  :
    MovesOut m r (Sys2Proof.Machine.execTimebasePresence x0 x1 s) := by
  unfold Sys2Proof.Machine.execTimebasePresence
  repeat' first
    | with_reducible assumption
    | (with_reducible refine mask_sub hm ?_); exact rfl
    | with_reducible refine tbPresence_moves ?_ ?_ _
    | with_reducible refine Moves.ite ?_ ?_
    | with_reducible refine Moves.dite ?_ ?_
    | with_reducible refine Moves.ite_snd ?_ ?_
    | with_reducible refine Moves.foldl ?_ _ ?_
    | with_reducible refine Moves.foldl_snd ?_ _ ?_
    | with_reducible refine Moves.elim _ ?_ ?_
    | with_reducible refine MovesOut.next ?_
    | with_reducible refine MovesOut.ite ?_ ?_
    | with_reducible intro _
    | with_reducible refine Moves.set_tdc ?_ ?_

theorem tdcEnd_moves {m : Nat} {r s : State} (hm : 128 ||| m = m) (h : Moves m r s) (x0 : _)  :
    Moves m r (Sys2Proof.Machine.tdcEnd x0 s) := by
  unfold Sys2Proof.Machine.tdcEnd
  repeat' first
    | with_reducible assumption
    | with_reducible refine onCh_moves ?_ ?_ _ _

theorem epochPulse_moves {m : Nat} {r s : State} (hm : 852032 ||| m = m) (h : Moves m r s) (x0 : _)  :
    Moves m r (Sys2Proof.Machine.epochPulse x0 s) := by
  unfold Sys2Proof.Machine.epochPulse
  repeat' first
    | with_reducible assumption
    | with_reducible refine mileEdge_moves ?_ ?_ _ _
    | with_reducible refine Moves.ite ?_ ?_
    | with_reducible refine Moves.dite ?_ ?_
    | with_reducible refine Moves.ite_snd ?_ ?_
    | with_reducible refine Moves.foldl ?_ _ ?_
    | with_reducible refine Moves.foldl_snd ?_ _ ?_
    | with_reducible refine Moves.elim _ ?_ ?_
    | with_reducible intro _

theorem execIcpMileDisarm_moves {m : Nat} {r s : State} (hm : 2031680 ||| m = m) (h : Moves m r s) (x0 : _) (x1 : _) (x2 : _)  :
    MovesOut m r (Sys2Proof.Machine.execIcpMileDisarm x0 x1 x2 s) := by
  unfold Sys2Proof.Machine.execIcpMileDisarm
  try dsimp only
  repeat' first
    | with_reducible assumption
    | (with_reducible refine mask_sub hm ?_); exact rfl
    | with_reducible refine mileCancel_moves ?_ ?_ _
    | with_reducible refine icpDo_moves ?_ ?_ _ _ _ _ _ ?_
    | with_reducible refine Moves.ite ?_ ?_
    | with_reducible refine Moves.self ?_
    | with_reducible refine Moves.dite ?_ ?_
    | with_reducible refine Moves.ite_snd ?_ ?_
    | with_reducible refine Moves.foldl ?_ _ ?_
    | with_reducible refine Moves.foldl_snd ?_ _ ?_
    | with_reducible refine Moves.elim _ ?_ ?_
    | with_reducible refine MovesOut.next ?_
    | with_reducible refine MovesOut.ite ?_ ?_
    | with_reducible intro _
    | split

theorem ringDump_moves {m : Nat} {r s : State} (hm : 25116506 ||| m = m) (h : Moves m r s) (x0 : _) (x1 : _)  :
    Moves m r (Sys2Proof.Machine.ringDump x0 x1 s) := by
  unfold Sys2Proof.Machine.ringDump
  repeat' first
    | with_reducible assumption
    | (with_reducible refine mask_sub hm ?_); exact rfl
    | with_reducible refine onChan_moves ?_ ?_ _ _
    | with_reducible refine sticky_moves ?_ ?_ _ _
    | with_reducible refine raise_moves ?_ ?_ _
    | with_reducible refine faultEvent_moves ?_ ?_ _
    | with_reducible refine Moves.ite ?_ ?_
    | with_reducible refine Moves.dite ?_ ?_
    | with_reducible refine Moves.ite_snd ?_ ?_
    | with_reducible refine Moves.foldl ?_ _ ?_
    | with_reducible refine Moves.foldl_snd ?_ _ ?_
    | with_reducible refine Moves.elim _ ?_ ?_
    | with_reducible intro _
    | with_reducible refine Moves.set_gnss ?_ ?_

theorem dumpAt_moves {m : Nat} {r s : State} (hm : 25116506 ||| m = m) (h : Moves m r s) (x0 : _) (x1 : _) (x2 : _) (x3 : _)  :
    Moves m r (Sys2Proof.Machine.dumpAt x0 x1 x2 x3 s) := by
  unfold Sys2Proof.Machine.dumpAt
  repeat' first
    | with_reducible assumption
    | (with_reducible refine mask_sub hm ?_); exact rfl
    | with_reducible refine onChan_moves ?_ ?_ _ _
    | with_reducible refine ringDump_moves ?_ ?_ _ _
    | with_reducible refine Moves.ite ?_ ?_

theorem boundaryOf_moves {m : Nat} {r s : State} (hm : 25116506 ||| m = m) (h : Moves m r s) (x0 : _) (x1 : _) (x2 : _)  :
    Moves m r (Sys2Proof.Machine.boundaryOf x0 x1 x2 s) := by
  unfold Sys2Proof.Machine.boundaryOf
  repeat' first
    | with_reducible assumption
    | with_reducible refine dumpAt_moves ?_ ?_ _ _ _ _
    | with_reducible refine Moves.ite ?_ ?_

theorem execDumpBoundary_moves {m : Nat} {r s : State} (hm : 25116506 ||| m = m) (h : Moves m r s) (x0 : _) (x1 : _)  :
    MovesOut m r (Sys2Proof.Machine.execDumpBoundary x0 x1 s) := by
  unfold Sys2Proof.Machine.execDumpBoundary
  repeat' first
    | with_reducible assumption
    | with_reducible refine boundaryOf_moves ?_ ?_ _ _ _
    | with_reducible refine Moves.ite ?_ ?_
    | with_reducible refine Moves.dite ?_ ?_
    | with_reducible refine Moves.ite_snd ?_ ?_
    | with_reducible refine Moves.foldl ?_ _ ?_
    | with_reducible refine Moves.foldl_snd ?_ _ ?_
    | with_reducible refine Moves.elim _ ?_ ?_
    | with_reducible refine MovesOut.next ?_

theorem dllFault_moves {m : Nat} {r s : State} (hm : 25116250 ||| m = m) (h : Moves m r s)   :
    Moves m r (Sys2Proof.Machine.dllFault s) := by
  unfold Sys2Proof.Machine.dllFault
  repeat' first
    | with_reducible assumption
    | with_reducible refine faultCond_moves ?_ ?_ _ _

theorem execTdcDllLock_moves {m : Nat} {r s : State} (hm : 25116378 ||| m = m) (h : Moves m r s) (x0 : _)  :
    MovesOut m r (Sys2Proof.Machine.execTdcDllLock x0 s) := by
  unfold Sys2Proof.Machine.execTdcDllLock
  repeat' first
    | with_reducible assumption
    | (with_reducible refine mask_sub hm ?_); exact rfl
    | with_reducible refine raise_moves ?_ ?_ _
    | with_reducible refine onCh_moves ?_ ?_ _ _
    | with_reducible refine dllFault_moves ?_ ?_ 
    | with_reducible refine Moves.ite ?_ ?_
    | with_reducible refine Moves.dite ?_ ?_
    | with_reducible refine Moves.ite_snd ?_ ?_
    | with_reducible refine Moves.foldl ?_ _ ?_
    | with_reducible refine Moves.foldl_snd ?_ _ ?_
    | with_reducible refine Moves.elim _ ?_ ?_
    | with_reducible refine MovesOut.next ?_

theorem mileTai_moves {m : Nat} {r s : State} (hm : 852032 ||| m = m) (h : Moves m r s)   :
    Moves m r (Sys2Proof.Machine.mileTai s) := by
  unfold Sys2Proof.Machine.mileTai
  repeat' first
    | with_reducible assumption
    | with_reducible refine mileConvert_moves ?_ ?_ _
    | with_reducible refine Moves.ite ?_ ?_
    | with_reducible refine Moves.dite ?_ ?_
    | with_reducible refine Moves.ite_snd ?_ ?_
    | with_reducible refine Moves.foldl ?_ _ ?_
    | with_reducible refine Moves.foldl_snd ?_ _ ?_
    | with_reducible refine Moves.elim _ ?_ ?_
    | with_reducible intro _

theorem tdcUser_moves {m : Nat} {r s : State} (hm : 860336 ||| m = m) (h : Moves m r s) (x0 : _) (x1 : _)  :
    Moves m r (Sys2Proof.Machine.tdcUser x0 x1 s) := by
  unfold Sys2Proof.Machine.tdcUser
  repeat' first
    | with_reducible assumption
    | (with_reducible refine mask_sub hm ?_); exact rfl
    | with_reducible refine atomPresence_moves ?_ ?_ _
    | with_reducible refine ppsPulse_moves ?_ ?_ _ _
    | with_reducible refine onCh_moves ?_ ?_ _ _
    | with_reducible refine Moves.ite ?_ ?_
    | with_reducible refine Moves.dite ?_ ?_
    | with_reducible refine Moves.ite_snd ?_ ?_
    | with_reducible refine Moves.foldl ?_ _ ?_
    | with_reducible refine Moves.foldl_snd ?_ _ ?_
    | with_reducible refine Moves.elim _ ?_ ?_
    | with_reducible intro _
    | with_reducible refine Moves.set_foot ?_ ?_
    | with_reducible refine Moves.set_guy ?_ ?_

theorem tdcGive_moves {m : Nat} {r s : State} (hm : 860336 ||| m = m) (h : Moves m r s) (x0 : _) (x1 : _)  :
    Moves m r (Sys2Proof.Machine.tdcGive x0 x1 s) := by
  unfold Sys2Proof.Machine.tdcGive
  repeat' first
    | with_reducible assumption
    | (with_reducible refine mask_sub hm ?_); exact rfl
    | with_reducible refine tdcEnd_moves ?_ ?_ _
    | with_reducible refine tdcDeliver_moves ?_ ?_ _ _
    | with_reducible refine tdcUser_moves ?_ ?_ _ _
    | with_reducible refine onCh_moves ?_ ?_ _ _
    | with_reducible refine Moves.ite ?_ ?_

theorem execTdcTimeout_moves {m : Nat} {r s : State} (hm : 860336 ||| m = m) (h : Moves m r s) (x0 : _)  :
    MovesOut m r (Sys2Proof.Machine.execTdcTimeout x0 s) := by
  unfold Sys2Proof.Machine.execTdcTimeout
  repeat' first
    | with_reducible assumption
    | (with_reducible refine mask_sub hm ?_); exact rfl
    | with_reducible refine raise_moves ?_ ?_ _
    | with_reducible refine tdcGive_moves ?_ ?_ _ _
    | with_reducible refine Moves.ite ?_ ?_
    | with_reducible refine Moves.dite ?_ ?_
    | with_reducible refine Moves.ite_snd ?_ ?_
    | with_reducible refine Moves.foldl ?_ _ ?_
    | with_reducible refine Moves.foldl_snd ?_ _ ?_
    | with_reducible refine Moves.elim _ ?_ ?_
    | with_reducible refine MovesOut.next ?_

theorem execIcpGnssChanStatus_moves {m : Nat} {r s : State} (hm : 2031616 ||| m = m) (h : Moves m r s) (x0 : _) (x1 : _) (x2 : _) (x3 : _)  :
    MovesOut m r (Sys2Proof.Machine.execIcpGnssChanStatus x0 x1 x2 x3 s) := by
  unfold Sys2Proof.Machine.execIcpGnssChanStatus
  repeat' first
    | with_reducible assumption
    | with_reducible refine icpDo_moves ?_ ?_ _ _ _ _ _ ?_
    | with_reducible refine Moves.ite ?_ ?_
    | with_reducible refine Moves.self ?_
    | with_reducible refine Moves.dite ?_ ?_
    | with_reducible refine Moves.ite_snd ?_ ?_
    | with_reducible refine Moves.foldl ?_ _ ?_
    | with_reducible refine Moves.foldl_snd ?_ _ ?_
    | with_reducible refine Moves.elim _ ?_ ?_
    | with_reducible refine MovesOut.next ?_
    | with_reducible refine MovesOut.ite ?_ ?_
    | with_reducible intro _

theorem execIcpGnssSignals_moves {m : Nat} {r s : State} (hm : 2031872 ||| m = m) (h : Moves m r s) (x0 : _) (x1 : _) (x2 : _) (x3 : _)  :
    MovesOut m r (Sys2Proof.Machine.execIcpGnssSignals x0 x1 x2 x3 s) := by
  unfold Sys2Proof.Machine.execIcpGnssSignals
  repeat' first
    | with_reducible assumption
    | (with_reducible refine mask_sub hm ?_); exact rfl
    | with_reducible refine clusterWrite_moves ?_ ?_ _
    | with_reducible refine icpDo_moves ?_ ?_ _ _ _ _ _ ?_
    | with_reducible refine Moves.ite ?_ ?_
    | with_reducible refine Moves.self ?_
    | with_reducible refine Moves.dite ?_ ?_
    | with_reducible refine Moves.ite_snd ?_ ?_
    | with_reducible refine Moves.foldl ?_ _ ?_
    | with_reducible refine Moves.foldl_snd ?_ _ ?_
    | with_reducible refine Moves.elim _ ?_ ?_
    | with_reducible refine MovesOut.next ?_
    | with_reducible refine MovesOut.ite ?_ ?_
    | with_reducible intro _
    | with_reducible refine Moves.set_gnss ?_ ?_

theorem execIcpGnssFeSpi_moves {m : Nat} {r s : State} (hm : 2031872 ||| m = m) (h : Moves m r s) (x0 : _) (x1 : _)  :
    MovesOut m r (Sys2Proof.Machine.execIcpGnssFeSpi x0 x1 s) := by
  unfold Sys2Proof.Machine.execIcpGnssFeSpi
  repeat' first
    | with_reducible assumption
    | (with_reducible refine mask_sub hm ?_); exact rfl
    | with_reducible refine spiStart_moves ?_ ?_ 
    | with_reducible refine icp_moves ?_ ?_ _ _ _ ?_
    | with_reducible refine Moves.ite ?_ ?_
    | with_reducible refine Moves.dite ?_ ?_
    | with_reducible refine Moves.ite_snd ?_ ?_
    | with_reducible refine Moves.foldl ?_ _ ?_
    | with_reducible refine Moves.foldl_snd ?_ _ ?_
    | with_reducible refine Moves.elim _ ?_ ?_
    | with_reducible refine MovesOut.next ?_
    | with_reducible refine MovesOut.ite ?_ ?_
    | with_reducible refine MovesRes.ite ?_ ?_
    | with_reducible refine MovesRes.done ?_
    | with_reducible refine MovesRes.later ?_
    | with_reducible intro _
    | with_reducible refine Moves.set_gnss ?_ ?_

theorem execIcpGnssFeConfig_moves {m : Nat} {r s : State} (hm : 2031872 ||| m = m) (h : Moves m r s) (x0 : _) (x1 : _)  :
    MovesOut m r (Sys2Proof.Machine.execIcpGnssFeConfig x0 x1 s) := by
  unfold Sys2Proof.Machine.execIcpGnssFeConfig
  try dsimp only
  repeat' first
    | with_reducible assumption
    | (with_reducible refine mask_sub hm ?_); exact rfl
    | with_reducible refine icpDo_moves ?_ ?_ _ _ _ _ _ ?_
    | with_reducible refine Moves.ite ?_ ?_
    | with_reducible refine Moves.self ?_
    | with_reducible refine Moves.dite ?_ ?_
    | with_reducible refine Moves.ite_snd ?_ ?_
    | with_reducible refine Moves.foldl ?_ _ ?_
    | with_reducible refine Moves.foldl_snd ?_ _ ?_
    | with_reducible refine Moves.elim _ ?_ ?_
    | with_reducible refine MovesOut.next ?_
    | with_reducible refine MovesOut.ite ?_ ?_
    | with_reducible intro _
    | split
    | with_reducible refine Moves.set_gnss ?_ ?_

theorem execIcpTdcStatus_moves {m : Nat} {r s : State} (hm : 2031616 ||| m = m) (h : Moves m r s) (x0 : _)  :
    MovesOut m r (Sys2Proof.Machine.execIcpTdcStatus x0 s) := by
  unfold Sys2Proof.Machine.execIcpTdcStatus
  repeat' first
    | with_reducible assumption
    | with_reducible refine icpGet_moves ?_ ?_ _ _ _

theorem execIcpTdcSkew_moves {m : Nat} {r s : State} (hm : 2031744 ||| m = m) (h : Moves m r s) (x0 : _) (x1 : _) (x2 : _) (x3 : _)  :
    MovesOut m r (Sys2Proof.Machine.execIcpTdcSkew x0 x1 x2 x3 s) := by
  unfold Sys2Proof.Machine.execIcpTdcSkew
  try dsimp only
  repeat' first
    | with_reducible assumption
    | (with_reducible refine mask_sub hm ?_); exact rfl
    | with_reducible refine onCh_moves ?_ ?_ _ _
    | with_reducible refine icpDo_moves ?_ ?_ _ _ _ _ _ ?_
    | with_reducible refine Moves.ite ?_ ?_
    | with_reducible refine Moves.self ?_
    | with_reducible refine Moves.dite ?_ ?_
    | with_reducible refine Moves.ite_snd ?_ ?_
    | with_reducible refine Moves.foldl ?_ _ ?_
    | with_reducible refine Moves.foldl_snd ?_ _ ?_
    | with_reducible refine Moves.elim _ ?_ ?_
    | with_reducible refine MovesOut.next ?_
    | with_reducible refine MovesOut.ite ?_ ?_
    | with_reducible intro _
    | split

theorem execIcpTdcCalConfig_moves {m : Nat} {r s : State} (hm : 2031744 ||| m = m) (h : Moves m r s) (x0 : _) (x1 : _) (x2 : _)  :
    MovesOut m r (Sys2Proof.Machine.execIcpTdcCalConfig x0 x1 x2 s) := by
  unfold Sys2Proof.Machine.execIcpTdcCalConfig
  repeat' first
    | with_reducible assumption
    | (with_reducible refine mask_sub hm ?_); exact rfl
    | with_reducible refine icpDo_moves ?_ ?_ _ _ _ _ _ ?_
    | with_reducible refine Moves.ite ?_ ?_
    | with_reducible refine Moves.self ?_
    | with_reducible refine Moves.dite ?_ ?_
    | with_reducible refine Moves.ite_snd ?_ ?_
    | with_reducible refine Moves.foldl ?_ _ ?_
    | with_reducible refine Moves.foldl_snd ?_ _ ?_
    | with_reducible refine Moves.elim _ ?_ ?_
    | with_reducible refine MovesOut.next ?_
    | with_reducible refine MovesOut.ite ?_ ?_
    | with_reducible intro _
    | with_reducible refine Moves.set_tdc ?_ ?_

theorem execIcpTdcTimebase_moves {m : Nat} {r s : State} (hm : 2031744 ||| m = m) (h : Moves m r s) (x0 : _) (x1 : _) (x2 : _) (x3 : _)  :
    MovesOut m r (Sys2Proof.Machine.execIcpTdcTimebase x0 x1 x2 x3 s) := by
  unfold Sys2Proof.Machine.execIcpTdcTimebase
  repeat' first
    | with_reducible assumption
    | (with_reducible refine mask_sub hm ?_); exact rfl
    | with_reducible refine tbPresence_moves ?_ ?_ _
    | with_reducible refine icpDo_moves ?_ ?_ _ _ _ _ _ ?_
    | with_reducible refine Moves.ite ?_ ?_
    | with_reducible refine Moves.self ?_
    | with_reducible refine Moves.dite ?_ ?_
    | with_reducible refine Moves.ite_snd ?_ ?_
    | with_reducible refine Moves.foldl ?_ _ ?_
    | with_reducible refine Moves.foldl_snd ?_ _ ?_
    | with_reducible refine Moves.elim _ ?_ ?_
    | with_reducible refine MovesOut.next ?_
    | with_reducible refine MovesOut.ite ?_ ?_
    | with_reducible intro _
    | with_reducible refine Moves.set_tdc ?_ ?_

theorem execIcpTdcMeasure_moves {m : Nat} {r s : State} (hm : 2031744 ||| m = m) (h : Moves m r s) (x0 : _) (x1 : _) (x2 : _)  :
    MovesOut m r (Sys2Proof.Machine.execIcpTdcMeasure x0 x1 x2 s) := by
  unfold Sys2Proof.Machine.execIcpTdcMeasure
  try dsimp only
  repeat' first
    | with_reducible assumption
    | (with_reducible refine mask_sub hm ?_); exact rfl
    | with_reducible refine tdcArm_moves ?_ ?_ _
    | with_reducible refine icp_moves ?_ ?_ _ _ _ ?_
    | with_reducible refine Moves.ite ?_ ?_
    | with_reducible refine Moves.dite ?_ ?_
    | with_reducible refine Moves.ite_snd ?_ ?_
    | with_reducible refine Moves.foldl ?_ _ ?_
    | with_reducible refine Moves.foldl_snd ?_ _ ?_
    | with_reducible refine Moves.elim _ ?_ ?_
    | with_reducible refine MovesOut.next ?_
    | with_reducible refine MovesOut.ite ?_ ?_
    | with_reducible refine MovesRes.ite ?_ ?_
    | with_reducible refine MovesRes.done ?_
    | with_reducible refine MovesRes.later ?_
    | with_reducible intro _
    | split
    | with_reducible refine Moves.set_tdc ?_ ?_

theorem execIcpTdcConfig_moves {m : Nat} {r s : State} (hm : 2031744 ||| m = m) (h : Moves m r s) (x0 : _) (x1 : _)  :
    MovesOut m r (Sys2Proof.Machine.execIcpTdcConfig x0 x1 s) := by
  unfold Sys2Proof.Machine.execIcpTdcConfig
  try dsimp only
  repeat' first
    | with_reducible assumption
    | (with_reducible refine mask_sub hm ?_); exact rfl
    | with_reducible refine tdcSet_moves ?_ ?_ _ _
    | with_reducible refine onCh_moves ?_ ?_ _ _
    | with_reducible refine icpDo_moves ?_ ?_ _ _ _ _ _ ?_
    | with_reducible refine Moves.ite ?_ ?_
    | with_reducible refine Moves.self ?_
    | with_reducible refine Moves.dite ?_ ?_
    | with_reducible refine Moves.ite_snd ?_ ?_
    | with_reducible refine Moves.foldl ?_ _ ?_
    | with_reducible refine Moves.foldl_snd ?_ _ ?_
    | with_reducible refine Moves.elim _ ?_ ?_
    | with_reducible refine MovesOut.next ?_
    | with_reducible refine MovesOut.ite ?_ ?_
    | with_reducible intro _
    | split

theorem execIcpEpochConfig_moves {m : Nat} {r s : State} (hm : 2031680 ||| m = m) (h : Moves m r s) (x0 : _) (x1 : _) (x2 : _) (x3 : _)  :
    MovesOut m r (Sys2Proof.Machine.execIcpEpochConfig x0 x1 x2 x3 s) := by
  unfold Sys2Proof.Machine.execIcpEpochConfig
  repeat' first
    | with_reducible assumption
    | (with_reducible refine mask_sub hm ?_); exact rfl
    | with_reducible refine icpDo_moves ?_ ?_ _ _ _ _ _ ?_
    | with_reducible refine Moves.ite ?_ ?_
    | with_reducible refine Moves.self ?_
    | with_reducible refine Moves.dite ?_ ?_
    | with_reducible refine Moves.ite_snd ?_ ?_
    | with_reducible refine Moves.foldl ?_ _ ?_
    | with_reducible refine Moves.foldl_snd ?_ _ ?_
    | with_reducible refine Moves.elim _ ?_ ?_
    | with_reducible refine MovesOut.next ?_
    | with_reducible refine MovesOut.ite ?_ ?_
    | with_reducible intro _
    | with_reducible refine Moves.set_mile ?_ ?_

theorem execIcpMileCaptureConfig_moves {m : Nat} {r s : State} (hm : 2031680 ||| m = m) (h : Moves m r s) (x0 : _) (x1 : _)  :
    MovesOut m r (Sys2Proof.Machine.execIcpMileCaptureConfig x0 x1 s) := by
  unfold Sys2Proof.Machine.execIcpMileCaptureConfig
  try dsimp only
  repeat' first
    | with_reducible assumption
    | (with_reducible refine mask_sub hm ?_); exact rfl
    | with_reducible refine onEvt_moves ?_ ?_ _ _
    | with_reducible refine icpDo_moves ?_ ?_ _ _ _ _ _ ?_
    | with_reducible refine Moves.ite ?_ ?_
    | with_reducible refine Moves.self ?_
    | with_reducible refine Moves.dite ?_ ?_
    | with_reducible refine Moves.ite_snd ?_ ?_
    | with_reducible refine Moves.foldl ?_ _ ?_
    | with_reducible refine Moves.foldl_snd ?_ _ ?_
    | with_reducible refine Moves.elim _ ?_ ?_
    | with_reducible refine MovesOut.next ?_
    | with_reducible refine MovesOut.ite ?_ ?_
    | with_reducible intro _
    | split

theorem execIcpMileArm_moves {m : Nat} {r s : State} (hm : 2031680 ||| m = m) (h : Moves m r s) (x0 : _) (x1 : _)  :
    MovesOut m r (Sys2Proof.Machine.execIcpMileArm x0 x1 s) := by
  unfold Sys2Proof.Machine.execIcpMileArm
  try dsimp only
  repeat' first
    | with_reducible assumption
    | (with_reducible refine mask_sub hm ?_); exact rfl
    | with_reducible refine mileStart_moves ?_ ?_ _
    | with_reducible refine mileConvert_moves ?_ ?_ _
    | with_reducible refine onEvt_moves ?_ ?_ _ _
    | with_reducible refine icpDo_moves ?_ ?_ _ _ _ _ _ ?_
    | with_reducible refine Moves.ite ?_ ?_
    | with_reducible refine Moves.self ?_
    | with_reducible refine Moves.dite ?_ ?_
    | with_reducible refine Moves.ite_snd ?_ ?_
    | with_reducible refine Moves.foldl ?_ _ ?_
    | with_reducible refine Moves.foldl_snd ?_ _ ?_
    | with_reducible refine Moves.elim _ ?_ ?_
    | with_reducible refine MovesOut.next ?_
    | with_reducible refine MovesOut.ite ?_ ?_
    | with_reducible intro _
    | split

theorem execIcpOutCalibrate_moves {m : Nat} {r s : State} (hm : 2031808 ||| m = m) (h : Moves m r s) (x0 : _) (x1 : _)  :
    MovesOut m r (Sys2Proof.Machine.execIcpOutCalibrate x0 x1 s) := by
  unfold Sys2Proof.Machine.execIcpOutCalibrate
  try dsimp only
  repeat' first
    | with_reducible assumption
    | (with_reducible refine mask_sub hm ?_); exact rfl
    | with_reducible refine tdcCancel_moves ?_ ?_ _
    | with_reducible refine icp_moves ?_ ?_ _ _ _ ?_
    | with_reducible refine Moves.ite ?_ ?_
    | with_reducible refine Moves.dite ?_ ?_
    | with_reducible refine Moves.ite_snd ?_ ?_
    | with_reducible refine Moves.foldl ?_ _ ?_
    | with_reducible refine Moves.foldl_snd ?_ _ ?_
    | with_reducible refine Moves.elim _ ?_ ?_
    | with_reducible refine MovesOut.next ?_
    | with_reducible refine MovesOut.ite ?_ ?_
    | with_reducible refine MovesRes.ite ?_ ?_
    | with_reducible refine MovesRes.done ?_
    | with_reducible refine MovesRes.later ?_
    | with_reducible intro _
    | split
    | with_reducible refine Moves.set_mile_tdc ?_ ?_

theorem execIcpTodConfig_moves {m : Nat} {r s : State} (hm : 2031680 ||| m = m) (h : Moves m r s) (x0 : _) (x1 : _)  :
    MovesOut m r (Sys2Proof.Machine.execIcpTodConfig x0 x1 s) := by
  unfold Sys2Proof.Machine.execIcpTodConfig
  try dsimp only
  repeat' first
    | with_reducible assumption
    | (with_reducible refine mask_sub hm ?_); exact rfl
    | with_reducible refine icpDo_moves ?_ ?_ _ _ _ _ _ ?_
    | with_reducible refine Moves.ite ?_ ?_
    | with_reducible refine Moves.self ?_
    | with_reducible refine Moves.dite ?_ ?_
    | with_reducible refine Moves.ite_snd ?_ ?_
    | with_reducible refine Moves.foldl ?_ _ ?_
    | with_reducible refine Moves.foldl_snd ?_ _ ?_
    | with_reducible refine Moves.elim _ ?_ ?_
    | with_reducible refine MovesOut.next ?_
    | with_reducible refine MovesOut.ite ?_ ?_
    | with_reducible intro _
    | split
    | with_reducible refine Moves.set_mile ?_ ?_

theorem outFollow_moves {m : Nat} {r s : State} (hm : 64 ||| m = m) (h : Moves m r s)   :
    Moves m r (Sys2Proof.Machine.outFollow s) := by
  unfold Sys2Proof.Machine.outFollow
  repeat' first
    | with_reducible assumption
    | with_reducible refine Moves.ite ?_ ?_
    | with_reducible refine Moves.dite ?_ ?_
    | with_reducible refine Moves.ite_snd ?_ ?_
    | with_reducible refine Moves.foldl ?_ _ ?_
    | with_reducible refine Moves.foldl_snd ?_ _ ?_
    | with_reducible refine Moves.elim _ ?_ ?_
    | with_reducible intro _
    | with_reducible refine Moves.set_mile ?_ ?_

theorem execIcpFreqConfig_moves {m : Nat} {r s : State} (hm : 2031680 ||| m = m) (h : Moves m r s) (x0 : _) (x1 : _)  :
    MovesOut m r (Sys2Proof.Machine.execIcpFreqConfig x0 x1 s) := by
  unfold Sys2Proof.Machine.execIcpFreqConfig
  try dsimp only
  repeat' first
    | with_reducible assumption
    | (with_reducible refine mask_sub hm ?_); exact rfl
    | with_reducible refine outFollow_moves ?_ ?_ 
    | with_reducible refine icpDo_moves ?_ ?_ _ _ _ _ _ ?_
    | with_reducible refine Moves.ite ?_ ?_
    | with_reducible refine Moves.self ?_
    | with_reducible refine Moves.dite ?_ ?_
    | with_reducible refine Moves.ite_snd ?_ ?_
    | with_reducible refine Moves.foldl ?_ _ ?_
    | with_reducible refine Moves.foldl_snd ?_ _ ?_
    | with_reducible refine Moves.elim _ ?_ ?_
    | with_reducible refine MovesOut.next ?_
    | with_reducible refine MovesOut.ite ?_ ?_
    | with_reducible intro _
    | split
    | with_reducible refine Moves.set_mile ?_ ?_

theorem execIcpPpsConfig_moves {m : Nat} {r s : State} (hm : 2031680 ||| m = m) (h : Moves m r s) (x0 : _) (x1 : _)  :
    MovesOut m r (Sys2Proof.Machine.execIcpPpsConfig x0 x1 s) := by
  unfold Sys2Proof.Machine.execIcpPpsConfig
  try dsimp only
  repeat' first
    | with_reducible assumption
    | (with_reducible refine mask_sub hm ?_); exact rfl
    | with_reducible refine icpDo_moves ?_ ?_ _ _ _ _ _ ?_
    | with_reducible refine Moves.ite ?_ ?_
    | with_reducible refine Moves.self ?_
    | with_reducible refine Moves.dite ?_ ?_
    | with_reducible refine Moves.ite_snd ?_ ?_
    | with_reducible refine Moves.foldl ?_ _ ?_
    | with_reducible refine Moves.foldl_snd ?_ _ ?_
    | with_reducible refine Moves.elim _ ?_ ?_
    | with_reducible refine MovesOut.next ?_
    | with_reducible refine MovesOut.ite ?_ ?_
    | with_reducible intro _
    | split
    | with_reducible refine Moves.set_mile ?_ ?_

theorem execGnssSpiDone_moves {m : Nat} {r s : State} (hm : 590080 ||| m = m) (h : Moves m r s) (x0 : _)  :
    MovesOut m r (Sys2Proof.Machine.execGnssSpiDone x0 s) := by
  unfold Sys2Proof.Machine.execGnssSpiDone
  try dsimp only
  repeat' first
    | with_reducible assumption
    | (with_reducible refine mask_sub hm ?_); exact rfl
    | with_reducible refine complete_moves ?_ ?_ _ _ _ _
    | with_reducible refine raise_moves ?_ ?_ _
    | with_reducible refine spiStart_moves ?_ ?_ 
    | with_reducible refine Moves.ite ?_ ?_
    | with_reducible refine Moves.dite ?_ ?_
    | with_reducible refine Moves.ite_snd ?_ ?_
    | with_reducible refine Moves.foldl ?_ _ ?_
    | with_reducible refine Moves.foldl_snd ?_ _ ?_
    | with_reducible refine Moves.elim _ ?_ ?_
    | with_reducible refine MovesOut.next ?_
    | with_reducible refine MovesOut.ite ?_ ?_
    | with_reducible intro _
    | split
    | with_reducible refine Moves.set_gnss ?_ ?_

theorem execChannelApply_moves {m : Nat} {r s : State} (hm : 256 ||| m = m) (h : Moves m r s) (x0 : _) (x1 : _)  :
    MovesOut m r (Sys2Proof.Machine.execChannelApply x0 x1 s) := by
  unfold Sys2Proof.Machine.execChannelApply
  repeat' first
    | with_reducible assumption
    | with_reducible refine onChan_moves ?_ ?_ _ _
    | with_reducible refine Moves.ite ?_ ?_
    | with_reducible refine Moves.dite ?_ ?_
    | with_reducible refine Moves.ite_snd ?_ ?_
    | with_reducible refine Moves.foldl ?_ _ ?_
    | with_reducible refine Moves.foldl_snd ?_ _ ?_
    | with_reducible refine Moves.elim _ ?_ ?_
    | with_reducible refine MovesOut.next ?_

theorem execChannelEnable_moves {m : Nat} {r s : State} (hm : 256 ||| m = m) (h : Moves m r s) (x0 : _) (x1 : _) (x2 : _)  :
    MovesOut m r (Sys2Proof.Machine.execChannelEnable x0 x1 x2 s) := by
  unfold Sys2Proof.Machine.execChannelEnable
  repeat' first
    | with_reducible assumption
    | with_reducible refine onChan_moves ?_ ?_ _ _
    | with_reducible refine Moves.ite ?_ ?_
    | with_reducible refine Moves.dite ?_ ?_
    | with_reducible refine Moves.ite_snd ?_ ?_
    | with_reducible refine Moves.foldl ?_ _ ?_
    | with_reducible refine Moves.foldl_snd ?_ _ ?_
    | with_reducible refine Moves.elim _ ?_ ?_
    | with_reducible refine MovesOut.next ?_

theorem execFeMagPeriod_moves {m : Nat} {r s : State} (hm : 25116506 ||| m = m) (h : Moves m r s) (x0 : _) (x1 : _)  :
    MovesOut m r (Sys2Proof.Machine.execFeMagPeriod x0 x1 s) := by
  unfold Sys2Proof.Machine.execFeMagPeriod
  repeat' first
    | with_reducible assumption
    | (with_reducible refine mask_sub hm ?_); exact rfl
    | with_reducible refine faultCond_moves ?_ ?_ _ _
    | with_reducible refine raise_moves ?_ ?_ _
    | with_reducible refine Moves.ite ?_ ?_
    | with_reducible refine Moves.dite ?_ ?_
    | with_reducible refine Moves.ite_snd ?_ ?_
    | with_reducible refine Moves.foldl ?_ _ ?_
    | with_reducible refine Moves.foldl_snd ?_ _ ?_
    | with_reducible refine Moves.elim _ ?_ ?_
    | with_reducible refine MovesOut.next ?_
    | with_reducible refine MovesOut.ite ?_ ?_
    | with_reducible intro _
    | with_reducible refine Moves.set_gnss ?_ ?_

theorem execForcedBoundary_moves {m : Nat} {r s : State} (hm : 25116506 ||| m = m) (h : Moves m r s) (x0 : _) (x1 : _)  :
    MovesOut m r (Sys2Proof.Machine.execForcedBoundary x0 x1 s) := by
  unfold Sys2Proof.Machine.execForcedBoundary
  repeat' first
    | with_reducible assumption
    | with_reducible refine boundaryOf_moves ?_ ?_ _ _ _
    | with_reducible refine Moves.ite ?_ ?_
    | with_reducible refine Moves.dite ?_ ?_
    | with_reducible refine Moves.ite_snd ?_ ?_
    | with_reducible refine Moves.foldl ?_ _ ?_
    | with_reducible refine Moves.foldl_snd ?_ _ ?_
    | with_reducible refine Moves.elim _ ?_ ?_
    | with_reducible refine MovesOut.next ?_

theorem execTdcArmWrite_moves {m : Nat} {r s : State} (hm : 6226048 ||| m = m) (h : Moves m r s) (x0 : _) (x1 : _) (x2 : _)  :
    MovesOut m r (Sys2Proof.Machine.execTdcArmWrite x0 x1 x2 s) := by
  unfold Sys2Proof.Machine.execTdcArmWrite
  repeat' first
    | with_reducible assumption
    | (with_reducible refine mask_sub hm ?_); exact rfl
    | with_reducible refine tdcCfgWrite_moves ?_ ?_ _ _
    | with_reducible refine writeBy_moves ?_ ?_ _ _ _ ?_
    | with_reducible refine Moves.ite ?_ ?_
    | with_reducible refine Moves.dite ?_ ?_
    | with_reducible refine Moves.ite_snd ?_ ?_
    | with_reducible refine Moves.foldl ?_ _ ?_
    | with_reducible refine Moves.foldl_snd ?_ _ ?_
    | with_reducible refine Moves.elim _ ?_ ?_
    | with_reducible refine MovesOut.next ?_
    | with_reducible refine MovesOut.ite ?_ ?_
    | with_reducible intro _

theorem execTdcCalibration_moves {m : Nat} {r s : State} (hm : 128 ||| m = m) (h : Moves m r s) (x0 : _)  :
    MovesOut m r (Sys2Proof.Machine.execTdcCalibration x0 s) := by
  unfold Sys2Proof.Machine.execTdcCalibration
  repeat' first
    | with_reducible assumption
    | with_reducible refine Moves.ite ?_ ?_
    | with_reducible refine Moves.dite ?_ ?_
    | with_reducible refine Moves.ite_snd ?_ ?_
    | with_reducible refine Moves.foldl ?_ _ ?_
    | with_reducible refine Moves.foldl_snd ?_ _ ?_
    | with_reducible refine Moves.elim _ ?_ ?_
    | with_reducible refine MovesOut.next ?_
    | with_reducible refine MovesOut.ite ?_ ?_
    | with_reducible intro _
    | with_reducible refine Moves.set_tdc ?_ ?_

theorem execTdcDllUnlock_moves {m : Nat} {r s : State} (hm : 25116378 ||| m = m) (h : Moves m r s) (x0 : _)  :
    MovesOut m r (Sys2Proof.Machine.execTdcDllUnlock x0 s) := by
  unfold Sys2Proof.Machine.execTdcDllUnlock
  repeat' first
    | with_reducible assumption
    | (with_reducible refine mask_sub hm ?_); exact rfl
    | with_reducible refine onCh_moves ?_ ?_ _ _
    | with_reducible refine sticky_moves ?_ ?_ _ _
    | with_reducible refine dllFault_moves ?_ ?_ 
    | with_reducible refine raise_moves ?_ ?_ _
    | with_reducible refine Moves.ite ?_ ?_
    | with_reducible refine Moves.dite ?_ ?_
    | with_reducible refine Moves.ite_snd ?_ ?_
    | with_reducible refine Moves.foldl ?_ _ ?_
    | with_reducible refine Moves.foldl_snd ?_ _ ?_
    | with_reducible refine Moves.elim _ ?_ ?_
    | with_reducible refine MovesOut.next ?_

theorem execTdcResult_moves {m : Nat} {r s : State} (hm : 860336 ||| m = m) (h : Moves m r s) (x0 : _) (x1 : _) (x2 : _) (x3 : _)  :
    MovesOut m r (Sys2Proof.Machine.execTdcResult x0 x1 x2 x3 s) := by
  unfold Sys2Proof.Machine.execTdcResult
  repeat' first
    | with_reducible assumption
    | with_reducible refine tdcGive_moves ?_ ?_ _ _
    | with_reducible refine Moves.ite ?_ ?_
    | with_reducible refine Moves.dite ?_ ?_
    | with_reducible refine Moves.ite_snd ?_ ?_
    | with_reducible refine Moves.foldl ?_ _ ?_
    | with_reducible refine Moves.foldl_snd ?_ _ ?_
    | with_reducible refine Moves.elim _ ?_ ?_
    | with_reducible refine MovesOut.next ?_

theorem outDelaySet_moves {m : Nat} {r s : State} (hm : 64 ||| m = m) (h : Moves m r s) (x0 : _) (x1 : _)  :
    Moves m r (Sys2Proof.Machine.outDelaySet x0 x1 s) := by
  unfold Sys2Proof.Machine.outDelaySet
  try dsimp only
  repeat' first
    | with_reducible assumption
    | with_reducible refine Moves.ite ?_ ?_
    | with_reducible refine Moves.dite ?_ ?_
    | with_reducible refine Moves.ite_snd ?_ ?_
    | with_reducible refine Moves.foldl ?_ _ ?_
    | with_reducible refine Moves.foldl_snd ?_ _ ?_
    | with_reducible refine Moves.elim _ ?_ ?_
    | with_reducible intro _
    | split
    | with_reducible refine Moves.set_mile ?_ ?_

theorem execOutCalibrateDone_moves {m : Nat} {r s : State} (hm : 590016 ||| m = m) (h : Moves m r s) (x0 : _) (x1 : _) (x2 : _)  :
    MovesOut m r (Sys2Proof.Machine.execOutCalibrateDone x0 x1 x2 s) := by
  unfold Sys2Proof.Machine.execOutCalibrateDone
  try dsimp only
  repeat' first
    | with_reducible assumption
    | (with_reducible refine mask_sub hm ?_); exact rfl
    | with_reducible refine outDelaySet_moves ?_ ?_ _ _
    | with_reducible refine complete_moves ?_ ?_ _ _ _ _
    | with_reducible refine onCh_moves ?_ ?_ _ _
    | with_reducible refine Moves.ite ?_ ?_
    | with_reducible refine Moves.dite ?_ ?_
    | with_reducible refine Moves.ite_snd ?_ ?_
    | with_reducible refine Moves.foldl ?_ _ ?_
    | with_reducible refine Moves.foldl_snd ?_ _ ?_
    | with_reducible refine Moves.elim _ ?_ ?_
    | with_reducible refine MovesOut.next ?_
    | with_reducible refine MovesOut.ite ?_ ?_
    | with_reducible intro _
    | split
    | with_reducible refine Moves.set_mile_tdc ?_ ?_

theorem execMileArmWrite_moves {m : Nat} {r s : State} (hm : 6225984 ||| m = m) (h : Moves m r s) (x0 : _) (x1 : _) (x2 : _)  :
    MovesOut m r (Sys2Proof.Machine.execMileArmWrite x0 x1 x2 s) := by
  unfold Sys2Proof.Machine.execMileArmWrite
  repeat' first
    | with_reducible assumption
    | (with_reducible refine mask_sub hm ?_); exact rfl
    | with_reducible refine mileCfgWrite_moves ?_ ?_ _ _
    | with_reducible refine writeBy_moves ?_ ?_ _ _ _ ?_
    | with_reducible refine Moves.ite ?_ ?_
    | with_reducible refine Moves.dite ?_ ?_
    | with_reducible refine Moves.ite_snd ?_ ?_
    | with_reducible refine Moves.foldl ?_ _ ?_
    | with_reducible refine Moves.foldl_snd ?_ _ ?_
    | with_reducible refine Moves.elim _ ?_ ?_
    | with_reducible refine MovesOut.next ?_
    | with_reducible refine MovesOut.ite ?_ ?_
    | with_reducible intro _

theorem execEvtCapture_moves {m : Nat} {r s : State} (hm : 852036 ||| m = m) (h : Moves m r s) (x0 : _) (x1 : _) (x2 : _) (x3 : _)  :
    MovesOut m r (Sys2Proof.Machine.execEvtCapture x0 x1 x2 x3 s) := by
  unfold Sys2Proof.Machine.execEvtCapture
  repeat' first
    | with_reducible assumption
    | (with_reducible refine mask_sub hm ?_); exact rfl
    | with_reducible refine stickyCount_moves ?_ ?_ _ _ _ _
    | with_reducible refine evtRaise_moves ?_ ?_ _ _
    | with_reducible refine onEvt_moves ?_ ?_ _ _
    | with_reducible refine sticky_moves ?_ ?_ _ _
    | with_reducible refine atTick_moves ?_ ?_ _
    | with_reducible refine Moves.ite ?_ ?_
    | with_reducible refine Moves.dite ?_ ?_
    | with_reducible refine Moves.ite_snd ?_ ?_
    | with_reducible refine Moves.foldl ?_ _ ?_
    | with_reducible refine Moves.foldl_snd ?_ _ ?_
    | with_reducible refine Moves.elim _ ?_ ?_
    | with_reducible refine MovesOut.next ?_

theorem execOeTimingChange_moves {m : Nat} {r s : State} (hm : 25116254 ||| m = m) (h : Moves m r s) (x0 : _) (x1 : _)  :
    MovesOut m r (Sys2Proof.Machine.execOeTimingChange x0 x1 s) := by
  unfold Sys2Proof.Machine.execOeTimingChange
  repeat' first
    | with_reducible assumption
    | (with_reducible refine mask_sub hm ?_); exact rfl
    | with_reducible refine atTick_moves ?_ ?_ _
    | with_reducible refine setOe_moves ?_ ?_ _
    | with_reducible refine conflictCheck_moves ?_ ?_ 
    | with_reducible refine atCk_moves ?_ ?_ _
    | with_reducible refine Moves.ite ?_ ?_
    | with_reducible refine Moves.dite ?_ ?_
    | with_reducible refine Moves.ite_snd ?_ ?_
    | with_reducible refine Moves.foldl ?_ _ ?_
    | with_reducible refine Moves.foldl_snd ?_ _ ?_
    | with_reducible refine Moves.elim _ ?_ ?_
    | with_reducible refine MovesOut.next ?_
    | with_reducible refine MovesOut.ite ?_ ?_
    | with_reducible intro _
    | with_reducible refine Moves.set_foot ?_ ?_

theorem outStep_moves {m : Nat} {r s : State} (hm : 852032 ||| m = m) (h : Moves m r s) (x0 : _)  :
    Moves m r (Sys2Proof.Machine.outStep x0 s) := by
  unfold Sys2Proof.Machine.outStep
  repeat' first
    | with_reducible assumption
    | (with_reducible refine mask_sub hm ?_); exact rfl
    | with_reducible refine raise_moves ?_ ?_ _
    | with_reducible refine skipSeen_moves ?_ ?_ 
    | with_reducible refine outSkip_moves ?_ ?_ 
    | with_reducible refine Moves.ite ?_ ?_
    | with_reducible refine Moves.dite ?_ ?_
    | with_reducible refine Moves.ite_snd ?_ ?_
    | with_reducible refine Moves.foldl ?_ _ ?_
    | with_reducible refine Moves.foldl_snd ?_ _ ?_
    | with_reducible refine Moves.elim _ ?_ ?_
    | with_reducible intro _
    | with_reducible refine Moves.set_mile ?_ ?_

end Sys2Proof.Laws
end

