-- ==== Sys2Proof/Laws/MovesMeas.lean ====
section
/-!
SUPPORT. What each function of Machine/GnssMeas, Waypoint, Service may change, as `Moves`.
-/
namespace Sys2Proof.Laws
open Sys2Proof Sys2Proof.Machine

theorem onServ_moves {m : Nat} {r s : State} (hm : 2048 ||| m = m) (h : Moves m r s) (x0 : _) (hf : ServOn s.serv (x0 s.serv)) :
    Moves m r (Sys2Proof.Machine.onServ x0 s) := by
  unfold Sys2Proof.Machine.onServ
  repeat' first
    | with_reducible assumption
    | with_reducible exact hf
    | with_reducible exact ServOn.same rfl rfl
    | with_reducible refine Moves.ite ?_ ?_
    | with_reducible refine Moves.dite ?_ ?_
    | with_reducible refine Moves.ite_snd ?_ ?_
    | with_reducible refine Moves.foldl ?_ _ ?_
    | with_reducible refine Moves.foldl_snd ?_ _ ?_
    | with_reducible refine Moves.elim _ ?_ ?_
    | with_reducible intro _
    | with_reducible refine Moves.set_serv ?_ ?_ ?_

theorem onServSlot_moves {m : Nat} {r s : State} (hm : 2048 ||| m = m) (h : Moves m r s) (x0 : _) (x1 : _) (hf : ServOn s.serv { s.serv with slots := upd s.serv.slots x0 x1 }) :
    Moves m r (Sys2Proof.Machine.onServSlot x0 x1 s) := by
  unfold Sys2Proof.Machine.onServSlot
  repeat' first
    | with_reducible assumption
    | with_reducible refine onServ_moves ?_ ?_ _ ?_

theorem takeCredit_moves {m : Nat} {r s : State} (hm : 2048 ||| m = m) (h : Moves m r s) (x0 : _) (x1 : _) (x2 : _)  :
    Moves m r (Sys2Proof.Machine.takeCredit x0 x1 x2 s) := by
  unfold Sys2Proof.Machine.takeCredit
  repeat' first
    | with_reducible assumption
    | with_reducible refine onServ_moves ?_ ?_ _ ?_
    | with_reducible refine onServSlot_moves ?_ ?_ _ _ ?_
    | exact ServOn.slotUpd rfl
    | exact ServOn.same rfl rfl

theorem resided_moves {m : Nat} {r s : State} (hm : 2048 ||| m = m) (h : Moves m r s) (x0 : _)  :
    Moves m r (Sys2Proof.Machine.resided x0 s) := by
  unfold Sys2Proof.Machine.resided
  repeat' first
    | with_reducible assumption
    | with_reducible refine onServ_moves ?_ ?_ _ ?_
    | exact ServOn.same rfl rfl
    | with_reducible refine ServOn.ite ?_ ?_

theorem onTxn_moves {m : Nat} {r s : State} (hm : 2048 ||| m = m) (h : Moves m r s) (x0 : _) (x1 : _)  :
    Moves m r (Sys2Proof.Machine.onTxn x0 x1 s) := by
  unfold Sys2Proof.Machine.onTxn
  repeat' first
    | with_reducible assumption
    | with_reducible refine onServ_moves ?_ ?_ _ ?_
    | exact ServOn.same rfl rfl

theorem servReserved_moves {m : Nat} {r s : State} (hm : 14622208 ||| m = m) (h : Moves m r s) (x0 : _)  :
    Moves m r (Sys2Proof.Machine.servReserved x0 s) := by
  unfold Sys2Proof.Machine.servReserved
  repeat' first
    | with_reducible assumption
    | (with_reducible refine mask_sub hm ?_); exact rfl
    | with_reducible refine discardOne_moves ?_ ?_ _ _
    | with_reducible refine waitEnd_moves ?_ ?_ _ _
    | with_reducible refine resided_moves ?_ ?_ _
    | with_reducible refine onTxn_moves ?_ ?_ _ _
    | with_reducible refine reserveSlot_moves ?_ ?_ _ _ _ _
    | with_reducible refine Moves.ite ?_ ?_

theorem txnCount_moves {m : Nat} {r s : State} (hm : 4194304 ||| m = m) (h : Moves m r s) (x0 : _) (x1 : _) (x2 : _)  :
    Moves m r (Sys2Proof.Machine.txnCount x0 x1 x2 s) := by
  unfold Sys2Proof.Machine.txnCount
  repeat' first
    | with_reducible assumption
    | with_reducible refine servCount_moves ?_ ?_ _ _ _ _ _

theorem servHist_moves {m : Nat} {r s : State} (hm : 262144 ||| m = m) (h : Moves m r s) (x0 : _) (x1 : _)  :
    Moves m r (Sys2Proof.Machine.servHist x0 x1 s) := by
  unfold Sys2Proof.Machine.servHist
  repeat' first
    | with_reducible assumption
    | with_reducible refine stickyAt_moves ?_ ?_ _ _ _

theorem dropLease_moves {m : Nat} {r s : State} (hm : 5184512 ||| m = m) (h : Moves m r s) (x0 : _)  :
    Moves m r (Sys2Proof.Machine.dropLease x0 s) := by
  unfold Sys2Proof.Machine.dropLease
  repeat' first
    | with_reducible assumption
    | (with_reducible refine mask_sub hm ?_); exact rfl
    | with_reducible refine txnCount_moves ?_ ?_ _ _ _
    | with_reducible refine servHist_moves ?_ ?_ _ _
    | with_reducible refine waitEnd_moves ?_ ?_ _ _
    | with_reducible refine freeTxn_moves ?_ ?_ _

theorem servReserve_moves {m : Nat} {r s : State} (hm : 14622208 ||| m = m) (h : Moves m r s) (x0 : _)  :
    Moves m r (Sys2Proof.Machine.servReserve x0 s) := by
  unfold Sys2Proof.Machine.servReserve
  repeat' first
    | with_reducible assumption
    | (with_reducible refine mask_sub hm ?_); exact rfl
    | with_reducible refine waitFor_moves ?_ ?_ _ _
    | with_reducible refine servReserved_moves ?_ ?_ _
    | with_reducible refine dropLease_moves ?_ ?_ _
    | with_reducible refine Moves.ite ?_ ?_

theorem admitTxn_moves {m : Nat} {r s : State} (hm : 14622208 ||| m = m) (h : Moves m r s) (x0 : _)  :
    Moves m r (Sys2Proof.Machine.admitTxn x0 s) := by
  unfold Sys2Proof.Machine.admitTxn
  repeat' first
    | with_reducible assumption
    | (with_reducible refine mask_sub hm ?_); exact rfl
    | with_reducible refine servReserve_moves ?_ ?_ _
    | with_reducible refine stickyMax_moves ?_ ?_ _ _ _ _
    | with_reducible refine onServ_moves ?_ ?_ _ ?_
    | exact ServOn.same rfl rfl
    | with_reducible refine ServOn.ite ?_ ?_
    | with_reducible refine Moves.ite ?_ ?_

theorem kissOfDeath_moves {m : Nat} {r s : State} (hm : 14622208 ||| m = m) (h : Moves m r s) (x0 : _)  :
    Moves m r (Sys2Proof.Machine.kissOfDeath x0 s) := by
  unfold Sys2Proof.Machine.kissOfDeath
  repeat' first
    | with_reducible assumption
    | (with_reducible refine mask_sub hm ?_); exact rfl
    | with_reducible refine takeCredit_moves ?_ ?_ _ _ _
    | with_reducible refine admitTxn_moves ?_ ?_ _
    | with_reducible refine Moves.ite ?_ ?_

theorem gnssSecond_moves {m : Nat} {r s : State} (hm : 256 ||| m = m) (h : Moves m r s)   :
    Moves m r (Sys2Proof.Machine.gnssSecond s) := by
  unfold Sys2Proof.Machine.gnssSecond
  repeat' first
    | with_reducible assumption
    | with_reducible refine Moves.ite ?_ ?_
    | with_reducible refine Moves.dite ?_ ?_
    | with_reducible refine Moves.ite_snd ?_ ?_
    | with_reducible refine Moves.foldl ?_ _ ?_
    | with_reducible refine Moves.foldl_snd ?_ _ ?_
    | with_reducible refine Moves.elim _ ?_ ?_
    | with_reducible intro _
    | with_reducible refine Moves.set_gnss ?_ ?_

theorem bucketSet_moves {m : Nat} {r s : State} (hm : 2048 ||| m = m) (h : Moves m r s) (x0 : _) (x1 : _)  :
    Moves m r (Sys2Proof.Machine.bucketSet x0 x1 s) := by
  unfold Sys2Proof.Machine.bucketSet
  repeat' first
    | with_reducible assumption
    | with_reducible refine onServ_moves ?_ ?_ _ ?_
    | exact ⟨fun e => mwf_mset _ _ _ _ e, id⟩

theorem servOver_moves {m : Nat} {r s : State} (hm : 854016 ||| m = m) (h : Moves m r s) (x0 : _)  :
    Moves m r (Sys2Proof.Machine.servOver x0 s) := by
  unfold Sys2Proof.Machine.servOver
  repeat' first
    | with_reducible assumption
    | (with_reducible refine mask_sub hm ?_); exact rfl
    | with_reducible refine raiseOwn_moves ?_ ?_ _ _
    | with_reducible refine servHist_moves ?_ ?_ _ _
    | with_reducible refine onServSlot_moves ?_ ?_ _ _ ?_
    | exact ServOn.slotUpd rfl
    | rfl
    | with_reducible refine Moves.ite ?_ ?_

theorem servLimited_moves {m : Nat} {r s : State} (hm : 854016 ||| m = m) (h : Moves m r s) (x0 : _)  :
    Moves m r (Sys2Proof.Machine.servLimited x0 s) := by
  unfold Sys2Proof.Machine.servLimited
  repeat' first
    | with_reducible assumption
    | (with_reducible refine mask_sub hm ?_); exact rfl
    | with_reducible refine raiseOwn_moves ?_ ?_ _ _
    | with_reducible refine servHist_moves ?_ ?_ _ _
    | with_reducible refine onServSlot_moves ?_ ?_ _ _ ?_
    | exact ServOn.slotUpd rfl
    | rfl
    | with_reducible refine Moves.ite ?_ ?_

theorem quiesceDropped_moves {m : Nat} {r s : State} (hm : 16777216 ||| m = m) (h : Moves m r s)   :
    Moves m r (Sys2Proof.Machine.quiesceDropped s) := by
  unfold Sys2Proof.Machine.quiesceDropped
  repeat' first
    | with_reducible assumption
    | with_reducible exact Chg.word rfl rfl rfl rfl
    | exact Chg.bit hm rfl
    | with_reducible refine Moves.ite ?_ ?_
    | with_reducible refine Moves.dite ?_ ?_
    | with_reducible refine Moves.ite_snd ?_ ?_
    | with_reducible refine Moves.foldl ?_ _ ?_
    | with_reducible refine Moves.foldl_snd ?_ _ ?_
    | with_reducible refine Moves.elim _ ?_ ?_
    | with_reducible intro _
    | with_reducible refine Moves.set_sys ?_ ?_ ?_

theorem fillPools_moves {m : Nat} {r s : State} (hm : 2048 ||| m = m) (h : Moves m r s)   :
    Moves m r (Sys2Proof.Machine.fillPools s) := by
  unfold Sys2Proof.Machine.fillPools
  repeat' first
    | with_reducible assumption
    | with_reducible refine onServ_moves ?_ ?_ _ ?_
    | exact ServOn.of rfl (fun i k y e => ⟨y, by simpa using e, rfl, rfl, rfl⟩)

theorem tollgate_moves {m : Nat} {r s : State} (hm : 31399424 ||| m = m) (h : Moves m r s) (x0 : _)  :
    Moves m r (Sys2Proof.Machine.tollgate x0 s) := by
  unfold Sys2Proof.Machine.tollgate
  repeat' first
    | with_reducible assumption
    | (with_reducible refine mask_sub hm ?_); exact rfl
    | with_reducible refine admitTxn_moves ?_ ?_ _
    | with_reducible refine servHist_moves ?_ ?_ _ _
    | with_reducible refine raiseOwn_moves ?_ ?_ _ _
    | with_reducible refine takeCredit_moves ?_ ?_ _ _ _
    | with_reducible refine bucketSet_moves ?_ ?_ _ _
    | with_reducible refine servOver_moves ?_ ?_ _
    | with_reducible refine servLimited_moves ?_ ?_ _
    | with_reducible refine kissOfDeath_moves ?_ ?_ _
    | with_reducible refine txnCount_moves ?_ ?_ _ _ _
    | with_reducible refine quiesceDropped_moves ?_ ?_ 
    | with_reducible refine fillPools_moves ?_ ?_ 
    | with_reducible refine Moves.ite ?_ ?_

theorem servRequest_moves {m : Nat} {r s : State} (hm : 31399424 ||| m = m) (h : Moves m r s) (x0 : _) (x1 : _) (x2 : _) (x3 : _) (x4 : _) (x5 : _) (x6 : _) (x7 : _) (x8 : _) (x9 : _) (x10 : _)  :
    Moves m r (Sys2Proof.Machine.servRequest x0 x1 x2 x3 x4 x5 x6 x7 x8 x9 x10 s) := by
  unfold Sys2Proof.Machine.servRequest
  try dsimp only
  repeat' first
    | with_reducible assumption
    | (with_reducible refine mask_sub hm ?_); exact rfl
    | with_reducible refine tollgate_moves ?_ ?_ _
    | with_reducible refine servCount_moves ?_ ?_ _ _ _ _ _
    | with_reducible refine Moves.ite ?_ ?_
    | with_reducible refine Moves.dite ?_ ?_
    | with_reducible refine Moves.ite_snd ?_ ?_
    | with_reducible refine Moves.foldl ?_ _ ?_
    | with_reducible refine Moves.foldl_snd ?_ _ ?_
    | with_reducible refine Moves.elim _ ?_ ?_
    | with_reducible intro _
    | split

theorem execIcpWaypConfig_moves {m : Nat} {r s : State} (hm : 2032640 ||| m = m) (h : Moves m r s) (x0 : _) (x1 : _) (x2 : _)  :
    MovesOut m r (Sys2Proof.Machine.execIcpWaypConfig x0 x1 x2 s) := by
  unfold Sys2Proof.Machine.execIcpWaypConfig
  repeat' first
    | with_reducible assumption
    | (with_reducible refine mask_sub hm ?_); exact rfl
    | with_reducible refine icpDo_moves ?_ ?_ _ _ _ _ _ ?_
    | with_reducible refine Moves.ite ?_ ?_
    | with_reducible refine Moves.self ?_
    | with_reducible refine Moves.dite ?_ ?_
    | with_reducible refine Moves.ite_snd ?_ ?_
    | with_reducible refine Moves.foldl ?_ _ ?_
    | with_reducible refine Moves.foldl_snd ?_ _ ?_
    | with_reducible refine Moves.elim _ ?_ ?_
    | with_reducible refine MovesOut.next ?_
    | with_reducible refine MovesOut.ite ?_ ?_
    | with_reducible intro _
    | with_reducible refine Moves.set_wayp ?_ ?_

theorem raiseEpoch_moves {m : Nat} {r s : State} (hm : 589824 ||| m = m) (h : Moves m r s)   :
    Moves m r (Sys2Proof.Machine.raiseEpoch s) := by
  unfold Sys2Proof.Machine.raiseEpoch
  repeat' first
    | with_reducible assumption
    | (with_reducible refine mask_sub hm ?_); exact rfl
    | with_reducible refine icuEval_moves ?_ ?_ 
    | with_reducible refine Moves.ite ?_ ?_
    | with_reducible refine Moves.dite ?_ ?_
    | with_reducible refine Moves.ite_snd ?_ ?_
    | with_reducible refine Moves.foldl ?_ _ ?_
    | with_reducible refine Moves.foldl_snd ?_ _ ?_
    | with_reducible refine Moves.elim _ ?_ ?_
    | with_reducible intro _
    | with_reducible refine Moves.set_icu ?_ ?_

theorem execIcpServConfig_moves {m : Nat} {r s : State} (hm : 2033664 ||| m = m) (h : Moves m r s) (x0 : _) (x1 : _)  :
    MovesOut m r (Sys2Proof.Machine.execIcpServConfig x0 x1 s) := by
  unfold Sys2Proof.Machine.execIcpServConfig
  repeat' first
    | with_reducible assumption
    | (with_reducible refine mask_sub hm ?_); exact rfl
    | with_reducible refine onServ_moves ?_ ?_ _ ?_
    | with_reducible refine icpDo_moves ?_ ?_ _ _ _ _ _ ?_
    | exact ServOn.same rfl rfl
    | with_reducible refine ServOn.ite ?_ ?_
    | with_reducible refine Moves.ite ?_ ?_
    | with_reducible refine Moves.self ?_
    | with_reducible refine Moves.dite ?_ ?_
    | with_reducible refine Moves.ite_snd ?_ ?_
    | with_reducible refine Moves.foldl ?_ _ ?_
    | with_reducible refine Moves.foldl_snd ?_ _ ?_
    | with_reducible refine Moves.elim _ ?_ ?_
    | with_reducible refine MovesOut.next ?_
    | with_reducible refine MovesOut.ite ?_ ?_
    | with_reducible intro _

theorem execTsqLostRead_moves {m : Nat} {r s : State} (hm : 6226944 ||| m = m) (h : Moves m r s) (x0 : _) (x1 : _)  :
    MovesOut m r (Sys2Proof.Machine.execTsqLostRead x0 x1 s) := by
  unfold Sys2Proof.Machine.execTsqLostRead
  try dsimp only
  repeat' first
    | with_reducible assumption
    | (with_reducible refine mask_sub hm ?_); exact rfl
    | with_reducible refine stickyTake_moves ?_ ?_ _ _
    | with_reducible refine onWayp_moves ?_ ?_ _ _
    | with_reducible refine readBy_moves ?_ ?_ _ _ _ ?_
    | with_reducible refine Moves.ite ?_ ?_
    | with_reducible refine Moves.dite ?_ ?_
    | with_reducible refine Moves.ite_snd ?_ ?_
    | with_reducible refine Moves.foldl ?_ _ ?_
    | with_reducible refine Moves.foldl_snd ?_ _ ?_
    | with_reducible refine Moves.elim _ ?_ ?_
    | with_reducible refine MovesOut.next ?_
    | with_reducible refine MovesOut.ite ?_ ?_
    | with_reducible intro _
    | split

theorem execTsqPop_moves {m : Nat} {r s : State} (hm : 6226944 ||| m = m) (h : Moves m r s) (x0 : _) (x1 : _)  :
    MovesOut m r (Sys2Proof.Machine.execTsqPop x0 x1 s) := by
  unfold Sys2Proof.Machine.execTsqPop
  try dsimp only
  repeat' first
    | with_reducible assumption
    | (with_reducible refine mask_sub hm ?_); exact rfl
    | with_reducible refine onWayp_moves ?_ ?_ _ _
    | with_reducible refine readBy_moves ?_ ?_ _ _ _ ?_
    | with_reducible refine Moves.ite ?_ ?_
    | with_reducible refine Moves.dite ?_ ?_
    | with_reducible refine Moves.ite_snd ?_ ?_
    | with_reducible refine Moves.foldl ?_ _ ?_
    | with_reducible refine Moves.foldl_snd ?_ _ ?_
    | with_reducible refine Moves.elim _ ?_ ?_
    | with_reducible refine MovesOut.next ?_
    | with_reducible refine MovesOut.ite ?_ ?_
    | with_reducible intro _
    | split

theorem calLoad_moves {m : Nat} {r s : State} (hm : 1540 ||| m = m) (h : Moves m r s) (x0 : _)  :
    Moves m r (Sys2Proof.Machine.calLoad x0 s) := by
  unfold Sys2Proof.Machine.calLoad
  try dsimp only
  repeat' first
    | with_reducible assumption
    | (with_reducible refine mask_sub hm ?_); exact rfl
    | with_reducible refine onWayp_moves ?_ ?_ _ _
    | with_reducible refine onPort_moves ?_ ?_ _ _
    | with_reducible refine Moves.ite ?_ ?_
    | with_reducible refine Moves.dite ?_ ?_
    | with_reducible refine Moves.ite_snd ?_ ?_
    | with_reducible refine Moves.foldl ?_ _ ?_
    | with_reducible refine Moves.foldl_snd ?_ _ ?_
    | with_reducible refine Moves.elim _ ?_ ?_
    | with_reducible intro _
    | split
    | with_reducible refine Moves.set_time ?_ ?_

theorem atCnt_moves {m : Nat} {r s : State} (hm : 4 ||| m = m) (h : Moves m r s) (x1 : _) (x2 : _) (hx2 : ∀ s, Moves m r s → Moves m r (x2 s)) :
    Moves m r (Sys2Proof.Machine.atCnt s x1 x2) := by
  unfold Sys2Proof.Machine.atCnt
  repeat' first
    | with_reducible assumption
    | with_reducible refine hx2 _ ?_
    | with_reducible refine Moves.ite ?_ ?_
    | with_reducible refine Moves.dite ?_ ?_
    | with_reducible refine Moves.ite_snd ?_ ?_
    | with_reducible refine Moves.foldl ?_ _ ?_
    | with_reducible refine Moves.foldl_snd ?_ _ ?_
    | with_reducible refine Moves.elim _ ?_ ?_
    | with_reducible intro _
    | with_reducible refine Moves.set_time ?_ ?_

theorem burstResume_moves {m : Nat} {r s : State} (hm : 256 ||| m = m) (h : Moves m r s)   :
    Moves m r (Sys2Proof.Machine.burstResume s) := by
  unfold Sys2Proof.Machine.burstResume
  repeat' first
    | with_reducible assumption
    | with_reducible refine Moves.ite ?_ ?_
    | with_reducible refine Moves.dite ?_ ?_
    | with_reducible refine Moves.ite_snd ?_ ?_
    | with_reducible refine Moves.foldl ?_ _ ?_
    | with_reducible refine Moves.foldl_snd ?_ _ ?_
    | with_reducible refine Moves.elim _ ?_ ?_
    | with_reducible intro _
    | with_reducible refine Moves.set_gnss ?_ ?_

theorem execBurstWindowOpen_moves {m : Nat} {r s : State} (hm : 260 ||| m = m) (h : Moves m r s)   :
    MovesOut m r (Sys2Proof.Machine.execBurstWindowOpen s) := by
  unfold Sys2Proof.Machine.execBurstWindowOpen
  repeat' first
    | with_reducible assumption
    | (with_reducible refine mask_sub hm ?_); exact rfl
    | with_reducible refine burstResume_moves ?_ ?_ 
    | with_reducible refine atCnt_moves ?_ ?_ _ _ ?_
    | with_reducible refine Moves.ite ?_ ?_
    | with_reducible refine Moves.dite ?_ ?_
    | with_reducible refine Moves.ite_snd ?_ ?_
    | with_reducible refine Moves.foldl ?_ _ ?_
    | with_reducible refine Moves.foldl_snd ?_ _ ?_
    | with_reducible refine Moves.elim _ ?_ ?_
    | with_reducible refine MovesOut.next ?_
    | with_reducible refine MovesOut.ite ?_ ?_
    | with_reducible intro _
    | with_reducible refine Moves.set_gnss ?_ ?_

theorem calStart_moves {m : Nat} {r s : State} (hm : 1024 ||| m = m) (h : Moves m r s) (x0 : _) (x1 : _) (x2 : _) (x3 : _) (x4 : _)  :
    Moves m r (Sys2Proof.Machine.calStart x0 x1 x2 x3 x4 s) := by
  unfold Sys2Proof.Machine.calStart
  try dsimp only
  repeat' first
    | with_reducible assumption
    | with_reducible refine calLaunch_moves ?_ ?_ _ _
    | with_reducible refine onWayp_moves ?_ ?_ _ _
    | with_reducible refine Moves.ite ?_ ?_
    | with_reducible refine Moves.dite ?_ ?_
    | with_reducible refine Moves.ite_snd ?_ ?_
    | with_reducible refine Moves.foldl ?_ _ ?_
    | with_reducible refine Moves.foldl_snd ?_ _ ?_
    | with_reducible refine Moves.elim _ ?_ ?_
    | with_reducible intro _
    | split

theorem icpLater_moves {m : Nat} {r s : State} (hm : 2031616 ||| m = m) (h : Moves m r s) (x0 : _) (x1 : _) (x2 : _) (x3 : _) (hx3 : ∀ s, Moves m r s → Moves m r (x3 s)) :
    MovesOut m r (Sys2Proof.Machine.icpLater x0 x1 x2 x3 s) := by
  unfold Sys2Proof.Machine.icpLater
  repeat' first
    | with_reducible assumption
    | with_reducible refine icp_moves ?_ ?_ _ _ _ ?_
    | with_reducible refine hx3 _ ?_
    | with_reducible refine Moves.ite ?_ ?_
    | with_reducible refine Moves.dite ?_ ?_
    | with_reducible refine Moves.ite_snd ?_ ?_
    | with_reducible refine Moves.foldl ?_ _ ?_
    | with_reducible refine Moves.foldl_snd ?_ _ ?_
    | with_reducible refine Moves.elim _ ?_ ?_
    | with_reducible refine MovesOut.next ?_
    | with_reducible refine MovesOut.ite ?_ ?_
    | with_reducible refine MovesRes.ite ?_ ?_
    | with_reducible refine MovesRes.done ?_
    | with_reducible refine MovesRes.later ?_
    | with_reducible intro _

theorem execIcpWaypCalPulse_moves {m : Nat} {r s : State} (hm : 2032640 ||| m = m) (h : Moves m r s) (x0 : _) (x1 : _) (x2 : _) (x3 : _)  :
    MovesOut m r (Sys2Proof.Machine.execIcpWaypCalPulse x0 x1 x2 x3 s) := by
  unfold Sys2Proof.Machine.execIcpWaypCalPulse
  repeat' first
    | with_reducible assumption
    | (with_reducible refine mask_sub hm ?_); exact rfl
    | with_reducible refine calStart_moves ?_ ?_ _ _ _ _ _
    | with_reducible refine icpLater_moves ?_ ?_ _ _ _ _ ?_
    | with_reducible refine Moves.ite ?_ ?_
    | with_reducible refine Moves.dite ?_ ?_
    | with_reducible refine Moves.ite_snd ?_ ?_
    | with_reducible refine Moves.foldl ?_ _ ?_
    | with_reducible refine Moves.foldl_snd ?_ _ ?_
    | with_reducible refine Moves.elim _ ?_ ?_
    | with_reducible refine MovesOut.next ?_
    | with_reducible refine MovesOut.ite ?_ ?_
    | with_reducible intro _

theorem execCreditRateUpdate_moves {m : Nat} {r s : State} (hm : 2048 ||| m = m) (h : Moves m r s)   :
    MovesOut m r (Sys2Proof.Machine.execCreditRateUpdate s) := by
  unfold Sys2Proof.Machine.execCreditRateUpdate
  repeat' first
    | with_reducible assumption
    | with_reducible refine onServ_moves ?_ ?_ _ ?_
    | with_reducible refine fillPools_moves ?_ ?_ 
    | exact ServOn.same rfl rfl
    | with_reducible refine ServOn.ite ?_ ?_
    | with_reducible refine Moves.ite ?_ ?_
    | with_reducible refine Moves.dite ?_ ?_
    | with_reducible refine Moves.ite_snd ?_ ?_
    | with_reducible refine Moves.foldl ?_ _ ?_
    | with_reducible refine Moves.foldl_snd ?_ _ ?_
    | with_reducible refine Moves.elim _ ?_ ?_
    | with_reducible refine MovesOut.next ?_
    | with_reducible refine MovesOut.ite ?_ ?_

theorem execIcpServSlotLimit_moves {m : Nat} {r s : State} (hm : 2033664 ||| m = m) (h : Moves m r s) (x0 : _) (x1 : _) (x2 : _) (x3 : _)  :
    MovesOut m r (Sys2Proof.Machine.execIcpServSlotLimit x0 x1 x2 x3 s) := by
  unfold Sys2Proof.Machine.execIcpServSlotLimit
  try dsimp only
  repeat' first
    | with_reducible assumption
    | (with_reducible refine mask_sub hm ?_); exact rfl
    | with_reducible refine fillPools_moves ?_ ?_ 
    | with_reducible refine onServSlot_moves ?_ ?_ _ _ ?_
    | with_reducible refine icpDo_moves ?_ ?_ _ _ _ _ _ ?_
    | exact ServOn.slotUpd rfl
    | rfl
    | with_reducible refine Moves.ite ?_ ?_
    | with_reducible refine Moves.self ?_
    | with_reducible refine Moves.dite ?_ ?_
    | with_reducible refine Moves.ite_snd ?_ ?_
    | with_reducible refine Moves.foldl ?_ _ ?_
    | with_reducible refine Moves.foldl_snd ?_ _ ?_
    | with_reducible refine Moves.elim _ ?_ ?_
    | with_reducible refine MovesOut.next ?_
    | with_reducible refine MovesOut.ite ?_ ?_
    | with_reducible intro _
    | split

theorem execIcpGnssDelay_moves {m : Nat} {r s : State} (hm : 2031872 ||| m = m) (h : Moves m r s) (x0 : _) (x1 : _) (x2 : _) (x3 : _) (x4 : _)  :
    MovesOut m r (Sys2Proof.Machine.execIcpGnssDelay x0 x1 x2 x3 x4 s) := by
  unfold Sys2Proof.Machine.execIcpGnssDelay
  repeat' first
    | with_reducible assumption
    | (with_reducible refine mask_sub hm ?_); exact rfl
    | with_reducible refine icpDo_moves ?_ ?_ _ _ _ _ _ ?_
    | with_reducible refine Moves.ite ?_ ?_
    | with_reducible refine Moves.self ?_
    | with_reducible refine Moves.dite ?_ ?_
    | with_reducible refine Moves.ite_snd ?_ ?_
    | with_reducible refine Moves.foldl ?_ _ ?_
    | with_reducible refine Moves.foldl_snd ?_ _ ?_
    | with_reducible refine Moves.elim _ ?_ ?_
    | with_reducible refine MovesOut.next ?_
    | with_reducible refine MovesOut.ite ?_ ?_
    | with_reducible intro _
    | with_reducible refine Moves.set_gnss ?_ ?_

theorem execIcpGnssGuardConfig_moves {m : Nat} {r s : State} (hm : 25116506 ||| m = m) (h : Moves m r s) (x0 : _) (x1 : _)  :
    MovesOut m r (Sys2Proof.Machine.execIcpGnssGuardConfig x0 x1 s) := by
  unfold Sys2Proof.Machine.execIcpGnssGuardConfig
  repeat' first
    | with_reducible assumption
    | (with_reducible refine mask_sub hm ?_); exact rfl
    | with_reducible refine guardOff_moves ?_ ?_ 
    | with_reducible refine withGuard_moves ?_ ?_ _
    | with_reducible refine icpDo_moves ?_ ?_ _ _ _ _ _ ?_
    | with_reducible refine Moves.ite ?_ ?_
    | with_reducible refine Moves.self ?_
    | with_reducible refine Moves.dite ?_ ?_
    | with_reducible refine Moves.ite_snd ?_ ?_
    | with_reducible refine Moves.foldl ?_ _ ?_
    | with_reducible refine Moves.foldl_snd ?_ _ ?_
    | with_reducible refine Moves.elim _ ?_ ?_
    | with_reducible refine MovesOut.next ?_
    | with_reducible refine MovesOut.ite ?_ ?_
    | with_reducible intro _

theorem execIcpServStatus_moves {m : Nat} {r s : State} (hm : 2031616 ||| m = m) (h : Moves m r s) (x0 : _)  :
    MovesOut m r (Sys2Proof.Machine.execIcpServStatus x0 s) := by
  unfold Sys2Proof.Machine.execIcpServStatus
  repeat' first
    | with_reducible assumption
    | with_reducible refine icpGet_moves ?_ ?_ _ _ _

theorem kodMark_moves {m : Nat} {r s : State} (hm : 2048 ||| m = m) (h : Moves m r s) (x0 : _)  :
    Moves m r (Sys2Proof.Machine.kodMark x0 s) := by
  unfold Sys2Proof.Machine.kodMark
  repeat' first
    | with_reducible assumption
    | with_reducible refine bucketSet_moves ?_ ?_ _ _

theorem calStore_moves {m : Nat} {r s : State} (hm : 1024 ||| m = m) (h : Moves m r s) (x0 : _) (x1 : _) (x2 : _) (x3 : _)  :
    Moves m r (Sys2Proof.Machine.calStore x0 x1 x2 x3 s) := by
  unfold Sys2Proof.Machine.calStore
  repeat' first
    | with_reducible assumption
    | with_reducible refine onWayp_moves ?_ ?_ _ _

theorem execIcpServAddrList_moves {m : Nat} {r s : State} (hm : 2031616 ||| m = m) (h : Moves m r s) (x0 : _)  :
    MovesOut m r (Sys2Proof.Machine.execIcpServAddrList x0 s) := by
  unfold Sys2Proof.Machine.execIcpServAddrList
  repeat' first
    | with_reducible assumption
    | with_reducible refine icpGet_moves ?_ ?_ _ _ _

theorem execTollgateScrubVisit_moves {m : Nat} {r s : State} (hm : 25116250 ||| m = m) (h : Moves m r s) (x0 : _)  :
    MovesOut m r (Sys2Proof.Machine.execTollgateScrubVisit x0 s) := by
  unfold Sys2Proof.Machine.execTollgateScrubVisit
  repeat' first
    | with_reducible assumption
    | (with_reducible refine mask_sub hm ?_); exact rfl
    | with_reducible refine onServ_moves ?_ ?_ _ ?_
    | with_reducible refine raise_moves ?_ ?_ _
    | with_reducible refine faultEvent_moves ?_ ?_ _
    | with_reducible refine bucketSet_moves ?_ ?_ _ _
    | exact ServOn.same rfl rfl
    | with_reducible refine ServOn.ite ?_ ?_
    | with_reducible refine Moves.ite ?_ ?_
    | with_reducible refine Moves.dite ?_ ?_
    | with_reducible refine Moves.ite_snd ?_ ?_
    | with_reducible refine Moves.foldl ?_ _ ?_
    | with_reducible refine Moves.foldl_snd ?_ _ ?_
    | with_reducible refine Moves.elim _ ?_ ?_
    | with_reducible refine MovesOut.next ?_
    | with_reducible refine MovesOut.ite ?_ ?_

theorem servLaunch_moves {m : Nat} {r s : State} (hm : 4196352 ||| m = m) (h : Moves m r s) (x0 : _)  :
    Moves m r (Sys2Proof.Machine.servLaunch x0 s) := by
  unfold Sys2Proof.Machine.servLaunch
  repeat' first
    | with_reducible assumption
    | (with_reducible refine mask_sub hm ?_); exact rfl
    | with_reducible refine kodMark_moves ?_ ?_ _
    | with_reducible refine txnCount_moves ?_ ?_ _ _ _
    | with_reducible refine onServ_moves ?_ ?_ _ ?_
    | exact ServOn.same rfl rfl
    | with_reducible refine ServOn.ite ?_ ?_
    | with_reducible refine Moves.ite ?_ ?_

theorem execIcpNtsMint_moves {m : Nat} {r s : State} (hm : 6242304 ||| m = m) (h : Moves m r s) (x0 : _) (x1 : _)  :
    MovesOut m r (Sys2Proof.Machine.execIcpNtsMint x0 x1 s) := by
  unfold Sys2Proof.Machine.execIcpNtsMint
  try dsimp only
  repeat' first
    | with_reducible assumption
    | (with_reducible refine mask_sub hm ?_); exact rfl
    | with_reducible refine countN_moves ?_ ?_ _ _ _
    | with_reducible refine icp_moves ?_ ?_ _ _ _ ?_
    | with_reducible exact VaultOn.same rfl rfl
    | with_reducible refine Moves.ite ?_ ?_
    | with_reducible refine Moves.dite ?_ ?_
    | with_reducible refine Moves.ite_snd ?_ ?_
    | with_reducible refine Moves.foldl ?_ _ ?_
    | with_reducible refine Moves.foldl_snd ?_ _ ?_
    | with_reducible refine Moves.elim _ ?_ ?_
    | with_reducible refine MovesOut.next ?_
    | with_reducible refine MovesOut.ite ?_ ?_
    | with_reducible refine MovesRes.ite ?_ ?_
    | with_reducible refine MovesRes.done ?_
    | with_reducible refine MovesRes.later ?_
    | with_reducible intro _
    | split
    | with_reducible refine Moves.set_vault ?_ ?_ ?_

theorem execIcpGnssIntegrityConfig_moves {m : Nat} {r s : State} (hm : 2031872 ||| m = m) (h : Moves m r s) (x0 : _) (x1 : _)  :
    MovesOut m r (Sys2Proof.Machine.execIcpGnssIntegrityConfig x0 x1 s) := by
  unfold Sys2Proof.Machine.execIcpGnssIntegrityConfig
  repeat' first
    | with_reducible assumption
    | (with_reducible refine mask_sub hm ?_); exact rfl
    | with_reducible refine icpDo_moves ?_ ?_ _ _ _ _ _ ?_
    | with_reducible refine Moves.ite ?_ ?_
    | with_reducible refine Moves.self ?_
    | with_reducible refine Moves.dite ?_ ?_
    | with_reducible refine Moves.ite_snd ?_ ?_
    | with_reducible refine Moves.foldl ?_ _ ?_
    | with_reducible refine Moves.foldl_snd ?_ _ ?_
    | with_reducible refine Moves.elim _ ?_ ?_
    | with_reducible refine MovesOut.next ?_
    | with_reducible refine MovesOut.ite ?_ ?_
    | with_reducible intro _
    | with_reducible refine Moves.set_gnss ?_ ?_

theorem execSnapshotEnter_moves {m : Nat} {r s : State} (hm : 256 ||| m = m) (h : Moves m r s)   :
    MovesOut m r (Sys2Proof.Machine.execSnapshotEnter s) := by
  unfold Sys2Proof.Machine.execSnapshotEnter
  repeat' first
    | with_reducible assumption
    | with_reducible refine Moves.ite ?_ ?_
    | with_reducible refine Moves.dite ?_ ?_
    | with_reducible refine Moves.ite_snd ?_ ?_
    | with_reducible refine Moves.foldl ?_ _ ?_
    | with_reducible refine Moves.foldl_snd ?_ _ ?_
    | with_reducible refine Moves.elim _ ?_ ?_
    | with_reducible refine MovesOut.next ?_
    | with_reducible refine MovesOut.ite ?_ ?_
    | with_reducible intro _
    | with_reducible refine Moves.set_gnss ?_ ?_

/-- What a check list that passes says of one of its entries. -/
theorem firstFail_mem {l : List (Bool × Nat)} (h : firstFail l = stOk) {b : Bool} {st : Nat} (hm : (b, st) ∈ l) (hs : st ≠ stOk)
    (hl : ∀ x ∈ l, x.2 ≠ stOk) : b = false := by
  unfold firstFail at h
  cases hf : l.find? (·.1) with
  | none => exact by simpa using List.find?_eq_none.mp hf _ hm
  | some x =>
    rw [hf] at h
    exact absurd h (hl x (List.mem_of_find?_eq_some hf))

/-- An address that clashes with none of the others may stand beside them (13 R269). -/
theorem addrSet_apart {s : State} {i : Fin 8} {k : Fin 32} {n : ServAddr} (hc : (otherAddrs s i k.1).any (addrClash n) = false)
    (h : AddrsApart s.serv) : AddrsApart { s.serv with slots := Machine.upd s.serv.slots i fun q => { q with addrs := q.addrs.set k.1 (some n) } } := by
  have old : ∀ (j : Fin 8) (l : Fin 32) (y : ServAddr), (j, l) ≠ (i, k) →
      (Machine.upd s.serv.slots i fun q => { q with addrs := q.addrs.set k.1 (some n) })[j].addrs[l] = some y →
      s.serv.slots[j].addrs[l] = some y := by
    intro j l y ne e
    by_cases q : i = j
    · subst q
      have : (k : Nat) ≠ l := fun x => ne (by rw [Fin.ext x])
      simpa [Machine.upd, Vector.getElem_set, this] using e
    · have : (i : Nat) ≠ j := fun x => q (Fin.ext x)
      simpa [Machine.upd, Vector.getElem_set, this] using e
  have new : ∀ x, (Machine.upd s.serv.slots i fun q => { q with addrs := q.addrs.set k.1 (some n) })[i].addrs[k] = some x → x = n := by
    intro x e; simpa [Machine.upd, eq_comm] using e
  have apart : ∀ (j : Fin 8) (l : Fin 32) (y : ServAddr), (j, l) ≠ (i, k) → s.serv.slots[j].addrs[l] = some y → addrClash n y = false := by
    intro j l y ne e
    have := List.any_eq_false.mp hc y (by
      simp only [otherAddrs, List.mem_flatMap, List.mem_filterMap, List.mem_filter]
      refine ⟨j, List.mem_finRange _, l, ⟨List.mem_finRange _, ?_⟩, e⟩
      cases hq : (j == i && l.1 == k.1)
      · rfl
      · simp only [Bool.and_eq_true, beq_iff_eq] at hq
        exact absurd (by rw [hq.1, Fin.ext hq.2]) ne)
    simpa using this
  have sym : ∀ a b : ServAddr, addrClash a b = false → addrClash b a = false := by
    intro a b e
    rw [← e]; unfold addrClash
    rw [BEq.comm (a := b.addr), BEq.comm (a := b.vlan), BitVec.and_comm]
  intro a b x y ne u v hu hv
  by_cases p : (a, x) = (i, k)
  · cases p
    rw [new u hu]
    exact apart b y v (fun e => ne e.symm) (old b y v (fun e => ne e.symm) hv)
  · by_cases q : (b, y) = (i, k)
    · cases q
      rw [new v hv]
      exact sym _ _ (apart a x u p (old a x u p hu))
    · exact h a b x y ne u v (old a x u p hu) (old b y v q hv)

theorem execIcpServAddrSet_moves {m : Nat} {r s : State} (hm : 2033664 ||| m = m) (h : Moves m r s) (x0 : _) (x1 : _) :
    MovesOut m r (Sys2Proof.Machine.execIcpServAddrSet x0 x1 s) := by
  unfold Sys2Proof.Machine.execIcpServAddrSet Sys2Proof.Machine.icpDo
  refine icp_moves (mask_sub hm rfl) h _ _ _ fun s h => ?_
  dsimp only
  split
  · rename_i e
    refine MovesRes.done ?_
    split
    · rename_i k hk
      refine onServSlot_moves (mask_sub hm rfl) h _ _ ⟨id, addrSet_apart ?_⟩
      have := firstFail_mem e (b := (otherAddrs s x0.slot x1.idx.toNat).any (addrClash (newAddr x1)) || smearLocked s x0.slot x1) (st := stOrder)
        (by simp) (by decide) (by simp [stOk, stBadArg, stRange, stQuota, stOrder])
      have hk' : k.1 = x1.idx.toNat := by
        unfold fin? at hk
        split at hk
        · cases hk; rfl
        · cases hk
      rw [hk']
      exact (Bool.or_eq_false_iff.mp this).1
    · exact h
  · exact .done h

theorem execIcpWaypCalSet_moves {m : Nat} {r s : State} (hm : 2033156 ||| m = m) (h : Moves m r s) (x0 : _) (x1 : _)  :
    MovesOut m r (Sys2Proof.Machine.execIcpWaypCalSet x0 x1 s) := by
  unfold Sys2Proof.Machine.execIcpWaypCalSet
  try dsimp only
  repeat' first
    | with_reducible assumption
    | (with_reducible refine mask_sub hm ?_); exact rfl
    | with_reducible refine calStore_moves ?_ ?_ _ _ _ _
    | with_reducible refine calLoad_moves ?_ ?_ _
    | with_reducible refine icpDo_moves ?_ ?_ _ _ _ _ _ ?_
    | with_reducible refine Moves.ite ?_ ?_
    | with_reducible refine Moves.self ?_
    | with_reducible refine Moves.dite ?_ ?_
    | with_reducible refine Moves.ite_snd ?_ ?_
    | with_reducible refine Moves.foldl ?_ _ ?_
    | with_reducible refine Moves.foldl_snd ?_ _ ?_
    | with_reducible refine Moves.elim _ ?_ ?_
    | with_reducible refine MovesOut.next ?_
    | with_reducible refine MovesOut.ite ?_ ?_
    | with_reducible intro _
    | split

theorem execIcpWaypLoopback_moves {m : Nat} {r s : State} (hm : 2032640 ||| m = m) (h : Moves m r s) (x0 : _) (x1 : _) (x2 : _) (x3 : _) (x4 : _)  :
    MovesOut m r (Sys2Proof.Machine.execIcpWaypLoopback x0 x1 x2 x3 x4 s) := by
  unfold Sys2Proof.Machine.execIcpWaypLoopback
  repeat' first
    | with_reducible assumption
    | (with_reducible refine mask_sub hm ?_); exact rfl
    | with_reducible refine calStart_moves ?_ ?_ _ _ _ _ _
    | with_reducible refine icpLater_moves ?_ ?_ _ _ _ _ ?_
    | with_reducible refine Moves.ite ?_ ?_
    | with_reducible refine Moves.dite ?_ ?_
    | with_reducible refine Moves.ite_snd ?_ ?_
    | with_reducible refine Moves.foldl ?_ _ ?_
    | with_reducible refine Moves.foldl_snd ?_ _ ?_
    | with_reducible refine Moves.elim _ ?_ ?_
    | with_reducible refine MovesOut.next ?_
    | with_reducible refine MovesOut.ite ?_ ?_
    | with_reducible intro _

theorem execIcpWaypTsqLimit_moves {m : Nat} {r s : State} (hm : 2032640 ||| m = m) (h : Moves m r s) (x0 : _) (x1 : _) (x2 : _) (x3 : _) (x4 : _)  :
    MovesOut m r (Sys2Proof.Machine.execIcpWaypTsqLimit x0 x1 x2 x3 x4 s) := by
  unfold Sys2Proof.Machine.execIcpWaypTsqLimit
  try dsimp only
  repeat' first
    | with_reducible assumption
    | (with_reducible refine mask_sub hm ?_); exact rfl
    | with_reducible refine onWayp_moves ?_ ?_ _ _
    | with_reducible refine icpDo_moves ?_ ?_ _ _ _ _ _ ?_
    | with_reducible refine Moves.ite ?_ ?_
    | with_reducible refine Moves.self ?_
    | with_reducible refine Moves.dite ?_ ?_
    | with_reducible refine Moves.ite_snd ?_ ?_
    | with_reducible refine Moves.foldl ?_ _ ?_
    | with_reducible refine Moves.foldl_snd ?_ _ ?_
    | with_reducible refine Moves.elim _ ?_ ?_
    | with_reducible refine MovesOut.next ?_
    | with_reducible refine MovesOut.ite ?_ ?_
    | with_reducible intro _
    | split

theorem execIcpGnssBurst_moves {m : Nat} {r s : State} (hm : 2031872 ||| m = m) (h : Moves m r s) (x0 : _) (x1 : _)  :
    MovesOut m r (Sys2Proof.Machine.execIcpGnssBurst x0 x1 s) := by
  unfold Sys2Proof.Machine.execIcpGnssBurst
  repeat' first
    | with_reducible assumption
    | (with_reducible refine mask_sub hm ?_); exact rfl
    | with_reducible refine icpDo_moves ?_ ?_ _ _ _ _ _ ?_
    | with_reducible refine Moves.ite ?_ ?_
    | with_reducible refine Moves.self ?_
    | with_reducible refine Moves.dite ?_ ?_
    | with_reducible refine Moves.ite_snd ?_ ?_
    | with_reducible refine Moves.foldl ?_ _ ?_
    | with_reducible refine Moves.foldl_snd ?_ _ ?_
    | with_reducible refine Moves.elim _ ?_ ?_
    | with_reducible refine MovesOut.next ?_
    | with_reducible refine MovesOut.ite ?_ ?_
    | with_reducible intro _
    | with_reducible refine Moves.set_gnss ?_ ?_

theorem execIcpGnssGuardRelease_moves {m : Nat} {r s : State} (hm : 25116506 ||| m = m) (h : Moves m r s) (x0 : _)  :
    MovesOut m r (Sys2Proof.Machine.execIcpGnssGuardRelease x0 s) := by
  unfold Sys2Proof.Machine.execIcpGnssGuardRelease
  repeat' first
    | with_reducible assumption
    | (with_reducible refine mask_sub hm ?_); exact rfl
    | with_reducible refine withGuard_moves ?_ ?_ _
    | with_reducible refine faultCond_moves ?_ ?_ _ _
    | with_reducible refine requalify_moves ?_ ?_ _ _
    | with_reducible refine icpDo_moves ?_ ?_ _ _ _ _ _ ?_
    | with_reducible refine Moves.ite ?_ ?_
    | with_reducible refine Moves.self ?_
    | with_reducible refine Moves.dite ?_ ?_
    | with_reducible refine Moves.ite_snd ?_ ?_
    | with_reducible refine Moves.foldl ?_ _ ?_
    | with_reducible refine Moves.foldl_snd ?_ _ ?_
    | with_reducible refine Moves.elim _ ?_ ?_
    | with_reducible refine MovesOut.next ?_
    | with_reducible refine MovesOut.ite ?_ ?_
    | with_reducible intro _

theorem execIcpGnssSolStatus_moves {m : Nat} {r s : State} (hm : 2031616 ||| m = m) (h : Moves m r s) (x0 : _)  :
    MovesOut m r (Sys2Proof.Machine.execIcpGnssSolStatus x0 s) := by
  unfold Sys2Proof.Machine.execIcpGnssSolStatus
  repeat' first
    | with_reducible assumption
    | with_reducible refine icpDo_moves ?_ ?_ _ _ _ _ _ ?_
    | with_reducible refine Moves.ite ?_ ?_
    | with_reducible refine Moves.self ?_
    | with_reducible refine Moves.dite ?_ ?_
    | with_reducible refine Moves.ite_snd ?_ ?_
    | with_reducible refine Moves.foldl ?_ _ ?_
    | with_reducible refine Moves.foldl_snd ?_ _ ?_
    | with_reducible refine Moves.elim _ ?_ ?_
    | with_reducible refine MovesOut.next ?_
    | with_reducible refine MovesOut.ite ?_ ?_
    | with_reducible intro _

theorem execIcpGnssPosition_moves {m : Nat} {r s : State} (hm : 2064640 ||| m = m) (h : Moves m r s) (x0 : _) (x1 : _)  :
    MovesOut m r (Sys2Proof.Machine.execIcpGnssPosition x0 x1 s) := by
  unfold Sys2Proof.Machine.execIcpGnssPosition
  repeat' first
    | with_reducible assumption
    | (with_reducible refine mask_sub hm ?_); exact rfl
    | with_reducible refine cfgUpdate_moves ?_ ?_ _
    | with_reducible refine icpDo_moves ?_ ?_ _ _ _ _ _ ?_
    | with_reducible refine Moves.ite ?_ ?_
    | with_reducible refine Moves.self ?_
    | with_reducible refine Moves.dite ?_ ?_
    | with_reducible refine Moves.ite_snd ?_ ?_
    | with_reducible refine Moves.foldl ?_ _ ?_
    | with_reducible refine Moves.foldl_snd ?_ _ ?_
    | with_reducible refine Moves.elim _ ?_ ?_
    | with_reducible refine MovesOut.next ?_
    | with_reducible refine MovesOut.ite ?_ ?_
    | with_reducible intro _
    | with_reducible refine Moves.set_gnss ?_ ?_

theorem execIcpGnssMeasGet_moves {m : Nat} {r s : State} (hm : 2031616 ||| m = m) (h : Moves m r s) (x0 : _)  :
    MovesOut m r (Sys2Proof.Machine.execIcpGnssMeasGet x0 s) := by
  unfold Sys2Proof.Machine.execIcpGnssMeasGet
  repeat' first
    | with_reducible assumption
    | with_reducible refine icpDo_moves ?_ ?_ _ _ _ _ _ ?_
    | with_reducible refine Moves.ite ?_ ?_
    | with_reducible refine Moves.self ?_
    | with_reducible refine Moves.dite ?_ ?_
    | with_reducible refine Moves.ite_snd ?_ ?_
    | with_reducible refine Moves.foldl ?_ _ ?_
    | with_reducible refine Moves.foldl_snd ?_ _ ?_
    | with_reducible refine Moves.elim _ ?_ ?_
    | with_reducible refine MovesOut.next ?_
    | with_reducible refine MovesOut.ite ?_ ?_
    | with_reducible intro _

theorem servReject_moves {m : Nat} {r s : State} (hm : 854016 ||| m = m) (h : Moves m r s) (x0 : _)  :
    Moves m r (Sys2Proof.Machine.servReject x0 s) := by
  unfold Sys2Proof.Machine.servReject
  repeat' first
    | with_reducible assumption
    | (with_reducible refine mask_sub hm ?_); exact rfl
    | with_reducible refine raiseOwn_moves ?_ ?_ _ _
    | with_reducible refine servHist_moves ?_ ?_ _ _
    | with_reducible refine onServSlot_moves ?_ ?_ _ _ ?_
    | exact ServOn.slotUpd rfl
    | rfl
    | with_reducible refine Moves.ite ?_ ?_

theorem execNtsCryptoDone_moves {m : Nat} {r s : State} (hm : 14638592 ||| m = m) (h : Moves m r s) (x0 : _)  :
    MovesOut m r (Sys2Proof.Machine.execNtsCryptoDone x0 s) := by
  unfold Sys2Proof.Machine.execNtsCryptoDone
  try dsimp only
  repeat' first
    | with_reducible assumption
    | (with_reducible refine mask_sub hm ?_); exact rfl
    | with_reducible refine servReserve_moves ?_ ?_ _
    | with_reducible refine txnCount_moves ?_ ?_ _ _ _
    | with_reducible refine servReject_moves ?_ ?_ _
    | with_reducible refine onTxn_moves ?_ ?_ _ _
    | with_reducible exact VaultOn.same rfl rfl
    | with_reducible refine Moves.ite ?_ ?_
    | with_reducible refine Moves.dite ?_ ?_
    | with_reducible refine Moves.ite_snd ?_ ?_
    | with_reducible refine Moves.foldl ?_ _ ?_
    | with_reducible refine Moves.foldl_snd ?_ _ ?_
    | with_reducible refine Moves.elim _ ?_ ?_
    | with_reducible refine MovesOut.next ?_
    | with_reducible refine MovesOut.ite ?_ ?_
    | with_reducible intro _
    | split
    | with_reducible refine Moves.set_vault ?_ ?_ ?_

theorem execWaypCalDone_moves {m : Nat} {r s : State} (hm : 590848 ||| m = m) (h : Moves m r s) (x0 : _)  :
    MovesOut m r (Sys2Proof.Machine.execWaypCalDone x0 s) := by
  unfold Sys2Proof.Machine.execWaypCalDone
  try dsimp only
  repeat' first
    | with_reducible assumption
    | (with_reducible refine mask_sub hm ?_); exact rfl
    | with_reducible refine complete_moves ?_ ?_ _ _ _ _
    | with_reducible refine onWayp_moves ?_ ?_ _ _
    | with_reducible refine Moves.ite ?_ ?_
    | with_reducible refine Moves.dite ?_ ?_
    | with_reducible refine Moves.ite_snd ?_ ?_
    | with_reducible refine Moves.foldl ?_ _ ?_
    | with_reducible refine Moves.foldl_snd ?_ _ ?_
    | with_reducible refine Moves.elim _ ?_ ?_
    | with_reducible refine MovesOut.next ?_
    | with_reducible refine MovesOut.ite ?_ ?_
    | with_reducible intro _
    | split

theorem execSnapshotExit_moves {m : Nat} {r s : State} (hm : 852224 ||| m = m) (h : Moves m r s)   :
    MovesOut m r (Sys2Proof.Machine.execSnapshotExit s) := by
  unfold Sys2Proof.Machine.execSnapshotExit
  repeat' first
    | with_reducible assumption
    | (with_reducible refine mask_sub hm ?_); exact rfl
    | with_reducible refine sticky_moves ?_ ?_ _ _
    | with_reducible refine raise_moves ?_ ?_ _
    | with_reducible refine burstResume_moves ?_ ?_ 
    | with_reducible refine Moves.ite ?_ ?_
    | with_reducible refine Moves.dite ?_ ?_
    | with_reducible refine Moves.ite_snd ?_ ?_
    | with_reducible refine Moves.foldl ?_ _ ?_
    | with_reducible refine Moves.foldl_snd ?_ _ ?_
    | with_reducible refine Moves.elim _ ?_ ?_
    | with_reducible refine MovesOut.next ?_
    | with_reducible refine MovesOut.ite ?_ ?_
    | with_reducible intro _
    | with_reducible refine Moves.set_gnss ?_ ?_

theorem execBurstWindowClose_moves {m : Nat} {r s : State} (hm : 260 ||| m = m) (h : Moves m r s)   :
    MovesOut m r (Sys2Proof.Machine.execBurstWindowClose s) := by
  unfold Sys2Proof.Machine.execBurstWindowClose
  repeat' first
    | with_reducible assumption
    | (with_reducible refine mask_sub hm ?_); exact rfl
    | with_reducible refine atCnt_moves ?_ ?_ _ _ ?_
    | with_reducible refine Moves.ite ?_ ?_
    | with_reducible refine Moves.dite ?_ ?_
    | with_reducible refine Moves.ite_snd ?_ ?_
    | with_reducible refine Moves.foldl ?_ _ ?_
    | with_reducible refine Moves.foldl_snd ?_ _ ?_
    | with_reducible refine Moves.elim _ ?_ ?_
    | with_reducible refine MovesOut.next ?_
    | with_reducible refine MovesOut.ite ?_ ?_
    | with_reducible intro _
    | with_reducible refine Moves.set_gnss ?_ ?_

theorem execSurveyComplete_moves {m : Nat} {r s : State} (hm : 622848 ||| m = m) (h : Moves m r s) (x0 : _) (x1 : _) (x2 : _) (x3 : _)  :
    MovesOut m r (Sys2Proof.Machine.execSurveyComplete x0 x1 x2 x3 s) := by
  unfold Sys2Proof.Machine.execSurveyComplete
  repeat' first
    | with_reducible assumption
    | (with_reducible refine mask_sub hm ?_); exact rfl
    | with_reducible refine cfgUpdate_moves ?_ ?_ _
    | with_reducible refine raise_moves ?_ ?_ _
    | with_reducible refine Moves.ite ?_ ?_
    | with_reducible refine Moves.dite ?_ ?_
    | with_reducible refine Moves.ite_snd ?_ ?_
    | with_reducible refine Moves.foldl ?_ _ ?_
    | with_reducible refine Moves.foldl_snd ?_ _ ?_
    | with_reducible refine Moves.elim _ ?_ ?_
    | with_reducible refine MovesOut.next ?_
    | with_reducible refine MovesOut.ite ?_ ?_
    | with_reducible intro _
    | with_reducible refine Moves.set_gnss ?_ ?_

theorem execGuardWindowEnd_moves {m : Nat} {r s : State} (hm : 256 ||| m = m) (h : Moves m r s)   :
    MovesOut m r (Sys2Proof.Machine.execGuardWindowEnd s) := by
  unfold Sys2Proof.Machine.execGuardWindowEnd
  repeat' first
    | with_reducible assumption
    | with_reducible refine withGuard_moves ?_ ?_ _
    | with_reducible refine Moves.ite ?_ ?_
    | with_reducible refine Moves.dite ?_ ?_
    | with_reducible refine Moves.ite_snd ?_ ?_
    | with_reducible refine Moves.foldl ?_ _ ?_
    | with_reducible refine Moves.foldl_snd ?_ _ ?_
    | with_reducible refine Moves.elim _ ?_ ?_
    | with_reducible refine MovesOut.next ?_

theorem execAgcCheck_moves {m : Nat} {r s : State} (hm : 25116506 ||| m = m) (h : Moves m r s)   :
    MovesOut m r (Sys2Proof.Machine.execAgcCheck s) := by
  unfold Sys2Proof.Machine.execAgcCheck
  repeat' first
    | with_reducible assumption
    | (with_reducible refine mask_sub hm ?_); exact rfl
    | with_reducible refine raise_moves ?_ ?_ _
    | with_reducible refine faultCond_moves ?_ ?_ _ _
    | with_reducible refine Moves.ite ?_ ?_
    | with_reducible refine Moves.dite ?_ ?_
    | with_reducible refine Moves.ite_snd ?_ ?_
    | with_reducible refine Moves.foldl ?_ _ ?_
    | with_reducible refine Moves.foldl_snd ?_ _ ?_
    | with_reducible refine Moves.elim _ ?_ ?_
    | with_reducible refine MovesOut.next ?_
    | with_reducible refine MovesOut.ite ?_ ?_
    | with_reducible intro _
    | with_reducible refine Moves.set_gnss ?_ ?_

theorem execDistortionCheck_moves {m : Nat} {r s : State} (hm : 590080 ||| m = m) (h : Moves m r s) (x0 : _)  :
    MovesOut m r (Sys2Proof.Machine.execDistortionCheck x0 s) := by
  unfold Sys2Proof.Machine.execDistortionCheck
  repeat' first
    | with_reducible assumption
    | (with_reducible refine mask_sub hm ?_); exact rfl
    | with_reducible refine raise_moves ?_ ?_ _
    | with_reducible refine onChan_moves ?_ ?_ _ _
    | with_reducible refine Moves.ite ?_ ?_
    | with_reducible refine Moves.dite ?_ ?_
    | with_reducible refine Moves.ite_snd ?_ ?_
    | with_reducible refine Moves.foldl ?_ _ ?_
    | with_reducible refine Moves.foldl_snd ?_ _ ?_
    | with_reducible refine Moves.elim _ ?_ ?_
    | with_reducible refine MovesOut.next ?_
    | with_reducible refine MovesOut.ite ?_ ?_
    | with_reducible intro _

theorem execGnssSolution_moves {m : Nat} {r s : State} (hm : 25116510 ||| m = m) (h : Moves m r s) (x0 : _) (x1 : _)  :
    MovesOut m r (Sys2Proof.Machine.execGnssSolution x0 x1 s) := by
  unfold Sys2Proof.Machine.execGnssSolution
  repeat' first
    | with_reducible assumption
    | (with_reducible refine mask_sub hm ?_); exact rfl
    | with_reducible refine pushMeas_moves ?_ ?_ _ _ _ _
    | with_reducible refine utcFrom_moves ?_ ?_ _
    | with_reducible refine faultEvent_moves ?_ ?_ _
    | with_reducible refine raise_moves ?_ ?_ _
    | with_reducible refine Moves.ite ?_ ?_
    | with_reducible refine Moves.dite ?_ ?_
    | with_reducible refine Moves.ite_snd ?_ ?_
    | with_reducible refine Moves.foldl ?_ _ ?_
    | with_reducible refine Moves.foldl_snd ?_ _ ?_
    | with_reducible refine Moves.elim _ ?_ ?_
    | with_reducible refine MovesOut.next ?_
    | with_reducible refine MovesOut.ite ?_ ?_
    | with_reducible intro _
    | with_reducible refine Moves.set_gnss ?_ ?_

theorem execMeasBankClaim_moves {m : Nat} {r s : State} (hm : 256 ||| m = m) (h : Moves m r s) (x0 : _)  :
    MovesOut m r (Sys2Proof.Machine.execMeasBankClaim x0 s) := by
  unfold Sys2Proof.Machine.execMeasBankClaim
  try dsimp only
  repeat' first
    | with_reducible assumption
    | with_reducible refine Moves.ite ?_ ?_
    | with_reducible refine Moves.dite ?_ ?_
    | with_reducible refine Moves.ite_snd ?_ ?_
    | with_reducible refine Moves.foldl ?_ _ ?_
    | with_reducible refine Moves.foldl_snd ?_ _ ?_
    | with_reducible refine Moves.elim _ ?_ ?_
    | with_reducible refine MovesOut.next ?_
    | with_reducible refine MovesOut.ite ?_ ?_
    | with_reducible intro _
    | split
    | with_reducible refine Moves.set_gnss ?_ ?_

theorem measLatch_moves {m : Nat} {r s : State} (hm : 25116506 ||| m = m) (h : Moves m r s) (x0 : _)  :
    Moves m r (Sys2Proof.Machine.measLatch x0 s) := by
  unfold Sys2Proof.Machine.measLatch
  repeat' first
    | with_reducible assumption
    | (with_reducible refine mask_sub hm ?_); exact rfl
    | with_reducible refine sticky_moves ?_ ?_ _ _
    | with_reducible refine raise_moves ?_ ?_ _
    | with_reducible refine faultEvent_moves ?_ ?_ _
    | with_reducible refine Moves.ite ?_ ?_
    | with_reducible refine Moves.dite ?_ ?_
    | with_reducible refine Moves.ite_snd ?_ ?_
    | with_reducible refine Moves.foldl ?_ _ ?_
    | with_reducible refine Moves.foldl_snd ?_ _ ?_
    | with_reducible refine Moves.elim _ ?_ ?_
    | with_reducible intro _
    | with_reducible refine Moves.set_gnss ?_ ?_

theorem execMeasEpoch_moves {m : Nat} {r s : State} (hm : 25116510 ||| m = m) (h : Moves m r s)   :
    MovesOut m r (Sys2Proof.Machine.execMeasEpoch s) := by
  unfold Sys2Proof.Machine.execMeasEpoch
  try dsimp only
  repeat' first
    | with_reducible assumption
    | (with_reducible refine mask_sub hm ?_); exact rfl
    | with_reducible refine measLatch_moves ?_ ?_ _
    | with_reducible refine raiseEpoch_moves ?_ ?_ 
    | with_reducible refine epochPulse_moves ?_ ?_ _
    | with_reducible refine Moves.ite ?_ ?_
    | with_reducible refine Moves.dite ?_ ?_
    | with_reducible refine Moves.ite_snd ?_ ?_
    | with_reducible refine Moves.foldl ?_ _ ?_
    | with_reducible refine Moves.foldl_snd ?_ _ ?_
    | with_reducible refine Moves.elim _ ?_ ?_
    | with_reducible refine MovesOut.next ?_
    | with_reducible refine MovesOut.ite ?_ ?_
    | with_reducible intro _
    | split
    | with_reducible refine Moves.set_mile ?_ ?_
    | with_reducible refine Moves.set_time_mile ?_ ?_

theorem execSmearWindowEdge_moves {m : Nat} {r s : State} (hm : 854016 ||| m = m) (h : Moves m r s) (x0 : _) (x1 : _)  :
    MovesOut m r (Sys2Proof.Machine.execSmearWindowEdge x0 x1 s) := by
  unfold Sys2Proof.Machine.execSmearWindowEdge
  refine .next ?_
  split
  · rename_i a e
    refine Moves.ite h (raiseOwn_moves (mask_sub hm rfl) (servHist_moves (mask_sub hm rfl) (onServSlot_moves (mask_sub hm rfl) h _ _ ?_) _ _) _ _)
    exact ServOn.addr rfl rfl fun y q => ⟨a, e, by cases q; rfl, by cases q; rfl, by cases q; rfl⟩
  · exact h

theorem burstWatch_moves {m : Nat} {r s : State} (hm : 256 ||| m = m) (h : Moves m r s)   :
    Moves m r (Sys2Proof.Machine.burstWatch s) := by
  unfold Sys2Proof.Machine.burstWatch
  repeat' first
    | with_reducible assumption
    | with_reducible refine Moves.ite ?_ ?_
    | with_reducible refine Moves.dite ?_ ?_
    | with_reducible refine Moves.ite_snd ?_ ?_
    | with_reducible refine Moves.foldl ?_ _ ?_
    | with_reducible refine Moves.foldl_snd ?_ _ ?_
    | with_reducible refine Moves.elim _ ?_ ?_
    | with_reducible intro _
    | with_reducible refine Moves.set_gnss ?_ ?_

end Sys2Proof.Laws
end

