-- ==== Sys2Proof/Laws/MovesPtp.lean ====
section
/-!
SUPPORT. What each function of Machine/Ptp may change, as `Moves`.
-/
namespace Sys2Proof.Laws
open Sys2Proof Sys2Proof.Machine

theorem onPtp_moves {m : Nat} {r s : State} (hm : 4096 ||| m = m) (h : Moves m r s) (x0 : _) (hf : ∀ v, PtpOn v (x0 v)) :
    Moves m r (Sys2Proof.Machine.onPtp x0 s) := by
  unfold Sys2Proof.Machine.onPtp
  repeat' first
    | with_reducible assumption
    | with_reducible exact hf _
    | with_reducible exact PtpOn.same rfl rfl
    | with_reducible refine Moves.ite ?_ ?_
    | with_reducible refine Moves.dite ?_ ?_
    | with_reducible refine Moves.ite_snd ?_ ?_
    | with_reducible refine Moves.foldl ?_ _ ?_
    | with_reducible refine Moves.foldl_snd ?_ _ ?_
    | with_reducible refine Moves.elim _ ?_ ?_
    | with_reducible intro _
    | with_reducible refine Moves.set_ptp ?_ ?_ ?_

theorem noteDelayReq_moves {m : Nat} {r s : State} (hm : 4096 ||| m = m) (h : Moves m r s) (x0 : _) (x1 : _) (x2 : _)  :
    Moves m r (Sys2Proof.Machine.noteDelayReq x0 x1 x2 s) := by
  unfold Sys2Proof.Machine.noteDelayReq
  try dsimp only
  repeat' first
    | with_reducible assumption
    | with_reducible refine onPtp_moves ?_ ?_ _ ?_
    | exact PtpOn.same rfl rfl
    | with_reducible refine Moves.ite ?_ ?_
    | with_reducible refine Moves.dite ?_ ?_
    | with_reducible refine Moves.ite_snd ?_ ?_
    | with_reducible refine Moves.foldl ?_ _ ?_
    | with_reducible refine Moves.foldl_snd ?_ _ ?_
    | with_reducible refine Moves.elim _ ?_ ?_
    | with_reducible intro _
    | split

theorem ptpReserved_moves {m : Nat} {r s : State} (hm : 8394240 ||| m = m) (h : Moves m r s) (x0 : _)  :
    Moves m r (Sys2Proof.Machine.ptpReserved x0 s) := by
  unfold Sys2Proof.Machine.ptpReserved
  repeat' first
    | with_reducible assumption
    | (with_reducible refine mask_sub hm ?_); exact rfl
    | with_reducible refine onPtp_moves ?_ ?_ _ ?_
    | with_reducible refine waitEnd_moves ?_ ?_ _ _
    | with_reducible refine noteDelayReq_moves ?_ ?_ _ _ _
    | with_reducible refine reserveSlot_moves ?_ ?_ _ _ _ _
    | exact PtpOn.same rfl rfl
    | with_reducible refine Moves.ite ?_ ?_
    | with_reducible refine Moves.dite ?_ ?_
    | with_reducible refine Moves.ite_snd ?_ ?_
    | with_reducible refine Moves.foldl ?_ _ ?_
    | with_reducible refine Moves.foldl_snd ?_ _ ?_
    | with_reducible refine Moves.elim _ ?_ ?_
    | with_reducible intro _

theorem ptpReserve_moves {m : Nat} {r s : State} (hm : 12588544 ||| m = m) (h : Moves m r s) (x0 : _)  :
    Moves m r (Sys2Proof.Machine.ptpReserve x0 s) := by
  unfold Sys2Proof.Machine.ptpReserve
  repeat' first
    | with_reducible assumption
    | (with_reducible refine mask_sub hm ?_); exact rfl
    | with_reducible refine waitFor_moves ?_ ?_ _ _
    | with_reducible refine ptpReserved_moves ?_ ?_ _
    | with_reducible refine Moves.ite ?_ ?_

theorem ptpSend_moves {m : Nat} {r s : State} (hm : 12588544 ||| m = m) (h : Moves m r s) (x0 : _) (x1 : _) (x2 : _) (x3 : _) (x4 : _) (x5 : _) (x6 : _)  :
    Moves m r (Sys2Proof.Machine.ptpSend x0 x1 x2 x3 x4 x5 x6 s) := by
  unfold Sys2Proof.Machine.ptpSend
  try dsimp only
  repeat' first
    | with_reducible assumption
    | (with_reducible refine mask_sub hm ?_); exact rfl
    | with_reducible refine onPtp_moves ?_ ?_ _ ?_
    | with_reducible refine ptpReserve_moves ?_ ?_ _
    | exact PtpOn.same rfl rfl
    | with_reducible refine Moves.ite ?_ ?_
    | with_reducible refine Moves.dite ?_ ?_
    | with_reducible refine Moves.ite_snd ?_ ?_
    | with_reducible refine Moves.foldl ?_ _ ?_
    | with_reducible refine Moves.foldl_snd ?_ _ ?_
    | with_reducible refine Moves.elim _ ?_ ?_
    | with_reducible intro _
    | split

theorem instSend_moves {m : Nat} {r s : State} (hm : 12588544 ||| m = m) (h : Moves m r s) (x0 : _) (x1 : _) (x2 : _) (x3 : _) (x4 : _)  :
    Moves m r (Sys2Proof.Machine.instSend x0 x1 x2 x3 x4 s) := by
  unfold Sys2Proof.Machine.instSend
  repeat' first
    | with_reducible assumption
    | with_reducible refine ptpSend_moves ?_ ?_ _ _ _ _ _ _ _

theorem grantSet_moves {m : Nat} {r s : State} (hm : 4096 ||| m = m) (h : Moves m r s) (x0 : _) (x1 : _)  :
    Moves m r (Sys2Proof.Machine.grantSet x0 x1 s) := by
  unfold Sys2Proof.Machine.grantSet
  repeat' first
    | with_reducible assumption
    | with_reducible refine onPtp_moves ?_ ?_ _ ?_
    | exact ⟨fun e => mwf_mset _ _ _ _ e, id⟩
    | exact PtpOn.same rfl rfl
    | with_reducible refine Moves.ite ?_ ?_
    | with_reducible refine Moves.dite ?_ ?_
    | with_reducible refine Moves.ite_snd ?_ ?_
    | with_reducible refine Moves.foldl ?_ _ ?_
    | with_reducible refine Moves.foldl_snd ?_ _ ?_
    | with_reducible refine Moves.elim _ ?_ ?_
    | with_reducible intro _

theorem nhFree_moves {m : Nat} {r s : State} (hm : 4096 ||| m = m) (h : Moves m r s)   :
    Moves m r (Sys2Proof.Machine.nhFree s) := by
  unfold Sys2Proof.Machine.nhFree
  repeat' first
    | with_reducible assumption
    | with_reducible refine onPtp_moves ?_ ?_ _ ?_
    | exact ⟨id, fun e => mwf_filter _ _ _ e⟩
    | exact PtpOn.same rfl rfl
    | with_reducible refine Moves.ite ?_ ?_
    | with_reducible refine Moves.dite ?_ ?_
    | with_reducible refine Moves.ite_snd ?_ ?_
    | with_reducible refine Moves.foldl ?_ _ ?_
    | with_reducible refine Moves.foldl_snd ?_ _ ?_
    | with_reducible refine Moves.elim _ ?_ ?_
    | with_reducible intro _

theorem grantPut_moves {m : Nat} {r s : State} (hm : 4096 ||| m = m) (h : Moves m r s) (x0 : _) (x1 : _)  :
    Moves m r (Sys2Proof.Machine.grantPut x0 x1 s) := by
  unfold Sys2Proof.Machine.grantPut
  repeat' first
    | with_reducible assumption
    | with_reducible refine grantSet_moves ?_ ?_ _ _
    | with_reducible refine nhFree_moves ?_ ?_ 

theorem ptpCount_moves {m : Nat} {r s : State} (hm : 4194304 ||| m = m) (h : Moves m r s) (x0 : _) (x1 : _) (x2 : _)  :
    Moves m r (Sys2Proof.Machine.ptpCount x0 x1 x2 s) := by
  unfold Sys2Proof.Machine.ptpCount
  repeat' first
    | with_reducible assumption
    | with_reducible refine countN_moves ?_ ?_ _ _ _

theorem tableHigh_moves {m : Nat} {r s : State} (hm : 589824 ||| m = m) (h : Moves m r s) (x0 : Fin 8) (x1 : State) :
    Moves m r (Sys2Proof.Machine.tableHigh x0 x1 s) := by
  unfold Sys2Proof.Machine.tableHigh
  exact Moves.ite (raiseOwn_moves hm h _ _) h

theorem nhTake_moves {m : Nat} {r s : State} (hm : 4096 ||| m = m) (h : Moves m r s) (x0 : _)  :
    ∀ p, (Sys2Proof.Machine.nhTake x0 s) = some p → Moves m r p.2 := by
  intro p e
  unfold Sys2Proof.Machine.nhTake at e
  split at e
  · cases e; exact h
  · obtain ⟨n, _, rfl⟩ := Option.map_eq_some_iff.mp e
    exact onPtp_moves hm h (fun v => { v with nextHop := mset 0#48 n x0 v.nextHop }) fun _ => ⟨id, fun e => mwf_mset _ _ _ _ e⟩

theorem makeRoom_moves {m : Nat} {r s : State} (hm : 4096 ||| m = m) (h : Moves m r s) (x0 : _) (x1 : _)  :
    ∀ p, (Sys2Proof.Machine.makeRoom x0 x1 s) = some p → Moves m r p.2 := by
  induction x0 generalizing x1 with
  | zero =>
    intro p e
    unfold Sys2Proof.Machine.makeRoom at e
    obtain ⟨n, _, rfl⟩ := Option.map_eq_some_iff.mp e
    exact h
  | succ n ih =>
    intro p e
    unfold Sys2Proof.Machine.makeRoom at e
    split at e
    · cases e; exact h
    · obtain ⟨q, hq, rfl⟩ := Option.map_eq_some_iff.mp e
      exact grantSet_moves hm (grantSet_moves hm (ih _ _ hq) _ _) _ _

theorem placeGrant_moves {m : Nat} {r s : State} (hm : 4096 ||| m = m) (h : Moves m r s) (x0 : _) (x1 : _) (x2 : _)  :
    ∀ p, (Sys2Proof.Machine.placeGrant x0 x1 x2 s) = some p → Moves m r p.2 := by
  intro p e
  unfold Sys2Proof.Machine.placeGrant at e
  split at e
  · cases e; exact h
  · dsimp only at e
    split at e
    · cases e; exact h
    · cases e; exact h
    · exact makeRoom_moves hm h _ _ _ e

theorem ptpHist_moves {m : Nat} {r s : State} (hm : 262144 ||| m = m) (h : Moves m r s) (x0 : _) (x1 : _)  :
    Moves m r (Sys2Proof.Machine.ptpHist x0 x1 s) := by
  unfold Sys2Proof.Machine.ptpHist
  repeat' first
    | with_reducible assumption
    | with_reducible refine stickyAt_moves ?_ ?_ _ _ _

theorem onPtpSlot_moves {m : Nat} {r s : State} (hm : 4096 ||| m = m) (h : Moves m r s) (x0 : _) (x1 : _)  :
    Moves m r (Sys2Proof.Machine.onPtpSlot x0 x1 s) := by
  unfold Sys2Proof.Machine.onPtpSlot
  repeat' first
    | with_reducible assumption
    | with_reducible refine onPtp_moves ?_ ?_ _ ?_
    | exact PtpOn.same rfl rfl
    | with_reducible refine Moves.ite ?_ ?_
    | with_reducible refine Moves.dite ?_ ?_
    | with_reducible refine Moves.ite_snd ?_ ?_
    | with_reducible refine Moves.foldl ?_ _ ?_
    | with_reducible refine Moves.foldl_snd ?_ _ ?_
    | with_reducible refine Moves.elim _ ?_ ?_
    | with_reducible intro _

theorem refuse_moves {m : Nat} {r s : State} (hm : 25116250 ||| m = m) (h : Moves m r s) (x0 : _) (x1 : _) (x2 : _)  :
    Moves m r (Sys2Proof.Machine.refuse x0 x1 x2 s) := by
  unfold Sys2Proof.Machine.refuse
  repeat' first
    | with_reducible assumption
    | (with_reducible refine mask_sub hm ?_); exact rfl
    | with_reducible refine raise_moves ?_ ?_ _
    | with_reducible refine faultEvent_moves ?_ ?_ _
    | with_reducible refine raiseOwn_moves ?_ ?_ _ _
    | with_reducible refine ptpCount_moves ?_ ?_ _ _ _
    | with_reducible refine ptpHist_moves ?_ ?_ _ _
    | with_reducible refine onPtpSlot_moves ?_ ?_ _ _
    | with_reducible refine Moves.ite ?_ ?_

theorem grantRequest_moves {m : Nat} {r s : State} (hm : 25116250 ||| m = m) (h : Moves m r s) (x0 : _) (x1 : _) (x2 : _) (x3 : _) (x4 : _) (x5 : _) (x6 : _) (x7 : _)  :
    Moves m r (Sys2Proof.Machine.grantRequest x0 x1 x2 x3 x4 x5 x6 x7 s).2 := by
  unfold Sys2Proof.Machine.grantRequest
  dsimp only
  split
  · dsimp only; exact refuse_moves (mask_sub hm rfl) h _ _ _
  · split
    · dsimp only; exact refuse_moves (mask_sub hm rfl) h _ _ _
    · rename_i e1
      have h1 := placeGrant_moves (mask_sub hm rfl) h _ _ _ _ e1
      split
      · dsimp only; exact refuse_moves (mask_sub hm rfl) h _ _ _
      · rename_i e2
        have h2 := nhTake_moves (mask_sub hm rfl) h1 _ _ e2
        dsimp only at h2 ⊢
        refine tableHigh_moves (mask_sub hm rfl) (ptpCount_moves (mask_sub hm rfl) (grantPut_moves (mask_sub hm rfl)
          (Moves.ite (ptpCount_moves (mask_sub hm rfl) h2 _ _ _) h2) _ _) _ _ _) _ _

theorem negotiate_moves {m : Nat} {r : State} (hm : 25116250 ||| m = m) (x0 : _) (x1 : _) (x2 : _) (x3 : _) (x4 : _) (x5 : _)
    (h : Moves m r x5.2) (x6 : _) : Moves m r (Sys2Proof.Machine.negotiate x0 x1 x2 x3 x4 x5 x6).2 := by
  unfold Sys2Proof.Machine.negotiate
  split
  · exact grantRequest_moves (mask_sub hm rfl) h _ _ _ _ _ _ _ _
  · have h1 := ptpCount_moves (m := m) (mask_sub hm rfl) h x2.port 16 x1.owner
    dsimp only
    split
    · exact Moves.ite h1 (grantPut_moves (mask_sub hm rfl) h1 _ _)
    · exact h1
  · exact h

theorem delayResp_moves {m : Nat} {r s : State} (hm : 12588544 ||| m = m) (h : Moves m r s) (x0 : _) (x1 : _) (x2 : _) (x3 : _) (x4 : _) (x5 : _) (x6 : _) (x7 : _) (x8 : _)  :
    Moves m r (Sys2Proof.Machine.delayResp x0 x1 x2 x3 x4 x5 x6 x7 x8 s) := by
  unfold Sys2Proof.Machine.delayResp
  repeat' first
    | with_reducible assumption
    | with_reducible refine instSend_moves ?_ ?_ _ _ _ _ _

theorem dreqDrop_moves {m : Nat} {r s : State} (hm : 5050368 ||| m = m) (h : Moves m r s) (x0 : _) (x1 : _) (x2 : _)  :
    Moves m r (Sys2Proof.Machine.dreqDrop x0 x1 x2 s) := by
  unfold Sys2Proof.Machine.dreqDrop
  repeat' first
    | with_reducible assumption
    | (with_reducible refine mask_sub hm ?_); exact rfl
    | with_reducible refine raiseOwn_moves ?_ ?_ _ _
    | with_reducible refine ptpCount_moves ?_ ?_ _ _ _
    | with_reducible refine ptpHist_moves ?_ ?_ _ _
    | with_reducible refine onPtpSlot_moves ?_ ?_ _ _
    | with_reducible refine Moves.ite ?_ ?_

theorem mcastDelayReq_moves {m : Nat} {r s : State} (hm : 13440512 ||| m = m) (h : Moves m r s) (x0 : _) (x1 : _) (x2 : _) (x3 : _) (x4 : _) (x5 : _)  :
    Moves m r (Sys2Proof.Machine.mcastDelayReq x0 x1 x2 x3 x4 x5 s) := by
  unfold Sys2Proof.Machine.mcastDelayReq
  repeat' first
    | with_reducible assumption
    | (with_reducible refine mask_sub hm ?_); exact rfl
    | with_reducible refine onPtp_moves ?_ ?_ _ ?_
    | with_reducible refine delayResp_moves ?_ ?_ _ _ _ _ _ _ _ _ _
    | with_reducible refine dreqDrop_moves ?_ ?_ _ _ _
    | exact PtpOn.same rfl rfl
    | with_reducible refine Moves.ite ?_ ?_
    | with_reducible refine Moves.dite ?_ ?_
    | with_reducible refine Moves.ite_snd ?_ ?_
    | with_reducible refine Moves.foldl ?_ _ ?_
    | with_reducible refine Moves.foldl_snd ?_ _ ?_
    | with_reducible refine Moves.elim _ ?_ ?_
    | with_reducible intro _

theorem grantDelayReq_moves {m : Nat} {r s : State} (hm : 13440512 ||| m = m) (h : Moves m r s) (x0 : _) (x1 : _) (x2 : _) (x3 : _) (x4 : _) (x5 : _) (x6 : _)  :
    Moves m r (Sys2Proof.Machine.grantDelayReq x0 x1 x2 x3 x4 x5 x6 s) := by
  unfold Sys2Proof.Machine.grantDelayReq
  try dsimp only
  repeat' first
    | with_reducible assumption
    | (with_reducible refine mask_sub hm ?_); exact rfl
    | with_reducible refine grantSet_moves ?_ ?_ _ _
    | with_reducible refine delayResp_moves ?_ ?_ _ _ _ _ _ _ _ _ _
    | with_reducible refine dreqDrop_moves ?_ ?_ _ _ _
    | with_reducible refine Moves.ite ?_ ?_
    | with_reducible refine Moves.dite ?_ ?_
    | with_reducible refine Moves.ite_snd ?_ ?_
    | with_reducible refine Moves.foldl ?_ _ ?_
    | with_reducible refine Moves.foldl_snd ?_ _ ?_
    | with_reducible refine Moves.elim _ ?_ ?_
    | with_reducible intro _
    | split

theorem authFail_moves {m : Nat} {r s : State} (hm : 5050368 ||| m = m) (h : Moves m r s) (x0 : _) (x1 : _)  :
    Moves m r (Sys2Proof.Machine.authFail x0 x1 s) := by
  unfold Sys2Proof.Machine.authFail
  repeat' first
    | with_reducible assumption
    | (with_reducible refine mask_sub hm ?_); exact rfl
    | with_reducible refine raiseOwn_moves ?_ ?_ _ _
    | with_reducible refine ptpCount_moves ?_ ?_ _ _ _
    | with_reducible refine ptpHist_moves ?_ ?_ _ _
    | with_reducible refine onPtpSlot_moves ?_ ?_ _ _
    | with_reducible refine Moves.ite ?_ ?_

theorem instMessage_moves {m : Nat} {r s : State} (hm : 33504858 ||| m = m) (h : Moves m r s) (x0 : _) (x1 : _) (x2 : _) (x3 : _) (x4 : _) (x5 : _) (x6 : _)  :
    Moves m r (Sys2Proof.Machine.instMessage x0 x1 x2 x3 x4 x5 x6 s) := by
  unfold Sys2Proof.Machine.instMessage
  try dsimp only
  repeat' first
    | with_reducible assumption
    | (with_reducible refine mask_sub hm ?_); exact rfl
    | with_reducible refine instSend_moves ?_ ?_ _ _ _ _ _
    | with_reducible refine negotiate_moves ?_ ?_ _ _ _ _ _ _ _
    | with_reducible refine mcastDelayReq_moves ?_ ?_ _ _ _ _ _ _
    | with_reducible refine grantDelayReq_moves ?_ ?_ _ _ _ _ _ _ _
    | with_reducible refine authFail_moves ?_ ?_ _ _
    | with_reducible refine ptpCount_moves ?_ ?_ _ _ _
    | with_reducible refine negotiate_moves ?_ _ _ _ _ _ _ ?_ _
    | with_reducible refine Moves.ite ?_ ?_
    | with_reducible refine Moves.dite ?_ ?_
    | with_reducible refine Moves.ite_snd ?_ ?_
    | with_reducible refine Moves.foldl ?_ _ ?_
    | with_reducible refine Moves.foldl_snd ?_ _ ?_
    | with_reducible refine Moves.elim _ ?_ ?_
    | with_reducible intro _
    | split

theorem cancelGrant_moves {m : Nat} {r s : State} (hm : 12588544 ||| m = m) (h : Moves m r s) (x0 : _) (x1 : _)  :
    Moves m r (Sys2Proof.Machine.cancelGrant x0 x1 s) := by
  unfold Sys2Proof.Machine.cancelGrant
  try dsimp only
  repeat' first
    | with_reducible assumption
    | (with_reducible refine mask_sub hm ?_); exact rfl
    | with_reducible refine instSend_moves ?_ ?_ _ _ _ _ _
    | with_reducible refine ptpCount_moves ?_ ?_ _ _ _
    | with_reducible refine grantPut_moves ?_ ?_ _ _
    | with_reducible refine Moves.ite ?_ ?_
    | with_reducible refine Moves.dite ?_ ?_
    | with_reducible refine Moves.ite_snd ?_ ?_
    | with_reducible refine Moves.foldl ?_ _ ?_
    | with_reducible refine Moves.foldl_snd ?_ _ ?_
    | with_reducible refine Moves.elim _ ?_ ?_
    | with_reducible intro _
    | split

theorem emitDue_moves {m : Nat} {r s : State} (hm : 12588544 ||| m = m) (h : Moves m r s) (x0 : _) (x1 : _) (x2 : _) (x3 : _) (x4 : _) (x5 : _)  :
    Moves m r (Sys2Proof.Machine.emitDue x0 x1 x2 x3 x4 x5 s) := by
  unfold Sys2Proof.Machine.emitDue
  try dsimp only
  repeat' first
    | with_reducible assumption
    | with_reducible refine instSend_moves ?_ ?_ _ _ _ _ _
    | with_reducible refine Moves.ite ?_ ?_
    | with_reducible refine Moves.dite ?_ ?_
    | with_reducible refine Moves.ite_snd ?_ ?_
    | with_reducible refine Moves.foldl ?_ _ ?_
    | with_reducible refine Moves.foldl_snd ?_ _ ?_
    | with_reducible refine Moves.elim _ ?_ ?_
    | with_reducible intro _
    | split

theorem execMcastVisit_moves {m : Nat} {r s : State} (hm : 12588548 ||| m = m) (h : Moves m r s) (x0 : _) (x1 : _) (x2 : _)  :
    MovesOut m r (Sys2Proof.Machine.execMcastVisit x0 x1 x2 s) := by
  unfold Sys2Proof.Machine.execMcastVisit
  try dsimp only
  repeat' first
    | with_reducible assumption
    | (with_reducible refine mask_sub hm ?_); exact rfl
    | with_reducible refine emitDue_moves ?_ ?_ _ _ _ _ _ _
    | with_reducible refine atTick_moves ?_ ?_ _
    | with_reducible refine Moves.ite ?_ ?_
    | with_reducible refine Moves.dite ?_ ?_
    | with_reducible refine Moves.ite_snd ?_ ?_
    | with_reducible refine Moves.foldl ?_ _ ?_
    | with_reducible refine Moves.foldl_snd ?_ _ ?_
    | with_reducible refine Moves.elim _ ?_ ?_
    | with_reducible refine MovesOut.next ?_
    | with_reducible refine MovesOut.ite ?_ ?_
    | with_reducible intro _
    | split

theorem cancelAll_moves {m : Nat} {r s : State} (hm : 12588544 ||| m = m) (h : Moves m r s) (x0 : _)  :
    Moves m r (Sys2Proof.Machine.cancelAll x0 s) := by
  unfold Sys2Proof.Machine.cancelAll
  repeat' first
    | with_reducible assumption
    | with_reducible refine cancelGrant_moves ?_ ?_ _ _
    | with_reducible refine Moves.ite ?_ ?_
    | with_reducible refine Moves.dite ?_ ?_
    | with_reducible refine Moves.ite_snd ?_ ?_
    | with_reducible refine Moves.foldl ?_ _ ?_
    | with_reducible refine Moves.foldl_snd ?_ _ ?_
    | with_reducible refine Moves.elim _ ?_ ?_
    | with_reducible intro _

theorem authCap_moves {m : Nat} {r s : State} (hm : 25116250 ||| m = m) (h : Moves m r s)   :
    Moves m r (Sys2Proof.Machine.authCap s) := by
  unfold Sys2Proof.Machine.authCap
  repeat' first
    | with_reducible assumption
    | with_reducible refine faultCond_moves ?_ ?_ _ _

theorem execGrantVisit_moves {m : Nat} {r s : State} (hm : 12588548 ||| m = m) (h : Moves m r s) (x0 : _) (x1 : _)  :
    MovesOut m r (Sys2Proof.Machine.execGrantVisit x0 x1 s) := by
  unfold Sys2Proof.Machine.execGrantVisit
  try dsimp only
  repeat' first
    | with_reducible assumption
    | (with_reducible refine mask_sub hm ?_); exact rfl
    | with_reducible refine emitDue_moves ?_ ?_ _ _ _ _ _ _
    | with_reducible refine grantSet_moves ?_ ?_ _ _
    | with_reducible refine ptpCount_moves ?_ ?_ _ _ _
    | with_reducible refine grantPut_moves ?_ ?_ _ _
    | with_reducible refine atTick_moves ?_ ?_ _
    | with_reducible refine Moves.ite ?_ ?_
    | with_reducible refine Moves.dite ?_ ?_
    | with_reducible refine Moves.ite_snd ?_ ?_
    | with_reducible refine Moves.foldl ?_ _ ?_
    | with_reducible refine Moves.foldl_snd ?_ _ ?_
    | with_reducible refine Moves.elim _ ?_ ?_
    | with_reducible refine MovesOut.next ?_
    | with_reducible refine MovesOut.ite ?_ ?_
    | with_reducible intro _
    | split

theorem authTrim_moves {m : Nat} {r s : State} (hm : 13440512 ||| m = m) (h : Moves m r s)   :
    Moves m r (Sys2Proof.Machine.authTrim s) := by
  unfold Sys2Proof.Machine.authTrim
  repeat' first
    | with_reducible assumption
    | (with_reducible refine mask_sub hm ?_); exact rfl
    | with_reducible refine cancelGrant_moves ?_ ?_ _ _
    | with_reducible refine ptpHist_moves ?_ ?_ _ _
    | with_reducible refine raiseOwn_moves ?_ ?_ _ _
    | with_reducible refine Moves.ite ?_ ?_
    | with_reducible refine Moves.dite ?_ ?_
    | with_reducible refine Moves.ite_snd ?_ ?_
    | with_reducible refine Moves.foldl ?_ _ ?_
    | with_reducible refine Moves.foldl_snd ?_ _ ?_
    | with_reducible refine Moves.elim _ ?_ ?_
    | with_reducible intro _

theorem execCryptoSelfTest_moves {m : Nat} {r s : State} (hm : 33504858 ||| m = m) (h : Moves m r s) (x0 : _) (x1 : _)  :
    MovesOut m r (Sys2Proof.Machine.execCryptoSelfTest x0 x1 s) := by
  unfold Sys2Proof.Machine.execCryptoSelfTest
  repeat' first
    | with_reducible assumption
    | (with_reducible refine mask_sub hm ?_); exact rfl
    | with_reducible refine faultCond_moves ?_ ?_ _ _
    | with_reducible refine authCap_moves ?_ ?_ 
    | with_reducible refine authTrim_moves ?_ ?_ 
    | with_reducible refine onServ_moves ?_ ?_ _ ?_
    | with_reducible refine raise_moves ?_ ?_ _
    | exact ServOn.same rfl rfl
    | with_reducible refine ServOn.ite ?_ ?_
    | with_reducible refine Moves.ite ?_ ?_
    | with_reducible refine Moves.dite ?_ ?_
    | with_reducible refine Moves.ite_snd ?_ ?_
    | with_reducible refine Moves.foldl ?_ _ ?_
    | with_reducible refine Moves.foldl_snd ?_ _ ?_
    | with_reducible refine Moves.elim _ ?_ ?_
    | with_reducible refine MovesOut.next ?_
    | with_reducible refine MovesOut.ite ?_ ?_

end Sys2Proof.Laws
end

