-- ==== Sys2Proof/Laws/MovesClient.lean ====
section
/-!
SUPPORT. What each function of Machine/Client may change, as `Moves`.
-/
namespace Sys2Proof.Laws
open Sys2Proof Sys2Proof.Machine

theorem clientSecond_moves {m : Nat} {r s : State} (hm : 4096 ||| m = m) (h : Moves m r s)   :
    Moves m r (Sys2Proof.Machine.clientSecond s) := by
  unfold Sys2Proof.Machine.clientSecond
  repeat' first
    | with_reducible assumption
    | with_reducible refine onPtp_moves ?_ ?_ _ ?_
    | exact PtpOn.same rfl rfl
    | with_reducible refine Moves.ite ?_ ?_
    | with_reducible refine Moves.dite ?_ ?_
    | with_reducible refine Moves.ite_snd ?_ ?_
    | with_reducible refine Moves.foldl ?_ _ ?_
    | with_reducible refine Moves.foldl_snd ?_ _ ?_
    | with_reducible refine Moves.elim _ ?_ ?_
    | with_reducible intro _

theorem onClient_moves {m : Nat} {r s : State} (hm : 4096 ||| m = m) (h : Moves m r s) (x0 : _) (x1 : _)  :
    Moves m r (Sys2Proof.Machine.onClient x0 x1 s) := by
  unfold Sys2Proof.Machine.onClient
  repeat' first
    | with_reducible assumption
    | with_reducible refine onPtp_moves ?_ ?_ _ ?_
    | exact PtpOn.same rfl rfl
    | with_reducible refine Moves.ite ?_ ?_
    | with_reducible refine Moves.dite ?_ ?_
    | with_reducible refine Moves.ite_snd ?_ ?_
    | with_reducible refine Moves.foldl ?_ _ ?_
    | with_reducible refine Moves.foldl_snd ?_ _ ?_
    | with_reducible refine Moves.elim _ ?_ ?_
    | with_reducible intro _

theorem onCand_moves {m : Nat} {r s : State} (hm : 4096 ||| m = m) (h : Moves m r s) (x0 : _) (x1 : _) (x2 : _)  :
    Moves m r (Sys2Proof.Machine.onCand x0 x1 x2 s) := by
  unfold Sys2Proof.Machine.onCand
  repeat' first
    | with_reducible assumption
    | with_reducible refine onClient_moves ?_ ?_ _ _

theorem clientCancelled_moves {m : Nat} {r s : State} (hm : 4096 ||| m = m) (h : Moves m r s) (x0 : _) (x1 : _) (x2 : _)  :
    Moves m r (Sys2Proof.Machine.clientCancelled x0 x1 x2 s) := by
  unfold Sys2Proof.Machine.clientCancelled
  repeat' first
    | with_reducible assumption
    | with_reducible refine onCand_moves ?_ ?_ _ _ _

theorem clientGranted_moves {m : Nat} {r s : State} (hm : 4096 ||| m = m) (h : Moves m r s) (x0 : _) (x1 : _) (x2 : _) (x3 : _) (x4 : _)  :
    Moves m r (Sys2Proof.Machine.clientGranted x0 x1 x2 x3 x4 s) := by
  unfold Sys2Proof.Machine.clientGranted
  repeat' first
    | with_reducible assumption
    | with_reducible refine onCand_moves ?_ ?_ _ _ _

theorem clientCount_moves {m : Nat} {r s : State} (hm : 4194304 ||| m = m) (h : Moves m r s) (x0 : _) (x1 : _)  :
    Moves m r (Sys2Proof.Machine.clientCount x0 x1 s) := by
  unfold Sys2Proof.Machine.clientCount
  repeat' first
    | with_reducible assumption
    | with_reducible refine count_moves ?_ ?_ _ _

theorem clientMeasure_moves {m : Nat} {r s : State} (hm : 4198416 ||| m = m) (h : Moves m r s) (x0 : _) (x1 : _) (x2 : _) (x3 : _) (x4 : _)  :
    Moves m r (Sys2Proof.Machine.clientMeasure x0 x1 x2 x3 x4 s) := by
  unfold Sys2Proof.Machine.clientMeasure
  repeat' first
    | with_reducible assumption
    | (with_reducible refine mask_sub hm ?_); exact rfl
    | with_reducible refine onSlot_moves ?_ ?_ _ _
    | with_reducible refine pushMeas_moves ?_ ?_ _ _ _ _
    | with_reducible refine clientCount_moves ?_ ?_ _ _
    | with_reducible refine onClient_moves ?_ ?_ _ _

theorem clientChoose_moves {m : Nat} {r s : State} (hm : 856080 ||| m = m) (h : Moves m r s) (x0 : _)  :
    Moves m r (Sys2Proof.Machine.clientChoose x0 s) := by
  unfold Sys2Proof.Machine.clientChoose
  repeat' first
    | with_reducible assumption
    | (with_reducible refine mask_sub hm ?_); exact rfl
    | with_reducible refine ptpHist_moves ?_ ?_ _ _
    | with_reducible refine configured_moves ?_ ?_ _
    | with_reducible refine raise_moves ?_ ?_ _
    | with_reducible refine onClient_moves ?_ ?_ _ _
    | with_reducible refine Moves.ite ?_ ?_

theorem clientMessage_moves {m : Nat} {r s : State} (hm : 5050388 ||| m = m) (h : Moves m r s) (x0 : _) (x1 : _) (x2 : _) (x3 : _)  :
    Moves m r (Sys2Proof.Machine.clientMessage x0 x1 x2 x3 s) := by
  unfold Sys2Proof.Machine.clientMessage
  try dsimp only
  repeat' first
    | with_reducible assumption
    | (with_reducible refine mask_sub hm ?_); exact rfl
    | with_reducible refine clientCancelled_moves ?_ ?_ _ _ _
    | with_reducible refine clientGranted_moves ?_ ?_ _ _ _ _ _
    | with_reducible refine clientMeasure_moves ?_ ?_ _ _ _ _ _
    | with_reducible refine onClient_moves ?_ ?_ _ _
    | with_reducible refine utcFrom_moves ?_ ?_ _
    | with_reducible refine onCand_moves ?_ ?_ _ _ _
    | with_reducible refine clientChoose_moves ?_ ?_ _
    | with_reducible refine clientCount_moves ?_ ?_ _ _
    | with_reducible refine Moves.ite ?_ ?_
    | with_reducible refine Moves.dite ?_ ?_
    | with_reducible refine Moves.ite_snd ?_ ?_
    | with_reducible refine Moves.foldl ?_ _ ?_
    | with_reducible refine Moves.foldl_snd ?_ _ ?_
    | with_reducible refine Moves.elim _ ?_ ?_
    | with_reducible intro _
    | split

theorem clientFrame_moves {m : Nat} {r s : State} (hm : 25116254 ||| m = m) (h : Moves m r s) (x0 : _) (x1 : _) (x2 : _) (x3 : _)  :
    Moves m r (Sys2Proof.Machine.clientFrame x0 x1 x2 x3 s) := by
  unfold Sys2Proof.Machine.clientFrame
  try dsimp only
  repeat' first
    | with_reducible assumption
    | (with_reducible refine mask_sub hm ?_); exact rfl
    | with_reducible refine onClient_moves ?_ ?_ _ _
    | with_reducible refine clientMessage_moves ?_ ?_ _ _ _ _
    | with_reducible refine clientCount_moves ?_ ?_ _ _
    | with_reducible refine authFail_moves ?_ ?_ _ _
    | with_reducible refine faultEvent_moves ?_ ?_ _
    | with_reducible refine onCand_moves ?_ ?_ _ _ _
    | with_reducible refine Moves.ite ?_ ?_
    | with_reducible refine Moves.dite ?_ ?_
    | with_reducible refine Moves.ite_snd ?_ ?_
    | with_reducible refine Moves.foldl ?_ _ ?_
    | with_reducible refine Moves.foldl_snd ?_ _ ?_
    | with_reducible refine Moves.elim _ ?_ ?_
    | with_reducible intro _
    | split

theorem ptpFrame_moves {m : Nat} {r s : State} (hm : 33504862 ||| m = m) (h : Moves m r s) (x0 : _) (x1 : _) (x2 : _)  :
    ∀ p, (Sys2Proof.Machine.ptpFrame x0 x1 x2 s) = some p → Moves m r p := by
  intro p e
  unfold Sys2Proof.Machine.ptpFrame at e
  split at e
  · cases e
  · obtain ⟨k, _, rfl⟩ := Option.map_eq_some_iff.mp e
    exact ptpCount_moves (mask_sub hm rfl) h _ _ _
  · split at e
    · cases e
    · split at e
      · cases e; exact clientFrame_moves (mask_sub hm rfl) h _ _ _ _
      · split at e
        · cases e; exact instMessage_moves (mask_sub hm rfl) h _ _ _ _ _ _ _
        · obtain ⟨k, _, rfl⟩ := Option.map_eq_some_iff.mp e
          exact ptpCount_moves (mask_sub hm rfl) h _ _ _

theorem grantLoad_moves {m : Nat} {r s : State} (hm : 593920 ||| m = m) (h : Moves m r s) (x0 : _)  :
    Moves m r (Sys2Proof.Machine.grantLoad x0 s).2 := by
  unfold Sys2Proof.Machine.grantLoad
  dsimp only
  generalize (if x0.ipv6 = true then NetAddr.v6 x0.addr else _) = a
  split
  · exact h
  · split
    · exact h
    · split
      · exact h
      · rename_i e1
        have h1 := placeGrant_moves (mask_sub hm rfl) h _ _ _ _ e1
        split
        · exact h
        · rename_i e2
          exact tableHigh_moves (mask_sub hm rfl) (grantPut_moves (mask_sub hm rfl) (nhTake_moves (mask_sub hm rfl) h1 _ _ e2) _ _) _ _

theorem grantLoads_moves {m : Nat} {r s : State} (hm : 593920 ||| m = m) (h : Moves m r s) (x0 : _)  :
    Moves m r (Sys2Proof.Machine.grantLoads x0 s).2 := by
  unfold Sys2Proof.Machine.grantLoads
  repeat' first
    | with_reducible assumption
    | with_reducible refine grantLoad_moves ?_ ?_ _
    | with_reducible refine Moves.ite ?_ ?_
    | with_reducible refine Moves.dite ?_ ?_
    | with_reducible refine Moves.ite_snd ?_ ?_
    | with_reducible refine Moves.foldl ?_ _ ?_
    | with_reducible refine Moves.foldl_snd ?_ _ ?_
    | with_reducible refine Moves.elim _ ?_ ?_
    | with_reducible intro _

theorem execIcpPtpGrantCancel_moves {m : Nat} {r s : State} (hm : 14620160 ||| m = m) (h : Moves m r s) (x0 : _) (x1 : _) (x2 : _)  :
    MovesOut m r (Sys2Proof.Machine.execIcpPtpGrantCancel x0 x1 x2 s) := by
  unfold Sys2Proof.Machine.execIcpPtpGrantCancel
  repeat' first
    | with_reducible assumption
    | (with_reducible refine mask_sub hm ?_); exact rfl
    | with_reducible refine cancelAll_moves ?_ ?_ _
    | with_reducible refine icp_moves ?_ ?_ _ _ _ ?_
    | with_reducible refine Moves.ite ?_ ?_
    | with_reducible refine Moves.dite ?_ ?_
    | with_reducible refine Moves.ite_snd ?_ ?_
    | with_reducible refine Moves.foldl ?_ _ ?_
    | with_reducible refine Moves.foldl_snd ?_ _ ?_
    | with_reducible refine Moves.elim _ ?_ ?_
    | with_reducible refine MovesOut.next ?_
    | with_reducible refine MovesOut.ite ?_ ?_
    | with_reducible refine MovesRes.ite ?_ ?_
    | with_reducible refine MovesRes.done ?_
    | with_reducible refine MovesRes.later ?_
    | with_reducible intro _

theorem putInst_moves {m : Nat} {r s : State} (hm : 4096 ||| m = m) (h : Moves m r s) (x0 : _) (x1 : _)  :
    Moves m r (Sys2Proof.Machine.putInst x0 x1 s) := by
  unfold Sys2Proof.Machine.putInst
  try dsimp only
  repeat' first
    | with_reducible assumption
    | with_reducible refine onPtp_moves ?_ ?_ _ ?_
    | exact PtpOn.same rfl rfl
    | with_reducible refine Moves.ite ?_ ?_
    | with_reducible refine Moves.dite ?_ ?_
    | with_reducible refine Moves.ite_snd ?_ ?_
    | with_reducible refine Moves.foldl ?_ _ ?_
    | with_reducible refine Moves.foldl_snd ?_ _ ?_
    | with_reducible refine Moves.elim _ ?_ ?_
    | with_reducible intro _
    | split

theorem instDelete_moves {m : Nat} {r s : State} (hm : 12588544 ||| m = m) (h : Moves m r s) (x0 : _)  :
    Moves m r (Sys2Proof.Machine.instDelete x0 s) := by
  unfold Sys2Proof.Machine.instDelete
  repeat' first
    | with_reducible assumption
    | (with_reducible refine mask_sub hm ?_); exact rfl
    | with_reducible refine cancelAll_moves ?_ ?_ _
    | with_reducible refine putInst_moves ?_ ?_ _ _

theorem addrGrants_moves {m : Nat} {r s : State} (hm : 4096 ||| m = m) (h : Moves m r s) (x0 : _) (x1 : _)  :
    Moves m r (Sys2Proof.Machine.addrGrants x0 x1 s) := by
  unfold Sys2Proof.Machine.addrGrants
  repeat' first
    | with_reducible assumption
    | with_reducible refine onPtp_moves ?_ ?_ _ ?_
    | with_reducible refine nhFree_moves ?_ ?_ 
    | exact ⟨fun e => mwf_filter _ _ _ e, id⟩
    | exact PtpOn.same rfl rfl
    | with_reducible refine Moves.ite ?_ ?_
    | with_reducible refine Moves.dite ?_ ?_
    | with_reducible refine Moves.ite_snd ?_ ?_
    | with_reducible refine Moves.foldl ?_ _ ?_
    | with_reducible refine Moves.foldl_snd ?_ _ ?_
    | with_reducible refine Moves.elim _ ?_ ?_
    | with_reducible intro _

theorem addrDelete_moves {m : Nat} {r s : State} (hm : 6144 ||| m = m) (h : Moves m r s) (x0 : _) (x1 : _)  :
    Moves m r (Sys2Proof.Machine.addrDelete x0 x1 s) := by
  unfold Sys2Proof.Machine.addrDelete
  repeat' first
    | with_reducible assumption
    | (with_reducible refine mask_sub hm ?_); exact rfl
    | with_reducible refine onServSlot_moves ?_ ?_ _ _ ?_
    | with_reducible refine addrGrants_moves ?_ ?_ _ _
    | exact ServOn.addr rfl rfl (by intro _ e; cases e)

theorem execIcpPtpGrantLoad_moves {m : Nat} {r s : State} (hm : 2035712 ||| m = m) (h : Moves m r s) (x0 : _) (x1 : _) (x2 : _) (x3 : _)  :
    MovesOut m r (Sys2Proof.Machine.execIcpPtpGrantLoad x0 x1 x2 x3 s) := by
  unfold Sys2Proof.Machine.execIcpPtpGrantLoad
  repeat' first
    | with_reducible assumption
    | (with_reducible refine mask_sub hm ?_); exact rfl
    | with_reducible refine grantLoads_moves ?_ ?_ _
    | with_reducible refine icp_moves ?_ ?_ _ _ _ ?_
    | with_reducible refine Moves.ite ?_ ?_
    | with_reducible refine Moves.dite ?_ ?_
    | with_reducible refine Moves.ite_snd ?_ ?_
    | with_reducible refine Moves.foldl ?_ _ ?_
    | with_reducible refine Moves.foldl_snd ?_ _ ?_
    | with_reducible refine Moves.elim _ ?_ ?_
    | with_reducible refine MovesOut.next ?_
    | with_reducible refine MovesOut.ite ?_ ?_
    | with_reducible refine MovesRes.ite ?_ ?_
    | with_reducible refine MovesRes.done ?_
    | with_reducible refine MovesRes.later ?_
    | with_reducible intro _

theorem clientSend_moves {m : Nat} {r s : State} (hm : 12588544 ||| m = m) (h : Moves m r s) (x0 : _) (x1 : _)  :
    Moves m r (Sys2Proof.Machine.clientSend x0 x1 s) := by
  unfold Sys2Proof.Machine.clientSend
  repeat' first
    | with_reducible assumption
    | with_reducible refine ptpSend_moves ?_ ?_ _ _ _ _ _ _ _

theorem clientAsk_moves {m : Nat} {r s : State} (hm : 12588544 ||| m = m) (h : Moves m r s) (x0 : _) (x1 : _) (x2 : _) (x3 : _)  :
    Moves m r (Sys2Proof.Machine.clientAsk x0 x1 x2 x3 s) := by
  unfold Sys2Proof.Machine.clientAsk
  try dsimp only
  repeat' first
    | with_reducible assumption
    | (with_reducible refine mask_sub hm ?_); exact rfl
    | with_reducible refine onCand_moves ?_ ?_ _ _ _
    | with_reducible refine clientSend_moves ?_ ?_ _ _
    | with_reducible refine Moves.ite ?_ ?_
    | with_reducible refine Moves.dite ?_ ?_
    | with_reducible refine Moves.ite_snd ?_ ?_
    | with_reducible refine Moves.foldl ?_ _ ?_
    | with_reducible refine Moves.foldl_snd ?_ _ ?_
    | with_reducible refine Moves.elim _ ?_ ?_
    | with_reducible intro _
    | split

theorem clientSet_moves {m : Nat} {r s : State} (hm : 13440528 ||| m = m) (h : Moves m r s) (x0 : _) (x1 : _)  :
    Moves m r (Sys2Proof.Machine.clientSet x0 x1 s) := by
  unfold Sys2Proof.Machine.clientSet
  repeat' first
    | with_reducible assumption
    | (with_reducible refine mask_sub hm ?_); exact rfl
    | with_reducible refine configured_moves ?_ ?_ _
    | with_reducible refine clientAsk_moves ?_ ?_ _ _ _ _
    | with_reducible refine onClient_moves ?_ ?_ _ _
    | with_reducible refine Moves.ite ?_ ?_
    | with_reducible refine Moves.dite ?_ ?_
    | with_reducible refine Moves.ite_snd ?_ ?_
    | with_reducible refine Moves.foldl ?_ _ ?_
    | with_reducible refine Moves.foldl_snd ?_ _ ?_
    | with_reducible refine Moves.elim _ ?_ ?_
    | with_reducible intro _

theorem execIcpPtpClientConfig_moves {m : Nat} {r s : State} (hm : 14620176 ||| m = m) (h : Moves m r s) (x0 : _) (x1 : _)  :
    MovesOut m r (Sys2Proof.Machine.execIcpPtpClientConfig x0 x1 s) := by
  unfold Sys2Proof.Machine.execIcpPtpClientConfig
  try dsimp only
  repeat' first
    | with_reducible assumption
    | (with_reducible refine mask_sub hm ?_); exact rfl
    | with_reducible refine clientSet_moves ?_ ?_ _ _
    | with_reducible refine icpDo_moves ?_ ?_ _ _ _ _ _ ?_
    | with_reducible refine Moves.ite ?_ ?_
    | with_reducible refine Moves.self ?_
    | with_reducible refine Moves.dite ?_ ?_
    | with_reducible refine Moves.ite_snd ?_ ?_
    | with_reducible refine Moves.foldl ?_ _ ?_
    | with_reducible refine Moves.foldl_snd ?_ _ ?_
    | with_reducible refine Moves.elim _ ?_ ?_
    | with_reducible refine MovesOut.next ?_
    | with_reducible refine MovesOut.ite ?_ ?_
    | with_reducible intro _
    | split

theorem execIcpPtpBudget_moves {m : Nat} {r s : State} (hm : 25116250 ||| m = m) (h : Moves m r s) (x0 : _) (x1 : _)  :
    MovesOut m r (Sys2Proof.Machine.execIcpPtpBudget x0 x1 s) := by
  unfold Sys2Proof.Machine.execIcpPtpBudget
  repeat' first
    | with_reducible assumption
    | (with_reducible refine mask_sub hm ?_); exact rfl
    | with_reducible refine onPtp_moves ?_ ?_ _ ?_
    | with_reducible refine authCap_moves ?_ ?_ 
    | with_reducible refine icpDo_moves ?_ ?_ _ _ _ _ _ ?_
    | exact PtpOn.same rfl rfl
    | with_reducible refine Moves.ite ?_ ?_
    | with_reducible refine Moves.self ?_
    | with_reducible refine Moves.dite ?_ ?_
    | with_reducible refine Moves.ite_snd ?_ ?_
    | with_reducible refine Moves.foldl ?_ _ ?_
    | with_reducible refine Moves.foldl_snd ?_ _ ?_
    | with_reducible refine Moves.elim _ ?_ ?_
    | with_reducible refine MovesOut.next ?_
    | with_reducible refine MovesOut.ite ?_ ?_
    | with_reducible intro _

theorem execIcpPtpStatus_moves {m : Nat} {r s : State} (hm : 2031616 ||| m = m) (h : Moves m r s) (x0 : _)  :
    MovesOut m r (Sys2Proof.Machine.execIcpPtpStatus x0 s) := by
  unfold Sys2Proof.Machine.execIcpPtpStatus
  repeat' first
    | with_reducible assumption
    | with_reducible refine icpGet_moves ?_ ?_ _ _ _

theorem execClientRenewal_moves {m : Nat} {r s : State} (hm : 12588548 ||| m = m) (h : Moves m r s) (x0 : _) (x1 : _) (x2 : _)  :
    MovesOut m r (Sys2Proof.Machine.execClientRenewal x0 x1 x2 s) := by
  unfold Sys2Proof.Machine.execClientRenewal
  try dsimp only
  repeat' first
    | with_reducible assumption
    | (with_reducible refine mask_sub hm ?_); exact rfl
    | with_reducible refine atQ_moves ?_ ?_ _
    | with_reducible refine clientAsk_moves ?_ ?_ _ _ _ _
    | with_reducible refine Moves.ite ?_ ?_
    | with_reducible refine Moves.dite ?_ ?_
    | with_reducible refine Moves.ite_snd ?_ ?_
    | with_reducible refine Moves.foldl ?_ _ ?_
    | with_reducible refine Moves.foldl_snd ?_ _ ?_
    | with_reducible refine Moves.elim _ ?_ ?_
    | with_reducible refine MovesOut.next ?_
    | with_reducible refine MovesOut.ite ?_ ?_
    | with_reducible intro _
    | split

theorem execIcpPtpGrantRead_moves {m : Nat} {r s : State} (hm : 2031616 ||| m = m) (h : Moves m r s) (x0 : _) (x1 : _) (x2 : _) (x3 : _)  :
    MovesOut m r (Sys2Proof.Machine.execIcpPtpGrantRead x0 x1 x2 x3 s) := by
  unfold Sys2Proof.Machine.execIcpPtpGrantRead
  repeat' first
    | with_reducible assumption
    | with_reducible refine icpDo_moves ?_ ?_ _ _ _ _ _ ?_
    | with_reducible refine Moves.ite ?_ ?_
    | with_reducible refine Moves.self ?_
    | with_reducible refine Moves.dite ?_ ?_
    | with_reducible refine Moves.ite_snd ?_ ?_
    | with_reducible refine Moves.foldl ?_ _ ?_
    | with_reducible refine Moves.foldl_snd ?_ _ ?_
    | with_reducible refine Moves.elim _ ?_ ?_
    | with_reducible refine MovesOut.next ?_
    | with_reducible refine MovesOut.ite ?_ ?_
    | with_reducible intro _

theorem execIcpPtpQuota_moves {m : Nat} {r s : State} (hm : 2035712 ||| m = m) (h : Moves m r s) (x0 : _) (x1 : _) (x2 : _) (x3 : _) (x4 : _)  :
    MovesOut m r (Sys2Proof.Machine.execIcpPtpQuota x0 x1 x2 x3 x4 s) := by
  unfold Sys2Proof.Machine.execIcpPtpQuota
  try dsimp only
  repeat' first
    | with_reducible assumption
    | (with_reducible refine mask_sub hm ?_); exact rfl
    | with_reducible refine onPtpSlot_moves ?_ ?_ _ _
    | with_reducible refine icpDo_moves ?_ ?_ _ _ _ _ _ ?_
    | with_reducible refine Moves.ite ?_ ?_
    | with_reducible refine Moves.self ?_
    | with_reducible refine Moves.dite ?_ ?_
    | with_reducible refine Moves.ite_snd ?_ ?_
    | with_reducible refine Moves.foldl ?_ _ ?_
    | with_reducible refine Moves.foldl_snd ?_ _ ?_
    | with_reducible refine Moves.elim _ ?_ ?_
    | with_reducible refine MovesOut.next ?_
    | with_reducible refine MovesOut.ite ?_ ?_
    | with_reducible intro _
    | split

theorem execIcpPtpInstanceDel_moves {m : Nat} {r s : State} (hm : 14620160 ||| m = m) (h : Moves m r s) (x0 : _) (x1 : _) (x2 : _)  :
    MovesOut m r (Sys2Proof.Machine.execIcpPtpInstanceDel x0 x1 x2 s) := by
  unfold Sys2Proof.Machine.execIcpPtpInstanceDel
  repeat' first
    | with_reducible assumption
    | (with_reducible refine mask_sub hm ?_); exact rfl
    | with_reducible refine instDelete_moves ?_ ?_ _
    | with_reducible refine icpDo_moves ?_ ?_ _ _ _ _ _ ?_
    | with_reducible refine Moves.ite ?_ ?_
    | with_reducible refine Moves.self ?_
    | with_reducible refine Moves.dite ?_ ?_
    | with_reducible refine Moves.ite_snd ?_ ?_
    | with_reducible refine Moves.foldl ?_ _ ?_
    | with_reducible refine Moves.foldl_snd ?_ _ ?_
    | with_reducible refine Moves.elim _ ?_ ?_
    | with_reducible refine MovesOut.next ?_
    | with_reducible refine MovesOut.ite ?_ ?_
    | with_reducible intro _

theorem execIcpPtpInstanceSet_moves {m : Nat} {r s : State} (hm : 2035712 ||| m = m) (h : Moves m r s) (x0 : _) (x1 : _)  :
    MovesOut m r (Sys2Proof.Machine.execIcpPtpInstanceSet x0 x1 s) := by
  unfold Sys2Proof.Machine.execIcpPtpInstanceSet
  repeat' first
    | with_reducible assumption
    | (with_reducible refine mask_sub hm ?_); exact rfl
    | with_reducible refine putInst_moves ?_ ?_ _ _
    | with_reducible refine icpDo_moves ?_ ?_ _ _ _ _ _ ?_
    | with_reducible refine Moves.ite ?_ ?_
    | with_reducible refine Moves.self ?_
    | with_reducible refine Moves.dite ?_ ?_
    | with_reducible refine Moves.ite_snd ?_ ?_
    | with_reducible refine Moves.foldl ?_ _ ?_
    | with_reducible refine Moves.foldl_snd ?_ _ ?_
    | with_reducible refine Moves.elim _ ?_ ?_
    | with_reducible refine MovesOut.next ?_
    | with_reducible refine MovesOut.ite ?_ ?_
    | with_reducible intro _

theorem execIcpPtpClockConfig_moves {m : Nat} {r s : State} (hm : 2035712 ||| m = m) (h : Moves m r s) (x0 : _) (x1 : _)  :
    MovesOut m r (Sys2Proof.Machine.execIcpPtpClockConfig x0 x1 s) := by
  unfold Sys2Proof.Machine.execIcpPtpClockConfig
  repeat' first
    | with_reducible assumption
    | (with_reducible refine mask_sub hm ?_); exact rfl
    | with_reducible refine onPtp_moves ?_ ?_ _ ?_
    | with_reducible refine icpDo_moves ?_ ?_ _ _ _ _ _ ?_
    | exact PtpOn.same rfl rfl
    | with_reducible refine Moves.ite ?_ ?_
    | with_reducible refine Moves.self ?_
    | with_reducible refine Moves.dite ?_ ?_
    | with_reducible refine Moves.ite_snd ?_ ?_
    | with_reducible refine Moves.foldl ?_ _ ?_
    | with_reducible refine Moves.foldl_snd ?_ _ ?_
    | with_reducible refine Moves.elim _ ?_ ?_
    | with_reducible refine MovesOut.next ?_
    | with_reducible refine MovesOut.ite ?_ ?_
    | with_reducible intro _

theorem execIcpServAddrDel_moves {m : Nat} {r s : State} (hm : 2037760 ||| m = m) (h : Moves m r s) (x0 : _) (x1 : _) (x2 : _)  :
    MovesOut m r (Sys2Proof.Machine.execIcpServAddrDel x0 x1 x2 s) := by
  unfold Sys2Proof.Machine.execIcpServAddrDel
  try dsimp only
  repeat' first
    | with_reducible assumption
    | (with_reducible refine mask_sub hm ?_); exact rfl
    | with_reducible refine addrDelete_moves ?_ ?_ _ _
    | with_reducible refine icpDo_moves ?_ ?_ _ _ _ _ _ ?_
    | with_reducible refine Moves.ite ?_ ?_
    | with_reducible refine Moves.self ?_
    | with_reducible refine Moves.dite ?_ ?_
    | with_reducible refine Moves.ite_snd ?_ ?_
    | with_reducible refine Moves.foldl ?_ _ ?_
    | with_reducible refine Moves.foldl_snd ?_ _ ?_
    | with_reducible refine Moves.elim _ ?_ ?_
    | with_reducible refine MovesOut.next ?_
    | with_reducible refine MovesOut.ite ?_ ?_
    | with_reducible intro _
    | split

theorem execClientAnnounceTimeout_moves {m : Nat} {r s : State} (hm : 856084 ||| m = m) (h : Moves m r s) (x0 : _) (x1 : _)  :
    MovesOut m r (Sys2Proof.Machine.execClientAnnounceTimeout x0 x1 s) := by
  unfold Sys2Proof.Machine.execClientAnnounceTimeout
  try dsimp only
  repeat' first
    | with_reducible assumption
    | (with_reducible refine mask_sub hm ?_); exact rfl
    | with_reducible refine atQ_moves ?_ ?_ _
    | with_reducible refine clientChoose_moves ?_ ?_ _
    | with_reducible refine Moves.ite ?_ ?_
    | with_reducible refine Moves.dite ?_ ?_
    | with_reducible refine Moves.ite_snd ?_ ?_
    | with_reducible refine Moves.foldl ?_ _ ?_
    | with_reducible refine Moves.foldl_snd ?_ _ ?_
    | with_reducible refine Moves.elim _ ?_ ?_
    | with_reducible refine MovesOut.next ?_
    | with_reducible refine MovesOut.ite ?_ ?_
    | with_reducible intro _
    | split

theorem execClientDelayReqSend_moves {m : Nat} {r s : State} (hm : 12588548 ||| m = m) (h : Moves m r s) (x0 : _)  :
    MovesOut m r (Sys2Proof.Machine.execClientDelayReqSend x0 s) := by
  unfold Sys2Proof.Machine.execClientDelayReqSend
  try dsimp only
  repeat' first
    | with_reducible assumption
    | (with_reducible refine mask_sub hm ?_); exact rfl
    | with_reducible refine onClient_moves ?_ ?_ _ _
    | with_reducible refine clientSend_moves ?_ ?_ _ _
    | with_reducible refine atQ_moves ?_ ?_ _
    | with_reducible refine Moves.ite ?_ ?_
    | with_reducible refine Moves.dite ?_ ?_
    | with_reducible refine Moves.ite_snd ?_ ?_
    | with_reducible refine Moves.foldl ?_ _ ?_
    | with_reducible refine Moves.foldl_snd ?_ _ ?_
    | with_reducible refine Moves.elim _ ?_ ?_
    | with_reducible refine MovesOut.next ?_
    | with_reducible refine MovesOut.ite ?_ ?_
    | with_reducible intro _
    | split

theorem execClientRequestRetry_moves {m : Nat} {r s : State} (hm : 12588548 ||| m = m) (h : Moves m r s) (x0 : _) (x1 : _)  :
    MovesOut m r (Sys2Proof.Machine.execClientRequestRetry x0 x1 s) := by
  unfold Sys2Proof.Machine.execClientRequestRetry
  try dsimp only
  repeat' first
    | with_reducible assumption
    | (with_reducible refine mask_sub hm ?_); exact rfl
    | with_reducible refine atQ_moves ?_ ?_ _
    | with_reducible refine clientAsk_moves ?_ ?_ _ _ _ _
    | with_reducible refine Moves.ite ?_ ?_
    | with_reducible refine Moves.dite ?_ ?_
    | with_reducible refine Moves.ite_snd ?_ ?_
    | with_reducible refine Moves.foldl ?_ _ ?_
    | with_reducible refine Moves.foldl_snd ?_ _ ?_
    | with_reducible refine Moves.elim _ ?_ ?_
    | with_reducible refine MovesOut.next ?_
    | with_reducible refine MovesOut.ite ?_ ?_
    | with_reducible intro _
    | split

end Sys2Proof.Laws
end

