-- ==== Sys2Proof/Laws/MovesPorts.lean ====
section
/-!
SUPPORT. What each function of Machine/Ports may change, as `Moves`.
-/
namespace Sys2Proof.Laws
open Sys2Proof Sys2Proof.Machine

theorem portSecond_moves {m : Nat} {r s : State} (hm : 6227456 ||| m = m) (h : Moves m r s) (x0 : _)  :
    Moves m r (Sys2Proof.Machine.portSecond x0 s) := by
  unfold Sys2Proof.Machine.portSecond
  repeat' first
    | with_reducible assumption
    | with_reducible refine ctlSend_moves ?_ ?_ _ _
    | with_reducible refine Moves.ite ?_ ?_

theorem txRingEnd_moves {m : Nat} {r s : State} (hm : 6227456 ||| m = m) (h : Moves m r s) (x0 : _) (x1 : _)  :
    Moves m r (Sys2Proof.Machine.txRingEnd x0 x1 s) := by
  unfold Sys2Proof.Machine.txRingEnd
  repeat' first
    | with_reducible assumption
    | (with_reducible refine mask_sub hm ?_); exact rfl
    | with_reducible refine txFlush_moves ?_ ?_ _ _ _
    | with_reducible refine tsqFree_moves ?_ ?_ _ _
    | with_reducible refine onPort_moves ?_ ?_ _ _
    | with_reducible refine txStart_moves ?_ ?_ _

theorem portHist_moves {m : Nat} {r s : State} (hm : 262144 ||| m = m) (h : Moves m r s) (x0 : _) (x1 : _)  :
    Moves m r (Sys2Proof.Machine.portHist x0 x1 s) := by
  unfold Sys2Proof.Machine.portHist
  repeat' first
    | with_reducible assumption
    | with_reducible refine sticky_moves ?_ ?_ _ _

theorem esmcReceive_moves {m : Nat} {r s : State} (hm : 5046784 ||| m = m) (h : Moves m r s) (x0 : _) (x1 : _) (x2 : _)  :
    Moves m r (Sys2Proof.Machine.esmcReceive x0 x1 x2 s) := by
  unfold Sys2Proof.Machine.esmcReceive
  repeat' first
    | with_reducible assumption
    | (with_reducible refine mask_sub hm ?_); exact rfl
    | with_reducible refine portHist_moves ?_ ?_ _ _
    | with_reducible refine raise_moves ?_ ?_ _
    | with_reducible refine onPort_moves ?_ ?_ _ _
    | with_reducible refine portCount_moves ?_ ?_ _ _ _ _
    | with_reducible refine Moves.ite ?_ ?_

theorem pauseLoad_moves {m : Nat} {r s : State} (hm : 4194816 ||| m = m) (h : Moves m r s) (x0 : _) (x1 : _)  :
    Moves m r (Sys2Proof.Machine.pauseLoad x0 x1 s) := by
  unfold Sys2Proof.Machine.pauseLoad
  repeat' first
    | with_reducible assumption
    | (with_reducible refine mask_sub hm ?_); exact rfl
    | with_reducible refine portCount_moves ?_ ?_ _ _ _ _
    | with_reducible refine onPort_moves ?_ ?_ _ _

theorem pauseFrame_moves {m : Nat} {r s : State} (hm : 6227456 ||| m = m) (h : Moves m r s) (x0 : _) (x1 : _)  :
    Moves m r (Sys2Proof.Machine.pauseFrame x0 x1 s) := by
  unfold Sys2Proof.Machine.pauseFrame
  repeat' first
    | with_reducible assumption
    | (with_reducible refine mask_sub hm ?_); exact rfl
    | with_reducible refine pauseLoad_moves ?_ ?_ _ _
    | with_reducible refine txStart_moves ?_ ?_ _
    | with_reducible refine portCount_moves ?_ ?_ _ _ _ _
    | with_reducible refine Moves.ite ?_ ?_

theorem rxDrop_moves {m : Nat} {r s : State} (hm : 4456448 ||| m = m) (h : Moves m r s) (x0 : _) (x1 : _)  :
    Moves m r (Sys2Proof.Machine.rxDrop x0 x1 s) := by
  unfold Sys2Proof.Machine.rxDrop
  repeat' first
    | with_reducible assumption
    | (with_reducible refine mask_sub hm ?_); exact rfl
    | with_reducible refine portCount_moves ?_ ?_ _ _ _ _
    | with_reducible refine portHist_moves ?_ ?_ _ _

theorem xoffCheck_moves {m : Nat} {r s : State} (hm : 6227456 ||| m = m) (h : Moves m r s) (x0 : _)  :
    Moves m r (Sys2Proof.Machine.xoffCheck x0 s) := by
  unfold Sys2Proof.Machine.xoffCheck
  repeat' first
    | with_reducible assumption
    | (with_reducible refine mask_sub hm ?_); exact rfl
    | with_reducible refine onPort_moves ?_ ?_ _ _
    | with_reducible refine ctlSend_moves ?_ ?_ _ _
    | with_reducible refine Moves.ite ?_ ?_

theorem rxStore_moves {m : Nat} {r s : State} (hm : 6227456 ||| m = m) (h : Moves m r s) (x0 : _)  :
    Moves m r (Sys2Proof.Machine.rxStore x0 s) := by
  unfold Sys2Proof.Machine.rxStore
  repeat' first
    | with_reducible assumption
    | (with_reducible refine mask_sub hm ?_); exact rfl
    | with_reducible refine onPort_moves ?_ ?_ _ _
    | with_reducible refine xoffCheck_moves ?_ ?_ _

theorem calReturn_moves {m : Nat} {r s : State} (hm : 1024 ||| m = m) (h : Moves m r s) (x0 : _) (x1 : _)  :
    Moves m r (Sys2Proof.Machine.calReturn x0 x1 s) := by
  unfold Sys2Proof.Machine.calReturn
  try dsimp only
  repeat' first
    | with_reducible assumption
    | with_reducible refine onWayp_moves ?_ ?_ _ _
    | with_reducible refine Moves.ite ?_ ?_
    | with_reducible refine Moves.dite ?_ ?_
    | with_reducible refine Moves.ite_snd ?_ ?_
    | with_reducible refine Moves.foldl ?_ _ ?_
    | with_reducible refine Moves.foldl_snd ?_ _ ?_
    | with_reducible refine Moves.elim _ ?_ ?_
    | with_reducible intro _
    | split

theorem rxDeliver_moves {m : Nat} {r s : State} (hm : 4784640 ||| m = m) (h : Moves m r s) (x0 : _) (x1 : _) (x2 : _) (x3 : _)  :
    Moves m r (Sys2Proof.Machine.rxDeliver x0 x1 x2 x3 s) := by
  unfold Sys2Proof.Machine.rxDeliver
  try dsimp only
  repeat' first
    | with_reducible assumption
    | (with_reducible refine mask_sub hm ?_); exact rfl
    | with_reducible refine raiseTo_moves ?_ ?_ _ _
    | with_reducible refine onPort_moves ?_ ?_ _ _
    | with_reducible refine portCount_moves ?_ ?_ _ _ _ _
    | with_reducible refine Moves.ite ?_ ?_
    | with_reducible refine Moves.dite ?_ ?_
    | with_reducible refine Moves.ite_snd ?_ ?_
    | with_reducible refine Moves.foldl ?_ _ ?_
    | with_reducible refine Moves.foldl_snd ?_ _ ?_
    | with_reducible refine Moves.elim _ ?_ ?_
    | with_reducible intro _
    | split

theorem servFrame_moves {m : Nat} {r s : State} (hm : 31399424 ||| m = m) (h : Moves m r s) (x0 : _) (x1 : _) (x2 : _)  :
    Moves m r (Sys2Proof.Machine.servFrame x0 x1 x2 s) := by
  unfold Sys2Proof.Machine.servFrame
  try dsimp only
  repeat' first
    | with_reducible assumption
    | with_reducible refine servRequest_moves ?_ ?_ _ _ _ _ _ _ _ _ _ _ _
    | with_reducible refine Moves.ite ?_ ?_
    | with_reducible refine Moves.dite ?_ ?_
    | with_reducible refine Moves.ite_snd ?_ ?_
    | with_reducible refine Moves.foldl ?_ _ ?_
    | with_reducible refine Moves.foldl_snd ?_ _ ?_
    | with_reducible refine Moves.elim _ ?_ ?_
    | with_reducible intro _
    | split

theorem classify_moves {m : Nat} {r s : State} (hm : 33504862 ||| m = m) (h : Moves m r s) (x0 : _) (x1 : _)  :
    Moves m r (Sys2Proof.Machine.classify x0 x1 s) := by
  unfold Sys2Proof.Machine.classify
  try dsimp only
  repeat' first
    | with_reducible assumption
    | (with_reducible refine mask_sub hm ?_); exact rfl
    | with_reducible refine calReturn_moves ?_ ?_ _ _
    | with_reducible refine rxDeliver_moves ?_ ?_ _ _ _ _
    | with_reducible refine servFrame_moves ?_ ?_ _ _ _
    | exact ptpFrame_moves (mask_sub hm rfl) h _ _ _ _ (by assumption)
    | with_reducible refine Moves.ite ?_ ?_
    | with_reducible refine Moves.dite ?_ ?_
    | with_reducible refine Moves.ite_snd ?_ ?_
    | with_reducible refine Moves.foldl ?_ _ ?_
    | with_reducible refine Moves.foldl_snd ?_ _ ?_
    | with_reducible refine Moves.elim _ ?_ ?_
    | with_reducible intro _
    | split

theorem execFrameReceive_moves {m : Nat} {r s : State} (hm : 33504862 ||| m = m) (h : Moves m r s) (x0 : _)  :
    MovesOut m r (Sys2Proof.Machine.execFrameReceive x0 s) := by
  unfold Sys2Proof.Machine.execFrameReceive
  try dsimp only
  repeat' first
    | with_reducible assumption
    | (with_reducible refine mask_sub hm ?_); exact rfl
    | with_reducible refine esmcReceive_moves ?_ ?_ _ _ _
    | with_reducible refine pauseFrame_moves ?_ ?_ _ _
    | with_reducible refine rxDrop_moves ?_ ?_ _ _
    | with_reducible refine portCount_moves ?_ ?_ _ _ _ _
    | with_reducible refine rxStore_moves ?_ ?_ _
    | with_reducible refine classify_moves ?_ ?_ _ _
    | with_reducible refine atTick_moves ?_ ?_ _
    | with_reducible refine onPort_moves ?_ ?_ _ _
    | with_reducible refine Moves.ite ?_ ?_
    | with_reducible refine Moves.dite ?_ ?_
    | with_reducible refine Moves.ite_snd ?_ ?_
    | with_reducible refine Moves.foldl ?_ _ ?_
    | with_reducible refine Moves.foldl_snd ?_ _ ?_
    | with_reducible refine Moves.elim _ ?_ ?_
    | with_reducible refine MovesOut.next ?_
    | with_reducible refine MovesOut.ite ?_ ?_
    | with_reducible intro _
    | split

theorem execHostTxDescriptor_moves {m : Nat} {r s : State} (hm : 6227456 ||| m = m) (h : Moves m r s) (x0 : _) (x1 : _)  :
    MovesOut m r (Sys2Proof.Machine.execHostTxDescriptor x0 x1 s) := by
  unfold Sys2Proof.Machine.execHostTxDescriptor
  try dsimp only
  repeat' first
    | with_reducible assumption
    | (with_reducible refine mask_sub hm ?_); exact rfl
    | with_reducible refine txEnd_moves ?_ ?_ _ _ _
    | with_reducible refine txStart_moves ?_ ?_ _
    | with_reducible refine onTxRing_moves ?_ ?_ _ _ _
    | with_reducible refine Moves.ite ?_ ?_
    | with_reducible refine Moves.dite ?_ ?_
    | with_reducible refine Moves.ite_snd ?_ ?_
    | with_reducible refine Moves.foldl ?_ _ ?_
    | with_reducible refine Moves.foldl_snd ?_ _ ?_
    | with_reducible refine Moves.elim _ ?_ ?_
    | with_reducible refine MovesOut.next ?_
    | with_reducible refine MovesOut.ite ?_ ?_
    | with_reducible intro _
    | split

theorem portConds_moves {m : Nat} {r s : State} (hm : 25116250 ||| m = m) (h : Moves m r s)   :
    Moves m r (Sys2Proof.Machine.portConds s) := by
  unfold Sys2Proof.Machine.portConds
  repeat' first
    | with_reducible assumption
    | with_reducible refine faultCond_moves ?_ ?_ _ _

theorem execPauseWatchdogTrip_moves {m : Nat} {r s : State} (hm : 25116254 ||| m = m) (h : Moves m r s) (x0 : _)  :
    MovesOut m r (Sys2Proof.Machine.execPauseWatchdogTrip x0 s) := by
  unfold Sys2Proof.Machine.execPauseWatchdogTrip
  repeat' first
    | with_reducible assumption
    | (with_reducible refine mask_sub hm ?_); exact rfl
    | with_reducible refine portHist_moves ?_ ?_ _ _
    | with_reducible refine raise_moves ?_ ?_ _
    | with_reducible refine portConds_moves ?_ ?_ 
    | with_reducible refine txStart_moves ?_ ?_ _
    | with_reducible refine atQ_moves ?_ ?_ _
    | with_reducible refine onPort_moves ?_ ?_ _ _
    | with_reducible refine portCount_moves ?_ ?_ _ _ _ _
    | with_reducible refine Moves.ite ?_ ?_
    | with_reducible refine Moves.dite ?_ ?_
    | with_reducible refine Moves.ite_snd ?_ ?_
    | with_reducible refine Moves.foldl ?_ _ ?_
    | with_reducible refine Moves.foldl_snd ?_ _ ?_
    | with_reducible refine Moves.elim _ ?_ ?_
    | with_reducible refine MovesOut.next ?_

theorem execXoffRepeat_moves {m : Nat} {r s : State} (hm : 6227456 ||| m = m) (h : Moves m r s) (x0 : _)  :
    MovesOut m r (Sys2Proof.Machine.execXoffRepeat x0 s) := by
  unfold Sys2Proof.Machine.execXoffRepeat
  repeat' first
    | with_reducible assumption
    | with_reducible refine ctlSend_moves ?_ ?_ _ _
    | with_reducible refine Moves.ite ?_ ?_
    | with_reducible refine Moves.dite ?_ ?_
    | with_reducible refine Moves.ite_snd ?_ ?_
    | with_reducible refine Moves.foldl ?_ _ ?_
    | with_reducible refine Moves.foldl_snd ?_ _ ?_
    | with_reducible refine Moves.elim _ ?_ ?_
    | with_reducible refine MovesOut.next ?_

theorem linkFlag_moves {m : Nat} {r s : State} (hm : 25116250 ||| m = m) (h : Moves m r s) (x0 : _)  :
    Moves m r (Sys2Proof.Machine.linkFlag x0 s) := by
  unfold Sys2Proof.Machine.linkFlag
  repeat' first
    | with_reducible assumption
    | (with_reducible refine mask_sub hm ?_); exact rfl
    | with_reducible refine raise_moves ?_ ?_ _
    | with_reducible refine faultEvent_moves ?_ ?_ _

theorem linkRise_moves {m : Nat} {r s : State} (hm : 25116250 ||| m = m) (h : Moves m r s) (x0 : _)  :
    Moves m r (Sys2Proof.Machine.linkRise x0 s) := by
  unfold Sys2Proof.Machine.linkRise
  repeat' first
    | with_reducible assumption
    | (with_reducible refine mask_sub hm ?_); exact rfl
    | with_reducible refine portConds_moves ?_ ?_ 
    | with_reducible refine portHist_moves ?_ ?_ _ _
    | with_reducible refine linkFlag_moves ?_ ?_ _
    | with_reducible refine txStart_moves ?_ ?_ _
    | with_reducible refine onPort_moves ?_ ?_ _ _

theorem execLinkUp_moves {m : Nat} {r s : State} (hm : 25116250 ||| m = m) (h : Moves m r s) (x0 : _)  :
    MovesOut m r (Sys2Proof.Machine.execLinkUp x0 s) := by
  unfold Sys2Proof.Machine.execLinkUp
  repeat' first
    | with_reducible assumption
    | with_reducible refine linkRise_moves ?_ ?_ _
    | with_reducible refine Moves.ite ?_ ?_
    | with_reducible refine Moves.dite ?_ ?_
    | with_reducible refine Moves.ite_snd ?_ ?_
    | with_reducible refine Moves.foldl ?_ _ ?_
    | with_reducible refine Moves.foldl_snd ?_ _ ?_
    | with_reducible refine Moves.elim _ ?_ ?_
    | with_reducible refine MovesOut.next ?_

theorem linkDown_moves {m : Nat} {r s : State} (hm : 25116250 ||| m = m) (h : Moves m r s) (x0 : _)  :
    Moves m r (Sys2Proof.Machine.linkDown x0 s) := by
  unfold Sys2Proof.Machine.linkDown
  repeat' first
    | with_reducible assumption
    | (with_reducible refine mask_sub hm ?_); exact rfl
    | with_reducible refine portCount_moves ?_ ?_ _ _ _ _
    | with_reducible refine portHist_moves ?_ ?_ _ _
    | with_reducible refine linkFlag_moves ?_ ?_ _
    | with_reducible refine txFlush_moves ?_ ?_ _ _ _
    | with_reducible refine fenceWaited_moves ?_ ?_ _ _ _
    | with_reducible refine dropLaunch_moves ?_ ?_ _ _ _
    | with_reducible refine onPort_moves ?_ ?_ _ _
    | with_reducible refine Moves.ite ?_ ?_
    | with_reducible refine Moves.dite ?_ ?_
    | with_reducible refine Moves.ite_snd ?_ ?_
    | with_reducible refine Moves.foldl ?_ _ ?_
    | with_reducible refine Moves.foldl_snd ?_ _ ?_
    | with_reducible refine Moves.elim _ ?_ ?_
    | with_reducible intro _

theorem retryOne_moves {m : Nat} {r s : State} (hm : 14622208 ||| m = m) (h : Moves m r s) (x0 : _)  :
    Moves m r (Sys2Proof.Machine.retryOne x0 s) := by
  unfold Sys2Proof.Machine.retryOne
  try dsimp only
  repeat' first
    | with_reducible assumption
    | (with_reducible refine mask_sub hm ?_); exact rfl
    | with_reducible refine ptpReserve_moves ?_ ?_ _
    | with_reducible refine servReserve_moves ?_ ?_ _
    | with_reducible refine Moves.ite ?_ ?_
    | with_reducible refine Moves.dite ?_ ?_
    | with_reducible refine Moves.ite_snd ?_ ?_
    | with_reducible refine Moves.foldl ?_ _ ?_
    | with_reducible refine Moves.foldl_snd ?_ _ ?_
    | with_reducible refine Moves.elim _ ?_ ?_
    | with_reducible intro _
    | split

theorem execPcsLoss_moves {m : Nat} {r s : State} (hm : 25116250 ||| m = m) (h : Moves m r s) (x0 : _)  :
    MovesOut m r (Sys2Proof.Machine.execPcsLoss x0 s) := by
  unfold Sys2Proof.Machine.execPcsLoss
  repeat' first
    | with_reducible assumption
    | (with_reducible refine mask_sub hm ?_); exact rfl
    | with_reducible refine onPort_moves ?_ ?_ _ _
    | with_reducible refine linkDown_moves ?_ ?_ _
    | with_reducible refine Moves.ite ?_ ?_
    | with_reducible refine Moves.dite ?_ ?_
    | with_reducible refine Moves.ite_snd ?_ ?_
    | with_reducible refine Moves.foldl ?_ _ ?_
    | with_reducible refine Moves.foldl_snd ?_ _ ?_
    | with_reducible refine Moves.elim _ ?_ ?_
    | with_reducible refine MovesOut.next ?_

theorem portOff_moves {m : Nat} {r s : State} (hm : 25116250 ||| m = m) (h : Moves m r s) (x0 : _)  :
    Moves m r (Sys2Proof.Machine.portOff x0 s) := by
  unfold Sys2Proof.Machine.portOff
  repeat' first
    | with_reducible assumption
    | (with_reducible refine mask_sub hm ?_); exact rfl
    | with_reducible refine linkDown_moves ?_ ?_ _
    | with_reducible refine pauseLoad_moves ?_ ?_ _ _
    | with_reducible refine onPort_moves ?_ ?_ _ _
    | with_reducible refine portConds_moves ?_ ?_ 

theorem portMode_moves {m : Nat} {r s : State} (hm : 25116254 ||| m = m) (h : Moves m r s) (x0 : _) (x1 : _) (x2 : _)  :
    Moves m r (Sys2Proof.Machine.portMode x0 x1 x2 s) := by
  unfold Sys2Proof.Machine.portMode
  repeat' first
    | with_reducible assumption
    | (with_reducible refine mask_sub hm ?_); exact rfl
    | with_reducible refine onWayp_moves ?_ ?_ _ _
    | with_reducible refine portOff_moves ?_ ?_ _
    | with_reducible refine calLoad_moves ?_ ?_ _
    | with_reducible refine linkDown_moves ?_ ?_ _
    | with_reducible refine txFlush_moves ?_ ?_ _ _ _
    | with_reducible refine onPort_moves ?_ ?_ _ _

theorem execIcpPortRingConfig_moves {m : Nat} {r s : State} (hm : 6227456 ||| m = m) (h : Moves m r s) (x0 : _) (x1 : _)  :
    MovesOut m r (Sys2Proof.Machine.execIcpPortRingConfig x0 x1 s) := by
  unfold Sys2Proof.Machine.execIcpPortRingConfig
  try dsimp only
  repeat' first
    | with_reducible assumption
    | (with_reducible refine mask_sub hm ?_); exact rfl
    | with_reducible refine txRingEnd_moves ?_ ?_ _ _
    | with_reducible refine onPort_moves ?_ ?_ _ _
    | with_reducible refine icpDo_moves ?_ ?_ _ _ _ _ _ ?_
    | with_reducible refine Moves.ite ?_ ?_
    | with_reducible refine Moves.self ?_
    | with_reducible refine Moves.dite ?_ ?_
    | with_reducible refine Moves.ite_snd ?_ ?_
    | with_reducible refine Moves.foldl ?_ _ ?_
    | with_reducible refine Moves.foldl_snd ?_ _ ?_
    | with_reducible refine Moves.elim _ ?_ ?_
    | with_reducible refine MovesOut.next ?_
    | with_reducible refine MovesOut.ite ?_ ?_
    | with_reducible intro _
    | split

theorem launchSkip_moves {m : Nat} {r s : State} (hm : 6233600 ||| m = m) (h : Moves m r s) (x0 : _) (x1 : _)  :
    Moves m r (Sys2Proof.Machine.launchSkip x0 x1 s) := by
  unfold Sys2Proof.Machine.launchSkip
  repeat' first
    | with_reducible assumption
    | (with_reducible refine mask_sub hm ?_); exact rfl
    | with_reducible refine launchFree_moves ?_ ?_ _ _
    | with_reducible refine freeTxn_moves ?_ ?_ _
    | with_reducible refine txStart_moves ?_ ?_ _

theorem execLaunchPoolDeadline_moves {m : Nat} {r s : State} (hm : 25116254 ||| m = m) (h : Moves m r s) (x0 : _) (x1 : _)  :
    MovesOut m r (Sys2Proof.Machine.execLaunchPoolDeadline x0 x1 s) := by
  unfold Sys2Proof.Machine.execLaunchPoolDeadline
  try dsimp only
  repeat' first
    | with_reducible assumption
    | (with_reducible refine mask_sub hm ?_); exact rfl
    | with_reducible refine onWayp_moves ?_ ?_ _ _
    | with_reducible refine dropLaunch_moves ?_ ?_ _ _ _
    | with_reducible refine launchSkip_moves ?_ ?_ _ _
    | with_reducible refine atQ_moves ?_ ?_ _
    | with_reducible refine Moves.ite ?_ ?_
    | with_reducible refine Moves.dite ?_ ?_
    | with_reducible refine Moves.ite_snd ?_ ?_
    | with_reducible refine Moves.foldl ?_ _ ?_
    | with_reducible refine Moves.foldl_snd ?_ _ ?_
    | with_reducible refine Moves.elim _ ?_ ?_
    | with_reducible refine MovesOut.next ?_
    | with_reducible refine MovesOut.ite ?_ ?_
    | with_reducible intro _
    | split

theorem execHostFrameSent_moves {m : Nat} {r s : State} (hm : 6227460 ||| m = m) (h : Moves m r s) (x0 : _)  :
    MovesOut m r (Sys2Proof.Machine.execHostFrameSent x0 s) := by
  unfold Sys2Proof.Machine.execHostFrameSent
  try dsimp only
  repeat' first
    | with_reducible assumption
    | (with_reducible refine mask_sub hm ?_); exact rfl
    | with_reducible refine takeAll_moves ?_ ?_ _
    | with_reducible refine txStartAt_moves ?_ ?_ _ _
    | with_reducible refine atQ_moves ?_ ?_ _
    | with_reducible refine txFinish_moves ?_ ?_ _ _
    | with_reducible refine txStart_moves ?_ ?_ _
    | with_reducible refine Moves.ite ?_ ?_
    | with_reducible refine Moves.dite ?_ ?_
    | with_reducible refine Moves.ite_snd ?_ ?_
    | with_reducible refine Moves.foldl ?_ _ ?_
    | with_reducible refine Moves.foldl_snd ?_ _ ?_
    | with_reducible refine Moves.elim _ ?_ ?_
    | with_reducible refine MovesOut.next ?_
    | with_reducible refine MovesOut.ite ?_ ?_
    | with_reducible intro _
    | split

theorem holdStart_moves {m : Nat} {r s : State} (hm : 25116250 ||| m = m) (h : Moves m r s) (x0 : _)  :
    Moves m r (Sys2Proof.Machine.holdStart x0 s) := by
  unfold Sys2Proof.Machine.holdStart
  repeat' first
    | with_reducible assumption
    | (with_reducible refine mask_sub hm ?_); exact rfl
    | with_reducible refine onPort_moves ?_ ?_ _ _
    | with_reducible refine linkRise_moves ?_ ?_ _
    | with_reducible refine Moves.ite ?_ ?_

theorem execFinePhaseTrackRegained_moves {m : Nat} {r s : State} (hm : 25116250 ||| m = m) (h : Moves m r s) (x0 : _)  :
    MovesOut m r (Sys2Proof.Machine.execFinePhaseTrackRegained x0 s) := by
  unfold Sys2Proof.Machine.execFinePhaseTrackRegained
  repeat' first
    | with_reducible assumption
    | (with_reducible refine mask_sub hm ?_); exact rfl
    | with_reducible refine onPort_moves ?_ ?_ _ _
    | with_reducible refine portConds_moves ?_ ?_ 
    | with_reducible refine holdStart_moves ?_ ?_ _
    | with_reducible refine Moves.ite ?_ ?_
    | with_reducible refine Moves.dite ?_ ?_
    | with_reducible refine Moves.ite_snd ?_ ?_
    | with_reducible refine Moves.foldl ?_ _ ?_
    | with_reducible refine Moves.foldl_snd ?_ _ ?_
    | with_reducible refine Moves.elim _ ?_ ?_
    | with_reducible refine MovesOut.next ?_

theorem execFinePhaseTrackLost_moves {m : Nat} {r s : State} (hm : 25116250 ||| m = m) (h : Moves m r s) (x0 : _)  :
    MovesOut m r (Sys2Proof.Machine.execFinePhaseTrackLost x0 s) := by
  unfold Sys2Proof.Machine.execFinePhaseTrackLost
  repeat' first
    | with_reducible assumption
    | (with_reducible refine mask_sub hm ?_); exact rfl
    | with_reducible refine onPort_moves ?_ ?_ _ _
    | with_reducible refine portConds_moves ?_ ?_ 
    | with_reducible refine linkDown_moves ?_ ?_ _
    | with_reducible refine Moves.ite ?_ ?_
    | with_reducible refine Moves.dite ?_ ?_
    | with_reducible refine Moves.ite_snd ?_ ?_
    | with_reducible refine Moves.foldl ?_ _ ?_
    | with_reducible refine Moves.foldl_snd ?_ _ ?_
    | with_reducible refine Moves.elim _ ?_ ?_
    | with_reducible refine MovesOut.next ?_

theorem execSerdesPllRelock_moves {m : Nat} {r s : State} (hm : 25116250 ||| m = m) (h : Moves m r s) (x0 : _)  :
    MovesOut m r (Sys2Proof.Machine.execSerdesPllRelock x0 s) := by
  unfold Sys2Proof.Machine.execSerdesPllRelock
  repeat' first
    | with_reducible assumption
    | (with_reducible refine mask_sub hm ?_); exact rfl
    | with_reducible refine onPort_moves ?_ ?_ _ _
    | with_reducible refine portConds_moves ?_ ?_ 
    | with_reducible refine holdStart_moves ?_ ?_ _
    | with_reducible refine Moves.ite ?_ ?_
    | with_reducible refine Moves.dite ?_ ?_
    | with_reducible refine Moves.ite_snd ?_ ?_
    | with_reducible refine Moves.foldl ?_ _ ?_
    | with_reducible refine Moves.foldl_snd ?_ _ ?_
    | with_reducible refine Moves.elim _ ?_ ?_
    | with_reducible refine MovesOut.next ?_

theorem execAutonegRestart_moves {m : Nat} {r s : State} (hm : 25116250 ||| m = m) (h : Moves m r s) (x0 : _)  :
    MovesOut m r (Sys2Proof.Machine.execAutonegRestart x0 s) := by
  unfold Sys2Proof.Machine.execAutonegRestart
  repeat' first
    | with_reducible assumption
    | (with_reducible refine mask_sub hm ?_); exact rfl
    | with_reducible refine onPort_moves ?_ ?_ _ _
    | with_reducible refine linkDown_moves ?_ ?_ _
    | with_reducible refine Moves.ite ?_ ?_
    | with_reducible refine Moves.dite ?_ ?_
    | with_reducible refine Moves.ite_snd ?_ ?_
    | with_reducible refine Moves.foldl ?_ _ ?_
    | with_reducible refine Moves.foldl_snd ?_ _ ?_
    | with_reducible refine Moves.elim _ ?_ ?_
    | with_reducible refine MovesOut.next ?_

theorem execPcsUp_moves {m : Nat} {r s : State} (hm : 25116250 ||| m = m) (h : Moves m r s) (x0 : _)  :
    MovesOut m r (Sys2Proof.Machine.execPcsUp x0 s) := by
  unfold Sys2Proof.Machine.execPcsUp
  repeat' first
    | with_reducible assumption
    | (with_reducible refine mask_sub hm ?_); exact rfl
    | with_reducible refine onPort_moves ?_ ?_ _ _
    | with_reducible refine holdStart_moves ?_ ?_ _
    | with_reducible refine Moves.ite ?_ ?_
    | with_reducible refine Moves.dite ?_ ?_
    | with_reducible refine Moves.ite_snd ?_ ?_
    | with_reducible refine Moves.foldl ?_ _ ?_
    | with_reducible refine Moves.foldl_snd ?_ _ ?_
    | with_reducible refine Moves.elim _ ?_ ?_
    | with_reducible refine MovesOut.next ?_

theorem execIcpPortEsmcConfig_moves {m : Nat} {r s : State} (hm : 2032128 ||| m = m) (h : Moves m r s) (x0 : _) (x1 : _)  :
    MovesOut m r (Sys2Proof.Machine.execIcpPortEsmcConfig x0 x1 s) := by
  unfold Sys2Proof.Machine.execIcpPortEsmcConfig
  try dsimp only
  repeat' first
    | with_reducible assumption
    | (with_reducible refine mask_sub hm ?_); exact rfl
    | with_reducible refine onPort_moves ?_ ?_ _ _
    | with_reducible refine icpDo_moves ?_ ?_ _ _ _ _ _ ?_
    | with_reducible refine Moves.ite ?_ ?_
    | with_reducible refine Moves.self ?_
    | with_reducible refine Moves.dite ?_ ?_
    | with_reducible refine Moves.ite_snd ?_ ?_
    | with_reducible refine Moves.foldl ?_ _ ?_
    | with_reducible refine Moves.foldl_snd ?_ _ ?_
    | with_reducible refine Moves.elim _ ?_ ?_
    | with_reducible refine MovesOut.next ?_
    | with_reducible refine MovesOut.ite ?_ ?_
    | with_reducible intro _
    | split

theorem execIcpPortPauseConfig_moves {m : Nat} {r s : State} (hm : 25116250 ||| m = m) (h : Moves m r s) (x0 : _) (x1 : _)  :
    MovesOut m r (Sys2Proof.Machine.execIcpPortPauseConfig x0 x1 s) := by
  unfold Sys2Proof.Machine.execIcpPortPauseConfig
  try dsimp only
  repeat' first
    | with_reducible assumption
    | (with_reducible refine mask_sub hm ?_); exact rfl
    | with_reducible refine onPort_moves ?_ ?_ _ _
    | with_reducible refine portConds_moves ?_ ?_ 
    | with_reducible refine xoffCheck_moves ?_ ?_ _
    | with_reducible refine txStart_moves ?_ ?_ _
    | with_reducible refine icpDo_moves ?_ ?_ _ _ _ _ _ ?_
    | with_reducible refine Moves.ite ?_ ?_
    | with_reducible refine Moves.self ?_
    | with_reducible refine Moves.dite ?_ ?_
    | with_reducible refine Moves.ite_snd ?_ ?_
    | with_reducible refine Moves.foldl ?_ _ ?_
    | with_reducible refine Moves.foldl_snd ?_ _ ?_
    | with_reducible refine Moves.elim _ ?_ ?_
    | with_reducible refine MovesOut.next ?_
    | with_reducible refine MovesOut.ite ?_ ?_
    | with_reducible intro _
    | split

theorem execIcpPortStatus_moves {m : Nat} {r s : State} (hm : 2031616 ||| m = m) (h : Moves m r s) (x0 : _) (x1 : _) (x2 : _)  :
    MovesOut m r (Sys2Proof.Machine.execIcpPortStatus x0 x1 x2 s) := by
  unfold Sys2Proof.Machine.execIcpPortStatus
  repeat' first
    | with_reducible assumption
    | with_reducible refine icpDo_moves ?_ ?_ _ _ _ _ _ ?_
    | with_reducible refine Moves.ite ?_ ?_
    | with_reducible refine Moves.self ?_
    | with_reducible refine Moves.dite ?_ ?_
    | with_reducible refine Moves.ite_snd ?_ ?_
    | with_reducible refine Moves.foldl ?_ _ ?_
    | with_reducible refine Moves.foldl_snd ?_ _ ?_
    | with_reducible refine Moves.elim _ ?_ ?_
    | with_reducible refine MovesOut.next ?_
    | with_reducible refine MovesOut.ite ?_ ?_
    | with_reducible intro _

theorem txTooLong_moves {m : Nat} {r s : State} (hm : 6227456 ||| m = m) (h : Moves m r s) (x0 : _)  :
    Moves m r (Sys2Proof.Machine.txTooLong x0 s) := by
  unfold Sys2Proof.Machine.txTooLong
  repeat' first
    | with_reducible assumption
    | (with_reducible refine mask_sub hm ?_); exact rfl
    | with_reducible refine txEndAll_moves ?_ ?_ _ _ _ _
    | with_reducible refine txStart_moves ?_ ?_ _
    | with_reducible refine fenceWaited_moves ?_ ?_ _ _ _
    | with_reducible refine onPort_moves ?_ ?_ _ _
    | with_reducible refine Moves.ite ?_ ?_
    | with_reducible refine Moves.dite ?_ ?_
    | with_reducible refine Moves.ite_snd ?_ ?_
    | with_reducible refine Moves.foldl ?_ _ ?_
    | with_reducible refine Moves.foldl_snd ?_ _ ?_
    | with_reducible refine Moves.elim _ ?_ ?_
    | with_reducible intro _

theorem execIcpPortConfig_moves {m : Nat} {r s : State} (hm : 25116254 ||| m = m) (h : Moves m r s) (x0 : _) (x1 : _)  :
    MovesOut m r (Sys2Proof.Machine.execIcpPortConfig x0 x1 s) := by
  unfold Sys2Proof.Machine.execIcpPortConfig
  try dsimp only
  repeat' first
    | with_reducible assumption
    | (with_reducible refine mask_sub hm ?_); exact rfl
    | with_reducible refine onPort_moves ?_ ?_ _ _
    | with_reducible refine txTooLong_moves ?_ ?_ _
    | with_reducible refine portMode_moves ?_ ?_ _ _ _
    | with_reducible refine icpDo_moves ?_ ?_ _ _ _ _ _ ?_
    | with_reducible refine Moves.ite ?_ ?_
    | with_reducible refine Moves.self ?_
    | with_reducible refine Moves.dite ?_ ?_
    | with_reducible refine Moves.ite_snd ?_ ?_
    | with_reducible refine Moves.foldl ?_ _ ?_
    | with_reducible refine Moves.foldl_snd ?_ _ ?_
    | with_reducible refine Moves.elim _ ?_ ?_
    | with_reducible refine MovesOut.next ?_
    | with_reducible refine MovesOut.ite ?_ ?_
    | with_reducible intro _
    | split

theorem launchOut_moves {m : Nat} {r s : State} (hm : 4200448 ||| m = m) (h : Moves m r s) (x0 : _)  :
    Moves m r (Sys2Proof.Machine.launchOut x0 s) := by
  unfold Sys2Proof.Machine.launchOut
  try dsimp only
  repeat' first
    | with_reducible assumption
    | (with_reducible refine mask_sub hm ?_); exact rfl
    | with_reducible refine ptpCount_moves ?_ ?_ _ _ _
    | with_reducible refine onPtp_moves ?_ ?_ _ ?_
    | with_reducible refine servLaunch_moves ?_ ?_ _
    | exact PtpOn.same rfl rfl
    | with_reducible refine Moves.ite ?_ ?_
    | with_reducible refine Moves.dite ?_ ?_
    | with_reducible refine Moves.ite_snd ?_ ?_
    | with_reducible refine Moves.foldl ?_ _ ?_
    | with_reducible refine Moves.foldl_snd ?_ _ ?_
    | with_reducible refine Moves.elim _ ?_ ?_
    | with_reducible intro _
    | split

theorem wireOut_moves {m : Nat} {r s : State} (hm : 4194816 ||| m = m) (h : Moves m r s) (x0 : _) (x1 : _)  :
    Moves m r (Sys2Proof.Machine.wireOut x0 x1 s) := by
  unfold Sys2Proof.Machine.wireOut
  repeat' first
    | with_reducible assumption
    | (with_reducible refine mask_sub hm ?_); exact rfl
    | with_reducible refine portCount_moves ?_ ?_ _ _ _ _
    | with_reducible refine onPort_moves ?_ ?_ _ _

theorem calSent_moves {m : Nat} {r s : State} (hm : 1024 ||| m = m) (h : Moves m r s) (x0 : _) (x1 : _)  :
    Moves m r (Sys2Proof.Machine.calSent x0 x1 s) := by
  unfold Sys2Proof.Machine.calSent
  try dsimp only
  repeat' first
    | with_reducible assumption
    | with_reducible refine calLaunch_moves ?_ ?_ _ _
    | with_reducible refine onWayp_moves ?_ ?_ _ _
    | with_reducible refine Moves.ite ?_ ?_
    | with_reducible refine Moves.dite ?_ ?_
    | with_reducible refine Moves.ite_snd ?_ ?_
    | with_reducible refine Moves.foldl ?_ _ ?_
    | with_reducible refine Moves.foldl_snd ?_ _ ?_
    | with_reducible refine Moves.elim _ ?_ ?_
    | with_reducible intro _
    | split

theorem execFrameLaunch_moves {m : Nat} {r s : State} (hm : 25116254 ||| m = m) (h : Moves m r s) (x0 : _)  :
    MovesOut m r (Sys2Proof.Machine.execFrameLaunch x0 s) := by
  unfold Sys2Proof.Machine.execFrameLaunch
  try dsimp only
  repeat' first
    | with_reducible assumption
    | (with_reducible refine mask_sub hm ?_); exact rfl
    | with_reducible refine waypCount_moves ?_ ?_ _ _ _ _
    | with_reducible refine launchOut_moves ?_ ?_ _
    | with_reducible refine freeTxn_moves ?_ ?_ _
    | with_reducible refine dropLaunch_moves ?_ ?_ _ _ _
    | with_reducible refine launchSkip_moves ?_ ?_ _ _
    | with_reducible refine wireOut_moves ?_ ?_ _ _
    | with_reducible refine launchFree_moves ?_ ?_ _ _
    | with_reducible refine onPort_moves ?_ ?_ _ _
    | with_reducible refine calSent_moves ?_ ?_ _ _
    | with_reducible refine txStart_moves ?_ ?_ _
    | with_reducible refine atQ_moves ?_ ?_ _
    | with_reducible refine Moves.ite ?_ ?_
    | with_reducible refine Moves.dite ?_ ?_
    | with_reducible refine Moves.ite_snd ?_ ?_
    | with_reducible refine Moves.foldl ?_ _ ?_
    | with_reducible refine Moves.foldl_snd ?_ _ ?_
    | with_reducible refine Moves.elim _ ?_ ?_
    | with_reducible refine MovesOut.next ?_
    | with_reducible refine MovesOut.ite ?_ ?_
    | with_reducible intro _
    | split

theorem ptpLate_moves {m : Nat} {r s : State} (hm : 25116250 ||| m = m) (h : Moves m r s) (x0 : _)  :
    Moves m r (Sys2Proof.Machine.ptpLate x0 s) := by
  unfold Sys2Proof.Machine.ptpLate
  repeat' first
    | with_reducible assumption
    | (with_reducible refine mask_sub hm ?_); exact rfl
    | with_reducible refine waypCount_moves ?_ ?_ _ _ _ _
    | with_reducible refine waypHist_moves ?_ ?_ _ _ _
    | with_reducible refine raise_moves ?_ ?_ _
    | with_reducible refine faultEvent_moves ?_ ?_ _
    | with_reducible refine onPtp_moves ?_ ?_ _ ?_
    | with_reducible refine ptpCount_moves ?_ ?_ _ _ _
    | with_reducible refine ptpHist_moves ?_ ?_ _ _
    | exact PtpOn.same rfl rfl
    | with_reducible refine Moves.ite ?_ ?_
    | with_reducible refine Moves.dite ?_ ?_
    | with_reducible refine Moves.ite_snd ?_ ?_
    | with_reducible refine Moves.foldl ?_ _ ?_
    | with_reducible refine Moves.foldl_snd ?_ _ ?_
    | with_reducible refine Moves.elim _ ?_ ?_
    | with_reducible intro _

theorem servLate_moves {m : Nat} {r s : State} (hm : 25116250 ||| m = m) (h : Moves m r s) (x0 : _)  :
    Moves m r (Sys2Proof.Machine.servLate x0 s) := by
  unfold Sys2Proof.Machine.servLate
  repeat' first
    | with_reducible assumption
    | (with_reducible refine mask_sub hm ?_); exact rfl
    | with_reducible refine txnCount_moves ?_ ?_ _ _ _
    | with_reducible refine servHist_moves ?_ ?_ _ _
    | with_reducible refine waypCount_moves ?_ ?_ _ _ _ _
    | with_reducible refine waypHist_moves ?_ ?_ _ _ _
    | with_reducible refine faultEvent_moves ?_ ?_ _

theorem execReservationDeadline_moves {m : Nat} {r s : State} (hm : 25116254 ||| m = m) (h : Moves m r s) (x0 : _) (x1 : _)  :
    MovesOut m r (Sys2Proof.Machine.execReservationDeadline x0 x1 s) := by
  unfold Sys2Proof.Machine.execReservationDeadline
  try dsimp only
  repeat' first
    | with_reducible assumption
    | (with_reducible refine mask_sub hm ?_); exact rfl
    | with_reducible refine ptpLate_moves ?_ ?_ _
    | with_reducible refine servLate_moves ?_ ?_ _
    | with_reducible refine freeTxn_moves ?_ ?_ _
    | with_reducible refine atQ_moves ?_ ?_ _
    | with_reducible refine waitEnd_moves ?_ ?_ _ _
    | with_reducible refine Moves.ite ?_ ?_
    | with_reducible refine Moves.dite ?_ ?_
    | with_reducible refine Moves.ite_snd ?_ ?_
    | with_reducible refine Moves.foldl ?_ _ ?_
    | with_reducible refine Moves.foldl_snd ?_ _ ?_
    | with_reducible refine Moves.elim _ ?_ ?_
    | with_reducible refine MovesOut.next ?_
    | with_reducible refine MovesOut.ite ?_ ?_
    | with_reducible intro _
    | split

theorem retryAll_moves {m : Nat} {r s : State} (hm : 14622208 ||| m = m) (h : Moves m r s) (x0 : _) (x1 : _)  :
    Moves m r (Sys2Proof.Machine.retryAll x0 x1 s) := by
  induction x1 generalizing s with
  | nil => exact h
  | cons a l ih =>
    unfold Sys2Proof.Machine.retryAll
    have h1 := retryOne_moves hm h a.txn
    exact Moves.ite h1 (ih h1)

theorem execReservationRetry_moves {m : Nat} {r s : State} (hm : 14622208 ||| m = m) (h : Moves m r s) (x0 : _)  :
    MovesOut m r (Sys2Proof.Machine.execReservationRetry x0 s) := by
  unfold Sys2Proof.Machine.execReservationRetry
  repeat' first
    | with_reducible assumption
    | with_reducible refine retryAll_moves ?_ ?_ _ _
    | with_reducible refine Moves.ite ?_ ?_
    | with_reducible refine Moves.dite ?_ ?_
    | with_reducible refine Moves.ite_snd ?_ ?_
    | with_reducible refine Moves.foldl ?_ _ ?_
    | with_reducible refine Moves.foldl_snd ?_ _ ?_
    | with_reducible refine Moves.elim _ ?_ ?_
    | with_reducible refine MovesOut.next ?_

theorem execEsmcEventPdu_moves {m : Nat} {r s : State} (hm : 6227456 ||| m = m) (h : Moves m r s) (x0 : _)  :
    MovesOut m r (Sys2Proof.Machine.execEsmcEventPdu x0 s) := by
  unfold Sys2Proof.Machine.execEsmcEventPdu
  repeat' first
    | with_reducible assumption
    | (with_reducible refine mask_sub hm ?_); exact rfl
    | with_reducible refine onPort_moves ?_ ?_ _ _
    | with_reducible refine ctlSend_moves ?_ ?_ _ _
    | with_reducible refine Moves.ite ?_ ?_
    | with_reducible refine Moves.dite ?_ ?_
    | with_reducible refine Moves.ite_snd ?_ ?_
    | with_reducible refine Moves.foldl ?_ _ ?_
    | with_reducible refine Moves.foldl_snd ?_ _ ?_
    | with_reducible refine Moves.elim _ ?_ ?_
    | with_reducible refine MovesOut.next ?_

theorem execSyncePhaseMeasure_moves {m : Nat} {r s : State} (hm : 528 ||| m = m) (h : Moves m r s) (x0 : _) (x1 : _) (x2 : _) (x3 : _)  :
    MovesOut m r (Sys2Proof.Machine.execSyncePhaseMeasure x0 x1 x2 x3 s) := by
  unfold Sys2Proof.Machine.execSyncePhaseMeasure
  repeat' first
    | with_reducible assumption
    | (with_reducible refine mask_sub hm ?_); exact rfl
    | with_reducible refine pushMeas_moves ?_ ?_ _ _ _ _
    | with_reducible refine onPort_moves ?_ ?_ _ _
    | with_reducible refine Moves.ite ?_ ?_
    | with_reducible refine Moves.dite ?_ ?_
    | with_reducible refine Moves.ite_snd ?_ ?_
    | with_reducible refine Moves.foldl ?_ _ ?_
    | with_reducible refine Moves.foldl_snd ?_ _ ?_
    | with_reducible refine Moves.elim _ ?_ ?_
    | with_reducible refine MovesOut.next ?_

theorem execSerdesPllLoss_moves {m : Nat} {r s : State} (hm : 25116250 ||| m = m) (h : Moves m r s) (x0 : _)  :
    MovesOut m r (Sys2Proof.Machine.execSerdesPllLoss x0 s) := by
  unfold Sys2Proof.Machine.execSerdesPllLoss
  repeat' first
    | with_reducible assumption
    | (with_reducible refine mask_sub hm ?_); exact rfl
    | with_reducible refine onPort_moves ?_ ?_ _ _
    | with_reducible refine portHist_moves ?_ ?_ _ _
    | with_reducible refine portConds_moves ?_ ?_ 
    | with_reducible refine linkDown_moves ?_ ?_ _
    | with_reducible refine Moves.ite ?_ ?_
    | with_reducible refine Moves.dite ?_ ?_
    | with_reducible refine Moves.ite_snd ?_ ?_
    | with_reducible refine Moves.foldl ?_ _ ?_
    | with_reducible refine Moves.foldl_snd ?_ _ ?_
    | with_reducible refine Moves.elim _ ?_ ?_
    | with_reducible refine MovesOut.next ?_

theorem execPauseTimerExpiry_moves {m : Nat} {r s : State} (hm : 6227460 ||| m = m) (h : Moves m r s) (x0 : _)  :
    MovesOut m r (Sys2Proof.Machine.execPauseTimerExpiry x0 s) := by
  unfold Sys2Proof.Machine.execPauseTimerExpiry
  repeat' first
    | with_reducible assumption
    | (with_reducible refine mask_sub hm ?_); exact rfl
    | with_reducible refine atQ_moves ?_ ?_ _
    | with_reducible refine pauseLoad_moves ?_ ?_ _ _
    | with_reducible refine txStart_moves ?_ ?_ _
    | with_reducible refine Moves.ite ?_ ?_
    | with_reducible refine Moves.dite ?_ ?_
    | with_reducible refine Moves.ite_snd ?_ ?_
    | with_reducible refine Moves.foldl ?_ _ ?_
    | with_reducible refine Moves.foldl_snd ?_ _ ?_
    | with_reducible refine Moves.elim _ ?_ ?_
    | with_reducible refine MovesOut.next ?_

theorem execXonSend_moves {m : Nat} {r s : State} (hm : 6227456 ||| m = m) (h : Moves m r s) (x0 : _)  :
    MovesOut m r (Sys2Proof.Machine.execXonSend x0 s) := by
  unfold Sys2Proof.Machine.execXonSend
  repeat' first
    | with_reducible assumption
    | (with_reducible refine mask_sub hm ?_); exact rfl
    | with_reducible refine onPort_moves ?_ ?_ _ _
    | with_reducible refine ctlSend_moves ?_ ?_ _ _
    | with_reducible refine Moves.ite ?_ ?_
    | with_reducible refine Moves.dite ?_ ?_
    | with_reducible refine Moves.ite_snd ?_ ?_
    | with_reducible refine Moves.foldl ?_ _ ?_
    | with_reducible refine Moves.foldl_snd ?_ _ ?_
    | with_reducible refine Moves.elim _ ?_ ?_
    | with_reducible refine MovesOut.next ?_

end Sys2Proof.Laws
end

