-- ==== Sys2Proof/Laws/MovesHost.lean ====
section
/-!
SUPPORT. What each function of Machine/Mailbox, Regs may change, as `Moves`.
-/
namespace Sys2Proof.Laws
open Sys2Proof Sys2Proof.Machine

theorem lkStore_moves {m : Nat} {r s : State} (hm : 4194308 ||| m = m) (h : Moves m r s) (x0 : _) (x1 : _) (x2 : _)  :
    Moves m r (Sys2Proof.Machine.lkStore x0 x1 x2 s) := by
  unfold Sys2Proof.Machine.lkStore
  try dsimp only
  repeat' first
    | with_reducible assumption
    | (with_reducible refine mask_sub hm ?_); exact rfl
    | with_reducible exact PerfOn.same rfl
    | with_reducible refine Moves.ite ?_ ?_
    | with_reducible refine Moves.dite ?_ ?_
    | with_reducible refine Moves.ite_snd ?_ ?_
    | with_reducible refine Moves.foldl ?_ _ ?_
    | with_reducible refine Moves.foldl_snd ?_ _ ?_
    | with_reducible refine Moves.elim _ ?_ ?_
    | with_reducible intro _
    | split
    | with_reducible refine Moves.set_perf ?_ ?_ ?_
    | with_reducible refine Moves.set_time ?_ ?_

theorem after_moves {m : Nat} {r s : State} {o : Out} (ho : MovesOut m r o) (h : Moves m r s) :
    Moves m r (Sys2Proof.Machine.after o s) := by
  unfold Sys2Proof.Machine.after
  split
  · exact ho _ rfl
  · exact h

theorem timeWrite_moves {m : Nat} {r s : State} (hm : 25116254 ||| m = m) (h : Moves m r s) (x0 : _) (x1 : _)  :
    Moves m r (Sys2Proof.Machine.timeWrite x0 x1 s) := by
  unfold Sys2Proof.Machine.timeWrite
  try dsimp only
  repeat' first
    | with_reducible assumption
    | (with_reducible refine mask_sub hm ?_); exact rfl
    | with_reducible refine execTimeSlewCommit_moves ?_ ?_ _
    | with_reducible refine execTimeIncrCommit_moves ?_ ?_ _
    | with_reducible refine after_moves ?_ ?_
    | with_reducible refine Moves.ite ?_ ?_
    | with_reducible refine Moves.dite ?_ ?_
    | with_reducible refine Moves.ite_snd ?_ ?_
    | with_reducible refine Moves.foldl ?_ _ ?_
    | with_reducible refine Moves.foldl_snd ?_ _ ?_
    | with_reducible refine Moves.elim _ ?_ ?_
    | with_reducible intro _
    | split
    | with_reducible refine Moves.set_time ?_ ?_

theorem onTarget_moves {m : Nat} {r s : State} (hm : 524288 ||| m = m) (h : Moves m r s) (x0 : _) (x1 : _)  :
    Moves m r (Sys2Proof.Machine.onTarget x0 x1 s) := by
  unfold Sys2Proof.Machine.onTarget
  repeat' first
    | with_reducible assumption
    | with_reducible refine Moves.ite ?_ ?_
    | with_reducible refine Moves.dite ?_ ?_
    | with_reducible refine Moves.ite_snd ?_ ?_
    | with_reducible refine Moves.foldl ?_ _ ?_
    | with_reducible refine Moves.foldl_snd ?_ _ ?_
    | with_reducible refine Moves.elim _ ?_ ?_
    | with_reducible intro _
    | with_reducible refine Moves.set_icu ?_ ?_

theorem icuResend_moves {m : Nat} {r s : State} (hm : 589824 ||| m = m) (h : Moves m r s) (x0 : _)  :
    Moves m r (Sys2Proof.Machine.icuResend x0 s) := by
  unfold Sys2Proof.Machine.icuResend
  try dsimp only
  repeat' first
    | with_reducible assumption
    | (with_reducible refine mask_sub hm ?_); exact rfl
    | with_reducible refine onTarget_moves ?_ ?_ _ _
    | with_reducible refine icuEval_moves ?_ ?_ 
    | with_reducible refine icuAgain_moves ?_ ?_ _
    | with_reducible refine Moves.ite ?_ ?_
    | with_reducible refine Moves.dite ?_ ?_
    | with_reducible refine Moves.ite_snd ?_ ?_
    | with_reducible refine Moves.foldl ?_ _ ?_
    | with_reducible refine Moves.foldl_snd ?_ _ ?_
    | with_reducible refine Moves.elim _ ?_ ?_
    | with_reducible intro _
    | split

theorem icuDone_moves {m : Nat} {r s : State} (hm : 851968 ||| m = m) (h : Moves m r s) (x0 : _) (x1 : _)  :
    Moves m r (Sys2Proof.Machine.icuDone x0 x1 s) := by
  unfold Sys2Proof.Machine.icuDone
  repeat' first
    | with_reducible assumption
    | (with_reducible refine mask_sub hm ?_); exact rfl
    | with_reducible refine stickyAt_moves ?_ ?_ _ _ _
    | with_reducible refine onTarget_moves ?_ ?_ _ _
    | with_reducible refine icuResend_moves ?_ ?_ _
    | with_reducible refine Moves.ite ?_ ?_

theorem pendClearOwn_moves {m : Nat} {r s : State} (hm : 589824 ||| m = m) (h : Moves m r s) (x0 : _) (x1 : _) (x2 : _)  :
    Moves m r (Sys2Proof.Machine.pendClearOwn x0 x1 x2 s) := by
  unfold Sys2Proof.Machine.pendClearOwn
  repeat' first
    | with_reducible assumption
    | (with_reducible refine mask_sub hm ?_); exact rfl
    | with_reducible refine onTarget_moves ?_ ?_ _ _
    | with_reducible refine icuEval_moves ?_ ?_ 

theorem pendSetOwn_moves {m : Nat} {r s : State} (hm : 589824 ||| m = m) (h : Moves m r s) (x0 : _) (x1 : _) (x2 : _)  :
    Moves m r (Sys2Proof.Machine.pendSetOwn x0 x1 x2 s) := by
  unfold Sys2Proof.Machine.pendSetOwn
  repeat' first
    | with_reducible assumption
    | (with_reducible refine mask_sub hm ?_); exact rfl
    | with_reducible refine onTarget_moves ?_ ?_ _ _
    | with_reducible refine icuEval_moves ?_ ?_ 

theorem icuWrite_moves {m : Nat} {r s : State} (hm : 851968 ||| m = m) (h : Moves m r s) (x0 : _) (x1 : _) (x2 : _) (x3 : _)  :
    Moves m r (Sys2Proof.Machine.icuWrite x0 x1 x2 x3 s) := by
  unfold Sys2Proof.Machine.icuWrite
  try dsimp only
  repeat' first
    | with_reducible assumption
    | (with_reducible refine mask_sub hm ?_); exact rfl
    | with_reducible refine icuDone_moves ?_ ?_ _ _
    | with_reducible refine onTarget_moves ?_ ?_ _ _
    | with_reducible refine icuEval_moves ?_ ?_ 
    | with_reducible refine pendClearOwn_moves ?_ ?_ _ _ _
    | with_reducible refine pendSetOwn_moves ?_ ?_ _ _ _
    | with_reducible refine Moves.ite ?_ ?_
    | with_reducible refine Moves.dite ?_ ?_
    | with_reducible refine Moves.ite_snd ?_ ?_
    | with_reducible refine Moves.foldl ?_ _ ?_
    | with_reducible refine Moves.foldl_snd ?_ _ ?_
    | with_reducible refine Moves.elim _ ?_ ?_
    | with_reducible intro _
    | split

theorem ctrlWrite_moves {m : Nat} {r s : State} (hm : 262144 ||| m = m) (h : Moves m r s) (x0 : _) (x1 : _) (x2 : _)  :
    Moves m r (Sys2Proof.Machine.ctrlWrite x0 x1 x2 s) := by
  unfold Sys2Proof.Machine.ctrlWrite
  repeat' first
    | with_reducible assumption
    | with_reducible refine stickyField_after _ _ _ _ _ _ ?_
    | with_reducible refine stickyRegs_after _ _ _ ?_
    | with_reducible exact RegsOn.refl _
    | with_reducible exact RegsOn.same rfl
    | with_reducible refine Moves.ite ?_ ?_
    | with_reducible refine Moves.dite ?_ ?_
    | with_reducible refine Moves.ite_snd ?_ ?_
    | with_reducible refine Moves.foldl ?_ _ ?_
    | with_reducible refine Moves.foldl_snd ?_ _ ?_
    | with_reducible refine Moves.elim _ ?_ ?_
    | with_reducible intro _
    | with_reducible refine Moves.set_regs ?_ ?_ ?_

theorem indStep_moves {m : Nat} {r s : State} (hm : 262144 ||| m = m) (h : Moves m r s) (x0 : _)  :
    Moves m r (Sys2Proof.Machine.indStep x0 s) := by
  unfold Sys2Proof.Machine.indStep
  repeat' first
    | with_reducible assumption
    | with_reducible refine stickyField_after _ _ _ _ _ _ ?_
    | with_reducible refine stickyRegs_after _ _ _ ?_
    | with_reducible exact RegsOn.refl _
    | with_reducible exact RegsOn.same rfl
    | with_reducible refine Moves.ite ?_ ?_
    | with_reducible refine Moves.dite ?_ ?_
    | with_reducible refine Moves.ite_snd ?_ ?_
    | with_reducible refine Moves.foldl ?_ _ ?_
    | with_reducible refine Moves.foldl_snd ?_ _ ?_
    | with_reducible refine Moves.elim _ ?_ ?_
    | with_reducible intro _
    | with_reducible refine Moves.set_regs ?_ ?_ ?_

theorem indWrite_moves {m : Nat} {r s : State} (hm : 2031872 ||| m = m) (h : Moves m r s) (x0 : _) (x1 : _) (x2 : _)  :
    Moves m r (Sys2Proof.Machine.indWrite x0 x1 x2 s) := by
  unfold Sys2Proof.Machine.indWrite
  try dsimp only
  repeat' first
    | with_reducible assumption
    | (with_reducible refine mask_sub hm ?_); exact rfl
    | with_reducible refine chanWrite_moves ?_ ?_ _ _ _
    | with_reducible refine deny_moves ?_ ?_ _ _ _
    | with_reducible refine indStep_moves ?_ ?_ _
    | with_reducible refine Moves.ite ?_ ?_
    | with_reducible refine Moves.dite ?_ ?_
    | with_reducible refine Moves.ite_snd ?_ ?_
    | with_reducible refine Moves.foldl ?_ _ ?_
    | with_reducible refine Moves.foldl_snd ?_ _ ?_
    | with_reducible refine Moves.elim _ ?_ ?_
    | with_reducible intro _
    | split

theorem indAddrWrite_moves {m : Nat} {r s : State} (hm : 262144 ||| m = m) (h : Moves m r s) (x0 : _) (x1 : _)  :
    Moves m r (Sys2Proof.Machine.indAddrWrite x0 x1 s) := by
  unfold Sys2Proof.Machine.indAddrWrite
  repeat' first
    | with_reducible assumption
    | with_reducible refine stickyField_after _ _ _ _ _ _ ?_
    | with_reducible refine stickyRegs_after _ _ _ ?_
    | with_reducible exact RegsOn.refl _
    | with_reducible exact RegsOn.same rfl
    | with_reducible refine Moves.ite ?_ ?_
    | with_reducible refine Moves.dite ?_ ?_
    | with_reducible refine Moves.ite_snd ?_ ?_
    | with_reducible refine Moves.foldl ?_ _ ?_
    | with_reducible refine Moves.foldl_snd ?_ _ ?_
    | with_reducible refine Moves.elim _ ?_ ?_
    | with_reducible intro _
    | with_reducible refine Moves.set_regs ?_ ?_ ?_

theorem onMbox_moves {m : Nat} {r s : State} (hm : 65536 ||| m = m) (h : Moves m r s) (x0 : _) (x1 : _) (hf : ∀ v, mwf 0#8 v.win = true → mwf 0#8 (x1 v).win = true) :
    Moves m r (Sys2Proof.Machine.onMbox x0 x1 s) := by
  unfold Sys2Proof.Machine.onMbox
  repeat' first
    | with_reducible assumption
    | (with_reducible refine mbox_upd_on rfl ?_); intro _; rfl
    | exact HostOn.upd (i := x0) (f := x1) rfl (hf _)
    | with_reducible exact hf _
    | with_reducible exact HostOn.same rfl
    | with_reducible refine Moves.ite ?_ ?_
    | with_reducible refine Moves.dite ?_ ?_
    | with_reducible refine Moves.ite_snd ?_ ?_
    | with_reducible refine Moves.foldl ?_ _ ?_
    | with_reducible refine Moves.foldl_snd ?_ _ ?_
    | with_reducible refine Moves.elim _ ?_ ?_
    | with_reducible intro _
    | with_reducible refine Moves.set_host ?_ ?_ ?_

theorem sleepEnd_moves {m : Nat} {r s : State} (hm : 589824 ||| m = m) (h : Moves m r s) (x0 : _)  :
    Moves m r (Sys2Proof.Machine.sleepEnd x0 s) := by
  unfold Sys2Proof.Machine.sleepEnd
  repeat' first
    | with_reducible assumption
    | (with_reducible refine mask_sub hm ?_); exact rfl
    | with_reducible refine onMbox_moves ?_ ?_ _ _ ?_
    | with_reducible refine icuAgain_moves ?_ ?_ _
    | (with_reducible assumption)
    | with_reducible refine Moves.ite ?_ ?_
    | with_reducible refine Moves.dite ?_ ?_
    | with_reducible refine Moves.ite_snd ?_ ?_
    | with_reducible refine Moves.foldl ?_ _ ?_
    | with_reducible refine Moves.foldl_snd ?_ _ ?_
    | with_reducible refine Moves.elim _ ?_ ?_
    | with_reducible intro _

theorem sleepStart_moves {m : Nat} {r s : State} (hm : 65536 ||| m = m) (h : Moves m r s) (x0 : _)  :
    Moves m r (Sys2Proof.Machine.sleepStart x0 s) := by
  unfold Sys2Proof.Machine.sleepStart
  repeat' first
    | with_reducible assumption
    | with_reducible refine onMbox_moves ?_ ?_ _ _ ?_
    | exact fun _ e => by dsimp only [MboxSlot.signal]; repeat' split
                          all_goals exact e

theorem mboxStart_moves {m : Nat} {r s : State} (hm : 589824 ||| m = m) (h : Moves m r s) (x0 : _)  :
    Moves m r (Sys2Proof.Machine.mboxStart x0 s) := by
  unfold Sys2Proof.Machine.mboxStart
  repeat' first
    | with_reducible assumption
    | (with_reducible refine mask_sub hm ?_); exact rfl
    | with_reducible refine flushHeld_moves ?_ ?_ _
    | with_reducible refine icuAgain_moves ?_ ?_ _
    | with_reducible refine onMbox_moves ?_ ?_ _ _ ?_
    | (with_reducible assumption)
    | with_reducible refine Moves.ite ?_ ?_
    | with_reducible refine Moves.dite ?_ ?_
    | with_reducible refine Moves.ite_snd ?_ ?_
    | with_reducible refine Moves.foldl ?_ _ ?_
    | with_reducible refine Moves.foldl_snd ?_ _ ?_
    | with_reducible refine Moves.elim _ ?_ ?_
    | with_reducible intro _

theorem mboxCtrl_moves {m : Nat} {r s : State} (hm : 589824 ||| m = m) (h : Moves m r s) (x0 : _) (x1 : _)  :
    Moves m r (Sys2Proof.Machine.mboxCtrl x0 x1 s) := by
  unfold Sys2Proof.Machine.mboxCtrl
  repeat' first
    | with_reducible assumption
    | (with_reducible refine mask_sub hm ?_); exact rfl
    | with_reducible refine mboxStart_moves ?_ ?_ _
    | with_reducible refine onMbox_moves ?_ ?_ _ _ ?_
    | (with_reducible assumption)
    | with_reducible refine Moves.ite ?_ ?_
    | with_reducible refine Moves.dite ?_ ?_
    | with_reducible refine Moves.ite_snd ?_ ?_
    | with_reducible refine Moves.foldl ?_ _ ?_
    | with_reducible refine Moves.foldl_snd ?_ _ ?_
    | with_reducible refine Moves.elim _ ?_ ?_
    | with_reducible intro _

theorem reqErr_moves {m : Nat} {r s : State} (hm : 851968 ||| m = m) (h : Moves m r s) (x0 : _)  :
    Moves m r (Sys2Proof.Machine.reqErr x0 s) := by
  unfold Sys2Proof.Machine.reqErr
  repeat' first
    | with_reducible assumption
    | (with_reducible refine mask_sub hm ?_); exact rfl
    | with_reducible refine stickyAt_moves ?_ ?_ _ _ _
    | with_reducible refine raiseTo_moves ?_ ?_ _ _

theorem mboxWrite_moves {m : Nat} {r s : State} (hm : 25116250 ||| m = m) (h : Moves m r s) (x0 : _) (x1 : _) (x2 : _) (x3 : _)  :
    Moves m r (Sys2Proof.Machine.mboxWrite x0 x1 x2 x3 s) := by
  unfold Sys2Proof.Machine.mboxWrite
  try dsimp only
  repeat' first
    | with_reducible assumption
    | (with_reducible refine mask_sub hm ?_); exact rfl
    | with_reducible refine sleepEnd_moves ?_ ?_ _
    | with_reducible refine sleepStart_moves ?_ ?_ _
    | with_reducible refine flushHeld_moves ?_ ?_ _
    | with_reducible refine cairnGapEnd_moves ?_ ?_ 
    | with_reducible refine mboxCtrl_moves ?_ ?_ _ _
    | with_reducible refine onMbox_moves ?_ ?_ _ _ ?_
    | with_reducible refine reqErr_moves ?_ ?_ _
    | with_reducible refine lockViol_moves ?_ ?_ _ _ _
    | exact fun _ e => e
    | exact fun _ e => mwf_mputs _ _ _ _ e
    | exact fun _ e => by unfold mboxStore; split <;> exact e
    | (with_reducible assumption)
    | with_reducible refine Moves.ite ?_ ?_
    | with_reducible refine Moves.dite ?_ ?_
    | with_reducible refine Moves.ite_snd ?_ ?_
    | with_reducible refine Moves.foldl ?_ _ ?_
    | with_reducible refine Moves.foldl_snd ?_ _ ?_
    | with_reducible refine Moves.elim _ ?_ ?_
    | with_reducible intro _
    | split

theorem lkWrite_moves {m : Nat} {r s : State} (hm : 25116254 ||| m = m) (h : Moves m r s) (x0 : _) (x1 : _) (x2 : _) (x3 : _) (x4 : _) (x5 : _) (x6 : _)  :
    Moves m r (Sys2Proof.Machine.lkWrite x0 x1 x2 x3 x4 x5 x6 s) := by
  unfold Sys2Proof.Machine.lkWrite
  repeat' first
    | with_reducible assumption
    | (with_reducible refine mask_sub hm ?_); exact rfl
    | with_reducible refine lkStore_moves ?_ ?_ _ _ _
    | with_reducible refine lockViol_moves ?_ ?_ _ _ _
    | with_reducible refine Moves.ite ?_ ?_

theorem stickyEnd_moves {m : Nat} {r s : State} (hm : 1024 ||| m = m) (h : Moves m r s) (x0 : _) (x1 : _) (x2 : _)  :
    Moves m r (Sys2Proof.Machine.stickyEnd x0 x1 x2 s) := by
  unfold Sys2Proof.Machine.stickyEnd
  try dsimp only
  repeat' first
    | with_reducible assumption
    | with_reducible refine onWayp_moves ?_ ?_ _ _
    | with_reducible refine Moves.ite ?_ ?_
    | with_reducible refine Moves.dite ?_ ?_
    | with_reducible refine Moves.ite_snd ?_ ?_
    | with_reducible refine Moves.foldl ?_ _ ?_
    | with_reducible refine Moves.foldl_snd ?_ _ ?_
    | with_reducible refine Moves.elim _ ?_ ?_
    | with_reducible intro _
    | split

theorem chanAgain_moves {m : Nat} {r s : State} (hm : 262400 ||| m = m) (h : Moves m r s) (x0 : _) (x1 : _)  :
    Moves m r (Sys2Proof.Machine.chanAgain x0 x1 s) := by
  unfold Sys2Proof.Machine.chanAgain
  repeat' first
    | with_reducible assumption
    | (with_reducible refine mask_sub hm ?_); exact rfl
    | with_reducible refine onChan_moves ?_ ?_ _ _
    | with_reducible refine stickyField_after _ _ _ _ _ _ ?_
    | with_reducible refine stickyRegs_after _ _ _ ?_
    | with_reducible exact RegsOn.refl _
    | with_reducible exact RegsOn.same rfl
    | with_reducible refine Moves.ite ?_ ?_
    | with_reducible refine Moves.dite ?_ ?_
    | with_reducible refine Moves.ite_snd ?_ ?_
    | with_reducible refine Moves.foldl ?_ _ ?_
    | with_reducible refine Moves.foldl_snd ?_ _ ?_
    | with_reducible refine Moves.elim _ ?_ ?_
    | with_reducible intro _
    | with_reducible refine Moves.set_regs ?_ ?_ ?_

theorem ackReport_moves {m : Nat} {r s : State} (hm : 263424 ||| m = m) (h : Moves m r s) (x0 : _)  :
    Moves m r (Sys2Proof.Machine.ackReport x0 s) := by
  unfold Sys2Proof.Machine.ackReport
  try dsimp only
  repeat' first
    | with_reducible assumption
    | (with_reducible refine mask_sub hm ?_); exact rfl
    | with_reducible refine stickyEnd_moves ?_ ?_ _ _ _
    | with_reducible refine onChan_moves ?_ ?_ _ _
    | with_reducible refine chanAgain_moves ?_ ?_ _ _
    | with_reducible refine stickyField_after _ _ _ _ _ _ ?_
    | with_reducible refine stickyRegs_after _ _ _ ?_
    | with_reducible exact RegsOn.refl _
    | exact fun e => mwf_mset _ _ _ _ e
    | with_reducible exact RegsOn.same rfl
    | with_reducible refine Moves.ite ?_ ?_
    | with_reducible refine Moves.dite ?_ ?_
    | with_reducible refine Moves.ite_snd ?_ ?_
    | with_reducible refine Moves.foldl ?_ _ ?_
    | with_reducible refine Moves.foldl_snd ?_ _ ?_
    | with_reducible refine Moves.elim _ ?_ ?_
    | with_reducible intro _
    | split
    | with_reducible refine Moves.set_regs ?_ ?_ ?_

theorem ackWrite_moves {m : Nat} {r s : State} (hm : 263424 ||| m = m) (h : Moves m r s) (x0 : _) (x1 : _) (x2 : _)  :
    Moves m r (Sys2Proof.Machine.ackWrite x0 x1 x2 s) := by
  unfold Sys2Proof.Machine.ackWrite
  try dsimp only
  repeat' first
    | with_reducible assumption
    | with_reducible refine ackReport_moves ?_ ?_ _
    | with_reducible refine Moves.ite ?_ ?_
    | with_reducible refine Moves.dite ?_ ?_
    | with_reducible refine Moves.ite_snd ?_ ?_
    | with_reducible refine Moves.foldl ?_ _ ?_
    | with_reducible refine Moves.foldl_snd ?_ _ ?_
    | with_reducible refine Moves.elim _ ?_ ?_
    | with_reducible intro _
    | split

theorem regStore_moves {m : Nat} {r s : State} (hm : 25116638 ||| m = m) (h : Moves m r s) (x0 : _) (x1 : _) (x2 : _)  :
    Moves m r (Sys2Proof.Machine.regStore x0 x1 x2 s) := by
  unfold Sys2Proof.Machine.regStore
  try dsimp only
  repeat' first
    | with_reducible assumption
    | (with_reducible refine mask_sub hm ?_); exact rfl
    | with_reducible refine gnssWrite_moves ?_ ?_ _ _ _
    | with_reducible refine tdcWrite_moves ?_ ?_ _ _
    | with_reducible refine mileWrite_moves ?_ ?_ _ _
    | with_reducible refine timeWrite_moves ?_ ?_ _ _
    | with_reducible refine snapGo_moves ?_ ?_ _
    | with_reducible refine icuWrite_moves ?_ ?_ _ _ _ _
    | with_reducible refine ctrlWrite_moves ?_ ?_ _ _ _
    | with_reducible refine indWrite_moves ?_ ?_ _ _ _
    | with_reducible refine indAddrWrite_moves ?_ ?_ _ _
    | with_reducible refine mboxWrite_moves ?_ ?_ _ _ _ _
    | with_reducible refine lkWrite_moves ?_ ?_ _ _ _ _ _ _ _
    | with_reducible refine ackWrite_moves ?_ ?_ _ _ _
    | with_reducible refine Moves.ite ?_ ?_
    | with_reducible refine Moves.dite ?_ ?_
    | with_reducible refine Moves.ite_snd ?_ ?_
    | with_reducible refine Moves.foldl ?_ _ ?_
    | with_reducible refine Moves.foldl_snd ?_ _ ?_
    | with_reducible refine Moves.elim _ ?_ ?_
    | with_reducible intro _
    | split

theorem regWrite_moves {m : Nat} {r s : State} (hm : 25116638 ||| m = m) (h : Moves m r s) (x0 : _) (x1 : _) (x2 : _)  :
    Moves m r (Sys2Proof.Machine.regWrite x0 x1 x2 s) := by
  unfold Sys2Proof.Machine.regWrite
  repeat' first
    | with_reducible assumption
    | (with_reducible refine mask_sub hm ?_); exact rfl
    | with_reducible refine regStore_moves ?_ ?_ _ _ _
    | with_reducible refine writeBy_moves ?_ ?_ _ _ _ ?_
    | with_reducible refine Moves.ite ?_ ?_
    | with_reducible refine Moves.dite ?_ ?_
    | with_reducible refine Moves.ite_snd ?_ ?_
    | with_reducible refine Moves.foldl ?_ _ ?_
    | with_reducible refine Moves.foldl_snd ?_ _ ?_
    | with_reducible refine Moves.elim _ ?_ ?_
    | with_reducible intro _

theorem execIcuComplete_moves {m : Nat} {r s : State} (hm : 25116638 ||| m = m) (h : Moves m r s) (x0 : _) (x1 : _)  :
    MovesOut m r (Sys2Proof.Machine.execIcuComplete x0 x1 s) := by
  unfold Sys2Proof.Machine.execIcuComplete
  repeat' first
    | with_reducible assumption
    | with_reducible refine regWrite_moves ?_ ?_ _ _ _
    | with_reducible refine Moves.ite ?_ ?_
    | with_reducible refine Moves.dite ?_ ?_
    | with_reducible refine Moves.ite_snd ?_ ?_
    | with_reducible refine Moves.foldl ?_ _ ?_
    | with_reducible refine Moves.foldl_snd ?_ _ ?_
    | with_reducible refine Moves.elim _ ?_ ?_
    | with_reducible refine MovesOut.next ?_

theorem plainRead_moves {m : Nat} {r s : State} (hm : 262144 ||| m = m) (h : Moves m r s) (x0 : _) (x1 : _)  :
    Moves m r (Sys2Proof.Machine.plainRead x0 x1 s).2 := by
  unfold Sys2Proof.Machine.plainRead
  repeat' first
    | with_reducible assumption
    | with_reducible refine stickyTake_moves ?_ ?_ _ _
    | with_reducible refine shadowSet_moves ?_ ?_ _ _ _
    | with_reducible refine Moves.ite ?_ ?_

theorem latchRead_moves {m : Nat} {r s : State} (hm : 262144 ||| m = m) (h : Moves m r s) (x0 : _) (x1 : _) (x2 : _) (x3 : _) (x4 : _)  :
    Moves m r (Sys2Proof.Machine.latchRead x0 x1 x2 x3 x4 s).2 := by
  unfold Sys2Proof.Machine.latchRead
  repeat' first
    | with_reducible assumption
    | with_reducible refine stickyField_after _ _ _ _ _ _ ?_
    | with_reducible refine stickyRegs_after _ _ _ ?_
    | with_reducible exact RegsOn.refl _
    | with_reducible exact RegsOn.same rfl
    | with_reducible refine Moves.ite ?_ ?_
    | with_reducible refine Moves.dite ?_ ?_
    | with_reducible refine Moves.ite_snd ?_ ?_
    | with_reducible refine Moves.foldl ?_ _ ?_
    | with_reducible refine Moves.foldl_snd ?_ _ ?_
    | with_reducible refine Moves.elim _ ?_ ?_
    | with_reducible intro _
    | with_reducible refine Moves.set_regs ?_ ?_ ?_

theorem chanRegion_moves {m : Nat} {r s : State} (hm : 262400 ||| m = m) (h : Moves m r s) (x0 : _) (x1 : _) (x2 : _) (x3 : _)  :
    Moves m r (Sys2Proof.Machine.chanRegion x0 x1 x2 x3 s).2 := by
  unfold Sys2Proof.Machine.chanRegion
  split
  · exact h
  · rename_i n
    have hx := chanRead_moves (mask_sub hm rfl) h x0 n x2
    dsimp only
    split
    · with_reducible exact Moves.ite_snd hx (onChan_moves (mask_sub hm rfl) hx _ _)
    · rename_i i _
      have h1 := reportNow_moves (mask_sub hm rfl) (chanAgain_moves (mask_sub hm rfl) hx n x3) i x3
      with_reducible exact h1.set_regs (mask_sub hm rfl) (.same rfl)

theorem regionWord_moves {m : Nat} {r s : State} (hm : 262400 ||| m = m) (h : Moves m r s) (x0 : _) (x1 : _)  :
    Moves m r (Sys2Proof.Machine.regionWord x0 x1 s).2 := by
  unfold Sys2Proof.Machine.regionWord
  split
  · exact Moves.ite (p := x1 = 0x14) (stickyTake_moves (mask_sub hm rfl) h _ _) h
  · exact h
  · exact chanRegion_moves hm h _ _ _ _
  · exact latchRead_moves (mask_sub hm rfl) h _ _ _ _ _
  · exact latchRead_moves (mask_sub hm rfl) h _ _ _ _ _
  · exact h

theorem indRead_moves {m : Nat} {r s : State} (hm : 2031872 ||| m = m) (h : Moves m r s) (x0 : _)  :
    Moves m r (Sys2Proof.Machine.indRead x0 s).2 := by
  unfold Sys2Proof.Machine.indRead
  try dsimp only
  repeat' first
    | with_reducible assumption
    | (with_reducible refine mask_sub hm ?_); exact rfl
    | with_reducible refine regionWord_moves ?_ ?_ _ _
    | with_reducible refine deny_moves ?_ ?_ _ _ _
    | with_reducible refine indStep_moves ?_ ?_ _
    | with_reducible refine Moves.ite ?_ ?_
    | with_reducible refine Moves.dite ?_ ?_
    | with_reducible refine Moves.ite_snd ?_ ?_
    | with_reducible refine Moves.foldl ?_ _ ?_
    | with_reducible refine Moves.foldl_snd ?_ _ ?_
    | with_reducible refine Moves.elim _ ?_ ?_
    | with_reducible intro _
    | split

theorem icuClaim_moves {m : Nat} {r s : State} (hm : 589824 ||| m = m) (h : Moves m r s) (x0 : _)  :
    Moves m r (Sys2Proof.Machine.icuClaim x0 s).2 := by
  unfold Sys2Proof.Machine.icuClaim
  repeat' first
    | with_reducible assumption
    | (with_reducible refine mask_sub hm ?_); exact rfl
    | with_reducible refine onTarget_moves ?_ ?_ _ _
    | with_reducible refine icuEval_moves ?_ ?_ 

theorem ownRead_moves {m : Nat} {r s : State} (hm : 6227140 ||| m = m) (h : Moves m r s) (x0 : _) (x1 : _) (x2 : _)  :
    ∀ p, (Sys2Proof.Machine.ownRead x0 x1 x2 s) = some p → MovesOut m r p := by
  intro p e
  unfold Sys2Proof.Machine.ownRead at e
  split at e
  · cases e; exact execNowLatchRead_moves (mask_sub hm rfl) h _ _
  · split at e
    · cases e; exact execOdometerRead_moves (mask_sub hm rfl) h _ _
    · split at e
      · cases e; exact execSnapshotRead_moves (mask_sub hm rfl) h _
      · split at e
        · cases e; exact execCapturePop_moves (mask_sub hm rfl) h _ _
        · split at e
          · cases e; exact execTdcResultPop_moves (mask_sub hm rfl) h _ _
          · split at e
            · cases e; exact execTsqPop_moves (mask_sub hm rfl) h _ _
            · cases e; exact execTsqLostRead_moves (mask_sub hm rfl) h _ _
            · cases e

theorem regRead_moves {m : Nat} {r s : State} (hm : 6227396 ||| m = m) (h : Moves m r s) (x0 : _) (x1 : _) (x2 : _)  :
    Moves m r (Sys2Proof.Machine.regRead x0 x1 x2 s) := by
  unfold Sys2Proof.Machine.regRead
  try dsimp only
  repeat' first
    | with_reducible assumption
    | (with_reducible refine mask_sub hm ?_); exact rfl
    | with_reducible refine plainRead_moves ?_ ?_ _ _
    | with_reducible refine indRead_moves ?_ ?_ _
    | with_reducible refine icuClaim_moves ?_ ?_ _
    | with_reducible refine after_moves ?_ ?_
    | with_reducible refine readBy_moves ?_ ?_ _ _ _ ?_
    | exact ownRead_moves (mask_sub hm rfl) h _ _ _ _ (by assumption)
    | with_reducible refine Moves.ite ?_ ?_
    | with_reducible refine Moves.dite ?_ ?_
    | with_reducible refine Moves.ite_snd ?_ ?_
    | with_reducible refine Moves.foldl ?_ _ ?_
    | with_reducible refine Moves.foldl_snd ?_ _ ?_
    | with_reducible refine Moves.elim _ ?_ ?_
    | with_reducible intro _
    | split

theorem busRead_moves {m : Nat} {r s : State} (hm : 6227396 ||| m = m) (h : Moves m r s) (x0 : _) (x1 : _)  :
    Moves m r (Sys2Proof.Machine.busRead x0 x1 s).2 := by
  unfold Sys2Proof.Machine.busRead
  try dsimp only
  repeat' first
    | with_reducible assumption
    | with_reducible refine regRead_moves ?_ ?_ _ _ _
    | with_reducible refine Moves.ite ?_ ?_
    | with_reducible refine Moves.dite ?_ ?_
    | with_reducible refine Moves.ite_snd ?_ ?_
    | with_reducible refine Moves.foldl ?_ _ ?_
    | with_reducible refine Moves.foldl_snd ?_ _ ?_
    | with_reducible refine Moves.elim _ ?_ ?_
    | with_reducible intro _
    | split

theorem busReads_moves {m : Nat} {r s : State} (hm : 6227396 ||| m = m) (h : Moves m r s) (x0 : _) (x1 : _) (x2 : _) (x3 : _) (x4 : _)  :
    Moves m r (Sys2Proof.Machine.busReads x0 x1 x2 x3 x4 s).2 := by
  induction x2 generalizing s x3 x4 with
  | zero => exact h
  | succ n ih =>
    unfold Sys2Proof.Machine.busReads
    dsimp only
    refine ih ?_ _ _
    split
    · exact h
    · exact busRead_moves hm h _ _

theorem reqFail_moves {m : Nat} {r s : State} (hm : 589824 ||| m = m) (h : Moves m r s) (x0 : _) (x1 : _) (x2 : _)  :
    Moves m r (Sys2Proof.Machine.reqFail x0 x1 x2 s) := by
  unfold Sys2Proof.Machine.reqFail
  repeat' first
    | with_reducible assumption
    | with_reducible refine deliver_moves ?_ ?_ _ _

theorem reqStart_moves {m : Nat} {r s : State} (hm : 2031616 ||| m = m) (h : Moves m r s) (x0 : _) (x1 : _)  :
    Moves m r (Sys2Proof.Machine.reqStart x0 x1 s) := by
  unfold Sys2Proof.Machine.reqStart
  try dsimp only
  repeat' first
    | with_reducible assumption
    | (with_reducible refine mask_sub hm ?_); exact rfl
    | with_reducible refine onMbox_moves ?_ ?_ _ _ ?_
    | with_reducible refine deny_moves ?_ ?_ _ _ _
    | with_reducible refine reqFail_moves ?_ ?_ _ _ _
    | (with_reducible assumption)
    | with_reducible refine Moves.ite ?_ ?_
    | with_reducible refine Moves.dite ?_ ?_
    | with_reducible refine Moves.ite_snd ?_ ?_
    | with_reducible refine Moves.foldl ?_ _ ?_
    | with_reducible refine Moves.foldl_snd ?_ _ ?_
    | with_reducible refine Moves.elim _ ?_ ?_
    | with_reducible intro _
    | split

theorem reqTake_moves {m : Nat} {r s : State} (hm : 2031616 ||| m = m) (h : Moves m r s) (x0 : _) (x1 : _)  :
    Moves m r (Sys2Proof.Machine.reqTake x0 x1 s) := by
  unfold Sys2Proof.Machine.reqTake
  repeat' first
    | with_reducible assumption
    | (with_reducible refine mask_sub hm ?_); exact rfl
    | with_reducible refine reqStart_moves ?_ ?_ _ _
    | with_reducible refine reqFail_moves ?_ ?_ _ _ _
    | with_reducible refine reqErr_moves ?_ ?_ _
    | with_reducible refine onMbox_moves ?_ ?_ _ _ ?_
    | (with_reducible assumption)
    | with_reducible exact HostOn.same rfl
    | with_reducible refine Moves.ite ?_ ?_
    | with_reducible refine Moves.dite ?_ ?_
    | with_reducible refine Moves.ite_snd ?_ ?_
    | with_reducible refine Moves.foldl ?_ _ ?_
    | with_reducible refine Moves.foldl_snd ?_ _ ?_
    | with_reducible refine Moves.elim _ ?_ ?_
    | with_reducible intro _
    | with_reducible refine Moves.set_host ?_ ?_ ?_

theorem mboxBy_moves {m : Nat} {r s : State} (hm : 25116250 ||| m = m) (h : Moves m r s) (x0 : _) (x1 : _) (x2 : _)  :
    Moves m r (Sys2Proof.Machine.mboxBy x0 x1 x2 s) := by
  unfold Sys2Proof.Machine.mboxBy
  repeat' first
    | with_reducible assumption
    | (with_reducible refine mask_sub hm ?_); exact rfl
    | with_reducible refine mboxWrite_moves ?_ ?_ _ _ _ _
    | with_reducible refine writeBy_moves ?_ ?_ _ _ _ ?_
    | with_reducible refine Moves.ite ?_ ?_
    | with_reducible refine Moves.dite ?_ ?_
    | with_reducible refine Moves.ite_snd ?_ ?_
    | with_reducible refine Moves.foldl ?_ _ ?_
    | with_reducible refine Moves.foldl_snd ?_ _ ?_
    | with_reducible refine Moves.elim _ ?_ ?_
    | with_reducible intro _

theorem execCompletionCiWrite_moves {m : Nat} {r s : State} (hm : 25116250 ||| m = m) (h : Moves m r s) (x0 : _) (x1 : _)  :
    MovesOut m r (Sys2Proof.Machine.execCompletionCiWrite x0 x1 s) := by
  unfold Sys2Proof.Machine.execCompletionCiWrite
  repeat' first
    | with_reducible assumption
    | with_reducible refine mboxBy_moves ?_ ?_ _ _ _
    | with_reducible refine Moves.ite ?_ ?_
    | with_reducible refine Moves.dite ?_ ?_
    | with_reducible refine Moves.ite_snd ?_ ?_
    | with_reducible refine Moves.foldl ?_ _ ?_
    | with_reducible refine Moves.foldl_snd ?_ _ ?_
    | with_reducible refine Moves.elim _ ?_ ?_
    | with_reducible refine MovesOut.next ?_

theorem smbusDiscard_moves {m : Nat} {r s : State} (hm : 25116250 ||| m = m) (h : Moves m r s)   :
    Moves m r (Sys2Proof.Machine.smbusDiscard s) := by
  unfold Sys2Proof.Machine.smbusDiscard
  try dsimp only
  repeat' first
    | with_reducible assumption
    | (with_reducible refine mask_sub hm ?_); exact rfl
    | with_reducible refine reqErr_moves ?_ ?_ _
    | with_reducible refine faultEvent_moves ?_ ?_ _
    | with_reducible refine Moves.ite ?_ ?_
    | with_reducible refine Moves.dite ?_ ?_
    | with_reducible refine Moves.ite_snd ?_ ?_
    | with_reducible refine Moves.foldl ?_ _ ?_
    | with_reducible refine Moves.foldl_snd ?_ _ ?_
    | with_reducible refine Moves.elim _ ?_ ?_
    | with_reducible intro _
    | split

theorem execRegisterWrite_moves {m : Nat} {r s : State} (hm : 25116638 ||| m = m) (h : Moves m r s) (x0 : _) (x1 : _) (x2 : _) (x3 : _)  :
    MovesOut m r (Sys2Proof.Machine.execRegisterWrite x0 x1 x2 x3 s) := by
  unfold Sys2Proof.Machine.execRegisterWrite
  repeat' first
    | with_reducible assumption
    | (with_reducible refine mask_sub hm ?_); exact rfl
    | with_reducible refine writeBy_moves ?_ ?_ _ _ _ ?_
    | with_reducible refine regWrite_moves ?_ ?_ _ _ _
    | with_reducible refine Moves.self ?_
    | with_reducible refine Moves.ite ?_ ?_
    | with_reducible refine Moves.dite ?_ ?_
    | with_reducible refine Moves.ite_snd ?_ ?_
    | with_reducible refine Moves.foldl ?_ _ ?_
    | with_reducible refine Moves.foldl_snd ?_ _ ?_
    | with_reducible refine Moves.elim _ ?_ ?_
    | with_reducible refine MovesOut.next ?_
    | with_reducible refine MovesOut.ite ?_ ?_
    | with_reducible intro _

theorem busWrite_moves {m : Nat} {r s : State} (hm : 25116638 ||| m = m) (h : Moves m r s) (x0 : _) (x1 : _) (x2 : _)  :
    Moves m r (Sys2Proof.Machine.busWrite x0 x1 x2 s) := by
  unfold Sys2Proof.Machine.busWrite
  try dsimp only
  repeat' first
    | with_reducible assumption
    | with_reducible refine regWrite_moves ?_ ?_ _ _ _
    | with_reducible refine Moves.ite ?_ ?_
    | with_reducible refine Moves.dite ?_ ?_
    | with_reducible refine Moves.ite_snd ?_ ?_
    | with_reducible refine Moves.foldl ?_ _ ?_
    | with_reducible refine Moves.foldl_snd ?_ _ ?_
    | with_reducible refine Moves.elim _ ?_ ?_
    | with_reducible intro _
    | split

theorem busWrites_moves {m : Nat} {r s : State} (hm : 25116638 ||| m = m) (h : Moves m r s) (x0 : _) (x1 : _) (x2 : _)  :
    Moves m r (Sys2Proof.Machine.busWrites x0 x1 x2 s) := by
  induction x2 generalizing s x1 with
  | nil => exact h
  | cons v l ih => exact ih (busWrite_moves hm h _ _ _) _

theorem execSmbusBlockWrite_moves {m : Nat} {r s : State} (hm : 25116638 ||| m = m) (h : Moves m r s) (x0 : _) (x1 : _)  :
    MovesOut m r (Sys2Proof.Machine.execSmbusBlockWrite x0 x1 s) := by
  unfold Sys2Proof.Machine.execSmbusBlockWrite
  repeat' first
    | with_reducible assumption
    | (with_reducible refine mask_sub hm ?_); exact rfl
    | with_reducible refine busWrites_moves ?_ ?_ _ _ _
    | with_reducible refine smbusDiscard_moves ?_ ?_ 
    | with_reducible exact HostOn.same rfl
    | with_reducible refine Moves.ite ?_ ?_
    | with_reducible refine Moves.dite ?_ ?_
    | with_reducible refine Moves.ite_snd ?_ ?_
    | with_reducible refine Moves.foldl ?_ _ ?_
    | with_reducible refine Moves.foldl_snd ?_ _ ?_
    | with_reducible refine Moves.elim _ ?_ ?_
    | with_reducible refine MovesOut.next ?_
    | with_reducible refine MovesOut.ite ?_ ?_
    | with_reducible intro _
    | with_reducible refine Moves.set_host ?_ ?_ ?_

theorem execCommandDispatch_moves {m : Nat} {r s : State} (hm : 2031616 ||| m = m) (h : Moves m r s) (x0 : _) (x1 : _)  :
    MovesOut m r (Sys2Proof.Machine.execCommandDispatch x0 x1 s) := by
  unfold Sys2Proof.Machine.execCommandDispatch
  repeat' first
    | with_reducible assumption
    | with_reducible refine reqTake_moves ?_ ?_ _ _
    | with_reducible refine Moves.ite ?_ ?_
    | with_reducible refine Moves.dite ?_ ?_
    | with_reducible refine Moves.ite_snd ?_ ?_
    | with_reducible refine Moves.foldl ?_ _ ?_
    | with_reducible refine Moves.foldl_snd ?_ _ ?_
    | with_reducible refine Moves.elim _ ?_ ?_
    | with_reducible refine MovesOut.next ?_

theorem execSleepSet_moves {m : Nat} {r s : State} (hm : 25116250 ||| m = m) (h : Moves m r s) (x0 : _)  :
    MovesOut m r (Sys2Proof.Machine.execSleepSet x0 s) := by
  unfold Sys2Proof.Machine.execSleepSet
  repeat' first
    | with_reducible assumption
    | with_reducible refine mboxBy_moves ?_ ?_ _ _ _
    | with_reducible refine Moves.ite ?_ ?_
    | with_reducible refine Moves.dite ?_ ?_
    | with_reducible refine Moves.ite_snd ?_ ?_
    | with_reducible refine Moves.foldl ?_ _ ?_
    | with_reducible refine Moves.foldl_snd ?_ _ ?_
    | with_reducible refine Moves.elim _ ?_ ?_
    | with_reducible refine MovesOut.next ?_

theorem slotLose_moves {m : Nat} {r s : State} (hm : 6227456 ||| m = m) (h : Moves m r s) (x0 : _)  :
    Moves m r (Sys2Proof.Machine.slotLose x0 s) := by
  unfold Sys2Proof.Machine.slotLose
  have h1 := Moves.foldl (m := m) (r := r) (f := fun s p => txStart p (tsqFree p x0 (txDrop p x0 s)))
    (fun s p hs => txStart_moves (mask_sub hm rfl) (tsqFree_moves (mask_sub hm rfl) (txDrop_moves (mask_sub hm rfl) hs _ _) _ _) _)
    (List.finRange 4) h
  have h2 := onMbox_moves (mask_sub hm rfl) h1 x0 MboxSlot.lose fun _ e => e
  with_reducible exact stickyAt_moves (mask_sub hm rfl) h2 _ _ _

theorem execSmbusAlertResponse_moves {m : Nat} {r s : State} (hm : 65536 ||| m = m) (h : Moves m r s)   :
    MovesOut m r (Sys2Proof.Machine.execSmbusAlertResponse s) := by
  unfold Sys2Proof.Machine.execSmbusAlertResponse
  repeat' first
    | with_reducible assumption
    | with_reducible exact HostOn.same rfl
    | with_reducible refine Moves.ite ?_ ?_
    | with_reducible refine Moves.dite ?_ ?_
    | with_reducible refine Moves.ite_snd ?_ ?_
    | with_reducible refine Moves.foldl ?_ _ ?_
    | with_reducible refine Moves.foldl_snd ?_ _ ?_
    | with_reducible refine Moves.elim _ ?_ ?_
    | with_reducible refine MovesOut.next ?_
    | with_reducible refine MovesOut.ite ?_ ?_
    | with_reducible intro _
    | with_reducible refine Moves.set_host ?_ ?_ ?_

theorem execSmbusSetPointer_moves {m : Nat} {r s : State} (hm : 25116250 ||| m = m) (h : Moves m r s) (x0 : _) (x1 : _)  :
    MovesOut m r (Sys2Proof.Machine.execSmbusSetPointer x0 x1 s) := by
  unfold Sys2Proof.Machine.execSmbusSetPointer
  repeat' first
    | with_reducible assumption
    | (with_reducible refine mask_sub hm ?_); exact rfl
    | with_reducible refine smbusDiscard_moves ?_ ?_ 
    | with_reducible exact HostOn.same rfl
    | with_reducible refine Moves.ite ?_ ?_
    | with_reducible refine Moves.dite ?_ ?_
    | with_reducible refine Moves.ite_snd ?_ ?_
    | with_reducible refine Moves.foldl ?_ _ ?_
    | with_reducible refine Moves.foldl_snd ?_ _ ?_
    | with_reducible refine Moves.elim _ ?_ ?_
    | with_reducible refine MovesOut.next ?_
    | with_reducible refine MovesOut.ite ?_ ?_
    | with_reducible intro _
    | with_reducible refine Moves.set_host ?_ ?_ ?_

theorem execMultiwordFirstRead_moves {m : Nat} {r s : State} (hm : 6227396 ||| m = m) (h : Moves m r s) (x0 : _) (x1 : _) (x2 : _)  :
    MovesOut m r (Sys2Proof.Machine.execMultiwordFirstRead x0 x1 x2 s) := by
  unfold Sys2Proof.Machine.execMultiwordFirstRead
  repeat' first
    | with_reducible assumption
    | (with_reducible refine mask_sub hm ?_); exact rfl
    | with_reducible refine atTick_moves ?_ ?_ _
    | with_reducible refine regRead_moves ?_ ?_ _ _ _
    | with_reducible refine Moves.ite ?_ ?_
    | with_reducible refine Moves.dite ?_ ?_
    | with_reducible refine Moves.ite_snd ?_ ?_
    | with_reducible refine Moves.foldl ?_ _ ?_
    | with_reducible refine Moves.foldl_snd ?_ _ ?_
    | with_reducible refine Moves.elim _ ?_ ?_
    | with_reducible refine MovesOut.next ?_

theorem execSmbusBlockRead_moves {m : Nat} {r s : State} (hm : 6227396 ||| m = m) (h : Moves m r s) (x0 : _)  :
    MovesOut m r (Sys2Proof.Machine.execSmbusBlockRead x0 s) := by
  unfold Sys2Proof.Machine.execSmbusBlockRead
  have h1 := busReads_moves (mask_sub hm rfl) h 9 [] 8 0 s.host.smbPtr.toNat
  generalize busReads 9 [] 8 0 s.host.smbPtr.toNat s = x at h1 ⊢
  exact .next (h1.set_host (mask_sub hm rfl) (.same rfl))

theorem execPerstNRelease_moves {m : Nat} {r s : State} (hm : 65536 ||| m = m) (h : Moves m r s)   :
    MovesOut m r (Sys2Proof.Machine.execPerstNRelease s) := by
  unfold Sys2Proof.Machine.execPerstNRelease
  repeat' first
    | with_reducible assumption
    | with_reducible exact HostOn.same rfl
    | with_reducible refine Moves.ite ?_ ?_
    | with_reducible refine Moves.dite ?_ ?_
    | with_reducible refine Moves.ite_snd ?_ ?_
    | with_reducible refine Moves.foldl ?_ _ ?_
    | with_reducible refine Moves.foldl_snd ?_ _ ?_
    | with_reducible refine Moves.elim _ ?_ ?_
    | with_reducible refine MovesOut.next ?_
    | with_reducible refine MovesOut.ite ?_ ?_
    | with_reducible intro _
    | with_reducible refine Moves.set_host ?_ ?_ ?_

theorem execPcieConfigWrite_moves {m : Nat} {r s : State} (hm : 589824 ||| m = m) (h : Moves m r s) (x0 : _) (x1 : _) (x2 : _) (x3 : _) (x4 : _)  :
    MovesOut m r (Sys2Proof.Machine.execPcieConfigWrite x0 x1 x2 x3 x4 s) := by
  unfold Sys2Proof.Machine.execPcieConfigWrite
  repeat' first
    | with_reducible assumption
    | (with_reducible refine mask_sub hm ?_); exact rfl
    | with_reducible refine flushHeld_moves ?_ ?_ _
    | with_reducible exact HostOn.same rfl
    | with_reducible refine Moves.ite ?_ ?_
    | with_reducible refine Moves.dite ?_ ?_
    | with_reducible refine Moves.ite_snd ?_ ?_
    | with_reducible refine Moves.foldl ?_ _ ?_
    | with_reducible refine Moves.foldl_snd ?_ _ ?_
    | with_reducible refine Moves.elim _ ?_ ?_
    | with_reducible refine MovesOut.next ?_
    | with_reducible refine MovesOut.ite ?_ ?_
    | with_reducible intro _
    | with_reducible refine Moves.set_host ?_ ?_ ?_

theorem execIcpHello_moves {m : Nat} {r s : State} (hm : 2031616 ||| m = m) (h : Moves m r s) (x0 : _) (x1 : _)  :
    MovesOut m r (Sys2Proof.Machine.execIcpHello x0 x1 s) := by
  unfold Sys2Proof.Machine.execIcpHello
  repeat' first
    | with_reducible assumption
    | (with_reducible refine mask_sub hm ?_); exact rfl
    | with_reducible refine onMbox_moves ?_ ?_ _ _ ?_
    | with_reducible refine icp_moves ?_ ?_ _ _ _ ?_
    | (with_reducible assumption)
    | with_reducible refine Moves.ite ?_ ?_
    | with_reducible refine Moves.dite ?_ ?_
    | with_reducible refine Moves.ite_snd ?_ ?_
    | with_reducible refine Moves.foldl ?_ _ ?_
    | with_reducible refine Moves.foldl_snd ?_ _ ?_
    | with_reducible refine Moves.elim _ ?_ ?_
    | with_reducible refine MovesOut.next ?_
    | with_reducible refine MovesOut.ite ?_ ?_
    | with_reducible refine MovesRes.ite ?_ ?_
    | with_reducible refine MovesRes.done ?_
    | with_reducible refine MovesRes.later ?_
    | with_reducible intro _

theorem execIcuPendWithdraw_moves {m : Nat} {r s : State} (hm : 25116638 ||| m = m) (h : Moves m r s) (x0 : _) (x1 : _) (x2 : _)  :
    MovesOut m r (Sys2Proof.Machine.execIcuPendWithdraw x0 x1 x2 s) := by
  unfold Sys2Proof.Machine.execIcuPendWithdraw
  repeat' first
    | with_reducible assumption
    | with_reducible refine regWrite_moves ?_ ?_ _ _ _
    | with_reducible refine Moves.ite ?_ ?_
    | with_reducible refine Moves.dite ?_ ?_
    | with_reducible refine Moves.ite_snd ?_ ?_
    | with_reducible refine Moves.foldl ?_ _ ?_
    | with_reducible refine Moves.foldl_snd ?_ _ ?_
    | with_reducible refine Moves.elim _ ?_ ?_
    | with_reducible refine MovesOut.next ?_

theorem execIcuPendRaise_moves {m : Nat} {r s : State} (hm : 25116638 ||| m = m) (h : Moves m r s) (x0 : _) (x1 : _) (x2 : _)  :
    MovesOut m r (Sys2Proof.Machine.execIcuPendRaise x0 x1 x2 s) := by
  unfold Sys2Proof.Machine.execIcuPendRaise
  repeat' first
    | with_reducible assumption
    | with_reducible refine regWrite_moves ?_ ?_ _ _ _
    | with_reducible refine Moves.ite ?_ ?_
    | with_reducible refine Moves.dite ?_ ?_
    | with_reducible refine Moves.ite_snd ?_ ?_
    | with_reducible refine Moves.foldl ?_ _ ?_
    | with_reducible refine Moves.foldl_snd ?_ _ ?_
    | with_reducible refine Moves.elim _ ?_ ?_
    | with_reducible refine MovesOut.next ?_

theorem execIcuClaim_moves {m : Nat} {r s : State} (hm : 6227396 ||| m = m) (h : Moves m r s) (x0 : _)  :
    MovesOut m r (Sys2Proof.Machine.execIcuClaim x0 s) := by
  unfold Sys2Proof.Machine.execIcuClaim
  repeat' first
    | with_reducible assumption
    | with_reducible refine regRead_moves ?_ ?_ _ _ _
    | with_reducible refine Moves.ite ?_ ?_
    | with_reducible refine Moves.dite ?_ ?_
    | with_reducible refine Moves.ite_snd ?_ ?_
    | with_reducible refine Moves.foldl ?_ _ ?_
    | with_reducible refine Moves.foldl_snd ?_ _ ?_
    | with_reducible refine Moves.elim _ ?_ ?_
    | with_reducible refine MovesOut.next ?_

theorem execIndDataWrite_moves {m : Nat} {r s : State} (hm : 25116638 ||| m = m) (h : Moves m r s) (x0 : _) (x1 : _)  :
    MovesOut m r (Sys2Proof.Machine.execIndDataWrite x0 x1 s) := by
  unfold Sys2Proof.Machine.execIndDataWrite
  repeat' first
    | with_reducible assumption
    | with_reducible refine regWrite_moves ?_ ?_ _ _ _
    | with_reducible refine Moves.ite ?_ ?_
    | with_reducible refine Moves.dite ?_ ?_
    | with_reducible refine Moves.ite_snd ?_ ?_
    | with_reducible refine Moves.foldl ?_ _ ?_
    | with_reducible refine Moves.foldl_snd ?_ _ ?_
    | with_reducible refine Moves.elim _ ?_ ?_
    | with_reducible refine MovesOut.next ?_

theorem execIndDataRead_moves {m : Nat} {r s : State} (hm : 6227396 ||| m = m) (h : Moves m r s) (x0 : _)  :
    MovesOut m r (Sys2Proof.Machine.execIndDataRead x0 s) := by
  unfold Sys2Proof.Machine.execIndDataRead
  repeat' first
    | with_reducible assumption
    | with_reducible refine regRead_moves ?_ ?_ _ _ _
    | with_reducible refine Moves.ite ?_ ?_
    | with_reducible refine Moves.dite ?_ ?_
    | with_reducible refine Moves.ite_snd ?_ ?_
    | with_reducible refine Moves.foldl ?_ _ ?_
    | with_reducible refine Moves.foldl_snd ?_ _ ?_
    | with_reducible refine Moves.elim _ ?_ ?_
    | with_reducible refine MovesOut.next ?_

theorem execReportAck_moves {m : Nat} {r s : State} (hm : 25116638 ||| m = m) (h : Moves m r s) (x0 : _) (x1 : _) (x2 : _)  :
    MovesOut m r (Sys2Proof.Machine.execReportAck x0 x1 x2 s) := by
  unfold Sys2Proof.Machine.execReportAck
  repeat' first
    | with_reducible assumption
    | with_reducible refine regWrite_moves ?_ ?_ _ _ _
    | with_reducible refine Moves.ite ?_ ?_
    | with_reducible refine Moves.dite ?_ ?_
    | with_reducible refine Moves.ite_snd ?_ ?_
    | with_reducible refine Moves.foldl ?_ _ ?_
    | with_reducible refine Moves.foldl_snd ?_ _ ?_
    | with_reducible refine Moves.elim _ ?_ ?_
    | with_reducible refine MovesOut.next ?_

theorem execReportRead_moves {m : Nat} {r s : State} (hm : 6227396 ||| m = m) (h : Moves m r s) (x0 : _) (x1 : _)  :
    MovesOut m r (Sys2Proof.Machine.execReportRead x0 x1 s) := by
  unfold Sys2Proof.Machine.execReportRead
  repeat' first
    | with_reducible assumption
    | with_reducible refine regRead_moves ?_ ?_ _ _ _
    | with_reducible refine Moves.ite ?_ ?_
    | with_reducible refine Moves.dite ?_ ?_
    | with_reducible refine Moves.ite_snd ?_ ?_
    | with_reducible refine Moves.foldl ?_ _ ?_
    | with_reducible refine Moves.foldl_snd ?_ _ ?_
    | with_reducible refine Moves.elim _ ?_ ?_
    | with_reducible refine MovesOut.next ?_

theorem execStickyRead_moves {m : Nat} {r s : State} (hm : 6227396 ||| m = m) (h : Moves m r s) (x0 : _) (x1 : _)  :
    MovesOut m r (Sys2Proof.Machine.execStickyRead x0 x1 s) := by
  unfold Sys2Proof.Machine.execStickyRead
  repeat' first
    | with_reducible assumption
    | with_reducible refine regRead_moves ?_ ?_ _ _ _
    | with_reducible refine Moves.ite ?_ ?_
    | with_reducible refine Moves.dite ?_ ?_
    | with_reducible refine Moves.ite_snd ?_ ?_
    | with_reducible refine Moves.foldl ?_ _ ?_
    | with_reducible refine Moves.foldl_snd ?_ _ ?_
    | with_reducible refine Moves.elim _ ?_ ?_
    | with_reducible refine MovesOut.next ?_

theorem execLockSet_moves {m : Nat} {r s : State} (hm : 25116638 ||| m = m) (h : Moves m r s) (x0 : _) (x1 : _)  :
    MovesOut m r (Sys2Proof.Machine.execLockSet x0 x1 s) := by
  unfold Sys2Proof.Machine.execLockSet
  repeat' first
    | with_reducible assumption
    | with_reducible refine regWrite_moves ?_ ?_ _ _ _
    | with_reducible refine Moves.ite ?_ ?_
    | with_reducible refine Moves.dite ?_ ?_
    | with_reducible refine Moves.ite_snd ?_ ?_
    | with_reducible refine Moves.foldl ?_ _ ?_
    | with_reducible refine Moves.foldl_snd ?_ _ ?_
    | with_reducible refine Moves.elim _ ?_ ?_
    | with_reducible refine MovesOut.next ?_

theorem execAliasTglWrite_moves {m : Nat} {r s : State} (hm : 25116638 ||| m = m) (h : Moves m r s) (x0 : _) (x1 : _) (x2 : _)  :
    MovesOut m r (Sys2Proof.Machine.execAliasTglWrite x0 x1 x2 s) := by
  unfold Sys2Proof.Machine.execAliasTglWrite
  repeat' first
    | with_reducible assumption
    | with_reducible refine regWrite_moves ?_ ?_ _ _ _
    | with_reducible refine Moves.ite ?_ ?_
    | with_reducible refine Moves.dite ?_ ?_
    | with_reducible refine Moves.ite_snd ?_ ?_
    | with_reducible refine Moves.foldl ?_ _ ?_
    | with_reducible refine Moves.foldl_snd ?_ _ ?_
    | with_reducible refine Moves.elim _ ?_ ?_
    | with_reducible refine MovesOut.next ?_

theorem execAliasClrWrite_moves {m : Nat} {r s : State} (hm : 25116638 ||| m = m) (h : Moves m r s) (x0 : _) (x1 : _) (x2 : _)  :
    MovesOut m r (Sys2Proof.Machine.execAliasClrWrite x0 x1 x2 s) := by
  unfold Sys2Proof.Machine.execAliasClrWrite
  repeat' first
    | with_reducible assumption
    | with_reducible refine regWrite_moves ?_ ?_ _ _ _
    | with_reducible refine Moves.ite ?_ ?_
    | with_reducible refine Moves.dite ?_ ?_
    | with_reducible refine Moves.ite_snd ?_ ?_
    | with_reducible refine Moves.foldl ?_ _ ?_
    | with_reducible refine Moves.foldl_snd ?_ _ ?_
    | with_reducible refine Moves.elim _ ?_ ?_
    | with_reducible refine MovesOut.next ?_

theorem execAliasSetWrite_moves {m : Nat} {r s : State} (hm : 25116638 ||| m = m) (h : Moves m r s) (x0 : _) (x1 : _) (x2 : _)  :
    MovesOut m r (Sys2Proof.Machine.execAliasSetWrite x0 x1 x2 s) := by
  unfold Sys2Proof.Machine.execAliasSetWrite
  repeat' first
    | with_reducible assumption
    | with_reducible refine regWrite_moves ?_ ?_ _ _ _
    | with_reducible refine Moves.ite ?_ ?_
    | with_reducible refine Moves.dite ?_ ?_
    | with_reducible refine Moves.ite_snd ?_ ?_
    | with_reducible refine Moves.foldl ?_ _ ?_
    | with_reducible refine Moves.foldl_snd ?_ _ ?_
    | with_reducible refine Moves.elim _ ?_ ?_
    | with_reducible refine MovesOut.next ?_

theorem execHostSpiStatus_moves {m : Nat} {r s : State} (hm : 65536 ||| m = m) (h : Moves m r s)   :
    MovesOut m r (Sys2Proof.Machine.execHostSpiStatus s) := by
  unfold Sys2Proof.Machine.execHostSpiStatus
  repeat' first
    | with_reducible assumption
    | with_reducible exact HostOn.same rfl
    | with_reducible refine Moves.ite ?_ ?_
    | with_reducible refine Moves.dite ?_ ?_
    | with_reducible refine Moves.ite_snd ?_ ?_
    | with_reducible refine Moves.foldl ?_ _ ?_
    | with_reducible refine Moves.foldl_snd ?_ _ ?_
    | with_reducible refine Moves.elim _ ?_ ?_
    | with_reducible refine MovesOut.next ?_
    | with_reducible refine MovesOut.ite ?_ ?_
    | with_reducible intro _
    | with_reducible refine Moves.set_host ?_ ?_ ?_

theorem spiBad_moves {m : Nat} {r s : State} (hm : 25116250 ||| m = m) (h : Moves m r s) (x0 : _)  :
    Moves m r (Sys2Proof.Machine.spiBad x0 s) := by
  unfold Sys2Proof.Machine.spiBad
  repeat' first
    | with_reducible assumption
    | with_reducible refine faultEvent_moves ?_ ?_ _
    | with_reducible refine Moves.ite ?_ ?_

theorem execHostSpiRead_moves {m : Nat} {r s : State} (hm : 25116638 ||| m = m) (h : Moves m r s) (x0 : _) (x1 : _) (x2 : _)  :
    MovesOut m r (Sys2Proof.Machine.execHostSpiRead x0 x1 x2 s) := by
  unfold Sys2Proof.Machine.execHostSpiRead
  repeat' first
    | with_reducible assumption
    | (with_reducible refine mask_sub hm ?_); exact rfl
    | with_reducible refine faultEvent_moves ?_ ?_ _
    | with_reducible refine busReads_moves ?_ ?_ _ _ _ _ _
    | with_reducible refine spiBad_moves ?_ ?_ _
    | with_reducible exact HostOn.same rfl
    | with_reducible refine Moves.ite ?_ ?_
    | with_reducible refine Moves.dite ?_ ?_
    | with_reducible refine Moves.ite_snd ?_ ?_
    | with_reducible refine Moves.foldl ?_ _ ?_
    | with_reducible refine Moves.foldl_snd ?_ _ ?_
    | with_reducible refine Moves.elim _ ?_ ?_
    | with_reducible refine MovesOut.next ?_
    | with_reducible refine MovesOut.ite ?_ ?_
    | with_reducible intro _
    | with_reducible refine Moves.set_host ?_ ?_ ?_

theorem execHostSpiWrite_moves {m : Nat} {r s : State} (hm : 25116638 ||| m = m) (h : Moves m r s) (x0 : _) (x1 : _) (x2 : _)  :
    MovesOut m r (Sys2Proof.Machine.execHostSpiWrite x0 x1 x2 s) := by
  unfold Sys2Proof.Machine.execHostSpiWrite
  repeat' first
    | with_reducible assumption
    | (with_reducible refine mask_sub hm ?_); exact rfl
    | with_reducible refine faultEvent_moves ?_ ?_ _
    | with_reducible refine busWrites_moves ?_ ?_ _ _ _
    | with_reducible refine spiBad_moves ?_ ?_ _
    | with_reducible exact HostOn.same rfl
    | with_reducible refine Moves.ite ?_ ?_
    | with_reducible refine Moves.dite ?_ ?_
    | with_reducible refine Moves.ite_snd ?_ ?_
    | with_reducible refine Moves.foldl ?_ _ ?_
    | with_reducible refine Moves.foldl_snd ?_ _ ?_
    | with_reducible refine Moves.elim _ ?_ ?_
    | with_reducible refine MovesOut.next ?_
    | with_reducible refine MovesOut.ite ?_ ?_
    | with_reducible intro _
    | with_reducible refine Moves.set_host ?_ ?_ ?_

theorem execModerationTimeout_moves {m : Nat} {r s : State} (hm : 65540 ||| m = m) (h : Moves m r s) (x0 : _) (x1 : _)  :
    MovesOut m r (Sys2Proof.Machine.execModerationTimeout x0 x1 s) := by
  unfold Sys2Proof.Machine.execModerationTimeout
  exact .next (onMbox_moves (mask_sub hm rfl) (atOdo_moves (mask_sub hm rfl) h _) _ _ fun _ e => by
    repeat' split
    all_goals exact e)

theorem execSleepClear_moves {m : Nat} {r s : State} (hm : 25116250 ||| m = m) (h : Moves m r s) (x0 : _)  :
    MovesOut m r (Sys2Proof.Machine.execSleepClear x0 s) := by
  unfold Sys2Proof.Machine.execSleepClear
  repeat' first
    | with_reducible assumption
    | with_reducible refine mboxBy_moves ?_ ?_ _ _ _
    | with_reducible refine Moves.ite ?_ ?_
    | with_reducible refine Moves.dite ?_ ?_
    | with_reducible refine Moves.ite_snd ?_ ?_
    | with_reducible refine Moves.foldl ?_ _ ?_
    | with_reducible refine Moves.foldl_snd ?_ _ ?_
    | with_reducible refine Moves.elim _ ?_ ?_
    | with_reducible refine MovesOut.next ?_

theorem execMboxEnable_moves {m : Nat} {r s : State} (hm : 25116250 ||| m = m) (h : Moves m r s) (x0 : _) (x1 : _)  :
    MovesOut m r (Sys2Proof.Machine.execMboxEnable x0 x1 s) := by
  unfold Sys2Proof.Machine.execMboxEnable
  repeat' first
    | with_reducible assumption
    | with_reducible refine mboxBy_moves ?_ ?_ _ _ _
    | with_reducible refine Moves.ite ?_ ?_
    | with_reducible refine Moves.dite ?_ ?_
    | with_reducible refine Moves.ite_snd ?_ ?_
    | with_reducible refine Moves.foldl ?_ _ ?_
    | with_reducible refine Moves.foldl_snd ?_ _ ?_
    | with_reducible refine Moves.elim _ ?_ ?_
    | with_reducible refine MovesOut.next ?_

theorem execRequestPiWrite_moves {m : Nat} {r s : State} (hm : 25116250 ||| m = m) (h : Moves m r s) (x0 : _) (x1 : _)  :
    MovesOut m r (Sys2Proof.Machine.execRequestPiWrite x0 x1 s) := by
  unfold Sys2Proof.Machine.execRequestPiWrite
  repeat' first
    | with_reducible assumption
    | with_reducible refine mboxBy_moves ?_ ?_ _ _ _
    | with_reducible refine Moves.ite ?_ ?_
    | with_reducible refine Moves.dite ?_ ?_
    | with_reducible refine Moves.ite_snd ?_ ?_
    | with_reducible refine Moves.foldl ?_ _ ?_
    | with_reducible refine Moves.foldl_snd ?_ _ ?_
    | with_reducible refine Moves.elim _ ?_ ?_
    | with_reducible refine MovesOut.next ?_

theorem execSlotLoss_moves {m : Nat} {r s : State} (hm : 25116250 ||| m = m) (h : Moves m r s) (x0 : _)  :
    MovesOut m r (Sys2Proof.Machine.execSlotLoss x0 s) := by
  unfold Sys2Proof.Machine.execSlotLoss
  repeat' first
    | with_reducible assumption
    | (with_reducible refine mask_sub hm ?_); exact rfl
    | with_reducible refine faultEvent_moves ?_ ?_ _
    | with_reducible refine slotLose_moves ?_ ?_ _
    | with_reducible exact HostOn.same rfl
    | with_reducible refine Moves.ite ?_ ?_
    | with_reducible refine Moves.dite ?_ ?_
    | with_reducible refine Moves.ite_snd ?_ ?_
    | with_reducible refine Moves.foldl ?_ _ ?_
    | with_reducible refine Moves.foldl_snd ?_ _ ?_
    | with_reducible refine Moves.elim _ ?_ ?_
    | with_reducible refine MovesOut.next ?_
    | with_reducible refine MovesOut.ite ?_ ?_
    | with_reducible intro _
    | with_reducible refine Moves.set_host ?_ ?_ ?_

end Sys2Proof.Laws
end

