-- ==== Sys2Proof/Laws/MovesSystem.lean ====
section
/-!
SUPPORT. What each function of Machine/Slots, Reset, Faults, Perf, Power, Boundary may change, as `Moves`.
-/
namespace Sys2Proof.Laws
open Sys2Proof Sys2Proof.Machine

theorem execSecondBoundary_moves {m : Nat} {r s : State} (hm : 6231916 ||| m = m) (h : Moves m r s)   :
    MovesOut m r (Sys2Proof.Machine.execSecondBoundary s) := by
  unfold Sys2Proof.Machine.execSecondBoundary
  repeat' first
    | with_reducible assumption
    | (with_reducible refine mask_sub hm ?_); exact rfl
    | with_reducible refine portSecond_moves ?_ ?_ _
    | with_reducible refine guyTemps_moves ?_ ?_ 
    | with_reducible refine gnssSecond_moves ?_ ?_ 
    | with_reducible refine calSecond_moves ?_ ?_ _
    | with_reducible refine clientSecond_moves ?_ ?_ 
    | with_reducible refine outSecond_moves ?_ ?_ _
    | with_reducible refine Moves.ite ?_ ?_
    | with_reducible refine Moves.dite ?_ ?_
    | with_reducible refine Moves.ite_snd ?_ ?_
    | with_reducible refine Moves.foldl ?_ _ ?_
    | with_reducible refine Moves.foldl_snd ?_ _ ?_
    | with_reducible refine Moves.elim _ ?_ ?_
    | with_reducible refine MovesOut.next ?_
    | with_reducible refine MovesOut.ite ?_ ?_
    | with_reducible intro _
    | with_reducible refine Moves.set_time_cairn ?_ ?_

theorem bootRecovery_moves {m : Nat} {r s : State} (hm : 67059290 ||| m = m) (h : Moves m r s) (x0 : _)  :
    Moves m r (Sys2Proof.Machine.bootRecovery x0 s) := by
  unfold Sys2Proof.Machine.bootRecovery
  repeat' first
    | with_reducible assumption
    | (with_reducible refine mask_sub hm ?_); exact rfl
    | with_reducible refine enterMode_moves ?_ ?_ _ _
    | with_reducible exact AonOn.same rfl
    | with_reducible refine Moves.ite ?_ ?_
    | with_reducible refine Moves.dite ?_ ?_
    | with_reducible refine Moves.ite_snd ?_ ?_
    | with_reducible refine Moves.foldl ?_ _ ?_
    | with_reducible refine Moves.foldl_snd ?_ _ ?_
    | with_reducible refine Moves.elim _ ?_ ?_
    | with_reducible intro _
    | with_reducible refine Moves.set_aon ?_ ?_ ?_

theorem startImage_moves {m : Nat} {r s : State} (hm : 67075674 ||| m = m) (h : Moves m r s)   :
    Moves m r (Sys2Proof.Machine.startImage s) := by
  unfold Sys2Proof.Machine.startImage
  try dsimp only
  repeat' first
    | with_reducible assumption
    | (with_reducible refine mask_sub hm ?_); exact rfl
    | with_reducible refine faultEvent_moves ?_ ?_ _
    | with_reducible refine bootRecovery_moves ?_ ?_ _
    | with_reducible exact AonOn.same rfl
    | with_reducible exact VaultOn.same rfl rfl
    | with_reducible refine Moves.ite ?_ ?_
    | with_reducible refine Moves.dite ?_ ?_
    | with_reducible refine Moves.ite_snd ?_ ?_
    | with_reducible refine Moves.foldl ?_ _ ?_
    | with_reducible refine Moves.foldl_snd ?_ _ ?_
    | with_reducible refine Moves.elim _ ?_ ?_
    | with_reducible intro _
    | split
    | with_reducible refine Moves.set_aon_vault ?_ ?_ ?_ ?_

theorem execTrailheadStart_moves {m : Nat} {r s : State} (hm : 67075674 ||| m = m) (h : Moves m r s) (x0 : _)  :
    MovesOut m r (Sys2Proof.Machine.execTrailheadStart x0 s) := by
  unfold Sys2Proof.Machine.execTrailheadStart
  repeat' first
    | with_reducible assumption
    | (with_reducible refine mask_sub hm ?_); exact rfl
    | with_reducible refine rootKeys_moves ?_ ?_ 
    | with_reducible refine faultEvent_moves ?_ ?_ _
    | with_reducible refine bootRecovery_moves ?_ ?_ _
    | with_reducible refine startKeys_moves ?_ ?_ 
    | with_reducible refine startImage_moves ?_ ?_ 
    | with_reducible exact AonOn.same rfl
    | with_reducible refine Moves.ite ?_ ?_
    | with_reducible refine Moves.dite ?_ ?_
    | with_reducible refine Moves.ite_snd ?_ ?_
    | with_reducible refine Moves.foldl ?_ _ ?_
    | with_reducible refine Moves.foldl_snd ?_ _ ?_
    | with_reducible refine Moves.elim _ ?_ ?_
    | with_reducible refine MovesOut.next ?_
    | with_reducible refine MovesOut.ite ?_ ?_
    | with_reducible intro _
    | with_reducible refine Moves.set_aon ?_ ?_ ?_

theorem cairnDue_moves {m : Nat} {r s : State} (hm : 8 ||| m = m) (h : Moves m r s) (x0 : _)  :
    Moves m r (Sys2Proof.Machine.cairnDue x0 s) := by
  unfold Sys2Proof.Machine.cairnDue
  repeat' first
    | with_reducible assumption
    | with_reducible refine Moves.ite ?_ ?_
    | with_reducible refine Moves.dite ?_ ?_
    | with_reducible refine Moves.ite_snd ?_ ?_
    | with_reducible refine Moves.foldl ?_ _ ?_
    | with_reducible refine Moves.foldl_snd ?_ _ ?_
    | with_reducible refine Moves.elim _ ?_ ?_
    | with_reducible intro _
    | with_reducible refine Moves.set_cairn ?_ ?_

theorem injectEnd_moves {m : Nat} {r s : State} (hm : 2097168 ||| m = m) (h : Moves m r s) (x0 : _)  :
    Moves m r (Sys2Proof.Machine.injectEnd x0 s) := by
  unfold Sys2Proof.Machine.injectEnd
  repeat' first
    | with_reducible assumption
    | (with_reducible refine mask_sub hm ?_); exact rfl
    | with_reducible refine lanternFast_moves ?_ ?_ 
    | with_reducible exact FaultOn.same rfl
    | with_reducible refine Moves.ite ?_ ?_
    | with_reducible refine Moves.dite ?_ ?_
    | with_reducible refine Moves.ite_snd ?_ ?_
    | with_reducible refine Moves.foldl ?_ _ ?_
    | with_reducible refine Moves.foldl_snd ?_ _ ?_
    | with_reducible refine Moves.elim _ ?_ ?_
    | with_reducible intro _
    | with_reducible refine Moves.set_fault ?_ ?_ ?_

theorem execInjectionEnd_moves {m : Nat} {r s : State} (hm : 2105360 ||| m = m) (h : Moves m r s) (x0 : _) (x1 : _)  :
    MovesOut m r (Sys2Proof.Machine.execInjectionEnd x0 x1 s) := by
  unfold Sys2Proof.Machine.execInjectionEnd
  repeat' first
    | with_reducible assumption
    | (with_reducible refine mask_sub hm ?_); exact rfl
    | with_reducible refine injectEnd_moves ?_ ?_ _
    | with_reducible refine atCk_moves ?_ ?_ _
    | with_reducible refine Moves.ite ?_ ?_
    | with_reducible refine Moves.dite ?_ ?_
    | with_reducible refine Moves.ite_snd ?_ ?_
    | with_reducible refine Moves.foldl ?_ _ ?_
    | with_reducible refine Moves.foldl_snd ?_ _ ?_
    | with_reducible refine Moves.elim _ ?_ ?_
    | with_reducible refine MovesOut.next ?_

theorem tempWarn_moves {m : Nat} {r s : State} (hm : 25116250 ||| m = m) (h : Moves m r s) (x0 : _)  :
    Moves m r (Sys2Proof.Machine.tempWarn x0 s) := by
  unfold Sys2Proof.Machine.tempWarn
  repeat' first
    | with_reducible assumption
    | (with_reducible refine mask_sub hm ?_); exact rfl
    | with_reducible refine raise_moves ?_ ?_ _
    | with_reducible refine faultCond_moves ?_ ?_ _ _
    | with_reducible exact Chg.word rfl rfl rfl rfl
    | exact Chg.bit hm rfl
    | with_reducible refine Moves.ite ?_ ?_
    | with_reducible refine Moves.dite ?_ ?_
    | with_reducible refine Moves.ite_snd ?_ ?_
    | with_reducible refine Moves.foldl ?_ _ ?_
    | with_reducible refine Moves.foldl_snd ?_ _ ?_
    | with_reducible refine Moves.elim _ ?_ ?_
    | with_reducible intro _
    | with_reducible refine Moves.set_sys ?_ ?_ ?_

theorem aonSecond_moves {m : Nat} {r s : State} (hm : 50356226 ||| m = m) (h : Moves m r s)   :
    Moves m r (Sys2Proof.Machine.aonSecond s) := by
  unfold Sys2Proof.Machine.aonSecond
  repeat' first
    | with_reducible assumption
    | (with_reducible refine mask_sub hm ?_); exact rfl
    | with_reducible exact AonOn.same rfl
    | with_reducible exact VaultOn.same rfl rfl
    | with_reducible exact Chg.word rfl rfl rfl rfl
    | exact Chg.bit hm rfl
    | with_reducible refine Moves.ite ?_ ?_
    | with_reducible refine Moves.dite ?_ ?_
    | with_reducible refine Moves.ite_snd ?_ ?_
    | with_reducible refine Moves.foldl ?_ _ ?_
    | with_reducible refine Moves.foldl_snd ?_ _ ?_
    | with_reducible refine Moves.elim _ ?_ ?_
    | with_reducible intro _
    | with_reducible refine Moves.set_aon_foot_vault_sys ?_ ?_ ?_ ?_ ?_

theorem execTempSample_moves {m : Nat} {r s : State} (hm : 58687098 ||| m = m) (h : Moves m r s) (x0 : _)  :
    MovesOut m r (Sys2Proof.Machine.execTempSample x0 s) := by
  unfold Sys2Proof.Machine.execTempSample
  try dsimp only
  repeat' first
    | with_reducible assumption
    | (with_reducible refine mask_sub hm ?_); exact rfl
    | with_reducible refine faultCond_moves ?_ ?_ _ _
    | with_reducible refine tempWarn_moves ?_ ?_ _
    | with_reducible refine aonSecond_moves ?_ ?_ 
    | with_reducible exact Chg.word rfl rfl rfl rfl
    | exact Chg.bit hm rfl
    | with_reducible refine Moves.ite ?_ ?_
    | with_reducible refine Moves.dite ?_ ?_
    | with_reducible refine Moves.ite_snd ?_ ?_
    | with_reducible refine Moves.foldl ?_ _ ?_
    | with_reducible refine Moves.foldl_snd ?_ _ ?_
    | with_reducible refine Moves.elim _ ?_ ?_
    | with_reducible refine MovesOut.next ?_
    | with_reducible refine MovesOut.ite ?_ ?_
    | with_reducible intro _
    | split
    | with_reducible refine Moves.set_guy_sys ?_ ?_ ?_

theorem timeBack_moves {m : Nat} {r s : State} (hm : 17629200 ||| m = m) (h : Moves m r s)   :
    Moves m r (Sys2Proof.Machine.timeBack s) := by
  unfold Sys2Proof.Machine.timeBack
  repeat' first
    | with_reducible assumption
    | (with_reducible refine mask_sub hm ?_); exact rfl
    | with_reducible refine onSlot_moves ?_ ?_ _ _
    | with_reducible refine enableSlot_moves ?_ ?_ _ _
    | with_reducible refine stickyField_after _ _ _ _ _ _ ?_
    | with_reducible refine stickyRegs_after _ _ _ ?_
    | with_reducible exact RegsOn.refl _
    | with_reducible exact RegsOn.same rfl
    | with_reducible exact Chg.word rfl rfl rfl rfl
    | exact Chg.bit hm rfl
    | with_reducible refine Moves.ite ?_ ?_
    | with_reducible refine Moves.dite ?_ ?_
    | with_reducible refine Moves.ite_snd ?_ ?_
    | with_reducible refine Moves.foldl ?_ _ ?_
    | with_reducible refine Moves.foldl_snd ?_ _ ?_
    | with_reducible refine Moves.elim _ ?_ ?_
    | with_reducible intro _
    | with_reducible refine Moves.set_regs_sys ?_ ?_ ?_ ?_

theorem domainBack_moves {m : Nat} {r s : State} (hm : 17629200 ||| m = m) (h : Moves m r s) (x0 : _)  :
    Moves m r (Sys2Proof.Machine.domainBack x0 s) := by
  unfold Sys2Proof.Machine.domainBack
  try dsimp only
  repeat' first
    | with_reducible assumption
    | (with_reducible refine mask_sub hm ?_); exact rfl
    | with_reducible refine timeBack_moves ?_ ?_ 
    | with_reducible exact HostOn.same rfl
    | with_reducible refine Moves.ite ?_ ?_
    | with_reducible refine Moves.dite ?_ ?_
    | with_reducible refine Moves.ite_snd ?_ ?_
    | with_reducible refine Moves.foldl ?_ _ ?_
    | with_reducible refine Moves.foldl_snd ?_ _ ?_
    | with_reducible refine Moves.elim _ ?_ ?_
    | with_reducible intro _
    | split
    | with_reducible refine Moves.set_host ?_ ?_ ?_

/-- A state whose components may all differ: what only grows and what is canonical is kept. -/
theorem Moves.all {m : Nat} {r s t : State} (h : Moves m r s) (hm : 67108863 ||| m = m) (hp : t.pending = s.pending)
    (oaon : AonOn s.aon t.aon) (ovault : VaultOn s.vault t.vault) (oflash : FlashOn s.flash t.flash) (ohost : HostOn s.host t.host)
    (oserv : ServOn s.serv t.serv) (optp : PtpOn s.ptp t.ptp) (oregs : RegsOn s.regs t.regs) (operf : PerfOn s.perf t.perf)
    (ofault : FaultOn s.fault t.fault) : Moves m r t := by
  have b : ∀ j, j < 26 → m.testBit j = false → False := fun j hj e => by
    have : Nat.testBit 67108863 j = true := by
      have := Nat.testBit_two_pow_sub_one 26 j
      simpa [hj] using this
    rw [bit_of hm this] at e; cases e
  exact ⟨hp.trans h.pending, fun e => (b _ (by decide) e).elim, fun e => (b _ (by decide) e).elim, fun e => (b _ (by decide) e).elim, fun e => (b _ (by decide) e).elim, fun e => (b _ (by decide) e).elim, fun e => (b _ (by decide) e).elim, fun e => (b _ (by decide) e).elim, fun e => (b _ (by decide) e).elim, fun e => (b _ (by decide) e).elim, fun e => (b _ (by decide) e).elim, fun e => (b _ (by decide) e).elim, fun e => (b _ (by decide) e).elim, fun e => (b _ (by decide) e).elim, fun e => (b _ (by decide) e).elim, fun e => (b _ (by decide) e).elim, fun e => (b _ (by decide) e).elim, fun e => (b _ (by decide) e).elim, fun e => (b _ (by decide) e).elim, fun e => (b _ (by decide) e).elim, fun e => (b _ (by decide) e).elim, fun e => (b _ (by decide) e).elim, fun e => (b _ (by decide) e).elim, fun e => (b _ (by decide) e).elim, fun e => (b _ (by decide) e).elim, fun e => (b _ (by decide) e).elim,
    h.aonOn.trans oaon, h.vaultOn.trans ovault, h.flashOn.trans oflash, h.hostOn.trans ohost, h.servOn.trans oserv, h.ptpOn.trans optp,
    h.regsOn.trans oregs, h.perfOn.trans operf, h.faultOn.trans ofault⟩

/-- No listening address stands after reset. -/
theorem addrsApart_reset : AddrsApart State.reset.serv := by
  intro i j k l _ x y hx
  simp [State.reset] at hx

/-- The severities after reset. -/
theorem sevOk_reset : SevOk State.reset.fault.sev := by
  refine ⟨?_, ?_, ?_⟩ <;> decide

theorem powerOn_moves {m : Nat} {r s : State} (hm : 67108863 ||| m = m) (h : Moves m r s) (x0 : _) (x1 : _) :
    Moves m r (Sys2Proof.Machine.powerOn x0 x1 s) := by
  unfold Sys2Proof.Machine.powerOn
  refine trail_moves (mask_sub hm rfl) ?_ _ _
  refine h.all hm rfl ?_ ?_ ?_ ?_ ?_ ?_ ?_ ?_ ?_
  · intro e; simp only [satU]; omega
  · exact ⟨Nat.le_refl _, fun _ => rfl⟩
  · exact .same rfl
  · intro _ i; show mwf 0#8 (Vector.replicate 8 ({} : MboxSlot))[i].win = true; simp [mwf]
  · exact ⟨fun _ => rfl, fun _ => addrsApart_reset⟩
  · exact ⟨fun _ => rfl, fun _ => rfl⟩
  · exact fun _ => rfl
  · exact fun _ => rfl
  · exact fun _ => sevOk_reset

theorem execPowerOnReset_moves {m : Nat} {r s : State} (hm : 67108863 ||| m = m) (h : Moves m r s) (x0 : _) (x1 : _)  :
    MovesOut m r (Sys2Proof.Machine.execPowerOnReset x0 x1 s) := by
  unfold Sys2Proof.Machine.execPowerOnReset
  repeat' first
    | with_reducible assumption
    | with_reducible refine powerOn_moves ?_ ?_ _ _
    | with_reducible refine Moves.ite ?_ ?_
    | with_reducible refine Moves.dite ?_ ?_
    | with_reducible refine Moves.ite_snd ?_ ?_
    | with_reducible refine Moves.foldl ?_ _ ?_
    | with_reducible refine Moves.foldl_snd ?_ _ ?_
    | with_reducible refine Moves.elim _ ?_ ?_
    | with_reducible refine MovesOut.next ?_

theorem onPert_moves {m : Nat} {r s : State} (hm : 8388608 ||| m = m) (h : Moves m r s) (x0 : _) (x1 : _)  :
    Moves m r (Sys2Proof.Machine.onPert x0 x1 s) := by
  unfold Sys2Proof.Machine.onPert
  repeat' first
    | with_reducible assumption
    | with_reducible refine Moves.ite ?_ ?_
    | with_reducible refine Moves.dite ?_ ?_
    | with_reducible refine Moves.ite_snd ?_ ?_
    | with_reducible refine Moves.foldl ?_ _ ?_
    | with_reducible refine Moves.foldl_snd ?_ _ ?_
    | with_reducible refine Moves.elim _ ?_ ?_
    | with_reducible intro _
    | with_reducible refine Moves.set_pert ?_ ?_

theorem pertArm_moves {m : Nat} {r s : State} (hm : 8978432 ||| m = m) (h : Moves m r s) (x0 : _) (x1 : _)  :
    Moves m r (Sys2Proof.Machine.pertArm x0 x1 s) := by
  unfold Sys2Proof.Machine.pertArm
  repeat' first
    | with_reducible assumption
    | (with_reducible refine mask_sub hm ?_); exact rfl
    | with_reducible refine onPert_moves ?_ ?_ _ _
    | with_reducible refine raise_moves ?_ ?_ _

theorem failedStart_moves {m : Nat} {r s : State} (hm : 1310722 ||| m = m) (h : Moves m r s)   :
    Moves m r (Sys2Proof.Machine.failedStart s) := by
  unfold Sys2Proof.Machine.failedStart
  repeat' first
    | with_reducible assumption
    | (with_reducible refine mask_sub hm ?_); exact rfl
    | with_reducible refine trailFw_moves ?_ ?_ _ _ _
    | with_reducible exact AonOn.same rfl
    | with_reducible refine Moves.ite ?_ ?_
    | with_reducible refine Moves.dite ?_ ?_
    | with_reducible refine Moves.ite_snd ?_ ?_
    | with_reducible refine Moves.foldl ?_ _ ?_
    | with_reducible refine Moves.foldl_snd ?_ _ ?_
    | with_reducible refine Moves.elim _ ?_ ?_
    | with_reducible intro _
    | with_reducible refine Moves.set_aon ?_ ?_ ?_

theorem execIcpModeGet_moves {m : Nat} {r s : State} (hm : 2031616 ||| m = m) (h : Moves m r s) (x0 : _)  :
    MovesOut m r (Sys2Proof.Machine.execIcpModeGet x0 s) := by
  unfold Sys2Proof.Machine.execIcpModeGet
  repeat' first
    | with_reducible assumption
    | with_reducible refine icpGet_moves ?_ ?_ _ _ _

theorem execPerfDump_moves {m : Nat} {r s : State} (hm : 4456452 ||| m = m) (h : Moves m r s) (x0 : _)  :
    MovesOut m r (Sys2Proof.Machine.execPerfDump x0 s) := by
  unfold Sys2Proof.Machine.execPerfDump
  repeat' first
    | with_reducible assumption
    | (with_reducible refine mask_sub hm ?_); exact rfl
    | with_reducible refine sticky_moves ?_ ?_ _ _
    | with_reducible refine atOdo_moves ?_ ?_ _
    | with_reducible exact PerfOn.same rfl
    | with_reducible refine Moves.ite ?_ ?_
    | with_reducible refine Moves.dite ?_ ?_
    | with_reducible refine Moves.ite_snd ?_ ?_
    | with_reducible refine Moves.foldl ?_ _ ?_
    | with_reducible refine Moves.foldl_snd ?_ _ ?_
    | with_reducible refine Moves.elim _ ?_ ?_
    | with_reducible refine MovesOut.next ?_
    | with_reducible refine MovesOut.ite ?_ ?_
    | with_reducible intro _
    | with_reducible refine Moves.set_perf ?_ ?_ ?_

theorem setBind_moves {m : Nat} {r s : State} (hm : 6227456 ||| m = m) (h : Moves m r s) (x0 : _) (x1 : _)  :
    Moves m r (Sys2Proof.Machine.setBind x0 x1 s) := by
  unfold Sys2Proof.Machine.setBind
  repeat' first
    | with_reducible assumption
    | (with_reducible refine mask_sub hm ?_); exact rfl
    | with_reducible refine onMbox_moves ?_ ?_ _ _ ?_
    | with_reducible refine slotLose_moves ?_ ?_ _
    | (with_reducible assumption)
    | with_reducible refine Moves.ite ?_ ?_
    | with_reducible refine Moves.dite ?_ ?_
    | with_reducible refine Moves.ite_snd ?_ ?_
    | with_reducible refine Moves.foldl ?_ _ ?_
    | with_reducible refine Moves.foldl_snd ?_ _ ?_
    | with_reducible refine Moves.elim _ ?_ ?_
    | with_reducible intro _
    | with_reducible refine Moves.set_slots ?_ ?_

theorem execIcpSlotInfo_moves {m : Nat} {r s : State} (hm : 2031616 ||| m = m) (h : Moves m r s) (x0 : _)  :
    MovesOut m r (Sys2Proof.Machine.execIcpSlotInfo x0 s) := by
  unfold Sys2Proof.Machine.execIcpSlotInfo
  repeat' first
    | with_reducible assumption
    | with_reducible refine icpGet_moves ?_ ?_ _ _ _

theorem gnssGate_moves {m : Nat} {r s : State} (hm : 25116506 ||| m = m) (h : Moves m r s)   :
    Moves m r (Sys2Proof.Machine.gnssGate s) := by
  unfold Sys2Proof.Machine.gnssGate
  repeat' first
    | with_reducible assumption
    | (with_reducible refine mask_sub hm ?_); exact rfl
    | with_reducible refine complete_moves ?_ ?_ _ _ _ _
    | with_reducible refine faultCond_moves ?_ ?_ _ _
    | with_reducible refine slotDisable_moves ?_ ?_ _ _
    | with_reducible refine slotSettle_moves ?_ ?_ 
    | with_reducible refine Moves.ite ?_ ?_
    | with_reducible refine Moves.dite ?_ ?_
    | with_reducible refine Moves.ite_snd ?_ ?_
    | with_reducible refine Moves.foldl ?_ _ ?_
    | with_reducible refine Moves.foldl_snd ?_ _ ?_
    | with_reducible refine Moves.elim _ ?_ ?_
    | with_reducible intro _
    | with_reducible refine Moves.set_gnss ?_ ?_

theorem coreGate_moves {m : Nat} {r s : State} (hm : 25116250 ||| m = m) (h : Moves m r s)   :
    Moves m r (Sys2Proof.Machine.coreGate s) := by
  unfold Sys2Proof.Machine.coreGate
  have h1 : Moves m r ((List.finRange 4).foldl (fun s p => dropLaunch p 4 (fun _ => true) (onWayp p (fun w => { w with waiting := [] }) s)) s) :=
    Moves.foldl (fun s p hs => dropLaunch_moves (mask_sub hm rfl) (onWayp_moves (mask_sub hm rfl) hs _ _) _ _ _) _ h
  generalize (List.finRange 4).foldl (fun s p => dropLaunch p 4 (fun _ => true) (onWayp p (fun w => { w with waiting := [] }) s)) s = s1 at h1 ⊢
  refine Moves.foldl (fun s i hs => purgeDone_moves (mask_sub hm rfl) hs i) _ ?_
  with_reducible refine h1.set_serv_ptp (mask_sub hm rfl) ?_ ?_
  · exact ⟨fun _ => rfl, id⟩
  · exact ⟨fun _ => rfl, fun _ => rfl⟩

theorem timeWaiters_moves {m : Nat} {r s : State} (hm : 852096 ||| m = m) (h : Moves m r s)   :
    Moves m r (Sys2Proof.Machine.timeWaiters s) := by
  unfold Sys2Proof.Machine.timeWaiters
  repeat' first
    | with_reducible assumption
    | (with_reducible refine mask_sub hm ?_); exact rfl
    | with_reducible refine complete_moves ?_ ?_ _ _ _ _
    | with_reducible refine tdcCancel_moves ?_ ?_ _
    | with_reducible refine Moves.ite ?_ ?_
    | with_reducible refine Moves.dite ?_ ?_
    | with_reducible refine Moves.ite_snd ?_ ?_
    | with_reducible refine Moves.foldl ?_ _ ?_
    | with_reducible refine Moves.foldl_snd ?_ _ ?_
    | with_reducible refine Moves.elim _ ?_ ?_
    | with_reducible intro _

theorem timeGate_moves {m : Nat} {r s : State} (hm : 33505022 ||| m = m) (h : Moves m r s)   :
    Moves m r (Sys2Proof.Machine.timeGate s) := by
  unfold Sys2Proof.Machine.timeGate
  have h1 : Moves m r ([(2 : Fin 64), 4, 5, 6, 40, 41].foldl (fun s f => faultCond f false s) (pertLive false (pertEnd (timeWaiters s)))) :=
    Moves.foldl (fun s f hs => faultCond_moves (mask_sub hm rfl) hs _ _) _
      (pertLive_moves (mask_sub hm rfl) (pertEnd_moves (mask_sub hm rfl) (timeWaiters_moves (mask_sub hm rfl) h)) _)
  refine lanternFast_moves (mask_sub hm rfl) ?_
  with_reducible refine h1.set_time_cairn_sign_guy_mile_tdc_wayp_foot_regs_sys (mask_sub hm rfl) ?_ ?_
  · exact RegsOn.filter (p := fun e => !timeSticky (e.1 % 2 ^ 28)) rfl
  · exact .word rfl rfl rfl rfl

theorem gateOne_moves {m : Nat} {r s : State} (hm : 33521662 ||| m = m) (h : Moves m r s) (x0 : _)  :
    Moves m r (Sys2Proof.Machine.gateOne x0 s) := by
  unfold Sys2Proof.Machine.gateOne
  try dsimp only
  repeat' first
    | with_reducible assumption
    | (with_reducible refine mask_sub hm ?_); exact rfl
    | with_reducible refine vaultWipe_moves ?_ ?_ 
    | with_reducible refine gnssGate_moves ?_ ?_ 
    | with_reducible refine portOff_moves ?_ ?_ _
    | with_reducible refine coreGate_moves ?_ ?_ 
    | with_reducible refine timeGate_moves ?_ ?_ 
    | with_reducible exact AonOn.same rfl
    | with_reducible exact HostOn.same rfl
    | with_reducible refine Moves.ite ?_ ?_
    | with_reducible refine Moves.dite ?_ ?_
    | with_reducible refine Moves.ite_snd ?_ ?_
    | with_reducible refine Moves.foldl ?_ _ ?_
    | with_reducible refine Moves.foldl_snd ?_ _ ?_
    | with_reducible refine Moves.elim _ ?_ ?_
    | with_reducible intro _
    | split
    | with_reducible refine Moves.set_aon ?_ ?_ ?_
    | with_reducible refine Moves.set_host ?_ ?_ ?_

theorem gateMask_moves {m : Nat} {r s : State} (hm : 33521662 ||| m = m) (h : Moves m r s) (x0 : _)  :
    Moves m r (Sys2Proof.Machine.gateMask x0 s) := by
  unfold Sys2Proof.Machine.gateMask
  repeat' first
    | with_reducible assumption
    | with_reducible refine gateOne_moves ?_ ?_ _
    | with_reducible refine Moves.ite ?_ ?_
    | with_reducible refine Moves.dite ?_ ?_
    | with_reducible refine Moves.ite_snd ?_ ?_
    | with_reducible refine Moves.foldl ?_ _ ?_
    | with_reducible refine Moves.foldl_snd ?_ _ ?_
    | with_reducible refine Moves.elim _ ?_ ?_
    | with_reducible intro _

theorem execIcpPowerGate_moves {m : Nat} {r s : State} (hm : 33521662 ||| m = m) (h : Moves m r s) (x0 : _) (x1 : _) (x2 : _) (x3 : _)  :
    MovesOut m r (Sys2Proof.Machine.execIcpPowerGate x0 x1 x2 x3 s) := by
  unfold Sys2Proof.Machine.execIcpPowerGate
  repeat' first
    | with_reducible assumption
    | (with_reducible refine mask_sub hm ?_); exact rfl
    | with_reducible refine gateMask_moves ?_ ?_ _
    | with_reducible refine icp_moves ?_ ?_ _ _ _ ?_
    | with_reducible exact AonOn.same rfl
    | with_reducible refine Moves.ite ?_ ?_
    | with_reducible refine Moves.dite ?_ ?_
    | with_reducible refine Moves.ite_snd ?_ ?_
    | with_reducible refine Moves.foldl ?_ _ ?_
    | with_reducible refine Moves.foldl_snd ?_ _ ?_
    | with_reducible refine Moves.elim _ ?_ ?_
    | with_reducible refine MovesOut.next ?_
    | with_reducible refine MovesOut.ite ?_ ?_
    | with_reducible refine MovesRes.ite ?_ ?_
    | with_reducible refine MovesRes.done ?_
    | with_reducible refine MovesRes.later ?_
    | with_reducible intro _
    | with_reducible refine Moves.set_aon ?_ ?_ ?_

theorem execIcpTrailRead_moves {m : Nat} {r s : State} (hm : 2031616 ||| m = m) (h : Moves m r s) (x0 : _) (x1 : _)  :
    MovesOut m r (Sys2Proof.Machine.execIcpTrailRead x0 x1 s) := by
  unfold Sys2Proof.Machine.execIcpTrailRead
  try dsimp only
  repeat' first
    | with_reducible assumption
    | with_reducible refine icp_moves ?_ ?_ _ _ _ ?_
    | with_reducible refine Moves.ite ?_ ?_
    | with_reducible refine Moves.dite ?_ ?_
    | with_reducible refine Moves.ite_snd ?_ ?_
    | with_reducible refine Moves.foldl ?_ _ ?_
    | with_reducible refine Moves.foldl_snd ?_ _ ?_
    | with_reducible refine Moves.elim _ ?_ ?_
    | with_reducible refine MovesOut.next ?_
    | with_reducible refine MovesOut.ite ?_ ?_
    | with_reducible refine MovesRes.ite ?_ ?_
    | with_reducible refine MovesRes.done ?_
    | with_reducible refine MovesRes.later ?_
    | with_reducible intro _
    | split

theorem purgeStats_moves {m : Nat} {r s : State} (hm : 4456448 ||| m = m) (h : Moves m r s) (x0 : _)  :
    Moves m r (Sys2Proof.Machine.purgeStats x0 s) := by
  unfold Sys2Proof.Machine.purgeStats
  repeat' first
    | with_reducible assumption
    | with_reducible refine stickyField_after _ _ _ _ _ _ ?_
    | with_reducible refine stickyRegs_after _ _ _ ?_
    | with_reducible exact RegsOn.refl _
    | exact RegsOn.filter rfl
    | exact fun e => mwf_filter _ _ _ e
    | with_reducible exact RegsOn.same rfl
    | with_reducible exact PerfOn.same rfl
    | with_reducible refine Moves.ite ?_ ?_
    | with_reducible refine Moves.dite ?_ ?_
    | with_reducible refine Moves.ite_snd ?_ ?_
    | with_reducible refine Moves.foldl ?_ _ ?_
    | with_reducible refine Moves.foldl_snd ?_ _ ?_
    | with_reducible refine Moves.elim _ ?_ ?_
    | with_reducible intro _
    | with_reducible refine Moves.set_regs_perf ?_ ?_ ?_ ?_

theorem purgeKeys_moves {m : Nat} {r s : State} (hm : 25132634 ||| m = m) (h : Moves m r s) (x0 : _)  :
    Moves m r (Sys2Proof.Machine.purgeKeys x0 s) := by
  unfold Sys2Proof.Machine.purgeKeys
  repeat' first
    | with_reducible assumption
    | (with_reducible refine mask_sub hm ?_); exact rfl
    | with_reducible refine ringAdvance_moves ?_ ?_ _ _ _
    | with_reducible refine invalidateKeys_moves ?_ ?_ _ _ _
    | with_reducible refine storeCommit_moves ?_ ?_ 
    | with_reducible refine Moves.ite ?_ ?_
    | with_reducible refine Moves.dite ?_ ?_
    | with_reducible refine Moves.ite_snd ?_ ?_
    | with_reducible refine Moves.foldl ?_ _ ?_
    | with_reducible refine Moves.foldl_snd ?_ _ ?_
    | with_reducible refine Moves.elim _ ?_ ?_
    | with_reducible intro _

theorem purgeNow_moves {m : Nat} {r s : State} (hm : 33521242 ||| m = m) (h : Moves m r s) (x0 : _)  :
    Moves m r (Sys2Proof.Machine.purgeNow x0 s) := by
  unfold Sys2Proof.Machine.purgeNow
  repeat' first
    | with_reducible assumption
    | (with_reducible refine mask_sub hm ?_); exact rfl
    | with_reducible refine purgeStats_moves ?_ ?_ _
    | with_reducible refine purgeKeys_moves ?_ ?_ _
    | with_reducible refine txRingEnd_moves ?_ ?_ _ _
    | with_reducible refine tsqFree_moves ?_ ?_ _ _
    | with_reducible refine onPort_moves ?_ ?_ _ _
    | with_reducible refine instDelete_moves ?_ ?_ _
    | with_reducible refine addrDelete_moves ?_ ?_ _ _
    | with_reducible refine Moves.ite ?_ ?_
    | with_reducible refine Moves.dite ?_ ?_
    | with_reducible refine Moves.ite_snd ?_ ?_
    | with_reducible refine Moves.foldl ?_ _ ?_
    | with_reducible refine Moves.foldl_snd ?_ _ ?_
    | with_reducible refine Moves.elim _ ?_ ?_
    | with_reducible intro _

theorem slotApply_moves {m : Nat} {r s : State} (hm : 33554010 ||| m = m) (h : Moves m r s) (x0 : _) (x1 : _) (x2 : _)  :
    MovesRes m r (Sys2Proof.Machine.slotApply x0 x1 x2 s) := by
  unfold Sys2Proof.Machine.slotApply
  repeat' first
    | with_reducible assumption
    | (with_reducible refine mask_sub hm ?_); exact rfl
    | with_reducible refine setRole_moves ?_ ?_ _ _
    | with_reducible refine purgeDone_moves ?_ ?_ _
    | with_reducible refine purgeNow_moves ?_ ?_ _
    | with_reducible refine cfgUpdate_moves ?_ ?_ _
    | with_reducible refine trail_moves ?_ ?_ _ _
    | with_reducible refine setBind_moves ?_ ?_ _ _
    | with_reducible refine Moves.ite ?_ ?_
    | with_reducible refine Moves.dite ?_ ?_
    | with_reducible refine Moves.ite_snd ?_ ?_
    | with_reducible refine Moves.foldl ?_ _ ?_
    | with_reducible refine Moves.foldl_snd ?_ _ ?_
    | with_reducible refine Moves.elim _ ?_ ?_
    | with_reducible refine MovesRes.ite ?_ ?_
    | with_reducible refine MovesRes.done ?_
    | with_reducible refine MovesRes.later ?_
    | with_reducible intro _
    | with_reducible refine Moves.set_slots ?_ ?_

theorem execIcpSlotConfig_moves {m : Nat} {r s : State} (hm : 33554010 ||| m = m) (h : Moves m r s) (x0 : _) (x1 : _)  :
    MovesOut m r (Sys2Proof.Machine.execIcpSlotConfig x0 x1 s) := by
  unfold Sys2Proof.Machine.execIcpSlotConfig
  try dsimp only
  repeat' first
    | with_reducible assumption
    | (with_reducible refine mask_sub hm ?_); exact rfl
    | with_reducible refine slotApply_moves ?_ ?_ _ _ _
    | with_reducible refine icp_moves ?_ ?_ _ _ _ ?_
    | with_reducible refine Moves.ite ?_ ?_
    | with_reducible refine Moves.dite ?_ ?_
    | with_reducible refine Moves.ite_snd ?_ ?_
    | with_reducible refine Moves.foldl ?_ _ ?_
    | with_reducible refine Moves.foldl_snd ?_ _ ?_
    | with_reducible refine Moves.elim _ ?_ ?_
    | with_reducible refine MovesOut.next ?_
    | with_reducible refine MovesOut.ite ?_ ?_
    | with_reducible refine MovesRes.ite ?_ ?_
    | with_reducible refine MovesRes.done ?_
    | with_reducible refine MovesRes.later ?_
    | with_reducible intro _
    | split

theorem errbCompose_moves {m : Nat} {r s : State} (hm : 589836 ||| m = m) (h : Moves m r s)   :
    Moves m r (Sys2Proof.Machine.errbCompose s) := by
  unfold Sys2Proof.Machine.errbCompose
  repeat' first
    | with_reducible assumption
    | (with_reducible refine mask_sub hm ?_); exact rfl
    | with_reducible refine setErrb_moves ?_ ?_ _
    | with_reducible refine Moves.ite ?_ ?_
    | with_reducible refine Moves.dite ?_ ?_
    | with_reducible refine Moves.ite_snd ?_ ?_
    | with_reducible refine Moves.foldl ?_ _ ?_
    | with_reducible refine Moves.foldl_snd ?_ _ ?_
    | with_reducible refine Moves.elim _ ?_ ?_
    | with_reducible intro _
    | with_reducible refine Moves.set_time ?_ ?_

theorem pgFail_moves {m : Nat} {r s : State} (hm : 25116250 ||| m = m) (h : Moves m r s) (x0 : _)  :
    Moves m r (Sys2Proof.Machine.pgFail x0 s) := by
  unfold Sys2Proof.Machine.pgFail
  repeat' first
    | with_reducible assumption
    | (with_reducible refine mask_sub hm ?_); exact rfl
    | with_reducible refine sticky_moves ?_ ?_ _ _
    | with_reducible refine raise_moves ?_ ?_ _
    | with_reducible refine faultEvent_moves ?_ ?_ _

theorem bootFail_moves {m : Nat} {r s : State} (hm : 25116250 ||| m = m) (h : Moves m r s) (x0 : _)  :
    Moves m r (Sys2Proof.Machine.bootFail x0 s) := by
  unfold Sys2Proof.Machine.bootFail
  repeat' first
    | with_reducible assumption
    | (with_reducible refine mask_sub hm ?_); exact rfl
    | with_reducible refine pgFail_moves ?_ ?_ _
    | with_reducible exact AonOn.same rfl
    | with_reducible exact HostOn.same rfl
    | with_reducible refine Moves.ite ?_ ?_
    | with_reducible refine Moves.dite ?_ ?_
    | with_reducible refine Moves.ite_snd ?_ ?_
    | with_reducible refine Moves.foldl ?_ _ ?_
    | with_reducible refine Moves.foldl_snd ?_ _ ?_
    | with_reducible refine Moves.elim _ ?_ ?_
    | with_reducible intro _
    | with_reducible refine Moves.set_aon_host ?_ ?_ ?_ ?_

theorem pwrEnd_moves {m : Nat} {r s : State} (hm : 2 ||| m = m) (h : Moves m r s)   :
    Moves m r (Sys2Proof.Machine.pwrEnd s) := by
  unfold Sys2Proof.Machine.pwrEnd
  repeat' first
    | with_reducible assumption
    | with_reducible exact AonOn.same rfl
    | with_reducible refine Moves.ite ?_ ?_
    | with_reducible refine Moves.dite ?_ ?_
    | with_reducible refine Moves.ite_snd ?_ ?_
    | with_reducible refine Moves.foldl ?_ _ ?_
    | with_reducible refine Moves.foldl_snd ?_ _ ?_
    | with_reducible refine Moves.elim _ ?_ ?_
    | with_reducible intro _
    | with_reducible refine Moves.set_aon ?_ ?_ ?_

theorem execPowerGoodTimeout_moves {m : Nat} {r s : State} (hm : 25116250 ||| m = m) (h : Moves m r s) (x0 : _)  :
    MovesOut m r (Sys2Proof.Machine.execPowerGoodTimeout x0 s) := by
  unfold Sys2Proof.Machine.execPowerGoodTimeout
  try dsimp only
  repeat' first
    | with_reducible assumption
    | (with_reducible refine mask_sub hm ?_); exact rfl
    | with_reducible refine bootFail_moves ?_ ?_ _
    | with_reducible refine complete_moves ?_ ?_ _ _ _ _
    | with_reducible refine pgFail_moves ?_ ?_ _
    | with_reducible refine pwrEnd_moves ?_ ?_ 
    | with_reducible refine Moves.ite ?_ ?_
    | with_reducible refine Moves.dite ?_ ?_
    | with_reducible refine Moves.ite_snd ?_ ?_
    | with_reducible refine Moves.foldl ?_ _ ?_
    | with_reducible refine Moves.foldl_snd ?_ _ ?_
    | with_reducible refine Moves.elim _ ?_ ?_
    | with_reducible refine MovesOut.next ?_
    | with_reducible refine MovesOut.ite ?_ ?_
    | with_reducible intro _
    | split

theorem calRestore_moves {m : Nat} {r s : State} (hm : 1216 ||| m = m) (h : Moves m r s) (x0 : _)  :
    Moves m r (Sys2Proof.Machine.calRestore x0 s) := by
  unfold Sys2Proof.Machine.calRestore
  try dsimp only
  repeat' first
    | with_reducible assumption
    | (with_reducible refine mask_sub hm ?_); exact rfl
    | with_reducible refine onCh_moves ?_ ?_ _ _
    | with_reducible refine onEvt_moves ?_ ?_ _ _
    | with_reducible refine calStore_moves ?_ ?_ _ _ _ _
    | with_reducible refine Moves.ite ?_ ?_
    | with_reducible refine Moves.dite ?_ ?_
    | with_reducible refine Moves.ite_snd ?_ ?_
    | with_reducible refine Moves.foldl ?_ _ ?_
    | with_reducible refine Moves.foldl_snd ?_ _ ?_
    | with_reducible refine Moves.elim _ ?_ ?_
    | with_reducible intro _
    | split
    | with_reducible refine Moves.set_mile ?_ ?_

theorem slotsRestore_moves {m : Nat} {r s : State} (hm : 131072 ||| m = m) (h : Moves m r s) (x0 : _)  :
    Moves m r (Sys2Proof.Machine.slotsRestore x0 s) := by
  unfold Sys2Proof.Machine.slotsRestore
  repeat' first
    | with_reducible assumption
    | with_reducible refine Moves.ite ?_ ?_
    | with_reducible refine Moves.dite ?_ ?_
    | with_reducible refine Moves.ite_snd ?_ ?_
    | with_reducible refine Moves.foldl ?_ _ ?_
    | with_reducible refine Moves.foldl_snd ?_ _ ?_
    | with_reducible refine Moves.elim _ ?_ ?_
    | with_reducible intro _
    | with_reducible refine Moves.set_slots ?_ ?_

theorem cfgLoad_moves {m : Nat} {r s : State} (hm : 132576 ||| m = m) (h : Moves m r s) (x0 : _)  :
    Moves m r (Sys2Proof.Machine.cfgLoad x0 s) := by
  unfold Sys2Proof.Machine.cfgLoad
  repeat' first
    | with_reducible assumption
    | (with_reducible refine mask_sub hm ?_); exact rfl
    | with_reducible refine calRestore_moves ?_ ?_ _
    | with_reducible refine slotsRestore_moves ?_ ?_ _
    | with_reducible refine Moves.ite ?_ ?_
    | with_reducible refine Moves.dite ?_ ?_
    | with_reducible refine Moves.ite_snd ?_ ?_
    | with_reducible refine Moves.foldl ?_ _ ?_
    | with_reducible refine Moves.foldl_snd ?_ _ ?_
    | with_reducible refine Moves.elim _ ?_ ?_
    | with_reducible intro _
    | with_reducible refine Moves.set_gnss ?_ ?_
    | with_reducible refine Moves.set_guy ?_ ?_

theorem quiesceEnd_moves {m : Nat} {r s : State} (hm : 33521662 ||| m = m) (h : Moves m r s)   :
    Moves m r (Sys2Proof.Machine.quiesceEnd s) := by
  unfold Sys2Proof.Machine.quiesceEnd
  try dsimp only
  repeat' first
    | with_reducible assumption
    | (with_reducible refine mask_sub hm ?_); exact rfl
    | with_reducible refine complete_moves ?_ ?_ _ _ _ _
    | with_reducible refine gateMask_moves ?_ ?_ _
    | with_reducible exact Chg.word rfl rfl rfl rfl
    | exact Chg.bit hm rfl
    | with_reducible refine Moves.ite ?_ ?_
    | with_reducible refine Moves.dite ?_ ?_
    | with_reducible refine Moves.ite_snd ?_ ?_
    | with_reducible refine Moves.foldl ?_ _ ?_
    | with_reducible refine Moves.foldl_snd ?_ _ ?_
    | with_reducible refine Moves.elim _ ?_ ?_
    | with_reducible intro _
    | split
    | with_reducible refine Moves.set_sys ?_ ?_ ?_

theorem trailReset2_moves {m : Nat} {r s : State} (hm : 1310720 ||| m = m) (h : Moves m r s)   :
    Moves m r (Sys2Proof.Machine.trailReset2 s) := by
  unfold Sys2Proof.Machine.trailReset2
  repeat' first
    | with_reducible assumption
    | with_reducible refine trail_moves ?_ ?_ _ _

theorem reset5_moves {m : Nat} {r s : State} (hm : 67108863 ||| m = m) (h : Moves m r s)   :
    Moves m r (Sys2Proof.Machine.reset5 s) := by
  unfold Sys2Proof.Machine.reset5
  refine trailReset2_moves (mask_sub hm rfl) (stickyFirst_moves (mask_sub hm rfl) (sticky_moves (mask_sub hm rfl) ?_ _ _) _ _ _ _)
  refine h.all hm rfl ?_ ?_ ?_ ?_ ?_ ?_ ?_ ?_ ?_
  · exact .same rfl
  · exact ⟨Nat.le_refl _, fun _ => rfl⟩
  · exact .same rfl
  · intro _ i; show mwf 0#8 (Vector.replicate 8 ({} : MboxSlot))[i].win = true; simp [mwf]
  · exact ⟨fun _ => rfl, fun _ => addrsApart_reset⟩
  · exact ⟨fun _ => rfl, fun _ => rfl⟩
  · exact .filter rfl
  · exact fun _ => rfl
  · exact .same rfl

theorem execRidgepoleLossOfLock_moves {m : Nat} {r s : State} (hm : 67108863 ||| m = m) (h : Moves m r s)   :
    MovesOut m r (Sys2Proof.Machine.execRidgepoleLossOfLock s) := by
  unfold Sys2Proof.Machine.execRidgepoleLossOfLock
  repeat' first
    | with_reducible assumption
    | (with_reducible refine mask_sub hm ?_); exact rfl
    | with_reducible refine faultCond_moves ?_ ?_ _ _
    | with_reducible refine reset5_moves ?_ ?_ 
    | with_reducible refine Moves.ite ?_ ?_
    | with_reducible refine Moves.dite ?_ ?_
    | with_reducible refine Moves.ite_snd ?_ ?_
    | with_reducible refine Moves.foldl ?_ _ ?_
    | with_reducible refine Moves.foldl_snd ?_ _ ?_
    | with_reducible refine Moves.elim _ ?_ ?_
    | with_reducible refine MovesOut.next ?_

theorem execFaultLineRise_moves {m : Nat} {r s : State} (hm : 67108863 ||| m = m) (h : Moves m r s) (x0 : _)  :
    MovesOut m r (Sys2Proof.Machine.execFaultLineRise x0 s) := by
  unfold Sys2Proof.Machine.execFaultLineRise
  repeat' first
    | with_reducible assumption
    | (with_reducible refine mask_sub hm ?_); exact rfl
    | with_reducible refine faultEvent_moves ?_ ?_ _
    | with_reducible refine faultCond_moves ?_ ?_ _ _
    | with_reducible refine execRidgepoleLossOfLock_moves ?_ ?_ 
    | with_reducible refine Moves.ite ?_ ?_
    | with_reducible refine Moves.dite ?_ ?_
    | with_reducible refine Moves.ite_snd ?_ ?_
    | with_reducible refine Moves.foldl ?_ _ ?_
    | with_reducible refine Moves.foldl_snd ?_ _ ?_
    | with_reducible refine Moves.elim _ ?_ ?_
    | with_reducible refine MovesOut.next ?_
    | with_reducible refine MovesOut.ite ?_ ?_

theorem resetFull_moves {m : Nat} {r s : State} (hm : 67108863 ||| m = m) (h : Moves m r s) (x0 : _) (x1 : _) (x2 : _)  :
    Moves m r (Sys2Proof.Machine.resetFull x0 x1 x2 s) := by
  unfold Sys2Proof.Machine.resetFull
  refine trailReset2_moves (mask_sub hm rfl) ?_
  refine h.all hm rfl ?_ ?_ ?_ ?_ ?_ ?_ ?_ ?_ ?_
  · exact .same rfl
  · exact ⟨Nat.le_refl _, fun _ => rfl⟩
  · exact .same rfl
  · intro _ i; show mwf 0#8 (Vector.replicate 8 ({} : MboxSlot))[i].win = true; simp [mwf]
  · exact ⟨fun _ => rfl, fun _ => addrsApart_reset⟩
  · exact ⟨fun _ => rfl, fun _ => rfl⟩
  · exact .filter rfl
  · exact fun _ => rfl
  · exact .same rfl

theorem execResetNAssert_moves {m : Nat} {r s : State} (hm : 67108863 ||| m = m) (h : Moves m r s) (x0 : _) (x1 : _)  :
    MovesOut m r (Sys2Proof.Machine.execResetNAssert x0 x1 s) := by
  unfold Sys2Proof.Machine.execResetNAssert
  repeat' first
    | with_reducible assumption
    | with_reducible refine resetFull_moves ?_ ?_ _ _ _
    | with_reducible refine Moves.ite ?_ ?_
    | with_reducible refine Moves.dite ?_ ?_
    | with_reducible refine Moves.ite_snd ?_ ?_
    | with_reducible refine Moves.foldl ?_ _ ?_
    | with_reducible refine Moves.foldl_snd ?_ _ ?_
    | with_reducible refine Moves.elim _ ?_ ?_
    | with_reducible refine MovesOut.next ?_

theorem guyLines_moves {m : Nat} {r s : State} (hm : 25116250 ||| m = m) (h : Moves m r s)   :
    Moves m r (Sys2Proof.Machine.guyLines s) := by
  unfold Sys2Proof.Machine.guyLines
  repeat' first
    | with_reducible assumption
    | with_reducible refine faultCond_moves ?_ ?_ _ _

theorem flushStart_moves {m : Nat} {r s : State} (hm : 1048576 ||| m = m) (h : Moves m r s)   :
    Moves m r (Sys2Proof.Machine.flushStart s) := by
  unfold Sys2Proof.Machine.flushStart
  repeat' first
    | with_reducible assumption
    | with_reducible refine Moves.ite ?_ ?_
    | with_reducible refine Moves.dite ?_ ?_
    | with_reducible refine Moves.ite_snd ?_ ?_
    | with_reducible refine Moves.foldl ?_ _ ?_
    | with_reducible refine Moves.foldl_snd ?_ _ ?_
    | with_reducible refine Moves.elim _ ?_ ?_
    | with_reducible intro _
    | with_reducible refine Moves.set_trail ?_ ?_

theorem execWdogWarn_moves {m : Nat} {r s : State} (hm : 25116250 ||| m = m) (h : Moves m r s)   :
    MovesOut m r (Sys2Proof.Machine.execWdogWarn s) := by
  unfold Sys2Proof.Machine.execWdogWarn
  repeat' first
    | with_reducible assumption
    | (with_reducible refine mask_sub hm ?_); exact rfl
    | with_reducible refine raise_moves ?_ ?_ _
    | with_reducible refine faultEvent_moves ?_ ?_ _
    | with_reducible refine Moves.ite ?_ ?_
    | with_reducible refine Moves.dite ?_ ?_
    | with_reducible refine Moves.ite_snd ?_ ?_
    | with_reducible refine Moves.foldl ?_ _ ?_
    | with_reducible refine Moves.foldl_snd ?_ _ ?_
    | with_reducible refine Moves.elim _ ?_ ?_
    | with_reducible refine MovesOut.next ?_

theorem execCommandedReset_moves {m : Nat} {r s : State} (hm : 67108863 ||| m = m) (h : Moves m r s)   :
    MovesOut m r (Sys2Proof.Machine.execCommandedReset s) := by
  unfold Sys2Proof.Machine.execCommandedReset
  repeat' first
    | with_reducible assumption
    | with_reducible refine resetFull_moves ?_ ?_ _ _ _
    | with_reducible refine Moves.ite ?_ ?_
    | with_reducible refine Moves.dite ?_ ?_
    | with_reducible refine Moves.ite_snd ?_ ?_
    | with_reducible refine Moves.foldl ?_ _ ?_
    | with_reducible refine Moves.foldl_snd ?_ _ ?_
    | with_reducible refine Moves.elim _ ?_ ?_
    | with_reducible refine MovesOut.next ?_

theorem execIcpPerturbLive_moves {m : Nat} {r s : State} (hm : 10420224 ||| m = m) (h : Moves m r s) (x0 : _) (x1 : _)  :
    MovesOut m r (Sys2Proof.Machine.execIcpPerturbLive x0 x1 s) := by
  unfold Sys2Proof.Machine.execIcpPerturbLive
  repeat' first
    | with_reducible assumption
    | (with_reducible refine mask_sub hm ?_); exact rfl
    | with_reducible refine pertEnd_moves ?_ ?_ 
    | with_reducible refine pertLive_moves ?_ ?_ _
    | with_reducible refine icpDo_moves ?_ ?_ _ _ _ _ _ ?_
    | with_reducible refine Moves.ite ?_ ?_
    | with_reducible refine Moves.self ?_
    | with_reducible refine Moves.dite ?_ ?_
    | with_reducible refine Moves.ite_snd ?_ ?_
    | with_reducible refine Moves.foldl ?_ _ ?_
    | with_reducible refine Moves.foldl_snd ?_ _ ?_
    | with_reducible refine Moves.elim _ ?_ ?_
    | with_reducible refine MovesOut.next ?_
    | with_reducible refine MovesOut.ite ?_ ?_
    | with_reducible intro _

theorem pertStop_moves {m : Nat} {r s : State} (hm : 8978432 ||| m = m) (h : Moves m r s) (x0 : _)  :
    Moves m r (Sys2Proof.Machine.pertStop x0 s) := by
  unfold Sys2Proof.Machine.pertStop
  repeat' first
    | with_reducible assumption
    | (with_reducible refine mask_sub hm ?_); exact rfl
    | with_reducible refine onPert_moves ?_ ?_ _ _
    | with_reducible refine raise_moves ?_ ?_ _
    | with_reducible refine Moves.ite ?_ ?_

theorem execIcpPerturbArm_moves {m : Nat} {r s : State} (hm : 10420224 ||| m = m) (h : Moves m r s) (x0 : _) (x1 : _)  :
    MovesOut m r (Sys2Proof.Machine.execIcpPerturbArm x0 x1 s) := by
  unfold Sys2Proof.Machine.execIcpPerturbArm
  try dsimp only
  repeat' first
    | with_reducible assumption
    | (with_reducible refine mask_sub hm ?_); exact rfl
    | with_reducible refine pertEnd_moves ?_ ?_ 
    | with_reducible refine pertStop_moves ?_ ?_ _
    | with_reducible refine pertArm_moves ?_ ?_ _ _
    | with_reducible refine icpDo_moves ?_ ?_ _ _ _ _ _ ?_
    | with_reducible refine Moves.ite ?_ ?_
    | with_reducible refine Moves.self ?_
    | with_reducible refine Moves.dite ?_ ?_
    | with_reducible refine Moves.ite_snd ?_ ?_
    | with_reducible refine Moves.foldl ?_ _ ?_
    | with_reducible refine Moves.foldl_snd ?_ _ ?_
    | with_reducible refine Moves.elim _ ?_ ?_
    | with_reducible refine MovesOut.next ?_
    | with_reducible refine MovesOut.ite ?_ ?_
    | with_reducible intro _
    | split

theorem execIcpPerfAcl_moves {m : Nat} {r s : State} (hm : 6225920 ||| m = m) (h : Moves m r s) (x0 : _) (x1 : _) (x2 : _)  :
    MovesOut m r (Sys2Proof.Machine.execIcpPerfAcl x0 x1 x2 s) := by
  unfold Sys2Proof.Machine.execIcpPerfAcl
  repeat' first
    | with_reducible assumption
    | (with_reducible refine mask_sub hm ?_); exact rfl
    | with_reducible refine icpDo_moves ?_ ?_ _ _ _ _ _ ?_
    | with_reducible exact PerfOn.same rfl
    | with_reducible refine Moves.ite ?_ ?_
    | with_reducible refine Moves.self ?_
    | with_reducible refine Moves.dite ?_ ?_
    | with_reducible refine Moves.ite_snd ?_ ?_
    | with_reducible refine Moves.foldl ?_ _ ?_
    | with_reducible refine Moves.foldl_snd ?_ _ ?_
    | with_reducible refine Moves.elim _ ?_ ?_
    | with_reducible refine MovesOut.next ?_
    | with_reducible refine MovesOut.ite ?_ ?_
    | with_reducible intro _
    | with_reducible refine Moves.set_perf ?_ ?_ ?_

theorem execIcpPerfDumpConfig_moves {m : Nat} {r s : State} (hm : 6225920 ||| m = m) (h : Moves m r s) (x0 : _) (x1 : _)  :
    MovesOut m r (Sys2Proof.Machine.execIcpPerfDumpConfig x0 x1 s) := by
  unfold Sys2Proof.Machine.execIcpPerfDumpConfig
  repeat' first
    | with_reducible assumption
    | (with_reducible refine mask_sub hm ?_); exact rfl
    | with_reducible refine icpDo_moves ?_ ?_ _ _ _ _ _ ?_
    | with_reducible exact PerfOn.same rfl
    | with_reducible refine Moves.ite ?_ ?_
    | with_reducible refine Moves.self ?_
    | with_reducible refine Moves.dite ?_ ?_
    | with_reducible refine Moves.ite_snd ?_ ?_
    | with_reducible refine Moves.foldl ?_ _ ?_
    | with_reducible refine Moves.foldl_snd ?_ _ ?_
    | with_reducible refine Moves.elim _ ?_ ?_
    | with_reducible refine MovesOut.next ?_
    | with_reducible refine MovesOut.ite ?_ ?_
    | with_reducible intro _
    | with_reducible refine Moves.set_perf ?_ ?_ ?_

theorem cntZero_moves {m : Nat} {r s : State} (hm : 4194816 ||| m = m) (h : Moves m r s) (x0 : _) (x1 : _)  :
    Moves m r (Sys2Proof.Machine.cntZero x0 x1 s) := by
  unfold Sys2Proof.Machine.cntZero
  repeat' first
    | with_reducible assumption
    | (with_reducible refine mask_sub hm ?_); exact rfl
    | with_reducible refine onPort_moves ?_ ?_ _ _
    | exact fun e => mwf_mclear _ _ _ _ e
    | with_reducible exact PerfOn.same rfl
    | with_reducible refine Moves.ite ?_ ?_
    | with_reducible refine Moves.dite ?_ ?_
    | with_reducible refine Moves.ite_snd ?_ ?_
    | with_reducible refine Moves.foldl ?_ _ ?_
    | with_reducible refine Moves.foldl_snd ?_ _ ?_
    | with_reducible refine Moves.elim _ ?_ ?_
    | with_reducible intro _
    | with_reducible refine Moves.set_perf ?_ ?_ ?_

theorem execIcpPerfRead_readIt_moves {m : Nat} {r s : State} (hm : 4194816 ||| m = m) (h : Moves m r s) (x0 : _) (x1 : _)  :
    MovesRes m r (Sys2Proof.Machine.execIcpPerfRead.readIt x0 x1 s) := by
  unfold Sys2Proof.Machine.execIcpPerfRead.readIt
  repeat' first
    | with_reducible assumption
    | with_reducible refine cntZero_moves ?_ ?_ _ _
    | with_reducible refine Moves.ite ?_ ?_
    | with_reducible refine Moves.dite ?_ ?_
    | with_reducible refine Moves.ite_snd ?_ ?_
    | with_reducible refine Moves.foldl ?_ _ ?_
    | with_reducible refine Moves.foldl_snd ?_ _ ?_
    | with_reducible refine Moves.elim _ ?_ ?_
    | with_reducible refine MovesRes.ite ?_ ?_
    | with_reducible refine MovesRes.done ?_

theorem perfBind_moves {m : Nat} {r s : State} (hm : 4194816 ||| m = m) (h : Moves m r s) (x0 : _) (x1 : _)  :
    Moves m r (Sys2Proof.Machine.perfBind x0 x1 s) := by
  unfold Sys2Proof.Machine.perfBind
  repeat' first
    | with_reducible assumption
    | (with_reducible refine mask_sub hm ?_); exact rfl
    | with_reducible refine cntZero_moves ?_ ?_ _ _
    | with_reducible exact PerfOn.same rfl
    | with_reducible refine Moves.ite ?_ ?_
    | with_reducible refine Moves.dite ?_ ?_
    | with_reducible refine Moves.ite_snd ?_ ?_
    | with_reducible refine Moves.foldl ?_ _ ?_
    | with_reducible refine Moves.foldl_snd ?_ _ ?_
    | with_reducible refine Moves.elim _ ?_ ?_
    | with_reducible intro _
    | with_reducible refine Moves.set_perf ?_ ?_ ?_

theorem execIcpPerfRead_moves {m : Nat} {r s : State} (hm : 6226432 ||| m = m) (h : Moves m r s) (x0 : _) (x1 : _)  :
    MovesOut m r (Sys2Proof.Machine.execIcpPerfRead x0 x1 s) := by
  unfold Sys2Proof.Machine.execIcpPerfRead
  try dsimp only
  repeat' first
    | with_reducible assumption
    | (with_reducible refine mask_sub hm ?_); exact rfl
    | with_reducible refine cntZero_moves ?_ ?_ _ _
    | with_reducible refine execIcpPerfRead_readIt_moves ?_ ?_ _ _
    | with_reducible refine perfBind_moves ?_ ?_ _ _
    | with_reducible refine icp_moves ?_ ?_ _ _ _ ?_
    | with_reducible refine Moves.ite ?_ ?_
    | with_reducible refine Moves.dite ?_ ?_
    | with_reducible refine Moves.ite_snd ?_ ?_
    | with_reducible refine Moves.foldl ?_ _ ?_
    | with_reducible refine Moves.foldl_snd ?_ _ ?_
    | with_reducible refine Moves.elim _ ?_ ?_
    | with_reducible refine MovesOut.next ?_
    | with_reducible refine MovesOut.ite ?_ ?_
    | with_reducible refine MovesRes.ite ?_ ?_
    | with_reducible refine MovesRes.done ?_
    | with_reducible refine MovesRes.later ?_
    | with_reducible intro _
    | split

theorem execIcpTrailFlush_moves {m : Nat} {r s : State} (hm : 2031616 ||| m = m) (h : Moves m r s) (x0 : _) (x1 : _) (x2 : _)  :
    MovesOut m r (Sys2Proof.Machine.execIcpTrailFlush x0 x1 x2 s) := by
  unfold Sys2Proof.Machine.execIcpTrailFlush
  repeat' first
    | with_reducible assumption
    | (with_reducible refine mask_sub hm ?_); exact rfl
    | with_reducible refine flushStart_moves ?_ ?_ 
    | with_reducible refine icp_moves ?_ ?_ _ _ _ ?_
    | with_reducible refine Moves.ite ?_ ?_
    | with_reducible refine Moves.dite ?_ ?_
    | with_reducible refine Moves.ite_snd ?_ ?_
    | with_reducible refine Moves.foldl ?_ _ ?_
    | with_reducible refine Moves.foldl_snd ?_ _ ?_
    | with_reducible refine Moves.elim _ ?_ ?_
    | with_reducible refine MovesOut.next ?_
    | with_reducible refine MovesOut.ite ?_ ?_
    | with_reducible refine MovesRes.ite ?_ ?_
    | with_reducible refine MovesRes.done ?_
    | with_reducible refine MovesRes.later ?_
    | with_reducible intro _
    | with_reducible refine Moves.set_trail ?_ ?_

theorem injectArm_moves {m : Nat} {r s : State} (hm : 25116250 ||| m = m) (h : Moves m r s) (x0 : _) (x1 : _)  :
    Moves m r (Sys2Proof.Machine.injectArm x0 x1 s) := by
  unfold Sys2Proof.Machine.injectArm
  repeat' first
    | with_reducible assumption
    | (with_reducible refine mask_sub hm ?_); exact rfl
    | with_reducible refine faultReact_moves ?_ ?_ _ _ _
    | with_reducible refine overlap_moves ?_ ?_ _
    | with_reducible refine lanternFast_moves ?_ ?_ 
    | with_reducible exact FaultOn.same rfl
    | with_reducible refine Moves.ite ?_ ?_
    | with_reducible refine Moves.dite ?_ ?_
    | with_reducible refine Moves.ite_snd ?_ ?_
    | with_reducible refine Moves.foldl ?_ _ ?_
    | with_reducible refine Moves.foldl_snd ?_ _ ?_
    | with_reducible refine Moves.elim _ ?_ ?_
    | with_reducible intro _
    | with_reducible refine Moves.set_fault ?_ ?_ ?_

theorem execIcpFaultInject_moves {m : Nat} {r s : State} (hm : 67108863 ||| m = m) (h : Moves m r s) (x0 : _) (x1 : _)  :
    MovesOut m r (Sys2Proof.Machine.execIcpFaultInject x0 x1 s) := by
  unfold Sys2Proof.Machine.execIcpFaultInject
  try dsimp only
  repeat' first
    | with_reducible assumption
    | (with_reducible refine mask_sub hm ?_); exact rfl
    | with_reducible refine injectArm_moves ?_ ?_ _ _
    | with_reducible refine reset5_moves ?_ ?_ 
    | with_reducible refine injectEnd_moves ?_ ?_ _
    | with_reducible refine icp_moves ?_ ?_ _ _ _ ?_
    | with_reducible refine Moves.ite ?_ ?_
    | with_reducible refine Moves.dite ?_ ?_
    | with_reducible refine Moves.ite_snd ?_ ?_
    | with_reducible refine Moves.foldl ?_ _ ?_
    | with_reducible refine Moves.foldl_snd ?_ _ ?_
    | with_reducible refine Moves.elim _ ?_ ?_
    | with_reducible refine MovesOut.next ?_
    | with_reducible refine MovesOut.ite ?_ ?_
    | with_reducible refine MovesRes.ite ?_ ?_
    | with_reducible refine MovesRes.done ?_
    | with_reducible refine MovesRes.later ?_
    | with_reducible intro _
    | split

/-- A severity of at most 3 for a source that is neither reserved nor fixed. -/
theorem sevOk_set {v : Vector Nat 64} (i : Fin 64) (n : Nat) (hn : n ≤ 3) (hr : faultReserved i.1 = false) (n0 : (i : Nat) ≠ 0)
    (n57 : (i : Nat) ≠ 57) (n58 : (i : Nat) ≠ 58) (h : SevOk v) : SevOk (v.set i.1 n) := by
  obtain ⟨a, b, c, d, e⟩ := h
  refine ⟨fun j => ?_, fun j hj => ?_, ?_, ?_, ?_⟩
  · by_cases q : (i : Nat) = j
    · simp [Vector.getElem_set, q, hn]
    · simpa [Vector.getElem_set, q] using a j
  · by_cases q : (i : Nat) = j
    · rw [q, hj] at hr; cases hr
    · simpa [Vector.getElem_set, q] using b j hj
  · simpa [Vector.getElem_set, n0] using c
  · simpa [Vector.getElem_set, n57] using d
  · simpa [Vector.getElem_set, n58] using e

theorem execIcpFaultConfig_moves {m : Nat} {r s : State} (hm : 4128784 ||| m = m) (h : Moves m r s) (x0 : _) (x1 : _) (x2 : _) (x3 : _) :
    MovesOut m r (Sys2Proof.Machine.execIcpFaultConfig x0 x1 x2 x3 s) := by
  unfold Sys2Proof.Machine.execIcpFaultConfig Sys2Proof.Machine.icpDo
  refine icp_moves (mask_sub hm rfl) h _ _ _ fun s h => ?_
  dsimp only
  split
  · rename_i e
    refine MovesRes.done ?_
    cases hf : faultSrc x1 with
    | none => exact h
    | some i =>
      refine lanternFast_moves (mask_sub hm rfl) ?_
      refine h.set_fault (mask_sub hm rfl) ?_
      have hi : i.1 = x1.toNat ∧ faultReserved x1.toNat = false := by
        unfold faultSrc at hf
        split at hf
        · cases hf
        · rename_i nr
          unfold fin? at hf
          split at hf
          · cases hf; exact ⟨rfl, by simpa using nr⟩
          · cases hf
      have hc : (x3 || (faultSrc x1).isNone || x1 == 0#8 || x1 == 57#8 || x1 == 58#8 || decide (3 < x2.toNat)) = false := by
        cases hb : (x3 || (faultSrc x1).isNone || x1 == 0#8 || x1 == 57#8 || x1 == 58#8 || decide (3 < x2.toNat))
        · rfl
        · rw [hb] at e; simp [firstFail, stOk, stBadArg] at e
      simp only [Bool.or_eq_false_iff, decide_eq_false_iff_not, beq_eq_false_iff_ne, ne_eq] at hc
      obtain ⟨⟨⟨⟨_, h0⟩, h57⟩, h58⟩, hs⟩ := hc
      have n0 : (i : Nat) ≠ 0 := fun q => h0 (BitVec.eq_of_toNat_eq (by rw [← hi.1, q]; rfl))
      have n57 : (i : Nat) ≠ 57 := fun q => h57 (BitVec.eq_of_toNat_eq (by rw [← hi.1, q]; rfl))
      have n58 : (i : Nat) ≠ 58 := fun q => h58 (BitVec.eq_of_toNat_eq (by rw [← hi.1, q]; rfl))
      exact sevOk_set i x2.toNat (by omega) (by rw [hi.1]; exact hi.2) n0 n57 n58
  · exact .done h

theorem execIcpFaultStatus_moves {m : Nat} {r s : State} (hm : 2031616 ||| m = m) (h : Moves m r s) (x0 : _)  :
    MovesOut m r (Sys2Proof.Machine.execIcpFaultStatus x0 s) := by
  unfold Sys2Proof.Machine.execIcpFaultStatus
  repeat' first
    | with_reducible assumption
    | with_reducible refine icpGet_moves ?_ ?_ _ _ _

theorem execIcpSlotList_moves {m : Nat} {r s : State} (hm : 2031616 ||| m = m) (h : Moves m r s) (x0 : _)  :
    MovesOut m r (Sys2Proof.Machine.execIcpSlotList x0 s) := by
  unfold Sys2Proof.Machine.execIcpSlotList
  repeat' first
    | with_reducible assumption
    | with_reducible refine icpGet_moves ?_ ?_ _ _ _

theorem execIcpModeConfig_moves {m : Nat} {r s : State} (hm : 18808832 ||| m = m) (h : Moves m r s) (x0 : _) (x1 : _) (x2 : _) (x3 : _)  :
    MovesOut m r (Sys2Proof.Machine.execIcpModeConfig x0 x1 x2 x3 s) := by
  unfold Sys2Proof.Machine.execIcpModeConfig
  repeat' first
    | with_reducible assumption
    | (with_reducible refine mask_sub hm ?_); exact rfl
    | with_reducible refine icpDo_moves ?_ ?_ _ _ _ _ _ ?_
    | with_reducible exact Chg.word rfl rfl rfl rfl
    | exact Chg.bit hm rfl
    | with_reducible refine Moves.ite ?_ ?_
    | with_reducible refine Moves.self ?_
    | with_reducible refine Moves.dite ?_ ?_
    | with_reducible refine Moves.ite_snd ?_ ?_
    | with_reducible refine Moves.foldl ?_ _ ?_
    | with_reducible refine Moves.foldl_snd ?_ _ ?_
    | with_reducible refine Moves.elim _ ?_ ?_
    | with_reducible refine MovesOut.next ?_
    | with_reducible refine MovesOut.ite ?_ ?_
    | with_reducible intro _
    | with_reducible refine Moves.set_sys ?_ ?_ ?_

theorem execIcpSysReset_moves {m : Nat} {r s : State} (hm : 18808832 ||| m = m) (h : Moves m r s) (x0 : _) (x1 : _)  :
    MovesOut m r (Sys2Proof.Machine.execIcpSysReset x0 x1 s) := by
  unfold Sys2Proof.Machine.execIcpSysReset
  repeat' first
    | with_reducible assumption
    | (with_reducible refine mask_sub hm ?_); exact rfl
    | with_reducible refine icpDo_moves ?_ ?_ _ _ _ _ _ ?_
    | with_reducible exact Chg.word rfl rfl rfl rfl
    | exact Chg.bit hm rfl
    | with_reducible refine Moves.ite ?_ ?_
    | with_reducible refine Moves.self ?_
    | with_reducible refine Moves.dite ?_ ?_
    | with_reducible refine Moves.ite_snd ?_ ?_
    | with_reducible refine Moves.foldl ?_ _ ?_
    | with_reducible refine Moves.foldl_snd ?_ _ ?_
    | with_reducible refine Moves.elim _ ?_ ?_
    | with_reducible refine MovesOut.next ?_
    | with_reducible refine MovesOut.ite ?_ ?_
    | with_reducible intro _
    | with_reducible refine Moves.set_sys ?_ ?_ ?_

theorem execIcpResume_moves {m : Nat} {r s : State} (hm : 18808832 ||| m = m) (h : Moves m r s) (x0 : _)  :
    MovesOut m r (Sys2Proof.Machine.execIcpResume x0 s) := by
  unfold Sys2Proof.Machine.execIcpResume
  repeat' first
    | with_reducible assumption
    | (with_reducible refine mask_sub hm ?_); exact rfl
    | with_reducible refine icpDo_moves ?_ ?_ _ _ _ _ _ ?_
    | with_reducible exact Chg.word rfl rfl rfl rfl
    | exact Chg.bit hm rfl
    | with_reducible refine Moves.ite ?_ ?_
    | with_reducible refine Moves.self ?_
    | with_reducible refine Moves.dite ?_ ?_
    | with_reducible refine Moves.ite_snd ?_ ?_
    | with_reducible refine Moves.foldl ?_ _ ?_
    | with_reducible refine Moves.foldl_snd ?_ _ ?_
    | with_reducible refine Moves.elim _ ?_ ?_
    | with_reducible refine MovesOut.next ?_
    | with_reducible refine MovesOut.ite ?_ ?_
    | with_reducible intro _
    | with_reducible refine Moves.set_sys ?_ ?_ ?_

theorem execIcpQuiesce_moves {m : Nat} {r s : State} (hm : 25116250 ||| m = m) (h : Moves m r s) (x0 : _) (x1 : _) (x2 : _) (x3 : _)  :
    MovesOut m r (Sys2Proof.Machine.execIcpQuiesce x0 x1 x2 x3 s) := by
  unfold Sys2Proof.Machine.execIcpQuiesce
  repeat' first
    | with_reducible assumption
    | (with_reducible refine mask_sub hm ?_); exact rfl
    | with_reducible refine relinquish_moves ?_ ?_ _ _
    | with_reducible refine startHandover_moves ?_ ?_ _ _
    | with_reducible refine quiesceAdmit_moves ?_ ?_ 
    | with_reducible refine icp_moves ?_ ?_ _ _ _ ?_
    | with_reducible exact Chg.word rfl rfl rfl rfl
    | exact Chg.bit hm rfl
    | with_reducible refine Moves.ite ?_ ?_
    | with_reducible refine Moves.dite ?_ ?_
    | with_reducible refine Moves.ite_snd ?_ ?_
    | with_reducible refine Moves.foldl ?_ _ ?_
    | with_reducible refine Moves.foldl_snd ?_ _ ?_
    | with_reducible refine Moves.elim _ ?_ ?_
    | with_reducible refine MovesOut.next ?_
    | with_reducible refine MovesOut.ite ?_ ?_
    | with_reducible refine MovesRes.ite ?_ ?_
    | with_reducible refine MovesRes.done ?_
    | with_reducible refine MovesRes.later ?_
    | with_reducible intro _
    | with_reducible refine Moves.set_sys ?_ ?_ ?_

theorem execIcpProvisionDone_moves {m : Nat} {r s : State} (hm : 18841600 ||| m = m) (h : Moves m r s) (x0 : _)  :
    MovesOut m r (Sys2Proof.Machine.execIcpProvisionDone x0 s) := by
  unfold Sys2Proof.Machine.execIcpProvisionDone
  repeat' first
    | with_reducible assumption
    | (with_reducible refine mask_sub hm ?_); exact rfl
    | with_reducible refine cfgUpdate_moves ?_ ?_ _
    | with_reducible refine icpDo_moves ?_ ?_ _ _ _ _ _ ?_
    | with_reducible exact Chg.word rfl rfl rfl rfl
    | exact Chg.bit hm rfl
    | with_reducible refine Moves.ite ?_ ?_
    | with_reducible refine Moves.self ?_
    | with_reducible refine Moves.dite ?_ ?_
    | with_reducible refine Moves.ite_snd ?_ ?_
    | with_reducible refine Moves.foldl ?_ _ ?_
    | with_reducible refine Moves.foldl_snd ?_ _ ?_
    | with_reducible refine Moves.elim _ ?_ ?_
    | with_reducible refine MovesOut.next ?_
    | with_reducible refine MovesOut.ite ?_ ?_
    | with_reducible intro _
    | with_reducible refine Moves.set_sys ?_ ?_ ?_

theorem execPerturbExpiry_moves {m : Nat} {r s : State} (hm : 8978436 ||| m = m) (h : Moves m r s) (x0 : _) (x1 : _)  :
    MovesOut m r (Sys2Proof.Machine.execPerturbExpiry x0 x1 s) := by
  unfold Sys2Proof.Machine.execPerturbExpiry
  repeat' first
    | with_reducible assumption
    | (with_reducible refine mask_sub hm ?_); exact rfl
    | with_reducible refine pertStop_moves ?_ ?_ _
    | with_reducible refine atOdo_moves ?_ ?_ _
    | with_reducible refine Moves.ite ?_ ?_
    | with_reducible refine Moves.dite ?_ ?_
    | with_reducible refine Moves.ite_snd ?_ ?_
    | with_reducible refine Moves.foldl ?_ _ ?_
    | with_reducible refine Moves.foldl_snd ?_ _ ?_
    | with_reducible refine Moves.elim _ ?_ ?_
    | with_reducible refine MovesOut.next ?_

theorem execTrailFlushDone_moves {m : Nat} {r s : State} (hm : 25116250 ||| m = m) (h : Moves m r s) (x0 : _)  :
    MovesOut m r (Sys2Proof.Machine.execTrailFlushDone x0 s) := by
  unfold Sys2Proof.Machine.execTrailFlushDone
  try dsimp only
  repeat' first
    | with_reducible assumption
    | (with_reducible refine mask_sub hm ?_); exact rfl
    | with_reducible refine sticky_moves ?_ ?_ _ _
    | with_reducible refine faultEvent_moves ?_ ?_ _
    | with_reducible refine complete_moves ?_ ?_ _ _ _ _
    | with_reducible refine raise_moves ?_ ?_ _
    | with_reducible refine Moves.ite ?_ ?_
    | with_reducible refine Moves.dite ?_ ?_
    | with_reducible refine Moves.ite_snd ?_ ?_
    | with_reducible refine Moves.foldl ?_ _ ?_
    | with_reducible refine Moves.foldl_snd ?_ _ ?_
    | with_reducible refine Moves.elim _ ?_ ?_
    | with_reducible refine MovesOut.next ?_
    | with_reducible refine MovesOut.ite ?_ ?_
    | with_reducible intro _
    | split
    | with_reducible refine Moves.set_trail ?_ ?_

theorem execTrailFlushPeriodic_moves {m : Nat} {r s : State} (hm : 1048576 ||| m = m) (h : Moves m r s)   :
    MovesOut m r (Sys2Proof.Machine.execTrailFlushPeriodic s) := by
  unfold Sys2Proof.Machine.execTrailFlushPeriodic
  repeat' first
    | with_reducible assumption
    | with_reducible refine flushStart_moves ?_ ?_ 
    | with_reducible refine Moves.ite ?_ ?_
    | with_reducible refine Moves.dite ?_ ?_
    | with_reducible refine Moves.ite_snd ?_ ?_
    | with_reducible refine Moves.foldl ?_ _ ?_
    | with_reducible refine Moves.foldl_snd ?_ _ ?_
    | with_reducible refine Moves.elim _ ?_ ?_
    | with_reducible refine MovesOut.next ?_

theorem execInjectionResample_moves {m : Nat} {r s : State} (hm : 25116250 ||| m = m) (h : Moves m r s) (x0 : _) (x1 : _)  :
    MovesOut m r (Sys2Proof.Machine.execInjectionResample x0 x1 s) := by
  unfold Sys2Proof.Machine.execInjectionResample
  repeat' first
    | with_reducible assumption
    | (with_reducible refine mask_sub hm ?_); exact rfl
    | with_reducible refine faultReact_moves ?_ ?_ _ _ _
    | with_reducible refine lanternFast_moves ?_ ?_ 
    | with_reducible refine atCk_moves ?_ ?_ _
    | with_reducible exact FaultOn.same rfl
    | with_reducible refine Moves.ite ?_ ?_
    | with_reducible refine Moves.dite ?_ ?_
    | with_reducible refine Moves.ite_snd ?_ ?_
    | with_reducible refine Moves.foldl ?_ _ ?_
    | with_reducible refine Moves.foldl_snd ?_ _ ?_
    | with_reducible refine Moves.elim _ ?_ ?_
    | with_reducible refine MovesOut.next ?_
    | with_reducible refine MovesOut.ite ?_ ?_
    | with_reducible intro _
    | with_reducible refine Moves.set_fault ?_ ?_ ?_

theorem execQuiesceDrained_moves {m : Nat} {r s : State} (hm : 25149054 ||| m = m) (h : Moves m r s) (x0 : _)  :
    MovesOut m r (Sys2Proof.Machine.execQuiesceDrained x0 s) := by
  unfold Sys2Proof.Machine.execQuiesceDrained
  try dsimp only
  repeat' first
    | with_reducible assumption
    | (with_reducible refine mask_sub hm ?_); exact rfl
    | with_reducible refine cairnRecord_moves ?_ ?_ _
    | with_reducible refine guySave_moves ?_ ?_ 
    | with_reducible refine flushStart_moves ?_ ?_ 
    | with_reducible refine setOe_moves ?_ ?_ _
    | with_reducible refine ownLevel_moves ?_ ?_ 
    | with_reducible refine relinquish_moves ?_ ?_ _ _
    | with_reducible refine atTick_moves ?_ ?_ _
    | with_reducible exact Chg.word rfl rfl rfl rfl
    | exact Chg.bit hm rfl
    | with_reducible refine Moves.ite ?_ ?_
    | with_reducible refine Moves.dite ?_ ?_
    | with_reducible refine Moves.ite_snd ?_ ?_
    | with_reducible refine Moves.foldl ?_ _ ?_
    | with_reducible refine Moves.foldl_snd ?_ _ ?_
    | with_reducible refine Moves.elim _ ?_ ?_
    | with_reducible refine MovesOut.next ?_
    | with_reducible refine MovesOut.ite ?_ ?_
    | with_reducible intro _
    | split
    | with_reducible refine Moves.set_sys ?_ ?_ ?_

theorem fenceLease_moves {m : Nat} {r s : State} (hm : 8192 ||| m = m) (h : Moves m r s)   :
    Moves m r (Sys2Proof.Machine.fenceLease s) := by
  unfold Sys2Proof.Machine.fenceLease
  repeat' first
    | with_reducible assumption
    | with_reducible refine Moves.ite ?_ ?_
    | with_reducible refine Moves.dite ?_ ?_
    | with_reducible refine Moves.ite_snd ?_ ?_
    | with_reducible refine Moves.foldl ?_ _ ?_
    | with_reducible refine Moves.foldl_snd ?_ _ ?_
    | with_reducible refine Moves.elim _ ?_ ?_
    | with_reducible intro _
    | with_reducible refine Moves.set_foot ?_ ?_

theorem cairnBoundary_moves {m : Nat} {r s : State} (hm : 8 ||| m = m) (h : Moves m r s)   :
    Moves m r (Sys2Proof.Machine.cairnBoundary s) := by
  unfold Sys2Proof.Machine.cairnBoundary
  repeat' first
    | with_reducible assumption
    | with_reducible refine cairnRecord_moves ?_ ?_ _
    | with_reducible refine Moves.ite ?_ ?_
    | with_reducible refine Moves.dite ?_ ?_
    | with_reducible refine Moves.ite_snd ?_ ?_
    | with_reducible refine Moves.foldl ?_ _ ?_
    | with_reducible refine Moves.foldl_snd ?_ _ ?_
    | with_reducible refine Moves.elim _ ?_ ?_
    | with_reducible intro _
    | with_reducible refine Moves.set_cairn ?_ ?_

theorem boundarySteps_moves {m : Nat} {r s : State} (hm : 25116542 ||| m = m) (h : Moves m r s)   :
    Moves m r (Sys2Proof.Machine.boundarySteps s) := by
  unfold Sys2Proof.Machine.boundarySteps
  repeat' first
    | with_reducible assumption
    | (with_reducible refine mask_sub hm ?_); exact rfl
    | with_reducible refine applyLeap_moves ?_ ?_ 
    | with_reducible refine outStep_moves ?_ ?_ _
    | with_reducible refine stepsAt_moves ?_ ?_ 
    | with_reducible refine Moves.ite ?_ ?_

theorem autoHandover_moves {m : Nat} {r s : State} (hm : 8192 ||| m = m) (h : Moves m r s)   :
    Moves m r (Sys2Proof.Machine.autoHandover s) := by
  unfold Sys2Proof.Machine.autoHandover
  repeat' first
    | with_reducible assumption
    | with_reducible refine startHandover_moves ?_ ?_ _ _
    | with_reducible refine Moves.ite ?_ ?_

theorem modeEffects_moves {m : Nat} {r s : State} (hm : 67076094 ||| m = m) (h : Moves m r s) (x0 : _) (x1 : _)  :
    Moves m r (Sys2Proof.Machine.modeEffects x0 x1 s) := by
  unfold Sys2Proof.Machine.modeEffects
  repeat' first
    | with_reducible assumption
    | (with_reducible refine mask_sub hm ?_); exact rfl
    | with_reducible refine autoHandover_moves ?_ ?_ 
    | with_reducible refine quiesceEnd_moves ?_ ?_ 
    | with_reducible refine holdEnter_moves ?_ ?_ _
    | with_reducible refine reselect_moves ?_ ?_ 
    | with_reducible refine peerFollow_moves ?_ ?_ 
    | with_reducible refine signStop_moves ?_ ?_ 
    | with_reducible refine holdExit_moves ?_ ?_ 
    | with_reducible refine enterMode_moves ?_ ?_ _ _
    | with_reducible refine Moves.ite ?_ ?_

theorem lockCount_moves {m : Nat} {r s : State} (hm : 16777216 ||| m = m) (h : Moves m r s)   :
    Moves m r (Sys2Proof.Machine.lockCount s) := by
  unfold Sys2Proof.Machine.lockCount
  repeat' first
    | with_reducible assumption
    | with_reducible exact Chg.word rfl rfl rfl rfl
    | exact Chg.bit hm rfl
    | with_reducible refine Moves.ite ?_ ?_
    | with_reducible refine Moves.dite ?_ ?_
    | with_reducible refine Moves.ite_snd ?_ ?_
    | with_reducible refine Moves.foldl ?_ _ ?_
    | with_reducible refine Moves.foldl_snd ?_ _ ?_
    | with_reducible refine Moves.elim _ ?_ ?_
    | with_reducible intro _
    | with_reducible refine Moves.set_sys ?_ ?_ ?_

theorem modeEval_moves {m : Nat} {r s : State} (hm : 67076094 ||| m = m) (h : Moves m r s)   :
    Moves m r (Sys2Proof.Machine.modeEval s) := by
  unfold Sys2Proof.Machine.modeEval
  try dsimp only
  repeat' first
    | with_reducible assumption
    | (with_reducible refine mask_sub hm ?_); exact rfl
    | with_reducible refine modeEffects_moves ?_ ?_ _ _
    | with_reducible refine lockCount_moves ?_ ?_ 
    | with_reducible exact Chg.word rfl rfl rfl rfl
    | exact Chg.bit hm rfl
    | with_reducible refine Moves.ite ?_ ?_
    | with_reducible refine Moves.dite ?_ ?_
    | with_reducible refine Moves.ite_snd ?_ ?_
    | with_reducible refine Moves.foldl ?_ _ ?_
    | with_reducible refine Moves.foldl_snd ?_ _ ?_
    | with_reducible refine Moves.elim _ ?_ ?_
    | with_reducible intro _
    | split
    | with_reducible refine Moves.set_sys ?_ ?_ ?_

theorem holdPeriod_moves {m : Nat} {r s : State} (hm : 25116286 ||| m = m) (h : Moves m r s) (x0 : _)  :
    Moves m r (Sys2Proof.Machine.holdPeriod x0 s) := by
  unfold Sys2Proof.Machine.holdPeriod
  repeat' first
    | with_reducible assumption
    | (with_reducible refine mask_sub hm ?_); exact rfl
    | with_reducible refine commitIncr_moves ?_ ?_ _
    | with_reducible refine holdSecond_moves ?_ ?_ 
    | with_reducible refine holdSwitch_moves ?_ ?_ _
    | with_reducible refine flyFollow_moves ?_ ?_ 
    | with_reducible refine Moves.ite ?_ ?_
    | with_reducible refine Moves.dite ?_ ?_
    | with_reducible refine Moves.ite_snd ?_ ?_
    | with_reducible refine Moves.foldl ?_ _ ?_
    | with_reducible refine Moves.foldl_snd ?_ _ ?_
    | with_reducible refine Moves.elim _ ?_ ?_
    | with_reducible intro _
    | with_reducible refine Moves.set_guy ?_ ?_

theorem advance_moves {m : Nat} {r s : State} (hm : 52 ||| m = m) (h : Moves m r s)   :
    Moves m r (Sys2Proof.Machine.advance s) := by
  unfold Sys2Proof.Machine.advance
  repeat' first
    | with_reducible assumption
    | with_reducible refine Moves.ite ?_ ?_
    | with_reducible refine Moves.dite ?_ ?_
    | with_reducible refine Moves.ite_snd ?_ ?_
    | with_reducible refine Moves.foldl ?_ _ ?_
    | with_reducible refine Moves.foldl_snd ?_ _ ?_
    | with_reducible refine Moves.elim _ ?_ ?_
    | with_reducible intro _
    | with_reducible refine Moves.set_time_sign_guy ?_ ?_

theorem boundary_moves {m : Nat} {r s : State} (hm : 67076094 ||| m = m) (h : Moves m r s)   :
    Moves m r (Sys2Proof.Machine.boundary s) := by
  unfold Sys2Proof.Machine.boundary
  repeat' first
    | with_reducible assumption
    | (with_reducible refine mask_sub hm ?_); exact rfl
    | with_reducible refine readySet_moves ?_ ?_ _
    | with_reducible refine fenceLease_moves ?_ ?_ 
    | with_reducible refine outFollow_moves ?_ ?_ 
    | with_reducible refine lanternAll_moves ?_ ?_ 
    | with_reducible refine conflictCheck_moves ?_ ?_ 
    | with_reducible refine cairnBoundary_moves ?_ ?_ 
    | with_reducible refine slotSettle_moves ?_ ?_ 
    | with_reducible refine holdCompare_moves ?_ ?_ 
    | with_reducible refine guyLines_moves ?_ ?_ 
    | with_reducible refine guyWatch_moves ?_ ?_ 
    | with_reducible refine burstWatch_moves ?_ ?_ 
    | with_reducible refine errbCompose_moves ?_ ?_ 
    | with_reducible refine swbPeriod_moves ?_ ?_ 
    | with_reducible refine boundarySteps_moves ?_ ?_ 
    | with_reducible refine mileTai_moves ?_ ?_ 
    | with_reducible refine cairnDue_moves ?_ ?_ _
    | with_reducible refine modeEval_moves ?_ ?_ 
    | with_reducible refine holdPeriod_moves ?_ ?_ _
    | with_reducible refine advance_moves ?_ ?_ 

theorem execSteeringBoundary_moves {m : Nat} {r s : State} (hm : 67076094 ||| m = m) (h : Moves m r s)   :
    MovesOut m r (Sys2Proof.Machine.execSteeringBoundary s) := by
  unfold Sys2Proof.Machine.execSteeringBoundary
  repeat' first
    | with_reducible assumption
    | with_reducible refine boundary_moves ?_ ?_ 
    | with_reducible refine Moves.ite ?_ ?_
    | with_reducible refine Moves.dite ?_ ?_
    | with_reducible refine Moves.ite_snd ?_ ?_
    | with_reducible refine Moves.foldl ?_ _ ?_
    | with_reducible refine Moves.foldl_snd ?_ _ ?_
    | with_reducible refine Moves.elim _ ?_ ?_
    | with_reducible refine MovesOut.next ?_

theorem execDomainPowerUpDone_moves {m : Nat} {r s : State} (hm : 17629202 ||| m = m) (h : Moves m r s) (x0 : _)  :
    MovesOut m r (Sys2Proof.Machine.execDomainPowerUpDone x0 s) := by
  unfold Sys2Proof.Machine.execDomainPowerUpDone
  try dsimp only
  repeat' first
    | with_reducible assumption
    | (with_reducible refine mask_sub hm ?_); exact rfl
    | with_reducible refine complete_moves ?_ ?_ _ _ _ _
    | with_reducible refine pwrEnd_moves ?_ ?_ 
    | with_reducible refine domainBack_moves ?_ ?_ _
    | with_reducible exact AonOn.same rfl
    | with_reducible refine Moves.ite ?_ ?_
    | with_reducible refine Moves.dite ?_ ?_
    | with_reducible refine Moves.ite_snd ?_ ?_
    | with_reducible refine Moves.foldl ?_ _ ?_
    | with_reducible refine Moves.foldl_snd ?_ _ ?_
    | with_reducible refine Moves.elim _ ?_ ?_
    | with_reducible refine MovesOut.next ?_
    | with_reducible refine MovesOut.ite ?_ ?_
    | with_reducible intro _
    | split
    | with_reducible refine Moves.set_aon ?_ ?_ ?_

theorem execFirmwareStart_moves {m : Nat} {r s : State} (hm : 67076090 ||| m = m) (h : Moves m r s) (x0 : _)  :
    MovesOut m r (Sys2Proof.Machine.execFirmwareStart x0 s) := by
  unfold Sys2Proof.Machine.execFirmwareStart
  repeat' first
    | with_reducible assumption
    | (with_reducible refine mask_sub hm ?_); exact rfl
    | with_reducible refine enterMode_moves ?_ ?_ _ _
    | with_reducible refine lanternAll_moves ?_ ?_ 
    | with_reducible refine raise_moves ?_ ?_ _
    | with_reducible refine cfgLoad_moves ?_ ?_ _
    | with_reducible refine loadStore_moves ?_ ?_ 
    | with_reducible exact AonOn.same rfl
    | with_reducible exact VaultOn.same rfl rfl
    | with_reducible exact Chg.word rfl rfl rfl rfl
    | exact Chg.bit hm rfl
    | with_reducible refine Moves.ite ?_ ?_
    | with_reducible refine Moves.dite ?_ ?_
    | with_reducible refine Moves.ite_snd ?_ ?_
    | with_reducible refine Moves.foldl ?_ _ ?_
    | with_reducible refine Moves.foldl_snd ?_ _ ?_
    | with_reducible refine Moves.elim _ ?_ ?_
    | with_reducible refine MovesOut.next ?_
    | with_reducible refine MovesOut.ite ?_ ?_
    | with_reducible intro _
    | with_reducible refine Moves.set_aon_guy_vault_sys ?_ ?_ ?_ ?_ ?_

theorem execRidgepoleLock_moves {m : Nat} {r s : State} (hm : 25116250 ||| m = m) (h : Moves m r s)   :
    MovesOut m r (Sys2Proof.Machine.execRidgepoleLock s) := by
  unfold Sys2Proof.Machine.execRidgepoleLock
  repeat' first
    | with_reducible assumption
    | (with_reducible refine mask_sub hm ?_); exact rfl
    | with_reducible refine faultCond_moves ?_ ?_ _ _
    | with_reducible exact AonOn.same rfl
    | with_reducible exact HostOn.same rfl
    | with_reducible refine Moves.ite ?_ ?_
    | with_reducible refine Moves.dite ?_ ?_
    | with_reducible refine Moves.ite_snd ?_ ?_
    | with_reducible refine Moves.foldl ?_ _ ?_
    | with_reducible refine Moves.foldl_snd ?_ _ ?_
    | with_reducible refine Moves.elim _ ?_ ?_
    | with_reducible refine MovesOut.next ?_
    | with_reducible refine MovesOut.ite ?_ ?_
    | with_reducible intro _
    | with_reducible refine Moves.set_aon_host ?_ ?_ ?_ ?_

theorem execOscMainCheck_moves {m : Nat} {r s : State} (hm : 1310722 ||| m = m) (h : Moves m r s) (x0 : _)  :
    MovesOut m r (Sys2Proof.Machine.execOscMainCheck x0 s) := by
  unfold Sys2Proof.Machine.execOscMainCheck
  try dsimp only
  repeat' first
    | with_reducible assumption
    | (with_reducible refine mask_sub hm ?_); exact rfl
    | with_reducible refine trail_moves ?_ ?_ _ _
    | with_reducible exact AonOn.same rfl
    | with_reducible refine Moves.ite ?_ ?_
    | with_reducible refine Moves.dite ?_ ?_
    | with_reducible refine Moves.ite_snd ?_ ?_
    | with_reducible refine Moves.foldl ?_ _ ?_
    | with_reducible refine Moves.foldl_snd ?_ _ ?_
    | with_reducible refine Moves.elim _ ?_ ?_
    | with_reducible refine MovesOut.next ?_
    | with_reducible refine MovesOut.ite ?_ ?_
    | with_reducible intro _
    | split
    | with_reducible refine Moves.set_aon ?_ ?_ ?_

theorem execWatchdogExpiry_moves {m : Nat} {r s : State} (hm : 67108863 ||| m = m) (h : Moves m r s)   :
    MovesOut m r (Sys2Proof.Machine.execWatchdogExpiry s) := by
  unfold Sys2Proof.Machine.execWatchdogExpiry
  repeat' first
    | with_reducible assumption
    | (with_reducible refine mask_sub hm ?_); exact rfl
    | with_reducible refine failedStart_moves ?_ ?_ 
    | with_reducible refine resetFull_moves ?_ ?_ _ _ _
    | with_reducible refine Moves.ite ?_ ?_
    | with_reducible refine Moves.dite ?_ ?_
    | with_reducible refine Moves.ite_snd ?_ ?_
    | with_reducible refine Moves.foldl ?_ _ ?_
    | with_reducible refine Moves.foldl_snd ?_ _ ?_
    | with_reducible refine Moves.elim _ ?_ ?_
    | with_reducible refine MovesOut.next ?_

end Sys2Proof.Laws
end

