-- ==== Sys2Proof/Laws/Exec.lean ====
section
/-!
SUPPORT. What any command of the block may change: everything but the queue; what only grows and what is canonical is kept.
-/
namespace Sys2Proof.Laws
open Sys2Proof Sys2Proof.Machine

/-- A command leaves the queue, and keeps what `Moves` says is kept; the lemma of its meaning says which components it leaves. -/
theorem exec_moves (c : Instr) (s : State) : MovesOut 67108863 s (exec c s) := by
  cases c with
  | powerOnReset provN unitB => exact execPowerOnReset_moves rfl (Moves.refl _ _) provN unitB
  | resetNAssert provN unitB => exact execResetNAssert_moves rfl (Moves.refl _ _) provN unitB
  | watchdogExpiry => exact execWatchdogExpiry_moves rfl (Moves.refl _ _)
  | wdogWarn => exact execWdogWarn_moves rfl (Moves.refl _ _)
  | ridgepoleLossOfLock => exact execRidgepoleLossOfLock_moves rfl (Moves.refl _ _)
  | oscMainCheck khz => exact execOscMainCheck_moves rfl (Moves.refl _ _) khz
  | ridgepoleLock => exact execRidgepoleLock_moves rfl (Moves.refl _ _)
  | trailheadStart pufFails => exact execTrailheadStart_moves rfl (Moves.refl _ _) pufFails
  | firmwareStart want => exact execFirmwareStart_moves rfl (Moves.refl _ _) want
  | slotLoss k => exact execSlotLoss_moves rfl (Moves.refl _ _) k
  | faultLineRise src => exact execFaultLineRise_moves rfl (Moves.refl _ _) src
  | powerGoodTimeout dom => exact execPowerGoodTimeout_moves rfl (Moves.refl _ _) dom
  | domainPowerUpDone dom => exact execDomainPowerUpDone_moves rfl (Moves.refl _ _) dom
  | steeringBoundary => exact execSteeringBoundary_moves rfl (Moves.refl _ _)
  | secondBoundary => exact execSecondBoundary_moves rfl (Moves.refl _ _)
  | slotEvaluation f0 f1 => exact execSlotEvaluation_moves rfl (Moves.refl _ _) f0 f1
  | holdoffExpiry n => exact execHoldoffExpiry_moves rfl (Moves.refl _ _) n
  | revertWaitExpiry => exact execRevertWaitExpiry_moves rfl (Moves.refl _ _)
  | driftWindowEnd d => exact execDriftWindowEnd_moves rfl (Moves.refl _ _) d
  | asymCheckEnd n => exact execAsymCheckEnd_moves rfl (Moves.refl _ _) n
  | todinMessage line ms bytes => exact execTodinMessage_moves rfl (Moves.refl _ _) line ms bytes
  | todQualityTimeout n => exact execTodQualityTimeout_moves rfl (Moves.refl _ _) n
  | stepPermitExpiry => exact execStepPermitExpiry_moves rfl (Moves.refl _ _)
  | lanternHoldExpiry pin => exact execLanternHoldExpiry_moves rfl (Moves.refl _ _) pin
  | leapApply => exact execLeapApply_moves rfl (Moves.refl _ _)
  | smearWindowEdge slot idx => exact execSmearWindowEdge_moves rfl (Moves.refl _ _) slot idx
  | timeIncrCommit hi => exact execTimeIncrCommit_moves rfl (Moves.refl _ _) hi
  | timeSlewCommit hi => exact execTimeSlewCommit_moves rfl (Moves.refl _ _) hi
  | nowLatchRead rd off => exact execNowLatchRead_moves rfl (Moves.refl _ _) rd off
  | odometerRead rd off => exact execOdometerRead_moves rfl (Moves.refl _ _) rd off
  | snapshotGo rd off => exact execSnapshotGo_moves rfl (Moves.refl _ _) rd off
  | snapshotRead rd => exact execSnapshotRead_moves rfl (Moves.refl _ _) rd
  | cairnPeriodicRecord => exact execCairnPeriodicRecord_moves rfl (Moves.refl _ _)
  | cairnSignDone ok => exact execCairnSignDone_moves rfl (Moves.refl _ _) ok
  | learnWindowEnd freq => exact execLearnWindowEnd_moves rfl (Moves.refl _ _) freq
  | atomAbsent => exact execAtomAbsent_moves rfl (Moves.refl _ _)
  | atomUartPoll => exact execAtomUartPoll_moves rfl (Moves.refl _ _)
  | atomUartResponse bytes => exact execAtomUartResponse_moves rfl (Moves.refl _ _) bytes
  | tempLost uart => exact execTempLost_moves rfl (Moves.refl _ _) uart
  | guylineModelSave => exact execGuylineModelSave_moves rfl (Moves.refl _ _)
  | tempSample temp => exact execTempSample_moves rfl (Moves.refl _ _) temp
  | todoutMessage line => exact execTodoutMessage_moves rfl (Moves.refl _ _) line
  | oeTimingChange off ck => exact execOeTimingChange_moves rfl (Moves.refl _ _) off ck
  | milestoneFire n => exact execMilestoneFire_moves rfl (Moves.refl _ _) n
  | evtCapture n off eighth falling => exact execEvtCapture_moves rfl (Moves.refl _ _) n off eighth falling
  | mileArmWrite rd n val => exact execMileArmWrite_moves rfl (Moves.refl _ _) rd n val
  | capturePop rd n => exact execCapturePop_moves rfl (Moves.refl _ _) rd n
  | measEpoch => exact execMeasEpoch_moves rfl (Moves.refl _ _)
  | outCalibrateDone loopPs rms ok => exact execOutCalibrateDone_moves rfl (Moves.refl _ _) loopPs rms ok
  | tdcResult ch deltaFs gap tbOpen => exact execTdcResult_moves rfl (Moves.refl _ _) ch deltaFs gap tbOpen
  | tdcTimeout ch => exact execTdcTimeout_moves rfl (Moves.refl _ _) ch
  | tdcDllUnlock ch => exact execTdcDllUnlock_moves rfl (Moves.refl _ _) ch
  | tdcDllLock ch => exact execTdcDllLock_moves rfl (Moves.refl _ _) ch
  | tdcCalibration ch => exact execTdcCalibration_moves rfl (Moves.refl _ _) ch
  | timebasePresence which present => exact execTimebasePresence_moves rfl (Moves.refl _ _) which present
  | tdcArmWrite rd ch val => exact execTdcArmWrite_moves rfl (Moves.refl _ _) rd ch val
  | tdcResultPop rd ch => exact execTdcResultPop_moves rfl (Moves.refl _ _) rd ch
  | dumpBoundary ch samples => exact execDumpBoundary_moves rfl (Moves.refl _ _) ch samples
  | forcedBoundary ch samples => exact execForcedBoundary_moves rfl (Moves.refl _ _) ch samples
  | feMagPeriod st samples => exact execFeMagPeriod_moves rfl (Moves.refl _ _) st samples
  | channelEnable ch ctrl w => exact execChannelEnable_moves rfl (Moves.refl _ _) ch ctrl w
  | channelApply ch w => exact execChannelApply_moves rfl (Moves.refl _ _) ch w
  | gnssSpiDone rx => exact execGnssSpiDone_moves rfl (Moves.refl _ _) rx
  | measBankClaim bank => exact execMeasBankClaim_moves rfl (Moves.refl _ _) bank
  | gnssSolution rep residuals => exact execGnssSolution_moves rfl (Moves.refl _ _) rep residuals
  | distortionCheck inp => exact execDistortionCheck_moves rfl (Moves.refl _ _) inp
  | agcCheck => exact execAgcCheck_moves rfl (Moves.refl _ _)
  | guardWindowEnd => exact execGuardWindowEnd_moves rfl (Moves.refl _ _)
  | surveyComplete x y z unc => exact execSurveyComplete_moves rfl (Moves.refl _ _) x y z unc
  | snapshotEnter => exact execSnapshotEnter_moves rfl (Moves.refl _ _)
  | burstWindowOpen => exact execBurstWindowOpen_moves rfl (Moves.refl _ _)
  | burstWindowClose => exact execBurstWindowClose_moves rfl (Moves.refl _ _)
  | snapshotExit => exact execSnapshotExit_moves rfl (Moves.refl _ _)
  | frameReceive f => exact execFrameReceive_moves rfl (Moves.refl _ _) f
  | xoffRepeat p => exact execXoffRepeat_moves rfl (Moves.refl _ _) p
  | xonSend p => exact execXonSend_moves rfl (Moves.refl _ _) p
  | pauseTimerExpiry p => exact execPauseTimerExpiry_moves rfl (Moves.refl _ _) p
  | pauseWatchdogTrip p => exact execPauseWatchdogTrip_moves rfl (Moves.refl _ _) p
  | pcsLoss p => exact execPcsLoss_moves rfl (Moves.refl _ _) p
  | linkUp p => exact execLinkUp_moves rfl (Moves.refl _ _) p
  | serdesPllLoss p => exact execSerdesPllLoss_moves rfl (Moves.refl _ _) p
  | syncePhaseMeasure p phasePs cdrLock ppmOk => exact execSyncePhaseMeasure_moves rfl (Moves.refl _ _) p phasePs cdrLock ppmOk
  | esmcEventPdu p => exact execEsmcEventPdu_moves rfl (Moves.refl _ _) p
  | hostTxDescriptor p d => exact execHostTxDescriptor_moves rfl (Moves.refl _ _) p d
  | hostFrameSent p => exact execHostFrameSent_moves rfl (Moves.refl _ _) p
  | reservationRetry p => exact execReservationRetry_moves rfl (Moves.refl _ _) p
  | reservationDeadline p id => exact execReservationDeadline_moves rfl (Moves.refl _ _) p id
  | launchPoolDeadline p late => exact execLaunchPoolDeadline_moves rfl (Moves.refl _ _) p late
  | frameLaunch p => exact execFrameLaunch_moves rfl (Moves.refl _ _) p
  | tsqPop rd p => exact execTsqPop_moves rfl (Moves.refl _ _) rd p
  | tsqLostRead rd p => exact execTsqLostRead_moves rfl (Moves.refl _ _) rd p
  | waypCalDone p => exact execWaypCalDone_moves rfl (Moves.refl _ _) p
  | ntsCryptoDone id => exact execNtsCryptoDone_moves rfl (Moves.refl _ _) id
  | creditRateUpdate => exact execCreditRateUpdate_moves rfl (Moves.refl _ _)
  | tollgateScrubVisit b => exact execTollgateScrubVisit_moves rfl (Moves.refl _ _) b
  | cryptoSelfTest aesOk shaOk => exact execCryptoSelfTest_moves rfl (Moves.refl _ _) aesOk shaOk
  | grantVisit idx off => exact execGrantVisit_moves rfl (Moves.refl _ _) idx off
  | mcastVisit k p off => exact execMcastVisit_moves rfl (Moves.refl _ _) k p off
  | clientRenewal c cand kind => exact execClientRenewal_moves rfl (Moves.refl _ _) c cand kind
  | clientRequestRetry c cand => exact execClientRequestRetry_moves rfl (Moves.refl _ _) c cand
  | clientDelayReqSend c => exact execClientDelayReqSend_moves rfl (Moves.refl _ _) c
  | clientAnnounceTimeout c cand => exact execClientAnnounceTimeout_moves rfl (Moves.refl _ _) c cand
  | heartbeatSend off ck => exact execHeartbeatSend_moves rfl (Moves.refl _ _) off ck
  | heartbeatReceive f off ck => exact execHeartbeatReceive_moves rfl (Moves.refl _ _) f off ck
  | heartbeatMiss ck => exact execHeartbeatMiss_moves rfl (Moves.refl _ _) ck
  | fbLinkDown ck => exact execFbLinkDown_moves rfl (Moves.refl _ _) ck
  | fbOffer f ck => exact execFbOffer_moves rfl (Moves.refl _ _) f ck
  | fbAccept f ck => exact execFbAccept_moves rfl (Moves.refl _ _) f ck
  | fbAbort off => exact execFbAbort_moves rfl (Moves.refl _ _) off
  | acceptTimeout ck => exact execAcceptTimeout_moves rfl (Moves.refl _ _) ck
  | handoverInstant off ck => exact execHandoverInstant_moves rfl (Moves.refl _ _) off ck
  | plannedTake off ck => exact execPlannedTake_moves rfl (Moves.refl _ _) off ck
  | handoverRetake off ck => exact execHandoverRetake_moves rfl (Moves.refl _ _) off ck
  | leaseRelinquish off ck => exact execLeaseRelinquish_moves rfl (Moves.refl _ _) off ck
  | expiryTake ck => exact execExpiryTake_moves rfl (Moves.refl _ _) ck
  | relinquishTake ck => exact execRelinquishTake_moves rfl (Moves.refl _ _) ck
  | coldStartTake ck => exact execColdStartTake_moves rfl (Moves.refl _ _) ck
  | retakeTake ck => exact execRetakeTake_moves rfl (Moves.refl _ _) ck
  | deferredTake ck => exact execDeferredTake_moves rfl (Moves.refl _ _) ck
  | peerownChange high ck => exact execPeerownChange_moves rfl (Moves.refl _ _) high ck
  | addressAnnounceRound => exact execAddressAnnounceRound_moves rfl (Moves.refl _ _)
  | remaskVisit k flips => exact execRemaskVisit_moves rfl (Moves.refl _ _) k flips
  | rngReseed failed passed => exact execRngReseed_moves rfl (Moves.refl _ _) failed passed
  | ecdsaSelfTest ok => exact execEcdsaSelfTest_moves rfl (Moves.refl _ _) ok
  | keyStoreCommit ok => exact execKeyStoreCommit_moves rfl (Moves.refl _ _) ok
  | keyDrained k => exact execKeyDrained_moves rfl (Moves.refl _ _) k
  | keyCommandTimeout off => exact execKeyCommandTimeout_moves rfl (Moves.refl _ _) off
  | vaultReload => exact execVaultReload_moves rfl (Moves.refl _ _)
  | quiesceDrained off => exact execQuiesceDrained_moves rfl (Moves.refl _ _) off
  | requestPiWrite slot val => exact execRequestPiWrite_moves rfl (Moves.refl _ _) slot val
  | commandDispatch slot hdr => exact execCommandDispatch_moves rfl (Moves.refl _ _) slot hdr
  | completionCiWrite slot val => exact execCompletionCiWrite_moves rfl (Moves.refl _ _) slot val
  | mboxEnable slot val => exact execMboxEnable_moves rfl (Moves.refl _ _) slot val
  | sleepSet slot => exact execSleepSet_moves rfl (Moves.refl _ _) slot
  | sleepClear slot => exact execSleepClear_moves rfl (Moves.refl _ _) slot
  | moderationTimeout slot off => exact execModerationTimeout_moves rfl (Moves.refl _ _) slot off
  | hostSpiWrite addr data part => exact execHostSpiWrite_moves rfl (Moves.refl _ _) addr data part
  | hostSpiRead addr n late => exact execHostSpiRead_moves rfl (Moves.refl _ _) addr n late
  | hostSpiStatus => exact execHostSpiStatus_moves rfl (Moves.refl _ _)
  | smbusSetPointer p pec => exact execSmbusSetPointer_moves rfl (Moves.refl _ _) p pec
  | smbusBlockWrite data pec => exact execSmbusBlockWrite_moves rfl (Moves.refl _ _) data pec
  | smbusBlockRead pec => exact execSmbusBlockRead_moves rfl (Moves.refl _ _) pec
  | smbusAlertResponse => exact execSmbusAlertResponse_moves rfl (Moves.refl _ _)
  | registerWrite rd addr be val => exact execRegisterWrite_moves rfl (Moves.refl _ _) rd addr be val
  | aliasSetWrite rd addr val => exact execAliasSetWrite_moves rfl (Moves.refl _ _) rd addr val
  | aliasClrWrite rd addr val => exact execAliasClrWrite_moves rfl (Moves.refl _ _) rd addr val
  | aliasTglWrite rd addr val => exact execAliasTglWrite_moves rfl (Moves.refl _ _) rd addr val
  | lockSet rd blk => exact execLockSet_moves rfl (Moves.refl _ _) rd blk
  | stickyRead rd addr => exact execStickyRead_moves rfl (Moves.refl _ _) rd addr
  | reportRead rd addr => exact execReportRead_moves rfl (Moves.refl _ _) rd addr
  | reportAck rd blk val => exact execReportAck_moves rfl (Moves.refl _ _) rd blk val
  | multiwordFirstRead rd addr off => exact execMultiwordFirstRead_moves rfl (Moves.refl _ _) rd addr off
  | indDataRead rd => exact execIndDataRead_moves rfl (Moves.refl _ _) rd
  | indDataWrite rd val => exact execIndDataWrite_moves rfl (Moves.refl _ _) rd val
  | icuClaim rd => exact execIcuClaim_moves rfl (Moves.refl _ _) rd
  | icuComplete rd val => exact execIcuComplete_moves rfl (Moves.refl _ _) rd val
  | icuPendRaise rd k val => exact execIcuPendRaise_moves rfl (Moves.refl _ _) rd k val
  | icuPendWithdraw rd k val => exact execIcuPendWithdraw_moves rfl (Moves.refl _ _) rd k val
  | injectionEnd src ck => exact execInjectionEnd_moves rfl (Moves.refl _ _) src ck
  | injectionResample src ck => exact execInjectionResample_moves rfl (Moves.refl _ _) src ck
  | trailFlushPeriodic => exact execTrailFlushPeriodic_moves rfl (Moves.refl _ _)
  | trailFlushDone fail => exact execTrailFlushDone_moves rfl (Moves.refl _ _) fail
  | perfDump off => exact execPerfDump_moves rfl (Moves.refl _ _) off
  | perturbExpiry k off => exact execPerturbExpiry_moves rfl (Moves.refl _ _) k off
  | icpHello c majors => exact execIcpHello_moves rfl (Moves.refl _ _) c majors
  | icpModeGet c => exact execIcpModeGet_moves rfl (Moves.refl _ _) c
  | icpProvisionDone c => exact execIcpProvisionDone_moves rfl (Moves.refl _ _) c
  | icpQuiesce c force gate rsv => exact execIcpQuiesce_moves rfl (Moves.refl _ _) c force gate rsv
  | icpResume c => exact execIcpResume_moves rfl (Moves.refl _ _) c
  | icpPowerGate c mask on rsv => exact execIcpPowerGate_moves rfl (Moves.refl _ _) c mask on rsv
  | icpSysReset c confirm => exact execIcpSysReset_moves rfl (Moves.refl _ _) c confirm
  | icpModeConfig c phase dwell rsv => exact execIcpModeConfig_moves rfl (Moves.refl _ _) c phase dwell rsv
  | icpTimeGet c off => exact execIcpTimeGet_moves rfl (Moves.refl _ _) c off
  | icpLeapSet c a => exact execIcpLeapSet_moves rfl (Moves.refl _ _) c a
  | icpTimeStep c a => exact execIcpTimeStep_moves rfl (Moves.refl _ _) c a
  | icpStepPermit c window rsv => exact execIcpStepPermit_moves rfl (Moves.refl _ _) c window rsv
  | icpSlotConfig c a => exact execIcpSlotConfig_moves rfl (Moves.refl _ _) c a
  | icpSlotInfo c => exact execIcpSlotInfo_moves rfl (Moves.refl _ _) c
  | icpSlotList c => exact execIcpSlotList_moves rfl (Moves.refl _ _) c
  | icpRefConfig c a => exact execIcpRefConfig_moves rfl (Moves.refl _ _) c a
  | icpRefPpsInput c a => exact execIcpRefPpsInput_moves rfl (Moves.refl _ _) c a
  | icpRefThresh c a => exact execIcpRefThresh_moves rfl (Moves.refl _ _) c a
  | icpRefStatus c => exact execIcpRefStatus_moves rfl (Moves.refl _ _) c
  | icpRefClear c slot rsv => exact execIcpRefClear_moves rfl (Moves.refl _ _) c slot rsv
  | icpRefAsym c slot comp unc rsv => exact execIcpRefAsym_moves rfl (Moves.refl _ _) c slot comp unc rsv
  | icpSelConfig c a => exact execIcpSelConfig_moves rfl (Moves.refl _ _) c a
  | icpSwbConfig c slope acq => exact execIcpSwbConfig_moves rfl (Moves.refl _ _) c slope acq
  | icpLanternConfig c a => exact execIcpLanternConfig_moves rfl (Moves.refl _ _) c a
  | icpHoldConfig c a => exact execIcpHoldConfig_moves rfl (Moves.refl _ _) c a
  | icpHoldOscConfig c a => exact execIcpHoldOscConfig_moves rfl (Moves.refl _ _) c a
  | icpHoldStatus c => exact execIcpHoldStatus_moves rfl (Moves.refl _ _) c
  | icpHoldReset c main atom rsv => exact execIcpHoldReset_moves rfl (Moves.refl _ _) c main atom rsv
  | icpAtomUartConfig c a => exact execIcpAtomUartConfig_moves rfl (Moves.refl _ _) c a
  | icpPpsConfig c a => exact execIcpPpsConfig_moves rfl (Moves.refl _ _) c a
  | icpFreqConfig c a => exact execIcpFreqConfig_moves rfl (Moves.refl _ _) c a
  | icpTodConfig c a => exact execIcpTodConfig_moves rfl (Moves.refl _ _) c a
  | icpOutCalibrate c a => exact execIcpOutCalibrate_moves rfl (Moves.refl _ _) c a
  | icpMileArm c a => exact execIcpMileArm_moves rfl (Moves.refl _ _) c a
  | icpMileDisarm c pin rsv => exact execIcpMileDisarm_moves rfl (Moves.refl _ _) c pin rsv
  | icpMileCaptureConfig c a => exact execIcpMileCaptureConfig_moves rfl (Moves.refl _ _) c a
  | icpEpochConfig c rate enable rsv => exact execIcpEpochConfig_moves rfl (Moves.refl _ _) c rate enable rsv
  | icpOutStatus c => exact execIcpOutStatus_moves rfl (Moves.refl _ _) c
  | icpTdcConfig c a => exact execIcpTdcConfig_moves rfl (Moves.refl _ _) c a
  | icpTdcMeasure c ch rsv => exact execIcpTdcMeasure_moves rfl (Moves.refl _ _) c ch rsv
  | icpTdcTimebase c enable nom rsv => exact execIcpTdcTimebase_moves rfl (Moves.refl _ _) c enable nom rsv
  | icpTdcCalConfig c period rsv => exact execIcpTdcCalConfig_moves rfl (Moves.refl _ _) c period rsv
  | icpTdcSkew c ch skew rsv => exact execIcpTdcSkew_moves rfl (Moves.refl _ _) c ch skew rsv
  | icpTdcStatus c => exact execIcpTdcStatus_moves rfl (Moves.refl _ _) c
  | icpGnssFeConfig c a => exact execIcpGnssFeConfig_moves rfl (Moves.refl _ _) c a
  | icpGnssFeSpi c a => exact execIcpGnssFeSpi_moves rfl (Moves.refl _ _) c a
  | icpGnssSignals c sigs clusters rsv => exact execIcpGnssSignals_moves rfl (Moves.refl _ _) c sigs clusters rsv
  | icpGnssChanStatus c first count rsv => exact execIcpGnssChanStatus_moves rfl (Moves.refl _ _) c first count rsv
  | icpGnssMeasGet c => exact execIcpGnssMeasGet_moves rfl (Moves.refl _ _) c
  | icpGnssPosition c a => exact execIcpGnssPosition_moves rfl (Moves.refl _ _) c a
  | icpGnssSolStatus c => exact execIcpGnssSolStatus_moves rfl (Moves.refl _ _) c
  | icpGnssDelay c d0 d1 unc rsv => exact execIcpGnssDelay_moves rfl (Moves.refl _ _) c d0 d1 unc rsv
  | icpGnssIntegrityConfig c a => exact execIcpGnssIntegrityConfig_moves rfl (Moves.refl _ _) c a
  | icpGnssGuardConfig c a => exact execIcpGnssGuardConfig_moves rfl (Moves.refl _ _) c a
  | icpGnssGuardRelease c => exact execIcpGnssGuardRelease_moves rfl (Moves.refl _ _) c
  | icpGnssBurst c a => exact execIcpGnssBurst_moves rfl (Moves.refl _ _) c a
  | icpPortConfig c a => exact execIcpPortConfig_moves rfl (Moves.refl _ _) c a
  | icpPortStatus c port rsv => exact execIcpPortStatus_moves rfl (Moves.refl _ _) c port rsv
  | icpPortPauseConfig c a => exact execIcpPortPauseConfig_moves rfl (Moves.refl _ _) c a
  | icpPortEsmcConfig c a => exact execIcpPortEsmcConfig_moves rfl (Moves.refl _ _) c a
  | icpPortRingConfig c a => exact execIcpPortRingConfig_moves rfl (Moves.refl _ _) c a
  | icpWaypConfig c margin rsv => exact execIcpWaypConfig_moves rfl (Moves.refl _ _) c margin rsv
  | icpWaypTsqLimit c slot port limit rsv => exact execIcpWaypTsqLimit_moves rfl (Moves.refl _ _) c slot port limit rsv
  | icpWaypCalPulse c port n rsv => exact execIcpWaypCalPulse_moves rfl (Moves.refl _ _) c port n rsv
  | icpWaypLoopback c tx rx n rsv => exact execIcpWaypLoopback_moves rfl (Moves.refl _ _) c tx rx n rsv
  | icpWaypCalSet c a => exact execIcpWaypCalSet_moves rfl (Moves.refl _ _) c a
  | icpServAddrSet c a => exact execIcpServAddrSet_moves rfl (Moves.refl _ _) c a
  | icpServAddrDel c idx rsv => exact execIcpServAddrDel_moves rfl (Moves.refl _ _) c idx rsv
  | icpServAddrList c => exact execIcpServAddrList_moves rfl (Moves.refl _ _) c
  | icpServConfig c a => exact execIcpServConfig_moves rfl (Moves.refl _ _) c a
  | icpServSlotLimit c slot limit rsv => exact execIcpServSlotLimit_moves rfl (Moves.refl _ _) c slot limit rsv
  | icpServStatus c => exact execIcpServStatus_moves rfl (Moves.refl _ _) c
  | icpNtsMint c a => exact execIcpNtsMint_moves rfl (Moves.refl _ _) c a
  | icpPtpClockConfig c ident => exact execIcpPtpClockConfig_moves rfl (Moves.refl _ _) c ident
  | icpPtpInstanceSet c a => exact execIcpPtpInstanceSet_moves rfl (Moves.refl _ _) c a
  | icpPtpInstanceDel c idx rsv => exact execIcpPtpInstanceDel_moves rfl (Moves.refl _ _) c idx rsv
  | icpPtpQuota c slot grants rate rsv => exact execIcpPtpQuota_moves rfl (Moves.refl _ _) c slot grants rate rsv
  | icpPtpBudget c budget => exact execIcpPtpBudget_moves rfl (Moves.refl _ _) c budget
  | icpPtpStatus c => exact execIcpPtpStatus_moves rfl (Moves.refl _ _) c
  | icpPtpGrantRead c first count rsv => exact execIcpPtpGrantRead_moves rfl (Moves.refl _ _) c first count rsv
  | icpPtpGrantLoad c count recs rsv => exact execIcpPtpGrantLoad_moves rfl (Moves.refl _ _) c count recs rsv
  | icpPtpGrantCancel c inst rsv => exact execIcpPtpGrantCancel_moves rfl (Moves.refl _ _) c inst rsv
  | icpPtpClientConfig c a => exact execIcpPtpClientConfig_moves rfl (Moves.refl _ _) c a
  | icpFbConfig c a => exact execIcpFbConfig_moves rfl (Moves.refl _ _) c a
  | icpFbStatus c => exact execIcpFbStatus_moves rfl (Moves.refl _ _) c
  | icpFbHandover c lead rsv => exact execIcpFbHandover_moves rfl (Moves.refl _ _) c lead rsv
  | icpFbAsym c asym => exact execIcpFbAsym_moves rfl (Moves.refl _ _) c asym
  | icpFbTake c confirm => exact execIcpFbTake_moves rfl (Moves.refl _ _) c confirm
  | icpNtsKeyInstall c a => exact execIcpNtsKeyInstall_moves rfl (Moves.refl _ _) c a
  | icpNtsKeyRotate c num => exact execIcpNtsKeyRotate_moves rfl (Moves.refl _ _) c num
  | icpNtsKeyInvalidate c a => exact execIcpNtsKeyInvalidate_moves rfl (Moves.refl _ _) c a
  | icpNtsKeyList c => exact execIcpNtsKeyList_moves rfl (Moves.refl _ _) c
  | icpPtpKeyInstall c a => exact execIcpPtpKeyInstall_moves rfl (Moves.refl _ _) c a
  | icpPtpKeyRotate c spp keyId rsv => exact execIcpPtpKeyRotate_moves rfl (Moves.refl _ _) c spp keyId rsv
  | icpPtpKeyInvalidate c a => exact execIcpPtpKeyInvalidate_moves rfl (Moves.refl _ _) c a
  | icpPtpKeyList c => exact execIcpPtpKeyList_moves rfl (Moves.refl _ _) c
  | icpIdGet c => exact execIcpIdGet_moves rfl (Moves.refl _ _) c
  | icpAttest c nonce => exact execIcpAttest_moves rfl (Moves.refl _ _) c nonce
  | icpKeyEnroll c confirm => exact execIcpKeyEnroll_moves rfl (Moves.refl _ _) c confirm
  | icpIdCertSet c len cert rsv => exact execIcpIdCertSet_moves rfl (Moves.refl _ _) c len cert rsv
  | icpVaultConfig c period rsv => exact execIcpVaultConfig_moves rfl (Moves.refl _ _) c period rsv
  | icpVaultStatus c => exact execIcpVaultStatus_moves rfl (Moves.refl _ _) c
  | icpFwStatus c => exact execIcpFwStatus_moves rfl (Moves.refl _ _) c
  | icpFwBegin c bank rsv => exact execIcpFwBegin_moves rfl (Moves.refl _ _) c bank rsv
  | icpFwWrite c a => exact execIcpFwWrite_moves rfl (Moves.refl _ _) c a
  | icpFwFinish c activate rsv => exact execIcpFwFinish_moves rfl (Moves.refl _ _) c activate rsv
  | icpFwCommit c force rsv => exact execIcpFwCommit_moves rfl (Moves.refl _ _) c force rsv
  | icpFaultStatus c => exact execIcpFaultStatus_moves rfl (Moves.refl _ _) c
  | icpFaultConfig c source severity rsv => exact execIcpFaultConfig_moves rfl (Moves.refl _ _) c source severity rsv
  | icpFaultInject c a => exact execIcpFaultInject_moves rfl (Moves.refl _ _) c a
  | icpTrailRead c a => exact execIcpTrailRead_moves rfl (Moves.refl _ _) c a
  | icpTrailFlush c period rsv => exact execIcpTrailFlush_moves rfl (Moves.refl _ _) c period rsv
  | icpCairnConfig c period events flash rsv => exact execIcpCairnConfig_moves rfl (Moves.refl _ _) c period events flash rsv
  | icpCairnLast c => exact execIcpCairnLast_moves rfl (Moves.refl _ _) c
  | icpPerfRead c a => exact execIcpPerfRead_moves rfl (Moves.refl _ _) c a
  | icpPerfDumpConfig c a => exact execIcpPerfDumpConfig_moves rfl (Moves.refl _ _) c a
  | icpPerfAcl c op aud => exact execIcpPerfAcl_moves rfl (Moves.refl _ _) c op aud
  | icpPerturbArm c a => exact execIcpPerturbArm_moves rfl (Moves.refl _ _) c a
  | icpPerturbLive c val => exact execIcpPerturbLive_moves rfl (Moves.refl _ _) c val
  | commandedReset => exact execCommandedReset_moves rfl (Moves.refl _ _)
  | pcsUp p => exact execPcsUp_moves rfl (Moves.refl _ _) p
  | autonegRestart p => exact execAutonegRestart_moves rfl (Moves.refl _ _) p
  | serdesPllRelock p => exact execSerdesPllRelock_moves rfl (Moves.refl _ _) p
  | finePhaseTrackLost p => exact execFinePhaseTrackLost_moves rfl (Moves.refl _ _) p
  | finePhaseTrackRegained p => exact execFinePhaseTrackRegained_moves rfl (Moves.refl _ _) p
  | pcieConfigWrite pf busMaster d0 pmeEn l2 => exact execPcieConfigWrite_moves rfl (Moves.refl _ _) pf busMaster d0 pmeEn l2
  | perstNRelease => exact execPerstNRelease_moves rfl (Moves.refl _ _)
end Sys2Proof.Laws
end

