-- ==== Sys2Proof/Laws/Icp.lean ====
section
/-!
SUPPORT. What the shared frame of the ICP commands does, said once: a command turned away at the gate, a command that fails a
check, a command that completes.
-/
namespace Sys2Proof.Laws
open Sys2Proof Sys2Proof.Machine

/-- While Ridgepole is unlocked the mailbox engine is held in reset: nothing happens (01 R19). -/
theorem icp_unlocked {c : CmdRef} {op : Nat} {body : State → IcpRes} {s : State} (h : s.aon.locked = false) :
    icp c op body s = .next s := by simp [icp, h]

/-- A command turned away at the gate answers that status (16 R358, 18 R405). -/
theorem icp_turned {c : CmdRef} {op st : Nat} {d : Bool} {body : State → IcpRes} {s : State} (hl : s.aon.locked = true) (h : gate c op s = some (st, d)) :
    icp c op body s = .next (icpFail c op st d s) := by simp [icp, hl, h]

/-- A command that succeeds and whose answer fits completes (18 R402, R408). -/
theorem icp_ok {c : CmdRef} {op : Nat} {pl : List Byte} {body : State → IcpRes} {s t : State} (h : s.aon.locked = true ∧ gate c op s = none)
    (hb : body s = .done stOk pl t) (hr : fitsRing s c.slot pl.length = true) :
    icp c op body s = .next (complete c op stOk pl t) := by
  simp [icp, h.1, h.2, hb, hr, stOk, stDenied]

/-- A command that waits for something answers nothing yet. -/
theorem icp_later {c : CmdRef} {op : Nat} {body : State → IcpRes} {s t : State} (h : s.aon.locked = true ∧ gate c op s = none) (hb : body s = .later t) :
    icp c op body s = .next t := by simp [icp, h.1, h.2, hb]

/-- No check fails. -/
theorem firstFail_ok {l : List (Bool × Nat)} (h : ∀ x ∈ l, x.1 = false) : firstFail l = stOk := by
  have : l.find? (·.1) = none := List.find?_eq_none.mpr fun x hx => by simp [h x hx]
  simp [firstFail, this]

/-- A command all of whose checks pass has its effect and completes. -/
theorem icpDo_ok {c : CmdRef} {op : Nat} {chk : State → List (Bool × Nat)} {eff : State → State} {resp : State → List Byte} {s : State}
    (h : s.aon.locked = true ∧ gate c op s = none) (hc : firstFail (chk s) = stOk) (hr : fitsRing s c.slot (resp (eff s)).length = true) :
    icpDo c op chk eff resp s = .next (complete c op stOk (resp (eff s)) (eff s)) :=
  icp_ok h (by simp [hc]) hr

/-- The same with the effect and the answer named. -/
theorem icpDo_is {c : CmdRef} {op : Nat} {chk : State → List (Bool × Nat)} {eff : State → State} {resp : State → List Byte} {s t : State}
    {p : List Byte} (h : s.aon.locked = true ∧ gate c op s = none) (hc : firstFail (chk s) = stOk) (hr : fitsRing s c.slot p.length = true) (ht : eff s = t)
    (hp : resp t = p) : icpDo c op chk eff resp s = .next (complete c op stOk p t) := by
  subst ht; subst hp; exact icpDo_ok h hc hr

/-- A command that only reads leaves nothing but its answer. -/
theorem icpGet_ok {c : CmdRef} {op : Nat} {resp : State → List Byte} {s : State} (h : s.aon.locked = true ∧ gate c op s = none)
    (hr : fitsRing s c.slot (resp s).length = true) : icpGet c op resp s = .next (complete c op stOk (resp s) s) :=
  icp_ok h rfl hr

/-- A number within its range is not outside it. -/
theorem outside_false {v lo hi : Nat} (h1 : lo ≤ v) (h2 : v ≤ hi) : outside v lo hi = false := by simp [outside]; omega

/-- A number outside its range is. -/
theorem outside_true {v lo hi : Nat} (h : v < lo ∨ hi < v) : outside v lo hi = true := by simp [outside]; omega

/-- Bytes of a number. -/
@[simp] theorem le_length (n v : Nat) : (le n v).length = n := by simp [le]

@[simp] theorem leI_length (n : Nat) (v : Int) : (leI n v).length = n := le_length _ _

@[simp] theorem be_length (n v : Nat) : (be n v).length = n := by simp [be]

/-- Words of registers. -/
@[simp] theorem viewBytes_length (ro : State → Nat → Nat → Word) (s : State) (i : Fin 8) (l : List Nat) :
    (viewBytes ro s i l).length = 4 * l.length := by
  induction l with
  | nil => rfl
  | cons a l ih => simp [viewBytes] at ih ⊢; omega

@[simp] theorem regRun_length (b n : Nat) : (regRun b n).length = n := by simp [regRun]

/-- Bytes of zeros. -/
@[simp] theorem zeros_length (n : Nat) : (zeros n).length = n := by simp [zeros]

end Sys2Proof.Laws
end

