-- ==== Sys2Proof/Laws/State.lean ====
section
/-!
SUPPORT. The fields an update leaves: one lemma for each shared operation and each component of State it does not touch, so
that no later proof unfolds an update.
-/
namespace Sys2Proof.Laws
open Sys2Proof Sys2Proof.Machine

@[simp] theorem trail_pending (x0 : _) (x1 : _) (s : State) : (trail x0 x1 s).pending = s.pending :=
  (trail_moves (m := 1310720) rfl (Moves.refl _ s) x0 x1).pending
@[simp] theorem trail_aon (x0 : _) (x1 : _) (s : State) : (trail x0 x1 s).aon = s.aon :=
  (trail_moves (m := 1310720) rfl (Moves.refl _ s) x0 x1).aon rfl
@[simp] theorem trail_time (x0 : _) (x1 : _) (s : State) : (trail x0 x1 s).time = s.time :=
  (trail_moves (m := 1310720) rfl (Moves.refl _ s) x0 x1).time rfl
@[simp] theorem trail_cairn (x0 : _) (x1 : _) (s : State) : (trail x0 x1 s).cairn = s.cairn :=
  (trail_moves (m := 1310720) rfl (Moves.refl _ s) x0 x1).cairn rfl
@[simp] theorem trail_sign (x0 : _) (x1 : _) (s : State) : (trail x0 x1 s).sign = s.sign :=
  (trail_moves (m := 1310720) rfl (Moves.refl _ s) x0 x1).sign rfl
@[simp] theorem trail_guy (x0 : _) (x1 : _) (s : State) : (trail x0 x1 s).guy = s.guy :=
  (trail_moves (m := 1310720) rfl (Moves.refl _ s) x0 x1).guy rfl
@[simp] theorem trail_mile (x0 : _) (x1 : _) (s : State) : (trail x0 x1 s).mile = s.mile :=
  (trail_moves (m := 1310720) rfl (Moves.refl _ s) x0 x1).mile rfl
@[simp] theorem trail_tdc (x0 : _) (x1 : _) (s : State) : (trail x0 x1 s).tdc = s.tdc :=
  (trail_moves (m := 1310720) rfl (Moves.refl _ s) x0 x1).tdc rfl
@[simp] theorem trail_gnss (x0 : _) (x1 : _) (s : State) : (trail x0 x1 s).gnss = s.gnss :=
  (trail_moves (m := 1310720) rfl (Moves.refl _ s) x0 x1).gnss rfl
@[simp] theorem trail_port (x0 : _) (x1 : _) (s : State) : (trail x0 x1 s).port = s.port :=
  (trail_moves (m := 1310720) rfl (Moves.refl _ s) x0 x1).port rfl
@[simp] theorem trail_wayp (x0 : _) (x1 : _) (s : State) : (trail x0 x1 s).wayp = s.wayp :=
  (trail_moves (m := 1310720) rfl (Moves.refl _ s) x0 x1).wayp rfl
@[simp] theorem trail_serv (x0 : _) (x1 : _) (s : State) : (trail x0 x1 s).serv = s.serv :=
  (trail_moves (m := 1310720) rfl (Moves.refl _ s) x0 x1).serv rfl
@[simp] theorem trail_ptp (x0 : _) (x1 : _) (s : State) : (trail x0 x1 s).ptp = s.ptp :=
  (trail_moves (m := 1310720) rfl (Moves.refl _ s) x0 x1).ptp rfl
@[simp] theorem trail_foot (x0 : _) (x1 : _) (s : State) : (trail x0 x1 s).foot = s.foot :=
  (trail_moves (m := 1310720) rfl (Moves.refl _ s) x0 x1).foot rfl
@[simp] theorem trail_vault (x0 : _) (x1 : _) (s : State) : (trail x0 x1 s).vault = s.vault :=
  (trail_moves (m := 1310720) rfl (Moves.refl _ s) x0 x1).vault rfl
@[simp] theorem trail_flash (x0 : _) (x1 : _) (s : State) : (trail x0 x1 s).flash = s.flash :=
  (trail_moves (m := 1310720) rfl (Moves.refl _ s) x0 x1).flash rfl
@[simp] theorem trail_host (x0 : _) (x1 : _) (s : State) : (trail x0 x1 s).host = s.host :=
  (trail_moves (m := 1310720) rfl (Moves.refl _ s) x0 x1).host rfl
@[simp] theorem trail_slots (x0 : _) (x1 : _) (s : State) : (trail x0 x1 s).slots = s.slots :=
  (trail_moves (m := 1310720) rfl (Moves.refl _ s) x0 x1).slots rfl
@[simp] theorem trail_icu (x0 : _) (x1 : _) (s : State) : (trail x0 x1 s).icu = s.icu :=
  (trail_moves (m := 1310720) rfl (Moves.refl _ s) x0 x1).icu rfl
@[simp] theorem trail_fault (x0 : _) (x1 : _) (s : State) : (trail x0 x1 s).fault = s.fault :=
  (trail_moves (m := 1310720) rfl (Moves.refl _ s) x0 x1).fault rfl
@[simp] theorem trail_perf (x0 : _) (x1 : _) (s : State) : (trail x0 x1 s).perf = s.perf :=
  (trail_moves (m := 1310720) rfl (Moves.refl _ s) x0 x1).perf rfl
@[simp] theorem trail_pert (x0 : _) (x1 : _) (s : State) : (trail x0 x1 s).pert = s.pert :=
  (trail_moves (m := 1310720) rfl (Moves.refl _ s) x0 x1).pert rfl
@[simp] theorem trail_sys (x0 : _) (x1 : _) (s : State) : (trail x0 x1 s).sys = s.sys :=
  (trail_moves (m := 1310720) rfl (Moves.refl _ s) x0 x1).sys rfl

@[simp] theorem sticky_pending (x0 : _) (x1 : _) (s : State) : (sticky x0 x1 s).pending = s.pending :=
  (sticky_moves (m := 262144) rfl (Moves.refl _ s) x0 x1).pending
@[simp] theorem sticky_aon (x0 : _) (x1 : _) (s : State) : (sticky x0 x1 s).aon = s.aon :=
  (sticky_moves (m := 262144) rfl (Moves.refl _ s) x0 x1).aon rfl
@[simp] theorem sticky_time (x0 : _) (x1 : _) (s : State) : (sticky x0 x1 s).time = s.time :=
  (sticky_moves (m := 262144) rfl (Moves.refl _ s) x0 x1).time rfl
@[simp] theorem sticky_cairn (x0 : _) (x1 : _) (s : State) : (sticky x0 x1 s).cairn = s.cairn :=
  (sticky_moves (m := 262144) rfl (Moves.refl _ s) x0 x1).cairn rfl
@[simp] theorem sticky_sign (x0 : _) (x1 : _) (s : State) : (sticky x0 x1 s).sign = s.sign :=
  (sticky_moves (m := 262144) rfl (Moves.refl _ s) x0 x1).sign rfl
@[simp] theorem sticky_guy (x0 : _) (x1 : _) (s : State) : (sticky x0 x1 s).guy = s.guy :=
  (sticky_moves (m := 262144) rfl (Moves.refl _ s) x0 x1).guy rfl
@[simp] theorem sticky_mile (x0 : _) (x1 : _) (s : State) : (sticky x0 x1 s).mile = s.mile :=
  (sticky_moves (m := 262144) rfl (Moves.refl _ s) x0 x1).mile rfl
@[simp] theorem sticky_tdc (x0 : _) (x1 : _) (s : State) : (sticky x0 x1 s).tdc = s.tdc :=
  (sticky_moves (m := 262144) rfl (Moves.refl _ s) x0 x1).tdc rfl
@[simp] theorem sticky_gnss (x0 : _) (x1 : _) (s : State) : (sticky x0 x1 s).gnss = s.gnss :=
  (sticky_moves (m := 262144) rfl (Moves.refl _ s) x0 x1).gnss rfl
@[simp] theorem sticky_port (x0 : _) (x1 : _) (s : State) : (sticky x0 x1 s).port = s.port :=
  (sticky_moves (m := 262144) rfl (Moves.refl _ s) x0 x1).port rfl
@[simp] theorem sticky_wayp (x0 : _) (x1 : _) (s : State) : (sticky x0 x1 s).wayp = s.wayp :=
  (sticky_moves (m := 262144) rfl (Moves.refl _ s) x0 x1).wayp rfl
@[simp] theorem sticky_serv (x0 : _) (x1 : _) (s : State) : (sticky x0 x1 s).serv = s.serv :=
  (sticky_moves (m := 262144) rfl (Moves.refl _ s) x0 x1).serv rfl
@[simp] theorem sticky_ptp (x0 : _) (x1 : _) (s : State) : (sticky x0 x1 s).ptp = s.ptp :=
  (sticky_moves (m := 262144) rfl (Moves.refl _ s) x0 x1).ptp rfl
@[simp] theorem sticky_foot (x0 : _) (x1 : _) (s : State) : (sticky x0 x1 s).foot = s.foot :=
  (sticky_moves (m := 262144) rfl (Moves.refl _ s) x0 x1).foot rfl
@[simp] theorem sticky_vault (x0 : _) (x1 : _) (s : State) : (sticky x0 x1 s).vault = s.vault :=
  (sticky_moves (m := 262144) rfl (Moves.refl _ s) x0 x1).vault rfl
@[simp] theorem sticky_flash (x0 : _) (x1 : _) (s : State) : (sticky x0 x1 s).flash = s.flash :=
  (sticky_moves (m := 262144) rfl (Moves.refl _ s) x0 x1).flash rfl
@[simp] theorem sticky_host (x0 : _) (x1 : _) (s : State) : (sticky x0 x1 s).host = s.host :=
  (sticky_moves (m := 262144) rfl (Moves.refl _ s) x0 x1).host rfl
@[simp] theorem sticky_slots (x0 : _) (x1 : _) (s : State) : (sticky x0 x1 s).slots = s.slots :=
  (sticky_moves (m := 262144) rfl (Moves.refl _ s) x0 x1).slots rfl
@[simp] theorem sticky_icu (x0 : _) (x1 : _) (s : State) : (sticky x0 x1 s).icu = s.icu :=
  (sticky_moves (m := 262144) rfl (Moves.refl _ s) x0 x1).icu rfl
@[simp] theorem sticky_trail (x0 : _) (x1 : _) (s : State) : (sticky x0 x1 s).trail = s.trail :=
  (sticky_moves (m := 262144) rfl (Moves.refl _ s) x0 x1).trail rfl
@[simp] theorem sticky_fault (x0 : _) (x1 : _) (s : State) : (sticky x0 x1 s).fault = s.fault :=
  (sticky_moves (m := 262144) rfl (Moves.refl _ s) x0 x1).fault rfl
@[simp] theorem sticky_perf (x0 : _) (x1 : _) (s : State) : (sticky x0 x1 s).perf = s.perf :=
  (sticky_moves (m := 262144) rfl (Moves.refl _ s) x0 x1).perf rfl
@[simp] theorem sticky_pert (x0 : _) (x1 : _) (s : State) : (sticky x0 x1 s).pert = s.pert :=
  (sticky_moves (m := 262144) rfl (Moves.refl _ s) x0 x1).pert rfl
@[simp] theorem sticky_sys (x0 : _) (x1 : _) (s : State) : (sticky x0 x1 s).sys = s.sys :=
  (sticky_moves (m := 262144) rfl (Moves.refl _ s) x0 x1).sys rfl

@[simp] theorem stickyFirst_pending (x0 : _) (x1 : _) (x2 : _) (x3 : _) (s : State) : (stickyFirst x0 x1 x2 x3 s).pending = s.pending :=
  (stickyFirst_moves (m := 262144) rfl (Moves.refl _ s) x0 x1 x2 x3).pending
@[simp] theorem stickyFirst_aon (x0 : _) (x1 : _) (x2 : _) (x3 : _) (s : State) : (stickyFirst x0 x1 x2 x3 s).aon = s.aon :=
  (stickyFirst_moves (m := 262144) rfl (Moves.refl _ s) x0 x1 x2 x3).aon rfl
@[simp] theorem stickyFirst_time (x0 : _) (x1 : _) (x2 : _) (x3 : _) (s : State) : (stickyFirst x0 x1 x2 x3 s).time = s.time :=
  (stickyFirst_moves (m := 262144) rfl (Moves.refl _ s) x0 x1 x2 x3).time rfl
@[simp] theorem stickyFirst_cairn (x0 : _) (x1 : _) (x2 : _) (x3 : _) (s : State) : (stickyFirst x0 x1 x2 x3 s).cairn = s.cairn :=
  (stickyFirst_moves (m := 262144) rfl (Moves.refl _ s) x0 x1 x2 x3).cairn rfl
@[simp] theorem stickyFirst_sign (x0 : _) (x1 : _) (x2 : _) (x3 : _) (s : State) : (stickyFirst x0 x1 x2 x3 s).sign = s.sign :=
  (stickyFirst_moves (m := 262144) rfl (Moves.refl _ s) x0 x1 x2 x3).sign rfl
@[simp] theorem stickyFirst_guy (x0 : _) (x1 : _) (x2 : _) (x3 : _) (s : State) : (stickyFirst x0 x1 x2 x3 s).guy = s.guy :=
  (stickyFirst_moves (m := 262144) rfl (Moves.refl _ s) x0 x1 x2 x3).guy rfl
@[simp] theorem stickyFirst_mile (x0 : _) (x1 : _) (x2 : _) (x3 : _) (s : State) : (stickyFirst x0 x1 x2 x3 s).mile = s.mile :=
  (stickyFirst_moves (m := 262144) rfl (Moves.refl _ s) x0 x1 x2 x3).mile rfl
@[simp] theorem stickyFirst_tdc (x0 : _) (x1 : _) (x2 : _) (x3 : _) (s : State) : (stickyFirst x0 x1 x2 x3 s).tdc = s.tdc :=
  (stickyFirst_moves (m := 262144) rfl (Moves.refl _ s) x0 x1 x2 x3).tdc rfl
@[simp] theorem stickyFirst_gnss (x0 : _) (x1 : _) (x2 : _) (x3 : _) (s : State) : (stickyFirst x0 x1 x2 x3 s).gnss = s.gnss :=
  (stickyFirst_moves (m := 262144) rfl (Moves.refl _ s) x0 x1 x2 x3).gnss rfl
@[simp] theorem stickyFirst_port (x0 : _) (x1 : _) (x2 : _) (x3 : _) (s : State) : (stickyFirst x0 x1 x2 x3 s).port = s.port :=
  (stickyFirst_moves (m := 262144) rfl (Moves.refl _ s) x0 x1 x2 x3).port rfl
@[simp] theorem stickyFirst_wayp (x0 : _) (x1 : _) (x2 : _) (x3 : _) (s : State) : (stickyFirst x0 x1 x2 x3 s).wayp = s.wayp :=
  (stickyFirst_moves (m := 262144) rfl (Moves.refl _ s) x0 x1 x2 x3).wayp rfl
@[simp] theorem stickyFirst_serv (x0 : _) (x1 : _) (x2 : _) (x3 : _) (s : State) : (stickyFirst x0 x1 x2 x3 s).serv = s.serv :=
  (stickyFirst_moves (m := 262144) rfl (Moves.refl _ s) x0 x1 x2 x3).serv rfl
@[simp] theorem stickyFirst_ptp (x0 : _) (x1 : _) (x2 : _) (x3 : _) (s : State) : (stickyFirst x0 x1 x2 x3 s).ptp = s.ptp :=
  (stickyFirst_moves (m := 262144) rfl (Moves.refl _ s) x0 x1 x2 x3).ptp rfl
@[simp] theorem stickyFirst_foot (x0 : _) (x1 : _) (x2 : _) (x3 : _) (s : State) : (stickyFirst x0 x1 x2 x3 s).foot = s.foot :=
  (stickyFirst_moves (m := 262144) rfl (Moves.refl _ s) x0 x1 x2 x3).foot rfl
@[simp] theorem stickyFirst_vault (x0 : _) (x1 : _) (x2 : _) (x3 : _) (s : State) : (stickyFirst x0 x1 x2 x3 s).vault = s.vault :=
  (stickyFirst_moves (m := 262144) rfl (Moves.refl _ s) x0 x1 x2 x3).vault rfl
@[simp] theorem stickyFirst_flash (x0 : _) (x1 : _) (x2 : _) (x3 : _) (s : State) : (stickyFirst x0 x1 x2 x3 s).flash = s.flash :=
  (stickyFirst_moves (m := 262144) rfl (Moves.refl _ s) x0 x1 x2 x3).flash rfl
@[simp] theorem stickyFirst_host (x0 : _) (x1 : _) (x2 : _) (x3 : _) (s : State) : (stickyFirst x0 x1 x2 x3 s).host = s.host :=
  (stickyFirst_moves (m := 262144) rfl (Moves.refl _ s) x0 x1 x2 x3).host rfl
@[simp] theorem stickyFirst_slots (x0 : _) (x1 : _) (x2 : _) (x3 : _) (s : State) : (stickyFirst x0 x1 x2 x3 s).slots = s.slots :=
  (stickyFirst_moves (m := 262144) rfl (Moves.refl _ s) x0 x1 x2 x3).slots rfl
@[simp] theorem stickyFirst_icu (x0 : _) (x1 : _) (x2 : _) (x3 : _) (s : State) : (stickyFirst x0 x1 x2 x3 s).icu = s.icu :=
  (stickyFirst_moves (m := 262144) rfl (Moves.refl _ s) x0 x1 x2 x3).icu rfl
@[simp] theorem stickyFirst_trail (x0 : _) (x1 : _) (x2 : _) (x3 : _) (s : State) : (stickyFirst x0 x1 x2 x3 s).trail = s.trail :=
  (stickyFirst_moves (m := 262144) rfl (Moves.refl _ s) x0 x1 x2 x3).trail rfl
@[simp] theorem stickyFirst_fault (x0 : _) (x1 : _) (x2 : _) (x3 : _) (s : State) : (stickyFirst x0 x1 x2 x3 s).fault = s.fault :=
  (stickyFirst_moves (m := 262144) rfl (Moves.refl _ s) x0 x1 x2 x3).fault rfl
@[simp] theorem stickyFirst_perf (x0 : _) (x1 : _) (x2 : _) (x3 : _) (s : State) : (stickyFirst x0 x1 x2 x3 s).perf = s.perf :=
  (stickyFirst_moves (m := 262144) rfl (Moves.refl _ s) x0 x1 x2 x3).perf rfl
@[simp] theorem stickyFirst_pert (x0 : _) (x1 : _) (x2 : _) (x3 : _) (s : State) : (stickyFirst x0 x1 x2 x3 s).pert = s.pert :=
  (stickyFirst_moves (m := 262144) rfl (Moves.refl _ s) x0 x1 x2 x3).pert rfl
@[simp] theorem stickyFirst_sys (x0 : _) (x1 : _) (x2 : _) (x3 : _) (s : State) : (stickyFirst x0 x1 x2 x3 s).sys = s.sys :=
  (stickyFirst_moves (m := 262144) rfl (Moves.refl _ s) x0 x1 x2 x3).sys rfl

@[simp] theorem stickyCount_pending (x0 : _) (x1 : _) (x2 : _) (x3 : _) (s : State) : (stickyCount x0 x1 x2 x3 s).pending = s.pending :=
  (stickyCount_moves (m := 262144) rfl (Moves.refl _ s) x0 x1 x2 x3).pending
@[simp] theorem stickyCount_aon (x0 : _) (x1 : _) (x2 : _) (x3 : _) (s : State) : (stickyCount x0 x1 x2 x3 s).aon = s.aon :=
  (stickyCount_moves (m := 262144) rfl (Moves.refl _ s) x0 x1 x2 x3).aon rfl
@[simp] theorem stickyCount_time (x0 : _) (x1 : _) (x2 : _) (x3 : _) (s : State) : (stickyCount x0 x1 x2 x3 s).time = s.time :=
  (stickyCount_moves (m := 262144) rfl (Moves.refl _ s) x0 x1 x2 x3).time rfl
@[simp] theorem stickyCount_cairn (x0 : _) (x1 : _) (x2 : _) (x3 : _) (s : State) : (stickyCount x0 x1 x2 x3 s).cairn = s.cairn :=
  (stickyCount_moves (m := 262144) rfl (Moves.refl _ s) x0 x1 x2 x3).cairn rfl
@[simp] theorem stickyCount_sign (x0 : _) (x1 : _) (x2 : _) (x3 : _) (s : State) : (stickyCount x0 x1 x2 x3 s).sign = s.sign :=
  (stickyCount_moves (m := 262144) rfl (Moves.refl _ s) x0 x1 x2 x3).sign rfl
@[simp] theorem stickyCount_guy (x0 : _) (x1 : _) (x2 : _) (x3 : _) (s : State) : (stickyCount x0 x1 x2 x3 s).guy = s.guy :=
  (stickyCount_moves (m := 262144) rfl (Moves.refl _ s) x0 x1 x2 x3).guy rfl
@[simp] theorem stickyCount_mile (x0 : _) (x1 : _) (x2 : _) (x3 : _) (s : State) : (stickyCount x0 x1 x2 x3 s).mile = s.mile :=
  (stickyCount_moves (m := 262144) rfl (Moves.refl _ s) x0 x1 x2 x3).mile rfl
@[simp] theorem stickyCount_tdc (x0 : _) (x1 : _) (x2 : _) (x3 : _) (s : State) : (stickyCount x0 x1 x2 x3 s).tdc = s.tdc :=
  (stickyCount_moves (m := 262144) rfl (Moves.refl _ s) x0 x1 x2 x3).tdc rfl
@[simp] theorem stickyCount_gnss (x0 : _) (x1 : _) (x2 : _) (x3 : _) (s : State) : (stickyCount x0 x1 x2 x3 s).gnss = s.gnss :=
  (stickyCount_moves (m := 262144) rfl (Moves.refl _ s) x0 x1 x2 x3).gnss rfl
@[simp] theorem stickyCount_port (x0 : _) (x1 : _) (x2 : _) (x3 : _) (s : State) : (stickyCount x0 x1 x2 x3 s).port = s.port :=
  (stickyCount_moves (m := 262144) rfl (Moves.refl _ s) x0 x1 x2 x3).port rfl
@[simp] theorem stickyCount_wayp (x0 : _) (x1 : _) (x2 : _) (x3 : _) (s : State) : (stickyCount x0 x1 x2 x3 s).wayp = s.wayp :=
  (stickyCount_moves (m := 262144) rfl (Moves.refl _ s) x0 x1 x2 x3).wayp rfl
@[simp] theorem stickyCount_serv (x0 : _) (x1 : _) (x2 : _) (x3 : _) (s : State) : (stickyCount x0 x1 x2 x3 s).serv = s.serv :=
  (stickyCount_moves (m := 262144) rfl (Moves.refl _ s) x0 x1 x2 x3).serv rfl
@[simp] theorem stickyCount_ptp (x0 : _) (x1 : _) (x2 : _) (x3 : _) (s : State) : (stickyCount x0 x1 x2 x3 s).ptp = s.ptp :=
  (stickyCount_moves (m := 262144) rfl (Moves.refl _ s) x0 x1 x2 x3).ptp rfl
@[simp] theorem stickyCount_foot (x0 : _) (x1 : _) (x2 : _) (x3 : _) (s : State) : (stickyCount x0 x1 x2 x3 s).foot = s.foot :=
  (stickyCount_moves (m := 262144) rfl (Moves.refl _ s) x0 x1 x2 x3).foot rfl
@[simp] theorem stickyCount_vault (x0 : _) (x1 : _) (x2 : _) (x3 : _) (s : State) : (stickyCount x0 x1 x2 x3 s).vault = s.vault :=
  (stickyCount_moves (m := 262144) rfl (Moves.refl _ s) x0 x1 x2 x3).vault rfl
@[simp] theorem stickyCount_flash (x0 : _) (x1 : _) (x2 : _) (x3 : _) (s : State) : (stickyCount x0 x1 x2 x3 s).flash = s.flash :=
  (stickyCount_moves (m := 262144) rfl (Moves.refl _ s) x0 x1 x2 x3).flash rfl
@[simp] theorem stickyCount_host (x0 : _) (x1 : _) (x2 : _) (x3 : _) (s : State) : (stickyCount x0 x1 x2 x3 s).host = s.host :=
  (stickyCount_moves (m := 262144) rfl (Moves.refl _ s) x0 x1 x2 x3).host rfl
@[simp] theorem stickyCount_slots (x0 : _) (x1 : _) (x2 : _) (x3 : _) (s : State) : (stickyCount x0 x1 x2 x3 s).slots = s.slots :=
  (stickyCount_moves (m := 262144) rfl (Moves.refl _ s) x0 x1 x2 x3).slots rfl
@[simp] theorem stickyCount_icu (x0 : _) (x1 : _) (x2 : _) (x3 : _) (s : State) : (stickyCount x0 x1 x2 x3 s).icu = s.icu :=
  (stickyCount_moves (m := 262144) rfl (Moves.refl _ s) x0 x1 x2 x3).icu rfl
@[simp] theorem stickyCount_trail (x0 : _) (x1 : _) (x2 : _) (x3 : _) (s : State) : (stickyCount x0 x1 x2 x3 s).trail = s.trail :=
  (stickyCount_moves (m := 262144) rfl (Moves.refl _ s) x0 x1 x2 x3).trail rfl
@[simp] theorem stickyCount_fault (x0 : _) (x1 : _) (x2 : _) (x3 : _) (s : State) : (stickyCount x0 x1 x2 x3 s).fault = s.fault :=
  (stickyCount_moves (m := 262144) rfl (Moves.refl _ s) x0 x1 x2 x3).fault rfl
@[simp] theorem stickyCount_perf (x0 : _) (x1 : _) (x2 : _) (x3 : _) (s : State) : (stickyCount x0 x1 x2 x3 s).perf = s.perf :=
  (stickyCount_moves (m := 262144) rfl (Moves.refl _ s) x0 x1 x2 x3).perf rfl
@[simp] theorem stickyCount_pert (x0 : _) (x1 : _) (x2 : _) (x3 : _) (s : State) : (stickyCount x0 x1 x2 x3 s).pert = s.pert :=
  (stickyCount_moves (m := 262144) rfl (Moves.refl _ s) x0 x1 x2 x3).pert rfl
@[simp] theorem stickyCount_sys (x0 : _) (x1 : _) (x2 : _) (x3 : _) (s : State) : (stickyCount x0 x1 x2 x3 s).sys = s.sys :=
  (stickyCount_moves (m := 262144) rfl (Moves.refl _ s) x0 x1 x2 x3).sys rfl

@[simp] theorem icuEval_pending  (s : State) : (icuEval s).pending = s.pending :=
  (icuEval_moves (m := 589824) rfl (Moves.refl _ s) ).pending
@[simp] theorem icuEval_aon  (s : State) : (icuEval s).aon = s.aon :=
  (icuEval_moves (m := 589824) rfl (Moves.refl _ s) ).aon rfl
@[simp] theorem icuEval_time  (s : State) : (icuEval s).time = s.time :=
  (icuEval_moves (m := 589824) rfl (Moves.refl _ s) ).time rfl
@[simp] theorem icuEval_cairn  (s : State) : (icuEval s).cairn = s.cairn :=
  (icuEval_moves (m := 589824) rfl (Moves.refl _ s) ).cairn rfl
@[simp] theorem icuEval_sign  (s : State) : (icuEval s).sign = s.sign :=
  (icuEval_moves (m := 589824) rfl (Moves.refl _ s) ).sign rfl
@[simp] theorem icuEval_guy  (s : State) : (icuEval s).guy = s.guy :=
  (icuEval_moves (m := 589824) rfl (Moves.refl _ s) ).guy rfl
@[simp] theorem icuEval_mile  (s : State) : (icuEval s).mile = s.mile :=
  (icuEval_moves (m := 589824) rfl (Moves.refl _ s) ).mile rfl
@[simp] theorem icuEval_tdc  (s : State) : (icuEval s).tdc = s.tdc :=
  (icuEval_moves (m := 589824) rfl (Moves.refl _ s) ).tdc rfl
@[simp] theorem icuEval_gnss  (s : State) : (icuEval s).gnss = s.gnss :=
  (icuEval_moves (m := 589824) rfl (Moves.refl _ s) ).gnss rfl
@[simp] theorem icuEval_port  (s : State) : (icuEval s).port = s.port :=
  (icuEval_moves (m := 589824) rfl (Moves.refl _ s) ).port rfl
@[simp] theorem icuEval_wayp  (s : State) : (icuEval s).wayp = s.wayp :=
  (icuEval_moves (m := 589824) rfl (Moves.refl _ s) ).wayp rfl
@[simp] theorem icuEval_serv  (s : State) : (icuEval s).serv = s.serv :=
  (icuEval_moves (m := 589824) rfl (Moves.refl _ s) ).serv rfl
@[simp] theorem icuEval_ptp  (s : State) : (icuEval s).ptp = s.ptp :=
  (icuEval_moves (m := 589824) rfl (Moves.refl _ s) ).ptp rfl
@[simp] theorem icuEval_foot  (s : State) : (icuEval s).foot = s.foot :=
  (icuEval_moves (m := 589824) rfl (Moves.refl _ s) ).foot rfl
@[simp] theorem icuEval_vault  (s : State) : (icuEval s).vault = s.vault :=
  (icuEval_moves (m := 589824) rfl (Moves.refl _ s) ).vault rfl
@[simp] theorem icuEval_flash  (s : State) : (icuEval s).flash = s.flash :=
  (icuEval_moves (m := 589824) rfl (Moves.refl _ s) ).flash rfl
@[simp] theorem icuEval_slots  (s : State) : (icuEval s).slots = s.slots :=
  (icuEval_moves (m := 589824) rfl (Moves.refl _ s) ).slots rfl
@[simp] theorem icuEval_regs  (s : State) : (icuEval s).regs = s.regs :=
  (icuEval_moves (m := 589824) rfl (Moves.refl _ s) ).regs rfl
@[simp] theorem icuEval_trail  (s : State) : (icuEval s).trail = s.trail :=
  (icuEval_moves (m := 589824) rfl (Moves.refl _ s) ).trail rfl
@[simp] theorem icuEval_fault  (s : State) : (icuEval s).fault = s.fault :=
  (icuEval_moves (m := 589824) rfl (Moves.refl _ s) ).fault rfl
@[simp] theorem icuEval_perf  (s : State) : (icuEval s).perf = s.perf :=
  (icuEval_moves (m := 589824) rfl (Moves.refl _ s) ).perf rfl
@[simp] theorem icuEval_pert  (s : State) : (icuEval s).pert = s.pert :=
  (icuEval_moves (m := 589824) rfl (Moves.refl _ s) ).pert rfl
@[simp] theorem icuEval_sys  (s : State) : (icuEval s).sys = s.sys :=
  (icuEval_moves (m := 589824) rfl (Moves.refl _ s) ).sys rfl

@[simp] theorem raiseTo_pending (x0 : _) (x1 : _) (s : State) : (raiseTo x0 x1 s).pending = s.pending :=
  (raiseTo_moves (m := 589824) rfl (Moves.refl _ s) x0 x1).pending
@[simp] theorem raiseTo_aon (x0 : _) (x1 : _) (s : State) : (raiseTo x0 x1 s).aon = s.aon :=
  (raiseTo_moves (m := 589824) rfl (Moves.refl _ s) x0 x1).aon rfl
@[simp] theorem raiseTo_time (x0 : _) (x1 : _) (s : State) : (raiseTo x0 x1 s).time = s.time :=
  (raiseTo_moves (m := 589824) rfl (Moves.refl _ s) x0 x1).time rfl
@[simp] theorem raiseTo_cairn (x0 : _) (x1 : _) (s : State) : (raiseTo x0 x1 s).cairn = s.cairn :=
  (raiseTo_moves (m := 589824) rfl (Moves.refl _ s) x0 x1).cairn rfl
@[simp] theorem raiseTo_sign (x0 : _) (x1 : _) (s : State) : (raiseTo x0 x1 s).sign = s.sign :=
  (raiseTo_moves (m := 589824) rfl (Moves.refl _ s) x0 x1).sign rfl
@[simp] theorem raiseTo_guy (x0 : _) (x1 : _) (s : State) : (raiseTo x0 x1 s).guy = s.guy :=
  (raiseTo_moves (m := 589824) rfl (Moves.refl _ s) x0 x1).guy rfl
@[simp] theorem raiseTo_mile (x0 : _) (x1 : _) (s : State) : (raiseTo x0 x1 s).mile = s.mile :=
  (raiseTo_moves (m := 589824) rfl (Moves.refl _ s) x0 x1).mile rfl
@[simp] theorem raiseTo_tdc (x0 : _) (x1 : _) (s : State) : (raiseTo x0 x1 s).tdc = s.tdc :=
  (raiseTo_moves (m := 589824) rfl (Moves.refl _ s) x0 x1).tdc rfl
@[simp] theorem raiseTo_gnss (x0 : _) (x1 : _) (s : State) : (raiseTo x0 x1 s).gnss = s.gnss :=
  (raiseTo_moves (m := 589824) rfl (Moves.refl _ s) x0 x1).gnss rfl
@[simp] theorem raiseTo_port (x0 : _) (x1 : _) (s : State) : (raiseTo x0 x1 s).port = s.port :=
  (raiseTo_moves (m := 589824) rfl (Moves.refl _ s) x0 x1).port rfl
@[simp] theorem raiseTo_wayp (x0 : _) (x1 : _) (s : State) : (raiseTo x0 x1 s).wayp = s.wayp :=
  (raiseTo_moves (m := 589824) rfl (Moves.refl _ s) x0 x1).wayp rfl
@[simp] theorem raiseTo_serv (x0 : _) (x1 : _) (s : State) : (raiseTo x0 x1 s).serv = s.serv :=
  (raiseTo_moves (m := 589824) rfl (Moves.refl _ s) x0 x1).serv rfl
@[simp] theorem raiseTo_ptp (x0 : _) (x1 : _) (s : State) : (raiseTo x0 x1 s).ptp = s.ptp :=
  (raiseTo_moves (m := 589824) rfl (Moves.refl _ s) x0 x1).ptp rfl
@[simp] theorem raiseTo_foot (x0 : _) (x1 : _) (s : State) : (raiseTo x0 x1 s).foot = s.foot :=
  (raiseTo_moves (m := 589824) rfl (Moves.refl _ s) x0 x1).foot rfl
@[simp] theorem raiseTo_vault (x0 : _) (x1 : _) (s : State) : (raiseTo x0 x1 s).vault = s.vault :=
  (raiseTo_moves (m := 589824) rfl (Moves.refl _ s) x0 x1).vault rfl
@[simp] theorem raiseTo_flash (x0 : _) (x1 : _) (s : State) : (raiseTo x0 x1 s).flash = s.flash :=
  (raiseTo_moves (m := 589824) rfl (Moves.refl _ s) x0 x1).flash rfl
@[simp] theorem raiseTo_slots (x0 : _) (x1 : _) (s : State) : (raiseTo x0 x1 s).slots = s.slots :=
  (raiseTo_moves (m := 589824) rfl (Moves.refl _ s) x0 x1).slots rfl
@[simp] theorem raiseTo_regs (x0 : _) (x1 : _) (s : State) : (raiseTo x0 x1 s).regs = s.regs :=
  (raiseTo_moves (m := 589824) rfl (Moves.refl _ s) x0 x1).regs rfl
@[simp] theorem raiseTo_trail (x0 : _) (x1 : _) (s : State) : (raiseTo x0 x1 s).trail = s.trail :=
  (raiseTo_moves (m := 589824) rfl (Moves.refl _ s) x0 x1).trail rfl
@[simp] theorem raiseTo_fault (x0 : _) (x1 : _) (s : State) : (raiseTo x0 x1 s).fault = s.fault :=
  (raiseTo_moves (m := 589824) rfl (Moves.refl _ s) x0 x1).fault rfl
@[simp] theorem raiseTo_perf (x0 : _) (x1 : _) (s : State) : (raiseTo x0 x1 s).perf = s.perf :=
  (raiseTo_moves (m := 589824) rfl (Moves.refl _ s) x0 x1).perf rfl
@[simp] theorem raiseTo_pert (x0 : _) (x1 : _) (s : State) : (raiseTo x0 x1 s).pert = s.pert :=
  (raiseTo_moves (m := 589824) rfl (Moves.refl _ s) x0 x1).pert rfl
@[simp] theorem raiseTo_sys (x0 : _) (x1 : _) (s : State) : (raiseTo x0 x1 s).sys = s.sys :=
  (raiseTo_moves (m := 589824) rfl (Moves.refl _ s) x0 x1).sys rfl

@[simp] theorem raise_pending (x0 : _) (s : State) : (raise x0 s).pending = s.pending :=
  (raise_moves (m := 589824) rfl (Moves.refl _ s) x0).pending
@[simp] theorem raise_aon (x0 : _) (s : State) : (raise x0 s).aon = s.aon :=
  (raise_moves (m := 589824) rfl (Moves.refl _ s) x0).aon rfl
@[simp] theorem raise_time (x0 : _) (s : State) : (raise x0 s).time = s.time :=
  (raise_moves (m := 589824) rfl (Moves.refl _ s) x0).time rfl
@[simp] theorem raise_cairn (x0 : _) (s : State) : (raise x0 s).cairn = s.cairn :=
  (raise_moves (m := 589824) rfl (Moves.refl _ s) x0).cairn rfl
@[simp] theorem raise_sign (x0 : _) (s : State) : (raise x0 s).sign = s.sign :=
  (raise_moves (m := 589824) rfl (Moves.refl _ s) x0).sign rfl
@[simp] theorem raise_guy (x0 : _) (s : State) : (raise x0 s).guy = s.guy :=
  (raise_moves (m := 589824) rfl (Moves.refl _ s) x0).guy rfl
@[simp] theorem raise_mile (x0 : _) (s : State) : (raise x0 s).mile = s.mile :=
  (raise_moves (m := 589824) rfl (Moves.refl _ s) x0).mile rfl
@[simp] theorem raise_tdc (x0 : _) (s : State) : (raise x0 s).tdc = s.tdc :=
  (raise_moves (m := 589824) rfl (Moves.refl _ s) x0).tdc rfl
@[simp] theorem raise_gnss (x0 : _) (s : State) : (raise x0 s).gnss = s.gnss :=
  (raise_moves (m := 589824) rfl (Moves.refl _ s) x0).gnss rfl
@[simp] theorem raise_port (x0 : _) (s : State) : (raise x0 s).port = s.port :=
  (raise_moves (m := 589824) rfl (Moves.refl _ s) x0).port rfl
@[simp] theorem raise_wayp (x0 : _) (s : State) : (raise x0 s).wayp = s.wayp :=
  (raise_moves (m := 589824) rfl (Moves.refl _ s) x0).wayp rfl
@[simp] theorem raise_serv (x0 : _) (s : State) : (raise x0 s).serv = s.serv :=
  (raise_moves (m := 589824) rfl (Moves.refl _ s) x0).serv rfl
@[simp] theorem raise_ptp (x0 : _) (s : State) : (raise x0 s).ptp = s.ptp :=
  (raise_moves (m := 589824) rfl (Moves.refl _ s) x0).ptp rfl
@[simp] theorem raise_foot (x0 : _) (s : State) : (raise x0 s).foot = s.foot :=
  (raise_moves (m := 589824) rfl (Moves.refl _ s) x0).foot rfl
@[simp] theorem raise_vault (x0 : _) (s : State) : (raise x0 s).vault = s.vault :=
  (raise_moves (m := 589824) rfl (Moves.refl _ s) x0).vault rfl
@[simp] theorem raise_flash (x0 : _) (s : State) : (raise x0 s).flash = s.flash :=
  (raise_moves (m := 589824) rfl (Moves.refl _ s) x0).flash rfl
@[simp] theorem raise_slots (x0 : _) (s : State) : (raise x0 s).slots = s.slots :=
  (raise_moves (m := 589824) rfl (Moves.refl _ s) x0).slots rfl
@[simp] theorem raise_regs (x0 : _) (s : State) : (raise x0 s).regs = s.regs :=
  (raise_moves (m := 589824) rfl (Moves.refl _ s) x0).regs rfl
@[simp] theorem raise_trail (x0 : _) (s : State) : (raise x0 s).trail = s.trail :=
  (raise_moves (m := 589824) rfl (Moves.refl _ s) x0).trail rfl
@[simp] theorem raise_fault (x0 : _) (s : State) : (raise x0 s).fault = s.fault :=
  (raise_moves (m := 589824) rfl (Moves.refl _ s) x0).fault rfl
@[simp] theorem raise_perf (x0 : _) (s : State) : (raise x0 s).perf = s.perf :=
  (raise_moves (m := 589824) rfl (Moves.refl _ s) x0).perf rfl
@[simp] theorem raise_pert (x0 : _) (s : State) : (raise x0 s).pert = s.pert :=
  (raise_moves (m := 589824) rfl (Moves.refl _ s) x0).pert rfl
@[simp] theorem raise_sys (x0 : _) (s : State) : (raise x0 s).sys = s.sys :=
  (raise_moves (m := 589824) rfl (Moves.refl _ s) x0).sys rfl

@[simp] theorem count_pending (x0 : _) (x1 : _) (s : State) : (count x0 x1 s).pending = s.pending :=
  (count_moves (m := 4194304) rfl (Moves.refl _ s) x0 x1).pending
@[simp] theorem count_aon (x0 : _) (x1 : _) (s : State) : (count x0 x1 s).aon = s.aon :=
  (count_moves (m := 4194304) rfl (Moves.refl _ s) x0 x1).aon rfl
@[simp] theorem count_time (x0 : _) (x1 : _) (s : State) : (count x0 x1 s).time = s.time :=
  (count_moves (m := 4194304) rfl (Moves.refl _ s) x0 x1).time rfl
@[simp] theorem count_cairn (x0 : _) (x1 : _) (s : State) : (count x0 x1 s).cairn = s.cairn :=
  (count_moves (m := 4194304) rfl (Moves.refl _ s) x0 x1).cairn rfl
@[simp] theorem count_sign (x0 : _) (x1 : _) (s : State) : (count x0 x1 s).sign = s.sign :=
  (count_moves (m := 4194304) rfl (Moves.refl _ s) x0 x1).sign rfl
@[simp] theorem count_guy (x0 : _) (x1 : _) (s : State) : (count x0 x1 s).guy = s.guy :=
  (count_moves (m := 4194304) rfl (Moves.refl _ s) x0 x1).guy rfl
@[simp] theorem count_mile (x0 : _) (x1 : _) (s : State) : (count x0 x1 s).mile = s.mile :=
  (count_moves (m := 4194304) rfl (Moves.refl _ s) x0 x1).mile rfl
@[simp] theorem count_tdc (x0 : _) (x1 : _) (s : State) : (count x0 x1 s).tdc = s.tdc :=
  (count_moves (m := 4194304) rfl (Moves.refl _ s) x0 x1).tdc rfl
@[simp] theorem count_gnss (x0 : _) (x1 : _) (s : State) : (count x0 x1 s).gnss = s.gnss :=
  (count_moves (m := 4194304) rfl (Moves.refl _ s) x0 x1).gnss rfl
@[simp] theorem count_port (x0 : _) (x1 : _) (s : State) : (count x0 x1 s).port = s.port :=
  (count_moves (m := 4194304) rfl (Moves.refl _ s) x0 x1).port rfl
@[simp] theorem count_wayp (x0 : _) (x1 : _) (s : State) : (count x0 x1 s).wayp = s.wayp :=
  (count_moves (m := 4194304) rfl (Moves.refl _ s) x0 x1).wayp rfl
@[simp] theorem count_serv (x0 : _) (x1 : _) (s : State) : (count x0 x1 s).serv = s.serv :=
  (count_moves (m := 4194304) rfl (Moves.refl _ s) x0 x1).serv rfl
@[simp] theorem count_ptp (x0 : _) (x1 : _) (s : State) : (count x0 x1 s).ptp = s.ptp :=
  (count_moves (m := 4194304) rfl (Moves.refl _ s) x0 x1).ptp rfl
@[simp] theorem count_foot (x0 : _) (x1 : _) (s : State) : (count x0 x1 s).foot = s.foot :=
  (count_moves (m := 4194304) rfl (Moves.refl _ s) x0 x1).foot rfl
@[simp] theorem count_vault (x0 : _) (x1 : _) (s : State) : (count x0 x1 s).vault = s.vault :=
  (count_moves (m := 4194304) rfl (Moves.refl _ s) x0 x1).vault rfl
@[simp] theorem count_flash (x0 : _) (x1 : _) (s : State) : (count x0 x1 s).flash = s.flash :=
  (count_moves (m := 4194304) rfl (Moves.refl _ s) x0 x1).flash rfl
@[simp] theorem count_host (x0 : _) (x1 : _) (s : State) : (count x0 x1 s).host = s.host :=
  (count_moves (m := 4194304) rfl (Moves.refl _ s) x0 x1).host rfl
@[simp] theorem count_slots (x0 : _) (x1 : _) (s : State) : (count x0 x1 s).slots = s.slots :=
  (count_moves (m := 4194304) rfl (Moves.refl _ s) x0 x1).slots rfl
@[simp] theorem count_regs (x0 : _) (x1 : _) (s : State) : (count x0 x1 s).regs = s.regs :=
  (count_moves (m := 4194304) rfl (Moves.refl _ s) x0 x1).regs rfl
@[simp] theorem count_icu (x0 : _) (x1 : _) (s : State) : (count x0 x1 s).icu = s.icu :=
  (count_moves (m := 4194304) rfl (Moves.refl _ s) x0 x1).icu rfl
@[simp] theorem count_trail (x0 : _) (x1 : _) (s : State) : (count x0 x1 s).trail = s.trail :=
  (count_moves (m := 4194304) rfl (Moves.refl _ s) x0 x1).trail rfl
@[simp] theorem count_fault (x0 : _) (x1 : _) (s : State) : (count x0 x1 s).fault = s.fault :=
  (count_moves (m := 4194304) rfl (Moves.refl _ s) x0 x1).fault rfl
@[simp] theorem count_pert (x0 : _) (x1 : _) (s : State) : (count x0 x1 s).pert = s.pert :=
  (count_moves (m := 4194304) rfl (Moves.refl _ s) x0 x1).pert rfl
@[simp] theorem count_sys (x0 : _) (x1 : _) (s : State) : (count x0 x1 s).sys = s.sys :=
  (count_moves (m := 4194304) rfl (Moves.refl _ s) x0 x1).sys rfl

@[simp] theorem deny_pending (x0 : _) (x1 : _) (x2 : _) (s : State) : (deny x0 x1 x2 s).pending = s.pending :=
  (deny_moves (m := 2031616) rfl (Moves.refl _ s) x0 x1 x2).pending
@[simp] theorem deny_aon (x0 : _) (x1 : _) (x2 : _) (s : State) : (deny x0 x1 x2 s).aon = s.aon :=
  (deny_moves (m := 2031616) rfl (Moves.refl _ s) x0 x1 x2).aon rfl
@[simp] theorem deny_time (x0 : _) (x1 : _) (x2 : _) (s : State) : (deny x0 x1 x2 s).time = s.time :=
  (deny_moves (m := 2031616) rfl (Moves.refl _ s) x0 x1 x2).time rfl
@[simp] theorem deny_cairn (x0 : _) (x1 : _) (x2 : _) (s : State) : (deny x0 x1 x2 s).cairn = s.cairn :=
  (deny_moves (m := 2031616) rfl (Moves.refl _ s) x0 x1 x2).cairn rfl
@[simp] theorem deny_sign (x0 : _) (x1 : _) (x2 : _) (s : State) : (deny x0 x1 x2 s).sign = s.sign :=
  (deny_moves (m := 2031616) rfl (Moves.refl _ s) x0 x1 x2).sign rfl
@[simp] theorem deny_guy (x0 : _) (x1 : _) (x2 : _) (s : State) : (deny x0 x1 x2 s).guy = s.guy :=
  (deny_moves (m := 2031616) rfl (Moves.refl _ s) x0 x1 x2).guy rfl
@[simp] theorem deny_mile (x0 : _) (x1 : _) (x2 : _) (s : State) : (deny x0 x1 x2 s).mile = s.mile :=
  (deny_moves (m := 2031616) rfl (Moves.refl _ s) x0 x1 x2).mile rfl
@[simp] theorem deny_tdc (x0 : _) (x1 : _) (x2 : _) (s : State) : (deny x0 x1 x2 s).tdc = s.tdc :=
  (deny_moves (m := 2031616) rfl (Moves.refl _ s) x0 x1 x2).tdc rfl
@[simp] theorem deny_gnss (x0 : _) (x1 : _) (x2 : _) (s : State) : (deny x0 x1 x2 s).gnss = s.gnss :=
  (deny_moves (m := 2031616) rfl (Moves.refl _ s) x0 x1 x2).gnss rfl
@[simp] theorem deny_port (x0 : _) (x1 : _) (x2 : _) (s : State) : (deny x0 x1 x2 s).port = s.port :=
  (deny_moves (m := 2031616) rfl (Moves.refl _ s) x0 x1 x2).port rfl
@[simp] theorem deny_wayp (x0 : _) (x1 : _) (x2 : _) (s : State) : (deny x0 x1 x2 s).wayp = s.wayp :=
  (deny_moves (m := 2031616) rfl (Moves.refl _ s) x0 x1 x2).wayp rfl
@[simp] theorem deny_serv (x0 : _) (x1 : _) (x2 : _) (s : State) : (deny x0 x1 x2 s).serv = s.serv :=
  (deny_moves (m := 2031616) rfl (Moves.refl _ s) x0 x1 x2).serv rfl
@[simp] theorem deny_ptp (x0 : _) (x1 : _) (x2 : _) (s : State) : (deny x0 x1 x2 s).ptp = s.ptp :=
  (deny_moves (m := 2031616) rfl (Moves.refl _ s) x0 x1 x2).ptp rfl
@[simp] theorem deny_foot (x0 : _) (x1 : _) (x2 : _) (s : State) : (deny x0 x1 x2 s).foot = s.foot :=
  (deny_moves (m := 2031616) rfl (Moves.refl _ s) x0 x1 x2).foot rfl
@[simp] theorem deny_vault (x0 : _) (x1 : _) (x2 : _) (s : State) : (deny x0 x1 x2 s).vault = s.vault :=
  (deny_moves (m := 2031616) rfl (Moves.refl _ s) x0 x1 x2).vault rfl
@[simp] theorem deny_flash (x0 : _) (x1 : _) (x2 : _) (s : State) : (deny x0 x1 x2 s).flash = s.flash :=
  (deny_moves (m := 2031616) rfl (Moves.refl _ s) x0 x1 x2).flash rfl
@[simp] theorem deny_fault (x0 : _) (x1 : _) (x2 : _) (s : State) : (deny x0 x1 x2 s).fault = s.fault :=
  (deny_moves (m := 2031616) rfl (Moves.refl _ s) x0 x1 x2).fault rfl
@[simp] theorem deny_perf (x0 : _) (x1 : _) (x2 : _) (s : State) : (deny x0 x1 x2 s).perf = s.perf :=
  (deny_moves (m := 2031616) rfl (Moves.refl _ s) x0 x1 x2).perf rfl
@[simp] theorem deny_pert (x0 : _) (x1 : _) (x2 : _) (s : State) : (deny x0 x1 x2 s).pert = s.pert :=
  (deny_moves (m := 2031616) rfl (Moves.refl _ s) x0 x1 x2).pert rfl
@[simp] theorem deny_sys (x0 : _) (x1 : _) (x2 : _) (s : State) : (deny x0 x1 x2 s).sys = s.sys :=
  (deny_moves (m := 2031616) rfl (Moves.refl _ s) x0 x1 x2).sys rfl

@[simp] theorem deliver_pending (x0 : _) (x1 : _) (s : State) : (deliver x0 x1 s).pending = s.pending :=
  (deliver_moves (m := 589824) rfl (Moves.refl _ s) x0 x1).pending
@[simp] theorem deliver_aon (x0 : _) (x1 : _) (s : State) : (deliver x0 x1 s).aon = s.aon :=
  (deliver_moves (m := 589824) rfl (Moves.refl _ s) x0 x1).aon rfl
@[simp] theorem deliver_time (x0 : _) (x1 : _) (s : State) : (deliver x0 x1 s).time = s.time :=
  (deliver_moves (m := 589824) rfl (Moves.refl _ s) x0 x1).time rfl
@[simp] theorem deliver_cairn (x0 : _) (x1 : _) (s : State) : (deliver x0 x1 s).cairn = s.cairn :=
  (deliver_moves (m := 589824) rfl (Moves.refl _ s) x0 x1).cairn rfl
@[simp] theorem deliver_sign (x0 : _) (x1 : _) (s : State) : (deliver x0 x1 s).sign = s.sign :=
  (deliver_moves (m := 589824) rfl (Moves.refl _ s) x0 x1).sign rfl
@[simp] theorem deliver_guy (x0 : _) (x1 : _) (s : State) : (deliver x0 x1 s).guy = s.guy :=
  (deliver_moves (m := 589824) rfl (Moves.refl _ s) x0 x1).guy rfl
@[simp] theorem deliver_mile (x0 : _) (x1 : _) (s : State) : (deliver x0 x1 s).mile = s.mile :=
  (deliver_moves (m := 589824) rfl (Moves.refl _ s) x0 x1).mile rfl
@[simp] theorem deliver_tdc (x0 : _) (x1 : _) (s : State) : (deliver x0 x1 s).tdc = s.tdc :=
  (deliver_moves (m := 589824) rfl (Moves.refl _ s) x0 x1).tdc rfl
@[simp] theorem deliver_gnss (x0 : _) (x1 : _) (s : State) : (deliver x0 x1 s).gnss = s.gnss :=
  (deliver_moves (m := 589824) rfl (Moves.refl _ s) x0 x1).gnss rfl
@[simp] theorem deliver_port (x0 : _) (x1 : _) (s : State) : (deliver x0 x1 s).port = s.port :=
  (deliver_moves (m := 589824) rfl (Moves.refl _ s) x0 x1).port rfl
@[simp] theorem deliver_wayp (x0 : _) (x1 : _) (s : State) : (deliver x0 x1 s).wayp = s.wayp :=
  (deliver_moves (m := 589824) rfl (Moves.refl _ s) x0 x1).wayp rfl
@[simp] theorem deliver_serv (x0 : _) (x1 : _) (s : State) : (deliver x0 x1 s).serv = s.serv :=
  (deliver_moves (m := 589824) rfl (Moves.refl _ s) x0 x1).serv rfl
@[simp] theorem deliver_ptp (x0 : _) (x1 : _) (s : State) : (deliver x0 x1 s).ptp = s.ptp :=
  (deliver_moves (m := 589824) rfl (Moves.refl _ s) x0 x1).ptp rfl
@[simp] theorem deliver_foot (x0 : _) (x1 : _) (s : State) : (deliver x0 x1 s).foot = s.foot :=
  (deliver_moves (m := 589824) rfl (Moves.refl _ s) x0 x1).foot rfl
@[simp] theorem deliver_vault (x0 : _) (x1 : _) (s : State) : (deliver x0 x1 s).vault = s.vault :=
  (deliver_moves (m := 589824) rfl (Moves.refl _ s) x0 x1).vault rfl
@[simp] theorem deliver_flash (x0 : _) (x1 : _) (s : State) : (deliver x0 x1 s).flash = s.flash :=
  (deliver_moves (m := 589824) rfl (Moves.refl _ s) x0 x1).flash rfl
@[simp] theorem deliver_slots (x0 : _) (x1 : _) (s : State) : (deliver x0 x1 s).slots = s.slots :=
  (deliver_moves (m := 589824) rfl (Moves.refl _ s) x0 x1).slots rfl
@[simp] theorem deliver_regs (x0 : _) (x1 : _) (s : State) : (deliver x0 x1 s).regs = s.regs :=
  (deliver_moves (m := 589824) rfl (Moves.refl _ s) x0 x1).regs rfl
@[simp] theorem deliver_trail (x0 : _) (x1 : _) (s : State) : (deliver x0 x1 s).trail = s.trail :=
  (deliver_moves (m := 589824) rfl (Moves.refl _ s) x0 x1).trail rfl
@[simp] theorem deliver_fault (x0 : _) (x1 : _) (s : State) : (deliver x0 x1 s).fault = s.fault :=
  (deliver_moves (m := 589824) rfl (Moves.refl _ s) x0 x1).fault rfl
@[simp] theorem deliver_perf (x0 : _) (x1 : _) (s : State) : (deliver x0 x1 s).perf = s.perf :=
  (deliver_moves (m := 589824) rfl (Moves.refl _ s) x0 x1).perf rfl
@[simp] theorem deliver_pert (x0 : _) (x1 : _) (s : State) : (deliver x0 x1 s).pert = s.pert :=
  (deliver_moves (m := 589824) rfl (Moves.refl _ s) x0 x1).pert rfl
@[simp] theorem deliver_sys (x0 : _) (x1 : _) (s : State) : (deliver x0 x1 s).sys = s.sys :=
  (deliver_moves (m := 589824) rfl (Moves.refl _ s) x0 x1).sys rfl

@[simp] theorem complete_pending (x0 : _) (x1 : _) (x2 : _) (x3 : _) (s : State) : (complete x0 x1 x2 x3 s).pending = s.pending :=
  (complete_moves (m := 589824) rfl (Moves.refl _ s) x0 x1 x2 x3).pending
@[simp] theorem complete_aon (x0 : _) (x1 : _) (x2 : _) (x3 : _) (s : State) : (complete x0 x1 x2 x3 s).aon = s.aon :=
  (complete_moves (m := 589824) rfl (Moves.refl _ s) x0 x1 x2 x3).aon rfl
@[simp] theorem complete_time (x0 : _) (x1 : _) (x2 : _) (x3 : _) (s : State) : (complete x0 x1 x2 x3 s).time = s.time :=
  (complete_moves (m := 589824) rfl (Moves.refl _ s) x0 x1 x2 x3).time rfl
@[simp] theorem complete_cairn (x0 : _) (x1 : _) (x2 : _) (x3 : _) (s : State) : (complete x0 x1 x2 x3 s).cairn = s.cairn :=
  (complete_moves (m := 589824) rfl (Moves.refl _ s) x0 x1 x2 x3).cairn rfl
@[simp] theorem complete_sign (x0 : _) (x1 : _) (x2 : _) (x3 : _) (s : State) : (complete x0 x1 x2 x3 s).sign = s.sign :=
  (complete_moves (m := 589824) rfl (Moves.refl _ s) x0 x1 x2 x3).sign rfl
@[simp] theorem complete_guy (x0 : _) (x1 : _) (x2 : _) (x3 : _) (s : State) : (complete x0 x1 x2 x3 s).guy = s.guy :=
  (complete_moves (m := 589824) rfl (Moves.refl _ s) x0 x1 x2 x3).guy rfl
@[simp] theorem complete_mile (x0 : _) (x1 : _) (x2 : _) (x3 : _) (s : State) : (complete x0 x1 x2 x3 s).mile = s.mile :=
  (complete_moves (m := 589824) rfl (Moves.refl _ s) x0 x1 x2 x3).mile rfl
@[simp] theorem complete_tdc (x0 : _) (x1 : _) (x2 : _) (x3 : _) (s : State) : (complete x0 x1 x2 x3 s).tdc = s.tdc :=
  (complete_moves (m := 589824) rfl (Moves.refl _ s) x0 x1 x2 x3).tdc rfl
@[simp] theorem complete_gnss (x0 : _) (x1 : _) (x2 : _) (x3 : _) (s : State) : (complete x0 x1 x2 x3 s).gnss = s.gnss :=
  (complete_moves (m := 589824) rfl (Moves.refl _ s) x0 x1 x2 x3).gnss rfl
@[simp] theorem complete_port (x0 : _) (x1 : _) (x2 : _) (x3 : _) (s : State) : (complete x0 x1 x2 x3 s).port = s.port :=
  (complete_moves (m := 589824) rfl (Moves.refl _ s) x0 x1 x2 x3).port rfl
@[simp] theorem complete_wayp (x0 : _) (x1 : _) (x2 : _) (x3 : _) (s : State) : (complete x0 x1 x2 x3 s).wayp = s.wayp :=
  (complete_moves (m := 589824) rfl (Moves.refl _ s) x0 x1 x2 x3).wayp rfl
@[simp] theorem complete_serv (x0 : _) (x1 : _) (x2 : _) (x3 : _) (s : State) : (complete x0 x1 x2 x3 s).serv = s.serv :=
  (complete_moves (m := 589824) rfl (Moves.refl _ s) x0 x1 x2 x3).serv rfl
@[simp] theorem complete_ptp (x0 : _) (x1 : _) (x2 : _) (x3 : _) (s : State) : (complete x0 x1 x2 x3 s).ptp = s.ptp :=
  (complete_moves (m := 589824) rfl (Moves.refl _ s) x0 x1 x2 x3).ptp rfl
@[simp] theorem complete_foot (x0 : _) (x1 : _) (x2 : _) (x3 : _) (s : State) : (complete x0 x1 x2 x3 s).foot = s.foot :=
  (complete_moves (m := 589824) rfl (Moves.refl _ s) x0 x1 x2 x3).foot rfl
@[simp] theorem complete_vault (x0 : _) (x1 : _) (x2 : _) (x3 : _) (s : State) : (complete x0 x1 x2 x3 s).vault = s.vault :=
  (complete_moves (m := 589824) rfl (Moves.refl _ s) x0 x1 x2 x3).vault rfl
@[simp] theorem complete_flash (x0 : _) (x1 : _) (x2 : _) (x3 : _) (s : State) : (complete x0 x1 x2 x3 s).flash = s.flash :=
  (complete_moves (m := 589824) rfl (Moves.refl _ s) x0 x1 x2 x3).flash rfl
@[simp] theorem complete_slots (x0 : _) (x1 : _) (x2 : _) (x3 : _) (s : State) : (complete x0 x1 x2 x3 s).slots = s.slots :=
  (complete_moves (m := 589824) rfl (Moves.refl _ s) x0 x1 x2 x3).slots rfl
@[simp] theorem complete_regs (x0 : _) (x1 : _) (x2 : _) (x3 : _) (s : State) : (complete x0 x1 x2 x3 s).regs = s.regs :=
  (complete_moves (m := 589824) rfl (Moves.refl _ s) x0 x1 x2 x3).regs rfl
@[simp] theorem complete_trail (x0 : _) (x1 : _) (x2 : _) (x3 : _) (s : State) : (complete x0 x1 x2 x3 s).trail = s.trail :=
  (complete_moves (m := 589824) rfl (Moves.refl _ s) x0 x1 x2 x3).trail rfl
@[simp] theorem complete_fault (x0 : _) (x1 : _) (x2 : _) (x3 : _) (s : State) : (complete x0 x1 x2 x3 s).fault = s.fault :=
  (complete_moves (m := 589824) rfl (Moves.refl _ s) x0 x1 x2 x3).fault rfl
@[simp] theorem complete_perf (x0 : _) (x1 : _) (x2 : _) (x3 : _) (s : State) : (complete x0 x1 x2 x3 s).perf = s.perf :=
  (complete_moves (m := 589824) rfl (Moves.refl _ s) x0 x1 x2 x3).perf rfl
@[simp] theorem complete_pert (x0 : _) (x1 : _) (x2 : _) (x3 : _) (s : State) : (complete x0 x1 x2 x3 s).pert = s.pert :=
  (complete_moves (m := 589824) rfl (Moves.refl _ s) x0 x1 x2 x3).pert rfl
@[simp] theorem complete_sys (x0 : _) (x1 : _) (x2 : _) (x3 : _) (s : State) : (complete x0 x1 x2 x3 s).sys = s.sys :=
  (complete_moves (m := 589824) rfl (Moves.refl _ s) x0 x1 x2 x3).sys rfl

@[simp] theorem permitClose_pending  (s : State) : (permitClose s).pending = s.pending :=
  (permitClose_moves (m := 16) rfl (Moves.refl _ s) ).pending
@[simp] theorem permitClose_aon  (s : State) : (permitClose s).aon = s.aon :=
  (permitClose_moves (m := 16) rfl (Moves.refl _ s) ).aon rfl
@[simp] theorem permitClose_time  (s : State) : (permitClose s).time = s.time :=
  (permitClose_moves (m := 16) rfl (Moves.refl _ s) ).time rfl
@[simp] theorem permitClose_cairn  (s : State) : (permitClose s).cairn = s.cairn :=
  (permitClose_moves (m := 16) rfl (Moves.refl _ s) ).cairn rfl
@[simp] theorem permitClose_guy  (s : State) : (permitClose s).guy = s.guy :=
  (permitClose_moves (m := 16) rfl (Moves.refl _ s) ).guy rfl
@[simp] theorem permitClose_mile  (s : State) : (permitClose s).mile = s.mile :=
  (permitClose_moves (m := 16) rfl (Moves.refl _ s) ).mile rfl
@[simp] theorem permitClose_tdc  (s : State) : (permitClose s).tdc = s.tdc :=
  (permitClose_moves (m := 16) rfl (Moves.refl _ s) ).tdc rfl
@[simp] theorem permitClose_gnss  (s : State) : (permitClose s).gnss = s.gnss :=
  (permitClose_moves (m := 16) rfl (Moves.refl _ s) ).gnss rfl
@[simp] theorem permitClose_port  (s : State) : (permitClose s).port = s.port :=
  (permitClose_moves (m := 16) rfl (Moves.refl _ s) ).port rfl
@[simp] theorem permitClose_wayp  (s : State) : (permitClose s).wayp = s.wayp :=
  (permitClose_moves (m := 16) rfl (Moves.refl _ s) ).wayp rfl
@[simp] theorem permitClose_serv  (s : State) : (permitClose s).serv = s.serv :=
  (permitClose_moves (m := 16) rfl (Moves.refl _ s) ).serv rfl
@[simp] theorem permitClose_ptp  (s : State) : (permitClose s).ptp = s.ptp :=
  (permitClose_moves (m := 16) rfl (Moves.refl _ s) ).ptp rfl
@[simp] theorem permitClose_foot  (s : State) : (permitClose s).foot = s.foot :=
  (permitClose_moves (m := 16) rfl (Moves.refl _ s) ).foot rfl
@[simp] theorem permitClose_vault  (s : State) : (permitClose s).vault = s.vault :=
  (permitClose_moves (m := 16) rfl (Moves.refl _ s) ).vault rfl
@[simp] theorem permitClose_flash  (s : State) : (permitClose s).flash = s.flash :=
  (permitClose_moves (m := 16) rfl (Moves.refl _ s) ).flash rfl
@[simp] theorem permitClose_host  (s : State) : (permitClose s).host = s.host :=
  (permitClose_moves (m := 16) rfl (Moves.refl _ s) ).host rfl
@[simp] theorem permitClose_slots  (s : State) : (permitClose s).slots = s.slots :=
  (permitClose_moves (m := 16) rfl (Moves.refl _ s) ).slots rfl
@[simp] theorem permitClose_regs  (s : State) : (permitClose s).regs = s.regs :=
  (permitClose_moves (m := 16) rfl (Moves.refl _ s) ).regs rfl
@[simp] theorem permitClose_icu  (s : State) : (permitClose s).icu = s.icu :=
  (permitClose_moves (m := 16) rfl (Moves.refl _ s) ).icu rfl
@[simp] theorem permitClose_trail  (s : State) : (permitClose s).trail = s.trail :=
  (permitClose_moves (m := 16) rfl (Moves.refl _ s) ).trail rfl
@[simp] theorem permitClose_fault  (s : State) : (permitClose s).fault = s.fault :=
  (permitClose_moves (m := 16) rfl (Moves.refl _ s) ).fault rfl
@[simp] theorem permitClose_perf  (s : State) : (permitClose s).perf = s.perf :=
  (permitClose_moves (m := 16) rfl (Moves.refl _ s) ).perf rfl
@[simp] theorem permitClose_pert  (s : State) : (permitClose s).pert = s.pert :=
  (permitClose_moves (m := 16) rfl (Moves.refl _ s) ).pert rfl
@[simp] theorem permitClose_sys  (s : State) : (permitClose s).sys = s.sys :=
  (permitClose_moves (m := 16) rfl (Moves.refl _ s) ).sys rfl

@[simp] theorem cairnEvent_pending  (s : State) : (cairnEvent s).pending = s.pending :=
  (cairnEvent_moves (m := 8) rfl (Moves.refl _ s) ).pending
@[simp] theorem cairnEvent_aon  (s : State) : (cairnEvent s).aon = s.aon :=
  (cairnEvent_moves (m := 8) rfl (Moves.refl _ s) ).aon rfl
@[simp] theorem cairnEvent_time  (s : State) : (cairnEvent s).time = s.time :=
  (cairnEvent_moves (m := 8) rfl (Moves.refl _ s) ).time rfl
@[simp] theorem cairnEvent_sign  (s : State) : (cairnEvent s).sign = s.sign :=
  (cairnEvent_moves (m := 8) rfl (Moves.refl _ s) ).sign rfl
@[simp] theorem cairnEvent_guy  (s : State) : (cairnEvent s).guy = s.guy :=
  (cairnEvent_moves (m := 8) rfl (Moves.refl _ s) ).guy rfl
@[simp] theorem cairnEvent_mile  (s : State) : (cairnEvent s).mile = s.mile :=
  (cairnEvent_moves (m := 8) rfl (Moves.refl _ s) ).mile rfl
@[simp] theorem cairnEvent_tdc  (s : State) : (cairnEvent s).tdc = s.tdc :=
  (cairnEvent_moves (m := 8) rfl (Moves.refl _ s) ).tdc rfl
@[simp] theorem cairnEvent_gnss  (s : State) : (cairnEvent s).gnss = s.gnss :=
  (cairnEvent_moves (m := 8) rfl (Moves.refl _ s) ).gnss rfl
@[simp] theorem cairnEvent_port  (s : State) : (cairnEvent s).port = s.port :=
  (cairnEvent_moves (m := 8) rfl (Moves.refl _ s) ).port rfl
@[simp] theorem cairnEvent_wayp  (s : State) : (cairnEvent s).wayp = s.wayp :=
  (cairnEvent_moves (m := 8) rfl (Moves.refl _ s) ).wayp rfl
@[simp] theorem cairnEvent_serv  (s : State) : (cairnEvent s).serv = s.serv :=
  (cairnEvent_moves (m := 8) rfl (Moves.refl _ s) ).serv rfl
@[simp] theorem cairnEvent_ptp  (s : State) : (cairnEvent s).ptp = s.ptp :=
  (cairnEvent_moves (m := 8) rfl (Moves.refl _ s) ).ptp rfl
@[simp] theorem cairnEvent_foot  (s : State) : (cairnEvent s).foot = s.foot :=
  (cairnEvent_moves (m := 8) rfl (Moves.refl _ s) ).foot rfl
@[simp] theorem cairnEvent_vault  (s : State) : (cairnEvent s).vault = s.vault :=
  (cairnEvent_moves (m := 8) rfl (Moves.refl _ s) ).vault rfl
@[simp] theorem cairnEvent_flash  (s : State) : (cairnEvent s).flash = s.flash :=
  (cairnEvent_moves (m := 8) rfl (Moves.refl _ s) ).flash rfl
@[simp] theorem cairnEvent_host  (s : State) : (cairnEvent s).host = s.host :=
  (cairnEvent_moves (m := 8) rfl (Moves.refl _ s) ).host rfl
@[simp] theorem cairnEvent_slots  (s : State) : (cairnEvent s).slots = s.slots :=
  (cairnEvent_moves (m := 8) rfl (Moves.refl _ s) ).slots rfl
@[simp] theorem cairnEvent_regs  (s : State) : (cairnEvent s).regs = s.regs :=
  (cairnEvent_moves (m := 8) rfl (Moves.refl _ s) ).regs rfl
@[simp] theorem cairnEvent_icu  (s : State) : (cairnEvent s).icu = s.icu :=
  (cairnEvent_moves (m := 8) rfl (Moves.refl _ s) ).icu rfl
@[simp] theorem cairnEvent_trail  (s : State) : (cairnEvent s).trail = s.trail :=
  (cairnEvent_moves (m := 8) rfl (Moves.refl _ s) ).trail rfl
@[simp] theorem cairnEvent_fault  (s : State) : (cairnEvent s).fault = s.fault :=
  (cairnEvent_moves (m := 8) rfl (Moves.refl _ s) ).fault rfl
@[simp] theorem cairnEvent_perf  (s : State) : (cairnEvent s).perf = s.perf :=
  (cairnEvent_moves (m := 8) rfl (Moves.refl _ s) ).perf rfl
@[simp] theorem cairnEvent_pert  (s : State) : (cairnEvent s).pert = s.pert :=
  (cairnEvent_moves (m := 8) rfl (Moves.refl _ s) ).pert rfl
@[simp] theorem cairnEvent_sys  (s : State) : (cairnEvent s).sys = s.sys :=
  (cairnEvent_moves (m := 8) rfl (Moves.refl _ s) ).sys rfl

@[simp] theorem lanternFast_pending  (s : State) : (lanternFast s).pending = s.pending :=
  (lanternFast_moves (m := 16) rfl (Moves.refl _ s) ).pending
@[simp] theorem lanternFast_aon  (s : State) : (lanternFast s).aon = s.aon :=
  (lanternFast_moves (m := 16) rfl (Moves.refl _ s) ).aon rfl
@[simp] theorem lanternFast_time  (s : State) : (lanternFast s).time = s.time :=
  (lanternFast_moves (m := 16) rfl (Moves.refl _ s) ).time rfl
@[simp] theorem lanternFast_cairn  (s : State) : (lanternFast s).cairn = s.cairn :=
  (lanternFast_moves (m := 16) rfl (Moves.refl _ s) ).cairn rfl
@[simp] theorem lanternFast_guy  (s : State) : (lanternFast s).guy = s.guy :=
  (lanternFast_moves (m := 16) rfl (Moves.refl _ s) ).guy rfl
@[simp] theorem lanternFast_mile  (s : State) : (lanternFast s).mile = s.mile :=
  (lanternFast_moves (m := 16) rfl (Moves.refl _ s) ).mile rfl
@[simp] theorem lanternFast_tdc  (s : State) : (lanternFast s).tdc = s.tdc :=
  (lanternFast_moves (m := 16) rfl (Moves.refl _ s) ).tdc rfl
@[simp] theorem lanternFast_gnss  (s : State) : (lanternFast s).gnss = s.gnss :=
  (lanternFast_moves (m := 16) rfl (Moves.refl _ s) ).gnss rfl
@[simp] theorem lanternFast_port  (s : State) : (lanternFast s).port = s.port :=
  (lanternFast_moves (m := 16) rfl (Moves.refl _ s) ).port rfl
@[simp] theorem lanternFast_wayp  (s : State) : (lanternFast s).wayp = s.wayp :=
  (lanternFast_moves (m := 16) rfl (Moves.refl _ s) ).wayp rfl
@[simp] theorem lanternFast_serv  (s : State) : (lanternFast s).serv = s.serv :=
  (lanternFast_moves (m := 16) rfl (Moves.refl _ s) ).serv rfl
@[simp] theorem lanternFast_ptp  (s : State) : (lanternFast s).ptp = s.ptp :=
  (lanternFast_moves (m := 16) rfl (Moves.refl _ s) ).ptp rfl
@[simp] theorem lanternFast_foot  (s : State) : (lanternFast s).foot = s.foot :=
  (lanternFast_moves (m := 16) rfl (Moves.refl _ s) ).foot rfl
@[simp] theorem lanternFast_vault  (s : State) : (lanternFast s).vault = s.vault :=
  (lanternFast_moves (m := 16) rfl (Moves.refl _ s) ).vault rfl
@[simp] theorem lanternFast_flash  (s : State) : (lanternFast s).flash = s.flash :=
  (lanternFast_moves (m := 16) rfl (Moves.refl _ s) ).flash rfl
@[simp] theorem lanternFast_host  (s : State) : (lanternFast s).host = s.host :=
  (lanternFast_moves (m := 16) rfl (Moves.refl _ s) ).host rfl
@[simp] theorem lanternFast_slots  (s : State) : (lanternFast s).slots = s.slots :=
  (lanternFast_moves (m := 16) rfl (Moves.refl _ s) ).slots rfl
@[simp] theorem lanternFast_regs  (s : State) : (lanternFast s).regs = s.regs :=
  (lanternFast_moves (m := 16) rfl (Moves.refl _ s) ).regs rfl
@[simp] theorem lanternFast_icu  (s : State) : (lanternFast s).icu = s.icu :=
  (lanternFast_moves (m := 16) rfl (Moves.refl _ s) ).icu rfl
@[simp] theorem lanternFast_trail  (s : State) : (lanternFast s).trail = s.trail :=
  (lanternFast_moves (m := 16) rfl (Moves.refl _ s) ).trail rfl
@[simp] theorem lanternFast_fault  (s : State) : (lanternFast s).fault = s.fault :=
  (lanternFast_moves (m := 16) rfl (Moves.refl _ s) ).fault rfl
@[simp] theorem lanternFast_perf  (s : State) : (lanternFast s).perf = s.perf :=
  (lanternFast_moves (m := 16) rfl (Moves.refl _ s) ).perf rfl
@[simp] theorem lanternFast_pert  (s : State) : (lanternFast s).pert = s.pert :=
  (lanternFast_moves (m := 16) rfl (Moves.refl _ s) ).pert rfl
@[simp] theorem lanternFast_sys  (s : State) : (lanternFast s).sys = s.sys :=
  (lanternFast_moves (m := 16) rfl (Moves.refl _ s) ).sys rfl

@[simp] theorem faultEvent_pending (x0 : _) (s : State) : (faultEvent x0 s).pending = s.pending :=
  (faultEvent_moves (m := 25116250) rfl (Moves.refl _ s) x0).pending
@[simp] theorem faultEvent_time (x0 : _) (s : State) : (faultEvent x0 s).time = s.time :=
  (faultEvent_moves (m := 25116250) rfl (Moves.refl _ s) x0).time rfl
@[simp] theorem faultEvent_guy (x0 : _) (s : State) : (faultEvent x0 s).guy = s.guy :=
  (faultEvent_moves (m := 25116250) rfl (Moves.refl _ s) x0).guy rfl
@[simp] theorem faultEvent_tdc (x0 : _) (s : State) : (faultEvent x0 s).tdc = s.tdc :=
  (faultEvent_moves (m := 25116250) rfl (Moves.refl _ s) x0).tdc rfl
@[simp] theorem faultEvent_gnss (x0 : _) (s : State) : (faultEvent x0 s).gnss = s.gnss :=
  (faultEvent_moves (m := 25116250) rfl (Moves.refl _ s) x0).gnss rfl
@[simp] theorem faultEvent_vault (x0 : _) (s : State) : (faultEvent x0 s).vault = s.vault :=
  (faultEvent_moves (m := 25116250) rfl (Moves.refl _ s) x0).vault rfl
@[simp] theorem faultEvent_flash (x0 : _) (s : State) : (faultEvent x0 s).flash = s.flash :=
  (faultEvent_moves (m := 25116250) rfl (Moves.refl _ s) x0).flash rfl
@[simp] theorem faultEvent_pert (x0 : _) (s : State) : (faultEvent x0 s).pert = s.pert :=
  (faultEvent_moves (m := 25116250) rfl (Moves.refl _ s) x0).pert rfl

@[simp] theorem faultCond_pending (x0 : _) (x1 : _) (s : State) : (faultCond x0 x1 s).pending = s.pending :=
  (faultCond_moves (m := 25116250) rfl (Moves.refl _ s) x0 x1).pending
@[simp] theorem faultCond_time (x0 : _) (x1 : _) (s : State) : (faultCond x0 x1 s).time = s.time :=
  (faultCond_moves (m := 25116250) rfl (Moves.refl _ s) x0 x1).time rfl
@[simp] theorem faultCond_guy (x0 : _) (x1 : _) (s : State) : (faultCond x0 x1 s).guy = s.guy :=
  (faultCond_moves (m := 25116250) rfl (Moves.refl _ s) x0 x1).guy rfl
@[simp] theorem faultCond_tdc (x0 : _) (x1 : _) (s : State) : (faultCond x0 x1 s).tdc = s.tdc :=
  (faultCond_moves (m := 25116250) rfl (Moves.refl _ s) x0 x1).tdc rfl
@[simp] theorem faultCond_gnss (x0 : _) (x1 : _) (s : State) : (faultCond x0 x1 s).gnss = s.gnss :=
  (faultCond_moves (m := 25116250) rfl (Moves.refl _ s) x0 x1).gnss rfl
@[simp] theorem faultCond_vault (x0 : _) (x1 : _) (s : State) : (faultCond x0 x1 s).vault = s.vault :=
  (faultCond_moves (m := 25116250) rfl (Moves.refl _ s) x0 x1).vault rfl
@[simp] theorem faultCond_flash (x0 : _) (x1 : _) (s : State) : (faultCond x0 x1 s).flash = s.flash :=
  (faultCond_moves (m := 25116250) rfl (Moves.refl _ s) x0 x1).flash rfl
@[simp] theorem faultCond_pert (x0 : _) (x1 : _) (s : State) : (faultCond x0 x1 s).pert = s.pert :=
  (faultCond_moves (m := 25116250) rfl (Moves.refl _ s) x0 x1).pert rfl

@[simp] theorem onPort_pending (x0 : _) (x1 : _) (s : State) : (onPort x0 x1 s).pending = s.pending :=
  (onPort_moves (m := 512) rfl (Moves.refl _ s) x0 x1).pending
@[simp] theorem onPort_aon (x0 : _) (x1 : _) (s : State) : (onPort x0 x1 s).aon = s.aon :=
  (onPort_moves (m := 512) rfl (Moves.refl _ s) x0 x1).aon rfl
@[simp] theorem onPort_time (x0 : _) (x1 : _) (s : State) : (onPort x0 x1 s).time = s.time :=
  (onPort_moves (m := 512) rfl (Moves.refl _ s) x0 x1).time rfl
@[simp] theorem onPort_cairn (x0 : _) (x1 : _) (s : State) : (onPort x0 x1 s).cairn = s.cairn :=
  (onPort_moves (m := 512) rfl (Moves.refl _ s) x0 x1).cairn rfl
@[simp] theorem onPort_sign (x0 : _) (x1 : _) (s : State) : (onPort x0 x1 s).sign = s.sign :=
  (onPort_moves (m := 512) rfl (Moves.refl _ s) x0 x1).sign rfl
@[simp] theorem onPort_guy (x0 : _) (x1 : _) (s : State) : (onPort x0 x1 s).guy = s.guy :=
  (onPort_moves (m := 512) rfl (Moves.refl _ s) x0 x1).guy rfl
@[simp] theorem onPort_mile (x0 : _) (x1 : _) (s : State) : (onPort x0 x1 s).mile = s.mile :=
  (onPort_moves (m := 512) rfl (Moves.refl _ s) x0 x1).mile rfl
@[simp] theorem onPort_tdc (x0 : _) (x1 : _) (s : State) : (onPort x0 x1 s).tdc = s.tdc :=
  (onPort_moves (m := 512) rfl (Moves.refl _ s) x0 x1).tdc rfl
@[simp] theorem onPort_gnss (x0 : _) (x1 : _) (s : State) : (onPort x0 x1 s).gnss = s.gnss :=
  (onPort_moves (m := 512) rfl (Moves.refl _ s) x0 x1).gnss rfl
@[simp] theorem onPort_wayp (x0 : _) (x1 : _) (s : State) : (onPort x0 x1 s).wayp = s.wayp :=
  (onPort_moves (m := 512) rfl (Moves.refl _ s) x0 x1).wayp rfl
@[simp] theorem onPort_serv (x0 : _) (x1 : _) (s : State) : (onPort x0 x1 s).serv = s.serv :=
  (onPort_moves (m := 512) rfl (Moves.refl _ s) x0 x1).serv rfl
@[simp] theorem onPort_ptp (x0 : _) (x1 : _) (s : State) : (onPort x0 x1 s).ptp = s.ptp :=
  (onPort_moves (m := 512) rfl (Moves.refl _ s) x0 x1).ptp rfl
@[simp] theorem onPort_foot (x0 : _) (x1 : _) (s : State) : (onPort x0 x1 s).foot = s.foot :=
  (onPort_moves (m := 512) rfl (Moves.refl _ s) x0 x1).foot rfl
@[simp] theorem onPort_vault (x0 : _) (x1 : _) (s : State) : (onPort x0 x1 s).vault = s.vault :=
  (onPort_moves (m := 512) rfl (Moves.refl _ s) x0 x1).vault rfl
@[simp] theorem onPort_flash (x0 : _) (x1 : _) (s : State) : (onPort x0 x1 s).flash = s.flash :=
  (onPort_moves (m := 512) rfl (Moves.refl _ s) x0 x1).flash rfl
@[simp] theorem onPort_host (x0 : _) (x1 : _) (s : State) : (onPort x0 x1 s).host = s.host :=
  (onPort_moves (m := 512) rfl (Moves.refl _ s) x0 x1).host rfl
@[simp] theorem onPort_slots (x0 : _) (x1 : _) (s : State) : (onPort x0 x1 s).slots = s.slots :=
  (onPort_moves (m := 512) rfl (Moves.refl _ s) x0 x1).slots rfl
@[simp] theorem onPort_regs (x0 : _) (x1 : _) (s : State) : (onPort x0 x1 s).regs = s.regs :=
  (onPort_moves (m := 512) rfl (Moves.refl _ s) x0 x1).regs rfl
@[simp] theorem onPort_icu (x0 : _) (x1 : _) (s : State) : (onPort x0 x1 s).icu = s.icu :=
  (onPort_moves (m := 512) rfl (Moves.refl _ s) x0 x1).icu rfl
@[simp] theorem onPort_trail (x0 : _) (x1 : _) (s : State) : (onPort x0 x1 s).trail = s.trail :=
  (onPort_moves (m := 512) rfl (Moves.refl _ s) x0 x1).trail rfl
@[simp] theorem onPort_fault (x0 : _) (x1 : _) (s : State) : (onPort x0 x1 s).fault = s.fault :=
  (onPort_moves (m := 512) rfl (Moves.refl _ s) x0 x1).fault rfl
@[simp] theorem onPort_perf (x0 : _) (x1 : _) (s : State) : (onPort x0 x1 s).perf = s.perf :=
  (onPort_moves (m := 512) rfl (Moves.refl _ s) x0 x1).perf rfl
@[simp] theorem onPort_pert (x0 : _) (x1 : _) (s : State) : (onPort x0 x1 s).pert = s.pert :=
  (onPort_moves (m := 512) rfl (Moves.refl _ s) x0 x1).pert rfl
@[simp] theorem onPort_sys (x0 : _) (x1 : _) (s : State) : (onPort x0 x1 s).sys = s.sys :=
  (onPort_moves (m := 512) rfl (Moves.refl _ s) x0 x1).sys rfl

@[simp] theorem onWayp_pending (x0 : _) (x1 : _) (s : State) : (onWayp x0 x1 s).pending = s.pending :=
  (onWayp_moves (m := 1024) rfl (Moves.refl _ s) x0 x1).pending
@[simp] theorem onWayp_aon (x0 : _) (x1 : _) (s : State) : (onWayp x0 x1 s).aon = s.aon :=
  (onWayp_moves (m := 1024) rfl (Moves.refl _ s) x0 x1).aon rfl
@[simp] theorem onWayp_time (x0 : _) (x1 : _) (s : State) : (onWayp x0 x1 s).time = s.time :=
  (onWayp_moves (m := 1024) rfl (Moves.refl _ s) x0 x1).time rfl
@[simp] theorem onWayp_cairn (x0 : _) (x1 : _) (s : State) : (onWayp x0 x1 s).cairn = s.cairn :=
  (onWayp_moves (m := 1024) rfl (Moves.refl _ s) x0 x1).cairn rfl
@[simp] theorem onWayp_sign (x0 : _) (x1 : _) (s : State) : (onWayp x0 x1 s).sign = s.sign :=
  (onWayp_moves (m := 1024) rfl (Moves.refl _ s) x0 x1).sign rfl
@[simp] theorem onWayp_guy (x0 : _) (x1 : _) (s : State) : (onWayp x0 x1 s).guy = s.guy :=
  (onWayp_moves (m := 1024) rfl (Moves.refl _ s) x0 x1).guy rfl
@[simp] theorem onWayp_mile (x0 : _) (x1 : _) (s : State) : (onWayp x0 x1 s).mile = s.mile :=
  (onWayp_moves (m := 1024) rfl (Moves.refl _ s) x0 x1).mile rfl
@[simp] theorem onWayp_tdc (x0 : _) (x1 : _) (s : State) : (onWayp x0 x1 s).tdc = s.tdc :=
  (onWayp_moves (m := 1024) rfl (Moves.refl _ s) x0 x1).tdc rfl
@[simp] theorem onWayp_gnss (x0 : _) (x1 : _) (s : State) : (onWayp x0 x1 s).gnss = s.gnss :=
  (onWayp_moves (m := 1024) rfl (Moves.refl _ s) x0 x1).gnss rfl
@[simp] theorem onWayp_port (x0 : _) (x1 : _) (s : State) : (onWayp x0 x1 s).port = s.port :=
  (onWayp_moves (m := 1024) rfl (Moves.refl _ s) x0 x1).port rfl
@[simp] theorem onWayp_serv (x0 : _) (x1 : _) (s : State) : (onWayp x0 x1 s).serv = s.serv :=
  (onWayp_moves (m := 1024) rfl (Moves.refl _ s) x0 x1).serv rfl
@[simp] theorem onWayp_ptp (x0 : _) (x1 : _) (s : State) : (onWayp x0 x1 s).ptp = s.ptp :=
  (onWayp_moves (m := 1024) rfl (Moves.refl _ s) x0 x1).ptp rfl
@[simp] theorem onWayp_foot (x0 : _) (x1 : _) (s : State) : (onWayp x0 x1 s).foot = s.foot :=
  (onWayp_moves (m := 1024) rfl (Moves.refl _ s) x0 x1).foot rfl
@[simp] theorem onWayp_vault (x0 : _) (x1 : _) (s : State) : (onWayp x0 x1 s).vault = s.vault :=
  (onWayp_moves (m := 1024) rfl (Moves.refl _ s) x0 x1).vault rfl
@[simp] theorem onWayp_flash (x0 : _) (x1 : _) (s : State) : (onWayp x0 x1 s).flash = s.flash :=
  (onWayp_moves (m := 1024) rfl (Moves.refl _ s) x0 x1).flash rfl
@[simp] theorem onWayp_host (x0 : _) (x1 : _) (s : State) : (onWayp x0 x1 s).host = s.host :=
  (onWayp_moves (m := 1024) rfl (Moves.refl _ s) x0 x1).host rfl
@[simp] theorem onWayp_slots (x0 : _) (x1 : _) (s : State) : (onWayp x0 x1 s).slots = s.slots :=
  (onWayp_moves (m := 1024) rfl (Moves.refl _ s) x0 x1).slots rfl
@[simp] theorem onWayp_regs (x0 : _) (x1 : _) (s : State) : (onWayp x0 x1 s).regs = s.regs :=
  (onWayp_moves (m := 1024) rfl (Moves.refl _ s) x0 x1).regs rfl
@[simp] theorem onWayp_icu (x0 : _) (x1 : _) (s : State) : (onWayp x0 x1 s).icu = s.icu :=
  (onWayp_moves (m := 1024) rfl (Moves.refl _ s) x0 x1).icu rfl
@[simp] theorem onWayp_trail (x0 : _) (x1 : _) (s : State) : (onWayp x0 x1 s).trail = s.trail :=
  (onWayp_moves (m := 1024) rfl (Moves.refl _ s) x0 x1).trail rfl
@[simp] theorem onWayp_fault (x0 : _) (x1 : _) (s : State) : (onWayp x0 x1 s).fault = s.fault :=
  (onWayp_moves (m := 1024) rfl (Moves.refl _ s) x0 x1).fault rfl
@[simp] theorem onWayp_perf (x0 : _) (x1 : _) (s : State) : (onWayp x0 x1 s).perf = s.perf :=
  (onWayp_moves (m := 1024) rfl (Moves.refl _ s) x0 x1).perf rfl
@[simp] theorem onWayp_pert (x0 : _) (x1 : _) (s : State) : (onWayp x0 x1 s).pert = s.pert :=
  (onWayp_moves (m := 1024) rfl (Moves.refl _ s) x0 x1).pert rfl
@[simp] theorem onWayp_sys (x0 : _) (x1 : _) (s : State) : (onWayp x0 x1 s).sys = s.sys :=
  (onWayp_moves (m := 1024) rfl (Moves.refl _ s) x0 x1).sys rfl

@[simp] theorem onChan_pending (x0 : _) (x1 : _) (s : State) : (onChan x0 x1 s).pending = s.pending :=
  (onChan_moves (m := 256) rfl (Moves.refl _ s) x0 x1).pending
@[simp] theorem onChan_aon (x0 : _) (x1 : _) (s : State) : (onChan x0 x1 s).aon = s.aon :=
  (onChan_moves (m := 256) rfl (Moves.refl _ s) x0 x1).aon rfl
@[simp] theorem onChan_time (x0 : _) (x1 : _) (s : State) : (onChan x0 x1 s).time = s.time :=
  (onChan_moves (m := 256) rfl (Moves.refl _ s) x0 x1).time rfl
@[simp] theorem onChan_cairn (x0 : _) (x1 : _) (s : State) : (onChan x0 x1 s).cairn = s.cairn :=
  (onChan_moves (m := 256) rfl (Moves.refl _ s) x0 x1).cairn rfl
@[simp] theorem onChan_sign (x0 : _) (x1 : _) (s : State) : (onChan x0 x1 s).sign = s.sign :=
  (onChan_moves (m := 256) rfl (Moves.refl _ s) x0 x1).sign rfl
@[simp] theorem onChan_guy (x0 : _) (x1 : _) (s : State) : (onChan x0 x1 s).guy = s.guy :=
  (onChan_moves (m := 256) rfl (Moves.refl _ s) x0 x1).guy rfl
@[simp] theorem onChan_mile (x0 : _) (x1 : _) (s : State) : (onChan x0 x1 s).mile = s.mile :=
  (onChan_moves (m := 256) rfl (Moves.refl _ s) x0 x1).mile rfl
@[simp] theorem onChan_tdc (x0 : _) (x1 : _) (s : State) : (onChan x0 x1 s).tdc = s.tdc :=
  (onChan_moves (m := 256) rfl (Moves.refl _ s) x0 x1).tdc rfl
@[simp] theorem onChan_port (x0 : _) (x1 : _) (s : State) : (onChan x0 x1 s).port = s.port :=
  (onChan_moves (m := 256) rfl (Moves.refl _ s) x0 x1).port rfl
@[simp] theorem onChan_wayp (x0 : _) (x1 : _) (s : State) : (onChan x0 x1 s).wayp = s.wayp :=
  (onChan_moves (m := 256) rfl (Moves.refl _ s) x0 x1).wayp rfl
@[simp] theorem onChan_serv (x0 : _) (x1 : _) (s : State) : (onChan x0 x1 s).serv = s.serv :=
  (onChan_moves (m := 256) rfl (Moves.refl _ s) x0 x1).serv rfl
@[simp] theorem onChan_ptp (x0 : _) (x1 : _) (s : State) : (onChan x0 x1 s).ptp = s.ptp :=
  (onChan_moves (m := 256) rfl (Moves.refl _ s) x0 x1).ptp rfl
@[simp] theorem onChan_foot (x0 : _) (x1 : _) (s : State) : (onChan x0 x1 s).foot = s.foot :=
  (onChan_moves (m := 256) rfl (Moves.refl _ s) x0 x1).foot rfl
@[simp] theorem onChan_vault (x0 : _) (x1 : _) (s : State) : (onChan x0 x1 s).vault = s.vault :=
  (onChan_moves (m := 256) rfl (Moves.refl _ s) x0 x1).vault rfl
@[simp] theorem onChan_flash (x0 : _) (x1 : _) (s : State) : (onChan x0 x1 s).flash = s.flash :=
  (onChan_moves (m := 256) rfl (Moves.refl _ s) x0 x1).flash rfl
@[simp] theorem onChan_host (x0 : _) (x1 : _) (s : State) : (onChan x0 x1 s).host = s.host :=
  (onChan_moves (m := 256) rfl (Moves.refl _ s) x0 x1).host rfl
@[simp] theorem onChan_slots (x0 : _) (x1 : _) (s : State) : (onChan x0 x1 s).slots = s.slots :=
  (onChan_moves (m := 256) rfl (Moves.refl _ s) x0 x1).slots rfl
@[simp] theorem onChan_regs (x0 : _) (x1 : _) (s : State) : (onChan x0 x1 s).regs = s.regs :=
  (onChan_moves (m := 256) rfl (Moves.refl _ s) x0 x1).regs rfl
@[simp] theorem onChan_icu (x0 : _) (x1 : _) (s : State) : (onChan x0 x1 s).icu = s.icu :=
  (onChan_moves (m := 256) rfl (Moves.refl _ s) x0 x1).icu rfl
@[simp] theorem onChan_trail (x0 : _) (x1 : _) (s : State) : (onChan x0 x1 s).trail = s.trail :=
  (onChan_moves (m := 256) rfl (Moves.refl _ s) x0 x1).trail rfl
@[simp] theorem onChan_fault (x0 : _) (x1 : _) (s : State) : (onChan x0 x1 s).fault = s.fault :=
  (onChan_moves (m := 256) rfl (Moves.refl _ s) x0 x1).fault rfl
@[simp] theorem onChan_perf (x0 : _) (x1 : _) (s : State) : (onChan x0 x1 s).perf = s.perf :=
  (onChan_moves (m := 256) rfl (Moves.refl _ s) x0 x1).perf rfl
@[simp] theorem onChan_pert (x0 : _) (x1 : _) (s : State) : (onChan x0 x1 s).pert = s.pert :=
  (onChan_moves (m := 256) rfl (Moves.refl _ s) x0 x1).pert rfl
@[simp] theorem onChan_sys (x0 : _) (x1 : _) (s : State) : (onChan x0 x1 s).sys = s.sys :=
  (onChan_moves (m := 256) rfl (Moves.refl _ s) x0 x1).sys rfl

@[simp] theorem onMbox_pending (x0 : _) (x1 : _) (s : State) : (onMbox x0 x1 s).pending = s.pending :=
  rfl
@[simp] theorem onMbox_aon (x0 : _) (x1 : _) (s : State) : (onMbox x0 x1 s).aon = s.aon :=
  rfl
@[simp] theorem onMbox_time (x0 : _) (x1 : _) (s : State) : (onMbox x0 x1 s).time = s.time :=
  rfl
@[simp] theorem onMbox_cairn (x0 : _) (x1 : _) (s : State) : (onMbox x0 x1 s).cairn = s.cairn :=
  rfl
@[simp] theorem onMbox_sign (x0 : _) (x1 : _) (s : State) : (onMbox x0 x1 s).sign = s.sign :=
  rfl
@[simp] theorem onMbox_guy (x0 : _) (x1 : _) (s : State) : (onMbox x0 x1 s).guy = s.guy :=
  rfl
@[simp] theorem onMbox_mile (x0 : _) (x1 : _) (s : State) : (onMbox x0 x1 s).mile = s.mile :=
  rfl
@[simp] theorem onMbox_tdc (x0 : _) (x1 : _) (s : State) : (onMbox x0 x1 s).tdc = s.tdc :=
  rfl
@[simp] theorem onMbox_gnss (x0 : _) (x1 : _) (s : State) : (onMbox x0 x1 s).gnss = s.gnss :=
  rfl
@[simp] theorem onMbox_port (x0 : _) (x1 : _) (s : State) : (onMbox x0 x1 s).port = s.port :=
  rfl
@[simp] theorem onMbox_wayp (x0 : _) (x1 : _) (s : State) : (onMbox x0 x1 s).wayp = s.wayp :=
  rfl
@[simp] theorem onMbox_serv (x0 : _) (x1 : _) (s : State) : (onMbox x0 x1 s).serv = s.serv :=
  rfl
@[simp] theorem onMbox_ptp (x0 : _) (x1 : _) (s : State) : (onMbox x0 x1 s).ptp = s.ptp :=
  rfl
@[simp] theorem onMbox_foot (x0 : _) (x1 : _) (s : State) : (onMbox x0 x1 s).foot = s.foot :=
  rfl
@[simp] theorem onMbox_vault (x0 : _) (x1 : _) (s : State) : (onMbox x0 x1 s).vault = s.vault :=
  rfl
@[simp] theorem onMbox_flash (x0 : _) (x1 : _) (s : State) : (onMbox x0 x1 s).flash = s.flash :=
  rfl
@[simp] theorem onMbox_slots (x0 : _) (x1 : _) (s : State) : (onMbox x0 x1 s).slots = s.slots :=
  rfl
@[simp] theorem onMbox_regs (x0 : _) (x1 : _) (s : State) : (onMbox x0 x1 s).regs = s.regs :=
  rfl
@[simp] theorem onMbox_icu (x0 : _) (x1 : _) (s : State) : (onMbox x0 x1 s).icu = s.icu :=
  rfl
@[simp] theorem onMbox_trail (x0 : _) (x1 : _) (s : State) : (onMbox x0 x1 s).trail = s.trail :=
  rfl
@[simp] theorem onMbox_fault (x0 : _) (x1 : _) (s : State) : (onMbox x0 x1 s).fault = s.fault :=
  rfl
@[simp] theorem onMbox_perf (x0 : _) (x1 : _) (s : State) : (onMbox x0 x1 s).perf = s.perf :=
  rfl
@[simp] theorem onMbox_pert (x0 : _) (x1 : _) (s : State) : (onMbox x0 x1 s).pert = s.pert :=
  rfl
@[simp] theorem onMbox_sys (x0 : _) (x1 : _) (s : State) : (onMbox x0 x1 s).sys = s.sys :=
  rfl

@[simp] theorem onServ_pending (x0 : _) (s : State) : (onServ x0 s).pending = s.pending :=
  rfl
@[simp] theorem onServ_aon (x0 : _) (s : State) : (onServ x0 s).aon = s.aon :=
  rfl
@[simp] theorem onServ_time (x0 : _) (s : State) : (onServ x0 s).time = s.time :=
  rfl
@[simp] theorem onServ_cairn (x0 : _) (s : State) : (onServ x0 s).cairn = s.cairn :=
  rfl
@[simp] theorem onServ_sign (x0 : _) (s : State) : (onServ x0 s).sign = s.sign :=
  rfl
@[simp] theorem onServ_guy (x0 : _) (s : State) : (onServ x0 s).guy = s.guy :=
  rfl
@[simp] theorem onServ_mile (x0 : _) (s : State) : (onServ x0 s).mile = s.mile :=
  rfl
@[simp] theorem onServ_tdc (x0 : _) (s : State) : (onServ x0 s).tdc = s.tdc :=
  rfl
@[simp] theorem onServ_gnss (x0 : _) (s : State) : (onServ x0 s).gnss = s.gnss :=
  rfl
@[simp] theorem onServ_port (x0 : _) (s : State) : (onServ x0 s).port = s.port :=
  rfl
@[simp] theorem onServ_wayp (x0 : _) (s : State) : (onServ x0 s).wayp = s.wayp :=
  rfl
@[simp] theorem onServ_ptp (x0 : _) (s : State) : (onServ x0 s).ptp = s.ptp :=
  rfl
@[simp] theorem onServ_foot (x0 : _) (s : State) : (onServ x0 s).foot = s.foot :=
  rfl
@[simp] theorem onServ_vault (x0 : _) (s : State) : (onServ x0 s).vault = s.vault :=
  rfl
@[simp] theorem onServ_flash (x0 : _) (s : State) : (onServ x0 s).flash = s.flash :=
  rfl
@[simp] theorem onServ_host (x0 : _) (s : State) : (onServ x0 s).host = s.host :=
  rfl
@[simp] theorem onServ_slots (x0 : _) (s : State) : (onServ x0 s).slots = s.slots :=
  rfl
@[simp] theorem onServ_regs (x0 : _) (s : State) : (onServ x0 s).regs = s.regs :=
  rfl
@[simp] theorem onServ_icu (x0 : _) (s : State) : (onServ x0 s).icu = s.icu :=
  rfl
@[simp] theorem onServ_trail (x0 : _) (s : State) : (onServ x0 s).trail = s.trail :=
  rfl
@[simp] theorem onServ_fault (x0 : _) (s : State) : (onServ x0 s).fault = s.fault :=
  rfl
@[simp] theorem onServ_perf (x0 : _) (s : State) : (onServ x0 s).perf = s.perf :=
  rfl
@[simp] theorem onServ_pert (x0 : _) (s : State) : (onServ x0 s).pert = s.pert :=
  rfl
@[simp] theorem onServ_sys (x0 : _) (s : State) : (onServ x0 s).sys = s.sys :=
  rfl

@[simp] theorem onPtp_pending (x0 : _) (s : State) : (onPtp x0 s).pending = s.pending :=
  rfl
@[simp] theorem onPtp_aon (x0 : _) (s : State) : (onPtp x0 s).aon = s.aon :=
  rfl
@[simp] theorem onPtp_time (x0 : _) (s : State) : (onPtp x0 s).time = s.time :=
  rfl
@[simp] theorem onPtp_cairn (x0 : _) (s : State) : (onPtp x0 s).cairn = s.cairn :=
  rfl
@[simp] theorem onPtp_sign (x0 : _) (s : State) : (onPtp x0 s).sign = s.sign :=
  rfl
@[simp] theorem onPtp_guy (x0 : _) (s : State) : (onPtp x0 s).guy = s.guy :=
  rfl
@[simp] theorem onPtp_mile (x0 : _) (s : State) : (onPtp x0 s).mile = s.mile :=
  rfl
@[simp] theorem onPtp_tdc (x0 : _) (s : State) : (onPtp x0 s).tdc = s.tdc :=
  rfl
@[simp] theorem onPtp_gnss (x0 : _) (s : State) : (onPtp x0 s).gnss = s.gnss :=
  rfl
@[simp] theorem onPtp_port (x0 : _) (s : State) : (onPtp x0 s).port = s.port :=
  rfl
@[simp] theorem onPtp_wayp (x0 : _) (s : State) : (onPtp x0 s).wayp = s.wayp :=
  rfl
@[simp] theorem onPtp_serv (x0 : _) (s : State) : (onPtp x0 s).serv = s.serv :=
  rfl
@[simp] theorem onPtp_foot (x0 : _) (s : State) : (onPtp x0 s).foot = s.foot :=
  rfl
@[simp] theorem onPtp_vault (x0 : _) (s : State) : (onPtp x0 s).vault = s.vault :=
  rfl
@[simp] theorem onPtp_flash (x0 : _) (s : State) : (onPtp x0 s).flash = s.flash :=
  rfl
@[simp] theorem onPtp_host (x0 : _) (s : State) : (onPtp x0 s).host = s.host :=
  rfl
@[simp] theorem onPtp_slots (x0 : _) (s : State) : (onPtp x0 s).slots = s.slots :=
  rfl
@[simp] theorem onPtp_regs (x0 : _) (s : State) : (onPtp x0 s).regs = s.regs :=
  rfl
@[simp] theorem onPtp_icu (x0 : _) (s : State) : (onPtp x0 s).icu = s.icu :=
  rfl
@[simp] theorem onPtp_trail (x0 : _) (s : State) : (onPtp x0 s).trail = s.trail :=
  rfl
@[simp] theorem onPtp_fault (x0 : _) (s : State) : (onPtp x0 s).fault = s.fault :=
  rfl
@[simp] theorem onPtp_perf (x0 : _) (s : State) : (onPtp x0 s).perf = s.perf :=
  rfl
@[simp] theorem onPtp_pert (x0 : _) (s : State) : (onPtp x0 s).pert = s.pert :=
  rfl
@[simp] theorem onPtp_sys (x0 : _) (s : State) : (onPtp x0 s).sys = s.sys :=
  rfl

@[simp] theorem onClient_pending (x0 : _) (x1 : _) (s : State) : (onClient x0 x1 s).pending = s.pending :=
  (onClient_moves (m := 4096) rfl (Moves.refl _ s) x0 x1).pending
@[simp] theorem onClient_aon (x0 : _) (x1 : _) (s : State) : (onClient x0 x1 s).aon = s.aon :=
  (onClient_moves (m := 4096) rfl (Moves.refl _ s) x0 x1).aon rfl
@[simp] theorem onClient_time (x0 : _) (x1 : _) (s : State) : (onClient x0 x1 s).time = s.time :=
  (onClient_moves (m := 4096) rfl (Moves.refl _ s) x0 x1).time rfl
@[simp] theorem onClient_cairn (x0 : _) (x1 : _) (s : State) : (onClient x0 x1 s).cairn = s.cairn :=
  (onClient_moves (m := 4096) rfl (Moves.refl _ s) x0 x1).cairn rfl
@[simp] theorem onClient_sign (x0 : _) (x1 : _) (s : State) : (onClient x0 x1 s).sign = s.sign :=
  (onClient_moves (m := 4096) rfl (Moves.refl _ s) x0 x1).sign rfl
@[simp] theorem onClient_guy (x0 : _) (x1 : _) (s : State) : (onClient x0 x1 s).guy = s.guy :=
  (onClient_moves (m := 4096) rfl (Moves.refl _ s) x0 x1).guy rfl
@[simp] theorem onClient_mile (x0 : _) (x1 : _) (s : State) : (onClient x0 x1 s).mile = s.mile :=
  (onClient_moves (m := 4096) rfl (Moves.refl _ s) x0 x1).mile rfl
@[simp] theorem onClient_tdc (x0 : _) (x1 : _) (s : State) : (onClient x0 x1 s).tdc = s.tdc :=
  (onClient_moves (m := 4096) rfl (Moves.refl _ s) x0 x1).tdc rfl
@[simp] theorem onClient_gnss (x0 : _) (x1 : _) (s : State) : (onClient x0 x1 s).gnss = s.gnss :=
  (onClient_moves (m := 4096) rfl (Moves.refl _ s) x0 x1).gnss rfl
@[simp] theorem onClient_port (x0 : _) (x1 : _) (s : State) : (onClient x0 x1 s).port = s.port :=
  (onClient_moves (m := 4096) rfl (Moves.refl _ s) x0 x1).port rfl
@[simp] theorem onClient_wayp (x0 : _) (x1 : _) (s : State) : (onClient x0 x1 s).wayp = s.wayp :=
  (onClient_moves (m := 4096) rfl (Moves.refl _ s) x0 x1).wayp rfl
@[simp] theorem onClient_serv (x0 : _) (x1 : _) (s : State) : (onClient x0 x1 s).serv = s.serv :=
  (onClient_moves (m := 4096) rfl (Moves.refl _ s) x0 x1).serv rfl
@[simp] theorem onClient_foot (x0 : _) (x1 : _) (s : State) : (onClient x0 x1 s).foot = s.foot :=
  (onClient_moves (m := 4096) rfl (Moves.refl _ s) x0 x1).foot rfl
@[simp] theorem onClient_vault (x0 : _) (x1 : _) (s : State) : (onClient x0 x1 s).vault = s.vault :=
  (onClient_moves (m := 4096) rfl (Moves.refl _ s) x0 x1).vault rfl
@[simp] theorem onClient_flash (x0 : _) (x1 : _) (s : State) : (onClient x0 x1 s).flash = s.flash :=
  (onClient_moves (m := 4096) rfl (Moves.refl _ s) x0 x1).flash rfl
@[simp] theorem onClient_host (x0 : _) (x1 : _) (s : State) : (onClient x0 x1 s).host = s.host :=
  (onClient_moves (m := 4096) rfl (Moves.refl _ s) x0 x1).host rfl
@[simp] theorem onClient_slots (x0 : _) (x1 : _) (s : State) : (onClient x0 x1 s).slots = s.slots :=
  (onClient_moves (m := 4096) rfl (Moves.refl _ s) x0 x1).slots rfl
@[simp] theorem onClient_regs (x0 : _) (x1 : _) (s : State) : (onClient x0 x1 s).regs = s.regs :=
  (onClient_moves (m := 4096) rfl (Moves.refl _ s) x0 x1).regs rfl
@[simp] theorem onClient_icu (x0 : _) (x1 : _) (s : State) : (onClient x0 x1 s).icu = s.icu :=
  (onClient_moves (m := 4096) rfl (Moves.refl _ s) x0 x1).icu rfl
@[simp] theorem onClient_trail (x0 : _) (x1 : _) (s : State) : (onClient x0 x1 s).trail = s.trail :=
  (onClient_moves (m := 4096) rfl (Moves.refl _ s) x0 x1).trail rfl
@[simp] theorem onClient_fault (x0 : _) (x1 : _) (s : State) : (onClient x0 x1 s).fault = s.fault :=
  (onClient_moves (m := 4096) rfl (Moves.refl _ s) x0 x1).fault rfl
@[simp] theorem onClient_perf (x0 : _) (x1 : _) (s : State) : (onClient x0 x1 s).perf = s.perf :=
  (onClient_moves (m := 4096) rfl (Moves.refl _ s) x0 x1).perf rfl
@[simp] theorem onClient_pert (x0 : _) (x1 : _) (s : State) : (onClient x0 x1 s).pert = s.pert :=
  (onClient_moves (m := 4096) rfl (Moves.refl _ s) x0 x1).pert rfl
@[simp] theorem onClient_sys (x0 : _) (x1 : _) (s : State) : (onClient x0 x1 s).sys = s.sys :=
  (onClient_moves (m := 4096) rfl (Moves.refl _ s) x0 x1).sys rfl

@[simp] theorem setKey_pending (x0 : _) (x1 : _) (s : State) : (setKey x0 x1 s).pending = s.pending :=
  (setKey_moves (m := 16384) rfl (Moves.refl _ s) x0 x1).pending
@[simp] theorem setKey_aon (x0 : _) (x1 : _) (s : State) : (setKey x0 x1 s).aon = s.aon :=
  (setKey_moves (m := 16384) rfl (Moves.refl _ s) x0 x1).aon rfl
@[simp] theorem setKey_time (x0 : _) (x1 : _) (s : State) : (setKey x0 x1 s).time = s.time :=
  (setKey_moves (m := 16384) rfl (Moves.refl _ s) x0 x1).time rfl
@[simp] theorem setKey_cairn (x0 : _) (x1 : _) (s : State) : (setKey x0 x1 s).cairn = s.cairn :=
  (setKey_moves (m := 16384) rfl (Moves.refl _ s) x0 x1).cairn rfl
@[simp] theorem setKey_sign (x0 : _) (x1 : _) (s : State) : (setKey x0 x1 s).sign = s.sign :=
  (setKey_moves (m := 16384) rfl (Moves.refl _ s) x0 x1).sign rfl
@[simp] theorem setKey_guy (x0 : _) (x1 : _) (s : State) : (setKey x0 x1 s).guy = s.guy :=
  (setKey_moves (m := 16384) rfl (Moves.refl _ s) x0 x1).guy rfl
@[simp] theorem setKey_mile (x0 : _) (x1 : _) (s : State) : (setKey x0 x1 s).mile = s.mile :=
  (setKey_moves (m := 16384) rfl (Moves.refl _ s) x0 x1).mile rfl
@[simp] theorem setKey_tdc (x0 : _) (x1 : _) (s : State) : (setKey x0 x1 s).tdc = s.tdc :=
  (setKey_moves (m := 16384) rfl (Moves.refl _ s) x0 x1).tdc rfl
@[simp] theorem setKey_gnss (x0 : _) (x1 : _) (s : State) : (setKey x0 x1 s).gnss = s.gnss :=
  (setKey_moves (m := 16384) rfl (Moves.refl _ s) x0 x1).gnss rfl
@[simp] theorem setKey_port (x0 : _) (x1 : _) (s : State) : (setKey x0 x1 s).port = s.port :=
  (setKey_moves (m := 16384) rfl (Moves.refl _ s) x0 x1).port rfl
@[simp] theorem setKey_wayp (x0 : _) (x1 : _) (s : State) : (setKey x0 x1 s).wayp = s.wayp :=
  (setKey_moves (m := 16384) rfl (Moves.refl _ s) x0 x1).wayp rfl
@[simp] theorem setKey_serv (x0 : _) (x1 : _) (s : State) : (setKey x0 x1 s).serv = s.serv :=
  (setKey_moves (m := 16384) rfl (Moves.refl _ s) x0 x1).serv rfl
@[simp] theorem setKey_ptp (x0 : _) (x1 : _) (s : State) : (setKey x0 x1 s).ptp = s.ptp :=
  (setKey_moves (m := 16384) rfl (Moves.refl _ s) x0 x1).ptp rfl
@[simp] theorem setKey_foot (x0 : _) (x1 : _) (s : State) : (setKey x0 x1 s).foot = s.foot :=
  (setKey_moves (m := 16384) rfl (Moves.refl _ s) x0 x1).foot rfl
@[simp] theorem setKey_flash (x0 : _) (x1 : _) (s : State) : (setKey x0 x1 s).flash = s.flash :=
  (setKey_moves (m := 16384) rfl (Moves.refl _ s) x0 x1).flash rfl
@[simp] theorem setKey_host (x0 : _) (x1 : _) (s : State) : (setKey x0 x1 s).host = s.host :=
  (setKey_moves (m := 16384) rfl (Moves.refl _ s) x0 x1).host rfl
@[simp] theorem setKey_slots (x0 : _) (x1 : _) (s : State) : (setKey x0 x1 s).slots = s.slots :=
  (setKey_moves (m := 16384) rfl (Moves.refl _ s) x0 x1).slots rfl
@[simp] theorem setKey_regs (x0 : _) (x1 : _) (s : State) : (setKey x0 x1 s).regs = s.regs :=
  (setKey_moves (m := 16384) rfl (Moves.refl _ s) x0 x1).regs rfl
@[simp] theorem setKey_icu (x0 : _) (x1 : _) (s : State) : (setKey x0 x1 s).icu = s.icu :=
  (setKey_moves (m := 16384) rfl (Moves.refl _ s) x0 x1).icu rfl
@[simp] theorem setKey_trail (x0 : _) (x1 : _) (s : State) : (setKey x0 x1 s).trail = s.trail :=
  (setKey_moves (m := 16384) rfl (Moves.refl _ s) x0 x1).trail rfl
@[simp] theorem setKey_fault (x0 : _) (x1 : _) (s : State) : (setKey x0 x1 s).fault = s.fault :=
  (setKey_moves (m := 16384) rfl (Moves.refl _ s) x0 x1).fault rfl
@[simp] theorem setKey_perf (x0 : _) (x1 : _) (s : State) : (setKey x0 x1 s).perf = s.perf :=
  (setKey_moves (m := 16384) rfl (Moves.refl _ s) x0 x1).perf rfl
@[simp] theorem setKey_pert (x0 : _) (x1 : _) (s : State) : (setKey x0 x1 s).pert = s.pert :=
  (setKey_moves (m := 16384) rfl (Moves.refl _ s) x0 x1).pert rfl
@[simp] theorem setKey_sys (x0 : _) (x1 : _) (s : State) : (setKey x0 x1 s).sys = s.sys :=
  (setKey_moves (m := 16384) rfl (Moves.refl _ s) x0 x1).sys rfl

@[simp] theorem countReg_pending (x0 : _) (x1 : _) (x2 : _) (s : State) : (countReg x0 x1 x2 s).pending = s.pending :=
  (countReg_moves (m := 4194304) rfl (Moves.refl _ s) x0 x1 x2).pending
@[simp] theorem countReg_aon (x0 : _) (x1 : _) (x2 : _) (s : State) : (countReg x0 x1 x2 s).aon = s.aon :=
  (countReg_moves (m := 4194304) rfl (Moves.refl _ s) x0 x1 x2).aon rfl
@[simp] theorem countReg_time (x0 : _) (x1 : _) (x2 : _) (s : State) : (countReg x0 x1 x2 s).time = s.time :=
  (countReg_moves (m := 4194304) rfl (Moves.refl _ s) x0 x1 x2).time rfl
@[simp] theorem countReg_cairn (x0 : _) (x1 : _) (x2 : _) (s : State) : (countReg x0 x1 x2 s).cairn = s.cairn :=
  (countReg_moves (m := 4194304) rfl (Moves.refl _ s) x0 x1 x2).cairn rfl
@[simp] theorem countReg_sign (x0 : _) (x1 : _) (x2 : _) (s : State) : (countReg x0 x1 x2 s).sign = s.sign :=
  (countReg_moves (m := 4194304) rfl (Moves.refl _ s) x0 x1 x2).sign rfl
@[simp] theorem countReg_guy (x0 : _) (x1 : _) (x2 : _) (s : State) : (countReg x0 x1 x2 s).guy = s.guy :=
  (countReg_moves (m := 4194304) rfl (Moves.refl _ s) x0 x1 x2).guy rfl
@[simp] theorem countReg_mile (x0 : _) (x1 : _) (x2 : _) (s : State) : (countReg x0 x1 x2 s).mile = s.mile :=
  (countReg_moves (m := 4194304) rfl (Moves.refl _ s) x0 x1 x2).mile rfl
@[simp] theorem countReg_tdc (x0 : _) (x1 : _) (x2 : _) (s : State) : (countReg x0 x1 x2 s).tdc = s.tdc :=
  (countReg_moves (m := 4194304) rfl (Moves.refl _ s) x0 x1 x2).tdc rfl
@[simp] theorem countReg_gnss (x0 : _) (x1 : _) (x2 : _) (s : State) : (countReg x0 x1 x2 s).gnss = s.gnss :=
  (countReg_moves (m := 4194304) rfl (Moves.refl _ s) x0 x1 x2).gnss rfl
@[simp] theorem countReg_port (x0 : _) (x1 : _) (x2 : _) (s : State) : (countReg x0 x1 x2 s).port = s.port :=
  (countReg_moves (m := 4194304) rfl (Moves.refl _ s) x0 x1 x2).port rfl
@[simp] theorem countReg_wayp (x0 : _) (x1 : _) (x2 : _) (s : State) : (countReg x0 x1 x2 s).wayp = s.wayp :=
  (countReg_moves (m := 4194304) rfl (Moves.refl _ s) x0 x1 x2).wayp rfl
@[simp] theorem countReg_serv (x0 : _) (x1 : _) (x2 : _) (s : State) : (countReg x0 x1 x2 s).serv = s.serv :=
  (countReg_moves (m := 4194304) rfl (Moves.refl _ s) x0 x1 x2).serv rfl
@[simp] theorem countReg_ptp (x0 : _) (x1 : _) (x2 : _) (s : State) : (countReg x0 x1 x2 s).ptp = s.ptp :=
  (countReg_moves (m := 4194304) rfl (Moves.refl _ s) x0 x1 x2).ptp rfl
@[simp] theorem countReg_foot (x0 : _) (x1 : _) (x2 : _) (s : State) : (countReg x0 x1 x2 s).foot = s.foot :=
  (countReg_moves (m := 4194304) rfl (Moves.refl _ s) x0 x1 x2).foot rfl
@[simp] theorem countReg_vault (x0 : _) (x1 : _) (x2 : _) (s : State) : (countReg x0 x1 x2 s).vault = s.vault :=
  (countReg_moves (m := 4194304) rfl (Moves.refl _ s) x0 x1 x2).vault rfl
@[simp] theorem countReg_flash (x0 : _) (x1 : _) (x2 : _) (s : State) : (countReg x0 x1 x2 s).flash = s.flash :=
  (countReg_moves (m := 4194304) rfl (Moves.refl _ s) x0 x1 x2).flash rfl
@[simp] theorem countReg_host (x0 : _) (x1 : _) (x2 : _) (s : State) : (countReg x0 x1 x2 s).host = s.host :=
  (countReg_moves (m := 4194304) rfl (Moves.refl _ s) x0 x1 x2).host rfl
@[simp] theorem countReg_slots (x0 : _) (x1 : _) (x2 : _) (s : State) : (countReg x0 x1 x2 s).slots = s.slots :=
  (countReg_moves (m := 4194304) rfl (Moves.refl _ s) x0 x1 x2).slots rfl
@[simp] theorem countReg_regs (x0 : _) (x1 : _) (x2 : _) (s : State) : (countReg x0 x1 x2 s).regs = s.regs :=
  (countReg_moves (m := 4194304) rfl (Moves.refl _ s) x0 x1 x2).regs rfl
@[simp] theorem countReg_icu (x0 : _) (x1 : _) (x2 : _) (s : State) : (countReg x0 x1 x2 s).icu = s.icu :=
  (countReg_moves (m := 4194304) rfl (Moves.refl _ s) x0 x1 x2).icu rfl
@[simp] theorem countReg_trail (x0 : _) (x1 : _) (x2 : _) (s : State) : (countReg x0 x1 x2 s).trail = s.trail :=
  (countReg_moves (m := 4194304) rfl (Moves.refl _ s) x0 x1 x2).trail rfl
@[simp] theorem countReg_fault (x0 : _) (x1 : _) (x2 : _) (s : State) : (countReg x0 x1 x2 s).fault = s.fault :=
  (countReg_moves (m := 4194304) rfl (Moves.refl _ s) x0 x1 x2).fault rfl
@[simp] theorem countReg_pert (x0 : _) (x1 : _) (x2 : _) (s : State) : (countReg x0 x1 x2 s).pert = s.pert :=
  (countReg_moves (m := 4194304) rfl (Moves.refl _ s) x0 x1 x2).pert rfl
@[simp] theorem countReg_sys (x0 : _) (x1 : _) (x2 : _) (s : State) : (countReg x0 x1 x2 s).sys = s.sys :=
  (countReg_moves (m := 4194304) rfl (Moves.refl _ s) x0 x1 x2).sys rfl

@[simp] theorem give_pending (x0 : _) (x1 : _) (s : State) : (give x0 x1 s).pending = s.pending :=
  (give_moves (m := 65536) rfl (Moves.refl _ s) x0 x1).pending
@[simp] theorem give_aon (x0 : _) (x1 : _) (s : State) : (give x0 x1 s).aon = s.aon :=
  (give_moves (m := 65536) rfl (Moves.refl _ s) x0 x1).aon rfl
@[simp] theorem give_time (x0 : _) (x1 : _) (s : State) : (give x0 x1 s).time = s.time :=
  (give_moves (m := 65536) rfl (Moves.refl _ s) x0 x1).time rfl
@[simp] theorem give_cairn (x0 : _) (x1 : _) (s : State) : (give x0 x1 s).cairn = s.cairn :=
  (give_moves (m := 65536) rfl (Moves.refl _ s) x0 x1).cairn rfl
@[simp] theorem give_sign (x0 : _) (x1 : _) (s : State) : (give x0 x1 s).sign = s.sign :=
  (give_moves (m := 65536) rfl (Moves.refl _ s) x0 x1).sign rfl
@[simp] theorem give_guy (x0 : _) (x1 : _) (s : State) : (give x0 x1 s).guy = s.guy :=
  (give_moves (m := 65536) rfl (Moves.refl _ s) x0 x1).guy rfl
@[simp] theorem give_mile (x0 : _) (x1 : _) (s : State) : (give x0 x1 s).mile = s.mile :=
  (give_moves (m := 65536) rfl (Moves.refl _ s) x0 x1).mile rfl
@[simp] theorem give_tdc (x0 : _) (x1 : _) (s : State) : (give x0 x1 s).tdc = s.tdc :=
  (give_moves (m := 65536) rfl (Moves.refl _ s) x0 x1).tdc rfl
@[simp] theorem give_gnss (x0 : _) (x1 : _) (s : State) : (give x0 x1 s).gnss = s.gnss :=
  (give_moves (m := 65536) rfl (Moves.refl _ s) x0 x1).gnss rfl
@[simp] theorem give_port (x0 : _) (x1 : _) (s : State) : (give x0 x1 s).port = s.port :=
  (give_moves (m := 65536) rfl (Moves.refl _ s) x0 x1).port rfl
@[simp] theorem give_wayp (x0 : _) (x1 : _) (s : State) : (give x0 x1 s).wayp = s.wayp :=
  (give_moves (m := 65536) rfl (Moves.refl _ s) x0 x1).wayp rfl
@[simp] theorem give_serv (x0 : _) (x1 : _) (s : State) : (give x0 x1 s).serv = s.serv :=
  (give_moves (m := 65536) rfl (Moves.refl _ s) x0 x1).serv rfl
@[simp] theorem give_ptp (x0 : _) (x1 : _) (s : State) : (give x0 x1 s).ptp = s.ptp :=
  (give_moves (m := 65536) rfl (Moves.refl _ s) x0 x1).ptp rfl
@[simp] theorem give_foot (x0 : _) (x1 : _) (s : State) : (give x0 x1 s).foot = s.foot :=
  (give_moves (m := 65536) rfl (Moves.refl _ s) x0 x1).foot rfl
@[simp] theorem give_vault (x0 : _) (x1 : _) (s : State) : (give x0 x1 s).vault = s.vault :=
  (give_moves (m := 65536) rfl (Moves.refl _ s) x0 x1).vault rfl
@[simp] theorem give_flash (x0 : _) (x1 : _) (s : State) : (give x0 x1 s).flash = s.flash :=
  (give_moves (m := 65536) rfl (Moves.refl _ s) x0 x1).flash rfl
@[simp] theorem give_slots (x0 : _) (x1 : _) (s : State) : (give x0 x1 s).slots = s.slots :=
  (give_moves (m := 65536) rfl (Moves.refl _ s) x0 x1).slots rfl
@[simp] theorem give_regs (x0 : _) (x1 : _) (s : State) : (give x0 x1 s).regs = s.regs :=
  (give_moves (m := 65536) rfl (Moves.refl _ s) x0 x1).regs rfl
@[simp] theorem give_icu (x0 : _) (x1 : _) (s : State) : (give x0 x1 s).icu = s.icu :=
  (give_moves (m := 65536) rfl (Moves.refl _ s) x0 x1).icu rfl
@[simp] theorem give_trail (x0 : _) (x1 : _) (s : State) : (give x0 x1 s).trail = s.trail :=
  (give_moves (m := 65536) rfl (Moves.refl _ s) x0 x1).trail rfl
@[simp] theorem give_fault (x0 : _) (x1 : _) (s : State) : (give x0 x1 s).fault = s.fault :=
  (give_moves (m := 65536) rfl (Moves.refl _ s) x0 x1).fault rfl
@[simp] theorem give_perf (x0 : _) (x1 : _) (s : State) : (give x0 x1 s).perf = s.perf :=
  (give_moves (m := 65536) rfl (Moves.refl _ s) x0 x1).perf rfl
@[simp] theorem give_pert (x0 : _) (x1 : _) (s : State) : (give x0 x1 s).pert = s.pert :=
  (give_moves (m := 65536) rfl (Moves.refl _ s) x0 x1).pert rfl
@[simp] theorem give_sys (x0 : _) (x1 : _) (s : State) : (give x0 x1 s).sys = s.sys :=
  (give_moves (m := 65536) rfl (Moves.refl _ s) x0 x1).sys rfl

@[simp] theorem denyAccess_pending (x0 : _) (x1 : _) (x2 : _) (s : State) : (denyAccess x0 x1 x2 s).pending = s.pending :=
  (denyAccess_moves (m := 2031616) rfl (Moves.refl _ s) x0 x1 x2).pending
@[simp] theorem denyAccess_aon (x0 : _) (x1 : _) (x2 : _) (s : State) : (denyAccess x0 x1 x2 s).aon = s.aon :=
  (denyAccess_moves (m := 2031616) rfl (Moves.refl _ s) x0 x1 x2).aon rfl
@[simp] theorem denyAccess_time (x0 : _) (x1 : _) (x2 : _) (s : State) : (denyAccess x0 x1 x2 s).time = s.time :=
  (denyAccess_moves (m := 2031616) rfl (Moves.refl _ s) x0 x1 x2).time rfl
@[simp] theorem denyAccess_cairn (x0 : _) (x1 : _) (x2 : _) (s : State) : (denyAccess x0 x1 x2 s).cairn = s.cairn :=
  (denyAccess_moves (m := 2031616) rfl (Moves.refl _ s) x0 x1 x2).cairn rfl
@[simp] theorem denyAccess_sign (x0 : _) (x1 : _) (x2 : _) (s : State) : (denyAccess x0 x1 x2 s).sign = s.sign :=
  (denyAccess_moves (m := 2031616) rfl (Moves.refl _ s) x0 x1 x2).sign rfl
@[simp] theorem denyAccess_guy (x0 : _) (x1 : _) (x2 : _) (s : State) : (denyAccess x0 x1 x2 s).guy = s.guy :=
  (denyAccess_moves (m := 2031616) rfl (Moves.refl _ s) x0 x1 x2).guy rfl
@[simp] theorem denyAccess_mile (x0 : _) (x1 : _) (x2 : _) (s : State) : (denyAccess x0 x1 x2 s).mile = s.mile :=
  (denyAccess_moves (m := 2031616) rfl (Moves.refl _ s) x0 x1 x2).mile rfl
@[simp] theorem denyAccess_tdc (x0 : _) (x1 : _) (x2 : _) (s : State) : (denyAccess x0 x1 x2 s).tdc = s.tdc :=
  (denyAccess_moves (m := 2031616) rfl (Moves.refl _ s) x0 x1 x2).tdc rfl
@[simp] theorem denyAccess_gnss (x0 : _) (x1 : _) (x2 : _) (s : State) : (denyAccess x0 x1 x2 s).gnss = s.gnss :=
  (denyAccess_moves (m := 2031616) rfl (Moves.refl _ s) x0 x1 x2).gnss rfl
@[simp] theorem denyAccess_port (x0 : _) (x1 : _) (x2 : _) (s : State) : (denyAccess x0 x1 x2 s).port = s.port :=
  (denyAccess_moves (m := 2031616) rfl (Moves.refl _ s) x0 x1 x2).port rfl
@[simp] theorem denyAccess_wayp (x0 : _) (x1 : _) (x2 : _) (s : State) : (denyAccess x0 x1 x2 s).wayp = s.wayp :=
  (denyAccess_moves (m := 2031616) rfl (Moves.refl _ s) x0 x1 x2).wayp rfl
@[simp] theorem denyAccess_serv (x0 : _) (x1 : _) (x2 : _) (s : State) : (denyAccess x0 x1 x2 s).serv = s.serv :=
  (denyAccess_moves (m := 2031616) rfl (Moves.refl _ s) x0 x1 x2).serv rfl
@[simp] theorem denyAccess_ptp (x0 : _) (x1 : _) (x2 : _) (s : State) : (denyAccess x0 x1 x2 s).ptp = s.ptp :=
  (denyAccess_moves (m := 2031616) rfl (Moves.refl _ s) x0 x1 x2).ptp rfl
@[simp] theorem denyAccess_foot (x0 : _) (x1 : _) (x2 : _) (s : State) : (denyAccess x0 x1 x2 s).foot = s.foot :=
  (denyAccess_moves (m := 2031616) rfl (Moves.refl _ s) x0 x1 x2).foot rfl
@[simp] theorem denyAccess_vault (x0 : _) (x1 : _) (x2 : _) (s : State) : (denyAccess x0 x1 x2 s).vault = s.vault :=
  (denyAccess_moves (m := 2031616) rfl (Moves.refl _ s) x0 x1 x2).vault rfl
@[simp] theorem denyAccess_flash (x0 : _) (x1 : _) (x2 : _) (s : State) : (denyAccess x0 x1 x2 s).flash = s.flash :=
  (denyAccess_moves (m := 2031616) rfl (Moves.refl _ s) x0 x1 x2).flash rfl
@[simp] theorem denyAccess_fault (x0 : _) (x1 : _) (x2 : _) (s : State) : (denyAccess x0 x1 x2 s).fault = s.fault :=
  (denyAccess_moves (m := 2031616) rfl (Moves.refl _ s) x0 x1 x2).fault rfl
@[simp] theorem denyAccess_perf (x0 : _) (x1 : _) (x2 : _) (s : State) : (denyAccess x0 x1 x2 s).perf = s.perf :=
  (denyAccess_moves (m := 2031616) rfl (Moves.refl _ s) x0 x1 x2).perf rfl
@[simp] theorem denyAccess_pert (x0 : _) (x1 : _) (x2 : _) (s : State) : (denyAccess x0 x1 x2 s).pert = s.pert :=
  (denyAccess_moves (m := 2031616) rfl (Moves.refl _ s) x0 x1 x2).pert rfl
@[simp] theorem denyAccess_sys (x0 : _) (x1 : _) (x2 : _) (s : State) : (denyAccess x0 x1 x2 s).sys = s.sys :=
  (denyAccess_moves (m := 2031616) rfl (Moves.refl _ s) x0 x1 x2).sys rfl

@[simp] theorem lockViol_pending (x0 : _) (x1 : _) (x2 : _) (s : State) : (lockViol x0 x1 x2 s).pending = s.pending :=
  (lockViol_moves (m := 25116250) rfl (Moves.refl _ s) x0 x1 x2).pending
@[simp] theorem lockViol_time (x0 : _) (x1 : _) (x2 : _) (s : State) : (lockViol x0 x1 x2 s).time = s.time :=
  (lockViol_moves (m := 25116250) rfl (Moves.refl _ s) x0 x1 x2).time rfl
@[simp] theorem lockViol_guy (x0 : _) (x1 : _) (x2 : _) (s : State) : (lockViol x0 x1 x2 s).guy = s.guy :=
  (lockViol_moves (m := 25116250) rfl (Moves.refl _ s) x0 x1 x2).guy rfl
@[simp] theorem lockViol_tdc (x0 : _) (x1 : _) (x2 : _) (s : State) : (lockViol x0 x1 x2 s).tdc = s.tdc :=
  (lockViol_moves (m := 25116250) rfl (Moves.refl _ s) x0 x1 x2).tdc rfl
@[simp] theorem lockViol_gnss (x0 : _) (x1 : _) (x2 : _) (s : State) : (lockViol x0 x1 x2 s).gnss = s.gnss :=
  (lockViol_moves (m := 25116250) rfl (Moves.refl _ s) x0 x1 x2).gnss rfl
@[simp] theorem lockViol_vault (x0 : _) (x1 : _) (x2 : _) (s : State) : (lockViol x0 x1 x2 s).vault = s.vault :=
  (lockViol_moves (m := 25116250) rfl (Moves.refl _ s) x0 x1 x2).vault rfl
@[simp] theorem lockViol_flash (x0 : _) (x1 : _) (x2 : _) (s : State) : (lockViol x0 x1 x2 s).flash = s.flash :=
  (lockViol_moves (m := 25116250) rfl (Moves.refl _ s) x0 x1 x2).flash rfl
@[simp] theorem lockViol_pert (x0 : _) (x1 : _) (x2 : _) (s : State) : (lockViol x0 x1 x2 s).pert = s.pert :=
  (lockViol_moves (m := 25116250) rfl (Moves.refl _ s) x0 x1 x2).pert rfl

@[simp] theorem atTick_pending (x0 : _) (s : State) : (atTick x0 s).pending = s.pending :=
  (atTick_moves (m := 4) rfl (Moves.refl _ s) x0).pending
@[simp] theorem atTick_aon (x0 : _) (s : State) : (atTick x0 s).aon = s.aon :=
  (atTick_moves (m := 4) rfl (Moves.refl _ s) x0).aon rfl
@[simp] theorem atTick_cairn (x0 : _) (s : State) : (atTick x0 s).cairn = s.cairn :=
  (atTick_moves (m := 4) rfl (Moves.refl _ s) x0).cairn rfl
@[simp] theorem atTick_sign (x0 : _) (s : State) : (atTick x0 s).sign = s.sign :=
  (atTick_moves (m := 4) rfl (Moves.refl _ s) x0).sign rfl
@[simp] theorem atTick_guy (x0 : _) (s : State) : (atTick x0 s).guy = s.guy :=
  (atTick_moves (m := 4) rfl (Moves.refl _ s) x0).guy rfl
@[simp] theorem atTick_mile (x0 : _) (s : State) : (atTick x0 s).mile = s.mile :=
  (atTick_moves (m := 4) rfl (Moves.refl _ s) x0).mile rfl
@[simp] theorem atTick_tdc (x0 : _) (s : State) : (atTick x0 s).tdc = s.tdc :=
  (atTick_moves (m := 4) rfl (Moves.refl _ s) x0).tdc rfl
@[simp] theorem atTick_gnss (x0 : _) (s : State) : (atTick x0 s).gnss = s.gnss :=
  (atTick_moves (m := 4) rfl (Moves.refl _ s) x0).gnss rfl
@[simp] theorem atTick_port (x0 : _) (s : State) : (atTick x0 s).port = s.port :=
  (atTick_moves (m := 4) rfl (Moves.refl _ s) x0).port rfl
@[simp] theorem atTick_wayp (x0 : _) (s : State) : (atTick x0 s).wayp = s.wayp :=
  (atTick_moves (m := 4) rfl (Moves.refl _ s) x0).wayp rfl
@[simp] theorem atTick_serv (x0 : _) (s : State) : (atTick x0 s).serv = s.serv :=
  (atTick_moves (m := 4) rfl (Moves.refl _ s) x0).serv rfl
@[simp] theorem atTick_ptp (x0 : _) (s : State) : (atTick x0 s).ptp = s.ptp :=
  (atTick_moves (m := 4) rfl (Moves.refl _ s) x0).ptp rfl
@[simp] theorem atTick_foot (x0 : _) (s : State) : (atTick x0 s).foot = s.foot :=
  (atTick_moves (m := 4) rfl (Moves.refl _ s) x0).foot rfl
@[simp] theorem atTick_vault (x0 : _) (s : State) : (atTick x0 s).vault = s.vault :=
  (atTick_moves (m := 4) rfl (Moves.refl _ s) x0).vault rfl
@[simp] theorem atTick_flash (x0 : _) (s : State) : (atTick x0 s).flash = s.flash :=
  (atTick_moves (m := 4) rfl (Moves.refl _ s) x0).flash rfl
@[simp] theorem atTick_host (x0 : _) (s : State) : (atTick x0 s).host = s.host :=
  (atTick_moves (m := 4) rfl (Moves.refl _ s) x0).host rfl
@[simp] theorem atTick_slots (x0 : _) (s : State) : (atTick x0 s).slots = s.slots :=
  (atTick_moves (m := 4) rfl (Moves.refl _ s) x0).slots rfl
@[simp] theorem atTick_regs (x0 : _) (s : State) : (atTick x0 s).regs = s.regs :=
  (atTick_moves (m := 4) rfl (Moves.refl _ s) x0).regs rfl
@[simp] theorem atTick_icu (x0 : _) (s : State) : (atTick x0 s).icu = s.icu :=
  (atTick_moves (m := 4) rfl (Moves.refl _ s) x0).icu rfl
@[simp] theorem atTick_trail (x0 : _) (s : State) : (atTick x0 s).trail = s.trail :=
  (atTick_moves (m := 4) rfl (Moves.refl _ s) x0).trail rfl
@[simp] theorem atTick_fault (x0 : _) (s : State) : (atTick x0 s).fault = s.fault :=
  (atTick_moves (m := 4) rfl (Moves.refl _ s) x0).fault rfl
@[simp] theorem atTick_perf (x0 : _) (s : State) : (atTick x0 s).perf = s.perf :=
  (atTick_moves (m := 4) rfl (Moves.refl _ s) x0).perf rfl
@[simp] theorem atTick_pert (x0 : _) (s : State) : (atTick x0 s).pert = s.pert :=
  (atTick_moves (m := 4) rfl (Moves.refl _ s) x0).pert rfl
@[simp] theorem atTick_sys (x0 : _) (s : State) : (atTick x0 s).sys = s.sys :=
  (atTick_moves (m := 4) rfl (Moves.refl _ s) x0).sys rfl

end Sys2Proof.Laws
end

