-- ==== Sys2Proof/WellFormed.lean ====
section
/-!
DEFINITION. Which commands can reach the block at all: the ranges an operand's type does not already hold. A command that
is not well formed is one no sender can send; the machine still has a total meaning for it.
-/
namespace Sys2Proof

/-- A string of bytes of one TODIN message (04 R74). -/
def todWf (ms : Nat) (bytes : List Byte) : Bool := decide (ms ≤ 999) && decide (bytes.length = 20)

/-- A temperature the 16-bit field can hold, 0.01 degC (20 SYS_TEMP). -/
def tempWf (t : Int) : Bool := decide (-32768 ≤ t) && decide (t ≤ 32767)

/-- A frame fits the longest MAX_FRAME (11 R229). -/
def rxWf (f : RxFrame) : Bool := decide (f.len ≤ 9600) && decide (f.vlans.length ≤ 2)

/-- Operand ranges. -/
def Instr.wf : Instr → Bool
  | .oscMainCheck khz => decide (khz < 2 ^ 20)
  | .todinMessage _ ms bytes => todWf ms bytes
  | .tempSample (some t) => tempWf t
  | .gnssSpiDone rx => decide (rx.length ≤ 64)
  | .frameReceive f => rxWf f
  | .hostSpiWrite _ data _ => decide (data.length ≤ 1024)
  | .hostSpiRead _ n _ => decide (n ≤ 1024)
  | .smbusBlockWrite data _ => decide (data.length ≤ 32)
  | .icpFwWrite _ a => decide (a.data.length ≤ 65527)
  | .icpIdCertSet _ _ cert _ => decide (cert.length ≤ 65531)
  | .icpPtpGrantLoad _ _ recs _ => decide (recs.length ≤ 65531 / 32)
  | _ => true

end Sys2Proof
end

