-- ==== Sys2Proof/Tests/Slice0.lean ====
section
/-!
SUPPORT. For every statement that assumes something, a state and operands that meet all it assumes, clause by clause, at a
boundary where a clause has a range; a term of every kind that WellFormed refuses; and a few values worked out by hand from the
spec's own formulas and tables.
-/
namespace Sys2Proof.Tests
open Sys2Proof Sys2Proof.Machine Sys2Proof.Claims

/-- A command of slot 0, the Owner. -/
def c0 : CmdRef := {}

/-- A command of a slot without a role. -/
def c2 : CmdRef := { slot := 2 }

/-- The block at work in a mode: every domain powered, slot 0 the Owner on PF0, slot 1 an Operator on SPI, slot 2 bound to SMBus without
a role, rings open, root secret and key store there. -/
def wMode (m : Mode) : State := {
  aon := { bank := 0, bootStep := 9, pwrOn := 0x3FF, locked := true, oscPresent := true, oscMHz := 10 }
  vault := { rootOk := true, enrolled := true, storeLoaded := true, rngOk := true, ecdsaOk := true, confirmed := true }
  host := { ready := true, pcieUp := true, perst := false, mbox := Vector.replicate 8 { en := true, cplSize := 14 }
            pf := Vector.replicate 8 { busMaster := true } }
  slots := { s := #v[{ role := .owner, bind := some 0 }, { role := .operator, bind := some 8 }, { bind := some 9 }, {}, {}, {}, {}, {}] }
  sys := { mode := m, cause := 0x15, mgmtFwRunning := true, kicked := true } }

/-- In ACQUIRE. -/
def wAcq : State := wMode .acquire
/-- In PROVISION. -/
def wProv : State := wMode .provision
/-- In SERVE. -/
def wServe : State := wMode .serve
/-- In STANDBY. -/
def wStandby : State := wMode .standby
/-- In QUIESCE. -/
def wQuiesce : State := wMode .quiesce

/-- OSC_MAIN found, Ridgepole not yet locked. -/
def wOsc : State := { State.reset with aon := { State.reset.aon with oscPresent := true, oscMHz := 10, bootStep := 2 } }

/-- Ridgepole locked, Trailhead about to start. -/
def wTrail : State := { wOsc with aon := { wOsc.aon with locked := true, pwrOn := 0x20F, bootStep := 3 } }

/-- In PROVISION with a key of slot 0 in every place of the key store. -/
def wKeyed : State := { wProv with vault := { wProv.vault with keys := Vector.replicate 64 { used := true } } }

/-- In ACQUIRE with a CURRENT key of slot 0 in every place of the key store. -/
def wKeyed2 : State := { wAcq with vault := { wAcq.vault with keys := Vector.replicate 64 { used := true, state := .current } } }

/-- A frame of 64 bytes with nothing in it the device answers. -/
def wFrame : RxFrame := {
  port := 0, len := 64, fcsOk := true, dmac := 0, smac := 0, vlans := [], prio := 0, fill := 0, hostCi := 0, buf := 0, off := 0
  phase := 0, octet := 0, gearbox := 0, fecPos := 0, body := .other }

/-- An ESMC PDU without a QL TLV (11 R241). -/
def wPdu : EsmcPdu := { subtype := 0x0A, oui := 0x0019A7, itu := 1, version := 1, ssm := none, essm := none }

/-- A ToD frame without content. -/
def wTod : List Byte :=
  [0x5A, 0xA5, 0x01, 20] ++ List.replicate 14 0 ++ le 2 (crc16 ([0x5A, 0xA5, 0x01, 20] ++ List.replicate 14 0))

/-- What `Obligations.StepRunsFront` assumes is met, clause by clause. -/
theorem witness_stepRunsFront :
    (∃ (s : State), s.pending = []) :=
  ⟨State.reset, by decide⟩

/-- What `Obligations.ResetState` assumes is met, clause by clause. -/
theorem witness_resetState :
    (∃ (i : Fin 8), i ≠ 0) :=
  ⟨7, by decide⟩

/-- What `Obligations.ResetSources` assumes is met, clause by clause. -/
theorem witness_resetSources :
    (∃ (s : State), s.sys.resetArmed = true) ∧
    (∃ (s : State), imageRuns s = true ∧ s.vault.confirmed = true) :=
  ⟨⟨{ wAcq with sys := { wAcq.sys with resetArmed := true } }, by decide⟩,
  ⟨wAcq, by decide⟩⟩

/-- What `Obligations.StartUp` assumes is met, clause by clause. -/
theorem witness_startUp :
    (∃ (s : State) (khz : Nat) (f : Nat), s.aon.locked = false ∧ f ∈ [10, 20, 25, 40, 50] ∧ 990 * f ≤ khz ∧ khz ≤ 1010 * f) ∧
    (∃ (s : State), s.aon.locked = false ∧ s.aon.oscPresent = true ∧ s.fault.real.getLsbD 0 = false) ∧
    (∃ (s : State), s.aon.locked = true ∧ s.aon.bootStep = 3 ∧ s.sys.mode = .boot ∧ powered s 2 = true ∧ s.vault.enrolled = false) ∧
    (∃ (s : State), s.aon.locked = true ∧ s.aon.bootStep = 3 ∧ s.sys.mode = .boot ∧ powered s 2 = true ∧ s.vault.enrolled = true) ∧
    (∃ (s : State), imageRuns s = true ∧ s.aon.bootStep = 7 ∧ s.sys.mode = .boot ∧ s.vault.rootOk = false ∧ s.sys.fatalPending = false) :=
  ⟨⟨State.reset, 50500, 50, by decide⟩,
  ⟨wOsc, by decide⟩,
  ⟨wTrail, by decide⟩,
  ⟨{ wTrail with vault := { wTrail.vault with enrolled := true } }, by decide⟩,
  ⟨{ wAcq with aon := { wAcq.aon with bootStep := 7 }, sys := { wAcq.sys with mode := .boot }, vault := { wAcq.vault with rootOk := false } }, by decide⟩⟩

/-- What `Obligations.ModeCommands` assumes is met, clause by clause. -/
theorem witness_modeCommands :
    (∃ (c : CmdRef) (s : State), Ready c 0x110 8 s) ∧
    (∃ (c : CmdRef) (s : State), Ready c 0x111 0 s ∧ s.aon.provN = true ∧ (∀ p : Fin 4, calReady s p = true) ∧ (∃ i : Fin 8, slotKeys s i.1 ≠ [])) ∧
    (∃ (c : CmdRef) (s : State), Taken c 0x112 s ∧ s.sys.quiesce = none ∧ s.foot.en = false) ∧
    (∃ (c : CmdRef) (s : State), Ready c 0x113 0 s) ∧
    (∃ (c : CmdRef) (s : State), Ready c 0x115 0 s) ∧
    (∃ (c : CmdRef) (s : State) (phase : Word) (dwell : BitVec 16), Ready c 0x116 0 s ∧ 10 ≤ phase.toNat ∧ phase.toNat ≤ 10000 ∧ 1 ≤ dwell.toNat ∧ dwell.toNat ≤ 600) ∧
    (∃ (c : CmdRef) (s : State) (mask : BitVec 10) (on : Bool), Ready c 0x114 4 s ∧ firstFail (gateChecks mask on false s) = stOk ∧ on = false) ∧
    (∃ (c : CmdRef) (s : State) (mask : BitVec 10) (on : Bool), Ready c 0x114 4 s ∧ firstFail (gateChecks mask on false s) = stOk ∧ on = true ∧ mask &&& ~~~s.aon.pwrOn = 0#10) ∧
    (∃ (c : CmdRef) (s : State) (mask : BitVec 10) (on : Bool), Ready c 0x114 4 s ∧ firstFail (gateChecks mask on false s) = stOk ∧ on = true ∧ mask &&& ~~~s.aon.pwrOn ≠ 0#10) :=
  ⟨⟨c0, wAcq, ⟨by decide, by decide⟩⟩,
  ⟨c0, wKeyed, ⟨by decide, by decide⟩, by decide⟩,
  ⟨c0, wAcq, by decide⟩,
  ⟨c0, wQuiesce, ⟨by decide, by decide⟩⟩,
  ⟨c0, wAcq, ⟨by decide, by decide⟩⟩,
  ⟨c0, wAcq, 10000, 600, ⟨by decide, by decide⟩, by decide⟩,
  ⟨c0, wAcq, 0x100, false, ⟨by decide, by decide⟩, by decide⟩,
  ⟨c0, wAcq, 0x100, true, ⟨by decide, by decide⟩, by decide⟩,
  ⟨c0, { wAcq with aon := { wAcq.aon with pwrOn := 0x2FF } }, 0x100, true, ⟨by decide, by decide⟩, by decide⟩⟩

/-- What `Obligations.PowerAndFaultEvents` assumes is met, clause by clause. -/
theorem witness_powerAndFaultEvents :
    (∃ (s : State) (q : PowerReq) (d : Fin 10), s.aon.pwrReq = some q ∧ q.left.getLsbD d.1 = true ∧ requires d.1 &&& ~~~s.aon.pwrOn = 0#10 ∧ putBit q.left d.1 false ≠ 0#10) ∧
    (∃ (s : State) (q : PowerReq) (d : Fin 10) (c : _), s.aon.pwrReq = some q ∧ q.left.getLsbD d.1 = true ∧ requires d.1 &&& ~~~s.aon.pwrOn = 0#10 ∧ putBit q.left d.1 false = 0#10 ∧ q.cmd = some c) ∧
    (∃ (s : State) (q : PowerReq) (d : Fin 10) (c : CmdRef), s.aon.pwrReq = some q ∧ q.left.getLsbD d.1 = true ∧ q.cmd = some c) ∧
    (∃ (s : State) (d : Fin 10), s.aon.pwrReq = none ∧ bootWaits s d.1 = true ∧ s.aon.pgFailed.getLsbD d.1 = false) ∧
    (∃ (s : State) (q : Quiesce) (off : BitVec 16) (u : State), u = atTick off s ∧ s.sys.quiesce = some q ∧ q.step = 3 ∧ drained u = true ∧ (s.mile.oe = true → oeMoment u u.time.odo = true)) ∧
    (∃ (s : State), s.aon.locked = true) ∧
    (∃ (s : State), imageRuns s = true) ∧
    (∃ (src : Fin 64), src ≠ 0 ∧ faultReserved src.1 = false) ∧
    (∃ (src : Fin 64), faultReserved src.1 = true) ∧
    (∃ (s : State) (src : Fin 64) (ck : Nat), s.fault.inj.getLsbD src.1 = true ∧ s.fault.ovl.getLsbD src.1 = false ∧ s.fault.injEnd[src] ≤ aonNow (atCk ck s)) ∧
    (∃ (s : State) (src : Fin 64) (ck : Nat), s.fault.resample.getLsbD src.1 = true ∧ s.fault.injEnd[src] ≤ aonNow (atCk ck s) ∧ s.fault.real.getLsbD src.1 = false) ∧
    (∃ (s : State) (src : Fin 64) (ck : Nat), s.fault.resample.getLsbD src.1 = true ∧ s.fault.injEnd[src] ≤ aonNow (atCk ck s) ∧ s.fault.real.getLsbD src.1 = true ∧ s.fault.handled.getLsbD src.1 = false) ∧
    (∃ (s : State) (temp : Int), s.aon.locked = true ∧ temp ≤ 9500 ∧ s.sys.warn = false ∧ s.fault.real.getLsbD 57 = false) ∧
    (∃ (s : State), s.aon.locked = true ∧ s.sys.mgmtFwRunning = true ∧ flushDue s = true) ∧
    (∃ (s : State) (c : CmdRef), s.trail.flushing = true ∧ s.trail.flushCmd = some c) :=
  ⟨⟨{ wAcq with aon := { wAcq.aon with pwrOn := 0x0FF, pwrReq := some { cmd := some c0, left := 0x300 } } }, { cmd := some c0, left := 0x300 }, 8, by decide⟩,
  ⟨{ wAcq with aon := { wAcq.aon with pwrOn := 0x0FF, pwrReq := some { cmd := some c0, left := 0x100 } } }, { cmd := some c0, left := 0x100 }, 8, c0, by decide⟩,
  ⟨{ wAcq with aon := { wAcq.aon with pwrOn := 0x0FF, pwrReq := some { cmd := some c0, left := 0x100 } } }, { cmd := some c0, left := 0x100 }, 8, c0, by decide⟩,
  ⟨State.reset, 9, by decide⟩,
  ⟨{ wAcq with sys := { wAcq.sys with quiesce := some { step := 3 } } }, { step := 3 }, 0, _, rfl, by decide⟩,
  ⟨wAcq, by decide⟩,
  ⟨wAcq, by decide⟩,
  ⟨63, by decide⟩,
  ⟨7, by decide⟩,
  ⟨{ wAcq with fault := { wAcq.fault with inj := 8 } }, 3, 0, by decide⟩,
  ⟨{ wAcq with fault := { wAcq.fault with resample := 8 } }, 3, 0, by decide⟩,
  ⟨{ wAcq with fault := { wAcq.fault with resample := 8, real := 8 } }, 3, 0, by decide⟩,
  ⟨wAcq, 9500, by decide⟩,
  ⟨{ wAcq with trail := { wAcq.trail with period := 0 } }, by decide⟩,
  ⟨{ wAcq with trail := { wAcq.trail with flushing := true, flushCmd := some c0 } }, c0, by decide⟩⟩

/-- What `Obligations.TimeCommitsAndReads` assumes is met, clause by clause. -/
theorem witness_timeCommitsAndReads :
    (∃ (s : State) (hi : Word) (v : Nat), timeUp s = true ∧ v = hi.toNat % 2 ^ 20 * 2 ^ 32 + s.time.incrLo.toNat ∧ 360107826204545 ≤ v ∧ v ≤ 360468114174734) ∧
    (∃ (s : State) (hi : Word) (v : Nat) (k : _), v = hi.toNat % 2 ^ 20 * 2 ^ 32 + s.time.incrLo.toNat ∧ ((v < 360107826204545 ∧ k = 360107826204545) ∨ (360468114174734 < v ∧ k = 360468114174734)) ∧ timeUp s = true) ∧
    (∃ (s : State) (hi : Word) (v : Int), timeUp s = true ∧ v = (hi.setWidth 8 ++ s.time.slewLo : BitVec 40).toInt ∧ -3602879702 ≤ v ∧ v ≤ 3602879702) ∧
    (∃ (s : State) (hi : Word) (v : Int) (k : _), v = (hi.setWidth 8 ++ s.time.slewLo : BitVec 40).toInt ∧ ((v < -3602879702 ∧ k = -3602879702) ∨ (3602879702 < v ∧ k = 3602879702)) ∧ timeUp s = true) ∧
    (∃ (s : State) (rd : Fin 9), MayUse rd 0x30010 false s) ∧
    (∃ (s : State) (rd : Fin 9), MayUse rd 0x30020 false s ∧ s.time.now[rd].latched = true) ∧
    (∃ (s : State) (rd : Fin 9), MayUse rd 0x30020 false s ∧ s.time.now[rd].latched = false) ∧
    (∃ (s : State) (rd : Fin 9), MayUse rd 0x30090 true s) ∧
    (∃ (s : State) (rd : Fin 9), MayUse rd 0x30094 false s) :=
  ⟨⟨{ wAcq with time := { wAcq.time with incrLo := 360107826204545 % 2 ^ 32 } }, 83844, 360107826204545, by decide⟩,
  ⟨wAcq, 0xFFFFF, _, 360468114174734, rfl, .inr (by decide), by decide⟩,
  ⟨wAcq, 0, 0, by decide⟩,
  ⟨{ wAcq with time := { wAcq.time with slewLo := 0xFFFFFFFF } }, 0x80, _, -3602879702, rfl, .inl (by decide), by decide⟩,
  ⟨wAcq, 0, ⟨by decide, by decide⟩⟩,
  ⟨{ wAcq with time := { wAcq.time with now := Vector.replicate 9 { latched := true } } }, 0, ⟨by decide, by decide⟩, by decide⟩,
  ⟨wAcq, 8, ⟨by decide, by decide⟩, by decide⟩,
  ⟨wAcq, 8, ⟨by decide, by decide⟩⟩,
  ⟨wAcq, 0, ⟨by decide, by decide⟩⟩⟩

/-- What `Obligations.LeapAndPeriodicRecord` assumes is met, clause by clause. -/
theorem witness_leapAndPeriodicRecord :
    (∃ (s : State) (k : _), timeUp s = true ∧ s.time.leap = some k ∧ s.time.leapAt ≤ secNow s) ∧
    (∃ (s : State), timeUp s = true ∧ s.cairn.due = true) :=
  ⟨⟨{ wAcq with time := { wAcq.time with leap := some .leap59, leapAt := 0 } }, .leap59, by decide⟩,
  ⟨{ wAcq with cairn := { wAcq.cairn with due := true } }, by decide⟩⟩

/-- What `Obligations.TimeAndTrailCommands` assumes is met, clause by clause. -/
theorem witness_timeAndTrailCommands :
    (∃ (c : CmdRef) (s : State), Ready c 0x120 32 s) ∧
    (∃ (c : CmdRef) (s : State) (a : LeapSetArgs), Ready c 0x121 0 s ∧ a.rsv = false ∧ a.action = 0#8) ∧
    (∃ (c : CmdRef) (s : State) (a : LeapSetArgs), Ready c 0x121 0 s ∧ a.rsv = false ∧ a.action = 1#8) ∧
    (∃ (c : CmdRef) (s : State) (a : LeapSetArgs) (k : _), Ready c 0x121 0 s ∧ a.rsv = false ∧ leapAction a.action.toNat = some k ∧ ((a.leapAt.toNat : Int) - (a.offset.toInt + leapStep k)) % 86400 = 0 ∧ secNow s + 2 ≤ a.leapAt.toNat ∧ a.leapAt.toNat ≤ secNow s + 200 * 86400) ∧
    (∃ (c : CmdRef) (s : State) (n : BitVec 16), Ready c 0xB10 0 s ∧ 1 ≤ n.toNat ∧ n.toNat ≤ 3600) ∧
    (∃ (c : CmdRef) (s : State) (r : _), Ready c 0xB11 (recWhole r).length s ∧ s.cairn.last = some r) ∧
    (∃ (c : CmdRef) (s : State), Ready c 0xB00 52 s) ∧
    (∃ (c : CmdRef) (s : State) (src : BitVec 8) (sev : BitVec 8) (i : Fin 64), Ready c 0xB01 0 s ∧ faultSrc src = some i ∧ src ≠ 0#8 ∧ src ≠ 57#8 ∧ src ≠ 58#8 ∧ sev.toNat ≤ 3 ∧ s.fault.inj.getLsbD i.1 = false) ∧
    (∃ (c : CmdRef) (s : State) (a : InjectArgs) (i : Fin 64), Ready c 0xB02 0 s ∧ faultSrc a.source = some i ∧ i ≠ 0 ∧ firstFail (injectChecks a s) = stOk ∧ a.action = 0#8) ∧
    (∃ (c : CmdRef) (s : State) (a : InjectArgs) (i : Fin 64), Ready c 0xB02 0 s ∧ faultSrc a.source = some i ∧ i ≠ 0 ∧ firstFail (injectChecks a s) = stOk ∧ a.action ≠ 0#8) ∧
    (∃ (c : CmdRef) (s : State) (n : BitVec 16), Ready c 0xB04 0 s ∧ n ≠ 0#16 ∧ n.toNat ≤ 3600 ∧ s.trail.flushCmd = none) ∧
    (∃ (c : CmdRef) (s : State) (a : TrailReadArgs) (got : List TrailRec) (next : Nat) (e : Bool) (sk : Bool), Ready c 0xB03 (8 + (got.flatMap TrailRec.bytes).length) s ∧ a.rsv = false ∧ a.area.toNat ≤ 1 ∧ 256 ≤ a.max.toNat ∧ a.max.toNat ≤ 1024 ∧ trailRead (a.area == 1#8) a.start.toNat a.max.toNat s.trail = some (got, next, e, sk)) :=
  ⟨⟨c0, wAcq, ⟨by decide, by decide⟩⟩,
  ⟨c0, wAcq, ⟨0, 0, 0, false⟩, ⟨by decide, by decide⟩, by decide⟩,
  ⟨c0, wAcq, ⟨0, 37, 1, false⟩, ⟨by decide, by decide⟩, by decide⟩,
  ⟨c0, wAcq, ⟨86400, 0xFFFF, 2, false⟩, .leap61, ⟨by decide, by decide⟩, by decide⟩,
  ⟨c0, wAcq, 3600, ⟨by decide, by decide⟩, by decide⟩,
  ⟨c0, { wAcq with cairn := { wAcq.cairn with last := some {} } }, {}, ⟨by decide, by decide +kernel⟩, by decide⟩,
  ⟨c0, wAcq, ⟨by decide, by decide⟩⟩,
  ⟨c0, wAcq, 4, 3, 4, ⟨by decide, by decide⟩, by decide⟩,
  ⟨c0, wAcq, ⟨4, 0, 60000, false⟩, 4, ⟨by decide, by decide⟩, by decide⟩,
  ⟨c0, wAcq, ⟨4, 1, 0, false⟩, 4, ⟨by decide, by decide⟩, by decide⟩,
  ⟨c0, wAcq, 3600, ⟨by decide, by decide⟩, by decide⟩,
  ⟨c0, wAcq, ⟨0, 256, 0, false⟩, trailReset, 24, true, false, ⟨by decide, by decide⟩, by decide⟩⟩

/-- What `Obligations.ReferenceEvents` assumes is met, clause by clause. -/
theorem witness_referenceEvents :
    (∃ (s : State), timeUp s = true) ∧
    (∃ (s : State), timeUp s = true ∧ tickOf s (nextSecond s) ≤ s.time.bOdo + periodTicks) ∧
    (∃ (s : State), timeUp s = true ∧ qualModes s.sys.mode = true) ∧
    (∃ (s : State), timeUp s = true ∧ qualModes s.sys.mode = true) ∧
    (∃ (s : State) (p : _), timeUp s = true ∧ s.sign.pref = some p ∧ eligible s p = true ∧ revertDue s p = true) ∧
    (∃ (s : State), timeUp s = true ∧ s.sign.sel = none) ∧
    (∃ (s : State) (n : Fin 12) (k : AsymCheck), timeUp s = true ∧ s.sign.slots[n].asymCheck = some k ∧ k.left = 0 ∧ asymmetric s.sign.slots[n] k = false) ∧
    (∃ (s : State) (bytes : List Byte), timeUp s = true ∧ todFrameOk bytes = false) ∧
    (∃ (s : State) (line : Fin 2) (n : Fin 12) (ms : Nat) (bytes : List Byte), todFrameOk bytes = true ∧ timeUp s = true ∧ todSlot s line = some n ∧ (ms < 10 ∨ 900 < ms)) ∧
    (∃ (s : State) (line : Fin 2) (n : Fin 12) (ms : Nat) (bytes : List Byte), todFrameOk bytes = true ∧ timeUp s = true ∧ todSlot s line = some n ∧ 10 ≤ ms ∧ ms ≤ 900 ∧ s.sign.slots[n].labelled = true) ∧
    (∃ (s : State) (line : Fin 2) (n : Fin 12) (ms : Nat) (bytes : List Byte), todFrameOk bytes = true ∧ timeUp s = true ∧ todSlot s line = some n ∧ 10 ≤ ms ∧ ms ≤ 900 ∧ s.sign.slots[n].labelled = false) ∧
    (∃ (s : State) (n : Fin 12), timeUp s = true ∧ isPps n = true ∧ s.sign.slots[n].todSel ≠ 0) ∧
    (∃ (s : State), timeUp s = true ∧ s.sign.permit = true ∧ s.sign.permitLeft = 0) ∧
    (∃ (s : State) (pin : Fin 4), timeUp s = true ∧ s.sign.lantern[pin].holding = true) :=
  ⟨⟨wAcq, by decide⟩,
  ⟨{ wAcq with time := { wAcq.time with cnt := secU - 1 } }, by decide⟩,
  ⟨wAcq, by decide⟩,
  ⟨wAcq, by decide⟩,
  ⟨{ wAcq with sign := { wAcq.sign with slots := Vector.replicate 12 { state := .qualified }, pref := some 1 } }, 1, by decide⟩,
  ⟨wAcq, by decide⟩,
  ⟨{ wAcq with sign := { wAcq.sign with slots := Vector.replicate 12 { asymCheck := some { left := 0 } } } }, 9, { left := 0 }, by decide⟩,
  ⟨{ wAcq with sign := { wAcq.sign with slots := Vector.replicate 12 { todSel := 1 } } }, [], by decide⟩,
  ⟨{ wAcq with sign := { wAcq.sign with slots := Vector.replicate 12 { todSel := 1 } } }, 0, 1, 901, wTod, (by decide +kernel), by decide⟩,
  ⟨{ wAcq with sign := { wAcq.sign with slots := Vector.replicate 12 { todSel := 1, labelled := true } } }, 0, 1, 900, wTod, (by decide +kernel), by decide⟩,
  ⟨{ wAcq with sign := { wAcq.sign with slots := Vector.replicate 12 { todSel := 1 } } }, 0, 1, 10, wTod, (by decide +kernel), by decide⟩,
  ⟨{ wAcq with sign := { wAcq.sign with slots := Vector.replicate 12 { todSel := 1 } } }, 4, by decide⟩,
  ⟨{ wAcq with sign := { wAcq.sign with permit := true } }, by decide⟩,
  ⟨{ wAcq with sign := { wAcq.sign with lantern := Vector.replicate 4 { holding := true } } }, 3, by decide⟩⟩

/-- What `Obligations.ReferenceCommands` assumes is met, clause by clause. -/
theorem witness_referenceCommands :
    (∃ (c : CmdRef) (s : State) (a : TimeStepArgs), Taken c 0x122 s ∧ a.rsv = false ∧ ((a.kind = 0#8 ∧ (stepOf c a).offset ≠ 0 ∨ a.kind = 1#8 ∧ a.ns.toNat ≤ 999999999)) ∧ s.sys.mode ≠ .serve ∧ s.sys.mode ≠ .holdover) ∧
    (∃ (c : CmdRef) (s : State) (w : BitVec 16), Ready c 0x123 0 s ∧ w.toNat ≤ 600) ∧
    (∃ (c : CmdRef) (s : State) (a : RefConfigArgs) (n : Fin 12), Ready c 0x200 0 s ∧ a.rsv = false ∧ a.slot.toNat = n.1 ∧ a.enable.toNat ≤ 2 ∧ 1 ≤ a.holdoff.toNat ∧ a.holdoff.toNat ≤ 3600 ∧ a.qualRankMax.toNat ≤ 14 ∧ a.rankFloor.toNat ≤ 15 ∧ (n = 11 → s.foot.en = true) ∧ (n = 0 → powered s 8 = true)) ∧
    (∃ (c : CmdRef) (s : State) (a : RefPpsArgs) (n : Fin 12), Ready c 0x201 0 s ∧ a.rsv = false ∧ a.slot.toNat = n.1 ∧ 1 ≤ n.1 ∧ n.1 ≤ 4 ∧ a.input.toNat ≤ 1 ∧ a.edge.toNat ≤ 1 ∧ a.todSel = 0#8 ∧ a.freqSel = 0#8 ∧ 1 ≤ a.ppsWin.toNat ∧ a.ppsWin.toNat ≤ 100000 ∧ a.cable.toInt.natAbs ≤ 10000000 ∧ a.baud.toNat ≤ 7 ∧ s.sign.slots[n].todSel = 0) ∧
    (∃ (c : CmdRef) (s : State) (a : RefThreshArgs), Ready c 0x202 0 s ∧ a.rsv = false ∧ 1 ≤ a.freqWin.toNat ∧ a.freqWin.toNat ≤ 100000 ∧ 100 ≤ a.freqWinCold.toNat ∧ a.freqWinCold.toNat ≤ 500000 ∧ 1 ≤ a.driftY.toNat ∧ a.driftY.toNat ≤ 100000 ∧ 1 ≤ a.driftRate.toNat ∧ a.driftRate.toNat ≤ 100000 ∧ 1 ≤ a.disagree.toNat ∧ a.disagree.toNat ≤ 1000000 ∧ 10 ≤ a.compareWin.toNat ∧ a.compareWin.toNat ≤ 10000 ∧ 10 ≤ a.pathStep.toNat ∧ a.pathStep.toNat ≤ 100000) ∧
    (∃ (c : CmdRef) (s : State), Ready c 0x203 388 s) ∧
    (∃ (c : CmdRef) (s : State) (slot : BitVec 8) (n : Fin 12), Ready c 0x204 0 s ∧ slot.toNat = n.1 ∧ (s.sign.slots[n].state ≠ .softFail ∨ s.sign.slots[n].pathAsym = false ∧ s.sign.slots[n].phaseJump = false)) ∧
    (∃ (c : CmdRef) (s : State) (slot : BitVec 8) (n : Fin 12), Ready c 0x204 0 s ∧ slot.toNat = n.1 ∧ s.sign.slots[n].state = .softFail ∧ (s.sign.slots[n].pathAsym = true ∨ s.sign.slots[n].phaseJump = true)) ∧
    (∃ (c : CmdRef) (s : State) (slot : BitVec 8) (n : Fin 12), Ready c 0x205 0 s ∧ slot.toNat = n.1 ∧ (n.1 = 9 ∨ n.1 = 10)) ∧
    (∃ (c : CmdRef) (s : State) (a : SelConfigArgs), Ready c 0x206 0 s ∧ a.rsv = false ∧ a.revertive.toNat ≤ 1 ∧ a.revertWait.toNat ≤ 3600 ∧ a.upgradeMargin.toNat ≤ 15 ∧ a.pref = 0xFF#8) ∧
    (∃ (c : CmdRef) (s : State) (a : SelConfigArgs) (n : Fin 12), Ready c 0x206 0 s ∧ a.rsv = false ∧ a.revertive.toNat ≤ 1 ∧ a.revertWait.toNat ≤ 3600 ∧ a.upgradeMargin.toNat ≤ 15 ∧ a.pref.toNat = n.1 ∧ (n.1 ≤ 4 ∨ n.1 = 9 ∨ n.1 = 10)) ∧
    (∃ (c : CmdRef) (s : State) (slope : Word) (acq : Word), Ready c 0x207 0 s ∧ 1 ≤ slope.toNat ∧ slope.toNat ≤ 100000 ∧ 1 ≤ acq.toNat ∧ acq.toNat ≤ 1000000) ∧
    (∃ (c : CmdRef) (s : State) (a : LanternArgs), Ready c 0x440 0 s ∧ a.rsv = false ∧ (∀ i : Fin 4, lanternCode a.pins[i].1.toNat = true ∧ a.pins[i].2.2.toNat ≤ 1000)) :=
  ⟨⟨c0, wAcq, ⟨1, 0, 0, 0, 0, 999999999, false⟩, by decide⟩,
  ⟨c0, wServe, 600, ⟨by decide, by decide⟩, by decide⟩,
  ⟨c0, wAcq, ⟨0, 2, 3600, 0, 0, 15, 14, false⟩, 0, ⟨by decide, by decide⟩, by decide⟩,
  ⟨c0, wAcq, ⟨4, 1, 1, 0, 0, 7, 100000, 10000000, false⟩, 4, ⟨by decide, by decide⟩, by decide⟩,
  ⟨c0, wAcq, ⟨100000, 500000, 100000, 100000, 1000000, 10000, 100000, false⟩, ⟨by decide, by decide⟩, by decide⟩,
  ⟨c0, wAcq, ⟨by decide, by decide⟩⟩,
  ⟨c0, wAcq, 11, 11, ⟨by decide, by decide⟩, by decide⟩,
  ⟨c0, { wAcq with sign := { wAcq.sign with slots := Vector.replicate 12 { state := .softFail, pathAsym := true } } }, 9, 9, ⟨by decide, by decide⟩, by decide⟩,
  ⟨c0, wAcq, 10, 10, ⟨by decide, by decide⟩, by decide⟩,
  ⟨c0, wAcq, ⟨0xFF, 1, 3600, 15, false⟩, ⟨by decide, by decide⟩, by decide⟩,
  ⟨c0, wAcq, ⟨10, 1, 3600, 15, false⟩, 10, ⟨by decide, by decide⟩, by decide⟩,
  ⟨c0, wAcq, 100000, 1000000, ⟨by decide, by decide⟩, by decide⟩,
  ⟨c0, wAcq, ⟨Vector.replicate 4 (0x37, true, 1000), false⟩, ⟨by decide, by decide⟩, by decide⟩⟩

/-- What `Obligations.GuylineCommands` assumes is met, clause by clause. -/
theorem witness_guylineCommands :
    (∃ (s : State), timeUp s = true) ∧
    (∃ (s : State), timeUp s = true) ∧
    (∃ (s : State) (u : _), s.guy.uart = some u) ∧
    (∃ (s : State) (u : _) (bytes : List Byte), s.guy.uart = some u ∧ s.guy.awaiting = true ∧ u.respLen ≤ bytes.length ∧ uartTempOf u (bytes.take u.respLen) = none) ∧
    (∃ (s : State), s.guy.dieTempOk = true ∧ 3 ≤ s.guy.dieMiss) ∧
    (∃ (s : State), s.guy.uartTempOk = true ∧ 3 ≤ s.guy.uartMiss) ∧
    (∃ (s : State), s.sys.mgmtFwRunning = true ∧ s.guy.savedAt + 3600 ≤ s.aon.ophrs) ∧
    (∃ (c : CmdRef) (s : State) (a : HoldConfigArgs), Ready c 0x300 0 s ∧ a.rsv = false ∧ 4 ≤ a.oosLimit.toNat ∧ a.oosLimit.toNat ≤ 4000000 ∧ a.policy.toNat ≤ 1 ∧ a.learnRankMax.toNat ≤ 14 ∧ 4 ≤ a.learnMin.toNat ∧ a.learnMin.toNat ≤ 1000 ∧ 1 ≤ a.learnRestore.toNat ∧ a.learnRestore.toNat ≤ 100 ∧ 1 ≤ a.tempSpan.toNat ∧ a.tempSpan.toNat ≤ 100) ∧
    (∃ (c : CmdRef) (s : State) (a : HoldOscArgs), Ready c 0x301 0 s ∧ a.rsv = false ∧ a.enable.toNat ≤ 1 ∧ a.tempSrc = 0#8 ∧ 1 ≤ a.uY.toNat ∧ 1 ≤ a.noiseY.toNat ∧ a.osc = 0#8 ∧ a.enable = 0#8) ∧
    (∃ (c : CmdRef) (s : State) (a : HoldOscArgs), Ready c 0x301 0 s ∧ a.rsv = false ∧ a.enable.toNat ≤ 1 ∧ a.tempSrc = 0#8 ∧ 1 ≤ a.uY.toNat ∧ 1 ≤ a.noiseY.toNat ∧ a.osc = 1#8) ∧
    (∃ (c : CmdRef) (s : State), Ready c 0x302 160 s) ∧
    (∃ (c : CmdRef) (s : State) (m : Bool) (a : Bool), Ready c 0x303 0 s ∧ (m || a) = true) ∧
    (∃ (c : CmdRef) (s : State) (a : AtomUartArgs), Ready c 0x304 0 s ∧ a.rsv = false ∧ a.qlen.toNat ≤ 16 ∧ 1 ≤ a.respLen.toNat ∧ a.respLen.toNat ≤ 64 ∧ a.lockOfs.toNat < a.respLen.toNat ∧ a.tempOfs.toNat + (if a.format.toNat ≤ 1 then 1 else 0) < a.respLen.toNat ∧ a.format.toNat ≤ 2 ∧ a.scale.toNat ≤ 2 ∧ a.polarity.toNat ≤ 1 ∧ a.poll.toNat ≤ 60 ∧ a.baud.toNat ≤ 7) :=
  ⟨⟨wAcq, by decide⟩,
  ⟨wAcq, by decide⟩,
  ⟨{ wAcq with guy := { wAcq.guy with uart := some {} } }, {}, by decide⟩,
  ⟨{ wAcq with guy := { wAcq.guy with uart := some { respLen := 2, format := 2 }, awaiting := true } }, { respLen := 2, format := 2 }, [0, 0], by decide⟩,
  ⟨{ wAcq with guy := { wAcq.guy with dieTempOk := true, dieMiss := 3 } }, by decide⟩,
  ⟨{ wAcq with guy := { wAcq.guy with uartTempOk := true, uartMiss := 3 } }, by decide⟩,
  ⟨{ wAcq with aon := { wAcq.aon with ophrs := 3600 } }, by decide⟩,
  ⟨c0, wAcq, ⟨4000000, 1, 14, 1000, 100, 100, false⟩, ⟨by decide, by decide⟩, by decide⟩,
  ⟨c0, wAcq, ⟨0, 0, 0, 1, 0, 0, 0, 1, false⟩, ⟨by decide, by decide⟩, by decide⟩,
  ⟨c0, wAcq, ⟨1, 1, 0, 1, 0, 0, 0, 1, false⟩, ⟨by decide, by decide⟩, by decide⟩,
  ⟨c0, wAcq, ⟨by decide, by decide⟩⟩,
  ⟨c0, wAcq, true, false, ⟨by decide, by decide⟩, by decide⟩,
  ⟨c0, wAcq, ⟨7, 60, 16, 64, Vector.replicate 16 0, 63, 0, 1, 62, 1, 2, false⟩, ⟨by decide, by decide⟩, by decide⟩⟩

/-- What `Obligations.IntervalMeter` assumes is met, clause by clause. -/
theorem witness_intervalMeter :
    (∃ (s : State) (ch : Fin 8), timeUp s = true ∧ (tdcCh s ch).arm = true ∧ (ch = 6 → s.tdc.ch6Held = false)) ∧
    (∃ (s : State) (ch : Fin 8), timeUp s = true ∧ (tdcCh s ch).arm = true ∧ ch.1 < 6 ∧ (tdcCh s ch).dllLock = true ∧ (tdcCh s ch).dllBad = false) ∧
    (∃ (s : State) (ch : Fin 8), timeUp s = true ∧ s.tdc.ch[ch].dllLock = true) ∧
    (∃ (s : State) (ch : Fin 8), timeUp s = true ∧ s.tdc.ch[ch].dllLock = false) ∧
    (∃ (s : State) (ch : Fin 8), timeUp s = true ∧ s.tdc.lines[ch].getLastD 0 + s.tdc.calPeriod * tickSec ≤ s.time.odo) ∧
    (∃ (s : State), timeUp s = true) ∧
    (∃ (s : State) (rd : Fin 9) (ch : Fin 8), decideAccess s rd (chReg ch 0) true = .ok) ∧
    (∃ (s : State) (ch : Fin 8) (r : TdcRes) (l : List TdcRes), decideAccess s 0 (chReg ch 0xC) false = .ok ∧ s.tdc.ch[ch].fifo = r :: l) ∧
    (∃ (c : CmdRef) (s : State) (a : TdcArgs) (n : Fin 8), Ready c 0x420 0 s ∧ a.rsv = false ∧ generalCh a.ch = some n ∧ a.mode.toNat ≤ 2 ∧ tdcSource a.start.toNat = true ∧ tdcSource a.stop.toNat = true ∧ a.start ≠ 0#8 ∧ a.stop ≠ 0#8 ∧ a.start ≠ a.stop ∧ 1 ≤ a.timeout.toNat ∧ a.timeout.toNat ≤ 2000000 ∧ 1 ≤ a.n.toNat ∧ a.n.toNat ≤ 16777215 ∧ ch6Busy s a.ch = false) ∧
    (∃ (c : CmdRef) (s : State) (ch : BitVec 8) (n : Fin 8) (k : Fin 2), Taken c 0x421 s ∧ generalCh ch = some n ∧ measureIdx n = some k ∧ s.tdc.ch[n].armBad = false ∧ ch6Busy s ch = false ∧ s.tdc.ch[n].arm = false ∧ s.tdc.measure[k] = none) ∧
    (∃ (c : CmdRef) (s : State) (code : BitVec 8), Ready c 0x422 0 s ∧ code.toNat ≤ 3) ∧
    (∃ (c : CmdRef) (s : State) (n : BitVec 16), Ready c 0x423 0 s ∧ 1 ≤ n.toNat ∧ n.toNat ≤ 3600) ∧
    (∃ (c : CmdRef) (s : State) (ch : BitVec 8) (n : Fin 8) (k : Word), Ready c 0x424 0 s ∧ ch.toNat = n.1 ∧ k.toInt.natAbs ≤ 32767) ∧
    (∃ (c : CmdRef) (s : State), Ready c 0x425 44 s) :=
  ⟨⟨{ wAcq with tdc := { wAcq.tdc with ch := Vector.replicate 8 { arm := true } } }, 6, by decide⟩,
  ⟨{ wAcq with tdc := { wAcq.tdc with ch := Vector.replicate 8 { dllLock := true } }, foot := { wAcq.foot with en := true } }, 5, by decide⟩,
  ⟨{ wAcq with tdc := { wAcq.tdc with ch := Vector.replicate 8 { dllLock := true } } }, 7, by decide⟩,
  ⟨wAcq, 7, by decide⟩,
  ⟨{ wAcq with tdc := { wAcq.tdc with calPeriod := 0 } }, 7, by decide⟩,
  ⟨wAcq, by decide⟩,
  ⟨wAcq, 0, 7, by decide⟩,
  ⟨{ wAcq with tdc := { wAcq.tdc with ch := Vector.replicate 8 { fifo := [{}] } } }, 7, {}, [], by decide⟩,
  ⟨c0, wAcq, ⟨7, 2, true, true, true, 1, 0x25, true, true, 2000000, 16777215, false⟩, 7, ⟨by decide, by decide⟩, by decide⟩,
  ⟨c0, { wAcq with tdc := { wAcq.tdc with ch := Vector.replicate 8 { startSrc := 1, stopSrc := 2, timeout := 1, count := 1 } } }, 7, 7, 1, by decide⟩,
  ⟨c0, wAcq, 3, ⟨by decide, by decide⟩, by decide⟩,
  ⟨c0, wAcq, 3600, ⟨by decide, by decide⟩, by decide⟩,
  ⟨c0, wProv, 7, 7, 32767, ⟨by decide, by decide⟩, by decide⟩,
  ⟨c0, wAcq, ⟨by decide, by decide⟩⟩⟩

/-- What `Obligations.OutputCommands` assumes is met, clause by clause. -/
theorem witness_outputCommands :
    (∃ (s : State) (line : Fin 2) (at_ : Nat) (m : List Byte) (k : Nat), k = tickOf s at_ ∧ timeUp s = true ∧ (s.mile.tod[line]).pending = some (at_, m) ∧ k ≤ s.time.bOdo + periodTicks) ∧
    (∃ (s : State) (off : BitVec 16) (ck : Nat) (low : Bool) (s0 : State), low = (!s.foot.peerOwn && decide (max s.foot.peerOwnLowSince s.foot.takenAt + 25 * s.foot.oeNeedUs ≤ (atCk ck s).foot.ck)) ∧ s0 = { atCk ck s with foot := { (atCk ck s).foot with oeBlocked := s.foot.oeBlocked && !low } } ∧ timeUp s = true ∧ oeWanted s0 ≠ s.mile.oe ∧ oeMoment s (s.time.bOdo + off.toNat) = true) ∧
    (∃ (c : CmdRef) (s : State) (a : PpsArgs) (k : Fin 4), Ready c 0x400 0 s ∧ a.rsv = false ∧ a.out.toNat = k.1 ∧ a.enable.toNat ≤ 1 ∧ 100 ≤ a.widthNs.toNat ∧ a.widthNs.toNat ≤ 500000000 ∧ a.widthNs.toNat % 100 = 0 ∧ a.cable.toInt.natAbs ≤ 100000) ∧
    (∃ (c : CmdRef) (s : State) (a : FreqArgs) (j : Fin 2), Ready c 0x401 0 s ∧ a.rsv = false ∧ a.out.toNat = j.1 ∧ a.enable.toNat ≤ 1 ∧ a.standard.toNat ≤ 1 ∧ 1 ≤ a.hz.toNat ∧ a.hz.toNat ≤ 100000000 ∧ a.cable.toInt.natAbs ≤ 100000) ∧
    (∃ (c : CmdRef) (s : State) (a : TodArgs) (j : Fin 2), Ready c 0x402 0 s ∧ a.rsv = false ∧ a.out.toNat = j.1 ∧ a.enable.toNat ≤ 1 ∧ a.scale.toNat ≤ 1 ∧ 10 ≤ a.delay.toNat ∧ a.delay.toNat ≤ 800 ∧ a.baud.toNat ≤ 7) ∧
    (∃ (c : CmdRef) (s : State) (a : OutCalArgs) (pin : Fin 16), Taken c 0x403 s ∧ a.rsv = false ∧ a.freq.toNat ≤ 1 ∧ a.out.toNat ≤ (if a.freq = 0#8 then 3 else 1) ∧ 1 ≤ a.edges.toNat ∧ a.edges.toNat ≤ 1000 ∧ a.pin.toNat = pin.1 ∧ s.mile.evt[pin].dir = 2 ∧ s.mile.outCal = none) ∧
    (∃ (s : State) (loop : Word) (w : OutCal) (pin : Fin 16) (d : Int), d = loop.toInt - w.cable - s.mile.evt[pin].inDelay ∧ s.mile.outCal = some w ∧ w.pin = pin.1 ∧ -100000 ≤ d ∧ d ≤ 100000) ∧
    (∃ (c : CmdRef) (s : State), Ready c 0x414 80 s) :=
  ⟨⟨{ wAcq with mile := { wAcq.mile with tod := Vector.replicate 2 { pending := some (65536, []) } } }, 1, 65536, [], _, rfl, by decide⟩,
  ⟨wServe, 0, 0, _, _, rfl, rfl, by decide⟩,
  ⟨c0, wAcq, ⟨3, 1, true, true, 500000000, 100000, false⟩, 3, ⟨by decide, by decide⟩, by decide⟩,
  ⟨c0, wAcq, ⟨1, 1, 1, true, 100000000, 100000, false⟩, 1, ⟨by decide, by decide⟩, by decide⟩,
  ⟨c0, wAcq, ⟨1, 1, 7, 1, 800, false⟩, 1, ⟨by decide, by decide⟩, by decide⟩,
  ⟨c0, { wProv with mile := { wProv.mile with evt := Vector.replicate 16 { dir := 2 } } }, ⟨1, 1, 15, 0, 1000, false⟩, 15, by decide⟩,
  ⟨{ wAcq with mile := { wAcq.mile with outCal := some { pin := 15 } } }, 100000, { pin := 15 }, 15, _, rfl, by decide⟩,
  ⟨c0, wAcq, ⟨by decide, by decide⟩⟩⟩

/-- What `Obligations.MilestoneCommands` assumes is met, clause by clause. -/
theorem witness_milestoneCommands :
    (∃ (s : State) (n : Fin 16) (k : Int), edgePos s s.mile.evt[n] = some k ∧ timeUp s = true ∧ s.mile.evt[n].armed = true ∧ s.mile.evt[n].dir = 1 ∧ k ≤ 256 * ((s.time.bOdo : Int) + 65536)) ∧
    (∃ (s : State) (n : Fin 16) (off : BitVec 16) (eighth : BitVec 3) (falling : Bool) (l : List CapEntry), (∀ p, s.mile.evt[n].lastEdge = some p → p + 128 ≤ (s.time.bOdo + off.toNat) * 8 + eighth.toNat) ∧ timeUp s = true ∧ s.mile.evt[n].dir = 2 ∧ (s.mile.evt[n].edge = 2 ∨ (s.mile.evt[n].edge = 0 ∧ falling = false) ∨ (s.mile.evt[n].edge = 1 ∧ falling = true)) ∧ s.mile.evt[n].fifo = l ∧ l.length < 16) ∧
    (∃ (s : State) (n : Fin 16) (e : CapEntry) (l : List CapEntry), decideAccess s 0 (evtReg n 0x20) false = .ok ∧ s.mile.evt[n].fifo = e :: l) ∧
    (∃ (s : State) (rd : Fin 9) (n : Fin 16), decideAccess s rd (evtReg n 0) true = .ok) ∧
    (∃ (c : CmdRef) (s : State) (a : MileArmArgs) (n : Fin 16), Ready c 0x410 8 s ∧ a.pin.toNat = n.1 ∧ firstFail (armChecks a s) = stOk ∧ a.tai = true) ∧
    (∃ (c : CmdRef) (s : State) (a : MileArmArgs) (n : Fin 16), Ready c 0x410 8 s ∧ a.pin.toNat = n.1 ∧ firstFail (armChecks a s) = stOk ∧ a.tai = false) ∧
    (∃ (c : CmdRef) (s : State) (pin : BitVec 8) (n : Fin 16), Ready c 0x411 0 s ∧ pin.toNat = n.1) ∧
    (∃ (c : CmdRef) (s : State) (a : MileCapArgs) (n : Fin 16), Ready c 0x412 0 s ∧ a.rsv = false ∧ a.pin.toNat = n.1 ∧ a.edge.toNat ≤ 2 ∧ s.mile.evt[n].dir = 2 ∧ a.inDelay.toInt.natAbs ≤ 100000) ∧
    (∃ (c : CmdRef) (s : State) (rate : BitVec 8) (en : BitVec 8), Ready c 0x413 0 s ∧ en.toNat ≤ 1 ∧ rate.toNat ≤ 50 ∧ (en = 1#8 → rate ≠ 0#8)) :=
  ⟨⟨{ wAcq with mile := { wAcq.mile with evt := Vector.replicate 16 { dir := 1, armed := true, base := 16777216 } } }, 15, _, rfl, by decide⟩,
  ⟨{ wAcq with mile := { wAcq.mile with evt := Vector.replicate 16 { dir := 2, edge := 2, lastEdge := some 0 } } }, 15, 16, 0, true, [], (fun p h => by cases h; decide), by decide⟩,
  ⟨{ wAcq with mile := { wAcq.mile with evt := Vector.replicate 16 { dir := 2, fifo := [{}] } } }, 15, {}, [], by decide⟩,
  ⟨wAcq, 0, 15, by decide⟩,
  ⟨c0, { wAcq with mile := { wAcq.mile with evt := Vector.replicate 16 { dir := 1 } } }, ⟨15, 0, false, false, false, true, 1, 1, 0, 0, 0, 1, false⟩, 15, ⟨by decide, by decide⟩, by decide⟩,
  ⟨c0, { wAcq with mile := { wAcq.mile with evt := Vector.replicate 16 { dir := 1 } } }, ⟨15, 0, false, false, false, false, 1, 200000, 0, 0, 0, 1, false⟩, 15, ⟨by decide, by decide⟩, by decide⟩,
  ⟨c0, wAcq, 15, 15, ⟨by decide, by decide⟩, by decide⟩,
  ⟨c0, { wAcq with mile := { wAcq.mile with evt := Vector.replicate 16 { dir := 2 } } }, ⟨15, 2, true, 100000, false⟩, 15, ⟨by decide, by decide⟩, by decide⟩,
  ⟨c0, wAcq, 50, 1, ⟨by decide, by decide⟩, by decide⟩⟩

/-- What `Obligations.BasebandCommands` assumes is met, clause by clause. -/
theorem witness_basebandCommands :
    (∃ (s : State), gnssUp s = true) ∧
    (∃ (c : CmdRef) (s : State) (ch : Fin 128) (c : GnssCh) (k : _), c = s.gnss.chans[ch] ∧ chanClock s ch = true ∧ c.run = true ∧ firstInCycle s ch = true ∧ c.samplesToDump = some k ∧ c.since + k ≤ 125000) ∧
    (∃ (c : CmdRef) (s : State) (ch : Fin 128) (c : GnssCh), c = s.gnss.chans[ch] ∧ chanClock s ch = true ∧ c.run = true ∧ firstInCycle s ch = true ∧ (∀ k, c.samplesToDump = some k → 125000 < c.since + k)) ∧
    (∃ (s : State), gnssUp s = true ∧ s.gnss.clkEn = true) ∧
    (∃ (s : State) (x : SpiTxn) (l : List SpiTxn) (d : CmdRef), s.gnss.spi = x :: l ∧ x.cmd = some d) ∧
    (∃ (c : CmdRef) (s : State) (a : FeConfigArgs) (k : Fin 2), Ready c 0x500 0 s ∧ a.rsv = false ∧ a.stream.toNat = k.1 ∧ a.enable.toNat ≤ 1 ∧ a.format.toNat ≤ 1 ∧ a.capPhase.toNat ≤ 15 ∧ a.feLat.toNat ≤ 15 ∧ a.ifHz.toInt.natAbs ≤ 20000000 ∧ gnssSelected s = false ∧ gnssUp s = true) ∧
    (∃ (c : CmdRef) (s : State) (a : FeSpiArgs), Taken c 0x501 s ∧ a.cs.toNat ≤ 1 ∧ (a.mode = 0#8 ∨ a.mode = 3#8) ∧ 1 ≤ a.len.toNat ∧ a.len.toNat ≤ 64 ∧ (∀ b ∈ a.bytes.toList.drop a.len.toNat, b = 0#8) ∧ 7 ≤ a.div.toNat ∧ gnssSelected s = false ∧ gnssUp s = true) ∧
    (∃ (c : CmdRef) (s : State) (g : BitVec 16) (k : BitVec 8), Ready c 0x502 0 s ∧ g.toNat ≤ 2047 ∧ 1 ≤ k.toNat ∧ k.toNat ≤ 15) ∧
    (∃ (c : CmdRef) (s : State) (f : BitVec 8) (n : BitVec 8) (p : List Byte), p = ((List.range n.toNat).flatMap fun i => (fin? 128 (f.toNat + i)).elim [] (chanBytes s)) ∧ Ready c 0x503 p.length s ∧ 1 ≤ n.toNat ∧ n.toNat ≤ 32 ∧ f.toNat + n.toNat ≤ 128) :=
  ⟨⟨wAcq, by decide⟩,
  ⟨c0, { wAcq with gnss := { wAcq.gnss with clusterEn := 0xF, chans := (Vector.replicate 128 {}).set 127 { run := true, codeRate := 2 ^ 60, since := 124999 } } }, 127, _, _, rfl, (by decide +kernel), (by decide +kernel), (by decide +kernel), rfl, (by decide +kernel)⟩,
  ⟨c0, { wAcq with gnss := { wAcq.gnss with clusterEn := 0xF, chans := (Vector.replicate 128 {}).set 127 { run := true, codeRate := 1 } } }, 127, _, rfl, (by decide +kernel), (by decide +kernel), (by decide +kernel), (fun k h => by cases h; decide)⟩,
  ⟨wAcq, by decide⟩,
  ⟨{ wAcq with gnss := { wAcq.gnss with spi := [{ cmd := some c0 }] } }, { cmd := some c0 }, [], c0, by decide⟩,
  ⟨c0, wAcq, ⟨1, 1, 1, true, true, 15, 15, 20000000, false⟩, 1, ⟨by decide, by decide⟩, by decide⟩,
  ⟨c0, wAcq, ⟨1, 3, 7, 64, Vector.replicate 64 0⟩, by decide⟩,
  ⟨c0, wAcq, 2047, 15, ⟨by decide, by decide⟩, by decide⟩,
  ⟨c0, wAcq, 96, 32, _, rfl, ⟨by decide, by decide +kernel⟩, by decide⟩⟩

/-- What `Obligations.GnssMeasurementCommands` assumes is met, clause by clause. -/
theorem witness_gnssMeasurementCommands :
    (∃ (s : State) (k : Nat), epochInstant s = some k ∧ timeUp s = true ∧ gnssUp s = true ∧ max s.time.odo (tickOf s k) ≤ s.time.bOdo + periodTicks ∧ (s.gnss.burst.active = true → s.gnss.burst.windowOpen = true)) ∧
    (∃ (s : State) (b : Fin 2), gnssUp s = true ∧ s.gnss.bank[b].full = true ∧ s.gnss.claim = none) ∧
    (∃ (s : State) (b : Fin 2), gnssUp s = true ∧ s.gnss.claim = some b) ∧
    (∃ (s : State), gnssUp s = true) ∧
    (∃ (s : State), gnssUp s = true) ∧
    (∃ (s : State), gnssUp s = true) ∧
    (∃ (s : State), gnssUp s = true ∧ s.gnss.guard.state = 1 ∧ s.gnss.guard.window ≤ s.gnss.guard.winAge) ∧
    (∃ (s : State), gnssUp s = true ∧ s.gnss.posMode = some false ∧ s.gnss.surveyLeft = 0) ∧
    (∃ (s : State), gnssUp s = true ∧ s.gnss.burst.en = true ∧ s.gnss.burst.active = false ∧ s.guy.atom.valid = true ∧ gnssSelected s = false) ∧
    (∃ (s : State) (k : Nat), k = max s.time.odo (tickOf s (nextAtMs s (-(s.gnss.burst.lead : Int)))) ∧ gnssUp s = true ∧ s.gnss.burst.active = true ∧ s.gnss.burst.windowOpen = false ∧ k ≤ s.time.bOdo + periodTicks) ∧
    (∃ (s : State) (k : Nat), k = max s.time.odo (tickOf s (nextAtMs s ((s.gnss.burst.w : Int) - s.gnss.burst.lead))) ∧ gnssUp s = true ∧ s.gnss.burst.active = true ∧ s.gnss.burst.windowOpen = true ∧ k ≤ s.time.bOdo + periodTicks) ∧
    (∃ (s : State), gnssUp s = true ∧ s.gnss.burst.active = true ∧ s.gnss.burst.exitPending ≠ 0) :=
  ⟨⟨{ wAcq with mile := { wAcq.mile with epochEn := true, epochRate := 50 } }, _, rfl, by decide⟩,
  ⟨{ wAcq with gnss := { wAcq.gnss with bank := Vector.replicate 2 { full := true } } }, 1, by decide⟩,
  ⟨{ wAcq with gnss := { wAcq.gnss with claim := some 1 } }, 1, by decide⟩,
  ⟨wAcq, by decide⟩,
  ⟨wAcq, by decide⟩,
  ⟨wAcq, by decide⟩,
  ⟨{ wAcq with gnss := { wAcq.gnss with guard := { state := 1, winAge := 3600 } } }, by decide⟩,
  ⟨{ wAcq with gnss := { wAcq.gnss with posMode := some false } }, by decide⟩,
  ⟨{ wAcq with gnss := { wAcq.gnss with burst := { en := true } }, guy := { wAcq.guy with atom := { valid := true } } }, by decide⟩,
  ⟨{ wAcq with time := { wAcq.time with cnt := 950000000 * nsU }, gnss := { wAcq.gnss with burst := { active := true } } }, _, rfl, by decide⟩,
  ⟨{ wAcq with time := { wAcq.time with cnt := 50000000 * nsU }, gnss := { wAcq.gnss with burst := { active := true, windowOpen := true } } }, _, rfl, by decide⟩,
  ⟨{ wAcq with gnss := { wAcq.gnss with burst := { active := true, exitPending := 1 } } }, by decide⟩⟩

/-- What `Obligations.GnssConfigCommands` assumes is met, clause by clause. -/
theorem witness_gnssConfigCommands :
    (∃ (c : CmdRef) (s : State) (p : List Byte), p = (match s.gnss.latest with | some b => bankBytesOf s.gnss.bank[b] | none => zeros 4160) ∧ Ready c 0x504 p.length s ∧ gnssUp s = true) ∧
    (∃ (c : CmdRef) (s : State), Ready c 0x506 48 s ∧ gnssUp s = true) ∧
    (∃ (c : CmdRef) (s : State) (a : PositionArgs), Ready c 0x505 0 s ∧ gnssUp s = true ∧ a.rsv = false ∧ gnssSelected s = false ∧ a.mode = 0#8 ∧ 3600 ≤ a.survey.toNat ∧ a.survey.toNat ≤ 604800) ∧
    (∃ (c : CmdRef) (s : State) (a : PositionArgs), Ready c 0x505 0 s ∧ gnssUp s = true ∧ a.rsv = false ∧ gnssSelected s = false ∧ a.mode = 1#8 ∧ 1 ≤ a.unc.toNat ∧ farOut a.x.toInt a.y.toInt a.z.toInt = false) ∧
    (∃ (c : CmdRef) (s : State) (d0 : Word) (d1 : Word) (u : Word), Ready c 0x507 0 s ∧ gnssUp s = true ∧ 1 ≤ u.toNat ∧ d0.toInt.natAbs ≤ 10000000 ∧ d1.toInt.natAbs ≤ 10000000 ∧ gnssSelected s = false) ∧
    (∃ (c : CmdRef) (s : State) (a : IntegrityArgs), Ready c 0x508 0 s ∧ gnssUp s = true ∧ a.rsv = false ∧ 10 ≤ a.traimLimit.toNat ∧ a.traimLimit.toNat ≤ 10000 ∧ 1 ≤ a.maxExcl.toNat ∧ a.maxExcl.toNat ≤ 8 ∧ 1 ≤ a.distMin.toNat ∧ a.distMin.toNat ≤ 32 ∧ 1 ≤ a.distLimit.toNat ∧ a.distLimit.toNat ≤ 1000 ∧ 5 ≤ a.agcDev.toNat ∧ a.agcDev.toNat ≤ 500) ∧
    (∃ (c : CmdRef) (s : State) (a : GuardArgs), Ready c 0x509 0 s ∧ gnssUp s = true ∧ a.rsv = false ∧ 5 ≤ a.spoofLimit.toNat ∧ a.spoofLimit.toNat ≤ 100000 ∧ 60 ≤ a.window.toNat ∧ a.window.toNat ≤ 86400 ∧ (a.enable = false → gnssSelected s = false)) ∧
    (∃ (c : CmdRef) (s : State), Ready c 0x50A 0 s ∧ gnssUp s = true ∧ s.gnss.guard.state = 3) ∧
    (∃ (c : CmdRef) (s : State) (a : BurstArgs), Ready c 0x50B 0 s ∧ gnssUp s = true ∧ a.rsv = false ∧ a.enable = 1#8 ∧ 20 ≤ a.w.toNat ∧ a.w.toNat ≤ 500 ∧ 10 ≤ a.lead.toNat ∧ a.lead.toNat ≤ a.w.toNat - 10 ∧ gnssSelected s = false ∧ s.guy.atom.valid = true) ∧
    (∃ (c : CmdRef) (s : State) (a : BurstArgs), Ready c 0x50B 0 s ∧ gnssUp s = true ∧ a.rsv = false ∧ a.enable = 0#8) :=
  ⟨⟨c0, wAcq, _, rfl, ⟨by decide, by decide +kernel⟩, by decide⟩,
  ⟨c0, wAcq, ⟨by decide, by decide⟩, by decide⟩,
  ⟨c0, wAcq, ⟨0, 604800, 0, 0, 0, 0, false⟩, ⟨by decide, by decide⟩, by decide⟩,
  ⟨c0, wAcq, ⟨1, 0, 7000000000, 0, 0, 1, false⟩, ⟨by decide, by decide⟩, by decide⟩,
  ⟨c0, wAcq, 10000000, 10000000, 1, ⟨by decide, by decide⟩, by decide⟩,
  ⟨c0, wAcq, ⟨10000, 8, 32, 1000, 500, false⟩, ⟨by decide, by decide⟩, by decide⟩,
  ⟨c0, wAcq, ⟨100000, 86400, false, true, false⟩, ⟨by decide, by decide⟩, by decide⟩,
  ⟨c0, { wAcq with gnss := { wAcq.gnss with guard := { state := 3 } } }, ⟨by decide, by decide⟩, by decide⟩,
  ⟨c0, { wAcq with guy := { wAcq.guy with atom := { valid := true } } }, ⟨1, 500, 490, false⟩, ⟨by decide, by decide⟩, by decide⟩,
  ⟨c0, wAcq, ⟨0, 0, 0, false⟩, ⟨by decide, by decide⟩, by decide⟩⟩

/-- What `Obligations.PortEvents` assumes is met, clause by clause. -/
theorem witness_portEvents :
    (∃ (s : State) (p : Fin 4), portUp s p = true ∧ s.port.p[p].pcsUp = false) ∧
    (∃ (s : State) (p : Fin 4), linkMay s p = true ∧ s.port.p[p].holdRunning = true) ∧
    (∃ (s : State) (p : Fin 4), portUp s p = true ∧ s.port.p[p].mode = 3 ∧ s.port.p[p].an = true) ∧
    (∃ (s : State) (p : Fin 4), portUp s p = true ∧ s.port.p[p].pllLock = true) ∧
    (∃ (s : State) (p : Fin 4), portUp s p = true ∧ s.port.p[p].pllLock = false) ∧
    (∃ (s : State) (p : Fin 4), portUp s p = true) ∧
    (∃ (s : State) (p : Fin 4), s.port.p[p].phaseLost = true) ∧
    (∃ (s : State) (p : Fin 4) (k : Nat), k = 4 * s.port.p[p].pauseAt + s.port.p[p].pauseTimer * quantumQ s.port.p[p].mode ∧ s.port.p[p].pauseTimer ≠ 0 ∧ inPeriod k s = true) ∧
    (∃ (s : State) (p : Fin 4) (k : Nat), k = 4 * (s.port.p[p].pauseSince + 781250 * s.port.p[p].pauseWd) ∧ s.port.p[p].pauseTimer ≠ 0 ∧ scopeNow s.port.p[p] ≠ 0 ∧ inPeriod k s = true) ∧
    (∃ (s : State) (p : Fin 4), s.port.p[p].txPause = true ∧ s.port.p[p].xoffSent = true) ∧
    (∃ (s : State) (p : Fin 4), s.port.p[p].txPause = true ∧ s.port.p[p].xoffSent = true ∧ s.port.p[p].xon * 1024 < s.port.p[p].fill) ∧
    (∃ (s : State) (p : Fin 4), s.port.p[p].esmcEn = true ∧ s.port.p[p].esmcEventDue = true ∧ s.port.p[p].link = true) ∧
    (∃ (s : State) (p : Fin 4), s.port.p[p].link = true) ∧
    (∃ (s : State) (p : Fin 4) (f : RxFrame) (q : _), f.port = p ∧ s.port.p[p].link = true ∧ 64 ≤ f.len ∧ f.len ≤ s.port.p[p].maxFrame ∧ f.fcsOk = true ∧ f.fill + f.len ≤ 98304 ∧ f.body = .macControl 1#16 q) ∧
    (∃ (s : State) (p : Fin 4) (f : RxFrame) (u : _), f.port = p ∧ s.port.p[p].link = true ∧ 64 ≤ f.len ∧ f.len ≤ s.port.p[p].maxFrame ∧ f.fcsOk = true ∧ f.fill + f.len ≤ 98304 ∧ f.body = .slow u ∧ u.subtype = 0x0A#8) ∧
    (∃ (s : State) (p : Fin 4) (f : RxFrame), (f.body = .other ∨ (∃ u, f.body = .slow u ∧ u.subtype ≠ 0x0A#8)) ∧ f.port = p ∧ s.port.p[p].link = true ∧ 64 ≤ f.len ∧ f.len ≤ s.port.p[p].maxFrame ∧ f.fcsOk = true ∧ f.fill + f.len ≤ 98304) ∧
    (∃ (s : State) (p : Fin 4) (d : TxDesc) (r : TxRing), s.port.p[p].txRing[d.slot] = some r ∧ r.full = false ∧ canWrite s d.slot = true ∧ d.queue ≤ 5) ∧
    (∃ (s : State) (p : Fin 4) (d : TxDesc) (r : TxRing), s.port.p[p].txRing[d.slot] = some r ∧ r.full = false ∧ canWrite s d.slot = true ∧ 5 < d.queue) ∧
    (∃ (s : State) (p : Fin 4) (f : _), inAir s.port.p[p] = some f ∧ inPeriod (airEnd s.port.p[p] f) s = true) :=
  ⟨⟨{ wAcq with port := { wAcq.port with p := Vector.replicate 4 { mode := 1 } } }, 3, by decide⟩,
  ⟨{ wAcq with port := { wAcq.port with p := Vector.replicate 4 { mode := 1, pcsUp := true, pllLock := true, holdRunning := true } } }, 3, by decide⟩,
  ⟨{ wAcq with port := { wAcq.port with p := Vector.replicate 4 { mode := 3 } } }, 3, by decide⟩,
  ⟨{ wAcq with port := { wAcq.port with p := Vector.replicate 4 { mode := 1, pllLock := true } } }, 3, by decide⟩,
  ⟨{ wAcq with port := { wAcq.port with p := Vector.replicate 4 { mode := 1 } } }, 3, by decide⟩,
  ⟨{ wAcq with port := { wAcq.port with p := Vector.replicate 4 { mode := 1 } } }, 3, by decide⟩,
  ⟨{ wAcq with port := { wAcq.port with p := Vector.replicate 4 { phaseLost := true } } }, 3, by decide⟩,
  ⟨{ wAcq with port := { wAcq.port with p := Vector.replicate 4 { mode := 1, pauseTimer := 1 } } }, 3, _, rfl, by decide⟩,
  ⟨{ wAcq with port := { wAcq.port with p := Vector.replicate 4 { mode := 1, pauseTimer := 1 } }, time := { wAcq.time with bOdo := 78125000 } }, 3, _, rfl, by decide⟩,
  ⟨{ wAcq with port := { wAcq.port with p := Vector.replicate 4 { txPause := true, xoffSent := true } } }, 3, by decide⟩,
  ⟨{ wAcq with port := { wAcq.port with p := Vector.replicate 4 { txPause := true, xoffSent := true, fill := 32769 } } }, 3, by decide⟩,
  ⟨{ wAcq with port := { wAcq.port with p := Vector.replicate 4 { esmcEn := true, esmcEventDue := true, link := true } } }, 3, by decide⟩,
  ⟨{ wAcq with port := { wAcq.port with p := Vector.replicate 4 { link := true } } }, 3, by decide⟩,
  ⟨{ wAcq with port := { wAcq.port with p := Vector.replicate 4 { link := true } } }, 3, { wFrame with port := 3, len := 64, fill := 98240, body := .macControl 1 0xFFFF }, 0xFFFF, by decide⟩,
  ⟨{ wAcq with port := { wAcq.port with p := Vector.replicate 4 { link := true } } }, 3, { wFrame with port := 3, len := 64, fill := 0, body := .slow wPdu }, wPdu, by decide⟩,
  ⟨{ wAcq with port := { wAcq.port with p := Vector.replicate 4 { link := true } } }, 3, { wFrame with port := 3, len := 1522, fill := 0, body := .other }, .inl rfl, by decide⟩,
  ⟨{ wAcq with port := { wAcq.port with p := Vector.replicate 4 { link := true, genCells := 232, txRing := Vector.replicate 8 (some { count := 16 }) } } }, 3, { len := 1518, queue := 5 }, { count := 16 }, by decide⟩,
  ⟨{ wAcq with port := { wAcq.port with p := Vector.replicate 4 { link := true, genCells := 232, txRing := Vector.replicate 8 (some { count := 16 }) } } }, 3, { len := 1518, queue := 6 }, { count := 16 }, by decide⟩,
  ⟨{ wAcq with port := { wAcq.port with p := Vector.replicate 4 { txq := [{ start := some 0, len := 64 }] } } }, 3, _, rfl, by decide⟩⟩

/-- What `Obligations.PortCommands` assumes is met, clause by clause. -/
theorem witness_portCommands :
    (∃ (c : CmdRef) (s : State) (a : PortConfigArgs) (p : Fin 4), Ready c 0x600 0 s ∧ a.rsv = false ∧ a.port.toNat = p.1 ∧ a.mode.toNat ≤ 3 ∧ (a.fec = true → a.mode = 1#8) ∧ (a.an = true → a.mode = 3#8) ∧ (a.setMac = true → a.mac.getLsbD 40 = false ∧ a.mac ≠ 0#48) ∧ 1518 ≤ a.maxFrame.toNat ∧ a.maxFrame.toNat ≤ 9600 ∧ a.linkHold.toNat ≤ 10000 ∧ firstFail (portChecks s p a) = stOk) ∧
    (∃ (c : CmdRef) (s : State) (b : BitVec 8), Ready c 0x601 48 s ∧ b.toNat < 4) ∧
    (∃ (c : CmdRef) (s : State) (a : PauseArgs) (p : Fin 4), Ready c 0x602 0 s ∧ a.rsv = false ∧ a.port.toNat = p.1 ∧ a.scope.toNat ≤ 2 ∧ 1 ≤ a.wd.toNat ∧ a.wd.toNat ≤ 1000 ∧ a.xoff.toNat ≤ 64 ∧ a.xon.toNat + 8 ≤ a.xoff.toNat) ∧
    (∃ (c : CmdRef) (s : State) (a : EsmcArgs) (p : Fin 4), Ready c 0x603 0 s ∧ a.rsv = false ∧ a.port.toNat = p.1 ∧ a.ssm.toNat ≤ 15 ∧ (a.qlMode = true → esmcCodes a.ssm.toNat a.essm.toNat = true)) ∧
    (∃ (c : CmdRef) (s : State) (a : RingArgs) (p : Fin 4), Ready c 0x604 0 s ∧ cmdRole c s = .owner ∧ pfOf s c.slot ≠ none ∧ a.rsv = false ∧ a.port.toNat = p.1 ∧ a.enable.toNat ≤ 1 ∧ 16 ≤ a.count.toNat ∧ a.count.toNat ≤ 4096 ∧ isPow2 a.count.toNat = true ∧ a.dir = 1#8 ∧ 2 ≤ a.bufKiB.toNat ∧ a.bufKiB.toNat ≤ 10 ∧ s.port.p[p].maxFrame ≤ a.bufKiB.toNat * 1024) ∧
    (∃ (c : CmdRef) (s : State) (a : RingArgs) (p : Fin 4), Ready c 0x604 0 s ∧ cmdRole c s = .owner ∧ pfOf s c.slot ≠ none ∧ a.rsv = false ∧ a.port.toNat = p.1 ∧ a.enable.toNat ≤ 1 ∧ 16 ≤ a.count.toNat ∧ a.count.toNat ≤ 4096 ∧ isPow2 a.count.toNat = true ∧ a.dir = 0#8) ∧
    (∃ (c : CmdRef) (s : State) (m : BitVec 16), Ready c 0x610 0 s ∧ 500 ≤ m.toNat ∧ m.toNat ≤ 50000) ∧
    (∃ (c : CmdRef) (s : State) (sl : BitVec 8) (po : BitVec 8) (li : BitVec 8) (i : Fin 8) (p : Fin 4), Ready c 0x611 0 s ∧ sl.toNat = i.1 ∧ po.toNat = p.1 ∧ 1 ≤ li.toNat ∧ li.toNat ≤ 64) ∧
    (∃ (c : CmdRef) (s : State) (po : BitVec 8) (p : Fin 4) (n : BitVec 16), po.toNat = p.1 ∧ s.port.p[p].link = true ∧ s.port.p[p].mode ≠ 0 ∧ s.wayp.p[p].cal = none ∧ 1 ≤ n.toNat ∧ n.toNat ≤ 1000 ∧ Taken c 0x612 s ∧ ppsRuns s s.mile.pps[0] = true) ∧
    (∃ (c : CmdRef) (s : State) (po : BitVec 8) (p : Fin 4) (n : BitVec 16) (rx : BitVec 8) (r : Fin 4), po.toNat = p.1 ∧ s.port.p[p].link = true ∧ s.port.p[p].mode ≠ 0 ∧ s.wayp.p[p].cal = none ∧ 1 ≤ n.toNat ∧ n.toNat ≤ 1000 ∧ rx.toNat = r.1 ∧ s.port.p[r].link = true ∧ s.port.p[r].mode ≠ 0 ∧ Taken c 0x613 s) ∧
    (∃ (c : CmdRef) (s : State) (a : CalSetArgs) (p : Fin 4), Ready c 0x614 0 s ∧ a.rsv = false ∧ a.port.toNat = p.1 ∧ 1 ≤ a.unc.toNat ∧ a.unc.toNat ≤ 4000 ∧ a.txLat.toNat ≤ 1000000 ∧ a.rxLat.toNat ≤ 1000000 ∧ s.regs.lk.getLsbD 3 = false) :=
  ⟨⟨c0, wProv, ⟨3, 1, true, false, true, 9600, 10000, 1, false⟩, 3, ⟨by decide, by decide⟩, by decide⟩,
  ⟨c0, wAcq, 3, ⟨by decide, by decide⟩, by decide⟩,
  ⟨c0, wAcq, ⟨3, 2, true, 1000, 64, 56, false⟩, 3, ⟨by decide, by decide⟩, by decide⟩,
  ⟨c0, wAcq, ⟨3, true, true, true, 2, 0x23, false⟩, 3, ⟨by decide, by decide⟩, by decide⟩,
  ⟨c0, wAcq, ⟨3, 1, 1, 4096, 10, 0, 0, false⟩, 3, ⟨by decide, by decide⟩, by decide⟩,
  ⟨c0, wAcq, ⟨3, 0, 1, 16, 10, 0, 0, false⟩, 3, ⟨by decide, by decide⟩, by decide⟩,
  ⟨c0, wAcq, 50000, ⟨by decide, by decide⟩, by decide⟩,
  ⟨c0, wAcq, 7, 3, 64, 7, 3, ⟨by decide, by decide⟩, by decide⟩,
  ⟨c0, { wProv with port := { wProv.port with p := Vector.replicate 4 { mode := 1, link := true } }, mile := { wProv.mile with pps := Vector.replicate 4 { en := true } }, time := { wProv.time with valid := true } }, 3, 3, 1000, by decide⟩,
  ⟨c0, { wProv with port := { wProv.port with p := Vector.replicate 4 { mode := 1, link := true } } }, 3, 3, 1000, 2, 2, by decide⟩,
  ⟨c0, wProv, ⟨3, true, 1000000, 1000000, 4000, false⟩, 3, ⟨by decide, by decide⟩, by decide⟩⟩

/-- What `Obligations.WaypointEvents` assumes is met, clause by clause. -/
theorem witness_waypointEvents :
    (∃ (s : State) (p : Fin 4) (id : Nat) (a : Int) (x : _), unreserved s p id = some a ∧ txnOf s id = some x ∧ inPeriod (lateQ a) s = true) ∧
    (∃ (s : State) (p : Fin 4) (id : Nat) (a : Int) (m : _), unreserved s p id = some a ∧ msgOf s id = some m ∧ inPeriod (lateQ a) s = true ∧ txnOf s id = none) ∧
    (∃ (s : State) (p : Fin 4) (e : _), s.wayp.p[p].launch.find? (!·.checked) = some e ∧ inPeriod (e.d - 512) s = true ∧ isSilent s e = false ∧ e.ready ≤ e.d - 512) ∧
    (∃ (s : State) (p : Fin 4) (e : _), s.wayp.p[p].launch.head? = some e ∧ inPeriod e.d s = true ∧ e.cal = false ∧ isSilent s e = false ∧ e.checked = true ∧ s.port.p[p].link = true ∧ (scopeNow s.port.p[p] = 2 → s.port.p[p].pauseTimer = 0)) ∧
    (∃ (s : State) (p : Fin 4) (e : _), s.wayp.p[p].launch.head? = some e ∧ inPeriod e.d s = true ∧ e.cal = true) ∧
    (∃ (s : State) (p : Fin 4) (i : Fin 8) (e : TsqEnt), decideAccess s ⟨i.1, by omega⟩ (0x90110 + 0x40 * p.1) false = .ok ∧ s.wayp.p[p].tsq.find? (·.slot == i) = some e) ∧
    (∃ (s : State) (p : Fin 4) (i : Fin 8), decideAccess s ⟨i.1, by omega⟩ (0x90128 + 0x40 * p.1) false = .ok) ∧
    (∃ (s : State) (p : Fin 4) (k : WaypCal), s.wayp.p[p].cal = some k ∧ k.loop_ = true ∧ k.n ≤ k.results.length) ∧
    (∃ (s : State) (p : Fin 4) (k : WaypCal), s.wayp.p[p].cal = some k ∧ k.loop_ = true ∧ k.results.length < k.n ∧ k.start + tickSec ≤ s.time.odo) ∧
    (∃ (s : State) (p : Fin 4) (k : WaypCal), (∀ e ∈ s.wayp.p[p].launch, e.cal = false) ∧ s.wayp.p[p].cal = some k ∧ k.loop_ = false ∧ k.left = 0 ∧ k.results ≠ []) :=
  ⟨⟨{ wAcq with wayp := { wAcq.wayp with p := Vector.replicate 4 { waiting := [{ arrival := 0 }] } }, serv := { wAcq.serv with inflight := [{}] } }, 3, 0, _, _, rfl, rfl, by decide⟩,
  ⟨{ wAcq with wayp := { wAcq.wayp with p := Vector.replicate 4 { waiting := [{ arrival := 0, txn := 1 }] } }, ptp := { wAcq.ptp with msgs := [{}] } }, 3, 1, _, _, rfl, rfl, by decide⟩,
  ⟨{ wAcq with wayp := { wAcq.wayp with p := Vector.replicate 4 { launch := [{ d := 512, txn := 1 }] } } }, 3, _, rfl, by decide⟩,
  ⟨{ wAcq with wayp := { wAcq.wayp with p := Vector.replicate 4 { launch := [{ d := 512, txn := 1, checked := true }] } }, port := { wAcq.port with p := Vector.replicate 4 { link := true } } }, 3, _, rfl, by decide⟩,
  ⟨{ wAcq with wayp := { wAcq.wayp with p := Vector.replicate 4 { launch := [{ d := 512, cal := true }] } } }, 3, _, rfl, by decide⟩,
  ⟨{ wAcq with wayp := { wAcq.wayp with p := Vector.replicate 4 { tsq := [{}] } } }, 3, 0, {}, by decide⟩,
  ⟨wAcq, 3, 0, by decide⟩,
  ⟨{ wAcq with wayp := { wAcq.wayp with p := Vector.replicate 4 { cal := some { loop_ := true, n := 1, results := [0] } } } }, 3, _, rfl, by decide⟩,
  ⟨{ wAcq with wayp := { wAcq.wayp with p := Vector.replicate 4 { cal := some { loop_ := true, n := 1 } } }, time := { wAcq.time with odo := tickSec } }, 3, _, rfl, by decide⟩,
  ⟨{ wAcq with wayp := { wAcq.wayp with p := Vector.replicate 4 { cal := some { results := [0] } } } }, 3, { results := [0] }, (fun e h => by cases h), by decide⟩⟩

/-- What `Obligations.ServiceCommands` assumes is met, clause by clause. -/
theorem witness_serviceCommands :
    (∃ (s : State) (id : Nat) (x : Txn) (cur : Option (Fin 64)), s.serv.inflight.find? (fun t => t.id == id && t.nts && t.authOk = 0) = some x ∧ x.kodR = false ∧ cur = currentKey s x.slot.1 false 0 ∧ authResult cur.isSome x = 2) ∧
    (∃ (s : State), s.sys.mgmtFwRunning = true ∧ (s.pert.k[1]).armed = false) ∧
    (∃ (s : State) (b : BitVec 18), timeUp s = true ∧ s.time.odo ≤ s.serv.sweepStart + 468750000000 ∧ b.toNat = s.serv.sweepPos ∧ b.toNat + 1 < 262144) ∧
    (∃ (s : State) (i : Fin 8) (k : Fin 32) (a : ServAddr), s.serv.slots[i].addrs[k] = some a ∧ smearOpenNow s a ≠ a.smearOpen) ∧
    (∃ (s : State) (x : BitVec 8), powered s 5 = true ∧ s.serv.aesLanes &&& x ≠ s.serv.aesLanes) ∧
    (∃ (c : CmdRef) (s : State) (a : AddrSetArgs) (k : Fin 32), Ready c 0x700 0 s ∧ a.rsv = false ∧ a.idx.toNat = k.1 ∧ (a.ntp || a.nts) = true ∧ (a.ipv6 = false → a.addr.toNat % 2 ^ 96 = 0) ∧ isUnicast (setAddr a) = true ∧ a.vlan.toNat ≤ 4094 ∧ (a.ipv6 = true → 32 ≤ a.prefix6.toNat ∧ a.prefix6.toNat ≤ 128) ∧ 1 ≤ a.ports.toNat ∧ a.ports.toNat ≤ 15 ∧ 1 ≤ a.rate.toNat ∧ a.rate.toNat ≤ 1048575 ∧ 1 ≤ a.burst.toNat ∧ a.burst.toNat ≤ 1024 ∧ (a.smear = true → a.w ≠ 0#32) ∧ (a.w ≠ 0#32 → 3600 ≤ a.w.toNat ∧ a.w.toNat ≤ 172800) ∧ (a.burst.toNat - 1) * emission a.rate.toNat < 2 ^ 30 ∧ (addrAt s c.slot k.1 = none → addrTotal s < 256) ∧ (∀ b ∈ otherAddrs s c.slot k.1, addrClash (newAddr a) b = false) ∧ smearLocked s c.slot a = false) ∧
    (∃ (c : CmdRef) (s : State) (b : BitVec 8) (k : Fin 32), Ready c 0x701 0 s ∧ b.toNat = k.1) ∧
    (∃ (c : CmdRef) (s : State) (p : List Byte), p = le 1 (addrCount s.serv.slots[c.slot]) ++ zeros 3 ++ ((List.finRange 32).flatMap fun k => s.serv.slots[c.slot].addrs[k].elim [] (addrRecord k.1)) ∧ Ready c 0x702 p.length s) ∧
    (∃ (c : CmdRef) (s : State) (a : ServConfigArgs), Ready c 0x703 0 s ∧ a.rsv = false ∧ 1 ≤ a.creditMax.toNat ∧ a.creditMax.toNat ≤ 32000 ∧ 1 ≤ a.maxCookies.toNat ∧ a.maxCookies.toNat ≤ 8) ∧
    (∃ (c : CmdRef) (s : State) (b : BitVec 8) (i : Fin 8) (l : BitVec 16), Ready c 0x704 0 s ∧ b.toNat = i.1 ∧ 1 ≤ l.toNat ∧ l.toNat ≤ 32000) ∧
    (∃ (c : CmdRef) (s : State), Ready c 0x705 40 s) ∧
    (∃ (c : CmdRef) (s : State) (a : MintArgs) (k : Fin 64), Ready c 0x710 (8 + 104 * a.count.toNat) s ∧ a.rsv = false ∧ a.alg = 15#16 ∧ 1 ≤ a.count.toNat ∧ a.count.toNat ≤ 8 ∧ s.vault.storeLoaded = true ∧ currentKey s c.slot.1 false 0 = some k ∧ ntsUp s = true) :=
  ⟨⟨{ wAcq with serv := { wAcq.serv with inflight := [{ nts := true }] } }, 0, _, none, rfl, by decide⟩,
  ⟨wAcq, by decide⟩,
  ⟨{ wAcq with serv := { wAcq.serv with sweepPos := 262142 } }, 262142, by decide⟩,
  ⟨{ wAcq with serv := { wAcq.serv with slots := Vector.replicate 8 { addrs := Vector.replicate 32 (some { smear := true }) } }, time := { wAcq.time with leap := some .leap61, leapAt := 43200 } }, 7, 31, { smear := true }, by decide⟩,
  ⟨wAcq, 0xFE, by decide⟩,
  ⟨c0, wAcq, ⟨31, true, true, true, true, false, true, 15, 0, 4094, 0xC0000201000000000000000000000000, 1048575, 1024, 172800, false⟩, 31, ⟨by decide, by decide⟩, by decide⟩,
  ⟨c0, wAcq, 31, 31, ⟨by decide, by decide⟩, by decide⟩,
  ⟨c0, wAcq, _, rfl, ⟨by decide, by decide⟩⟩,
  ⟨c0, wAcq, ⟨32000, 8, true, false⟩, ⟨by decide, by decide⟩, by decide⟩,
  ⟨c0, wAcq, 7, 7, 32000, ⟨by decide, by decide⟩, by decide⟩,
  ⟨c0, wAcq, ⟨by decide, by decide⟩⟩,
  ⟨c0, wKeyed2, ⟨8, 15, Vector.replicate 32 0, Vector.replicate 32 0, false⟩, 8, ⟨by decide, by decide⟩, by decide⟩⟩

/-- What `Obligations.PtpCommands` assumes is met, clause by clause. -/
theorem witness_ptpCommands :
    (∃ (s : State) (i : BitVec 17) (off : BitVec 16) (k : PtpInst) (s1 : State), s1 = atTick off s ∧ timeUp s = true ∧ landsEvery s1 gridFrame (i.toNat * 7808500 * 2 ^ 31) = true ∧ (grantGet s1 i.toNat).free = false ∧ s.ptp.inst[(grantGet s1 i.toNat).inst] = some k ∧ (grantGet s1 i.toNat).expired s1 = true) ∧
    (∃ (s : State) (i : BitVec 17) (off : BitVec 16) (k : PtpInst) (s1 : State), s1 = atTick off s ∧ timeUp s = true ∧ landsEvery s1 gridFrame (i.toNat * 7808500 * 2 ^ 31) = true ∧ (grantGet s1 i.toNat).free = false ∧ s.ptp.inst[(grantGet s1 i.toNat).inst] = some k ∧ (grantGet s1 i.toNat).expired s1 = false ∧ servOpen s1 = true ∧ -16384 ≤ ((grantGet s1 i.toNat).dreqTat - dreqTime s1).toInt) ∧
    (∃ (s : State) (k : Fin 16) (p : Fin 4) (off : BitVec 16) (q : PtpInst) (s1 : State), s1 = atTick off s ∧ s.ptp.inst[k] = some q ∧ timeUp s = true ∧ landsEvery s1 gridFrame (7808500 * nsU + (16 * p.1 + k.1) * 125 * 2 ^ 47) = true ∧ servOpen s1 = true ∧ q.unicast = false ∧ q.ports.getLsbD p.1 = true) ∧
    (∃ (c : CmdRef) (s : State), Ready c 0x800 0 s) ∧
    (∃ (c : CmdRef) (s : State) (a : InstArgs) (k : PtpInst), Ready c 0x801 0 s ∧ k = newInst c a ∧ (k.auth = true → ringKeys s c.slot.1 true k.spp ≠ []) ∧ (∀ x, instAt s a.idx = some x → (instMoved x k && hasGrants s a.idx) = false) ∧ notOwn c a.idx s = false ∧ a.rsv = false ∧ a.idx.toNat ≤ 15 ∧ a.profile.toNat ≤ 2 ∧ a.transport.toNat ≤ 2 ∧ a.ports.toNat ≤ 15 ∧ transportOk k.profile k.transport k.unicast = true ∧ (k.unicast = true → instAddr s k ≠ none) ∧ (k.unicast = false → c.slot = 0 ∧ 1 ≤ a.ports.toNat ∧ breaksBudget a.idx k s = false) ∧ domainOk k.profile k.domain = true ∧ annOk k.profile k.logAnn = true ∧ syncOk k.profile k.unicast k.logSync = true ∧ (k.profile ≠ 0 → k.prio1 = 128) ∧ classOk k.profile k.oosClass = true ∧ 0x17 ≤ k.accFloor ∧ k.accFloor ≤ 0x30 ∧ 10 ≤ k.durMax ∧ k.durMax ≤ 1000 ∧ clientClash s k = false) ∧
    (∃ (c : CmdRef) (s : State) (idx : BitVec 8), Ready c 0x802 0 s ∧ notOwn c idx s = false ∧ idx.toNat ≤ 15) ∧
    (∃ (c : CmdRef) (s : State) (b : BitVec 8) (i : Fin 8) (g : Word) (r : Word), Ready c 0x803 0 s ∧ b.toNat = i.1 ∧ g.toNat ≤ 131072 ∧ r.toNat ≤ 16000000) ∧
    (∃ (c : CmdRef) (s : State) (b : Word), Ready c 0x804 0 s ∧ 1000 ≤ b.toNat ∧ b.toNat ≤ 16000000) ∧
    (∃ (c : CmdRef) (s : State), Ready c 0x805 88 s) ∧
    (∃ (c : CmdRef) (s : State) (f : Word) (n : BitVec 16) (l : List (Nat × Grant)) (p : List Byte), l = s.ptp.grants.filter (fun e => f.toNat ≤ e.1) ∧ p = le 2 (l.take n.toNat).length ++ zeros 2 ++ le 4 ((l.drop n.toNat).head?.elim 0xFFFFFFFF (·.1)) ++ ((l.take n.toNat).flatMap fun e => grantRecord s e.2) ∧ Ready c 0x806 p.length s ∧ 1 ≤ n.toNat ∧ n.toNat ≤ 100) ∧
    (∃ (c : CmdRef) (s : State) (n : BitVec 16) (l : List GrantRec), Ready c 0x807 4 s ∧ 1 ≤ n.toNat ∧ n.toNat ≤ 100 ∧ (∀ r ∈ l, r.inst.toNat ≤ 15)) ∧
    (∃ (c : CmdRef) (s : State) (b : BitVec 8), Ready c 0x808 4 s ∧ notOwn c b s = false ∧ (b.toNat ≤ 15 ∨ b = 0xFF#8)) :=
  ⟨⟨{ wAcq with ptp := { wAcq.ptp with inst := Vector.replicate 16 (some {}), grants := [(0, { logSync := 0, exp := 16383 })] } }, 0, 0, {}, _, rfl, by decide⟩,
  ⟨{ wServe with ptp := { wServe.ptp with inst := Vector.replicate 16 (some {}), grants := [(0, { logSync := 0, exp := 0 })] } }, 0, 0, {}, _, rfl, by decide⟩,
  ⟨{ wServe with time := { wServe.time with cnt := 7808500 * nsU + 63 * 125 * 2 ^ 47 }, ptp := { wServe.ptp with inst := Vector.replicate 16 (some { ports := 0xF }) } }, 15, 3, 0, _, _, rfl, rfl, by decide⟩,
  ⟨c0, wAcq, ⟨by decide, by decide⟩⟩,
  ⟨c0, wAcq, ⟨15, 0, 127, 2, false, false, true, true, 0, 15, 0, 4, 1, 255, 255, 187, 0x30, 1000, 0, false⟩, _, ⟨by decide, by decide⟩, rfl, (fun h => absurd h (by decide)), (fun x h => by cases h), by decide⟩,
  ⟨c0, wAcq, 15, ⟨by decide, by decide⟩, by decide⟩,
  ⟨c0, wAcq, 7, 7, 131072, 16000000, ⟨by decide, by decide⟩, by decide⟩,
  ⟨c0, wAcq, 16000000, ⟨by decide, by decide⟩, by decide⟩,
  ⟨c0, wAcq, ⟨by decide, by decide⟩⟩,
  ⟨c0, { wAcq with ptp := { wAcq.ptp with inst := Vector.replicate 16 (some {}), grants := [(0, { logSync := 0 })] } }, 0, 100, _, _, rfl, rfl, ⟨by decide, by decide⟩, by decide⟩,
  ⟨c0, wStandby, 100, [⟨0, 0, 0, 15, 0, false, 0, 0, 0, 0, 0⟩], ⟨by decide, by decide⟩, by decide⟩,
  ⟨c0, wAcq, 0xFF, ⟨by decide, by decide⟩, by decide⟩⟩

/-- What `Obligations.ClientCommands` assumes is met, clause by clause. -/
theorem witness_clientCommands :
    (∃ (s : State) (k : Fin 2) (j : Fin 4) (x : PtpCand) (n : Fin 3) (g : Int × Nat × Nat) (q : PtpKind) (t : Nat), s.ptp.client[k].cands[j.1]? = some x ∧ q = clientKind n ∧ candGrant x q = some g ∧ t = 4 * g.2.1 + 2 * g.2.2 * tickSec ∧ clientRuns s k = true ∧ s.ptp.client[k].unicast = true ∧ x.asked.contains q = false ∧ inPeriod t s = true) ∧
    (∃ (s : State) (k : Fin 2) (j : Fin 4) (x : PtpCand), s.ptp.client[k].cands[j.1]? = some x ∧ clientRuns s k = true ∧ s.ptp.client[k].unicast = true ∧ inPeriod (4 * askDue x) s = true) ∧
    (∃ (s : State) (k : Fin 2) (j : Nat) (x : PtpCand) (l : Int) (t : Nat) (u : State), s.ptp.client[k].cands[j]? = some x ∧ t = 4 * (s.ptp.client[k].dreqAt.elim 0 fun t => t + logTicks l) ∧ u = atQ t s ∧ clientRuns s k = true ∧ s.ptp.client[k].unicast = true ∧ s.ptp.client[k].best = some j ∧ candHeld s x .delayResp = some l ∧ inPeriod t s = true ∧ candHeld u x .delayResp ≠ none) ∧
    (∃ (s : State) (k : Fin 2) (j : Nat) (x : PtpCand) (t : Nat), s.ptp.client[k].cands[j]? = some x ∧ candEnd s.ptp.client[k] x = some t ∧ clientRuns s k = true ∧ inPeriod (4 * t) s = true) ∧
    (∃ (s : State) (k : Fin 2) (c : CmdRef) (a : ClientArgs) (n : PtpClient), n = newClient a {} ∧ Ready c 0x810 0 s ∧ a.rsv = false ∧ a.client.toNat = k.1 ∧ a.enable.toNat ≤ 1 ∧ a.profile.toNat ≤ 2 ∧ a.transport.toNat ≤ 2 ∧ a.port.toNat ≤ 3 ∧ transportOk n.profile n.transport n.unicast = true ∧ (a.unicast = true → 1 ≤ a.cands.toNat) ∧ a.cands.toNat ≤ 4 ∧ 1 ≤ a.duration.toNat ∧ domainOk n.profile n.domain = true ∧ annOk n.profile n.logAnn = true ∧ syncOk n.profile n.unicast n.logSync = true ∧ syncOk n.profile n.unicast n.logDreq = true ∧ (n.en = true → instClash s n = false) ∧ (n.auth = true → ringKeys s 0 true n.spp ≠ [])) :=
  ⟨⟨{ wAcq with ptp := { wAcq.ptp with client := Vector.replicate 2 { en := true, unicast := true, cands := List.replicate 4 { grantedSync := some (0, 0, 0) } } }, sign := { wAcq.sign with slots := Vector.replicate 12 { state := .qualified } } }, 1, 3, _, 1, _, _, _, rfl, rfl, rfl, rfl, by decide⟩,
  ⟨{ wAcq with ptp := { wAcq.ptp with client := Vector.replicate 2 { en := true, unicast := true, cands := List.replicate 4 {  } } }, sign := { wAcq.sign with slots := Vector.replicate 12 { state := .qualified } } }, 1, 3, _, rfl, by decide⟩,
  ⟨{ wAcq with ptp := { wAcq.ptp with client := Vector.replicate 2 { en := true, unicast := true, cands := List.replicate 4 { grantedDresp := some (0, 0, 1) }, best := some 3 } }, sign := { wAcq.sign with slots := Vector.replicate 12 { state := .qualified } } }, 1, 3, _, 0, _, _, rfl, rfl, rfl, by decide⟩,
  ⟨{ wAcq with ptp := { wAcq.ptp with client := Vector.replicate 2 { en := true, unicast := true, cands := List.replicate 4 { lastAnn := some 0, grantedAnn := some (-128, 0, 1) } } }, sign := { wAcq.sign with slots := Vector.replicate 12 { state := .qualified } } }, 1, 3, _, _, rfl, rfl, by decide⟩,
  ⟨wAcq, 1, c0, ⟨1, 1, 0, 0, 3, 127, true, false, false, 0, 4, 1, 1, 4, 1, Vector.replicate 4 (.v4 1), false⟩, _, rfl, ⟨by decide, by decide⟩, by decide⟩⟩

/-- What `Obligations.FootbridgeEvents` assumes is met, clause by clause. -/
theorem witness_footbridgeEvents :
    (∃ (s : State) (off : BitVec 16), footRuns s = true ∧ landsEvery (atTick off s) msU 0 = true ∧ (s.pert.k[3]).armed = false) ∧
    (∃ (s : State) (f : FbFrame), footRuns s = true ∧ f.kind = 1) ∧
    (∃ (s : State) (ck : Nat) (v : Nat), footRuns s = true ∧ s.foot.lastValid = some v ∧ v + 31250 + 25000 * s.foot.missNow ≤ ck) ∧
    (∃ (s : State), s.foot.en = true ∧ s.foot.link = true) ∧
    (∃ (s : State) (off : BitVec 16) (ck : Nat) (u : State) (e : Nat), u = atCk ck (atTick off s) ∧ armedEnd s = some e ∧ s.foot.lstate = .hold ∧ s.foot.ackArmed = true ∧ u.foot.ck < e ∧ oeMoment u u.time.odo = true ∧ oeLater u u.time.odo ((e - u.foot.ck) * 125 / 4) = false) ∧
    (∃ (s : State) (off : BitVec 16) (ck : Nat) (u : State) (e : Nat), u = atCk ck (atTick off s) ∧ armedEnd s = some e ∧ s.foot.lstate = .hold ∧ s.foot.ackArmed = true ∧ e ≤ u.foot.ck ∧ oeMoment u u.time.odo = false) ∧
    (∃ (s : State) (ck : Nat) (l : Nat), s.foot.lstate = .follow ∧ s.foot.lastLease = some l ∧ l + bigLease s + bigGuard s ≤ (atCk ck s).foot.ck ∧ s.foot.peerOwnLowSince + bigGuard s ≤ (atCk ck s).foot.ck) ∧
    (∃ (s : State) (ck : Nat) (r : Nat), s.foot.lstate = .follow ∧ s.foot.relinq = some r ∧ r + bigGuard s ≤ (atCk ck s).foot.ck) ∧
    (∃ (s : State) (ck : Nat), s.foot.lstate = .cold ∧ s.foot.coldAt + (if s.aon.unitB then 3 else 2) * s.foot.leaseMs * 25000 ≤ (atCk ck s).foot.ck) ∧
    (∃ (s : State) (ck : Nat), s.foot.lstate = .retake ∧ s.foot.peerOwn = false ∧ max s.foot.retakeAt s.foot.peerOwnLowSince + 50 * guardUs s + 50000 ≤ (atCk ck s).foot.ck) ∧
    (∃ (s : State), s.foot.takeBlocked = true) ∧
    (∃ (s : State), s.foot.roundsLeft ≠ 0 ∧ inPeriod (4 * s.foot.roundAt) s = true) :=
  ⟨⟨{ wAcq with foot := { wAcq.foot with en := true } }, 0, by decide⟩,
  ⟨{ wAcq with foot := { wAcq.foot with en := true } }, { kind := 1 }, by decide⟩,
  ⟨{ wAcq with foot := { wAcq.foot with en := true, lastValid := some 0 } }, 131250, 0, by decide⟩,
  ⟨{ wAcq with foot := { wAcq.foot with en := true, link := true } }, by decide⟩,
  ⟨{ wAcq with foot := { wAcq.foot with lstate := .hold, ackArmed := true, ackedAt := some 0 }, mile := { wAcq.mile with pps := Vector.replicate 4 { en := true, launch := 256, pulseEnd := some 256000000 } } }, 0, 1199749, _, _, rfl, rfl, by decide⟩,
  ⟨{ wAcq with foot := { wAcq.foot with lstate := .hold, ackArmed := true, ackedAt := some 0 }, mile := { wAcq.mile with pps := Vector.replicate 4 { en := true, launch := 0, pulseEnd := some 256000000 } } }, 0, 1199750, _, _, rfl, rfl, by decide⟩,
  ⟨{ wAcq with foot := { wAcq.foot with lstate := .follow, lastLease := some 0 } }, 1300250, 0, by decide⟩,
  ⟨{ wAcq with foot := { wAcq.foot with lstate := .follow, relinq := some 0 } }, 50250, 0, by decide⟩,
  ⟨{ wAcq with foot := { wAcq.foot with lstate := .cold } }, 2500000, by decide⟩,
  ⟨{ wAcq with foot := { wAcq.foot with lstate := .retake } }, 150500, by decide⟩,
  ⟨{ wAcq with foot := { wAcq.foot with takeBlocked := true } }, by decide⟩,
  ⟨{ wAcq with foot := { wAcq.foot with roundsLeft := 1 } }, by decide⟩⟩

/-- What `Obligations.FootbridgeHandover` assumes is met, clause by clause. -/
theorem witness_footbridgeHandover :
    (∃ (s : State) (f : FbFrame), footRuns s = true ∧ f.kind = 2 ∧ s.foot.ready = true ∧ s.foot.lstate = .follow) ∧
    (∃ (s : State) (f : FbFrame) (ck : Nat), footRuns s = true ∧ s.foot.hPending = true ∧ f.kind = 3 ∧ s.foot.lstate = .hold ∧ ck ≤ s.foot.offerAt + 50000) ∧
    (∃ (s : State) (off : BitVec 16), footRuns s = true ∧ s.foot.hPending = true ∧ beforeH (atTick off s) = true) ∧
    (∃ (s : State) (ck : Nat), s.foot.hPending = true ∧ s.foot.offerAt + 50000 ≤ ck) ∧
    (∃ (s : State) (off : BitVec 16) (ck : Nat) (u : State), u = atCk ck (atTick off s) ∧ s.foot.lstate = .handover ∧ landsAt u (hAt s) 0 = true) ∧
    (∃ (s : State) (off : BitVec 16) (ck : Nat) (u : State), u = atCk ck (atTick off s) ∧ s.foot.en = true ∧ s.foot.hAccepted = true ∧ landsAt u (hAt s) 64 = true) ∧
    (∃ (s : State) (off : BitVec 16) (ck : Nat) (u : State), u = atCk ck (atTick off s) ∧ s.foot.former = true ∧ s.foot.lstate = .follow ∧ s.foot.peerOwn = false ∧ s.foot.lastLease = none ∧ hAt s + 2 * msU ≤ cntNow u) ∧
    (∃ (c : CmdRef) (s : State) (a : FbConfigArgs), Ready c 0x900 0 s ∧ a.rsv = false ∧ a.enable.toNat ≤ 1 ∧ 8 ≤ a.leaseMs.toNat ∧ a.leaseMs.toNat ≤ 1000 ∧ 10 ≤ a.xtalPpm.toNat ∧ a.xtalPpm.toNat ≤ 500 ∧ 2000 ≤ a.guardBase.toNat ∧ a.guardBase.toNat ≤ 100000 ∧ guardOf a.guardBase.toNat a.xtalPpm.toNat a.leaseMs.toNat + 3000 ≤ a.leaseMs.toNat * 1000 ∧ 1 ≤ a.annCount.toNat ∧ a.annCount.toNat ≤ 10 ∧ 10 ≤ a.annGap.toNat ∧ a.annGap.toNat ≤ 2000 ∧ 100 ≤ a.readyPs.toNat ∧ a.readyPs.toNat ≤ 100000 ∧ (s.sys.mode = .standby → (a.enable == 1#8) = s.foot.en)) ∧
    (∃ (c : CmdRef) (s : State), Ready c 0x901 64 s) ∧
    (∃ (c : CmdRef) (s : State) (l : BitVec 16), Taken c 0x902 s ∧ 10 ≤ l.toNat ∧ l.toNat ≤ 1000 ∧ s.foot.lstate = .hold ∧ peerReady s = true ∧ s.foot.hPending = false) ∧
    (∃ (c : CmdRef) (s : State) (a : Word), Ready c 0x903 0 s ∧ a.toInt.natAbs ≤ 1000000) ∧
    (∃ (c : CmdRef) (s : State), Ready c 0x904 0 s ∧ (s.foot.lstate = .cold ∨ s.foot.lstate = .retake) ∧ s.foot.peerOwn = false) :=
  ⟨⟨{ wAcq with foot := { wAcq.foot with en := true, ready := true, lstate := .follow } }, { kind := 2 }, by decide⟩,
  ⟨{ wAcq with foot := { wAcq.foot with en := true, hPending := true, lstate := .hold } }, { kind := 3 }, 50000, by decide⟩,
  ⟨{ wAcq with foot := { wAcq.foot with en := true, hPending := true, h := some 1000001 } }, 0, by decide⟩,
  ⟨{ wAcq with foot := { wAcq.foot with hPending := true } }, 50000, by decide⟩,
  ⟨{ wAcq with foot := { wAcq.foot with lstate := .handover, h := some 0 } }, 0, 0, _, rfl, by decide⟩,
  ⟨{ wAcq with foot := { wAcq.foot with en := true, hAccepted := true, h := some 0 }, time := { wAcq.time with cnt := 64 * (rate wAcq).toNat } }, 0, 0, _, rfl, by decide⟩,
  ⟨{ wAcq with foot := { wAcq.foot with former := true, lstate := .follow, h := some 0 }, time := { wAcq.time with cnt := 2 * msU } }, 0, 0, _, rfl, by decide⟩,
  ⟨c0, wAcq, ⟨1, true, 10, 1000, 500, 100000, 2000, 100000, false⟩, ⟨by decide, by decide⟩, by decide⟩,
  ⟨c0, wAcq, ⟨by decide, by decide⟩⟩,
  ⟨c0, { wAcq with foot := { wAcq.foot with lstate := .hold, link := true, peer := some { ready := true } } }, 1000, by decide⟩,
  ⟨c0, wAcq, 1000000, ⟨by decide, by decide⟩, by decide⟩,
  ⟨c0, { wAcq with foot := { wAcq.foot with lstate := .cold } }, ⟨by decide, by decide⟩, by decide⟩⟩

/-- What `Obligations.VaultEvents` assumes is met, clause by clause. -/
theorem witness_vaultEvents :
    (∃ (s : State) (q : KeyReq) (l : List KeyReq), s.vault.queue = q :: l ∧ q.started = true ∧ s.vault.keys[1].faulty = false ∧ s.vault.keys[2].faulty = false) ∧
    (∃ (s : State) (i : Fin 64) (w : Fin 8), s.vault.keys[i].draining = true ∧ s.vault.keys[i].used = false ∧ oldUse i s = false ∧ s.vault.keys[i].owner = w.1) ∧
    (∃ (s : State) (q : KeyReq) (l : List KeyReq) (off : BitVec 16) (u : State), dropUnstarted s.vault.queue = some (q, l) ∧ u = atOdo off s ∧ timeUp s = true ∧ q.at_ + 5 * tickSec ≤ u.time.odo) ∧
    (∃ (s : State), powered s 9 = true ∧ s.vault.enrolled = true ∧ s.vault.rootOk = false) ∧
    (∃ (s : State) (i : Fin 64), powered s 9 = true ∧ i.1 = s.vault.sweepPos ∧ (i.1 = 0 → s.vault.remaskPeriod ≤ s.vault.sweepAge) ∧ s.vault.keys[i].used = true) ∧
    (∃ (n : Nat), n < 1024) ∧
    (∃ (s : State) (n : Nat), 1024 ≤ s.vault.rngPass + n) :=
  ⟨⟨{ wAcq with vault := { wAcq.vault with queue := [{ started := true }] } }, { started := true }, [], by decide⟩,
  ⟨{ wAcq with vault := { wAcq.vault with keys := Vector.replicate 64 { draining := true, owner := 7 } } }, 63, 7, by decide⟩,
  ⟨{ wAcq with vault := { wAcq.vault with queue := [{ started := true }, {}] }, time := { wAcq.time with odo := 5 * tickSec } }, _, _, 0, _, rfl, rfl, by decide⟩,
  ⟨{ wAcq with vault := { wAcq.vault with rootOk := false, enrolled := true } }, by decide⟩,
  ⟨{ wAcq with vault := { wAcq.vault with keys := Vector.replicate 64 { used := true }, sweepAge := 3600 } }, 0, by decide⟩,
  ⟨1023, by decide⟩,
  ⟨wAcq, 1024, by decide⟩⟩

/-- What `Obligations.KeyCommands` assumes is met, clause by clause. -/
theorem witness_keyCommands :
    (∃ (c : CmdRef) (s : State) (a : NtsInstallArgs), s.vault.rootOk = true ∧ Taken c 0xA00 s ∧ a.rsv = false ∧ 1 ≤ a.num.toNat ∧ a.num.toNat ≤ 0x1FFFFFFF) ∧
    (∃ (c : CmdRef) (s : State) (n : Word), s.vault.rootOk = true ∧ Taken c 0xA01 s ∧ 1 ≤ n.toNat ∧ n.toNat ≤ 0x1FFFFFFF) ∧
    (∃ (c : CmdRef) (s : State) (a : NtsInvArgs), s.vault.rootOk = true ∧ Taken c 0xA02 s ∧ a.rsv = false ∧ a.kind.toNat ≤ 1 ∧ (a.all = false → 1 ≤ a.num.toNat ∧ a.num.toNat ≤ 0x1FFFFFFF)) ∧
    (∃ (c : CmdRef) (s : State) (a : PtpInstallArgs), s.vault.rootOk = true ∧ Taken c 0xA10 s ∧ a.rsv = false ∧ 16 ≤ a.len.toNat ∧ a.len.toNat ≤ 64 ∧ (∀ b ∈ a.key.toList.drop a.len.toNat, b = 0#8)) ∧
    (∃ (c : CmdRef) (s : State), s.vault.rootOk = true ∧ Taken c 0xA11 s) ∧
    (∃ (c : CmdRef) (s : State) (a : PtpInvArgs), s.vault.rootOk = true ∧ Taken c 0xA12 s ∧ a.rsv = false ∧ a.kind.toNat ≤ 1) ∧
    (∃ (c : CmdRef) (s : State) (n : Nat), n = 4 + 12 * (ringKeys s c.slot.1 false 0).length ∧ Ready c 0xA03 n s ∧ s.vault.rootOk = true) ∧
    (∃ (c : CmdRef) (s : State) (n : Nat), n = 4 + 12 * ((slotKeys s c.slot.1).filter fun i => s.vault.keys[i].ptp).length ∧ Ready c 0xA13 n s ∧ s.vault.rootOk = true) :=
  ⟨⟨c0, wAcq, ⟨0x1FFFFFFF, true, Vector.replicate 32 0, false⟩, by decide⟩,
  ⟨c0, wAcq, 0x1FFFFFFF, by decide⟩,
  ⟨c0, wAcq, ⟨1, 1, false, false⟩, by decide⟩,
  ⟨c0, wAcq, ⟨255, true, 64, 0, Vector.replicate 64 0, false⟩, by decide⟩,
  ⟨c0, wAcq, by decide⟩,
  ⟨c0, wAcq, ⟨0, 1, true, 0, false⟩, by decide⟩,
  ⟨c0, wAcq, _, rfl, ⟨by decide, by decide⟩, by decide⟩,
  ⟨c0, wAcq, _, rfl, ⟨by decide, by decide⟩, by decide⟩⟩

/-- What `Obligations.VaultCommands` assumes is met, clause by clause. -/
theorem witness_vaultCommands :
    (∃ (c : CmdRef) (s : State) (n : Nat), n = 100 + s.vault.cert.length ∧ Ready c 0xA20 n s) ∧
    (∃ (c : CmdRef) (s : State), Ready c 0xA21 256 s) ∧
    (∃ (c : CmdRef) (s : State), Ready c 0xA22 97 s ∧ (s.aon.provN && s.vault.enrolled) = false) ∧
    (∃ (c : CmdRef) (s : State) (l : BitVec 16) (d : List Byte), Ready c 0xA23 0 s ∧ l.toNat = d.length ∧ d.length ≤ 2048) ∧
    (∃ (c : CmdRef) (s : State) (p : BitVec 16), Ready c 0xA24 0 s ∧ 1 ≤ p.toNat ∧ p.toNat ≤ 3600) ∧
    (∃ (c : CmdRef) (s : State), Ready c 0xA25 532 s) ∧
    (∃ (c : CmdRef) (s : State), Ready c 0xC00 8 s) ∧
    (∃ (c : CmdRef) (s : State) (b : BitVec 8), Ready c 0xC01 0 s ∧ b.toNat ≤ 1 ∧ b.toNat ≠ s.aon.bank) ∧
    (∃ (c : CmdRef) (s : State) (a : FwWriteArgs), Ready c 0xC02 0 s ∧ a.rsv = false ∧ a.len.toNat = a.data.length ∧ 4 ≤ a.len.toNat ∧ a.len.toNat ≤ 4096 ∧ a.len.toNat % 4 = 0 ∧ a.offset.toNat + a.len.toNat ≤ 512 + 1572864 ∧ s.vault.updateOpen = true ∧ a.offset.toNat = s.vault.fwOfs) ∧
    (∃ (c : CmdRef) (s : State) (f : Bool), Ready c 0xC04 4 s ∧ (s.vault.otpSvn ≠ s.vault.svn → mayCommit f s = true)) :=
  ⟨⟨c0, wAcq, _, rfl, ⟨by decide, by decide⟩⟩,
  ⟨c0, wAcq, ⟨by decide, by decide⟩⟩,
  ⟨c0, { wProv with aon := { wProv.aon with provN := false } }, ⟨by decide, by decide⟩, by decide⟩,
  ⟨c0, wProv, 2048, List.replicate 2048 0, ⟨by decide, by decide⟩, (by rw [List.length_replicate]; decide), (by rw [List.length_replicate])⟩,
  ⟨c0, wAcq, 3600, ⟨by decide, by decide⟩, by decide⟩,
  ⟨c0, wAcq, ⟨by decide, by decide⟩⟩,
  ⟨c0, wAcq, ⟨by decide, by decide⟩⟩,
  ⟨c0, wAcq, 1, ⟨by decide, by decide⟩, by decide⟩,
  ⟨c0, { wAcq with vault := { wAcq.vault with updateOpen := true, fwOfs := 1573372 } }, ⟨1573372, [1, 2, 3, 4], 4, false⟩, ⟨by decide, by decide⟩, by decide⟩,
  ⟨c0, wAcq, false, ⟨by decide, by decide⟩, by decide⟩⟩

/-- What `Obligations.MailboxCommands` assumes is met, clause by clause. -/
theorem witness_mailboxCommands :
    (∃ (s : State) (i : Fin 8), s.host.ready = true ∧ decideAccess s ⟨i.1, by omega⟩ 0x2001C true = .ok) ∧
    (∃ (s : State) (i : Fin 8), s.host.ready = true ∧ decideAccess s ⟨i.1, by omega⟩ 0x20040 true = .ok) ∧
    (∃ (s : State) (i : Fin 8), s.host.ready = true ∧ decideAccess s ⟨i.1, by omega⟩ 0x20000 true = .ok) ∧
    (∃ (s : State) (i : Fin 8), s.host.ready = true ∧ decideAccess s ⟨i.1, by omega⟩ 0x20054 true = .ok) ∧
    (∃ (s : State) (i : Fin 8) (off : BitVec 16) (u : State), u = atOdo off s ∧ s.host.mbox[i].hold ≠ none ∧ (timeUp s = true → s.host.mbox[i].holdAt + cdiv (s.host.mbox[i].modUs * 3125) 4 ≤ u.time.odo)) ∧
    (∃ (s : State) (i : Fin 8), mayTakeReq s i = true ∧ hasTurn s i = true) ∧
    (∃ (s : State) (v : Word) (c : CmdRef), Ready c 0x100 12 s ∧ v.getLsbD 1 = true) ∧
    (∃ (s : State) (k : LossKind), lossSlots k s = []) ∧
    (∃ (s : State) (k : LossKind), lossSlots k s ≠ []) ∧
    (∃ (s : State), s.host.perst = true) ∧
    (∃ (s : State) (i : Fin 8), s.host.perst = false ∧ (∀ j, pfOf s j ≠ some i)) :=
  ⟨⟨wAcq, 0, by decide⟩,
  ⟨wAcq, 0, by decide⟩,
  ⟨wAcq, 0, by decide⟩,
  ⟨wAcq, 0, by decide⟩,
  ⟨{ wAcq with host := { wAcq.host with mbox := Vector.replicate 8 { hold := some 0 } } }, 7, 0, _, rfl, by decide⟩,
  ⟨{ wAcq with host := { wAcq.host with mbox := Vector.replicate 8 { en := true, reqPi := 1 } } }, 0, by decide⟩,
  ⟨wAcq, 2, c0, ⟨by decide, by decide⟩, by decide⟩,
  ⟨State.reset, .linkDown, by decide⟩,
  ⟨wAcq, .flr 0, by decide⟩,
  ⟨State.reset, by decide⟩,
  ⟨wAcq, 7, by decide⟩⟩

/-- What `Obligations.RegisterCommands` assumes is met, clause by clause. -/
theorem witness_registerCommands :
    (∃ (s : State) (rd : Fin 9) (a : BitVec 20) (be : BitVec 4), be ≠ 0xF#4 ∧ decideAccess s rd a.toNat true = .ok) ∧
    (∃ (b : Fin 16), b ≠ 15) ∧
    (∃ (s : State) (rd : Fin 9) (a : BitVec 20) (w : Nat), w = a.toNat / 4 * 4 ∧ aliasOf a.toNat = 0 ∧ w ≠ 0x10008 ∧ w ≠ 0xF0004 ∧ ownRead rd w 0#16 s = none) ∧
    (∃ (s : State) (rd : Fin 9) (a : BitVec 20) (w : Nat) (off : _), w = a.toNat / 4 * 4 ∧ aliasOf a.toNat = 0 ∧ w ≠ 0x10008 ∧ w ≠ 0xF0004 ∧ a ≠ 0x70030#20 ∧ ownRead rd w off s = none) :=
  ⟨⟨wAcq, 0, 0x30000, 7, by decide⟩,
  ⟨14, by decide⟩,
  ⟨wAcq, 0, 0x30043, _, rfl, by decide⟩,
  ⟨wAcq, 0, 0x30043, _, 0xFFFF, rfl, by decide⟩⟩

/-- What `Obligations.BusCommands` assumes is met, clause by clause. -/
theorem witness_busCommands :
    (∃ (a : BitVec 24), spiAddrOk a = true) ∧
    (∃ (a : BitVec 24), spiAddrOk a = true) ∧
    (∃ (a : BitVec 24), a.toNat % 4 ≠ 0) ∧
    (∃ (s : State) (p : Word) (pec : Option Byte), pecOk s 0xA0#8 (le 4 p.toNat) pec = true) ∧
    (∃ (s : State) (p : Word) (pec : Option Byte), pecOk s 0xA0#8 (le 4 p.toNat) pec = false) ∧
    (∃ (s : State) (d : List Byte) (pec : Option Byte), pecOk s 0xA1#8 d pec = false ∧ d.length % 4 = 0 ∧ 4 ≤ d.length ∧ d.length ≤ 32) ∧
    (∃ (s : State) (d : List Byte) (pec : Option Byte), d.length % 4 = 0 ∧ 4 ≤ d.length ∧ d.length ≤ 32 ∧ pecOk s 0xA1#8 d pec = true) ∧
    (∃ (s : State) (i : _), boundTo s 9 = some i ∧ s.host.mbox[i].pin = true) :=
  ⟨⟨0xFFFFC, by decide⟩,
  ⟨0xFFFFC, by decide⟩,
  ⟨1, by decide⟩,
  ⟨wAcq, 0, none, by decide⟩,
  ⟨wAcq, 0, some 0, (by decide +kernel)⟩,
  ⟨wAcq, List.replicate 32 0, some 1, (by decide +kernel), by decide⟩,
  ⟨wAcq, List.replicate 32 0, none, by decide⟩,
  ⟨{ wAcq with host := { wAcq.host with mbox := Vector.replicate 8 { pin := true } } }, 2, by decide⟩⟩

/-- What `Obligations.SlotAndCounterCommands` assumes is met, clause by clause. -/
theorem witness_slotAndCounterCommands :
    (∃ (c : CmdRef) (s : State) (a : SlotConfigArgs) (i : Fin 8), Ready c 0x130 0 s ∧ a.slot.toNat = i.1 ∧ firstFail (slotChecks a i s) = stOk ∧ a.purge = false) ∧
    (∃ (c : CmdRef) (s : State) (a : SlotConfigArgs) (i : Fin 8), a.slot.toNat = i.1 ∧ firstFail (slotChecks a i s) = stOk ∧ a.purge = true ∧ Taken c 0x130 s) ∧
    (∃ (c : CmdRef) (s : State), Ready c 0x131 16 s) ∧
    (∃ (c : CmdRef) (s : State), Ready c 0x132 128 s) ∧
    (∃ (c : CmdRef) (s : State) (a : PerfReadArgs), Ready c 0xB20 (16 + 8 * a.count.toNat) s ∧ firstFail (perfChecks c a s) = stOk ∧ progIdx a.first = none) ∧
    (∃ (c : CmdRef) (s : State) (a : PerfReadArgs) (k : _), Ready c 0xB20 0 s ∧ firstFail (perfChecks c a s) = stOk ∧ progIdx a.first = some k ∧ a.kind = 1#8) ∧
    (∃ (c : CmdRef) (s : State) (a : PerfReadArgs) (k : _), Ready c 0xB20 0 s ∧ firstFail (perfChecks c a s) = stOk ∧ progIdx a.first = some k ∧ a.kind = 2#8) ∧
    (∃ (c : CmdRef) (s : State) (a : DumpConfigArgs), Ready c 0xB21 0 s ∧ a.rsv = false ∧ a.base.toNat % 64 = 0 ∧ a.period.toNat ≤ 4095 ∧ a.first.toNat ≤ a.last.toNat ∧ a.last.toNat ≤ 1023 ∧ s.regs.lk.getLsbD 14 = false ∧ ((a.period = 0#16 ∨ pfOf s 0 ≠ none))) ∧
    (∃ (c : CmdRef) (s : State) (x : BitVec 16) (y : BitVec 16), Ready c 0xB22 0 s ∧ x.toNat ≤ 511 ∧ y.toNat ≤ 511 ∧ s.regs.lk.getLsbD 14 = false) ∧
    (∃ (s : State) (off : BitVec 16) (u : State), u = atOdo off s ∧ s.perf.dumpPeriod ≠ 0 ∧ (timeUp s = true → s.perf.dumpAt ≤ u.time.odo) ∧ canDump s = true) ∧
    (∃ (s : State) (off : BitVec 16) (u : State), u = atOdo off s ∧ s.perf.dumpPeriod ≠ 0 ∧ (timeUp s = true → s.perf.dumpAt ≤ u.time.odo) ∧ canDump s = false) ∧
    (∃ (c : CmdRef) (s : State) (a : PerturbArgs) (k : Fin 4), Ready c 0xB30 0 s ∧ a.kind.toNat = k.1 ∧ firstFail (pertChecks a s) = stOk) ∧
    (∃ (c : CmdRef) (s : State), Ready c 0xB31 0 s) ∧
    (∃ (s : State) (k : Fin 4) (off : BitVec 16) (u : State), u = atOdo off s ∧ pertLeft u k = 0) ∧
    (∃ (s : State) (r : CairnRec) (l : List CairnRec), s.cairn.unsigned = r :: l ∧ canSign s = true) :=
  ⟨⟨c0, wAcq, ⟨7, 0xFF, 1, false, false⟩, 7, ⟨by decide, by decide⟩, by decide⟩,
  ⟨c0, wAcq, ⟨7, 0xFF, 1, true, false⟩, 7, by decide⟩,
  ⟨c0, wAcq, ⟨by decide, by decide⟩⟩,
  ⟨c0, wAcq, ⟨by decide, by decide⟩⟩,
  ⟨c0, wAcq, ⟨0, true, 896, 128, 0xFF, 15, 511, 0, 0, 0, 0, .v4 0, 0, 0, false⟩, ⟨by decide, by decide⟩, by decide⟩,
  ⟨c0, wAcq, ⟨1, false, 1023, 1, 0, 0, 0, 7, 7, 0, 0, .v4 0, 0, 0, false⟩, 63, ⟨by decide, by decide⟩, by decide⟩,
  ⟨c0, wAcq, ⟨2, false, 960, 1, 0, 0, 0, 0, 0, 0, 0, .v4 0, 0, 0, false⟩, 0, ⟨by decide, by decide⟩, by decide⟩,
  ⟨c0, wAcq, ⟨4095, 1023, 1023, 64, false⟩, ⟨by decide, by decide⟩, by decide⟩,
  ⟨c0, wAcq, 511, 511, ⟨by decide, by decide⟩, by decide⟩,
  ⟨{ wAcq with perf := { wAcq.perf with dumpPeriod := 1 } }, 0, _, rfl, by decide⟩,
  ⟨{ State.reset with perf := { State.reset.perf with dumpPeriod := 1 } }, 0, _, rfl, by decide⟩,
  ⟨c0, wAcq, ⟨0, 0, 3600, 0xFF00, 20000, false⟩, 0, ⟨by decide, by decide⟩, by decide⟩,
  ⟨c0, wAcq, ⟨by decide, by decide⟩⟩,
  ⟨wAcq, 3, 0, _, rfl, by decide⟩,
  ⟨{ wAcq with cairn := { wAcq.cairn with unsigned := [{}] } }, {}, [], by decide⟩⟩

/-- What `Obligations.QueueKept` assumes is met, clause by clause. -/
theorem witness_queueKept :
    (∃ (c : Instr) (s : State) (t : State), exec c s = .next t) ∧
    (∃ (s : State) (t : State), step s = .next t) :=
  ⟨⟨.perstNRelease, wAcq, _, rfl⟩,
  ⟨{ wAcq with pending := [.perstNRelease] }, _, rfl⟩⟩

/-- What `Obligations.FrameOfEveryCommand` assumes is met, clause by clause. -/
theorem witness_frameOfEveryCommand :
    (∃ (c : Instr) (s : State) (t : State) (p : StatePart), exec c s = .next t ∧ p ∉ mayChange c) :=
  ⟨.perstNRelease, wAcq, _, .time, rfl, by decide⟩

/-- What `Obligations.CountsNeverFall` assumes is met, clause by clause. -/
theorem witness_countsNeverFall :
    (∃ (s : State) (t : State), step s = .next t ∧ s.aon.pcycle ≤ 0xFFFFFFFF) :=
  ⟨{ wAcq with aon := { wAcq.aon with pcycle := 0xFFFFFFFF } }, _, rfl, by decide⟩

/-- What `Obligations.ModeChangesTogether` assumes is met, clause by clause. -/
theorem witness_modeChangesTogether :
    (∃ (s : State) (m : _) (k : _), s.sys.mgmtFwRunning = true ∧ modeNext (lockCount s) = some (m, k)) ∧
    (∃ (s : State), s.sys.mgmtFwRunning = true ∧ modeNext (lockCount s) = none) ∧
    (∃ (s : State), s.sys.mgmtFwRunning = true ∧ s.aon.locked = true ∧ s.sys.cause < 256) ∧
    (∃ (s : State) (c : CmdRef), Ready c 0x110 8 s ∧ s.sys.mgmtFwRunning = true) :=
  ⟨⟨{ wQuiesce with sys := { wQuiesce.sys with resume := true } }, .acquire, 0x31, by decide⟩,
  ⟨wAcq, by decide⟩,
  ⟨wAcq, by decide⟩,
  ⟨wAcq, c0, ⟨by decide, by decide⟩, by decide⟩⟩

/-- What `Obligations.CalibrationHoldsChannel6` assumes is met, clause by clause. -/
theorem witness_calibrationHoldsChannel6 :
    (∃ (c : CmdRef) (s : State) (a : OutCalArgs) (pin : Fin 16), Taken c 0x403 s ∧ a.rsv = false ∧ a.freq.toNat ≤ 1 ∧ a.out.toNat ≤ (if a.freq = 0#8 then 3 else 1) ∧ 1 ≤ a.edges.toNat ∧ a.edges.toNat ≤ 1000 ∧ a.pin.toNat = pin.1 ∧ s.mile.evt[pin].dir = 2 ∧ s.mile.outCal = none) ∧
    (∃ (c : CmdRef) (s : State) (a : TdcArgs), s.tdc.ch6Held = true ∧ Taken c 0x420 s ∧ a.rsv = false ∧ a.ch = 6#8 ∧ a.mode.toNat ≤ 2 ∧ tdcSource a.start.toNat = true ∧ tdcSource a.stop.toNat = true ∧ a.start ≠ 0#8 ∧ (a.stop = 0#8 → a.mode = 2#8) ∧ ((a.start ≠ a.stop ∨ a.startFall ≠ a.stopFall)) ∧ a.timeout ≠ 0#32 ∧ (a.mode = 2#8 → a.n ≠ 0#32) ∧ a.timeout.toNat ≤ 2000000 ∧ a.n.toNat ≤ 16777215) ∧
    (∃ (c : CmdRef) (s : State), s.tdc.ch6Held = true ∧ Taken c 0x421 s) ∧
    (∃ (s : State) (rd : Fin 9), s.tdc.ch6Held = true ∧ decideAccess s rd (chReg 6 0) true = .ok) ∧
    (∃ (s : State), s.mile.outCal ≠ none) :=
  ⟨⟨c0, { wProv with mile := { wProv.mile with evt := Vector.replicate 16 { dir := 2 } } }, ⟨1, 1, 15, 0, 1000, false⟩, 15, by decide⟩,
  ⟨c0, { wAcq with tdc := { wAcq.tdc with ch6Held := true } }, ⟨6, 2, true, true, true, 1, 0, true, true, 2000000, 16777215, false⟩, by decide⟩,
  ⟨c0, { wAcq with tdc := { wAcq.tdc with ch6Held := true, ch := Vector.replicate 8 { startSrc := 1, stopSrc := 2, timeout := 1 } } }, by decide⟩,
  ⟨{ wAcq with tdc := { wAcq.tdc with ch6Held := true } }, 0, by decide⟩,
  ⟨{ wAcq with mile := { wAcq.mile with outCal := some {} } }, by decide⟩⟩

/-- What `Obligations.EntryLayout` assumes is met, clause by clause. -/
theorem witness_entryLayout :
    (∃ (s : State) (c : CmdRef) (a : PerfReadArgs), Ready c 0xB20 (16 + 8 * a.count.toNat) s ∧ firstFail (perfChecks c a s) = stOk ∧ progIdx a.first = none) ∧
    (∃ (s : State) (off : BitVec 16) (u : State), u = atOdo off s ∧ s.perf.dumpPeriod ≠ 0 ∧ (timeUp s = true → s.perf.dumpAt ≤ u.time.odo) ∧ canDump s = true) :=
  ⟨⟨wAcq, c0, ⟨0, true, 896, 128, 0xFF, 15, 511, 0, 0, 0, 0, .v4 0, 0, 0, false⟩, ⟨by decide, by decide⟩, by decide⟩,
  ⟨{ wAcq with perf := { wAcq.perf with dumpPeriod := 1 } }, 0, _, rfl, by decide⟩⟩

/-- What `Obligations.RoleChangeClears` assumes is met, clause by clause. -/
theorem witness_roleChangeClears :
    (∃ (s : State) (i : Fin 8) (r : Role) (k : Fin 256), roleOf s i ≠ r ∧ mayReceive r ((224 ≤ k.1 && k.1 ≤ 239) → ownMailbox i.1 k.1) k.1 = false) ∧
    (∃ (s : State) (i : Fin 8) (r : Role) (k : Fin 256), roleOf s i ≠ r ∧ mayReceive r ((224 ≤ k.1 && k.1 ≤ 239) → ownMailbox i.1 k.1) k.1 = true) ∧
    (∃ (s : State) (i : Fin 8) (r : Role) (t : IcuTarget), t = (setRole i r s).icu.t[(⟨i.1, by omega⟩ : Fin 9)] ∧ t.live = 0#256 ∧ roleOf s i ≠ r ∧ s.icu.t[(⟨i.1, by omega⟩ : Fin 9)].sigSince = true) :=
  ⟨⟨wAcq, 7, .auditor, 66, by decide⟩,
  ⟨wAcq, 7, .auditor, 65, by decide⟩,
  ⟨{ wAcq with icu := { wAcq.icu with t := Vector.replicate 9 { sigSince := true } } }, 7, .auditor, _, rfl, (by decide +kernel), by decide⟩⟩

/-- What `Obligations.BadComponentStaysStopped` assumes is met, clause by clause. -/
theorem witness_badComponentStaysStopped :
    (∃ (s : State) (ch : Fin 128) (v : Word), gnssUp s = true ∧ s.gnss.chans[ch].en = false ∧ v.getLsbD 0 = true ∧ sigOk (bits v.toNat 7 4) (bits v.toNat 13 8) = false) ∧
    (∃ (s : State) (ch : Fin 128), gnssUp s = true ∧ s.gnss.chans[ch].en = true ∧ s.gnss.chans[ch].run = false) ∧
    (∃ (s : State) (ch : Fin 128) (v : Word), gnssUp s = true ∧ s.gnss.chans[ch].en = true ∧ s.gnss.chans[ch].run = false ∧ v.getLsbD 0 = true) ∧
    (∃ (s : State) (ch : Fin 128) (v : Word), gnssUp s = true ∧ s.gnss.chans[ch].en = true ∧ s.gnss.chans[ch].run = false ∧ v.getLsbD 0 = false) :=
  ⟨⟨wAcq, 127, 0xB1, by decide⟩,
  ⟨{ wAcq with gnss := { wAcq.gnss with clusterEn := 0xF, chans := Vector.replicate 128 { en := true } } }, 127, by decide⟩,
  ⟨{ wAcq with gnss := { wAcq.gnss with clusterEn := 0xF, chans := Vector.replicate 128 { en := true } } }, 127, 1, by decide⟩,
  ⟨{ wAcq with gnss := { wAcq.gnss with clusterEn := 0xF, chans := Vector.replicate 128 { en := true } } }, 127, 0, by decide⟩⟩

/-- What `Obligations.LeapAnnouncements` assumes is met, clause by clause. -/
theorem witness_leapAnnouncements :
    (∃ (s : State) (k : LeapKind) (at_ : Nat) (o : Int) (n : Int) (c : CmdRef) (a : LeapSetArgs), n = o + (match k with | .leap61 => 1 | .leap59 => -1) ∧ ((at_ : Int) - n) % 86400 ≠ 0 ∧ Taken c 0x121 s ∧ a.rsv = false ∧ leapAction a.action.toNat = some k ∧ a.leapAt.toNat = at_ ∧ a.offset.toInt = o) ∧
    (∃ (s : State) (k : LeapKind) (at_ : Nat) (o : Int) (n : Int), n = o + (match k with | .leap61 => 1 | .leap59 => -1) ∧ ((at_ : Int) - n) % 86400 ≠ 0 ∧ s.time.utcManual = false) :=
  ⟨⟨wAcq, .leap61, 86400, 0, _, c0, ⟨86400, 0, 2, false⟩, rfl, by decide⟩,
  ⟨wAcq, .leap59, 86400, 0, _, rfl, by decide⟩⟩

/-- What `Obligations.SmearCorrection` assumes is met, clause by clause. -/
theorem witness_smearCorrection :
    (∃ (l : Nat) (w : Nat) (t : Nat) (S : Int), S = (l : Int) * 1000000000 - (w : Int) * 500000000 ∧ 0 < w ∧ (t : Int) ≤ S) ∧
    (∃ (l : Nat) (w : Nat) (t : Nat) (S : Int), S = (l : Int) * 1000000000 - (w : Int) * 500000000 ∧ 0 < w ∧ S + (w : Int) * 1000000000 ≤ t) ∧
    (∃ (l : Nat) (w : Nat) (t : Nat) (S : Int), S = (l : Int) * 1000000000 - (w : Int) * 500000000 ∧ 0 < w ∧ S ≤ t ∧ (t : Int) ≤ S + (w : Int) * 1000000000) ∧
    (∃ (w : Nat) (t : Nat) (u : Nat), 0 < w ∧ t ≤ u) :=
  ⟨⟨10, 2, 9000000000, _, rfl, by decide⟩,
  ⟨10, 2, 11000000000, _, rfl, by decide⟩,
  ⟨10, 2, 9000000000, _, rfl, by decide⟩,
  ⟨1, 5, 5, by decide⟩⟩

/-- What `Obligations.LeapIndicator` assumes is met, clause by clause. -/
theorem witness_leapIndicator :
    (∃ (s : State) (t : Txn) (stamp : Nat) (k : _), synced s = true ∧ kissId t = none ∧ t.cfg.smear = false ∧ s.time.leap = some k ∧ s.time.leapAt ≤ secOf stamp + 86400 ∧ secOf stamp < s.time.leapAt) ∧
    (∃ (s : State) (t : Txn) (stamp : Nat), synced s = true ∧ kissId t = none ∧ t.cfg.smear = false ∧ (s.time.leap = none ∨ secOf stamp + 86400 < s.time.leapAt ∨ s.time.leapAt ≤ secOf stamp)) :=
  ⟨⟨{ wServe with time := { wServe.time with leap := some .leap61, leapAt := 86400 } }, {}, 0, .leap61, by decide⟩,
  ⟨{ wServe with time := { wServe.time with leap := some .leap61, leapAt := 0 } }, {}, 0, by decide⟩⟩

/-- What `Obligations.IndirectAddress` assumes is met, clause by clause. -/
theorem witness_indirectAddress :
    (∃ (s : State) (rd : Fin 9), decideAccess s rd 0xF0004 false = .ok) ∧
    (∃ (s : State) (rd : Fin 9), decideAccess s rd 0xF0004 false = .ok) ∧
    (∃ (s : State) (rd : Fin 9), decideAccess s rd 0xF0004 true = .ok) ∧
    (∃ (s : State) (rd : Fin 9), decideAccess s rd 0xF0004 true = .ok) :=
  ⟨⟨wAcq, 0, by decide⟩,
  ⟨wAcq, 8, by decide⟩,
  ⟨wAcq, 0, by decide⟩,
  ⟨wAcq, 8, by decide⟩⟩

/-- What `Obligations.TurnedAway` assumes is met, clause by clause. -/
theorem witness_turnedAway :
    (∃ (i : Instr) (c : CmdRef) (op : Nat) (r : OpRow) (s : State), icpOf i = some (c, op) ∧ opRow op = some r ∧ s.aon.locked = true ∧ activeOf c s = none ∧ loaderRuns s = false ∧ r.allows (roleOf s c.slot) = false) ∧
    (∃ (i : Instr) (c : CmdRef) (op : Nat) (r : OpRow) (s : State), icpOf i = some (c, op) ∧ opRow op = some r ∧ s.aon.locked = true ∧ activeOf c s = none ∧ loaderRuns s = false ∧ r.allows (roleOf s c.slot) = true ∧ r.inMode s.sys.mode = false) :=
  ⟨⟨.icpHello c2 0, c2, 0x100, _, wAcq, rfl, rfl, by decide⟩,
  ⟨.icpResume c0, c0, 0x113, _, wAcq, rfl, rfl, by decide⟩⟩

/-- What `Obligations.DeniedAccess` assumes is met, clause by clause. -/
theorem witness_deniedAccess :
    (∃ (s : State) (i : Fin 8) (rd : Fin 9) (a : BitVec 20), rd.1 = i.1 ∧ decideAccess s rd a.toNat true = .denied) ∧
    (∃ (s : State) (i : Fin 8) (rd : Fin 9) (a : BitVec 20) (w : _), w = a.toNat / 4 * 4 ∧ rd.1 = i.1 ∧ aliasOf a.toNat = 0 ∧ w ≠ 0x10008 ∧ w ≠ 0xF0004 ∧ ownRead rd w 0#16 s = none ∧ decideAccess s rd w false = .denied) :=
  ⟨⟨wAcq, 1, 1, 0x30000, by decide⟩,
  ⟨wAcq, 2, 2, 0x30040, _, rfl, by decide⟩⟩

/-- What `Obligations.FirmwareImageBytes` assumes is met, clause by clause. -/
theorem witness_firmwareImageBytes :
    (∃ (c : CmdRef) (s : State) (a : FwWriteArgs), Ready c 0xC02 0 s ∧ mwf 0xFF#8 s.flash.image = true ∧ a.rsv = false ∧ a.len.toNat = a.data.length ∧ 4 ≤ a.len.toNat ∧ a.len.toNat ≤ 4096 ∧ a.len.toNat % 4 = 0 ∧ a.offset.toNat + a.len.toNat ≤ 512 + 1572864 ∧ s.vault.updateOpen = true ∧ a.offset.toNat = s.vault.fwOfs) ∧
    (∃ (c : CmdRef) (s : State) (b : BitVec 8), Ready c 0xC01 0 s ∧ mwf 0xFF#8 s.flash.image = true ∧ b.toNat ≤ 1 ∧ b.toNat ≠ s.aon.bank) :=
  ⟨⟨c0, { wAcq with vault := { wAcq.vault with updateOpen := true, fwOfs := 1573372 } }, ⟨1573372, [1, 2, 3, 4], 4, false⟩, ⟨by decide, by decide⟩, by decide⟩,
  ⟨c0, wAcq, 1, ⟨by decide, by decide⟩, by decide⟩⟩

/-- What `Obligations.StickyCopies` assumes is met, clause by clause. -/
theorem witness_stickyCopies :
    (∃ (s : State) (r : Nat), perSlotReg r = true ∧ r < 2 ^ 28 ∧ mwf 0#32 s.regs.sticky = true) ∧
    (∃ (s : State) (r : Nat) (q : Nat), perSlotReg r = true ∧ r < 2 ^ 28 ∧ mwf 0#32 s.regs.sticky = true ∧ q ≠ r ∧ q < 2 ^ 28) ∧
    (∃ (s : State) (r : Nat), perSlotReg r = true ∧ r < 2 ^ 28 ∧ mwf 0#32 s.regs.sticky = true ∧ modeNormal s.sys.mode = true) ∧
    (∃ (s : State) (r : Nat) (rd : Fin 9) (j : Fin 9), perSlotReg r = true ∧ r < 2 ^ 28 ∧ mwf 0#32 s.regs.sticky = true ∧ modeNormal s.sys.mode = true ∧ j ≠ rd) ∧
    (∃ (s : State) (r : Nat) (q : Nat), perSlotReg r = true ∧ r < 2 ^ 28 ∧ mwf 0#32 s.regs.sticky = true ∧ modeNormal s.sys.mode = true ∧ q ≠ r ∧ q < 2 ^ 28) :=
  ⟨⟨wAcq, 0x40300, by decide⟩,
  ⟨wAcq, 0x40300, 0, by decide⟩,
  ⟨wAcq, 0x40300, by decide⟩,
  ⟨wAcq, 0x40300, 0, 8, by decide⟩,
  ⟨wAcq, 0x40300, 0, by decide⟩⟩

/-- What `Obligations.SourcesReachReceivers` assumes is met, clause by clause. -/
theorem witness_sourcesReachReceivers :
    (∃ (s : State) (src : Fin 256), (src.1 < 224 ∨ 240 ≤ src.1) ∧ s.aon.locked = true) ∧
    (∃ (s : State) (src : Fin 256), (src.1 < 224 ∨ 240 ≤ src.1) ∧ s.aon.locked = true) ∧
    (∃ (s : State) (src : Fin 256), (src.1 < 224 ∨ 240 ≤ src.1) ∧ s.aon.locked = false) ∧
    (∃ (src : Fin 256) (i : Fin 9) (k : Fin 256), (src.1 < 224 ∨ 240 ≤ src.1) ∧ k ≠ src ∧ k.1 ≠ 225 + 2 * i.1) ∧
    (∃ (src : Fin 256), (src.1 < 224 ∨ 240 ≤ src.1)) :=
  ⟨⟨wAcq, 223, .inl (by decide), by decide⟩,
  ⟨wAcq, 240, .inr (by decide), by decide⟩,
  ⟨State.reset, 240, .inr (by decide), by decide⟩,
  ⟨240, 8, 239, .inr (by decide), by decide⟩,
  ⟨255, .inr (by decide)⟩⟩

/-- What `Obligations.LockedRegister` assumes is met, clause by clause. -/
theorem witness_lockedRegister :
    (∃ (s : State) (rd : Fin 9) (a : BitVec 20) (m : _), lkMask (blkOf a.toNat) (regOf a.toNat) = some m ∧ aliasOf a.toNat = 0 ∧ decideAccess s rd a.toNat true = .ok ∧ s.regs.lk.getLsbD (blkOf a.toNat) = true) ∧
    (∃ (s : State) (rd : Fin 9) (a : BitVec 20) (m : _), lkMask (blkOf a.toNat) (regOf a.toNat) = some m ∧ aliasOf a.toNat = 0 ∧ decideAccess s rd a.toNat true = .ok ∧ s.regs.lk.getLsbD (blkOf a.toNat) = false ∧ rd ≠ 8) ∧
    (∃ (s : State) (rd : Fin 9) (a : BitVec 20) (p : Fin 4), aliasOf a.toNat = 0 ∧ decideAccess s rd a.toNat true = .ok ∧ a.toNat = 0x30070 + 4 * p.1 ∧ rd = 8 ∧ s.regs.lk.getLsbD 3 = false) :=
  ⟨⟨{ wAcq with regs := { wAcq.regs with lk := 8 } }, 0, 0x30070, _, rfl, by decide⟩,
  ⟨wAcq, 0, 0x30080, _, rfl, by decide⟩,
  ⟨wAcq, 8, 0x3007C, 3, by decide⟩⟩

/-- What `Obligations.RingWindowBytes` assumes is met, clause by clause. -/
theorem witness_ringWindowBytes :
    (∃ (s : State) (i : Fin 8) (rd : Fin 9) (a : BitVec 20), rd.1 = i.1 ∧ s.host.ready = true ∧ (pfOf s i).isNone = true ∧ 0x21000 ≤ a.toNat ∧ a.toNat < 0x21800 ∧ a.toNat % 4 = 0 ∧ decideAccess s rd a.toNat true = .ok ∧ mwf 0#8 s.host.mbox[i].win = true) :=
  ⟨wAcq, 1, 1, 0x217FC, by decide⟩

/-- What `Obligations.ModeTransitions` assumes is met, clause by clause. -/
theorem witness_modeTransitions :
    (∃ (c : Instr) (s : State) (t : State), exec c s = .next t) ∧
    (∃ (c : Instr) (s : State) (t : State), exec c s = .next t ∧ changesMode c = false) :=
  ⟨⟨.perstNRelease, wAcq, _, rfl⟩,
  ⟨.perstNRelease, wAcq, _, rfl, by decide⟩⟩

/-- A key-store image of an NTS request whose cookie names a key: what the cipher must answer is the free value `Config.sivOpen`. -/
def wTxn : Txn := { nts := true, keyNum := some 1, sealNum := some 1, cookie := List.replicate 104 0 }

/-- A cookie's plaintext of the right form (13 R282). -/
def wPlain : List Byte := [0, 15, 1, 0] ++ List.replicate 64 0

/-- The clauses of `Obligations.ServiceCommands` about an NTS request that the cipher decides: where it opens the cookie, one clause
applies for either answer to the request's tag. -/
theorem witness_serviceCipher (h : Config.sivOpen wTxn.key ((wTxn.cookie.drop 4).take 16) (wTxn.cookie.take 4) (wTxn.cookie.drop 20) = some wPlain) :
    [wTxn].find? (fun t => t.id == 0 && t.nts && t.authOk = 0) = some wTxn ∧ wTxn.kodR = false ∧
    (currentKey wKeyed2 wTxn.slot.1 false 0).isSome = true ∧ authResult true wTxn = if (Config.sivOpen ((wPlain.drop 4).take 32) wTxn.ct wTxn.aad wTxn.tag).isNone then 3 else 1 := by
  have o : openCookie wTxn = some ((wPlain.drop 4).take 32, wPlain.drop 36) := by
    unfold openCookie; rw [h]; rfl
  refine ⟨by decide, by decide, by decide +kernel, ?_⟩
  unfold authResult; rw [o]; rfl

/-- The header of an image of 4,096 bytes with SVN 0 in bank 1 (17 R388). -/
def wImage : State := { wAcq with
  vault := { wAcq.vault with updateOpen := true, target := true }
  flash := { wAcq.flash with image := mputs 0xFF#8 0x200000 ([0x5A, 0x44, 0x46, 0x57, 1, 0, 0, 0] ++ le 4 4096) [] } }

/-- The clause of `Obligations.VaultCommands` about ICP_FW_FINISH: everything but what the free values decide, the key hash of OTP,
the signature and the digest of the body. -/
theorem witness_firmwareFinish : Ready c0 0xC03 4 wImage ∧ wImage.vault.updateOpen = true ∧
    (imageValid wImage (fwTarget wImage) = (sha384 (bankBytes wImage 1 64 97) == Config.otpKeyHash &&
      Config.ecdsaVerify (bankBytes wImage 1 64 97) (bankBytes wImage 1 0 416) (bankBytes wImage 1 416 96) &&
      sha384 (bankBytes wImage 1 512 (bankLen wImage 1)) == bankBytes wImage 1 16 48)) := by
  refine ⟨⟨by decide, by decide⟩, by decide, ?_⟩
  have h : headerOk wImage 1 = true := by decide
  have k : decide (wImage.vault.otpSvn ≤ bankSvn wImage 1) = true := by decide
  show imageValid wImage 1 = _
  unfold imageValid; rw [h, k]; simp

/-- The invariant holds of a state at work, and a step from it answers a next state. -/
theorem witness_invariantKept : Inv wAcq ∧ ∃ t, step { wAcq with pending := [.smbusSetPointer 4#32 none] } = .next t := by
  refine ⟨?_, ⟨_, rfl⟩⟩
  refine ⟨⟨?_, ?_, rfl, rfl, rfl⟩, ⟨rfl, rfl, rfl, rfl, rfl, rfl, rfl, ?_⟩, ?_⟩ <;> decide

/-- Addresses stand apart in a state at work, and a step from it answers a next state. -/
theorem witness_addressesApart : AddressesOk wAcq ∧ ∃ t, step wAcq = .next t := by
  refine ⟨?_, _, rfl⟩
  intro i j k l _ x y h
  have e : wAcq.serv.slots[i].addrs[k] = none := by
    have : ∀ (i : Fin 8) (k : Fin 32), wAcq.serv.slots[i].addrs[k] = none := by decide
    exact this i k
  rw [e] at h; cases h

/-- An address that would clash with one of slot 7. -/
theorem witness_addressRefused : ∃ (a : AddrSetArgs) (s : State) (y : ServAddr), gate c0 0x700 s = none ∧ a.rsv = false ∧
    a.idx.toNat ≤ 31 ∧ (a.ntp || a.nts) = true ∧ (a.ipv6 = false → a.addr.toNat % 2 ^ 96 = 0) ∧ isUnicast (setAddr a) = true ∧
    a.vlan.toNat ≤ 4094 ∧ (a.ipv6 = true → 32 ≤ a.prefix6.toNat ∧ a.prefix6.toNat ≤ 128) ∧ 1 ≤ a.ports.toNat ∧ a.ports.toNat ≤ 15 ∧
    1 ≤ a.rate.toNat ∧ a.rate.toNat ≤ 1048575 ∧ 1 ≤ a.burst.toNat ∧ a.burst.toNat ≤ 1024 ∧ (a.smear = true → a.w ≠ 0#32) ∧
    (a.w ≠ 0#32 → 3600 ≤ a.w.toNat ∧ a.w.toNat ≤ 172800) ∧ (a.burst.toNat - 1) * emission a.rate.toNat < 2 ^ 30 ∧
    (addrAt s c0.slot a.idx.toNat = none → addrTotal s < 256) ∧ s.serv.slots[(7 : Fin 8)].addrs[(31 : Fin 32)] = some y ∧
    y.addr = setAddr a ∧ y.vlan = a.vlan.toNat ∧ y.ports &&& BitVec.ofNat 4 a.ports.toNat ≠ 0#4 :=
  ⟨⟨31, true, true, true, true, false, true, 8, 0, 4094, 0xC0000201000000000000000000000000, 1048575, 1024, 172800, false⟩,
    { wAcq with serv := { wAcq.serv with slots := Vector.replicate 8 { addrs := Vector.replicate 32 (some
      { addr := .v4 0xC0000201, vlan := 4094, ports := 0xF }) } } },
    { addr := .v4 0xC0000201, vlan := 4094, ports := 0xF }, by decide⟩

/-- An access that is carried out, one that is denied, one that reaches nothing, for a write and for a read
(`Obligations.RegisterCommands`). -/
theorem witness_accesses : decideAccess wAcq 0 0x30000 true = .ok ∧ decideAccess wAcq 1 0x30000 true = .denied ∧
    decideAccess wAcq 7 0x30000 true = .nothing ∧ decideAccess wAcq 0 0x10008 false = .ok ∧
    decideAccess wAcq 2 0x10008 false = .denied ∧ decideAccess wAcq 7 0x10008 false = .nothing ∧ (7 : Nat) < 8 := by decide

/-- ICP_OUT_CALIBRATE finds channel 6 of the interval meter busy or idle (`Obligations.CalibrationHoldsChannel6`). -/
theorem witness_channelBusy : ∃ s : State, gate c0 0x403 s = none ∧ s.mile.evt[(15 : Fin 16)].dir = 2 ∧ s.mile.outCal = none ∧
    s.tdc.ch[(6 : Fin 8)].busy = true :=
  ⟨{ wProv with
      mile := { wProv.mile with evt := Vector.replicate 16 { dir := 2 } }
      tdc := { wProv.tdc with ch := Vector.replicate 8 { busy := true } } }, by decide⟩

/-! ## Terms that are not well formed -/

/-- Every range of `Instr.wf` refuses a term outside it. -/
theorem test_illFormed : (Instr.oscMainCheck (2 ^ 20)).wf = false ∧ (Instr.todinMessage 0 1000 wTod).wf = false ∧
    (Instr.todinMessage 0 0 [0]).wf = false ∧ (Instr.tempSample (some 32768)).wf = false ∧
    (Instr.tempSample (some (-32769))).wf = false ∧ (Instr.gnssSpiDone (List.replicate 65 0)).wf = false ∧
    (Instr.frameReceive { wFrame with len := 9601 }).wf = false ∧
    (Instr.frameReceive { wFrame with vlans := [1, 2, 3] }).wf = false ∧
    (Instr.smbusBlockWrite (List.replicate 33 0) none).wf = false := by decide +kernel

/-- The long operands: host SPI data, an image's piece, a certificate, grant records. -/
theorem test_illFormedLong :
    (∀ d : List Word, 1024 < d.length → (Instr.hostSpiWrite 0 d false).wf = false) ∧ (Instr.hostSpiRead 0 1025 []).wf = false ∧
    (∀ a : FwWriteArgs, 65527 < a.data.length → (Instr.icpFwWrite c0 a).wf = false) ∧
    (∀ d : List Byte, 65531 < d.length → (Instr.icpIdCertSet c0 0 d false).wf = false) ∧
    (∀ l : List GrantRec, 2047 < l.length → (Instr.icpPtpGrantLoad c0 0 l false).wf = false) := by
  refine ⟨fun d h => ?_, by decide, fun a h => ?_, fun d h => ?_, fun l h => ?_⟩ <;> exact decide_eq_false (by omega)

/-- Terms within the ranges are well formed. -/
theorem test_wellFormed : (Instr.oscMainCheck (2 ^ 20 - 1)).wf = true ∧ (Instr.tempSample (some (-32768))).wf = true ∧
    (Instr.frameReceive { wFrame with len := 9600 }).wf = true ∧ Instr.perstNRelease.wf = true := by decide

/-! ## The interface -/

/-- No word spells a command, and a word changes no queue: the table gives its rows no bits. -/
theorem test_noWords : decodeTableWord 32 0xFFFFFFFF = none ∧ wAcq.withFetchWord 32 5 = wAcq := ⟨rfl, rfl⟩

/-- Two steps take two commands in their order. -/
theorem test_queueOrder : ∃ t u, step { wAcq with pending := [.smbusSetPointer 4 none, .smbusSetPointer 8 none] } = .next t ∧
    t.host.smbPtr = 4#32 ∧ step t = .next u ∧ u.host.smbPtr = 8#32 ∧ u.pending = [] := ⟨_, _, rfl, rfl, rfl, rfl, rfl⟩

/-! ## Values from the spec's worked examples -/

/-- A pull at SLOPE 50 ns/s, 500 units of 0.1 ns/s, commits a SLEW of 18,014,398 units (05, worked example, step 3). -/
theorem test_slew : slewOf (500 * 8388608) = 18014398 ∧ slewOf (-(500 * 8388608)) = -18014398 := by decide

/-- REF_PTPA selected with a pull. -/
def wPull : State := { wServe with sign := { wServe.sign with
  slots := Vector.replicate 12 { unc := 100, asymUnc := 40 }, sel := some 9, p := 120000000000000 } }

/-- REF_PTPA at 100 units with an asymmetry uncertainty of 40 and P = +120 ns: REF 100, ASYM 40, SWB 480; P = -118 ns: SWB 472
(05, worked example, steps 2 and 7). -/
theorem test_errbTerms :
    ((errbTerms wPull)[0], (errbTerms wPull)[3], (errbTerms wPull)[5]) = (100, 40, 480) ∧
    (errbTerms { wServe with sign := { wServe.sign with sel := some 0, p := -118000000000000 } })[5] = 472 := by decide +kernel

/-- The fields of a command's last completion. -/
def lastStatus (o : Out) : Option (Nat × Nat) :=
  match o with
  | .next t => (t.host.mbox[(0 : Fin 8)].posted.getLast?).map fun m => (m.op, m.status)
  | _ => none

/-- LOCK_PHASE 9 is out of its range, 10 is in it, in RECOVERY the mode stops the command, and a slot without a role is denied
(02 R47, R48; 18 R403). -/
theorem test_modeConfig : lastStatus (exec (.icpModeConfig c0 9 1 false) wAcq) = some (0x116, stRange) ∧
    lastStatus (exec (.icpModeConfig c0 10 1 false) wAcq) = some (0x116, stOk) ∧
    lastStatus (exec (.icpModeConfig c0 10 1 false) { wMode .recovery with pending := [] }) = some (0x116, stMode) := by decide +kernel

/-- GUARD of the reset values: 2,000 us and 2 x 100 ppm of 50 ms (15 R332). -/
theorem test_guard : guardUs State.reset = 2010 := by decide

/-- The CRC-16 of the digits 1 to 9 with initial value 0xFFFF and polynomial 0x1021 (07 R152). -/
theorem test_crc : crc16 [0x31, 0x32, 0x33, 0x34, 0x35, 0x36, 0x37, 0x38, 0x39] = 0x29B1 := by decide +kernel

end Sys2Proof.Tests
end

