-- ==== Sys2Proof/Proofs/RegisterAccess.lean ====
section
/-!
SUPPORT. Register accesses (16 R366): what each decision makes of a read and of a write, which register a read row runs, and the
statement about the register rows.
-/
namespace Sys2Proof.Proofs
open Sys2Proof Sys2Proof.Machine Sys2Proof.Claims

/-! ## What a decision makes of an access -/

section
variable {s : State} {rd : Fin 9} {a : Nat}

theorem writeBy_ok (act : State → State) (h : decideAccess s rd a true = .ok) :
    writeBy rd a act s = act (countReg rd 1 a s) := by
  simp only [writeBy, h]

theorem writeBy_denied (act : State → State) (h : decideAccess s rd a true = .denied) :
    writeBy rd a act s = denyAccess rd 2 a (countReg rd 2 a s) := by
  simp only [writeBy, h]

theorem writeBy_nothing (act : State → State) (h : decideAccess s rd a true = .nothing) : writeBy rd a act s = s := by
  simp only [writeBy, h]

theorem readBy_ok (act : State → Word × State) (h : decideAccess s rd a false = .ok) :
    readBy rd a act s = give rd (act (countReg rd 0 a s)).1 (act (countReg rd 0 a s)).2 := by
  simp only [readBy, h]

/-- The kind a denied read is recorded under tells a counter (7) from any other register (1) (16 R366). -/
theorem readBy_denied (act : State → Word × State) (h : decideAccess s rd a false = .denied) :
    readBy rd a act s = give rd 0#32 (denyAccess rd (if (cntIndex (regOf a)).isSome && blkOf a == 0xE then 7 else 1) a
      (countReg rd 2 a s)) := by
  simp only [readBy, h]

theorem readBy_nothing (act : State → Word × State) (h : decideAccess s rd a false = .nothing) :
    readBy rd a act s = give rd 0#32 s := by
  simp only [readBy, h]

/-- A row that runs a register write stores, is denied or does nothing as the access is decided. -/
theorem stores_of_exec_regWrite {i : Instr} {v : Word} (h : exec i s = .next (regWrite rd a v s)) : Stores i rd a v s := by
  rw [regWrite] at h
  refine ⟨fun d => ?_, fun d => ?_, fun d => ?_⟩
  · rw [h, writeBy_ok _ d]
  · rw [h, writeBy_denied _ d]
  · rw [h, writeBy_nothing _ d]

/-- A row that runs a register read gives the word, or zero, as the access is decided. -/
theorem gives_of_exec_readBy {i : Instr} {act : State → Word × State} (h : exec i s = .next (readBy rd a act s)) :
    Gives i rd a act s := by
  refine ⟨fun d => ?_, fun d => ?_, fun d => ⟨_, h.trans (congrArg Host.Outcome.next (readBy_denied act d))⟩⟩
  · rw [h, readBy_ok act d]
  · rw [h, readBy_nothing act d]

end

/-! ## What a read of an offset runs -/

/-- ICU_CLAIM has no meaning of its own among the pops and latches: `regRead` gives it the claim (19 R431). -/
theorem regRead_claim (rd : Fin 9) (s : State) : regRead rd 0x10008 0#16 s = readBy rd 0x10008 (icuClaim rd) s := by
  have hrow : ownRead rd 0x10008 0#16 s = none := by simp [ownRead, group?]
  simp [regRead, aliasOf, hrow]

/-- IND_DATA lies above every group of pops: `regRead` gives it the indirect read (19 R424). -/
theorem regRead_indData (rd : Fin 9) (s : State) : regRead rd 0xF0004 0#16 s = readBy rd 0xF0004 (indRead rd) s := by
  have hrow : ownRead rd 0xF0004 0#16 s = none := by simp [ownRead, group?, fin?]
  simp [regRead, aliasOf, hrow]

/-- A read of a register, not of an alias, that no row of its own stands for is a plain read of its word. -/
theorem regRead_plain {rd : Fin 9} {a w : Nat} {off : BitVec 16} {s : State} (hw : w = a / 4 * 4) (hal : aliasOf a = 0)
    (hclaim : w ≠ 0x10008) (hind : w ≠ 0xF0004) (hrow : ownRead rd w off s = none) :
    regRead rd a off s = readBy rd w (plainRead rd w) s := by
  subst hw
  simp only [regRead, hal, hrow, hclaim, hind, ne_eq, not_true_eq_false, if_false]

/-! ## Rows with a condition of their own -/

theorem exec_registerWrite_partial (rd : Fin 9) (a : BitVec 20) {be : BitVec 4} (v : Word) (s : State) (hbe : be ≠ 0xF#4) :
    exec (.registerWrite rd a be v) s = .next (writeBy rd a.toNat id s) := by
  simp only [exec, execRegisterWrite, hbe, if_false]

theorem exec_lockSet_lockable (rd : Fin 9) {b : Fin 16} (s : State) (hb : b ≠ 15) :
    exec (.lockSet rd b) s = .next (regWrite rd (b.1 * 0x10000 + 0x4000) 1#32 s) := by
  have hne : b.1 ≠ 0xF := fun e => hb (Fin.ext e)
  simp only [exec, execLockSet, hne, if_false]

theorem exec_multiwordFirstRead_now (rd : Fin 9) {a : BitVec 20} (off : BitVec 16) (s : State) (ha : a ≠ 0x70030#20) :
    exec (.multiwordFirstRead rd a off) s = .next (regRead rd a.toNat off s) := by
  simp only [exec, execMultiwordFirstRead, ha, if_false]

/-- Settles O31: every row runs one register access, and the decision of 16 R366 says what becomes of it. -/
theorem registerCommands : Obligations.RegisterCommands := by
  intro s rd v
  refine ⟨fun a => ⟨?word, ?set, ?clr, ?tgl, ?partialWord⟩, fun b => ⟨?lock, ?noLock, ?ack⟩, ?indWrite, ?complete,
    fun k => ⟨?raise, ?withdraw⟩, ?claim, ?indRead, fun a w hw hal hclaim hind => ⟨fun hrow => ⟨?sticky, ?report⟩, ?first⟩⟩
  case word | set | clr | tgl | ack | indWrite | complete | raise | withdraw => exact stores_of_exec_regWrite rfl
  case partialWord =>
    intro be hbe hok
    rw [exec_registerWrite_partial rd a v s hbe, writeBy_ok id hok, id]
  case lock => exact fun hb => stores_of_exec_regWrite (exec_lockSet_lockable rd s hb)
  case noLock => rintro rfl; rfl
  case claim => exact gives_of_exec_readBy (congrArg Host.Outcome.next (regRead_claim rd s))
  case indRead => exact gives_of_exec_readBy (congrArg Host.Outcome.next (regRead_indData rd s))
  case sticky | report =>
    exact gives_of_exec_readBy (congrArg Host.Outcome.next (regRead_plain hw hal hclaim hind hrow))
  case first =>
    intro off ha hrow
    refine gives_of_exec_readBy ?_
    rw [exec_multiwordFirstRead_now rd off s ha, regRead_plain hw hal hclaim hind hrow]

end Sys2Proof.Proofs
end

