-- ==== Sys2Proof/Proofs/CommandParts.lean ====
section
/-!
SUPPORT. What one command may change: `exec` moves only the parts `mayChange` lists, and the word of SYS_MODE only in the rows
that can change the mode or count its seconds. What a step can do, and the statement about the counts that never fall.
-/
namespace Sys2Proof.Proofs
open Sys2Proof Sys2Proof.Machine Sys2Proof.Claims Sys2Proof.Laws

/-- The bit of a mask of `Moves` that stands for a part of the state. -/
def partBit : StatePart → Nat
  | .aon => 1 | .time => 2 | .cairn => 3 | .sign => 4 | .guy => 5 | .mile => 6 | .tdc => 7 | .gnss => 8 | .port => 9 | .wayp => 10
  | .serv => 11 | .ptp => 12 | .foot => 13 | .vault => 14 | .flash => 15 | .host => 16 | .slots => 17 | .regs => 18 | .icu => 19
  | .trail => 20 | .fault => 21 | .perf => 22 | .pert => 23 | .sys => 24

/-- The mask `k` has no bit but those of `m` and of the listed parts. The list comes last so that it reduces before the bits are
compared. -/
def within (k m : Nat) : List StatePart → Bool
  | [] => k ||| m == m
  | p :: l => within k (m ||| 1 <<< partBit p) l

theorem testBit_of_within {k j : Nat} (l : List StatePart) : ∀ {m : Nat}, within k m l = true → m.testBit j = false →
    (∀ p ∈ l, partBit p ≠ j) → k.testBit j = false := by
  induction l with
  | nil =>
    intro m h hm _
    have hkm : k ||| m = m := eq_of_beq h
    exact Bool.eq_false_iff.mpr fun hk => by simp [bit_of hkm hk] at hm
  | cons p l ih =>
    intro m h hm hl
    refine ih h ?_ fun q hq => hl q (List.mem_cons_of_mem p hq)
    have hp : partBit p ≠ j := hl p List.mem_cons_self
    simp [hm, Nat.one_shiftLeft, Nat.testBit_two_pow_of_ne hp]

/-- The rows that may change the word of SYS_MODE and SYS_MODE_SECS: those that can change the mode, and TEMP_SAMPLE, which
counts its seconds. -/
def changesModeWord : Instr → Bool
  | .tempSample .. => true
  | c => changesMode c

/-- The mask `k` has only the bits of the parts a command may change, bit 0, which stands for no component, and bit 25, the mode's
word, where the command may change that. -/
def withinParts (k : Nat) (c : Instr) : Bool :=
  if changesModeWord c then within k 0x2000001 (mayChange c) else within k 1 (mayChange c)

/-- A command changes no part but those `mayChange` lists: the lemma of its meaning names no other component. -/
theorem exec_moves_listed (c : Instr) (s : State) : ∃ k, MovesOut k s (exec c s) ∧ withinParts k c = true := by
  cases c with
  | powerOnReset provN unitB => exact ⟨_, execPowerOnReset_moves (Nat.or_self _) (.refl _ _) provN unitB, rfl⟩
  | resetNAssert provN unitB => exact ⟨_, execResetNAssert_moves (Nat.or_self _) (.refl _ _) provN unitB, rfl⟩
  | watchdogExpiry => exact ⟨_, execWatchdogExpiry_moves (Nat.or_self _) (.refl _ _), rfl⟩
  | wdogWarn => exact ⟨_, execWdogWarn_moves (Nat.or_self _) (.refl _ _), rfl⟩
  | ridgepoleLossOfLock => exact ⟨_, execRidgepoleLossOfLock_moves (Nat.or_self _) (.refl _ _), rfl⟩
  | oscMainCheck khz => exact ⟨_, execOscMainCheck_moves (Nat.or_self _) (.refl _ _) khz, rfl⟩
  | ridgepoleLock => exact ⟨_, execRidgepoleLock_moves (Nat.or_self _) (.refl _ _), rfl⟩
  | trailheadStart pufFails => exact ⟨_, execTrailheadStart_moves (Nat.or_self _) (.refl _ _) pufFails, rfl⟩
  | firmwareStart want => exact ⟨_, execFirmwareStart_moves (Nat.or_self _) (.refl _ _) want, rfl⟩
  | slotLoss k => exact ⟨_, execSlotLoss_moves (Nat.or_self _) (.refl _ _) k, rfl⟩
  | faultLineRise src => exact ⟨_, execFaultLineRise_moves (Nat.or_self _) (.refl _ _) src, rfl⟩
  | powerGoodTimeout dom => exact ⟨_, execPowerGoodTimeout_moves (Nat.or_self _) (.refl _ _) dom, rfl⟩
  | domainPowerUpDone dom => exact ⟨_, execDomainPowerUpDone_moves (Nat.or_self _) (.refl _ _) dom, rfl⟩
  | steeringBoundary => exact ⟨_, execSteeringBoundary_moves (Nat.or_self _) (.refl _ _), rfl⟩
  | secondBoundary => exact ⟨_, execSecondBoundary_moves (Nat.or_self _) (.refl _ _), rfl⟩
  | slotEvaluation f0 f1 => exact ⟨_, execSlotEvaluation_moves (Nat.or_self _) (.refl _ _) f0 f1, rfl⟩
  | holdoffExpiry n => exact ⟨_, execHoldoffExpiry_moves (Nat.or_self _) (.refl _ _) n, rfl⟩
  | revertWaitExpiry => exact ⟨_, execRevertWaitExpiry_moves (Nat.or_self _) (.refl _ _), rfl⟩
  | driftWindowEnd d => exact ⟨_, execDriftWindowEnd_moves (Nat.or_self _) (.refl _ _) d, rfl⟩
  | asymCheckEnd n => exact ⟨_, execAsymCheckEnd_moves (Nat.or_self _) (.refl _ _) n, rfl⟩
  | todinMessage line ms bytes => exact ⟨_, execTodinMessage_moves (Nat.or_self _) (.refl _ _) line ms bytes, rfl⟩
  | todQualityTimeout n => exact ⟨_, execTodQualityTimeout_moves (Nat.or_self _) (.refl _ _) n, rfl⟩
  | stepPermitExpiry => exact ⟨_, execStepPermitExpiry_moves (Nat.or_self _) (.refl _ _), rfl⟩
  | lanternHoldExpiry pin => exact ⟨_, execLanternHoldExpiry_moves (Nat.or_self _) (.refl _ _) pin, rfl⟩
  | leapApply => exact ⟨_, execLeapApply_moves (Nat.or_self _) (.refl _ _), rfl⟩
  | smearWindowEdge slot idx => exact ⟨_, execSmearWindowEdge_moves (Nat.or_self _) (.refl _ _) slot idx, rfl⟩
  | timeIncrCommit hi => exact ⟨_, execTimeIncrCommit_moves (Nat.or_self _) (.refl _ _) hi, rfl⟩
  | timeSlewCommit hi => exact ⟨_, execTimeSlewCommit_moves (Nat.or_self _) (.refl _ _) hi, rfl⟩
  | nowLatchRead rd off => exact ⟨_, execNowLatchRead_moves (Nat.or_self _) (.refl _ _) rd off, rfl⟩
  | odometerRead rd off => exact ⟨_, execOdometerRead_moves (Nat.or_self _) (.refl _ _) rd off, rfl⟩
  | snapshotGo rd off => exact ⟨_, execSnapshotGo_moves (Nat.or_self _) (.refl _ _) rd off, rfl⟩
  | snapshotRead rd => exact ⟨_, execSnapshotRead_moves (Nat.or_self _) (.refl _ _) rd, rfl⟩
  | cairnPeriodicRecord => exact ⟨_, execCairnPeriodicRecord_moves (Nat.or_self _) (.refl _ _), rfl⟩
  | cairnSignDone ok => exact ⟨_, execCairnSignDone_moves (Nat.or_self _) (.refl _ _) ok, rfl⟩
  | learnWindowEnd freq => exact ⟨_, execLearnWindowEnd_moves (Nat.or_self _) (.refl _ _) freq, rfl⟩
  | atomAbsent => exact ⟨_, execAtomAbsent_moves (Nat.or_self _) (.refl _ _), rfl⟩
  | atomUartPoll => exact ⟨_, execAtomUartPoll_moves (Nat.or_self _) (.refl _ _), rfl⟩
  | atomUartResponse bytes => exact ⟨_, execAtomUartResponse_moves (Nat.or_self _) (.refl _ _) bytes, rfl⟩
  | tempLost uart => exact ⟨_, execTempLost_moves (Nat.or_self _) (.refl _ _) uart, rfl⟩
  | guylineModelSave => exact ⟨_, execGuylineModelSave_moves (Nat.or_self _) (.refl _ _), rfl⟩
  | tempSample temp => exact ⟨_, execTempSample_moves (Nat.or_self _) (.refl _ _) temp, rfl⟩
  | todoutMessage line => exact ⟨_, execTodoutMessage_moves (Nat.or_self _) (.refl _ _) line, rfl⟩
  | oeTimingChange off ck => exact ⟨_, execOeTimingChange_moves (Nat.or_self _) (.refl _ _) off ck, rfl⟩
  | milestoneFire n => exact ⟨_, execMilestoneFire_moves (Nat.or_self _) (.refl _ _) n, rfl⟩
  | evtCapture n off eighth falling => exact ⟨_, execEvtCapture_moves (Nat.or_self _) (.refl _ _) n off eighth falling, rfl⟩
  | mileArmWrite rd n val => exact ⟨_, execMileArmWrite_moves (Nat.or_self _) (.refl _ _) rd n val, rfl⟩
  | capturePop rd n => exact ⟨_, execCapturePop_moves (Nat.or_self _) (.refl _ _) rd n, rfl⟩
  | measEpoch => exact ⟨_, execMeasEpoch_moves (Nat.or_self _) (.refl _ _), rfl⟩
  | outCalibrateDone loopPs rms ok => exact ⟨_, execOutCalibrateDone_moves (Nat.or_self _) (.refl _ _) loopPs rms ok, rfl⟩
  | tdcResult ch deltaFs gap tbOpen => exact ⟨_, execTdcResult_moves (Nat.or_self _) (.refl _ _) ch deltaFs gap tbOpen, rfl⟩
  | tdcTimeout ch => exact ⟨_, execTdcTimeout_moves (Nat.or_self _) (.refl _ _) ch, rfl⟩
  | tdcDllUnlock ch => exact ⟨_, execTdcDllUnlock_moves (Nat.or_self _) (.refl _ _) ch, rfl⟩
  | tdcDllLock ch => exact ⟨_, execTdcDllLock_moves (Nat.or_self _) (.refl _ _) ch, rfl⟩
  | tdcCalibration ch => exact ⟨_, execTdcCalibration_moves (Nat.or_self _) (.refl _ _) ch, rfl⟩
  | timebasePresence which present => exact ⟨_, execTimebasePresence_moves (Nat.or_self _) (.refl _ _) which present, rfl⟩
  | tdcArmWrite rd ch val => exact ⟨_, execTdcArmWrite_moves (Nat.or_self _) (.refl _ _) rd ch val, rfl⟩
  | tdcResultPop rd ch => exact ⟨_, execTdcResultPop_moves (Nat.or_self _) (.refl _ _) rd ch, rfl⟩
  | dumpBoundary ch samples => exact ⟨_, execDumpBoundary_moves (Nat.or_self _) (.refl _ _) ch samples, rfl⟩
  | forcedBoundary ch samples => exact ⟨_, execForcedBoundary_moves (Nat.or_self _) (.refl _ _) ch samples, rfl⟩
  | feMagPeriod st samples => exact ⟨_, execFeMagPeriod_moves (Nat.or_self _) (.refl _ _) st samples, rfl⟩
  | channelEnable ch ctrl w => exact ⟨_, execChannelEnable_moves (Nat.or_self _) (.refl _ _) ch ctrl w, rfl⟩
  | channelApply ch w => exact ⟨_, execChannelApply_moves (Nat.or_self _) (.refl _ _) ch w, rfl⟩
  | gnssSpiDone rx => exact ⟨_, execGnssSpiDone_moves (Nat.or_self _) (.refl _ _) rx, rfl⟩
  | measBankClaim bank => exact ⟨_, execMeasBankClaim_moves (Nat.or_self _) (.refl _ _) bank, rfl⟩
  | gnssSolution rep residuals => exact ⟨_, execGnssSolution_moves (Nat.or_self _) (.refl _ _) rep residuals, rfl⟩
  | distortionCheck inp => exact ⟨_, execDistortionCheck_moves (Nat.or_self _) (.refl _ _) inp, rfl⟩
  | agcCheck => exact ⟨_, execAgcCheck_moves (Nat.or_self _) (.refl _ _), rfl⟩
  | guardWindowEnd => exact ⟨_, execGuardWindowEnd_moves (Nat.or_self _) (.refl _ _), rfl⟩
  | surveyComplete x y z unc => exact ⟨_, execSurveyComplete_moves (Nat.or_self _) (.refl _ _) x y z unc, rfl⟩
  | snapshotEnter => exact ⟨_, execSnapshotEnter_moves (Nat.or_self _) (.refl _ _), rfl⟩
  | burstWindowOpen => exact ⟨_, execBurstWindowOpen_moves (Nat.or_self _) (.refl _ _), rfl⟩
  | burstWindowClose => exact ⟨_, execBurstWindowClose_moves (Nat.or_self _) (.refl _ _), rfl⟩
  | snapshotExit => exact ⟨_, execSnapshotExit_moves (Nat.or_self _) (.refl _ _), rfl⟩
  | frameReceive f => exact ⟨_, execFrameReceive_moves (Nat.or_self _) (.refl _ _) f, rfl⟩
  | xoffRepeat p => exact ⟨_, execXoffRepeat_moves (Nat.or_self _) (.refl _ _) p, rfl⟩
  | xonSend p => exact ⟨_, execXonSend_moves (Nat.or_self _) (.refl _ _) p, rfl⟩
  | pauseTimerExpiry p => exact ⟨_, execPauseTimerExpiry_moves (Nat.or_self _) (.refl _ _) p, rfl⟩
  | pauseWatchdogTrip p => exact ⟨_, execPauseWatchdogTrip_moves (Nat.or_self _) (.refl _ _) p, rfl⟩
  | pcsLoss p => exact ⟨_, execPcsLoss_moves (Nat.or_self _) (.refl _ _) p, rfl⟩
  | linkUp p => exact ⟨_, execLinkUp_moves (Nat.or_self _) (.refl _ _) p, rfl⟩
  | serdesPllLoss p => exact ⟨_, execSerdesPllLoss_moves (Nat.or_self _) (.refl _ _) p, rfl⟩
  | syncePhaseMeasure p phasePs cdrLock ppmOk => exact ⟨_, execSyncePhaseMeasure_moves (Nat.or_self _) (.refl _ _) p phasePs cdrLock ppmOk, rfl⟩
  | esmcEventPdu p => exact ⟨_, execEsmcEventPdu_moves (Nat.or_self _) (.refl _ _) p, rfl⟩
  | hostTxDescriptor p d => exact ⟨_, execHostTxDescriptor_moves (Nat.or_self _) (.refl _ _) p d, rfl⟩
  | hostFrameSent p => exact ⟨_, execHostFrameSent_moves (Nat.or_self _) (.refl _ _) p, rfl⟩
  | reservationRetry p => exact ⟨_, execReservationRetry_moves (Nat.or_self _) (.refl _ _) p, rfl⟩
  | reservationDeadline p id => exact ⟨_, execReservationDeadline_moves (Nat.or_self _) (.refl _ _) p id, rfl⟩
  | launchPoolDeadline p late => exact ⟨_, execLaunchPoolDeadline_moves (Nat.or_self _) (.refl _ _) p late, rfl⟩
  | frameLaunch p => exact ⟨_, execFrameLaunch_moves (Nat.or_self _) (.refl _ _) p, rfl⟩
  | tsqPop rd p => exact ⟨_, execTsqPop_moves (Nat.or_self _) (.refl _ _) rd p, rfl⟩
  | tsqLostRead rd p => exact ⟨_, execTsqLostRead_moves (Nat.or_self _) (.refl _ _) rd p, rfl⟩
  | waypCalDone p => exact ⟨_, execWaypCalDone_moves (Nat.or_self _) (.refl _ _) p, rfl⟩
  | ntsCryptoDone id => exact ⟨_, execNtsCryptoDone_moves (Nat.or_self _) (.refl _ _) id, rfl⟩
  | creditRateUpdate => exact ⟨_, execCreditRateUpdate_moves (Nat.or_self _) (.refl _ _), rfl⟩
  | tollgateScrubVisit b => exact ⟨_, execTollgateScrubVisit_moves (Nat.or_self _) (.refl _ _) b, rfl⟩
  | cryptoSelfTest aesOk shaOk => exact ⟨_, execCryptoSelfTest_moves (Nat.or_self _) (.refl _ _) aesOk shaOk, rfl⟩
  | grantVisit idx off => exact ⟨_, execGrantVisit_moves (Nat.or_self _) (.refl _ _) idx off, rfl⟩
  | mcastVisit k p off => exact ⟨_, execMcastVisit_moves (Nat.or_self _) (.refl _ _) k p off, rfl⟩
  | clientRenewal c cand kind => exact ⟨_, execClientRenewal_moves (Nat.or_self _) (.refl _ _) c cand kind, rfl⟩
  | clientRequestRetry c cand => exact ⟨_, execClientRequestRetry_moves (Nat.or_self _) (.refl _ _) c cand, rfl⟩
  | clientDelayReqSend c => exact ⟨_, execClientDelayReqSend_moves (Nat.or_self _) (.refl _ _) c, rfl⟩
  | clientAnnounceTimeout c cand => exact ⟨_, execClientAnnounceTimeout_moves (Nat.or_self _) (.refl _ _) c cand, rfl⟩
  | heartbeatSend off ck => exact ⟨_, execHeartbeatSend_moves (Nat.or_self _) (.refl _ _) off ck, rfl⟩
  | heartbeatReceive f off ck => exact ⟨_, execHeartbeatReceive_moves (Nat.or_self _) (.refl _ _) f off ck, rfl⟩
  | heartbeatMiss ck => exact ⟨_, execHeartbeatMiss_moves (Nat.or_self _) (.refl _ _) ck, rfl⟩
  | fbLinkDown ck => exact ⟨_, execFbLinkDown_moves (Nat.or_self _) (.refl _ _) ck, rfl⟩
  | fbOffer f ck => exact ⟨_, execFbOffer_moves (Nat.or_self _) (.refl _ _) f ck, rfl⟩
  | fbAccept f ck => exact ⟨_, execFbAccept_moves (Nat.or_self _) (.refl _ _) f ck, rfl⟩
  | fbAbort off => exact ⟨_, execFbAbort_moves (Nat.or_self _) (.refl _ _) off, rfl⟩
  | acceptTimeout ck => exact ⟨_, execAcceptTimeout_moves (Nat.or_self _) (.refl _ _) ck, rfl⟩
  | handoverInstant off ck => exact ⟨_, execHandoverInstant_moves (Nat.or_self _) (.refl _ _) off ck, rfl⟩
  | plannedTake off ck => exact ⟨_, execPlannedTake_moves (Nat.or_self _) (.refl _ _) off ck, rfl⟩
  | handoverRetake off ck => exact ⟨_, execHandoverRetake_moves (Nat.or_self _) (.refl _ _) off ck, rfl⟩
  | leaseRelinquish off ck => exact ⟨_, execLeaseRelinquish_moves (Nat.or_self _) (.refl _ _) off ck, rfl⟩
  | expiryTake ck => exact ⟨_, execExpiryTake_moves (Nat.or_self _) (.refl _ _) ck, rfl⟩
  | relinquishTake ck => exact ⟨_, execRelinquishTake_moves (Nat.or_self _) (.refl _ _) ck, rfl⟩
  | coldStartTake ck => exact ⟨_, execColdStartTake_moves (Nat.or_self _) (.refl _ _) ck, rfl⟩
  | retakeTake ck => exact ⟨_, execRetakeTake_moves (Nat.or_self _) (.refl _ _) ck, rfl⟩
  | deferredTake ck => exact ⟨_, execDeferredTake_moves (Nat.or_self _) (.refl _ _) ck, rfl⟩
  | peerownChange high ck => exact ⟨_, execPeerownChange_moves (Nat.or_self _) (.refl _ _) high ck, rfl⟩
  | addressAnnounceRound => exact ⟨_, execAddressAnnounceRound_moves (Nat.or_self _) (.refl _ _), rfl⟩
  | remaskVisit k flips => exact ⟨_, execRemaskVisit_moves (Nat.or_self _) (.refl _ _) k flips, rfl⟩
  | rngReseed failed passed => exact ⟨_, execRngReseed_moves (Nat.or_self _) (.refl _ _) failed passed, rfl⟩
  | ecdsaSelfTest ok => exact ⟨_, execEcdsaSelfTest_moves (Nat.or_self _) (.refl _ _) ok, rfl⟩
  | keyStoreCommit ok => exact ⟨_, execKeyStoreCommit_moves (Nat.or_self _) (.refl _ _) ok, rfl⟩
  | keyDrained k => exact ⟨_, execKeyDrained_moves (Nat.or_self _) (.refl _ _) k, rfl⟩
  | keyCommandTimeout off => exact ⟨_, execKeyCommandTimeout_moves (Nat.or_self _) (.refl _ _) off, rfl⟩
  | vaultReload => exact ⟨_, execVaultReload_moves (Nat.or_self _) (.refl _ _), rfl⟩
  | quiesceDrained off => exact ⟨_, execQuiesceDrained_moves (Nat.or_self _) (.refl _ _) off, rfl⟩
  | requestPiWrite slot val => exact ⟨_, execRequestPiWrite_moves (Nat.or_self _) (.refl _ _) slot val, rfl⟩
  | commandDispatch slot hdr => exact ⟨_, execCommandDispatch_moves (Nat.or_self _) (.refl _ _) slot hdr, rfl⟩
  | completionCiWrite slot val => exact ⟨_, execCompletionCiWrite_moves (Nat.or_self _) (.refl _ _) slot val, rfl⟩
  | mboxEnable slot val => exact ⟨_, execMboxEnable_moves (Nat.or_self _) (.refl _ _) slot val, rfl⟩
  | sleepSet slot => exact ⟨_, execSleepSet_moves (Nat.or_self _) (.refl _ _) slot, rfl⟩
  | sleepClear slot => exact ⟨_, execSleepClear_moves (Nat.or_self _) (.refl _ _) slot, rfl⟩
  | moderationTimeout slot off => exact ⟨_, execModerationTimeout_moves (Nat.or_self _) (.refl _ _) slot off, rfl⟩
  | hostSpiWrite addr data part => exact ⟨_, execHostSpiWrite_moves (Nat.or_self _) (.refl _ _) addr data part, rfl⟩
  | hostSpiRead addr n late => exact ⟨_, execHostSpiRead_moves (Nat.or_self _) (.refl _ _) addr n late, rfl⟩
  | hostSpiStatus => exact ⟨_, execHostSpiStatus_moves (Nat.or_self _) (.refl _ _), rfl⟩
  | smbusSetPointer p pec => exact ⟨_, execSmbusSetPointer_moves (Nat.or_self _) (.refl _ _) p pec, rfl⟩
  | smbusBlockWrite data pec => exact ⟨_, execSmbusBlockWrite_moves (Nat.or_self _) (.refl _ _) data pec, rfl⟩
  | smbusBlockRead pec => exact ⟨_, execSmbusBlockRead_moves (Nat.or_self _) (.refl _ _) pec, rfl⟩
  | smbusAlertResponse => exact ⟨_, execSmbusAlertResponse_moves (Nat.or_self _) (.refl _ _), rfl⟩
  | registerWrite rd addr be val => exact ⟨_, execRegisterWrite_moves (Nat.or_self _) (.refl _ _) rd addr be val, rfl⟩
  | aliasSetWrite rd addr val => exact ⟨_, execAliasSetWrite_moves (Nat.or_self _) (.refl _ _) rd addr val, rfl⟩
  | aliasClrWrite rd addr val => exact ⟨_, execAliasClrWrite_moves (Nat.or_self _) (.refl _ _) rd addr val, rfl⟩
  | aliasTglWrite rd addr val => exact ⟨_, execAliasTglWrite_moves (Nat.or_self _) (.refl _ _) rd addr val, rfl⟩
  | lockSet rd blk => exact ⟨_, execLockSet_moves (Nat.or_self _) (.refl _ _) rd blk, rfl⟩
  | stickyRead rd addr => exact ⟨_, execStickyRead_moves (Nat.or_self _) (.refl _ _) rd addr, rfl⟩
  | reportRead rd addr => exact ⟨_, execReportRead_moves (Nat.or_self _) (.refl _ _) rd addr, rfl⟩
  | reportAck rd blk val => exact ⟨_, execReportAck_moves (Nat.or_self _) (.refl _ _) rd blk val, rfl⟩
  | multiwordFirstRead rd addr off => exact ⟨_, execMultiwordFirstRead_moves (Nat.or_self _) (.refl _ _) rd addr off, rfl⟩
  | indDataRead rd => exact ⟨_, execIndDataRead_moves (Nat.or_self _) (.refl _ _) rd, rfl⟩
  | indDataWrite rd val => exact ⟨_, execIndDataWrite_moves (Nat.or_self _) (.refl _ _) rd val, rfl⟩
  | icuClaim rd => exact ⟨_, execIcuClaim_moves (Nat.or_self _) (.refl _ _) rd, rfl⟩
  | icuComplete rd val => exact ⟨_, execIcuComplete_moves (Nat.or_self _) (.refl _ _) rd val, rfl⟩
  | icuPendRaise rd k val => exact ⟨_, execIcuPendRaise_moves (Nat.or_self _) (.refl _ _) rd k val, rfl⟩
  | icuPendWithdraw rd k val => exact ⟨_, execIcuPendWithdraw_moves (Nat.or_self _) (.refl _ _) rd k val, rfl⟩
  | injectionEnd src ck => exact ⟨_, execInjectionEnd_moves (Nat.or_self _) (.refl _ _) src ck, rfl⟩
  | injectionResample src ck => exact ⟨_, execInjectionResample_moves (Nat.or_self _) (.refl _ _) src ck, rfl⟩
  | trailFlushPeriodic => exact ⟨_, execTrailFlushPeriodic_moves (Nat.or_self _) (.refl _ _), rfl⟩
  | trailFlushDone fail => exact ⟨_, execTrailFlushDone_moves (Nat.or_self _) (.refl _ _) fail, rfl⟩
  | perfDump off => exact ⟨_, execPerfDump_moves (Nat.or_self _) (.refl _ _) off, rfl⟩
  | perturbExpiry k off => exact ⟨_, execPerturbExpiry_moves (Nat.or_self _) (.refl _ _) k off, rfl⟩
  | icpHello c majors => exact ⟨_, execIcpHello_moves (Nat.or_self _) (.refl _ _) c majors, rfl⟩
  | icpModeGet c => exact ⟨_, execIcpModeGet_moves (Nat.or_self _) (.refl _ _) c, rfl⟩
  | icpProvisionDone c => exact ⟨_, execIcpProvisionDone_moves (Nat.or_self _) (.refl _ _) c, rfl⟩
  | icpQuiesce c force gate rsv => exact ⟨_, execIcpQuiesce_moves (Nat.or_self _) (.refl _ _) c force gate rsv, rfl⟩
  | icpResume c => exact ⟨_, execIcpResume_moves (Nat.or_self _) (.refl _ _) c, rfl⟩
  | icpPowerGate c mask on rsv => exact ⟨_, execIcpPowerGate_moves (Nat.or_self _) (.refl _ _) c mask on rsv, rfl⟩
  | icpSysReset c confirm => exact ⟨_, execIcpSysReset_moves (Nat.or_self _) (.refl _ _) c confirm, rfl⟩
  | icpModeConfig c phase dwell rsv => exact ⟨_, execIcpModeConfig_moves (Nat.or_self _) (.refl _ _) c phase dwell rsv, rfl⟩
  | icpTimeGet c off => exact ⟨_, execIcpTimeGet_moves (Nat.or_self _) (.refl _ _) c off, rfl⟩
  | icpLeapSet c a => exact ⟨_, execIcpLeapSet_moves (Nat.or_self _) (.refl _ _) c a, rfl⟩
  | icpTimeStep c a => exact ⟨_, execIcpTimeStep_moves (Nat.or_self _) (.refl _ _) c a, rfl⟩
  | icpStepPermit c window rsv => exact ⟨_, execIcpStepPermit_moves (Nat.or_self _) (.refl _ _) c window rsv, rfl⟩
  | icpSlotConfig c a => exact ⟨_, execIcpSlotConfig_moves (Nat.or_self _) (.refl _ _) c a, rfl⟩
  | icpSlotInfo c => exact ⟨_, execIcpSlotInfo_moves (Nat.or_self _) (.refl _ _) c, rfl⟩
  | icpSlotList c => exact ⟨_, execIcpSlotList_moves (Nat.or_self _) (.refl _ _) c, rfl⟩
  | icpRefConfig c a => exact ⟨_, execIcpRefConfig_moves (Nat.or_self _) (.refl _ _) c a, rfl⟩
  | icpRefPpsInput c a => exact ⟨_, execIcpRefPpsInput_moves (Nat.or_self _) (.refl _ _) c a, rfl⟩
  | icpRefThresh c a => exact ⟨_, execIcpRefThresh_moves (Nat.or_self _) (.refl _ _) c a, rfl⟩
  | icpRefStatus c => exact ⟨_, execIcpRefStatus_moves (Nat.or_self _) (.refl _ _) c, rfl⟩
  | icpRefClear c slot rsv => exact ⟨_, execIcpRefClear_moves (Nat.or_self _) (.refl _ _) c slot rsv, rfl⟩
  | icpRefAsym c slot comp unc rsv => exact ⟨_, execIcpRefAsym_moves (Nat.or_self _) (.refl _ _) c slot comp unc rsv, rfl⟩
  | icpSelConfig c a => exact ⟨_, execIcpSelConfig_moves (Nat.or_self _) (.refl _ _) c a, rfl⟩
  | icpSwbConfig c slope acq => exact ⟨_, execIcpSwbConfig_moves (Nat.or_self _) (.refl _ _) c slope acq, rfl⟩
  | icpLanternConfig c a => exact ⟨_, execIcpLanternConfig_moves (Nat.or_self _) (.refl _ _) c a, rfl⟩
  | icpHoldConfig c a => exact ⟨_, execIcpHoldConfig_moves (Nat.or_self _) (.refl _ _) c a, rfl⟩
  | icpHoldOscConfig c a => exact ⟨_, execIcpHoldOscConfig_moves (Nat.or_self _) (.refl _ _) c a, rfl⟩
  | icpHoldStatus c => exact ⟨_, execIcpHoldStatus_moves (Nat.or_self _) (.refl _ _) c, rfl⟩
  | icpHoldReset c main atom rsv => exact ⟨_, execIcpHoldReset_moves (Nat.or_self _) (.refl _ _) c main atom rsv, rfl⟩
  | icpAtomUartConfig c a => exact ⟨_, execIcpAtomUartConfig_moves (Nat.or_self _) (.refl _ _) c a, rfl⟩
  | icpPpsConfig c a => exact ⟨_, execIcpPpsConfig_moves (Nat.or_self _) (.refl _ _) c a, rfl⟩
  | icpFreqConfig c a => exact ⟨_, execIcpFreqConfig_moves (Nat.or_self _) (.refl _ _) c a, rfl⟩
  | icpTodConfig c a => exact ⟨_, execIcpTodConfig_moves (Nat.or_self _) (.refl _ _) c a, rfl⟩
  | icpOutCalibrate c a => exact ⟨_, execIcpOutCalibrate_moves (Nat.or_self _) (.refl _ _) c a, rfl⟩
  | icpMileArm c a => exact ⟨_, execIcpMileArm_moves (Nat.or_self _) (.refl _ _) c a, rfl⟩
  | icpMileDisarm c pin rsv => exact ⟨_, execIcpMileDisarm_moves (Nat.or_self _) (.refl _ _) c pin rsv, rfl⟩
  | icpMileCaptureConfig c a => exact ⟨_, execIcpMileCaptureConfig_moves (Nat.or_self _) (.refl _ _) c a, rfl⟩
  | icpEpochConfig c rate enable rsv => exact ⟨_, execIcpEpochConfig_moves (Nat.or_self _) (.refl _ _) c rate enable rsv, rfl⟩
  | icpOutStatus c => exact ⟨_, execIcpOutStatus_moves (Nat.or_self _) (.refl _ _) c, rfl⟩
  | icpTdcConfig c a => exact ⟨_, execIcpTdcConfig_moves (Nat.or_self _) (.refl _ _) c a, rfl⟩
  | icpTdcMeasure c ch rsv => exact ⟨_, execIcpTdcMeasure_moves (Nat.or_self _) (.refl _ _) c ch rsv, rfl⟩
  | icpTdcTimebase c enable nom rsv => exact ⟨_, execIcpTdcTimebase_moves (Nat.or_self _) (.refl _ _) c enable nom rsv, rfl⟩
  | icpTdcCalConfig c period rsv => exact ⟨_, execIcpTdcCalConfig_moves (Nat.or_self _) (.refl _ _) c period rsv, rfl⟩
  | icpTdcSkew c ch skew rsv => exact ⟨_, execIcpTdcSkew_moves (Nat.or_self _) (.refl _ _) c ch skew rsv, rfl⟩
  | icpTdcStatus c => exact ⟨_, execIcpTdcStatus_moves (Nat.or_self _) (.refl _ _) c, rfl⟩
  | icpGnssFeConfig c a => exact ⟨_, execIcpGnssFeConfig_moves (Nat.or_self _) (.refl _ _) c a, rfl⟩
  | icpGnssFeSpi c a => exact ⟨_, execIcpGnssFeSpi_moves (Nat.or_self _) (.refl _ _) c a, rfl⟩
  | icpGnssSignals c sigs clusters rsv => exact ⟨_, execIcpGnssSignals_moves (Nat.or_self _) (.refl _ _) c sigs clusters rsv, rfl⟩
  | icpGnssChanStatus c first count rsv => exact ⟨_, execIcpGnssChanStatus_moves (Nat.or_self _) (.refl _ _) c first count rsv, rfl⟩
  | icpGnssMeasGet c => exact ⟨_, execIcpGnssMeasGet_moves (Nat.or_self _) (.refl _ _) c, rfl⟩
  | icpGnssPosition c a => exact ⟨_, execIcpGnssPosition_moves (Nat.or_self _) (.refl _ _) c a, rfl⟩
  | icpGnssSolStatus c => exact ⟨_, execIcpGnssSolStatus_moves (Nat.or_self _) (.refl _ _) c, rfl⟩
  | icpGnssDelay c d0 d1 unc rsv => exact ⟨_, execIcpGnssDelay_moves (Nat.or_self _) (.refl _ _) c d0 d1 unc rsv, rfl⟩
  | icpGnssIntegrityConfig c a => exact ⟨_, execIcpGnssIntegrityConfig_moves (Nat.or_self _) (.refl _ _) c a, rfl⟩
  | icpGnssGuardConfig c a => exact ⟨_, execIcpGnssGuardConfig_moves (Nat.or_self _) (.refl _ _) c a, rfl⟩
  | icpGnssGuardRelease c => exact ⟨_, execIcpGnssGuardRelease_moves (Nat.or_self _) (.refl _ _) c, rfl⟩
  | icpGnssBurst c a => exact ⟨_, execIcpGnssBurst_moves (Nat.or_self _) (.refl _ _) c a, rfl⟩
  | icpPortConfig c a => exact ⟨_, execIcpPortConfig_moves (Nat.or_self _) (.refl _ _) c a, rfl⟩
  | icpPortStatus c port rsv => exact ⟨_, execIcpPortStatus_moves (Nat.or_self _) (.refl _ _) c port rsv, rfl⟩
  | icpPortPauseConfig c a => exact ⟨_, execIcpPortPauseConfig_moves (Nat.or_self _) (.refl _ _) c a, rfl⟩
  | icpPortEsmcConfig c a => exact ⟨_, execIcpPortEsmcConfig_moves (Nat.or_self _) (.refl _ _) c a, rfl⟩
  | icpPortRingConfig c a => exact ⟨_, execIcpPortRingConfig_moves (Nat.or_self _) (.refl _ _) c a, rfl⟩
  | icpWaypConfig c margin rsv => exact ⟨_, execIcpWaypConfig_moves (Nat.or_self _) (.refl _ _) c margin rsv, rfl⟩
  | icpWaypTsqLimit c slot port limit rsv => exact ⟨_, execIcpWaypTsqLimit_moves (Nat.or_self _) (.refl _ _) c slot port limit rsv, rfl⟩
  | icpWaypCalPulse c port n rsv => exact ⟨_, execIcpWaypCalPulse_moves (Nat.or_self _) (.refl _ _) c port n rsv, rfl⟩
  | icpWaypLoopback c tx rx n rsv => exact ⟨_, execIcpWaypLoopback_moves (Nat.or_self _) (.refl _ _) c tx rx n rsv, rfl⟩
  | icpWaypCalSet c a => exact ⟨_, execIcpWaypCalSet_moves (Nat.or_self _) (.refl _ _) c a, rfl⟩
  | icpServAddrSet c a => exact ⟨_, execIcpServAddrSet_moves (Nat.or_self _) (.refl _ _) c a, rfl⟩
  | icpServAddrDel c idx rsv => exact ⟨_, execIcpServAddrDel_moves (Nat.or_self _) (.refl _ _) c idx rsv, rfl⟩
  | icpServAddrList c => exact ⟨_, execIcpServAddrList_moves (Nat.or_self _) (.refl _ _) c, rfl⟩
  | icpServConfig c a => exact ⟨_, execIcpServConfig_moves (Nat.or_self _) (.refl _ _) c a, rfl⟩
  | icpServSlotLimit c slot limit rsv => exact ⟨_, execIcpServSlotLimit_moves (Nat.or_self _) (.refl _ _) c slot limit rsv, rfl⟩
  | icpServStatus c => exact ⟨_, execIcpServStatus_moves (Nat.or_self _) (.refl _ _) c, rfl⟩
  | icpNtsMint c a => exact ⟨_, execIcpNtsMint_moves (Nat.or_self _) (.refl _ _) c a, rfl⟩
  | icpPtpClockConfig c ident => exact ⟨_, execIcpPtpClockConfig_moves (Nat.or_self _) (.refl _ _) c ident, rfl⟩
  | icpPtpInstanceSet c a => exact ⟨_, execIcpPtpInstanceSet_moves (Nat.or_self _) (.refl _ _) c a, rfl⟩
  | icpPtpInstanceDel c idx rsv => exact ⟨_, execIcpPtpInstanceDel_moves (Nat.or_self _) (.refl _ _) c idx rsv, rfl⟩
  | icpPtpQuota c slot grants rate rsv => exact ⟨_, execIcpPtpQuota_moves (Nat.or_self _) (.refl _ _) c slot grants rate rsv, rfl⟩
  | icpPtpBudget c budget => exact ⟨_, execIcpPtpBudget_moves (Nat.or_self _) (.refl _ _) c budget, rfl⟩
  | icpPtpStatus c => exact ⟨_, execIcpPtpStatus_moves (Nat.or_self _) (.refl _ _) c, rfl⟩
  | icpPtpGrantRead c first count rsv => exact ⟨_, execIcpPtpGrantRead_moves (Nat.or_self _) (.refl _ _) c first count rsv, rfl⟩
  | icpPtpGrantLoad c count recs rsv => exact ⟨_, execIcpPtpGrantLoad_moves (Nat.or_self _) (.refl _ _) c count recs rsv, rfl⟩
  | icpPtpGrantCancel c inst rsv => exact ⟨_, execIcpPtpGrantCancel_moves (Nat.or_self _) (.refl _ _) c inst rsv, rfl⟩
  | icpPtpClientConfig c a => exact ⟨_, execIcpPtpClientConfig_moves (Nat.or_self _) (.refl _ _) c a, rfl⟩
  | icpFbConfig c a => exact ⟨_, execIcpFbConfig_moves (Nat.or_self _) (.refl _ _) c a, rfl⟩
  | icpFbStatus c => exact ⟨_, execIcpFbStatus_moves (Nat.or_self _) (.refl _ _) c, rfl⟩
  | icpFbHandover c lead rsv => exact ⟨_, execIcpFbHandover_moves (Nat.or_self _) (.refl _ _) c lead rsv, rfl⟩
  | icpFbAsym c asym => exact ⟨_, execIcpFbAsym_moves (Nat.or_self _) (.refl _ _) c asym, rfl⟩
  | icpFbTake c confirm => exact ⟨_, execIcpFbTake_moves (Nat.or_self _) (.refl _ _) c confirm, rfl⟩
  | icpNtsKeyInstall c a => exact ⟨_, execIcpNtsKeyInstall_moves (Nat.or_self _) (.refl _ _) c a, rfl⟩
  | icpNtsKeyRotate c num => exact ⟨_, execIcpNtsKeyRotate_moves (Nat.or_self _) (.refl _ _) c num, rfl⟩
  | icpNtsKeyInvalidate c a => exact ⟨_, execIcpNtsKeyInvalidate_moves (Nat.or_self _) (.refl _ _) c a, rfl⟩
  | icpNtsKeyList c => exact ⟨_, execIcpNtsKeyList_moves (Nat.or_self _) (.refl _ _) c, rfl⟩
  | icpPtpKeyInstall c a => exact ⟨_, execIcpPtpKeyInstall_moves (Nat.or_self _) (.refl _ _) c a, rfl⟩
  | icpPtpKeyRotate c spp keyId rsv => exact ⟨_, execIcpPtpKeyRotate_moves (Nat.or_self _) (.refl _ _) c spp keyId rsv, rfl⟩
  | icpPtpKeyInvalidate c a => exact ⟨_, execIcpPtpKeyInvalidate_moves (Nat.or_self _) (.refl _ _) c a, rfl⟩
  | icpPtpKeyList c => exact ⟨_, execIcpPtpKeyList_moves (Nat.or_self _) (.refl _ _) c, rfl⟩
  | icpIdGet c => exact ⟨_, execIcpIdGet_moves (Nat.or_self _) (.refl _ _) c, rfl⟩
  | icpAttest c nonce => exact ⟨_, execIcpAttest_moves (Nat.or_self _) (.refl _ _) c nonce, rfl⟩
  | icpKeyEnroll c confirm => exact ⟨_, execIcpKeyEnroll_moves (Nat.or_self _) (.refl _ _) c confirm, rfl⟩
  | icpIdCertSet c len cert rsv => exact ⟨_, execIcpIdCertSet_moves (Nat.or_self _) (.refl _ _) c len cert rsv, rfl⟩
  | icpVaultConfig c period rsv => exact ⟨_, execIcpVaultConfig_moves (Nat.or_self _) (.refl _ _) c period rsv, rfl⟩
  | icpVaultStatus c => exact ⟨_, execIcpVaultStatus_moves (Nat.or_self _) (.refl _ _) c, rfl⟩
  | icpFwStatus c => exact ⟨_, execIcpFwStatus_moves (Nat.or_self _) (.refl _ _) c, rfl⟩
  | icpFwBegin c bank rsv => exact ⟨_, execIcpFwBegin_moves (Nat.or_self _) (.refl _ _) c bank rsv, rfl⟩
  | icpFwWrite c a => exact ⟨_, execIcpFwWrite_moves (Nat.or_self _) (.refl _ _) c a, rfl⟩
  | icpFwFinish c activate rsv => exact ⟨_, execIcpFwFinish_moves (Nat.or_self _) (.refl _ _) c activate rsv, rfl⟩
  | icpFwCommit c force rsv => exact ⟨_, execIcpFwCommit_moves (Nat.or_self _) (.refl _ _) c force rsv, rfl⟩
  | icpFaultStatus c => exact ⟨_, execIcpFaultStatus_moves (Nat.or_self _) (.refl _ _) c, rfl⟩
  | icpFaultConfig c source severity rsv => exact ⟨_, execIcpFaultConfig_moves (Nat.or_self _) (.refl _ _) c source severity rsv, rfl⟩
  | icpFaultInject c a => exact ⟨_, execIcpFaultInject_moves (Nat.or_self _) (.refl _ _) c a, rfl⟩
  | icpTrailRead c a => exact ⟨_, execIcpTrailRead_moves (Nat.or_self _) (.refl _ _) c a, rfl⟩
  | icpTrailFlush c period rsv => exact ⟨_, execIcpTrailFlush_moves (Nat.or_self _) (.refl _ _) c period rsv, rfl⟩
  | icpCairnConfig c period events flash rsv => exact ⟨_, execIcpCairnConfig_moves (Nat.or_self _) (.refl _ _) c period events flash rsv, rfl⟩
  | icpCairnLast c => exact ⟨_, execIcpCairnLast_moves (Nat.or_self _) (.refl _ _) c, rfl⟩
  | icpPerfRead c a => exact ⟨_, execIcpPerfRead_moves (Nat.or_self _) (.refl _ _) c a, rfl⟩
  | icpPerfDumpConfig c a => exact ⟨_, execIcpPerfDumpConfig_moves (Nat.or_self _) (.refl _ _) c a, rfl⟩
  | icpPerfAcl c op aud => exact ⟨_, execIcpPerfAcl_moves (Nat.or_self _) (.refl _ _) c op aud, rfl⟩
  | icpPerturbArm c a => exact ⟨_, execIcpPerturbArm_moves (Nat.or_self _) (.refl _ _) c a, rfl⟩
  | icpPerturbLive c val => exact ⟨_, execIcpPerturbLive_moves (Nat.or_self _) (.refl _ _) c val, rfl⟩
  | commandedReset => exact ⟨_, execCommandedReset_moves (Nat.or_self _) (.refl _ _), rfl⟩
  | pcsUp p => exact ⟨_, execPcsUp_moves (Nat.or_self _) (.refl _ _) p, rfl⟩
  | autonegRestart p => exact ⟨_, execAutonegRestart_moves (Nat.or_self _) (.refl _ _) p, rfl⟩
  | serdesPllRelock p => exact ⟨_, execSerdesPllRelock_moves (Nat.or_self _) (.refl _ _) p, rfl⟩
  | finePhaseTrackLost p => exact ⟨_, execFinePhaseTrackLost_moves (Nat.or_self _) (.refl _ _) p, rfl⟩
  | finePhaseTrackRegained p => exact ⟨_, execFinePhaseTrackRegained_moves (Nat.or_self _) (.refl _ _) p, rfl⟩
  | pcieConfigWrite pf busMaster d0 pmeEn l2 => exact ⟨_, execPcieConfigWrite_moves (Nat.or_self _) (.refl _ _) pf busMaster d0 pmeEn l2, rfl⟩
  | perstNRelease => exact ⟨_, execPerstNRelease_moves (Nat.or_self _) (.refl _ _), rfl⟩

theorem partBit_lt (p : StatePart) : partBit p < 25 := by cases p <;> decide

/-- A row that may not change the mode's word leaves the mode, the one before, the cause and the seconds. -/
theorem exec_sysWord {c : Instr} {s t : State} (h : exec c s = .next t) (hc : changesModeWord c = false) :
    sysWord t.sys = sysWord s.sys := by
  obtain ⟨k, hk, hw⟩ := exec_moves_listed c s
  rw [withinParts, if_neg (by simp [hc])] at hw
  exact (hk t h).word (testBit_of_within _ hw rfl fun p _ => (partBit_lt p).ne)

/-! ## A step -/

/-- A step idles on an empty queue, or runs the command at its front on the state with the queue's rest. -/
theorem step_cases {s t : State} (h : step s = .next t) :
    (s.pending = [] ∧ t = s) ∨ ∃ c q, s.pending = c :: q ∧ exec c { s with pending := q } = .next t := by
  unfold step at h
  split at h
  next hq => cases h; exact .inl ⟨hq, rfl⟩
  next c q hq => exact .inr ⟨c, q, hq, h⟩

/-- Settles O39: neither count is lowered by any command (`exec_moves`), and an idle step leaves both. -/
theorem countsNeverFall : Obligations.CountsNeverFall := by
  intro s t h32 h
  rcases step_cases h with ⟨_, rfl⟩ | ⟨c, q, _, hexec⟩
  · exact ⟨Nat.le_refl _, Nat.le_refl _⟩
  · have hmoves := exec_moves c { s with pending := q } t hexec
    exact ⟨(hmoves.aonOn h32).1, hmoves.vaultOn.1⟩

end Sys2Proof.Proofs
end

