-- ==== Sys2Proof/Proofs/ModeTransitions.lean ====
section
/-!
SUPPORT. The mode, the one before and the cause (02 R25): who may write them, what each of those rows makes of them, and the
statement about mode transitions.
-/
namespace Sys2Proof.Proofs
open Sys2Proof Sys2Proof.Machine Sys2Proof.Claims Sys2Proof.Laws

/-! ## Keeping the mode -/

/-- CUR, PREV and CAUSE are the same in two states. -/
def ModeKept (s t : State) : Prop := t.sys.mode = s.sys.mode ∧ t.sys.prev = s.sys.prev ∧ t.sys.cause = s.sys.cause

/-- The state is in BOOT by one of the five resets (02 R37). -/
def InBootByReset (t : State) : Prop := t.sys.mode = .boot ∧ 1 ≤ t.sys.cause ∧ t.sys.cause ≤ 5

/-- The mode went along a row of the table (02 R25). -/
def AlongTable (s t : State) : Prop := t.sys.prev = s.sys.mode ∧ (s.sys.mode, t.sys.mode, t.sys.cause) ∈ modeTable

/-- What any step may make of the mode. -/
def ModeStep (s t : State) : Prop := ModeKept s t ∨ InBootByReset t ∨ AlongTable s t

theorem ModeKept.refl (s : State) : ModeKept s s := ⟨rfl, rfl, rfl⟩

theorem ModeKept.trans {r s t : State} (h : ModeKept r s) (k : ModeKept s t) : ModeKept r t := by
  obtain ⟨hmode, hprev, hcause⟩ := h
  obtain ⟨kmode, kprev, kcause⟩ := k
  exact ⟨kmode.trans hmode, kprev.trans hprev, kcause.trans hcause⟩

theorem ModeKept.of_sysWord {s t : State} (h : sysWord t.sys = sysWord s.sys) : ModeKept s t := by
  simp only [sysWord, Prod.mk.injEq] at h
  obtain ⟨hmode, hprev, hcause, _⟩ := h
  exact ⟨hmode, hprev, hcause⟩

/-- Every component may change, the mode's word not: bits 0 to 24. -/
abbrev allButWord : Nat := 33554431

theorem ModeKept.of_moves {s t : State} (h : Moves allButWord s t) : ModeKept s t := .of_sysWord (h.word rfl)

theorem ModeStep.of_moves {s t : State} (h : Moves allButWord s t) : ModeStep s t := .inl (.of_moves h)

/-- What keeps the mode may come before what a step makes of it. -/
theorem ModeKept.trans_step {r s t : State} (h : ModeKept r s) (k : ModeStep s t) : ModeStep r t := by
  obtain ⟨hmode, hprev, hcause⟩ := h
  rcases k with ⟨kmode, kprev, kcause⟩ | k | ⟨kprev, krow⟩
  · exact .inl ⟨kmode.trans hmode, kprev.trans hprev, kcause.trans hcause⟩
  · exact .inr (.inl k)
  · exact .inr (.inr ⟨kprev.trans hmode, hmode ▸ krow⟩)

/-- What keeps the mode may come after what a step makes of it. -/
theorem ModeStep.trans_kept {r s t : State} (h : ModeStep r s) (k : ModeKept s t) : ModeStep r t := by
  obtain ⟨kmode, kprev, kcause⟩ := k
  unfold ModeStep ModeKept InBootByReset AlongTable
  rw [kmode, kprev, kcause]
  exact h

theorem ModeStep.ite {r s t : State} {p : Prop} [Decidable p] (hs : p → ModeStep r s) (ht : ¬p → ModeStep r t) :
    ModeStep r (if p then s else t) := by
  split
  · exact hs ‹_›
  · exact ht ‹_›

theorem ModeStep.refl (s : State) : ModeStep s s := .inl (.refl s)

/-- An operation that is carried out only under a condition moves no more than the operation. -/
theorem moves_guarded {m : Nat} {r u : State} {f : State → State} {p : Prop} [Decidable p] (hf : ∀ {v}, Moves m r v → Moves m r (f v))
    (h : Moves m r u) : Moves m r (if p then f u else u) := .ite (hf h) h

/-! ## TEMP_SAMPLE -/

/-- The second that TEMP_SAMPLE counts is all it changes of the mode's word (20 R437). -/
theorem execTempSample_moves_aonSecond (temp : Option Int) (s : State) :
    MovesOut allButWord (aonSecond s) (execTempSample temp s) := by
  unfold execTempSample
  refine .next (.ite (.refl _ _) ?_)
  cases temp with
  | none => exact .set_guy (.refl _ _) rfl
  | some t =>
    refine .ite (faultCond_moves rfl ?_ _ _) ?_ <;>
    · refine tempWarn_moves rfl ?_ _
      with_reducible refine .set_guy_sys (s := aonSecond s) (.refl _ _) ?_ ?_
      · rfl
      · exact .word rfl rfl rfl rfl

/-- A row outside `changesMode` leaves the mode. -/
theorem exec_modeKept {c : Instr} {s t : State} (h : exec c s = .next t) (hc : changesMode c = false) : ModeKept s t := by
  by_cases hw : changesModeWord c = false
  · exact .of_sysWord (exec_sysWord h hw)
  · cases c with
    | tempSample temp =>
      have hkept : ModeKept (aonSecond s) t := .of_moves (execTempSample_moves_aonSecond temp s t h)
      exact hkept
    | _ => exact absurd hc hw

/-! ## Resets -/

theorem powerOn_inBoot (provN unitB : Bool) (s : State) : InBootByReset (powerOn provN unitB s) := by
  simp [InBootByReset, powerOn, resetBase, State.reset]

theorem resetFull_inBoot {code : Nat} (provN unitB : Bool) (s : State) (h1 : 1 ≤ code) (h5 : code ≤ 5) :
    InBootByReset (resetFull code provN unitB s) := by
  simp [InBootByReset, resetFull, trailReset2, h1, h5]

theorem reset5_inBoot (s : State) : InBootByReset (reset5 s) := by
  simp [InBootByReset, reset5, trailReset2]

theorem ModeStep.reset {s t : State} (h : InBootByReset t) : ModeStep s t := .inr (.inl h)

theorem execRidgepoleLossOfLock_modeStep {s t : State} (h : execRidgepoleLossOfLock s = .next t) : ModeStep s t := by
  cases h
  exact .ite (fun _ => .reset (reset5_inBoot _)) (fun _ => .refl s)

theorem execFaultLineRise_modeStep {src : Fin 64} {s t : State} (h : execFaultLineRise src s = .next t) : ModeStep s t := by
  unfold execFaultLineRise at h
  split at h
  · cases h; exact .refl s
  split at h
  · exact execRidgepoleLossOfLock_modeStep h
  · cases h
    exact .ite (fun _ => .of_moves (faultCond_moves rfl (.refl _ s) _ _)) (fun _ => .of_moves (faultEvent_moves rfl (.refl _ s) _))

/-! ## The frame of the ICP commands -/

/-- What a command's frame can answer: the status of the gate, a completion after what its body did, or what its body left for
later (18 R402, R404). -/
theorem icp_inv {m : Nat} (hm : 2031616 ||| m = m) {c : CmdRef} {op : Nat} {body : State → IcpRes} {s t : State}
    (h : icp c op body s = .next t) :
    Moves m s t ∨ (∃ st pl u, body s = .done st pl u ∧ Moves m u t) ∨ body s = .later t := by
  unfold icp at h
  split at h
  · cases h; exact .inl (.refl _ _)
  split at h
  · cases h; exact .inl (icpFail_moves hm (.refl _ _) _ _ _ _)
  split at h
  next st pl u hb =>
    split at h
    · cases h; exact .inl (icpFail_moves hm (.refl _ _) _ _ _ _)
    split at h
    · cases h; exact .inr (.inl ⟨st, pl, u, hb, complete_moves (mask_sub hm rfl) (.refl _ _) _ _ _ _⟩)
    split at h
    · cases h; exact .inl (icpFail_moves hm (.refl _ _) _ _ _ _)
    · cases h; exact .inr (.inl ⟨st, pl, u, hb, complete_moves (mask_sub hm rfl) (.refl _ _) _ _ _ _⟩)
  next u hb => cases h; exact .inr (.inr hb)

/-- ICP_FAULT_INJECT changes the mode only by the reset an injected RIDGEPOLE_LOL ends in (21 R444). -/
theorem execIcpFaultInject_modeStep {c : CmdRef} {a : InjectArgs} {s t : State} (h : execIcpFaultInject c a s = .next t) :
    ModeStep s t := by
  rcases icp_inv (m := allButWord) rfl h with hfail | ⟨st, pl, u, hbody, hdone⟩ | hbody
  · exact .of_moves hfail
  · have hu : Moves allButWord s u := by
      split at hbody
      · cases hbody; exact .refl _ _
      split at hbody
      · cases hbody; exact .refl _ _
      split at hbody
      · cases hbody; exact injectEnd_moves rfl (.refl _ _) _
      split at hbody
      · cases hbody
      · cases hbody; exact injectArm_moves rfl (.refl _ _) _ _
    exact (ModeStep.of_moves hu).trans_kept (.of_moves hdone)
  · have ht : ∃ u, t = reset5 u := by
      repeat' split at hbody
      all_goals cases hbody
      exact ⟨_, rfl⟩
    obtain ⟨u, rfl⟩ := ht
    exact .reset (reset5_inBoot u)

/-! ## Transitions -/

/-- A transition writes the mode, the one before and the cause, and restarts SYS_MODE_SECS; what follows leaves them (02 R25,
20 R438). -/
theorem enterMode_sysWord (m : Mode) (cause : Nat) (s : State) :
    sysWord (enterMode m cause s).sys = (m, s.sys.mode, cause, 0) := by
  have hwritten : ∃ r : State, sysWord r.sys = (m, s.sys.mode, cause, 0) ∧ Moves allButWord r (enterMode m cause s) := by
    refine ⟨{ s with
      sys := { s.sys with mode := m, prev := s.sys.mode, cause := cause, secs := 0, degradePending := false,
                          quiesceOwnLow := s.sys.quiesceOwnLow && (m == .quiesce || m == .recovery) },
      regs := { s.regs with reports := if modeNormal m && !modeNormal s.sys.mode then [] else s.regs.reports } }, rfl, ?_⟩
    unfold enterMode
    refine .ite (.set_foot ?_ rfl) ?_ <;>
    · refine leaseMode_moves rfl (moves_guarded (dropLeases_moves rfl) (moves_guarded (enterRecovery_moves rfl) ?_))
      refine raise_moves rfl (cairnEvent_moves rfl (trail_moves rfl (stickyFirst_moves rfl (sticky_moves rfl ?_ _ _) _ _ _ _) _ _)) _
      exact permitClose_moves rfl (.refl _ _)
  obtain ⟨r, hr, hmoves⟩ := hwritten
  exact (hmoves.word rfl).trans hr

/-- A transition along a row of the table. -/
theorem ModeStep.enterMode {m : Mode} {cause : Nat} {s : State} (h : (s.sys.mode, m, cause) ∈ modeTable) :
    ModeStep s (enterMode m cause s) := by
  have hword := enterMode_sysWord m cause s
  simp only [sysWord, Prod.mk.injEq] at hword
  obtain ⟨hmode, hprev, hcause, _⟩ := hword
  exact .inr (.inr ⟨hprev, by rw [hmode, hcause]; exact h⟩)

/-! ## The end of BOOT (02 R39-R44) -/

theorem bootRecovery_modeStep {cause : Nat} {s : State} (hboot : s.sys.mode = .boot) (hc : cause ∈ [0x13, 0x14, 0x17]) :
    ModeStep s (bootRecovery cause s) := by
  refine ModeStep.enterMode (s := { s with aon := { s.aon with bank := 3, bootStep := 9 } }) ?_
  rw [hboot]
  revert cause; decide

theorem startImage_modeStep {s : State} (hboot : s.sys.mode = .boot) : ModeStep s (startImage s) := by
  unfold startImage
  refine .ite (fun _ => bootRecovery_modeStep hboot (by decide)) fun _ => ?_
  cases chooseBank s with
  | none =>
    have hfault : ModeKept s (faultEvent 46 s) := .of_moves (faultEvent_moves rfl (.refl _ _) _)
    exact hfault.trans_step (bootRecovery_modeStep (hfault.1.trans hboot) (by decide))
  | some b => exact .refl s

theorem execTrailheadStart_modeStep {n : Fin 4} {s t : State} (h : execTrailheadStart n s = .next t) : ModeStep s t := by
  have himage {u : State} (hu : ModeKept s u) (hboot : s.sys.mode = .boot) : ModeStep s (startImage u) :=
    hu.trans_step (startImage_modeStep (hu.1.trans hboot))
  have hrecovery {u : State} (hu : ModeKept s u) (hboot : s.sys.mode = .boot) : ModeStep s (bootRecovery 0x14 u) :=
    hu.trans_step (bootRecovery_modeStep (hu.1.trans hboot) (by decide))
  cases h
  refine .ite (fun _ => .refl s) fun hstart => ?_
  have hboot : s.sys.mode = .boot := by
    by_contra hne; simp [hne] at hstart
  refine .ite (fun _ => himage (.of_moves ?_) hboot) fun _ =>
    .ite (fun _ => hrecovery (.of_moves (faultEvent_moves rfl ?_ _)) hboot) fun _ =>
      himage (.of_moves (startKeys_moves rfl (rootKeys_moves rfl ?_))) hboot
  · exact .ite (startKeys_moves rfl (.refl _ s)) (.refl _ s)
  all_goals exact .set_aon (.refl _ s) rfl (.same rfl)

/-- The mode and cause that end BOOT are a row of the table (02 R25). -/
theorem bootEnd_mem (s : State) : (Mode.boot, bootEnd s) ∈ modeTable := by
  unfold bootEnd
  repeat' split
  all_goals decide

theorem execFirmwareStart_modeStep {want : BitVec 10} {s t : State} (h : execFirmwareStart want s = .next t) : ModeStep s t := by
  have hend {u : State} (hu : Moves allButWord s u) (hboot : s.sys.mode = .boot) :
      ModeStep s (raise 241 (lanternAll (enterMode (bootEnd u).1 (bootEnd u).2 u))) := by
    have hu' : ModeKept s u := .of_moves hu
    refine (hu'.trans_step (.enterMode ?_)).trans_kept (.of_moves (raise_moves rfl (lanternAll_moves rfl (.refl _ _)) _))
    rw [hu'.1, hboot]
    exact bootEnd_mem u
  cases h
  refine .ite (fun _ => .refl s) fun hstart => hend ?_ ?_
  · refine .elim _ ?_ fun b => cfgLoad_moves rfl ?_ b
    all_goals
      refine moves_guarded (loadStore_moves rfl) ?_
      exact .set_aon_guy_vault_sys (.refl _ s) rfl (.same rfl) (.same rfl rfl) (.word rfl rfl rfl rfl)
  · by_contra hne; simp [hne] at hstart

/-! ## The steering boundary (02 R27) -/

theorem leaseOrRef_mem {s : State} {x : Mode × Nat} (h : leaseOrRef s = some x) : (s.sys.mode, x) ∈ modeTable := by
  unfold leaseOrRef at h
  cases hm : s.sys.mode <;> simp only [hm] at h <;> repeat' split at h
  all_goals cases h
  all_goals decide

/-- A mode other than RECOVERY is in the list the table's last rows are made from: a fatal fault leads from any of them. -/
theorem fatal_mem {m : Mode} (h : m ≠ .recovery) : (m, Mode.recovery, 0x24) ∈ modeTable := by
  revert h; cases m <;> decide

theorem quiesce_mem {m : Mode} (h : contending m = true) : (m, Mode.quiesce, 0x30) ∈ modeTable := by
  revert h; cases m <;> decide

/-- An evaluation takes a row of the table, by the priorities of 02 R27. -/
theorem modeNext_mem {s : State} {x : Mode × Nat} (h : modeNext s = some x) : (s.sys.mode, x) ∈ modeTable := by
  unfold modeNext at h
  split at h
  · cases h
  next hrec =>
    have hne : s.sys.mode ≠ .recovery := by simpa using hrec
    split at h
    · cases h; exact fatal_mem hne
    split at h
    next hdeg =>
      cases h
      simp only [Bool.and_eq_true, Bool.or_eq_true, beq_iff_eq] at hdeg
      rcases hdeg.2 with hm | hm <;> rw [hm] <;> decide
    split at h
    next hq => cases h; exact quiesce_mem (Bool.and_eq_true_iff.mp hq).1
    split at h
    next hres => cases h; rw [eq_of_beq (Bool.and_eq_true_iff.mp hres).1]; decide
    split at h
    next hdone => cases h; rw [eq_of_beq (Bool.and_eq_true_iff.mp hdone).1]; decide
    exact leaseOrRef_mem h

/-- What a transition brings with it leaves the word it wrote. -/
theorem modeEffects_moves_enterMode (m : Mode) (cause : Nat) (s : State) :
    Moves allButWord (enterMode m cause s) (modeEffects m cause s) := by
  unfold modeEffects
  refine moves_guarded (autoHandover_moves rfl) (moves_guarded (quiesceEnd_moves rfl)
    (moves_guarded (fun h => holdEnter_moves rfl h _) (reselect_moves rfl ?_)))
  have hexit := moves_guarded (p := (s.sys.mode == .holdover) = true) (holdExit_moves rfl) (.refl allButWord (enterMode m cause s))
  exact .ite (signStop_moves rfl hexit) (peerFollow_moves rfl hexit)

theorem modeEval_modeStep (s : State) : ModeStep s (modeEval s) := by
  have hcount : ModeKept s (lockCount s) := .of_moves (lockCount_moves rfl (.refl _ _))
  unfold modeEval
  refine .ite (fun _ => .inl hcount) fun _ => ?_
  cases hnext : modeNext (lockCount s) with
  | none => exact .inl hcount
  | some x =>
    have henter := (ModeStep.enterMode (modeNext_mem hnext)).trans_kept (.of_moves (modeEffects_moves_enterMode x.1 x.2 _))
    exact hcount.trans_step henter

/-- Of a boundary only the mode evaluation writes the mode. -/
theorem boundary_moves_modeEval (s : State) : Moves allButWord (modeEval (advance s)) (boundary s) := by
  unfold boundary
  refine slotSettle_moves rfl (cairnBoundary_moves rfl (conflictCheck_moves rfl (lanternAll_moves rfl (outFollow_moves rfl
    (fenceLease_moves rfl (readySet_moves rfl ?_ _))))))
  refine burstWatch_moves rfl (guyWatch_moves rfl (guyLines_moves rfl (holdCompare_moves rfl (swbPeriod_moves rfl
    (errbCompose_moves rfl (cairnDue_moves rfl (mileTai_moves rfl (boundarySteps_moves rfl (holdPeriod_moves rfl (.refl _ _) _))) _))))))

theorem execSteeringBoundary_modeStep {s t : State} (h : execSteeringBoundary s = .next t) : ModeStep s t := by
  cases h
  refine .ite (fun _ => ?_) fun _ => .refl s
  have hadvance : ModeKept s (advance s) := .of_moves (advance_moves rfl (.refl _ s))
  exact (hadvance.trans_step (modeEval_modeStep _)).trans_kept (.of_moves (boundary_moves_modeEval s))

/-! ## The statement -/

/-- Every step keeps the mode, resets into BOOT, or goes along the table. -/
theorem exec_modeStep {c : Instr} {s t : State} (h : exec c s = .next t) : ModeStep s t := by
  by_cases hc : changesMode c = false
  · exact .inl (exec_modeKept h hc)
  cases c with
  | powerOnReset provN unitB => cases h; exact .reset (powerOn_inBoot provN unitB s)
  | resetNAssert provN unitB => cases h; exact .reset (resetFull_inBoot provN unitB s (by decide) (by decide))
  | commandedReset => cases h; exact .ite (fun _ => .reset (resetFull_inBoot _ _ _ (by decide) (by decide))) fun _ => .refl s
  | watchdogExpiry => cases h; exact .ite (fun _ => .reset (resetFull_inBoot _ _ _ (by decide) (by decide))) fun _ => .refl s
  | ridgepoleLossOfLock => exact execRidgepoleLossOfLock_modeStep h
  | faultLineRise src => exact execFaultLineRise_modeStep h
  | icpFaultInject c a => exact execIcpFaultInject_modeStep h
  | trailheadStart n => exact execTrailheadStart_modeStep h
  | firmwareStart want => exact execFirmwareStart_modeStep h
  | steeringBoundary => exact execSteeringBoundary_modeStep h
  | _ => exact absurd rfl hc

/-- Settles O57: the rows outside `changesMode` leave the mode's word, and each of the others writes it by a reset, or by
`enterMode` with a row of the table. -/
theorem modeTransitions : Obligations.ModeTransitions :=
  fun _ _ _ h => ⟨exec_modeKept h, exec_modeStep h⟩

end Sys2Proof.Proofs
end

