-- ==== Sys2Proof/Proofs/ResetAndStart.lean ====
section
/-!
SUPPORT. The reset state, what each reset source leaves (02 R37, R38), and the start-up sequence (02 R39-R44), with the
statements about them.
-/
namespace Sys2Proof.Proofs
open Sys2Proof Sys2Proof.Machine Sys2Proof.Claims Sys2Proof.Laws

/-! ## Resets -/

/-- Settles O2: the fields of the reset state. -/
theorem resetState : Obligations.ResetState := by
  refine ⟨rfl, rfl, rfl, rfl, rfl, rfl, rfl, rfl, rfl, rfl, rfl, ?roles, rfl, ?enables, rfl⟩
  case roles => decide
  case enables => intro i; simp [State.reset]

/-- A reset with code 0x02, 0x03 or 0x04 writes its cause and the straps, and keeps what 02 R38 names. -/
theorem resetFull_retains (code : Nat) (n b : Bool) (s : State) :
    (resetFull code n b s).aon.cause = code ∧ (resetFull code n b s).aon.provN = n ∧ (resetFull code n b s).aon.unitB = b ∧
      RetainsR38 s (resetFull code n b s) := by
  simp [resetFull, trailReset2, resetBase, aonKeep, RetainsR38]

/-- Power-on advances the count of power-ons (02 R37). -/
theorem powerOn_aon (n b : Bool) (s : State) :
    (powerOn n b s).aon = { provN := n, unitB := b, pcycle := min (s.aon.pcycle + 1) 0xFFFFFFFF } := by
  simp [powerOn, satU]

/-- A watchdog reset after the start was confirmed counts against no bank (02 R43). -/
theorem failedStart_confirmed {s : State} (h : s.vault.confirmed = true) : failedStart s = s := by
  simp [failedStart, h]

theorem exec_commandedReset_armed {s : State} (h : s.sys.resetArmed = true) :
    exec .commandedReset s = .next (resetFull 3 s.aon.provN s.aon.unitB s) := by
  change execCommandedReset s = _
  rw [execCommandedReset, if_pos h]

theorem exec_watchdogExpiry_confirmed {s : State} (hruns : imageRuns s = true) (hconf : s.vault.confirmed = true) :
    exec .watchdogExpiry s = .next (resetFull 4 s.aon.provN s.aon.unitB s) := by
  change execWatchdogExpiry s = _
  rw [execWatchdogExpiry, if_pos hruns, failedStart_confirmed hconf]

/-- Settles O3: `resetFull` under each of its codes, and `powerOn`. -/
theorem resetSources : Obligations.ResetSources := by
  intro s n b
  refine ⟨⟨_, rfl, (powerOn_inBoot n b s).1, ?_⟩, ⟨_, rfl, ?_⟩, fun harmed => ⟨resetFull 3 s.aon.provN s.aon.unitB s, ?_⟩,
    fun hruns hconf => ⟨resetFull 4 s.aon.provN s.aon.unitB s, ?_⟩⟩
  · rw [powerOn_aon]; exact ⟨rfl, rfl, rfl, rfl⟩
  · exact resetFull_retains 2 n b s
  · obtain ⟨hcause, _, _, hkeeps⟩ := resetFull_retains 3 s.aon.provN s.aon.unitB s
    exact ⟨exec_commandedReset_armed harmed, hcause, hkeeps⟩
  · obtain ⟨hcause, _, _, hkeeps⟩ := resetFull_retains 4 s.aon.provN s.aon.unitB s
    exact ⟨exec_watchdogExpiry_confirmed hruns hconf, hcause, hkeeps⟩

/-! ## Start-up -/

/-- The ranges of 1 % about the five allowed frequencies are apart, so a measurement within one identifies it (02 R40). -/
theorem oscOf_eq_some {khz f : Nat} (hf : f ∈ [10, 20, 25, 40, 50]) (hlo : 990 * f ≤ khz) (hhi : khz ≤ 1010 * f) :
    oscOf khz = some f := by
  have hiff : ∀ g ∈ [10, 20, 25, 40, 50], (decide (990 * g ≤ khz) && decide (khz ≤ 1010 * g)) = (g == f) := by
    intro g hg
    simp only [List.mem_cons, List.not_mem_nil, or_false] at hf hg
    rw [Bool.eq_iff_iff]
    simp only [Bool.and_eq_true, decide_eq_true_eq, beq_iff_eq]
    omega
  rw [oscOf, List.find?_congr hiff]
  clear hiff hlo hhi
  revert f; decide

theorem exec_oscMainCheck_found {khz f : Nat} {s : State} (hlock : s.aon.locked = false) (hf : oscOf khz = some f) :
    exec (.oscMainCheck khz) s = .next { s with aon := { s.aon with oscPresent := true, oscMHz := f, bootStep := 2 } } := by
  change execOscMainCheck khz s = _
  simp only [execOscMainCheck, hlock, hf, Bool.false_eq_true, if_false]

/-- A condition line that already has a level is left (21 R443). -/
theorem faultCond_same {src : Fin 64} {b : Bool} {s : State} (h : s.fault.real.getLsbD src.1 = b) : faultCond src b s = s := by
  rw [faultCond, if_pos h]

theorem exec_ridgepoleLock {s : State} (hlock : s.aon.locked = false) (hosc : s.aon.oscPresent = true)
    (hline : s.fault.real.getLsbD 0 = false) :
    exec .ridgepoleLock s = .next { s with
      aon := { s.aon with locked := true, pwrOn := s.aon.pwrOn ||| 2#10, bootStep := 3 }
      host := { s.host with ready := true } } := by
  change execRidgepoleLock s = _
  simp only [execRidgepoleLock, hlock, hosc, Bool.not_true, Bool.or_false, Bool.false_eq_true, if_false]
  exact congrArg Host.Outcome.next (faultCond_same (src := 0) hline)

/-- Trailhead starts once Ridgepole is locked, at step 4 of BOOT, while PD_MGMT runs (02 R39). -/
def TrailheadReady (s : State) : Prop :=
  s.aon.locked = true ∧ s.aon.bootStep = 3 ∧ s.sys.mode = .boot ∧ powered s 2 = true

/-- Without helper data there is no root secret to regenerate: a bank is selected (02 R41). -/
theorem exec_trailheadStart_unenrolled (n : Fin 4) {s : State} (h : TrailheadReady s) (henr : s.vault.enrolled = false) :
    exec (.trailheadStart n) s = .next (startImage (if powered s 9 then startKeys s else s)) := by
  obtain ⟨hlock, hstep, hmode, hpow⟩ := h
  change execTrailheadStart n s = _
  simp [execTrailheadStart, hlock, hstep, hmode, hpow, henr]

/-- Three failed regenerations end in RECOVERY with PUF_FAIL (02 R41). -/
theorem exec_trailheadStart_failed {s : State} (h : TrailheadReady s) (henr : s.vault.enrolled = true) :
    exec (.trailheadStart 3) s =
      .next (bootRecovery 0x14 (faultEvent 45 { s with aon := { s.aon with pufTries := 3 } })) := by
  obtain ⟨hlock, hstep, hmode, hpow⟩ := h
  change execTrailheadStart 3 s = _
  simp [execTrailheadStart, hlock, hstep, hmode, hpow, henr]

/-- Without a root secret no configuration bank is loaded, and BOOT ends in PROVISION unless a fault is fatal (02 R25, R41). -/
theorem bootEnd_unrooted {s : State} (hroot : s.vault.rootOk = false) (hfatal : s.sys.fatalPending = false) :
    bootEnd s = (.provision, if s.aon.provN then 0x11 else 0x10) := by
  cases hprov : s.aon.provN <;> simp [bootEnd, cfgBank, hroot, hfatal, hprov]

/-- FIRMWARE_START without a root secret loads nothing. -/
theorem exec_firmwareStart_unrooted (want : BitVec 10) {s s1 : State} (hruns : imageRuns s = true) (hstep : s.aon.bootStep = 7)
    (hmode : s.sys.mode = .boot) (hroot : s.vault.rootOk = false)
    (hs1 : s1 = { s with
      aon := { s.aon with pwrOn := bootDomains want s, bootStep := 9, bootTries := 0 }
      vault := { s.vault with confirmed := true }
      guy := { s.guy with savedAt := s.aon.ophrs }
      sys := { s.sys with mgmtFwRunning := true, kicked := true } }) :
    exec (.firmwareStart want) s = .next (raise 241 (lanternAll (enterMode (bootEnd s1).1 (bootEnd s1).2 s1))) := by
  subst hs1
  change execFirmwareStart want s = _
  simp [execFirmwareStart, hruns, hstep, hmode, hroot, cfgBank]

/-- Settles O4: one lemma for each step of the sequence. -/
theorem startUp : Obligations.StartUp := by
  intro s
  refine ⟨fun khz f hlock hf hlo hhi => exec_oscMainCheck_found hlock (oscOf_eq_some hf hlo hhi),
    fun hlock hosc hline => exec_ridgepoleLock hlock hosc hline,
    fun hlock hstep hmode hpow henr n => exec_trailheadStart_unenrolled n ⟨hlock, hstep, hmode, hpow⟩ henr,
    fun hlock hstep hmode hpow henr => exec_trailheadStart_failed ⟨hlock, hstep, hmode, hpow⟩ henr, ?firmware⟩
  intro hruns hstep hmode hroot hfatal want s1 hs1
  have hend : bootEnd s1 = (.provision, if s.aon.provN then 0x11 else 0x10) := by
    subst hs1; exact bootEnd_unrooted hroot hfatal
  exact ⟨hend, by rw [exec_firmwareStart_unrooted want hruns hstep hmode hroot hs1, hend]⟩

end Sys2Proof.Proofs
end

