-- ==== Sys2Proof/Proofs/ModeCommands.lean ====
section
/-!
SUPPORT. The mode and power commands (02 R46-R48): what each completes with once it is taken, and the statement about them.
-/
namespace Sys2Proof.Proofs
open Sys2Proof Sys2Proof.Machine Sys2Proof.Claims Sys2Proof.Laws

variable {c : CmdRef} {s : State}

theorem exec_icpModeGet (h : Ready c 0x110 8 s) : ∃ r, r.length = 5 ∧ exec (.icpModeGet c) s =
    ok c 0x110 (le 1 (modeCode s.sys.mode) ++ le 1 (modeCode s.sys.prev) ++ le 1 s.sys.cause ++ r) s := by
  obtain ⟨htaken, hfits⟩ := h
  refine ⟨le 1 (bit (leaseHeld s) + 2 * bit (pertArmed s) + 4 * bit s.pert.live + 8 * bit s.aon.provN) ++ le 4 s.sys.secs, by simp, ?_⟩
  change execIcpModeGet c s = _
  simp only [execIcpModeGet, ok, ← List.append_assoc]
  exact icpGet_ok htaken (by simpa using hfits)

/-- The effect of ICP_PROVISION_DONE: the request for the next evaluation, and the configuration bank in flash (23 R481). -/
theorem exec_icpProvisionDone (h : Ready c 0x111 0 s) (hprov : s.aon.provN = true) (hcal : ∀ p : Fin 4, calReady s p = true)
    (hkeys : ∃ i : Fin 8, slotKeys s i.1 ≠ []) :
    ∃ t, exec (.icpProvisionDone c) s = ok c 0x111 [] t ∧ t.sys = { s.sys with provDone := true } ∧ t.aon = s.aon := by
  obtain ⟨htaken, hfits⟩ := h
  have hcheck : ((List.finRange 4).all (calReady s) && (List.finRange 8).any fun i => !(slotKeys s i.1).isEmpty) = true := by
    simpa [hcal] using hkeys
  change ∃ t, execIcpProvisionDone c s = _ ∧ _
  simp only [execIcpProvisionDone, ok]
  refine ⟨_, icpDo_is htaken (firstFail_ok ?checks) hfits rfl rfl, ?sys, ?aon⟩
  case checks => simp [hprov, hcheck]
  case sys => exact (cfgUpdate_moves (m := 32768) rfl (.refl _ _) _).sys rfl
  case aon => exact (cfgUpdate_moves (m := 32768) rfl (.refl _ _) _).aon rfl

/-- Without Footbridge there is no lease to hand over: ICP_QUIESCE goes to its step 3 (02 R46). -/
theorem exec_icpQuiesce_unleased (h : Taken c 0x112 s) (hidle : s.sys.quiesce = none) (hen : s.foot.en = false) (force g : Bool) :
    exec (.icpQuiesce c force g false) s = .next { s with sys := { s.sys with
      quiesce := some { cmd := c, force := force, gate := g, step := 3, startUs := s.time.odo }
      admissionStopped := true } } := by
  change execIcpQuiesce c force g false s = _
  simp only [execIcpQuiesce]
  exact icp_later h (by simp [hidle, hen, firstFail, stOk, quiesceAdmit])

theorem exec_icpResume (h : Ready c 0x113 0 s) :
    exec (.icpResume c) s = ok c 0x113 [] { s with sys := { s.sys with resume := true } } := by
  change execIcpResume c s = _
  simp only [execIcpResume, ok]
  exact icpDo_is h.1 rfl h.2 rfl rfl

theorem exec_icpSysReset (h : Ready c 0x115 0 s) :
    exec (.icpSysReset c 0xB0070001#32) s = ok c 0x115 [] { s with sys := { s.sys with resetArmed := true } } := by
  change execIcpSysReset c _ s = _
  simp only [execIcpSysReset, ok]
  exact icpDo_is h.1 rfl h.2 rfl rfl

theorem exec_icpModeConfig {phase : Word} {dwell : BitVec 16} (h : Ready c 0x116 0 s) (hp1 : 10 ≤ phase.toNat)
    (hp2 : phase.toNat ≤ 10000) (hd1 : 1 ≤ dwell.toNat) (hd2 : dwell.toNat ≤ 600) :
    exec (.icpModeConfig c phase dwell false) s =
      ok c 0x116 [] { s with sys := { s.sys with lockPhase := phase.toNat, lockDwell := dwell.toNat } } := by
  have hphase : phase ≠ 0#32 := by bv_omega
  have hdwell : dwell ≠ 0#16 := by bv_omega
  change execIcpModeConfig c phase dwell false s = _
  simp only [execIcpModeConfig, ok]
  refine icpDo_is h.1 (firstFail_ok ?_) h.2 rfl rfl
  simp [hphase, hdwell, outside_false hp1 hp2, outside_false hd1 hd2]

/-! ## ICP_POWER_GATE -/

@[simp] theorem pwrStat_length (s : State) : (pwrStat s).length = 4 := le_length _ _

section
variable {mask : BitVec 10}

theorem exec_icpPowerGate_off (h : Ready c 0x114 4 s) (hcheck : firstFail (gateChecks mask false false s) = stOk) :
    exec (.icpPowerGate c mask false false) s = ok c 0x114 (pwrStat (gateMask mask s)) (gateMask mask s) := by
  change execIcpPowerGate c mask false false s = _
  simp only [execIcpPowerGate, ok]
  exact icp_ok h.1 (by simp [hcheck]) (by simpa using h.2)

theorem exec_icpPowerGate_running (h : Ready c 0x114 4 s) (hcheck : firstFail (gateChecks mask true false s) = stOk)
    (hleft : mask &&& ~~~s.aon.pwrOn = 0#10) : exec (.icpPowerGate c mask true false) s = ok c 0x114 (pwrStat s) s := by
  change execIcpPowerGate c mask true false s = _
  simp only [execIcpPowerGate, ok]
  exact icp_ok h.1 (by simp [hcheck, hleft]) (by simpa using h.2)

theorem exec_icpPowerGate_starts (h : Ready c 0x114 4 s) (hcheck : firstFail (gateChecks mask true false s) = stOk)
    (hleft : mask &&& ~~~s.aon.pwrOn ≠ 0#10) : exec (.icpPowerGate c mask true false) s = .next { s with
      aon := { s.aon with pwrBusy := true, pwrReq := some { cmd := some c, left := mask &&& ~~~s.aon.pwrOn } } } := by
  change execIcpPowerGate c mask true false s = _
  simp only [execIcpPowerGate]
  exact icp_later h.1 (by simp [hcheck, hleft])

end

/-- Settles O5: one lemma for each command. -/
theorem modeCommands : Obligations.ModeCommands := by
  intro c s
  refine ⟨exec_icpModeGet, exec_icpProvisionDone, exec_icpQuiesce_unleased, exec_icpResume, exec_icpSysReset,
    fun _ _ => exec_icpModeConfig, fun mask on h hcheck => ⟨?off, ?running, ?starts⟩⟩
  case off => rintro rfl; exact ⟨_, pwrStat_length _, exec_icpPowerGate_off h hcheck⟩
  case running => rintro rfl hleft; exact ⟨_, pwrStat_length _, exec_icpPowerGate_running h hcheck hleft⟩
  case starts => rintro rfl hleft; exact exec_icpPowerGate_starts h hcheck hleft

end Sys2Proof.Proofs
end

