-- ==== Sys2Proof/Proofs/PowerAndFaultEvents.lean ====
section
/-!
SUPPORT. Events of the power sequencer (02 R34-R36), of a quiesce (02 R46), of fault lines and injections (21), of the die's
temperature (23 R487) and of Trail flushes (21 R455), with the statement about them.
-/
namespace Sys2Proof.Proofs
open Sys2Proof Sys2Proof.Machine Sys2Proof.Claims Sys2Proof.Laws

variable {s : State}

/-! ## The power sequencer -/

section
variable {q : PowerReq} {d : Fin 10}

/-- A domain of the request comes up while others are left (02 R34). -/
theorem exec_domainPowerUpDone_more (hreq : s.aon.pwrReq = some q) (hd : q.left.getLsbD d.1 = true)
    (hrun : requires d.1 &&& ~~~s.aon.pwrOn = 0#10) (hmore : putBit q.left d.1 false ≠ 0#10) :
    exec (.domainPowerUpDone d) s = .next (domainBack d { s with
      aon := { s.aon with pwrOn := putBit s.aon.pwrOn d.1 true, pwrReq := some { q with left := putBit q.left d.1 false } } }) := by
  change execDomainPowerUpDone d s = _
  simp [execDomainPowerUpDone, hreq, hd, hrun, hmore]

/-- The last domain of the request comes up: the request ends, and its command completes (02 R35). -/
theorem exec_domainPowerUpDone_last {c : CmdRef} (hreq : s.aon.pwrReq = some q) (hd : q.left.getLsbD d.1 = true)
    (hrun : requires d.1 &&& ~~~s.aon.pwrOn = 0#10) (hlast : putBit q.left d.1 false = 0#10) (hc : q.cmd = some c) :
    ∃ t p, exec (.domainPowerUpDone d) s = ok c 0x114 p t ∧ t.aon.pwrBusy = false ∧ t.aon.pwrReq = none ∧ p.length = 4 := by
  refine ⟨pwrEnd ?t, pwrStat (pwrEnd ?t), ?_, rfl, rfl, pwrStat_length _⟩
  case t => exact domainBack d { s with
      aon := { s.aon with pwrOn := putBit s.aon.pwrOn d.1 true, pwrReq := some { q with left := putBit q.left d.1 false } } }
  change execDomainPowerUpDone d s = _
  simp [execDomainPowerUpDone, hreq, hd, hrun, hlast, hc, ok]

theorem exec_powerGoodTimeout_requested {c : CmdRef} (hreq : s.aon.pwrReq = some q) (hd : q.left.getLsbD d.1 = true)
    (hc : q.cmd = some c) : exec (.powerGoodTimeout d) s = .next (complete c 0x114 stBusy [] (pwrEnd (pgFail d s))) := by
  change execPowerGoodTimeout d s = _
  simp [execPowerGoodTimeout, hreq, hd, hc]

theorem exec_powerGoodTimeout_startUp (hreq : s.aon.pwrReq = none) (hwait : bootWaits s d.1 = true)
    (hfirst : s.aon.pgFailed.getLsbD d.1 = false) : exec (.powerGoodTimeout d) s = .next (bootFail d s) := by
  change execPowerGoodTimeout d s = _
  simp only [execPowerGoodTimeout, hreq, hwait, hfirst, Bool.not_false, Bool.and_self, if_true]

end

/-! ## The drain of a quiesce -/

@[simp] theorem setOe_oe (b : Bool) (s : State) : (setOe b s).mile.oe = b := by
  unfold setOe
  split
  · assumption
  · simp

/-- The final record, the saved models and the flush leave OE_TIMING low (02 R46 steps 4 and 5). -/
theorem quiesceFinish_oe (u : State) : (flushStart (guySave (cairnRecord false (ownLevel (setOe false u))))).mile.oe = false := by
  have hmoves : Moves 1089592 (setOe false u) (flushStart (guySave (cairnRecord false (ownLevel (setOe false u))))) :=
    flushStart_moves rfl (guySave_moves rfl (cairnRecord_moves rfl (ownLevel_moves rfl (.refl _ _)) _))
  rw [hmoves.mile rfl, setOe_oe]

/-- The pipelines are empty at a moment at which OE_TIMING may fall: step 3 ends with OE_TIMING low (02 R46). -/
theorem exec_quiesceDrained {q : Quiesce} {off : BitVec 16} {u : State} (hu : u = atTick off s) (hq : s.sys.quiesce = some q)
    (hstep : q.step = 3) (hdrained : drained u = true) (hoe : s.mile.oe = true → oeMoment u u.time.odo = true) :
    ∃ t, exec (.quiesceDrained off) s = .next t ∧ t.mile.oe = false ∧ t.sys.quiesce = some { q with
      step := 5, done := true, drainUs := (u.time.odo - q.startUs) * 128 / 100000 } := by
  have hsys : u.sys.quiesce = some q := by rw [hu, atTick_sys, hq]
  have hmile : u.mile = s.mile := by rw [hu, atTick_mile]
  have hwait : (q.step != 3 || !drained u || (u.mile.oe && !oeMoment u u.time.odo)) = false := by
    rw [hmile]
    cases h : s.mile.oe <;> simp [hstep, hdrained, hoe, h]
  change ∃ t, execQuiesceDrained off s = _ ∧ _
  simp only [execQuiesceDrained, ← hu, hsys, hwait, Bool.false_eq_true, if_false]
  exact ⟨_, rfl, quiesceFinish_oe _, rfl⟩

/-! ## Loss of lock and fault lines -/

theorem exec_wdogWarn (hruns : imageRuns s = true) : exec .wdogWarn s = .next (faultEvent 62 (raise 240 s)) := by
  change execWdogWarn s = _
  rw [execWdogWarn, if_pos hruns]

theorem exec_ridgepoleLossOfLock (hlock : s.aon.locked = true) : ∃ t, exec .ridgepoleLossOfLock s = .next t ∧
    t.sys.mode = .boot ∧ t.sys.cause = 5 ∧ t.aon.locked = false ∧ t.aon.cause = 5 := by
  refine ⟨reset5 (faultCond 0 true s), ?_, ?_⟩
  · change execRidgepoleLossOfLock s = _
    rw [execRidgepoleLossOfLock, if_pos hlock]
  · simp [reset5, trailReset2, aonKeep]

theorem exec_faultLineRise {src : Fin 64} (h0 : src ≠ 0) (hres : faultReserved src.1 = false) : exec (.faultLineRise src) s =
    .next (if conditionLine src.1 then faultCond src true s else faultEvent src s) := by
  change execFaultLineRise src s = _
  simp only [execFaultLineRise, hres, h0, Bool.false_eq_true, if_false]

theorem exec_faultLineRise_reserved {src : Fin 64} (hres : faultReserved src.1 = true) :
    exec (.faultLineRise src) s = .next s := by
  change execFaultLineRise src s = _
  simp only [execFaultLineRise, hres, if_true]

/-! ## Injection -/

/-- An injection without an overlap ends when its duration has passed (21 R446). -/
theorem exec_injectionEnd {src : Fin 64} {ck : Nat} (hinj : s.fault.inj.getLsbD src.1 = true)
    (hovl : s.fault.ovl.getLsbD src.1 = false) (hdue : s.fault.injEnd[src] ≤ aonNow (atCk ck s)) :
    ∃ t, exec (.injectionEnd src ck) s = .next t ∧ t.fault = { s.fault with
      inj := putBit s.fault.inj src.1 false
      injEnd := s.fault.injEnd.set src.1 (aonNow (atCk ck s) + 16)
      ovl := putBit s.fault.ovl src.1 false
      resample := putBit s.fault.resample src.1 false
      handled := putBit s.fault.handled src.1 false } := by
  refine ⟨injectEnd src (atCk ck s), ?_, ?_⟩
  · have hinjDue : injDue src (atCk ck s) = true := decide_eq_true hdue
    change execInjectionEnd src ck s = _
    simp only [execInjectionEnd, hinjDue, if_true]
  · have hinj' : (atCk ck s).fault.inj.getLsbD src.1 = true := hinj
    simp only [injectEnd, hinj', if_true, lanternFast_fault]
    rw [← hovl]; rfl

/-- The state of an injection's source after its line was sampled (21 R447). -/
theorem exec_injectionResample {src : Fin 64} {ck : Nat} {u : State} (hres : s.fault.resample.getLsbD src.1 = true)
    (hdue : s.fault.injEnd[src] ≤ aonNow (atCk ck s))
    (hu : u = { atCk ck s with fault := { s.fault with
      resample := putBit s.fault.resample src.1 false, handled := putBit s.fault.handled src.1 false } }) :
    exec (.injectionResample src ck) s = .next (if s.fault.real.getLsbD src.1 && !s.fault.handled.getLsbD src.1 then
      lanternFast (faultReact src false true u) else u) := by
  have hinjDue : injDue src (atCk ck s) = true := decide_eq_true hdue
  have hres' : (atCk ck s).fault.resample.getLsbD src.1 = true := hres
  subst hu
  change execInjectionResample src ck s = _
  simp only [execInjectionResample, hres', hinjDue, Bool.and_self, if_true]
  rfl

/-! ## Temperature and Trail -/

/-- The warning already has the level of the sample (23 R487). -/
theorem tempWarn_same {w : Bool} (h : s.sys.warn = w) : tempWarn w s = s := by
  rw [tempWarn, if_pos h]

/-- Neither comparator's level changes with a sample that leaves both low. -/
theorem tempLevels_same (hwarn : s.sys.warn = false) (hcrit : s.fault.real.getLsbD 57 = false) :
    faultCond 57 false (tempWarn false s) = s := by
  rw [tempWarn_same hwarn]
  exact faultCond_same (src := 57) hcrit

/-- A sample below both limits that changes no condition (23 R487). -/
theorem exec_tempSample_cool {temp : Int} (hlock : s.aon.locked = true) (htemp : temp ≤ 9500) (hwarn : s.sys.warn = false)
    (hcrit : s.fault.real.getLsbD 57 = false) :
    ∃ t, exec (.tempSample (some temp)) s = .next t ∧ t.sys.temp = temp ∧ t.guy.dieTemp = temp ∧ t.guy.dieMiss = 0 ∧
      t.aon.ophrs = min (s.aon.ophrs + 1) 0xFFFFFFFF ∧ t.sys.warn = false := by
  have hwarm : (if s.sys.warn then decide (9500 < temp) else decide (10000 ≤ temp)) = false := by
    rw [hwarn]; exact decide_eq_false (by omega)
  have hcool : temp ≤ 11000 := by omega
  refine ⟨{ aonSecond s with
    sys := { (aonSecond s).sys with temp := temp }
    guy := { (aonSecond s).guy with dieTemp := temp, dieTempOk := true, dieMiss := 0 } }, ?_, rfl, rfl, rfl, rfl, hwarn⟩
  change execTempSample (some temp) s = _
  simp only [execTempSample, hlock, hwarm, Bool.not_true, Bool.false_eq_true, if_false, if_pos hcool]
  exact congrArg Host.Outcome.next (tempLevels_same hwarn hcrit)

theorem exec_trailFlushPeriodic_due (hlock : s.aon.locked = true) (hfw : s.sys.mgmtFwRunning = true) (hdue : flushDue s = true) :
    exec .trailFlushPeriodic s = .next { s with trail := { s.trail with flushing := true, flushAt := s.aon.ophrs } } := by
  change execTrailFlushPeriodic s = _
  simp only [execTrailFlushPeriodic, hlock, hfw, hdue, flushStart, Bool.true_or, Bool.and_self, if_true]

/-- A flush that its command waits for completes with the bytes it copied (21 R456). -/
theorem exec_trailFlushDone {c : CmdRef} (hflush : s.trail.flushing = true) (hc : s.trail.flushCmd = some c) :
    ∃ t, exec (.trailFlushDone none) s =
        ok c 0xB04 (le 4 (trailCopy (s.trail.first.length + s.trail.circ.length) s.trail).2) t ∧
      t.trail = (trailCopy (s.trail.first.length + s.trail.circ.length) s.trail).1 := by
  refine ⟨raise 12 { s with trail := (trailCopy (s.trail.first.length + s.trail.circ.length) s.trail).1 }, ?_, by simp⟩
  change execTrailFlushDone none s = _
  simp [execTrailFlushDone, hflush, hc, ok]

/-- Settles O6: one lemma for each event. -/
theorem powerAndFaultEvents : Obligations.PowerAndFaultEvents := by
  intro s
  refine ⟨fun q d hreq hd hrun => ⟨exec_domainPowerUpDone_more hreq hd hrun, fun hlast c => exec_domainPowerUpDone_last hreq hd hrun hlast⟩,
    fun q d c => exec_powerGoodTimeout_requested, fun d => exec_powerGoodTimeout_startUp, fun q off u => exec_quiesceDrained,
    exec_ridgepoleLossOfLock, exec_wdogWarn, fun src => exec_faultLineRise, fun src => exec_faultLineRise_reserved,
    fun src ck => exec_injectionEnd, fun src ck u hres hdue hu => ⟨fun hreal => ?low, fun hreal hhand => ?high⟩,
    fun hlock temp htemp => exec_tempSample_cool hlock htemp, exec_trailFlushPeriodic_due, ?flush⟩
  case low => rw [exec_injectionResample hres hdue hu, hreal]; rfl
  case high => rw [exec_injectionResample hres hdue hu, hreal, hhand]; rfl
  case flush => rintro c r hflush hc rfl; exact exec_trailFlushDone hflush hc

end Sys2Proof.Proofs
end

