-- ==== Sys2Proof/Proofs/TimeRegisters.lean ====
section
/-!
SUPPORT. The commits of INCR and SLEW (03 R51, R53), the latched reads of the counter and the Odometer (03 R55) and the
snapshot (03 R56), with the statement about them.
-/
namespace Sys2Proof.Proofs
open Sys2Proof Sys2Proof.Machine Sys2Proof.Claims Sys2Proof.Laws

variable {s : State}

/-! ## The clamps -/

theorem clampIncr_within {v : Nat} (hlo : 360107826204545 ≤ v) (hhi : v ≤ 360468114174734) : clampIncr v = v := by
  simp [clampIncr, hlo, hhi]

/-- A value outside the clamp is cut to the bound it passed (03 R51). -/
theorem clampIncr_outside {v k : Nat}
    (h : (v < 360107826204545 ∧ k = 360107826204545) ∨ (360468114174734 < v ∧ k = 360468114174734)) :
    clampIncr v = k ∧ k ≠ v := by
  simp only [clampIncr]
  omega

theorem clampSlew_within {v : Int} (hlo : -3602879702 ≤ v) (hhi : v ≤ 3602879702) : clampSlew v = v := by
  simp [clampSlew, hlo, hhi]

/-- A value outside the clamp is cut to the bound it passed (03 R51). -/
theorem clampSlew_outside {v k : Int} (h : (v < -3602879702 ∧ k = -3602879702) ∨ (3602879702 < v ∧ k = 3602879702)) :
    clampSlew v = k ∧ k ≠ v := by
  simp only [clampSlew]
  omega

/-- The value of a bit vector read as a signed number. -/
theorem sgn_toNat {w : Nat} (x : BitVec w) (hw : 0 < w) : sgn w x.toNat = x.toInt := by
  have hhalf : 2 ^ w = 2 * 2 ^ (w - 1) := (mul_pow_sub_one hw.ne' 2).symm
  rw [sgn, Nat.mod_eq_of_lt x.isLt, BitVec.toInt_eq_toNat_cond]
  push_cast
  split <;> split <;> omega

/-- TIME_SLEW_HI's low byte above TIME_SLEW_LO (03 R53). -/
theorem slewWord_toNat (hi lo : Word) : low 8 hi.toNat * 2 ^ 32 + lo.toNat = (hi.setWidth 8 ++ lo : BitVec 40).toNat := by
  rw [BitVec.toNat_append, ← Nat.shiftLeft_add_eq_or_of_lt lo.isLt, Nat.shiftLeft_eq, BitVec.toNat_setWidth, low]

/-! ## The commits -/

theorem exec_timeIncrCommit (hup : timeUp s = true) (hi : Word) :
    exec (.timeIncrCommit hi) s = .next (commitIncr (hi.toNat % 2 ^ 20 * 2 ^ 32 + s.time.incrLo.toNat) s) := by
  change execTimeIncrCommit hi s = _
  rw [execTimeIncrCommit, if_neg (by simp [hup]), low]

theorem commitIncr_kept {v : Nat} (h : clampIncr v = v) :
    commitIncr v s = { s with time := { s.time with incrReg := v } } := by
  simp only [commitIncr, h, if_true]

theorem commitIncr_cut {v k : Nat} (h : clampIncr v = k) (hne : k ≠ v) :
    commitIncr v s = faultEvent 3 (sticky 0x30004 4#32 { s with time := { s.time with incrReg := k } }) := by
  simp only [commitIncr, h, hne, if_false]

theorem exec_timeSlewCommit {v : Int} (hup : timeUp s = true) {hi : Word} (hv : v = (hi.setWidth 8 ++ s.time.slewLo : BitVec 40).toInt) :
    exec (.timeSlewCommit hi) s = .next (if clampSlew v = v then { s with time := { s.time with slewReg := clampSlew v } }
      else sticky 0x30004 8#32 { s with time := { s.time with slewReg := clampSlew v } }) := by
  change execTimeSlewCommit hi s = _
  simp only [execTimeSlewCommit, hup, slewWord_toNat, sgn_toNat _ (show 0 < 40 by decide), ← hv, Bool.not_true,
    Bool.false_eq_true, if_false]

/-! ## The reads and the snapshot -/

section
variable {rd : Fin 9} {off : BitVec 16}

theorem exec_nowLatchRead (h : decideAccess s rd 0x30010 false = .ok) {u : State} (hu : u = atTick off (countReg rd 0 0x30010 s)) :
    exec (.nowLatchRead rd off) s = .next (give rd (w32 (nsOf (cntNow u)))
      { u with time := { u.time with now := u.time.now.set rd.1 (latchOf u) } }) := by
  subst hu
  change execNowLatchRead rd off s = _
  rw [execNowLatchRead, readBy_ok _ h]
  rfl

theorem exec_odometerRead_latched (h : decideAccess s rd 0x30020 false = .ok) (hl : s.time.now[rd].latched = true) :
    exec (.odometerRead rd off) s = .next (give rd (s.time.now[rd].odo.setWidth 32) (countReg rd 0 0x30020 s)) := by
  change execOdometerRead rd off s = _
  simp only [execOdometerRead, readBy_ok _ h, countReg_time, hl, if_true]

/-- Before the first latch the Odometer is read afresh, its upper half latched (03 R55). -/
theorem exec_odometerRead_fresh (h : decideAccess s rd 0x30020 false = .ok) (hl : s.time.now[rd].latched = false) {u : State}
    (hu : u = atTick off (countReg rd 0 0x30020 s)) :
    exec (.odometerRead rd off) s = .next (give rd (w32 u.time.odo) { u with time := { u.time with
      now := upd u.time.now rd fun l => { l with odoHi := w32 (u.time.odo / 2 ^ 32) } } }) := by
  change execOdometerRead rd off s = _
  simp only [execOdometerRead, readBy_ok _ h, countReg_time, hl, Bool.false_eq_true, if_false, ← hu]

theorem exec_snapshotGo (h : decideAccess s rd 0x30090 true = .ok) :
    exec (.snapshotGo rd off) s = .next (snapGo off (countReg rd 1 0x30090 s)) := by
  change execSnapshotGo rd off s = _
  rw [execSnapshotGo, writeBy_ok _ h]

theorem exec_snapshotRead (h : decideAccess s rd 0x30094 false = .ok) {u : State} (hu : u = countReg rd 0 0x30094 s) :
    exec (.snapshotRead rd) s = .next (give rd (w32 u.time.snap.ns)
      { u with time := { u.time with snap := { u.time.snap with valid := false } } }) := by
  subst hu
  change execSnapshotRead rd s = _
  rw [execSnapshotRead, readBy_ok _ h]

end

/-- Settles O7: one lemma for each access, and what the clamps do to a value. -/
theorem timeCommitsAndReads : Obligations.TimeCommitsAndReads := by
  intro s
  refine ⟨fun hi v hup hv => ⟨?incr, ?incrCut⟩, fun hi v hup hv => ⟨?slew, ?slewCut⟩, fun rd off u h => exec_nowLatchRead h.2,
    fun rd off h => ⟨exec_odometerRead_latched h.2, fun hl u => exec_odometerRead_fresh h.2 hl⟩,
    fun rd off u v h hu hv => ?go, fun rd h u => exec_snapshotRead h.2⟩
  case incr =>
    intro hlo hhi
    rw [exec_timeIncrCommit hup, ← hv, commitIncr_kept (clampIncr_within hlo hhi)]
  case incrCut =>
    intro k hk
    obtain ⟨hcut, hne⟩ := clampIncr_outside hk
    rw [exec_timeIncrCommit hup, ← hv, commitIncr_cut hcut hne]
  case slew =>
    intro hlo hhi
    rw [exec_timeSlewCommit hup hv, if_pos (clampSlew_within hlo hhi), clampSlew_within hlo hhi]
  case slewCut =>
    intro k hk
    obtain ⟨hcut, hne⟩ := clampSlew_outside hk
    rw [exec_timeSlewCommit hup hv, hcut, if_neg hne]
  case go =>
    subst hu hv
    rw [exec_snapshotGo h.2]
    simp only [snapGo, selCode, countReg_time]

end Sys2Proof.Proofs
end

