-- ==== Sys2Proof/Proofs/LeapAndSmear.lean ====
section
/-!
SUPPORT. Leap announcements that are not valid (03 R58) and the smear correction over its window (03 R61), with the statements
about them.
-/
namespace Sys2Proof.Proofs
open Sys2Proof Sys2Proof.Machine Sys2Proof.Claims Sys2Proof.Laws

/-! ## Announcements -/

theorem leapValid_true {l : Nat} {o : Int} {k : LeapKind} (h : ((l : Int) - (o + leapStep k)) % 86400 = 0) :
    leapValid l o k = true := decide_eq_true h

theorem leapValid_false {l : Nat} {o : Int} {k : LeapKind} (h : ((l : Int) - (o + leapStep k)) % 86400 ≠ 0) :
    leapValid l o k = false := decide_eq_false h

/-- Only two actions announce a leap. -/
theorem leapAction_some {n : Nat} {k : LeapKind} (h : leapAction n = some k) : n = 2 ∨ n = 3 := by
  unfold leapAction at h
  split at h
  · exact .inl rfl
  · exact .inr rfl
  · cases h

/-- A command that fails a check answers that check's status and has no effect (18 R404). -/
theorem icpDo_fails {c : CmdRef} {op st : Nat} {chk : State → List (Bool × Nat)} {eff : State → State} {resp : State → List Byte}
    {s : State} (h : Taken c op s) (hc : firstFail (chk s) = st) (hok : st ≠ stOk) (hden : st ≠ stDenied) (hop : op ≠ 0x100) :
    icpDo c op chk eff resp s = .next (complete c op st [] s) := by
  simp [icpDo, icp, h.1, h.2, hc, hok, hden, hop]

/-- ICP_LEAP_SET refuses an announcement that does not end at a UTC midnight (03 R58). -/
theorem exec_icpLeapSet_invalid {c : CmdRef} {s : State} {a : LeapSetArgs} {k : LeapKind} (h : Taken c 0x121 s) (hrsv : a.rsv = false)
    (hk : leapAction a.action.toNat = some k) (hbad : leapValid a.leapAt.toNat a.offset.toInt k = false) :
    exec (.icpLeapSet c a) s = .next (complete c 0x121 stBadArg [] s) := by
  have hact : a.action.toNat ≤ 3 := by have := leapAction_some hk; omega
  change execIcpLeapSet c a s = _
  simp only [execIcpLeapSet]
  refine icpDo_fails (st := stBadArg) h ?checks (by decide) (by decide) (by decide)
  case checks => simp [hrsv, hk, hbad, hact, firstFail]

/-- In AUTO an announcement that is not valid is counted; the reference's offset is adopted all the same (03 R57, R58). -/
theorem adoptUtc_invalid {s : State} {o : Int} {l : Nat} {k : LeapKind} (hauto : s.time.utcManual = false)
    (hbad : leapValid l o k = false) :
    (adoptUtc o (some (l, k)) s).time = { s.time with utcOffset := o, utcKnown := true, leapInvalid := s.time.leapInvalid + 1 } := by
  simp [adoptUtc, hauto, hbad]

/-- Settles O46: an announcement is refused for the one condition of 03 R58. -/
theorem leapAnnouncements : Obligations.LeapAnnouncements := by
  intro s k at_ o n hn hmid
  have hstep : n = o + leapStep k := by cases k <;> exact hn
  have hbad : leapValid at_ o k = false := leapValid_false (hstep ▸ hmid)
  refine ⟨fun c a h hrsv hk hat ho => ?command, fun hauto => adoptUtc_invalid hauto hbad⟩
  case command => exact exec_icpLeapSet_invalid h hrsv hk (hat ▸ ho ▸ hbad)

/-! ## The smear -/

/-- A correction cut to between 0 and one second, in ns. -/
def clampC (q : Int) : Nat := (max 0 (min 1000000000 q)).toNat

theorem clampC_of_nonpos {q : Int} (h : q ≤ 0) : clampC q = 0 := by simp only [clampC]; omega

theorem clampC_of_ge {q : Int} (h : 1000000000 ≤ q) : clampC q = 1000000000 := by simp only [clampC]; omega

theorem clampC_of_between {q : Int} (h0 : 0 ≤ q) (h1 : q ≤ 1000000000) : (clampC q : Int) = q := by simp only [clampC]; omega

theorem clampC_mono {p q : Int} (h : p ≤ q) : clampC p ≤ clampC q := by simp only [clampC]; omega

/-- The correction is the whole part of (t - S) / W, cut to a second: half the window's length in ns times two is W seconds, and
the billions cancel (03 R61). -/
theorem smearC_eq {l w t : Nat} {S : Int} (hS : S = (l : Int) * 1000000000 - (w : Int) * 500000000) :
    smearC l (w * 500000000) t = clampC (((t : Int) - S) / w) := by
  have hden : (2 * ((w * 500000000 : Nat) : Int)) = (w : Int) * 1000000000 := by push_cast; omega
  have hstart : (l : Int) * 1000000000 - ((w * 500000000 : Nat) : Int) = S := by push_cast; omega
  rw [smearC, clampC, hden, hstart, Int.mul_ediv_mul_of_pos_left _ _ (by decide)]

/-- Settles O47: `smearC_eq`, with the quotient's bounds on each side of the window. -/
theorem smearCorrection : Obligations.SmearCorrection := by
  intro l w t S hw hS
  have hwpos : (0 : Int) < w := by omega
  refine ⟨fun hbefore => ?before, fun hafter => ?after, fun hstart hend => ?within, fun u htu => ?mono⟩
  case before =>
    rw [smearC_eq hS]
    exact clampC_of_nonpos (Int.ediv_le_of_le_mul hwpos (by omega))
  case after =>
    rw [smearC_eq hS]
    exact clampC_of_ge ((Int.le_ediv_iff_mul_le hwpos).mpr (by linarith))
  case within =>
    have hlow : 0 ≤ ((t : Int) - S) / w := Int.ediv_nonneg (by omega) hwpos.le
    have hhigh : ((t : Int) - S) / w ≤ 1000000000 := Int.ediv_le_of_le_mul hwpos (by linarith)
    rw [smearC_eq hS, clampC_of_between hlow hhigh]
    exact ⟨Int.ediv_mul_le _ hwpos.ne', Int.lt_ediv_add_one_mul_self _ hwpos⟩
  case mono =>
    rw [smearC_eq hS, smearC_eq hS]
    exact clampC_mono (Int.ediv_le_ediv hwpos (by omega))

end Sys2Proof.Proofs
end

