-- ==== Sys2Proof/Proofs/TimeAndTrailCommands.lean ====
section
/-!
SUPPORT. The commands of time and leap seconds (03 R57, R58, R70), of Cairn (03 R69, R70), of faults and their injection (21 R445,
R446, R456) and of the Trail Register (21 R456, R457), with the statement about them.
-/
namespace Sys2Proof.Proofs
open Sys2Proof Sys2Proof.Machine Sys2Proof.Claims Sys2Proof.Laws

variable {c : CmdRef} {s : State}

/-! ## Time and leap seconds -/

theorem exec_icpTimeGet (off : BitVec 16) (h : Ready c 0x120 32 s) :
    ∃ p, p.length = 32 ∧ exec (.icpTimeGet c off) s = ok c 0x120 p (atTick off s) := by
  obtain ⟨htaken, hfits⟩ := h
  change ∃ p : List Byte, p.length = 32 ∧ execIcpTimeGet c off s = _
  exact ⟨_, by simp, icpDo_ok htaken rfl (by simpa using hfits)⟩

section
variable {a : LeapSetArgs}

/-- AUTO ends the manual leap source (03 R57, R70). -/
theorem exec_icpLeapSet_auto (h : Ready c 0x121 0 s) (hrsv : a.rsv = false) (hact : a.action = 0#8) :
    exec (.icpLeapSet c a) s = ok c 0x121 [] { s with time := { s.time with utcManual := false } } := by
  change execIcpLeapSet c a s = _
  simp only [execIcpLeapSet, ok]
  refine icpDo_is h.1 (firstFail_ok ?checks) h.2 ?effect rfl
  case checks => simp [hrsv, hact, leapAction]
  case effect => simp [hact]

/-- CLEAR stores the offset without an announcement (03 R57, R70). -/
theorem exec_icpLeapSet_clear (h : Ready c 0x121 0 s) (hrsv : a.rsv = false) (hact : a.action = 1#8) :
    exec (.icpLeapSet c a) s = ok c 0x121 [] { s with time := { s.time with
      utcManual := true, utcOffset := a.offset.toInt, utcKnown := true, leap := none } } := by
  change execIcpLeapSet c a s = _
  simp only [execIcpLeapSet, ok]
  refine icpDo_is h.1 (firstFail_ok ?checks) h.2 ?effect rfl
  case checks => simp [hrsv, hact, leapAction]
  case effect => simp [hact, leapAction]

/-- An announcement that ends at a UTC midnight between 2 s and 200 days ahead is stored; one that repeats the present announcement keeps
the moment that was made at (03 R58). -/
theorem exec_icpLeapSet_announces {k : LeapKind} (h : Ready c 0x121 0 s) (hrsv : a.rsv = false)
    (hk : leapAction a.action.toNat = some k) (hvalid : leapValid a.leapAt.toNat a.offset.toInt k = true)
    (hsoon : secNow s + 2 ≤ a.leapAt.toNat) (hfar : a.leapAt.toNat ≤ secNow s + 200 * 86400) :
    exec (.icpLeapSet c a) s = ok c 0x121 [] { s with time := { s.time with
      utcManual := true, utcOffset := a.offset.toInt, utcKnown := true, leap := some k, leapAt := a.leapAt.toNat
      announcedAt := if s.time.leap = some k ∧ s.time.leapAt = a.leapAt.toNat then s.time.announcedAt else cntNow s / nsU } } := by
  have hact : a.action.toNat = 2 ∨ a.action.toNat = 3 := leapAction_some hk
  have hact0 : a.action.toNat ≠ 0 := by omega
  have hact3 : a.action.toNat ≤ 3 := by omega
  change execIcpLeapSet c a s = _
  simp only [execIcpLeapSet, ok]
  refine icpDo_is h.1 (firstFail_ok ?checks) h.2 ?effect rfl
  case checks => simp [hrsv, hact3, hk, hvalid, hsoon, hfar]
  case effect =>
    by_cases hsame : s.time.leap = some k ∧ s.time.leapAt = a.leapAt.toNat
    · simp [hact0, hk, hsame]
    · have hnew : (s.time.leap == some k && s.time.leapAt == a.leapAt.toNat) = false := by simpa using hsame
      simp only [hact0, hk, hnew, hsame, Option.isSome_some, Bool.not_false, Bool.and_self, if_true, if_false]

end

/-! ## Cairn -/

theorem exec_icpCairnConfig {n : BitVec 16} (e f : Bool) (h : Ready c 0xB10 0 s) (hlo : 1 ≤ n.toNat) (hhi : n.toNat ≤ 3600) :
    exec (.icpCairnConfig c n e f false) s =
      ok c 0xB10 [] { s with cairn := { s.cairn with period := n.toNat, events := e, flash := f } } := by
  have hn : n ≠ 0#16 := by bv_omega
  change execIcpCairnConfig c n e f false s = _
  simp only [execIcpCairnConfig, ok]
  exact icpDo_is h.1 (firstFail_ok (by simp [hn, hhi])) h.2 rfl rfl

theorem exec_icpCairnLast {r : CairnRec} (h : Ready c 0xB11 (recWhole r).length s) (hr : s.cairn.last = some r) :
    exec (.icpCairnLast c) s = ok c 0xB11 (recWhole r) s := by
  change execIcpCairnLast c s = _
  simp only [execIcpCairnLast, ok]
  exact icpDo_is h.1 (firstFail_ok (by simp [hr])) h.2 rfl (by rw [hr]; rfl)

/-! ## Faults and injection -/

theorem exec_icpFaultStatus (h : Ready c 0xB00 52 s) : Reads (.icpFaultStatus c) c 0xB00 52 s := by
  obtain ⟨htaken, hfits⟩ := h
  change ∃ p : List Byte, p.length = 52 ∧ execIcpFaultStatus c s = _
  exact ⟨_, by simp, icpGet_ok htaken (by simpa using hfits)⟩

/-- A severity is stored; beside it only the Lantern follows (21 R445). -/
theorem exec_icpFaultConfig {src sev : BitVec 8} {i : Fin 64} (h : Ready c 0xB01 0 s) (hsrc : faultSrc src = some i)
    (h0 : src ≠ 0#8) (h57 : src ≠ 57#8) (h58 : src ≠ 58#8) (hsev : sev.toNat ≤ 3) (hinj : s.fault.inj.getLsbD i.1 = false) :
    ∃ t, exec (.icpFaultConfig c src sev false) s = ok c 0xB01 [] t ∧
      t.fault = { s.fault with sev := s.fault.sev.set i.1 sev.toNat } := by
  refine ⟨lanternFast { s with fault := { s.fault with sev := s.fault.sev.set i.1 sev.toNat } }, ?_, lanternFast_fault _⟩
  change execIcpFaultConfig c src sev false s = _
  simp only [execIcpFaultConfig, ok]
  refine icpDo_is h.1 (firstFail_ok ?checks) h.2 (by rw [hsrc]; rfl) rfl
  case checks => simpa [hsrc, h0, h57, h58, hsev] using hinj

section
variable {a : InjectArgs} {i : Fin 64}

/-- Arming a source other than RIDGEPOLE_LOL, whose injected rise would end in a reset (21 R446). -/
theorem exec_icpFaultInject_arms (h : Ready c 0xB02 0 s) (hsrc : faultSrc a.source = some i) (hi : i ≠ 0)
    (hcheck : firstFail (injectChecks a s) = stOk) (hact : a.action = 0#8) :
    exec (.icpFaultInject c a) s = ok c 0xB02 [] (injectArm i a.duration.toNat s) := by
  change execIcpFaultInject c a s = _
  simp only [execIcpFaultInject, ok]
  exact icp_ok h.1 (by simp [hsrc, hcheck, hact, hi]) h.2

theorem exec_icpFaultInject_disarms (h : Ready c 0xB02 0 s) (hsrc : faultSrc a.source = some i)
    (hcheck : firstFail (injectChecks a s) = stOk) (hact : a.action ≠ 0#8) :
    exec (.icpFaultInject c a) s = ok c 0xB02 [] (injectEnd i s) := by
  change execIcpFaultInject c a s = _
  simp only [execIcpFaultInject, ok]
  exact icp_ok h.1 (by simp [hsrc, hcheck, hact]) h.2

end

/-! ## The Trail Register -/

/-- A flush starts; its command completes when the flush has ended (21 R456). -/
theorem exec_icpTrailFlush {n : BitVec 16} (h : Taken c 0xB04 s) (hn : n ≠ 0#16) (hhi : n.toNat ≤ 3600)
    (hfree : s.trail.flushCmd = none) :
    exec (.icpTrailFlush c n false) s = .next { s with trail := { s.trail with
      period := n.toNat, flushCmd := some c, flushing := true, flushAt := s.aon.ophrs } } := by
  have hchecks : firstFail [(false, stBadArg), (decide (3600 < n.toNat), stRange), (s.trail.flushCmd.isSome, stBusy)] = stOk :=
    firstFail_ok (by simp [hhi, hfree])
  change execIcpTrailFlush c n false s = _
  simp only [execIcpTrailFlush]
  exact icp_later h (by simp only [hchecks, hn, ne_eq, not_true_eq_false, if_false, flushStart])

/-- A read from a position the area has answers the whole records from there (21 R456). -/
theorem exec_icpTrailRead {a : TrailReadArgs} {got : List TrailRec} {next : Nat} {e sk : Bool} (hrsv : a.rsv = false)
    (harea : a.area.toNat ≤ 1) (hlo : 256 ≤ a.max.toNat) (hhi : a.max.toNat ≤ 1024)
    (hread : trailRead (a.area == 1#8) a.start.toNat a.max.toNat s.trail = some (got, next, e, sk))
    (h : Ready c 0xB03 (8 + (got.flatMap TrailRec.bytes).length) s) :
    exec (.icpTrailRead c a) s = ok c 0xB03
      (le 4 next ++ le 2 (trailSize got) ++ le 2 (bit e + 2 * bit sk) ++ got.flatMap TrailRec.bytes) s := by
  obtain ⟨htaken, hfits⟩ := h
  have hmax : a.max ≠ 0#16 := by bv_omega
  have hchecks : firstFail [(a.rsv || decide (1 < a.area.toNat) || a.max == 0#16, stBadArg), (outside a.max.toNat 256 1024, stRange),
      ((some (got, next, e, sk)).isNone, stOrder)] = stOk :=
    firstFail_ok (by simp [hrsv, harea, hmax, outside_false hlo hhi])
  have hlen : (le 4 next ++ le 2 (trailSize got) ++ le 2 (bit e + 2 * bit sk) ++ got.flatMap TrailRec.bytes).length =
      8 + (got.flatMap TrailRec.bytes).length := by
    simp only [List.length_append, le_length]
  change execIcpTrailRead c a s = _
  simp only [execIcpTrailRead, ok]
  refine icp_ok htaken ?_ (hlen ▸ hfits)
  simp only [hread, hchecks, ne_eq, not_true_eq_false, if_false]

/-- Settles O9: one lemma for each command, and for each action of ICP_LEAP_SET and ICP_FAULT_INJECT. -/
theorem timeAndTrailCommands : Obligations.TimeAndTrailCommands := by
  intro c s
  exact ⟨exec_icpTimeGet,
    fun a h hrsv => ⟨exec_icpLeapSet_auto h hrsv, exec_icpLeapSet_clear h hrsv,
      fun k hk hmid => exec_icpLeapSet_announces h hrsv hk (leapValid_true hmid)⟩,
    fun n e f => exec_icpCairnConfig e f, fun r => exec_icpCairnLast, exec_icpFaultStatus,
    fun src sev i => exec_icpFaultConfig,
    fun a i h hsrc hi hcheck => ⟨exec_icpFaultInject_arms h hsrc hi hcheck, exec_icpFaultInject_disarms h hsrc hcheck⟩,
    fun n h => exec_icpTrailFlush h.1, fun a got next e sk => exec_icpTrailRead⟩

end Sys2Proof.Proofs
end

