-- ==== Sys2Proof/Proofs/ReferenceCommands.lean ====
section
/-!
SUPPORT. The commands of the reference slots (04 R101, R102) and of the steps, the selection, Switchback and the Lantern
(05 R122, R123), with the statement about them.
-/
namespace Sys2Proof.Proofs
open Sys2Proof Sys2Proof.Machine Sys2Proof.Claims Sys2Proof.Laws

variable {c : CmdRef} {s : State}

theorem fin?_eq_some {m v : Nat} {i : Fin m} (h : v = i.1) : fin? m v = some i := by
  subst h
  simp [fin?]

/-! ## Steps -/

/-- Outside SERVE and HOLDOVER no permit is asked for (05 R123); the step waits for its boundary (05 R113). -/
theorem exec_icpTimeStep {a : TimeStepArgs} (h : Taken c 0x122 s) (hrsv : a.rsv = false)
    (hstep : a.kind = 0#8 ∧ (stepOf c a).offset ≠ 0 ∨ a.kind = 1#8 ∧ a.ns.toNat ≤ 999999999)
    (hserve : s.sys.mode ≠ .serve) (hhold : s.sys.mode ≠ .holdover) :
    exec (.icpTimeStep c a) s = .next { s with time := { s.time with steps := s.time.steps ++ [stepOf c a] } } := by
  have hserved : (s.sys.mode == .serve || s.sys.mode == .holdover) = false := by simp [hserve, hhold]
  have harg : (a.rsv || decide (1 < a.kind.toNat) || (a.kind == 0#8 && (stepOf c a).offset == 0) ||
      (a.kind == 1#8 && decide (999999999 < a.ns.toNat))) = false := by
    obtain ⟨hkind, hoff⟩ | ⟨hkind, hns⟩ := hstep
    · simp [hrsv, hkind, hoff]
    · simp [hrsv, hkind, hns]
  change execIcpTimeStep c a s = _
  simp only [execIcpTimeStep]
  exact icp_later h (if_pos (firstFail_ok (by simp [harg, hserved])))

theorem exec_icpStepPermit {w : BitVec 16} (h : Ready c 0x123 0 s) (hhi : w.toNat ≤ 600) :
    exec (.icpStepPermit c w false) s =
      ok c 0x123 [] { s with sign := { s.sign with permit := w != 0#16, permitLeft := w.toNat } } := by
  change execIcpStepPermit c w false s = _
  simp only [execIcpStepPermit, ok]
  exact icpDo_is h.1 (firstFail_ok (by simp [hhi])) h.2 rfl rfl

/-! ## Reference slots -/

theorem exec_icpRefConfig {a : RefConfigArgs} {n : Fin 12} (h : Ready c 0x200 0 s) (hrsv : a.rsv = false) (hslot : a.slot.toNat = n.1)
    (hen : a.enable.toNat ≤ 2) (hlo : 1 ≤ a.holdoff.toNat) (hhi : a.holdoff.toNat ≤ 3600) (hrank : a.qualRankMax.toNat ≤ 14)
    (hfloor : a.rankFloor.toNat ≤ 15) (hfoot : n = 11 → s.foot.en = true) (hgnss : n = 0 → powered s 8 = true) :
    exec (.icpRefConfig c a) s = ok c 0x200 [] (enableSlot n a.enable.toNat (onSlot n (fun q => { q with
      holdoff := a.holdoff.toNat, instUnc := a.instUnc.toNat, noiseUnc := a.noiseUnc.toNat, rankFloor := a.rankFloor.toNat
      qualRankMax := a.qualRankMax.toNat
      timer := if q.state == .qualifying && !q.timerRun then a.holdoff.toNat else q.timer }) s)) := by
  have hlast : a.slot.toNat ≤ 11 := by omega
  have hholdoff : a.holdoff ≠ 0#16 := by bv_omega
  have hfoot' : a.slot = 11#8 → s.foot.en = true := fun h11 => hfoot (Fin.ext (by simpa [h11] using hslot.symm))
  have hgnss' : a.slot = 0#8 → powered s 8 = true := fun h0 => hgnss (Fin.ext (by simpa [h0] using hslot.symm))
  change execIcpRefConfig c a s = _
  simp only [execIcpRefConfig, ok]
  refine icpDo_is h.1 (firstFail_ok ?checks) h.2 (by rw [fin?_eq_some hslot]; rfl) rfl
  case checks =>
    simp +contextual [hrsv, hlast, hen, hholdoff, hhi, hrank, hfloor, hfoot', hgnss']

/-- A command that pairs no TODIN and no FREQIN cannot collide with another slot's pairing (04 R102); a slot whose wiring it changes
qualifies anew (04 R100). -/
theorem exec_icpRefPpsInput {a : RefPpsArgs} {n : Fin 12} {s1 : State} (h : Ready c 0x201 0 s) (hrsv : a.rsv = false)
    (hslot : a.slot.toNat = n.1) (hfirst : 1 ≤ n.1) (hlast : n.1 ≤ 4) (hinput : a.input.toNat ≤ 1) (hedge : a.edge.toNat ≤ 1)
    (htod : a.todSel = 0#8) (hfreq : a.freqSel = 0#8) (hlo : 1 ≤ a.ppsWin.toNat) (hhi : a.ppsWin.toNat ≤ 100000)
    (hcable : a.cable.toInt.natAbs ≤ 10000000) (hbaud : a.baud.toNat ≤ 7) (hnone : s.sign.slots[n].todSel = 0)
    (hs1 : s1 = onSlot n (fun q => { q with
      input := a.input == 1#8, edgeFall := a.edge == 1#8, todSel := 0, freqSel := 0, todBaud := a.baud.toNat
      ppsWin := a.ppsWin.toNat, cable := a.cable.toInt }) s) :
    exec (.icpRefPpsInput c a) s = ok c 0x201 [] (if s.sign.slots[n].freqSel ≠ 0 ∨ s.sign.slots[n].input ≠ (a.input == 1#8) ∨
      s.sign.slots[n].edgeFall ≠ (a.edge == 1#8) ∨ s.sign.slots[n].cable ≠ a.cable.toInt then configured n s1 else s1) := by
  have hrange : outside a.slot.toNat 1 4 = false := outside_false (by omega) (by omega)
  change execIcpRefPpsInput c a s = _
  simp only [execIcpRefPpsInput, ok]
  refine icpDo_is h.1 (firstFail_ok ?checks) h.2 ?effect rfl
  case checks => simp [hrsv, hrange, hinput, hedge, htod, hfreq, outside_false hlo hhi, beyond, hcable, hbaud]
  case effect =>
    simp only [fin?_eq_some hslot, Option.elim_some, htod, hfreq, BitVec.toNat_ofNat, Nat.zero_mod, hnone, hs1]
    simp [or_assoc]

theorem exec_icpRefThresh {a : RefThreshArgs} (h : Ready c 0x202 0 s) (hrsv : a.rsv = false) (hwin : 1 ≤ a.freqWin.toNat)
    (hwin' : a.freqWin.toNat ≤ 100000) (hcold : 100 ≤ a.freqWinCold.toNat) (hcold' : a.freqWinCold.toNat ≤ 500000)
    (hy : 1 ≤ a.driftY.toNat) (hy' : a.driftY.toNat ≤ 100000) (hrate : 1 ≤ a.driftRate.toNat) (hrate' : a.driftRate.toNat ≤ 100000)
    (hdis : 1 ≤ a.disagree.toNat) (hdis' : a.disagree.toNat ≤ 1000000) (hcmp : 10 ≤ a.compareWin.toNat)
    (hcmp' : a.compareWin.toNat ≤ 10000) (hpath : 10 ≤ a.pathStep.toNat) (hpath' : a.pathStep.toNat ≤ 100000) :
    ∃ t, exec (.icpRefThresh c a) s = ok c 0x202 [] t ∧ t.sign.freqWin = a.freqWin.toNat ∧
      t.sign.freqWinCold = a.freqWinCold.toNat ∧ t.sign.driftY = a.driftY.toNat ∧ t.sign.driftRate = a.driftRate.toNat ∧
      t.sign.disagree = a.disagree.toNat ∧ t.sign.compareWin = a.compareWin.toNat ∧ t.sign.pathStepNs = a.pathStep.toNat := by
  have hnonzero : a.freqWin ≠ 0#32 ∧ a.freqWinCold ≠ 0#32 ∧ a.driftY ≠ 0#32 ∧ a.driftRate ≠ 0#32 ∧ a.disagree ≠ 0#32 ∧
      a.compareWin ≠ 0#16 ∧ a.pathStep ≠ 0#32 := by
    refine ⟨?_, ?_, ?_, ?_, ?_, ?_, ?_⟩ <;> bv_omega
  change ∃ t, execIcpRefThresh c a s = _ ∧ _
  simp only [execIcpRefThresh, ok]
  refine ⟨_, icpDo_is h.1 (firstFail_ok ?checks) h.2 rfl rfl, rfl, rfl, rfl, rfl, rfl, rfl, rfl⟩
  case checks =>
    simp [hrsv, hnonzero, hwin', outside_false hcold hcold', hy', hrate', hdis', outside_false hcmp hcmp', outside_false hpath hpath']

/-- SIGN_STAT and eight words of each of the twelve slots (04 R101). -/
theorem exec_icpRefStatus (h : Ready c 0x203 388 s) : Reads (.icpRefStatus c) c 0x203 388 s := by
  obtain ⟨htaken, hfits⟩ := h
  change ∃ p : List Byte, p.length = 388 ∧ execIcpRefStatus c s = _
  exact ⟨_, by simp, icpGet_ok htaken (by simpa using hfits)⟩

section
variable {slot : BitVec 8} {n : Fin 12}

/-- A slot that no latched condition holds is left as it is (04 R102). -/
theorem exec_icpRefClear_leaves (h : Ready c 0x204 0 s) (hslot : slot.toNat = n.1)
    (hfree : s.sign.slots[n].state ≠ .softFail ∨ s.sign.slots[n].pathAsym = false ∧ s.sign.slots[n].phaseJump = false) :
    exec (.icpRefClear c slot false) s = ok c 0x204 [] s := by
  have hlast : slot.toNat ≤ 11 := by omega
  have hheld : (s.sign.slots[n].state == .softFail && (s.sign.slots[n].pathAsym || s.sign.slots[n].phaseJump)) = false := by
    simpa [← imp_iff_not_or] using hfree
  change execIcpRefClear c slot false s = _
  simp only [execIcpRefClear, ok]
  refine icpDo_is h.1 (firstFail_ok (by simp [hlast])) h.2 ?effect rfl
  case effect => simp only [fin?_eq_some hslot, Option.elim_some, hheld, Bool.false_eq_true, if_false]

/-- A slot held by PATH_ASYM or PHASE_JUMP qualifies anew (04 R102). -/
theorem exec_icpRefClear_requalifies (h : Ready c 0x204 0 s) (hslot : slot.toNat = n.1) (hstate : s.sign.slots[n].state = .softFail)
    (hlatched : s.sign.slots[n].pathAsym = true ∨ s.sign.slots[n].phaseJump = true) :
    exec (.icpRefClear c slot false) s = ok c 0x204 [] (slotSettle (requalify n 0x41 (onSlot n (fun q => { q with
      pathAsym := false, phaseJump := false, outOfWin := 0, contrib := 0, contribTail := 0 }) s))) := by
  have hlast : slot.toNat ≤ 11 := by omega
  have hheld : (s.sign.slots[n].state == .softFail && (s.sign.slots[n].pathAsym || s.sign.slots[n].phaseJump)) = true := by
    simpa using And.intro hstate hlatched
  change execIcpRefClear c slot false s = _
  simp only [execIcpRefClear, ok]
  refine icpDo_is h.1 (firstFail_ok (by simp [hlast])) h.2 ?effect rfl
  case effect => simp only [fin?_eq_some hslot, Option.elim_some, hheld, if_true]

theorem exec_icpRefAsym (comp unc : Word) (h : Ready c 0x205 0 s) (hslot : slot.toNat = n.1) (hptp : n.1 = 9 ∨ n.1 = 10) :
    exec (.icpRefAsym c slot comp unc false) s = ok c 0x205 [] (configured n (onSlot n (fun q => { q with
      asymComp := comp.toInt, asymUnc := unc.toNat, pathAsym := false, contrib := 0, contribTail := 0, asymCheck := none }) s)) := by
  have hrange : outside slot.toNat 9 10 = false := outside_false (by omega) (by omega)
  change execIcpRefAsym c slot comp unc false s = _
  simp only [execIcpRefAsym, ok]
  exact icpDo_is h.1 (firstFail_ok (by simp [hrange])) h.2 (by rw [fin?_eq_some hslot]; rfl) rfl

end

/-! ## Selection, Switchback and Lantern -/

section
variable {a : SelConfigArgs}

theorem exec_icpSelConfig_unnamed (h : Ready c 0x206 0 s) (hrsv : a.rsv = false) (hrev : a.revertive.toNat ≤ 1)
    (hwait : a.revertWait.toNat ≤ 3600) (hmargin : a.upgradeMargin.toNat ≤ 15) (hpref : a.pref = 0xFF#8) :
    ∃ t, exec (.icpSelConfig c a) s = ok c 0x206 [] t ∧ t.sign.pref = none ∧ t.sign.revertWait = a.revertWait.toNat := by
  change ∃ t, execIcpSelConfig c a s = _ ∧ _
  simp only [execIcpSelConfig, ok]
  refine ⟨_, icpDo_is h.1 (firstFail_ok ?checks) h.2 rfl rfl, ?pref, rfl⟩
  case checks => simp [hrsv, hrev, hpref, hwait, hmargin]
  case pref => simp [hpref]

/-- PREF may name slots 0 to 4, 9 and 10: REF_GNSS, the PPS slots and the two PTP slots (05 R122). -/
theorem exec_icpSelConfig_names {n : Fin 12} (h : Ready c 0x206 0 s) (hrsv : a.rsv = false) (hrev : a.revertive.toNat ≤ 1)
    (hwait : a.revertWait.toNat ≤ 3600) (hmargin : a.upgradeMargin.toNat ≤ 15) (hpref : a.pref.toNat = n.1)
    (hn : n.1 ≤ 4 ∨ n.1 = 9 ∨ n.1 = 10) :
    ∃ t, exec (.icpSelConfig c a) s = ok c 0x206 [] t ∧ t.sign.pref = some n ∧ t.sign.revertive = (a.revertive == 1#8) ∧
      t.sign.upgradeMargin = a.upgradeMargin.toNat := by
  have hnamed : (decide (a.pref.toNat ≤ 4) || a.pref == 9#8 || a.pref == 10#8) = true := by
    simpa [hpref, ← BitVec.toNat_inj, or_assoc] using hn
  change ∃ t, execIcpSelConfig c a s = _ ∧ _
  simp only [execIcpSelConfig, ok]
  refine ⟨_, icpDo_is h.1 (firstFail_ok ?checks) h.2 rfl rfl, ?pref, rfl, rfl⟩
  case checks => simp only [hnamed]; simp [hrsv, hrev, hwait, hmargin]
  case pref => simp only [hnamed, if_true, fin?_eq_some hpref]

end

theorem exec_icpSwbConfig {slope acq : Word} (h : Ready c 0x207 0 s) (hslope : 1 ≤ slope.toNat) (hslope' : slope.toNat ≤ 100000)
    (hacq : 1 ≤ acq.toNat) (hacq' : acq.toNat ≤ 1000000) : exec (.icpSwbConfig c slope acq) s =
      ok c 0x207 [] { s with sign := { s.sign with slopeNext := slope.toNat, acqStepMin := acq.toNat } } := by
  have hslope0 : slope ≠ 0#32 := by bv_omega
  have hacq0 : acq ≠ 0#32 := by bv_omega
  change execIcpSwbConfig c slope acq s = _
  simp only [execIcpSwbConfig, ok]
  exact icpDo_is h.1 (firstFail_ok (by simp [hslope0, hacq0, hslope', hacq'])) h.2 rfl rfl

/-- The pins' new settings wait for the next boundary (05 R123). -/
theorem exec_icpLanternConfig {a : LanternArgs} (h : Ready c 0x440 0 s) (hrsv : a.rsv = false)
    (hpins : ∀ i : Fin 4, lanternCode a.pins[i].1.toNat = true ∧ a.pins[i].2.2.toNat ≤ 1000) :
    ∃ t l, exec (.icpLanternConfig c a) s = ok c 0x440 [] t ∧ t.sign = { s.sign with lanternPending := some l } ∧
      ∀ i : Fin 4, l[i].func = a.pins[i].1.toNat ∧ l[i].inv = a.pins[i].2.1 ∧ l[i].minHold = a.pins[i].2.2.toNat := by
  have hall : ∀ p ∈ a.pins.toList, lanternCode p.1.toNat = true ∧ p.2.2.toNat ≤ 1000 := by
    intro p hp
    obtain ⟨i, hi, rfl⟩ := Vector.getElem_of_mem (Vector.mem_toList_iff.mp hp)
    exact hpins ⟨i, hi⟩
  have hcodes : a.pins.toList.any (fun p => !lanternCode p.1.toNat) = false := List.any_eq_false.mpr fun p hp => by simp [(hall p hp).1]
  have hholds : a.pins.toList.any (fun p => decide (1000 < p.2.2.toNat)) = false :=
    List.any_eq_false.mpr fun p hp => by simp [(hall p hp).2]
  change ∃ t l, execIcpLanternConfig c a s = _ ∧ _
  simp only [execIcpLanternConfig, ok]
  exact ⟨_, _, icpDo_is h.1 (firstFail_ok (by simp [hrsv, hcodes, hholds])) h.2 rfl rfl, rfl, fun i => by simp [updAll]⟩

/-- Settles O11: one lemma for each command, two for ICP_REF_CLEAR and for ICP_SEL_CONFIG. -/
theorem referenceCommands : Obligations.ReferenceCommands := by
  intro c s
  exact ⟨fun a => exec_icpTimeStep, fun w => exec_icpStepPermit, fun a n => exec_icpRefConfig,
    fun a n h hrsv hslot hfirst hlast hinput hedge htod hfreq hlo hhi hcable hbaud hnone s1 =>
      exec_icpRefPpsInput h hrsv hslot hfirst hlast hinput hedge htod hfreq hlo hhi hcable hbaud hnone,
    fun a => exec_icpRefThresh, exec_icpRefStatus,
    fun slot n h hslot => ⟨exec_icpRefClear_leaves h hslot, exec_icpRefClear_requalifies h hslot⟩,
    fun slot n => exec_icpRefAsym,
    fun a h hrsv hrev hwait hmargin => ⟨exec_icpSelConfig_unnamed h hrsv hrev hwait hmargin,
      fun n => exec_icpSelConfig_names h hrsv hrev hwait hmargin⟩,
    fun slope acq => exec_icpSwbConfig, fun a => exec_icpLanternConfig⟩

end Sys2Proof.Proofs
end

