-- ==== Sys2Proof/Proofs/StickyCopies.lean ====
section
/-!
SUPPORT. Sticky words as the sparse map keeps them: one key per copy and register, what an update of the copies and a read of
one copy write (05 R116, 19 R420), with the statement about them.
-/
namespace Sys2Proof.Proofs
open Sys2Proof Sys2Proof.Machine Sys2Proof.Claims Sys2Proof.Laws

/-! ## Keys -/

/-- Below 2^28 a register leaves the copy's number in a key as it is, so that no two words share a key. -/
theorem stickyKey_ne_of_reg {c d q r : Nat} (hqr : q ≠ r) (hq : q < 2 ^ 28) (hr : r < 2 ^ 28) : stickyKey c q ≠ stickyKey d r := by
  unfold stickyKey
  omega

theorem stickyKey_inj_copy {c d r : Nat} : stickyKey c r = stickyKey d r ↔ c = d := by
  unfold stickyKey
  omega

section
variable {r : Nat}

theorem stickyCopy_of_perSlotReg (hp : perSlotReg r = true) (rd : Nat) : stickyCopy rd r = rd := by simp [stickyCopy, hp]

theorem mem_copiesOf_of_perSlotReg (hp : perSlotReg r = true) (c : Nat) : c ∈ copiesOf r ↔ c < 8 := by simp [copiesOf, hp]

/-! ## What a read clears -/

/-- The registers of 07 R163 and 08 R177, which only slot 0 may clear, have one copy. -/
theorem mayClear_of_perSlotReg (hp : perSlotReg r = true) (rd : Nat) : mayClear rd r = true := by
  have hblk : r / 65536 ≠ 5 ∧ r / 65536 ≠ 6 := by
    simp only [perSlotReg, Bool.or_eq_true, Bool.and_eq_true, beq_iff_eq, decide_eq_true_eq] at hp
    omega
  simp [mayClear, blkOf, hblk]

/-- The register whose peak starts over from a live value has one copy (13 R299). -/
theorem peakNow_of_perSlotReg (hp : perSlotReg r = true) (s : State) : peakNow s r = 0#32 := by
  have hne : r ≠ 0xA0010 := by
    rintro rfl
    exact absurd hp (by decide)
  simp [peakNow, hne]

/-- In a normal mode the read of a register with a copy per slot writes 0 to the reader's copy. -/
theorem stickyTake_regs_of_perSlotReg {s : State} {rd : Fin 9} (hp : perSlotReg r = true) (hm : modeNormal s.sys.mode = true) :
    (stickyTake rd r s).regs.sticky = mset 0#32 (stickyKey rd.1 r) 0#32 s.regs.sticky := by
  simp [stickyTake, hm, mayClear_of_perSlotReg hp, stickyCopy_of_perSlotReg hp, peakNow_of_perSlotReg hp]

end

/-! ## What an update writes -/

theorem mget_stickyIn {g : RegsSt} (h : mwf 0#32 g.sticky = true) (c r k : Nat) (v : Word) :
    mget 0#32 k (stickyIn c r v g).sticky =
      if k = stickyKey c r then mget 0#32 k g.sticky ||| v else mget 0#32 k g.sticky := by
  simp only [stickyIn]
  split
  case isTrue hk => rw [hk, mget_mset_same _ _ _ _ h]
  case isFalse hk => exact mget_mset_other _ _ _ _ _ h hk

/-- Setting bits in several copies sets them in each of these and in no other word; a copy named again only repeats it. -/
theorem mget_foldl_stickyIn (r k : Nat) (v : Word) (cs : List Nat) {g : RegsSt} (h : mwf 0#32 g.sticky = true) :
    mget 0#32 k (cs.foldl (fun g c => stickyIn c r v g) g).sticky =
      if ∃ c ∈ cs, k = stickyKey c r then mget 0#32 k g.sticky ||| v else mget 0#32 k g.sticky := by
  induction cs generalizing g with
  | nil => simp
  | cons c cs ih =>
    rw [List.foldl_cons, ih (stickyIn_on c r v g h), mget_stickyIn h]
    by_cases hc : k = stickyKey c r
    · simp [hc, BitVec.or_assoc]
    · simp [hc]

theorem mget_sticky {s : State} (h : mwf 0#32 s.regs.sticky = true) (r k : Nat) (v : Word) :
    mget 0#32 k (sticky r v s).regs.sticky =
      if ∃ c ∈ copiesOf r, k = stickyKey c r then mget 0#32 k s.regs.sticky ||| v else mget 0#32 k s.regs.sticky :=
  mget_foldl_stickyIn r k v (copiesOf r) h

/-! ## The copies as their readers see them -/

section
variable {s : State} {r : Nat}

theorem stickyOf_sticky_same (hp : perSlotReg r = true) (h : mwf 0#32 s.regs.sticky = true) (v : Word) (i : Fin 8) :
    stickyOf (sticky r v s) i.1 r = stickyOf s i.1 r ||| v := by
  have hhit : ∃ c ∈ copiesOf r, stickyKey i.1 r = stickyKey c r := ⟨i.1, (mem_copiesOf_of_perSlotReg hp _).mpr i.2, rfl⟩
  rw [stickyOf, stickyOf, stickyCopy_of_perSlotReg hp, mget_sticky h, if_pos hhit]

theorem stickyOf_sticky_other {q : Nat} (h : mwf 0#32 s.regs.sticky = true) (hqr : q ≠ r) (hq : q < 2 ^ 28) (hr : r < 2 ^ 28)
    (v : Word) (rd : Nat) : stickyOf (sticky r v s) rd q = stickyOf s rd q := by
  have hmiss : ¬ ∃ c ∈ copiesOf r, stickyKey (stickyCopy rd q) q = stickyKey c r := fun ⟨_, _, he⟩ =>
    stickyKey_ne_of_reg hqr hq hr he
  rw [stickyOf, stickyOf, mget_sticky h, if_neg hmiss]

section
variable {rd : Fin 9} (hp : perSlotReg r = true) (h : mwf 0#32 s.regs.sticky = true) (hm : modeNormal s.sys.mode = true)
include hp h hm

theorem stickyOf_stickyTake_self : stickyOf (stickyTake rd r s) rd.1 r = 0#32 := by
  rw [stickyOf, stickyTake_regs_of_perSlotReg hp hm, stickyCopy_of_perSlotReg hp, mget_mset_same _ _ _ _ h]

theorem stickyOf_stickyTake_otherCopy {j : Fin 9} (hj : j ≠ rd) : stickyOf (stickyTake rd r s) j.1 r = stickyOf s j.1 r := by
  have hkey : stickyKey j.1 r ≠ stickyKey rd.1 r := fun he => hj (Fin.ext (stickyKey_inj_copy.mp he))
  rw [stickyOf, stickyOf, stickyTake_regs_of_perSlotReg hp hm, stickyCopy_of_perSlotReg hp, mget_mset_other _ _ _ _ _ h hkey]

theorem stickyOf_stickyTake_otherReg {q : Nat} (hqr : q ≠ r) (hq : q < 2 ^ 28) (hr : r < 2 ^ 28) (j : Nat) :
    stickyOf (stickyTake rd r s) j q = stickyOf s j q := by
  rw [stickyOf, stickyOf, stickyTake_regs_of_perSlotReg hp hm, mget_mset_other _ _ _ _ _ h (stickyKey_ne_of_reg hqr hq hr)]

end
end

/-- Settles O53: an update and a read write the sparse map at the keys of the copies they reach, and at no other. -/
theorem stickyCopies : Obligations.StickyCopies := by
  intro s r v hp hr h
  refine ⟨stickyOf_sticky_same hp h v, fun i q hqr hq => stickyOf_sticky_other h hqr hq hr v i.1, fun hm rd => ⟨?own, ?copies, ?regs⟩⟩
  case own => exact stickyOf_stickyTake_self hp h hm
  case copies => exact fun j => stickyOf_stickyTake_otherCopy hp h hm
  case regs => exact fun j q hqr hq => stickyOf_stickyTake_otherReg hp h hm hqr hq hr j.1

end Sys2Proof.Proofs
end

