-- ==== Sys2Proof/Proofs/GuylineCommands.lean ====
section
/-!
SUPPORT. Guyline's events: the learning window (06 R131), ATOM_IN (06 R125), the ATOM UART parser (06 R127), the loss of a
temperature source (06 R126) and the saved models (06 R134); the holdover commands (06 R143, R144), with the statement about them.
-/
namespace Sys2Proof.Proofs
open Sys2Proof Sys2Proof.Machine Sys2Proof.Claims Sys2Proof.Laws

variable {c : CmdRef} {s : State}

/-! ## Learning windows and ATOM_IN -/

/-- A window ends on the grid of 1,000 Odometer seconds; ATOM's frequency is the slot's less the mean against ATOM_IN (06 R124). -/
theorem exec_learnWindowEnd (hup : timeUp s = true) (y : Int) :
    exec (.learnWindowEnd y) s = .next (guyLevel { s with guy := { s.guy with
      main := s.guy.main.windowEnd (odoSec s / 1000 * 1000) y (guyCond s)
      atom := s.guy.atom.windowEnd (odoSec s / 1000 * 1000) (y - 1000 * meanOf s.guy.atomWin)
        (guyCond s && s.guy.atomPresent && s.guy.atomLock)
      atomWin := [] } }) := by
  change execLearnWindowEnd y s = _
  simp only [execLearnWindowEnd, hup, Bool.not_true, Bool.false_eq_true, if_false]

theorem exec_atomAbsent (hup : timeUp s = true) :
    exec .atomAbsent s = .next (atomPresence false { s with guy := { s.guy with missEdges := 10 } }) := by
  change execAtomAbsent s = _
  rw [execAtomAbsent, if_pos hup]

/-! ## The ATOM UART parser -/

section
variable {u : GuyUart}

theorem exec_atomUartPoll (hu : s.guy.uart = some u) :
    exec .atomUartPoll s = .next { s with guy := { s.guy with
      queryOut := u.query, awaiting := true, uartMiss := s.guy.uartMiss + 1 } } := by
  change execAtomUartPoll s = _
  simp only [execAtomUartPoll, hu]

/-- A response without a temperature leaves the last reading and the count of missed polls, and gives the lock state (06 R127). -/
theorem exec_atomUartResponse_noTemp (hu : s.guy.uart = some u) (hawait : s.guy.awaiting = true) {bytes : List Byte}
    (hlen : u.respLen ≤ bytes.length) (htemp : uartTempOf u (bytes.take u.respLen) = none) :
    exec (.atomUartResponse bytes) s = .next (guyLevel { s with guy := { s.guy with
      awaiting := false,
      atomLock := ((bytes.take u.respLen).getD u.lockOfs 0#8 &&& u.lockMask != 0#8) != u.polarity } }) := by
  have htaken : (!s.guy.awaiting || decide (bytes.length < u.respLen)) = false := by simp [hawait, hlen]
  change execAtomUartResponse bytes s = _
  simp only [execAtomUartResponse, hu, htaken, htemp, Bool.false_eq_true, if_false]

end

/-! ## Temperature sources and saved models -/

/-- The interrupt of a source that a model uses, and its sticky bit, leave Guyline's state (06 R126). -/
theorem raise_sticky_if_guy (b : Bool) (n r : Nat) (v : Word) (s : State) :
    (if b then raise n (sticky r v s) else s).guy = s.guy := by
  cases b <;> simp

theorem exec_tempLost_die (hok : s.guy.dieTempOk = true) (hmiss : 3 ≤ s.guy.dieMiss) :
    ∃ t, exec (.tempLost false) s = .next t ∧ t.guy = { s.guy with dieTempOk := false } := by
  change ∃ t, execTempLost false s = _ ∧ _
  simp only [execTempLost, hok, hmiss, decide_true, Bool.and_self, Bool.not_true, Bool.false_eq_true, if_false]
  exact ⟨_, rfl, raise_sticky_if_guy _ _ _ _ _⟩

theorem exec_tempLost_uart (hok : s.guy.uartTempOk = true) (hmiss : 3 ≤ s.guy.uartMiss) :
    ∃ t, exec (.tempLost true) s = .next t ∧ t.guy = { s.guy with uartTempOk := false } := by
  change ∃ t, execTempLost true s = _ ∧ _
  simp only [execTempLost, hok, hmiss, decide_true, Bool.and_self, Bool.not_true, Bool.false_eq_true, if_false, if_true]
  exact ⟨_, rfl, raise_sticky_if_guy _ _ _ _ _⟩

theorem exec_guylineModelSave_due (hfw : s.sys.mgmtFwRunning = true) (hdue : s.guy.savedAt + 3600 ≤ s.aon.ophrs) :
    exec .guylineModelSave s = .next (guySave s) := by
  change execGuylineModelSave s = _
  simp only [execGuylineModelSave, hfw, hdue, decide_true, Bool.and_self, if_true]

/-! ## The holdover commands -/

theorem exec_icpHoldConfig {a : HoldConfigArgs} (h : Ready c 0x300 0 s) (hrsv : a.rsv = false) (hoos : 4 ≤ a.oosLimit.toNat)
    (hoos' : a.oosLimit.toNat ≤ 4000000) (hpol : a.policy.toNat ≤ 1) (hrank : a.learnRankMax.toNat ≤ 14) (hmin : 4 ≤ a.learnMin.toNat)
    (hmin' : a.learnMin.toNat ≤ 1000) (hrest : 1 ≤ a.learnRestore.toNat) (hrest' : a.learnRestore.toNat ≤ 100)
    (hspan : 1 ≤ a.tempSpan.toNat) (hspan' : a.tempSpan.toNat ≤ 100) :
    exec (.icpHoldConfig c a) s = ok c 0x300 [] (guyLevel { s with guy := { s.guy with
      oosLimit := a.oosLimit.toNat, policyContinue := a.policy == 1#8, learnRankMax := a.learnRankMax.toNat,
      learnMin := a.learnMin.toNat, learnRestore := a.learnRestore.toNat, tempSpan := a.tempSpan.toNat } }) := by
  have hnonzero : a.oosLimit ≠ 0#32 ∧ a.learnMin ≠ 0#16 ∧ a.learnRestore ≠ 0#8 ∧ a.tempSpan ≠ 0#8 := by
    refine ⟨?_, ?_, ?_, ?_⟩ <;> bv_omega
  change execIcpHoldConfig c a s = _
  simp only [execIcpHoldConfig, ok]
  refine icpDo_is h.1 (firstFail_ok ?checks) h.2 rfl rfl
  case checks =>
    simp [hrsv, hnonzero, hpol, outside_false hoos hoos', hrank, outside_false hmin hmin', hrest', hspan']

/-! ICP_HOLD_OSC_CONFIG passes its checks with the die's sensor as the source and a legal pair of oscillator and enable. -/

section
variable {a : HoldOscArgs} (h : Ready c 0x301 0 s) (hrsv : a.rsv = false) (hsrc : a.tempSrc = 0#8) (hu : 1 ≤ a.uY.toNat)
  (hnoise : 1 ≤ a.noiseY.toNat)
include h hrsv hsrc hu hnoise

theorem exec_icpHoldOscConfig_main (hosc : a.osc = 0#8) (hoff : a.enable = 0#8) :
    exec (.icpHoldOscConfig c a) s = ok c 0x301 [] { s with guy := { s.guy with main := s.guy.main.config a } } := by
  have hnonzero : a.uY ≠ 0#32 ∧ a.noiseY ≠ 0#32 := by constructor <;> bv_omega
  change execIcpHoldOscConfig c a s = _
  simp only [execIcpHoldOscConfig, ok]
  refine icpDo_is h.1 (firstFail_ok ?checks) h.2 (if_pos (by simp [hosc])) rfl
  case checks => simp [hrsv, hosc, hoff, hsrc, hnonzero]

/-- ATOM's validity asks for its enable, so the levels are taken anew (06 R133). -/
theorem exec_icpHoldOscConfig_atom (hen : a.enable.toNat ≤ 1) (hosc : a.osc = 1#8) :
    exec (.icpHoldOscConfig c a) s = ok c 0x301 [] (guyLevel { s with guy := { s.guy with
      atomEn := a.enable == 1#8, atom := s.guy.atom.config a } }) := by
  have hnonzero : a.uY ≠ 0#32 ∧ a.noiseY ≠ 0#32 := by constructor <;> bv_omega
  change execIcpHoldOscConfig c a s = _
  simp only [execIcpHoldOscConfig, ok]
  refine icpDo_is h.1 (firstFail_ok ?checks) h.2 (if_neg (by simp [hosc])) rfl
  case checks => simp [hrsv, hosc, hen, hsrc, hnonzero]

end

/-- The forty registers 0x0200-0x029F (06 R144). -/
theorem exec_icpHoldStatus (h : Ready c 0x302 160 s) : Reads (.icpHoldStatus c) c 0x302 160 s := by
  obtain ⟨htaken, hfits⟩ := h
  change ∃ p : List Byte, p.length = 160 ∧ execIcpHoldStatus c s = _
  exact ⟨_, by simp, icpGet_ok htaken (by simpa using hfits)⟩

/-- The models named start empty; the sticky bit of a reset is the only other effect (06 R134). -/
theorem exec_icpHoldReset {m a : Bool} (h : Ready c 0x303 0 s) (hsome : (m || a) = true) :
    ∃ t, exec (.icpHoldReset c m a false) s = ok c 0x303 [] t ∧
      t.guy = { s.guy with main := if m then s.guy.main.reset else s.guy.main, atom := if a then s.guy.atom.reset else s.guy.atom } := by
  have hnamed : (!m && !a) = false := by rw [← Bool.not_or, hsome]; rfl
  change ∃ t, execIcpHoldReset c m a false s = _ ∧ _
  simp only [execIcpHoldReset, ok]
  exact ⟨_, icpDo_is h.1 (firstFail_ok (by simp [hnamed])) h.2 rfl rfl, sticky_guy _ _ _⟩

/-- The lock byte and the temperature field, two bytes of a binary one, lie within the response (06 R143). -/
theorem exec_icpAtomUartConfig {a : AtomUartArgs} (h : Ready c 0x304 0 s) (hrsv : a.rsv = false) (hqlen : a.qlen.toNat ≤ 16)
    (hresp : 1 ≤ a.respLen.toNat) (hresp' : a.respLen.toNat ≤ 64) (hlock : a.lockOfs.toNat < a.respLen.toNat)
    (htemp : a.tempOfs.toNat + (if a.format.toNat ≤ 1 then 1 else 0) < a.respLen.toNat) (hfmt : a.format.toNat ≤ 2)
    (hscale : a.scale.toNat ≤ 2) (hpol : a.polarity.toNat ≤ 1) (hpoll : a.poll.toNat ≤ 60) (hbaud : a.baud.toNat ≤ 7) :
    exec (.icpAtomUartConfig c a) s = ok c 0x304 [] (guyLevel { s with guy := { s.guy with
      uart := uartOf a, atomLock := a.poll == 0#8 || s.guy.atomLock, awaiting := false, uartMiss := 0
      uartTempOk := s.guy.uartTempOk && a.poll != 0#8 } }) := by
  have hnonzero : a.respLen ≠ 0#8 := by bv_omega
  have hfirst : a.tempOfs.toNat < a.respLen.toNat := by omega
  have hfield : a.format.toNat ≤ 1 → a.tempOfs.toNat + 2 ≤ a.respLen.toNat := fun hbin => by
    rw [if_pos hbin] at htemp; omega
  change execIcpAtomUartConfig c a s = _
  simp only [execIcpAtomUartConfig, ok]
  refine icpDo_is h.1 (firstFail_ok ?checks) h.2 rfl rfl
  case checks =>
    simpa [hrsv, hqlen, hnonzero, hresp', hlock, hfirst, hfmt, hscale, hpol, hpoll, hbaud] using hfield

/-- Settles O12: one lemma for each event and command, two for TEMP_LOST and for ICP_HOLD_OSC_CONFIG. -/
theorem guylineCommands : Obligations.GuylineCommands := by
  intro c s
  exact ⟨exec_learnWindowEnd, exec_atomAbsent, fun u => exec_atomUartPoll,
    fun u hu hawait bytes => exec_atomUartResponse_noTemp hu hawait,
    exec_tempLost_die, exec_tempLost_uart, exec_guylineModelSave_due, fun a => exec_icpHoldConfig,
    fun a h hrsv hen hsrc hu hnoise => ⟨exec_icpHoldOscConfig_main h hrsv hsrc hu hnoise,
      exec_icpHoldOscConfig_atom h hrsv hsrc hu hnoise hen⟩,
    exec_icpHoldStatus, fun m a => exec_icpHoldReset, fun a => exec_icpAtomUartConfig⟩

end Sys2Proof.Proofs
end

