-- ==== Sys2Proof/Proofs/OutputCommands.lean ====
section
/-!
SUPPORT. The outputs' events: a ToD message on its line (07 R151), OE_TIMING (07 R154, 15 R335), the end of a calibration (07 R164);
the output commands (07 R164, R165), with the statement about them.
-/
namespace Sys2Proof.Proofs
open Sys2Proof Sys2Proof.Machine Sys2Proof.Claims Sys2Proof.Laws

variable {c : CmdRef} {s : State}

/-! ## ToD messages and OE_TIMING -/

theorem exec_todoutMessage {line : Fin 2} {at_ : Nat} {m : List Byte} (hup : timeUp s = true)
    (hpend : (s.mile.tod[line]).pending = some (at_, m)) (hk : tickOf s at_ ≤ s.time.bOdo + periodTicks) :
    exec (.todoutMessage line) s = .next { s with
      time := { s.time with odo := max s.time.odo (tickOf s at_) }
      mile := { s.mile with tod := s.mile.tod.set line.1 (if todRuns s s.mile.tod[line]
        then { s.mile.tod[line] with last := m, start := tickOf s at_, pending := none }
        else { s.mile.tod[line] with pending := none }) } } := by
  change execTodoutMessage line s = _
  simp only [execTodoutMessage, hup, hpend, hk.not_gt, Bool.not_true, Bool.false_eq_true, if_false]

/-- The level is the one wanted once the wait after a take is over (15 R335). -/
theorem exec_oeTimingChange {off : BitVec 16} {ck : Nat} {low : Bool} {s0 : State} (hlow : low = (!s.foot.peerOwn &&
      decide (max s.foot.peerOwnLowSince s.foot.takenAt + 25 * s.foot.oeNeedUs ≤ (atCk ck s).foot.ck)))
    (hs0 : s0 = { atCk ck s with foot := { (atCk ck s).foot with oeBlocked := s.foot.oeBlocked && !low } })
    (hup : timeUp s = true) (hwant : oeWanted s0 ≠ s.mile.oe) (hmoment : oeMoment s (s.time.bOdo + off.toNat) = true) :
    exec (.oeTimingChange off ck) s = .next (conflictCheck (setOe (oeWanted s0) (atTick off s0))) := by
  have hwant' : oeWanted s0 ≠ (atCk ck s).mile.oe := hwant
  have hchanges : (!timeUp s || oeWanted s0 == (atCk ck s).mile.oe || !oeMoment s (s.time.bOdo + off.toNat)) = false := by
    simp [hup, hwant', hmoment]
  change execOeTimingChange off ck s = _
  simp only [execOeTimingChange, ← hlow, ← hs0, hchanges, Bool.false_eq_true, if_false]

/-! ## The output commands -/

theorem beyond_false {v : Int} {m : Nat} (h : v.natAbs ≤ m) : beyond v m = false := decide_eq_false (by omega)

theorem exec_icpPpsConfig {a : PpsArgs} {k : Fin 4} (h : Ready c 0x400 0 s) (hrsv : a.rsv = false) (hout : a.out.toNat = k.1)
    (hen : a.enable.toNat ≤ 1) (hlo : 100 ≤ a.widthNs.toNat) (hhi : a.widthNs.toNat ≤ 500000000) (hstep : a.widthNs.toNat % 100 = 0)
    (hcable : a.cable.toInt.natAbs ≤ 100000) :
    exec (.icpPpsConfig c a) s = ok c 0x400 [] { s with mile := { s.mile with pps := upd s.mile.pps k fun p => { p with
      en := a.enable == 1#8, inv := a.inv, acqQuiet := a.acqQuiet, width := a.widthNs.toNat / 100, cable := a.cable.toInt } } } := by
  have hlast : a.out.toNat ≤ 3 := by omega
  have hwidth : a.widthNs.toNat ≠ 0 := by omega
  change execIcpPpsConfig c a s = _
  simp only [execIcpPpsConfig, ok]
  refine icpDo_is h.1 (firstFail_ok ?checks) h.2 (by rw [fin?_eq_some hout]) rfl
  case checks => simp [hrsv, hlast, hen, hwidth, hstep, hhi, beyond_false hcable]

/-- A change of F on a running output waits for the second boundary (07 R150). -/
theorem exec_icpFreqConfig {a : FreqArgs} {j : Fin 2} (h : Ready c 0x401 0 s) (hrsv : a.rsv = false) (hout : a.out.toNat = j.1)
    (hen : a.enable.toNat ≤ 1) (hstd : a.standard.toNat ≤ 1) (hlo : 1 ≤ a.hz.toNat) (hhi : a.hz.toNat ≤ 100000000)
    (hcable : a.cable.toInt.natAbs ≤ 100000) :
    exec (.icpFreqConfig c a) s = ok c 0x401 [] (outFollow { s with mile := { s.mile with freq := upd s.mile.freq j fun f => { f with
      en := a.enable == 1#8, hcsl := a.standard == 1#8, acqQuiet := a.acqQuiet, cable := a.cable.toInt,
      hz := if f.run then f.hz else a.hz.toNat,
      hzNext := if f.run && a.hz.toNat != f.hz then some a.hz.toNat else none } } }) := by
  have hlast : a.out.toNat ≤ 1 := by omega
  have hhz : a.hz ≠ 0#32 := by bv_omega
  change execIcpFreqConfig c a s = _
  simp only [execIcpFreqConfig, ok]
  refine icpDo_is h.1 (firstFail_ok ?checks) h.2 (by rw [fin?_eq_some hout]) rfl
  case checks => simp [hrsv, hlast, hen, hstd, hhz, hhi, beyond_false hcable]

theorem exec_icpTodConfig {a : TodArgs} {j : Fin 2} (h : Ready c 0x402 0 s) (hrsv : a.rsv = false) (hout : a.out.toNat = j.1)
    (hen : a.enable.toNat ≤ 1) (hscale : a.scale.toNat ≤ 1) (hlo : 10 ≤ a.delay.toNat) (hhi : a.delay.toNat ≤ 800)
    (hbaud : a.baud.toNat ≤ 7) :
    exec (.icpTodConfig c a) s = ok c 0x402 [] { s with mile := { s.mile with tod := upd s.mile.tod j fun l => { l with
      en := a.enable == 1#8, utc := a.scale == 1#8, baud := a.baud.toNat, delay := a.delay.toNat } } } := by
  have hlast : a.out.toNat ≤ 1 := by omega
  have hdelay : a.delay ≠ 0#16 := by bv_omega
  change execIcpTodConfig c a s = _
  simp only [execIcpTodConfig, ok]
  refine icpDo_is h.1 (firstFail_ok ?checks) h.2 (by rw [fin?_eq_some hout]) rfl
  case checks => simp [hrsv, hlast, hen, hscale, hdelay, outside_false hlo hhi, hbaud]

/-- Twenty registers from 0x0000 (07 R165). -/
theorem exec_icpOutStatus (h : Ready c 0x414 80 s) : Reads (.icpOutStatus c) c 0x414 80 s := by
  obtain ⟨htaken, hfits⟩ := h
  change ∃ p : List Byte, p.length = 80 ∧ execIcpOutStatus c s = _
  exact ⟨_, by simp, icpGet_ok htaken (by simpa using hfits)⟩

/-! ## Calibration -/

/-- Ending a channel's measurement delivers its result to the meter and the host, and leaves the outputs (08 R171). -/
theorem tdcCancel_mile (n : Fin 8) (s : State) : (tdcCancel n s).mile = s.mile :=
  (tdcCancel_moves (m := 852096) rfl (.refl _ _) n).mile rfl

theorem exec_icpOutCalibrate {a : OutCalArgs} {pin : Fin 16} (h : Taken c 0x403 s) (hrsv : a.rsv = false) (hfreq : a.freq.toNat ≤ 1)
    (hout : a.out.toNat ≤ if a.freq = 0#8 then 3 else 1) (hlo : 1 ≤ a.edges.toNat) (hhi : a.edges.toNat ≤ 1000)
    (hpin : a.pin.toNat = pin.1) (hdir : s.mile.evt[pin].dir = 2) (hfree : s.mile.outCal = none) :
    exec (.icpOutCalibrate c a) s = .next { tdcCancel 6 s with
      tdc := { (tdcCancel 6 s).tdc with ch6Held := true }
      mile := { s.mile with outCal := some {
        cmd := c, freq := a.freq == 1#8, out := a.out.toNat, pin := pin.1, cable := a.cable.toInt, edges := a.edges.toNat } } } := by
  have hedges : a.edges ≠ 0#32 := by bv_omega
  have hchecks : firstFail [
      (a.rsv || decide (1 < a.freq.toNat) || decide ((if a.freq = 0#8 then 3 else 1) < a.out.toNat) || a.edges == 0#32, stBadArg),
      (decide (1000 < a.edges.toNat), stRange), (s.mile.evt[pin].dir != 2, stOrder), (s.mile.outCal.isSome, stBusy)] = stOk :=
    firstFail_ok (by simpa [hrsv, hfreq, hout.not_gt, hedges, hhi, hfree] using hdir)
  change execIcpOutCalibrate c a s = _
  simp only [execIcpOutCalibrate]
  exact icp_later h (by simp only [fin?_eq_some hpin, hchecks, if_true, tdcCancel_mile])

section
variable {loop rms : Word} {w : OutCal} {t : State} (hcal : s.mile.outCal = some w)
  (ht : t = { onCh 6 (fun c => { c with arm := false, busy := false }) s with
    tdc := { (onCh 6 (fun c => { c with arm := false, busy := false }) s).tdc with ch6Held := false }
    mile := { s.mile with outCal := none } })
include hcal ht

/-- A loop delay within the range of R146 is stored as it is (07 R164). -/
theorem exec_outCalibrateDone_stores {pin : Fin 16} {d : Int} (hpin : w.pin = pin.1)
    (hd : d = loop.toInt - w.cable - s.mile.evt[pin].inDelay) (hlo : -100000 ≤ d) (hhi : d ≤ 100000) :
    exec (.outCalibrateDone loop rms true) s = ok w.cmd 0x403 (le 4 loop.toNat ++ le 4 rms.toNat ++ leI 4 d) (outDelaySet w d t) := by
  have hclamp : max (-100000) (min 100000 d) = d := by omega
  subst ht
  change execOutCalibrateDone loop rms true s = _
  simp only [execOutCalibrateDone, hcal, fin?_eq_some hpin, Option.elim_some, ← hd, hclamp, if_true]
  rfl

theorem exec_outCalibrateDone_noEdge :
    exec (.outCalibrateDone loop rms false) s = .next (complete w.cmd 0x403 stBusy [] t) := by
  subst ht
  change execOutCalibrateDone loop rms false s = _
  simp only [execOutCalibrateDone, hcal, Bool.false_eq_true, if_false]
  rfl

end

/-- Settles O14: one lemma for each event and command, two for OUT_CALIBRATE_DONE. -/
theorem outputCommands : Obligations.OutputCommands := by
  intro c s
  refine ⟨fun line at_ m k hup hpend hk hperiod => ?tod, fun off ck low s0 => exec_oeTimingChange, fun a k => exec_icpPpsConfig,
    fun a j => exec_icpFreqConfig, fun a j => exec_icpTodConfig,
    fun a pin h hrsv hfreq hout hlo hhi hpin hdir hfree =>
      ⟨_, exec_icpOutCalibrate h hrsv hfreq hout hlo hhi hpin hdir hfree, rfl, rfl⟩,
    fun loop rms w pin d t hcal hpin hd hlo hhi ht =>
      ⟨exec_outCalibrateDone_stores hcal ht hpin hd hlo hhi, exec_outCalibrateDone_noEdge hcal ht⟩,
    exec_icpOutStatus⟩
  case tod =>
    subst hk
    exact exec_todoutMessage hup hpend hperiod

end Sys2Proof.Proofs
end

