-- ==== Sys2Proof/Proofs/MilestoneCommands.lean ====
section
/-!
SUPPORT. Milestone's events: a trigger's edge (07 R155), a capture (07 R159, R160), a pop and a write of the channel's configuration
(07 R156, R163); the Milestone commands (07 R165), with the statement about them.
-/
namespace Sys2Proof.Proofs
open Sys2Proof Sys2Proof.Machine Sys2Proof.Claims Sys2Proof.Laws

variable {c : CmdRef} {s : State} {n : Fin 16}

/-! ## A channel after an update -/

theorem onEvt_evt_same (n : Fin 16) (f : EvtCh → EvtCh) (s : State) : (onEvt n f s).mile.evt[n] = f s.mile.evt[n] := by
  simp [onEvt, upd]

@[simp] theorem evtRaise_mile (n : Fin 16) (src : Nat) (s : State) : (evtRaise n src s).mile = s.mile := by
  unfold evtRaise
  split
  · exact raise_mile src s
  · rfl

/-! ## Triggers -/

theorem exec_milestoneFire {k : Int} (hup : timeUp s = true) (harm : s.mile.evt[n].armed = true) (hdir : s.mile.evt[n].dir = 1)
    (hpos : edgePos s s.mile.evt[n] = some k) (hperiod : k ≤ periodEnd s) :
    exec (.milestoneFire n) s =
      .next (mileEdge n k { s with time := { s.time with odo := max s.time.odo (k / 256).toNat } }) := by
  have hfires : (!timeUp s || !s.mile.evt[n].armed || s.mile.evt[n].dir != 1) = false := by
    rw [hup, harm, hdir]; rfl
  change execMilestoneFire n s = _
  simp only [execMilestoneFire, hfires, hpos, hperiod.not_gt, Bool.false_eq_true, if_false]

theorem exec_mileArmWrite {rd : Fin 9} {v : Word} (h : decideAccess s rd (evtReg n 0) true = .ok) :
    exec (.mileArmWrite rd n v) s = .next (mileCfgWrite n v (countReg rd 1 (evtReg n 0) s)) := by
  change execMileArmWrite rd n v s = _
  rw [execMileArmWrite, writeBy_ok _ h]

/-! ## Captures -/

/-- What EDGE lets through: rising edges, falling edges or both (07 R159). -/
theorem edge_chosen {edge : Nat} {falling : Bool} (h : edge = 2 ∨ (edge = 0 ∧ falling = false) ∨ (edge = 1 ∧ falling = true)) :
    (if edge = 0 then !falling else if edge = 1 then falling else true) = true := by
  obtain rfl | ⟨rfl, rfl⟩ | ⟨rfl, rfl⟩ := h <;> rfl

/-- Sixteen ticks, 128 eighths, after the last accepted edge the next is not a glitch (07 R159). -/
theorem edge_notTooClose {last : Option Nat} {pos : Nat} (h : ∀ p, last = some p → p + 128 ≤ pos) :
    (last.elim false fun a => decide (pos < a + 128)) = false := by
  cases last with
  | none => rfl
  | some p => exact decide_eq_false (h p rfl).not_gt

/-- The entry of an edge: counter and Odometer at the edge less IN_DELAY (07 R159). -/
def captureEntry (n : Fin 16) (off : BitVec 16) (eighth : BitVec 3) (falling : Bool) (s : State) : CapEntry :=
  let ps : Int := (off.toNat : Int) * 1280 + eighth.toNat * 160 - s.mile.evt[n].inDelay
  { cnt := cntPlus s.time.cnt (ps * rate s / 1280), odo := ((s.time.bOdo : Int) + ps / 1280).toNat, falling := falling
    mode := modeCode s.sys.mode }

/-- An entry joins the FIFO behind the entries there, and a first one raises MILE_CAPTURE (07 R160, R162). -/
theorem exec_evtCapture_stores {off : BitVec 16} {eighth : BitVec 3} {falling : Bool} (hup : timeUp s = true)
    (hdir : s.mile.evt[n].dir = 2)
    (hedge : s.mile.evt[n].edge = 2 ∨ (s.mile.evt[n].edge = 0 ∧ falling = false) ∨ (s.mile.evt[n].edge = 1 ∧ falling = true))
    (hgap : ∀ p, s.mile.evt[n].lastEdge = some p → p + 128 ≤ (s.time.bOdo + off.toNat) * 8 + eighth.toNat)
    (hroom : s.mile.evt[n].fifo.length < 16) :
    ∃ t, exec (.evtCapture n off eighth falling) s = .next t ∧
      t.mile.evt[n].fifo = s.mile.evt[n].fifo ++ [captureEntry n off eighth falling s] := by
  have htaken : (!timeUp s || s.mile.evt[n].dir != 2 ||
      !(if s.mile.evt[n].edge = 0 then !falling else if s.mile.evt[n].edge = 1 then falling else true)) = false := by
    rw [edge_chosen hedge, hup, hdir]; rfl
  change ∃ t, execEvtCapture n off eighth falling s = _ ∧ _
  simp only [execEvtCapture, htaken, edge_notTooClose hgap, hroom.not_ge, Bool.false_eq_true, if_false]
  refine ⟨_, rfl, ?fifo⟩
  case fifo => split <;> simp only [evtRaise_mile, onEvt_evt_same, atTick_mile, captureEntry]

/-- The head of the FIFO moves to the shadow registers, and its nanoseconds are the word read (07 R160). -/
theorem exec_capturePop_head {e : CapEntry} {l : List CapEntry} (h : decideAccess s 0 (evtReg n 0x20) false = .ok)
    (hfifo : s.mile.evt[n].fifo = e :: l) :
    exec (.capturePop 0 n) s = .next (give 0 (w32 (nsOf e.cnt))
      (onEvt n (fun x => { x with fifo := l, shadow := e, shadowValid := true }) (countReg 0 0 (evtReg n 0x20) s))) := by
  change execCapturePop 0 n s = _
  rw [execCapturePop, readBy_ok _ h]
  simp only [countReg_mile, hfifo]
  rfl

/-! ## Commands -/

theorem armFirst_length (a : MileArmArgs) (s : State) : (armFirst a s).length = 8 := by
  unfold armFirst
  split
  · cases fin? 16 a.pin.toNat with
    | none => exact zeros_length 8
    | some n => simp only [Option.elim_some]; split <;> simp
  · split
    · exact le_length _ _
    · split <;> exact le_length _ _

/-- The channel's registers are written; a TAI target is then held, and converted at once where its period's increment is fixed, and
any other schedule starts (07 R157, R158). -/
theorem exec_icpMileArm {a : MileArmArgs} {s1 : State} (h : Ready c 0x410 8 s) (hpin : a.pin.toNat = n.1)
    (hchecks : firstFail (armChecks a s) = stOk) (hs1 : s1 = onEvt n (fun e => { e with
      kind := a.kind.toNat, cont := a.cont, pol := a.pol, irq := a.irq, width := a.width.toNat, per := a.per
      perFrac := a.perFrac.setWidth 32, count := a.count.toNat }) s) :
    ∃ p, p.length = 8 ∧ exec (.icpMileArm c a) s = ok c 0x410 p (if a.tai
      then mileConvert n (onEvt n (fun e => { e with armed := false, tai := some (armTai a) }) s1)
      else mileStart n (onEvt n (fun e => { e with
        tgtLo := a.target.setWidth 32, tgtHi := w32 (bits a.target.toNat 47 32) }) s1)) := by
  subst hs1
  change ∃ p : List Byte, p.length = 8 ∧ execIcpMileArm c a s = _
  simp only [execIcpMileArm, ok]
  refine ⟨_, armFirst_length a _, icpDo_is h.1 hchecks ?fits (by rw [fin?_eq_some hpin]) rfl⟩
  case fits => rw [armFirst_length]; exact h.2

theorem exec_icpMileDisarm {pin : BitVec 8} (h : Ready c 0x411 0 s) (hpin : pin.toNat = n.1) :
    exec (.icpMileDisarm c pin false) s = ok c 0x411 [] (mileCancel n s) := by
  have hlast : pin.toNat ≤ 15 := by omega
  change execIcpMileDisarm c pin false s = _
  simp only [execIcpMileDisarm, ok]
  exact icpDo_is h.1 (firstFail_ok (by simp [hlast])) h.2 (by rw [fin?_eq_some hpin]) rfl

theorem exec_icpMileCaptureConfig {a : MileCapArgs} (h : Ready c 0x412 0 s) (hrsv : a.rsv = false) (hpin : a.pin.toNat = n.1)
    (hedge : a.edge.toNat ≤ 2) (hdir : s.mile.evt[n].dir = 2) (hdelay : a.inDelay.toInt.natAbs ≤ 100000) :
    exec (.icpMileCaptureConfig c a) s =
      ok c 0x412 [] (onEvt n (fun e => { e with edge := a.edge.toNat, irq := a.irq, inDelay := a.inDelay.toInt }) s) := by
  have hlast : a.pin.toNat ≤ 15 := by omega
  change execIcpMileCaptureConfig c a s = _
  simp only [execIcpMileCaptureConfig, ok]
  refine icpDo_is h.1 (firstFail_ok ?checks) h.2 (by rw [fin?_eq_some hpin]) rfl
  case checks => simpa [hrsv, hlast, hedge, fin?_eq_some hpin, beyond_false hdelay] using hdir

/-- The new rate and enable wait for the second boundary; an enabled epoch has a rate (07 R161). -/
theorem exec_icpEpochConfig {rate en : BitVec 8} (h : Ready c 0x413 0 s) (hen : en.toNat ≤ 1) (hrate : rate.toNat ≤ 50)
    (hsome : en = 1#8 → rate ≠ 0#8) : exec (.icpEpochConfig c rate en false) s =
      ok c 0x413 [] { s with mile := { s.mile with epochNext := some (rate.toNat, en == 1#8) } } := by
  have hrated : (rate == 0#8 && en == 1#8) = false := by simpa [imp_not_comm] using hsome
  change execIcpEpochConfig c rate en false s = _
  simp only [execIcpEpochConfig, ok]
  exact icpDo_is h.1 (firstFail_ok (by simp [hen, hrated, hrate])) h.2 rfl rfl

/-- Settles O15: one lemma for each event and command. -/
theorem milestoneCommands : Obligations.MilestoneCommands := by
  intro c s
  refine ⟨fun n k => exec_milestoneFire, fun n off eighth falling l hup hdir hedge hgap hl hroom => ?capture,
    fun n e l h hfifo => ⟨_, exec_capturePop_head h hfifo, ?fifo, ?shadow, ?valid, ?word⟩, fun rd n v => exec_mileArmWrite,
    fun a n s1 h hpin hchecks hs1 => ⟨fun htai => ?tai, fun htai => ?odometer⟩,
    fun pin n => exec_icpMileDisarm, fun a n => exec_icpMileCaptureConfig, fun rate en => exec_icpEpochConfig⟩
  case capture =>
    subst hl
    obtain ⟨t, hexec, hstored⟩ := exec_evtCapture_stores hup hdir hedge hgap hroom
    exact ⟨t, captureEntry n off eighth falling s, hexec, rfl, rfl, hstored⟩
  case fifo | shadow | valid => rw [give_mile, onEvt_evt_same]
  case tai | odometer => simpa only [htai, if_true, Bool.false_eq_true, if_false] using exec_icpMileArm h hpin hchecks hs1
  case word => exact Vector.getElem_set_self _

end Sys2Proof.Proofs
end

