-- ==== Sys2Proof/Proofs/IntervalMeter.lean ====
section
/-!
SUPPORT. The interval meter's events: results and timeouts (08 R172, R173), the delay-locked loops (08 R168), a line's calibration
(08 R167), the monitors of FREQIN0 and FREQIN1 (08 R174), a write of a channel's configuration and a pop of its FIFO (08 R176,
R177); the meter's commands (08 R178, R179), with the statement about them.
-/
namespace Sys2Proof.Proofs
open Sys2Proof Sys2Proof.Machine Sys2Proof.Claims Sys2Proof.Laws

variable {c : CmdRef} {s : State} {ch : Fin 8}

/-! ## A channel after an update -/

theorem onCh_ch_same (n : Fin 8) (f : TdcCh → TdcCh) (s : State) : (onCh n f s).tdc.ch[n] = f s.tdc.ch[n] := by
  simp [onCh, upd]

/-! ## Results and timeouts -/

/-- An armed channel gives its results; a calibration of the outputs keeps them from channel 6 and from no other (08 R171). -/
theorem tdcGives (hup : timeUp s = true) (harm : (tdcCh s ch).arm = true) (hfree : ch = 6 → s.tdc.ch6Held = false) :
    (!timeUp s || !(tdcCh s ch).arm || (ch == 6 && s.tdc.ch6Held)) = false := by
  simpa [hup, harm] using hfree

theorem exec_tdcResult (hup : timeUp s = true) (d : Int) (g b : Bool) (harm : (tdcCh s ch).arm = true)
    (hfree : ch = 6 → s.tdc.ch6Held = false) :
    exec (.tdcResult ch d g b) s = .next (tdcGive ch (tdcOutcome (tdcCh s ch)
      (s.tdc.tbSeen && decide (s.tdc.tbGoneAt + d.natAbs / 1280000 ≤ s.time.odo))
      (if (tdcCh s ch).freq then d else d - (tdcCh s ch).skew * 1000) g b) s) := by
  change execTdcResult ch d g b s = _
  simp only [execTdcResult, tdcGives hup harm hfree, Bool.false_eq_true, if_false]

/-- TDC_TIMEOUT is a source of the general channels alone: a user's channel in lock gets the result of outcome TIMEOUT (08 R173, R176). -/
theorem exec_tdcTimeout_user (hup : timeUp s = true) (harm : (tdcCh s ch).arm = true) (huser : ch.1 < 6)
    (hlock : (tdcCh s ch).dllLock = true) (hgood : (tdcCh s ch).dllBad = false) :
    exec (.tdcTimeout ch) s = .next (tdcGive ch (tdcEmpty 1) s) := by
  have hfree : ch = 6 → s.tdc.ch6Held = false := by rintro rfl; exact absurd huser (by decide)
  change execTdcTimeout ch s = _
  simp only [execTdcTimeout, tdcGives hup harm hfree, hlock, hgood, huser.not_ge, decide_false, Bool.not_true, Bool.or_false,
    Bool.false_and, Bool.false_eq_true, if_false]

/-! ## The delay-locked loops and the timebase -/

theorem exec_tdcDllUnlock (hup : timeUp s = true) (hlock : s.tdc.ch[ch].dllLock = true) :
    exec (.tdcDllUnlock ch) s = .next (raise 89 (dllFault (sticky 0x60004 (1#32 <<< (16 + ch.1))
      (onCh ch (fun c => { c with dllLock := false, dllOut := true, dllBad := true }) s)))) := by
  change execTdcDllUnlock ch s = _
  simp only [execTdcDllUnlock, hup, hlock, Bool.not_true, Bool.or_false, Bool.false_eq_true, if_false]

/-- TDC_DLL_LOCK's source rises for a lock regained, not for the first one (08 R166, R168). -/
theorem exec_tdcDllLock {u : State} (hup : timeUp s = true) (hlock : s.tdc.ch[ch].dllLock = false)
    (hu : u = dllFault (onCh ch (fun c => { c with dllLock := true, dllOut := false }) s)) :
    exec (.tdcDllLock ch) s = .next (if s.tdc.ch[ch].dllOut then raise 90 u else u) := by
  subst hu
  change execTdcDllLock ch s = _
  simp only [execTdcDllLock, hup, hlock, Bool.not_true, Bool.or_false, Bool.false_eq_true, if_false]

theorem exec_tdcCalibration_due (hup : timeUp s = true)
    (hdue : s.tdc.lines[ch].getLastD 0 + s.tdc.calPeriod * tickSec ≤ s.time.odo) :
    exec (.tdcCalibration ch) s =
      .next { s with tdc := { s.tdc with lines := upd s.tdc.lines ch fun l => l.drop 1 ++ [s.time.odo] } } := by
  change execTdcCalibration ch s = _
  simp only [execTdcCalibration, hup, hdue.not_gt, decide_false, Bool.not_true, Bool.or_false, Bool.false_eq_true, if_false]

/-- FREQIN0 is the timebase's presence while the timebase is enabled (08 R174). -/
theorem exec_timebasePresence_freqin0 (hup : timeUp s = true) (p : Bool) :
    exec (.timebasePresence 0 p) s = .next (tbPresence (p && s.tdc.tbEn) { s with tdc := { s.tdc with
      tbSeen := p, tbGoneAt := if s.tdc.tbSeen && !p then s.time.odo else s.tdc.tbGoneAt } }) := by
  change execTimebasePresence 0 p s = _
  simp only [execTimebasePresence, hup, Bool.not_true, Bool.false_eq_true, if_false, if_true]

theorem exec_timebasePresence_freqin1 (hup : timeUp s = true) (p : Bool) :
    exec (.timebasePresence 1 p) s = .next { s with tdc := { s.tdc with f1Present := p } } := by
  change execTimebasePresence 1 p s = _
  simp only [execTimebasePresence, hup, Bool.not_true, Bool.false_eq_true, one_ne_zero, if_false]

/-! ## Registers -/

theorem exec_tdcArmWrite {rd : Fin 9} {v : Word} (h : decideAccess s rd (chReg ch 0) true = .ok) :
    exec (.tdcArmWrite rd ch v) s = .next (tdcCfgWrite ch v (countReg rd 1 (chReg ch 0) s)) := by
  change execTdcArmWrite rd ch v s = _
  rw [execTdcArmWrite, writeBy_ok _ h]

/-- The head of the FIFO moves to the shadow registers, and the low word of its value is the word read (08 R176). -/
theorem exec_tdcResultPop_head {r : TdcRes} {l : List TdcRes} (h : decideAccess s 0 (chReg ch 0xC) false = .ok)
    (hfifo : s.tdc.ch[ch].fifo = r :: l) :
    exec (.tdcResultPop 0 ch) s = .next (give 0 (w32 (twos 32 r.value))
      (onCh ch (fun c => { c with fifo := l, shadow := r, shadowValid := true }) (countReg 0 0 (chReg ch 0xC) s))) := by
  change execTdcResultPop 0 ch s = _
  rw [execTdcResultPop, readBy_ok _ h]
  simp only [countReg_tdc, hfifo]
  rfl

/-! ## Commands -/

/-- A stop source is named and differs from the start source: a set-up that every mode takes (08 R179). -/
theorem exec_icpTdcConfig {a : TdcArgs} {n : Fin 8} (h : Ready c 0x420 0 s) (hrsv : a.rsv = false) (hch : generalCh a.ch = some n)
    (hmode : a.mode.toNat ≤ 2) (hstart : tdcSource a.start.toNat = true) (hstop : tdcSource a.stop.toNat = true)
    (hstart0 : a.start ≠ 0#8) (hstop0 : a.stop ≠ 0#8) (hdiff : a.start ≠ a.stop) (htime : 1 ≤ a.timeout.toNat)
    (htime' : a.timeout.toNat ≤ 2000000) (hn : 1 ≤ a.n.toNat) (hn' : a.n.toNat ≤ 16777215) (hfree : ch6Busy s a.ch = false) :
    exec (.icpTdcConfig c a) s = ok c 0x420 [] (onCh n (fun c => { c with
        cont := a.cont, irq := a.irq, startFall := a.startFall, stopFall := a.stopFall, timeout := a.timeout.toNat, count := a.n.toNat })
      (tdcSet n (fun c => { c with
        mode := a.mode.toNat, startSrc := a.start.toNat, stopSrc := a.stop.toNat, tbInternal := a.internal }) s)) := by
  have hnonzero : a.timeout ≠ 0#32 ∧ a.n ≠ 0#32 := by constructor <;> bv_omega
  change execIcpTdcConfig c a s = _
  simp only [execIcpTdcConfig, ok]
  refine icpDo_is h.1 (firstFail_ok ?checks) h.2 (by rw [hch]) rfl
  case checks => simp [hrsv, hch, hmode, hstart, hstop, hstart0, hstop0, hdiff, hnonzero, htime', hn', hfree]

/-- An idle channel with a legal set-up is armed, and the command waits for its result (08 R178). -/
theorem exec_icpTdcMeasure_arms {v : BitVec 8} {n : Fin 8} {k : Fin 2} (h : Taken c 0x421 s) (hch : generalCh v = some n)
    (hk : measureIdx n = some k) (hset : s.tdc.ch[n].armBad = false) (hfree : ch6Busy s v = false) (hidle : s.tdc.ch[n].arm = false)
    (hnone : s.tdc.measure[k] = none) :
    exec (.icpTdcMeasure c v false) s =
      .next (tdcArm n { s with tdc := { s.tdc with measure := s.tdc.measure.set k.1 (some c) } }) := by
  have hbusy : (ch6Busy s v || s.tdc.ch[n].arm || s.tdc.measure[k].isSome) = false := by rw [hfree, hidle, hnone]; rfl
  change execIcpTdcMeasure c v false s = _
  simp only [execIcpTdcMeasure]
  exact icp_later h (by simp only [hch, Option.bind_some, hk, hbusy, hset, Bool.false_eq_true, if_false])

theorem exec_icpTdcTimebase_on {code : BitVec 8} (h : Ready c 0x422 0 s) (hcode : code.toNat ≤ 3) :
    exec (.icpTdcTimebase c 1#8 code false) s =
      ok c 0x422 [] { s with tdc := { s.tdc with tbEn := true, tbNom := code.toNat } } := by
  change execIcpTdcTimebase c 1#8 code false s = _
  simp only [execIcpTdcTimebase, ok]
  exact icpDo_is h.1 (firstFail_ok (by simp [hcode])) h.2 rfl rfl

/-- A disabled timebase is not present (08 R174). -/
theorem exec_icpTdcTimebase_off {code : BitVec 8} (h : Ready c 0x422 0 s) (hcode : code.toNat ≤ 3) :
    exec (.icpTdcTimebase c 0#8 code false) s =
      ok c 0x422 [] (tbPresence false { s with tdc := { s.tdc with tbEn := false, tbNom := code.toNat } }) := by
  change execIcpTdcTimebase c 0#8 code false s = _
  simp only [execIcpTdcTimebase, ok]
  exact icpDo_is h.1 (firstFail_ok (by simp [hcode])) h.2 rfl rfl

theorem exec_icpTdcCalConfig {n : BitVec 16} (h : Ready c 0x423 0 s) (hlo : 1 ≤ n.toNat) (hhi : n.toNat ≤ 3600) :
    exec (.icpTdcCalConfig c n false) s = ok c 0x423 [] { s with tdc := { s.tdc with calPeriod := n.toNat } } := by
  have hn : n ≠ 0#16 := by bv_omega
  change execIcpTdcCalConfig c n false s = _
  simp only [execIcpTdcCalConfig, ok]
  exact icpDo_is h.1 (firstFail_ok (by simp [hn, hhi])) h.2 rfl rfl

theorem exec_icpTdcSkew {v : BitVec 8} {n : Fin 8} {k : Word} (h : Ready c 0x424 0 s) (hch : v.toNat = n.1)
    (hskew : k.toInt.natAbs ≤ 32767) :
    exec (.icpTdcSkew c v k false) s = ok c 0x424 [] (onCh n (fun c => { c with skew := k.toInt }) s) := by
  have hlast : v.toNat ≤ 7 := by omega
  change execIcpTdcSkew c v k false s = _
  simp only [execIcpTdcSkew, ok]
  exact icpDo_is h.1 (firstFail_ok (by simp [hlast, beyond_false hskew])) h.2 (by rw [fin?_eq_some hch]) rfl

/-- Eleven registers: TDC_STAT, TDC_TB_CFG, TDC_CAL_CFG and the TDC_CHn_STAT of the eight channels (08 R178). -/
theorem exec_icpTdcStatus (h : Ready c 0x425 44 s) : Reads (.icpTdcStatus c) c 0x425 44 s := by
  obtain ⟨htaken, hfits⟩ := h
  change ∃ p : List Byte, p.length = 44 ∧ execIcpTdcStatus c s = _
  exact ⟨_, by simp, icpGet_ok htaken (by simpa using hfits)⟩

/-- Settles O13: one lemma for each event and command, two for TIMEBASE_PRESENCE and for ICP_TDC_TIMEBASE. -/
theorem intervalMeter : Obligations.IntervalMeter := by
  intro c s
  refine ⟨fun hup ch d g b => exec_tdcResult hup d g b, fun hup ch => exec_tdcTimeout_user hup, fun hup ch => exec_tdcDllUnlock hup,
    fun hup ch hlock u => exec_tdcDllLock hup hlock, fun hup ch => exec_tdcCalibration_due hup,
    fun hup p => ⟨exec_timebasePresence_freqin0 hup p, exec_timebasePresence_freqin1 hup p⟩, fun rd ch v => exec_tdcArmWrite,
    fun ch r l h hfifo => ⟨_, exec_tdcResultPop_head h hfifo, ?fifo, ?shadow, ?word⟩, fun a n => exec_icpTdcConfig,
    fun v n k => exec_icpTdcMeasure_arms, fun code h hcode => ⟨exec_icpTdcTimebase_on h hcode, exec_icpTdcTimebase_off h hcode⟩,
    fun n => exec_icpTdcCalConfig, fun v n k => exec_icpTdcSkew, exec_icpTdcStatus⟩
  case fifo | shadow => rw [give_tdc, onCh_ch_same]
  case word => exact Vector.getElem_set_self _

end Sys2Proof.Proofs
end

