-- ==== Sys2Proof/Proofs/CalibrationHold.lean ====
section
/-!
SUPPORT. Channel 6 of the interval meter while ICP_OUT_CALIBRATE runs (08 R171): the measurement it ends, the commands and writes
that find the channel held, and the end of the hold, with the statement about them.
-/
namespace Sys2Proof.Proofs
open Sys2Proof Sys2Proof.Machine Sys2Proof.Claims Sys2Proof.Laws

variable {c : CmdRef} {s : State}

/-! ## Taking the channel -/

/-- A measurement in progress ends with CANCELLED, or with FAULT where the loop is or was out of lock (08 R168, R171, R173). -/
theorem tdcCancel_busy {n : Fin 8} (hbusy : s.tdc.ch[n].busy = true) :
    tdcCancel n s = tdcDeliver n (tdcEmpty (if s.tdc.ch[n].dllLock = true ∧ s.tdc.ch[n].dllBad = false then 4 else 3))
      (onCh n (fun c => { c with arm := false, busy := false, dllBad := false }) s) := by
  rw [tdcCancel, if_pos hbusy]
  cases s.tdc.ch[n].dllLock <;> cases s.tdc.ch[n].dllBad <;> rfl

theorem tdcCancel_idle {n : Fin 8} (hidle : s.tdc.ch[n].busy = false) :
    tdcCancel n s = onCh n (fun c => { c with arm := false }) s := by
  simp only [tdcCancel, hidle, Bool.false_eq_true, if_false]

/-- OUTCOME stands in bits 3:1 of the flags (08 TDC_CHn_FLAGS). -/
theorem tdcEmpty_outcome {k : Nat} (h : k = 4 ∨ k = 3) : (tdcEmpty k).flags.toNat / 2 % 8 = k := by
  obtain rfl | rfl := h <;> decide

/-! ## While the channel is held -/

/-- A command that answers a status of its own other than OK and DENIED completes with it and no payload (18 R404). -/
theorem icp_fails {op st : Nat} {p : List Byte} {body : State → IcpRes} {t : State} (h : Taken c op s) (hb : body s = .done st p t)
    (hok : st ≠ stOk) (hden : st ≠ stDenied) (hop : op ≠ 0x100) : icp c op body s = .next (complete c op st [] t) := by
  simp [icp, h.1, h.2, hb, hok, hden, hop]

/-- Arguments that fail no other check leave BUSY as the status (08 R171, R179). -/
theorem exec_icpTdcConfig_held {a : TdcArgs} (hheld : s.tdc.ch6Held = true) (h : Taken c 0x420 s) (hrsv : a.rsv = false)
    (hch : a.ch = 6#8) (hmode : a.mode.toNat ≤ 2) (hstart : tdcSource a.start.toNat = true) (hstop : tdcSource a.stop.toNat = true)
    (hstart0 : a.start ≠ 0#8) (hstop0 : a.stop = 0#8 → a.mode = 2#8) (hdiff : a.start ≠ a.stop ∨ a.startFall ≠ a.stopFall)
    (htime : a.timeout ≠ 0#32) (hn : a.mode = 2#8 → a.n ≠ 0#32) (htime' : a.timeout.toNat ≤ 2000000) (hn' : a.n.toNat ≤ 16777215) :
    exec (.icpTdcConfig c a) s = .next (complete c 0x420 stBusy [] s) := by
  have hsources : (decide (2 < a.mode.toNat) || !tdcSource a.start.toNat || !tdcSource a.stop.toNat || a.start == 0#8 ||
      (a.stop == 0#8 && !(a.mode == 2#8)) || (a.start == a.stop && a.startFall == a.stopFall)) = false := by
    simpa [hmode, hstart, hstop, hstart0, ← imp_iff_not_or] using ⟨hstop0, fun heq => hdiff.resolve_left (not_not_intro heq)⟩
  have hcounts : (a.timeout == 0#32 || (a.n == 0#32 && a.mode == 2#8)) = false := by
    simpa [htime] using fun h0 h2 => hn h2 h0
  change execIcpTdcConfig c a s = _
  simp only [execIcpTdcConfig]
  refine icpDo_fails (st := stBusy) h ?checks (by decide) (by decide) (by decide)
  case checks => simp [firstFail, hrsv, hch, generalCh, hsources, hcounts, htime', hn', ch6Busy, hheld]

theorem exec_icpTdcMeasure_held (hheld : s.tdc.ch6Held = true) (h : Taken c 0x421 s) :
    exec (.icpTdcMeasure c 6#8 false) s = .next (complete c 0x421 stBusy [] s) := by
  have hbusy : ch6Busy s 6#8 = true := hheld
  change execIcpTdcMeasure c 6#8 false s = _
  simp only [execIcpTdcMeasure]
  refine icp_fails (st := stBusy) (p := []) h ?busy (by decide) (by decide) (by decide)
  case busy => simp [generalCh, measureIdx, fin?, hbusy]

theorem tdcCfgWrite_held (hheld : s.tdc.ch6Held = true) (v : Word) : tdcCfgWrite 6 v s = s := by
  simp [tdcCfgWrite, hheld]

/-! ## The end of the hold -/

@[simp] theorem outDelaySet_tdc (o : OutCal) (d : Int) (s : State) : (outDelaySet o d s).tdc = s.tdc := by
  unfold outDelaySet
  split <;> split <;> rfl

@[simp] theorem outDelaySet_outCal (o : OutCal) (d : Int) (s : State) : (outDelaySet o d s).mile.outCal = s.mile.outCal := by
  unfold outDelaySet
  split <;> split <;> rfl

/-- The state in which a calibration has ended: channel 6 idle and free (08 R171). -/
def calibrationEnded (s : State) : State :=
  { onCh 6 (fun c => { c with arm := false, busy := false }) s with
    tdc := { (onCh 6 (fun c => { c with arm := false, busy := false }) s).tdc with ch6Held := false }
    mile := { s.mile with outCal := none } }

theorem calibrationEnded_ch6 (s : State) :
    (calibrationEnded s).tdc.ch[(6 : Fin 8)] = { s.tdc.ch[(6 : Fin 8)] with arm := false, busy := false } :=
  onCh_ch_same 6 _ s

/-- A calibration ends with a new OUT_DELAY, or with BUSY where no edge returned (07 R164). -/
theorem exec_outCalibrateDone_cases {w : OutCal} (hcal : s.mile.outCal = some w) (loop rms : Word) (b : Bool) :
    ∃ p st u, exec (.outCalibrateDone loop rms b) s = .next (complete w.cmd 0x403 st p u) ∧
      (u = calibrationEnded s ∨ ∃ d, u = outDelaySet w d (calibrationEnded s)) := by
  change ∃ p st u, execOutCalibrateDone loop rms b s = _ ∧ _
  cases b with
  | false => exact ⟨[], stBusy, _, exec_outCalibrateDone_noEdge hcal rfl, .inl rfl⟩
  | true =>
    simp only [execOutCalibrateDone, hcal, if_true]
    exact ⟨_, _, _, rfl, .inr ⟨_, rfl⟩⟩

/-- Settles O42: one lemma for the measurement that ends, for each access that finds the channel held, and for the end of the hold. -/
theorem calibrationHoldsChannel6 : Obligations.CalibrationHoldsChannel6 := by
  intro c s
  refine ⟨fun a pin h hrsv hfreq hout hlo hhi hpin hdir hfree => ?takes, fun hheld => ⟨fun a => exec_icpTdcConfig_held hheld,
    exec_icpTdcMeasure_held hheld, fun rd v h => ?write⟩, fun hcal loop rms b => ?ends⟩
  case takes =>
    have hexec := exec_icpOutCalibrate h hrsv hfreq hout hlo hhi hpin hdir hfree
    refine ⟨_, fun hbusy u k hk hu => ⟨?cancelled, tdcEmpty_outcome ?outcome⟩, fun hidle => ⟨_, hexec, rfl, rfl, ?disarmed⟩⟩
    case cancelled =>
      have hcancel : tdcCancel 6 s = u := by rw [hu, hk]; exact tdcCancel_busy hbusy
      have hmile : u.mile = s.mile := hcancel ▸ tdcCancel_mile 6 s
      rw [hexec, hcancel, hmile]
    case outcome => rw [hk]; exact ite_eq_or_eq ..
    case disarmed =>
      simp only [tdcCancel_idle hidle]
      exact congrArg TdcCh.arm (onCh_ch_same 6 _ s)
  case write =>
    have hheld' : (countReg rd 1 (chReg 6 0) s).tdc.ch6Held = true := by rw [countReg_tdc, hheld]
    rw [exec_tdcArmWrite h, tdcCfgWrite_held hheld']
  case ends =>
    obtain ⟨w, hw⟩ := Option.ne_none_iff_exists'.mp hcal
    obtain ⟨p, st, u, hexec, hu⟩ := exec_outCalibrateDone_cases hw loop rms b
    have hended : u.tdc = (calibrationEnded s).tdc ∧ u.mile.outCal = none := by
      obtain rfl | ⟨d, rfl⟩ := hu
      · exact ⟨rfl, rfl⟩
      · exact ⟨outDelaySet_tdc .., outDelaySet_outCal ..⟩
    obtain ⟨htdc, hcleared⟩ := hended
    refine ⟨_, hexec, by rw [complete_mile, hcleared], ?_, ?_, ?_⟩ <;> rw [complete_tdc, htdc]
    · rfl
    · rw [calibrationEnded_ch6]
    · rw [calibrationEnded_ch6]

end Sys2Proof.Proofs
end

