-- ==== Sys2Proof/Proofs/GnssChannels.lean ====
section
/-!
SUPPORT. A GNSS channel between its writes: what a write of CH_CTRL does to EN, RUN and CFG_ERR (09 R195, R199), with the statement
about a channel enabled with a reserved component; and the boundary that comes next (09 R193).
-/
namespace Sys2Proof.Proofs
open Sys2Proof Sys2Proof.Machine Sys2Proof.Claims Sys2Proof.Laws

variable {c : GnssCh} {s : State} {ch : Fin 128} {v : Word}

/-! ## CH_CTRL -/

theorem onChan_chans_same (n : Fin 128) (f : GnssCh → GnssCh) (s : State) : (onChan n f s).gnss.chans[n] = f s.gnss.chans[n] := by
  simp [onChan, upd]

/-- EN is the bit written, whatever the channel was before. -/
theorem ctrlWrite_en (now : Nat) (v : Word) (c : GnssCh) : (c.ctrlWrite now v).en = v.getLsbD 0 := by
  cases hen : c.en <;> cases hv : v.getLsbD 0 <;> simp only [GnssCh.ctrlWrite, hen, hv]
  case false.false | true.false => rfl
  case false.true | true.true =>
    simp only [Bool.not_true, Bool.false_eq_true, if_false, if_true]
    split <;> rfl

/-- A write with EN set neither starts nor stops a channel that is enabled (09 R199). -/
theorem ctrlWrite_run_of_enabled (now : Nat) (hen : c.en = true) (hv : v.getLsbD 0 = true) : (c.ctrlWrite now v).run = c.run := by
  simp only [GnssCh.ctrlWrite, hen, hv, if_true]
  split <;> rfl

/-- A reserved component or a PRN outside its range leaves the channel that the write enables stopped, with CFG_ERR (09 R195). -/
theorem ctrlWrite_of_badComponent (now : Nat) (hen : c.en = false) (hv : v.getLsbD 0 = true)
    (hbad : sigOk (bits v.toNat 7 4) (bits v.toNat 13 8) = false) :
    (c.ctrlWrite now v).run = false ∧ (c.ctrlWrite now v).cfgErr = true := by
  simp only [GnssCh.ctrlWrite, hen, hv, hbad, Bool.false_eq_true, if_false, Bool.not_true, Bool.not_false, Bool.or_true, and_self]

theorem exec_channelEnable (hup : gnssUp s = true) (ch : Fin 128) (v : Word) (w : List (BitVec 9 × Word)) :
    exec (.channelEnable ch v w) s = .next (onChan ch (fun c => (c.stage w).ctrlWrite (scntNow s) v) s) := by
  change execChannelEnable ch v w s = _
  rw [execChannelEnable, if_pos hup]

theorem exec_channelApply (hup : gnssUp s = true) (ch : Fin 128) (w : List (BitVec 9 × Word)) :
    exec (.channelApply ch w) s = .next (onChan ch (fun c => { c.stage w with pending := true }) s) := by
  change execChannelApply ch w s = _
  rw [execChannelApply, if_pos hup]

/-- Settles O45: what a write of CH_CTRL makes of EN and RUN, by the channel's EN before it; APPLY touches neither. -/
theorem badComponentStaysStopped : Obligations.BadComponentStaysStopped := by
  intro s ch v w hup
  have henable := exec_channelEnable hup ch v w
  refine ⟨fun hoff hv hbad => ⟨_, henable, ?bad⟩, fun hon hstopped =>
    ⟨fun hv => ⟨_, henable, ?kept⟩, fun hv => ⟨_, henable, ?ended⟩, ⟨_, exec_channelApply hup ch w, ?applied⟩⟩⟩ <;>
    rw [onChan_chans_same]
  case bad => exact ⟨by rw [ctrlWrite_en, hv], ctrlWrite_of_badComponent _ hoff hv hbad⟩
  case kept => exact ⟨by rw [ctrlWrite_en, hv], (ctrlWrite_run_of_enabled (c := s.gnss.chans[ch].stage w) _ hon hv).trans hstopped⟩
  case ended => rw [ctrlWrite_en, hv]
  case applied => exact ⟨hon, hstopped⟩

/-! ## The boundary that comes next -/

theorem nextBoundary_dump {k : Nat} (h : c.samplesToDump = some k) (hk : c.since + k ≤ 125000) : c.nextBoundary = (k, false) := by
  simp only [GnssCh.nextBoundary, h, hk, if_true]

theorem nextBoundary_forced (h : ∀ k, c.samplesToDump = some k → 125000 < c.since + k) :
    c.nextBoundary = (125000 - c.since, true) := by
  unfold GnssCh.nextBoundary
  split
  next k hk => exact if_neg (h k hk).not_ge
  next => rfl

/-- A running channel whose record is the first of its cluster dumps at its boundary (09 R193, R197). -/
theorem boundaryOf_next {k : Nat} {forced : Bool} (hclock : chanClock s ch = true) (hrun : s.gnss.chans[ch].run = true)
    (hfirst : firstInCycle s ch = true) (hnext : s.gnss.chans[ch].nextBoundary = (k, forced)) (l : List (BitVec 4)) :
    boundaryOf ch forced l s =
      dumpAt ch k forced (s.gnss.chans[ch].laneSums s.gnss.fe[sigStream s.gnss.chans[ch].sig] k l) s := by
  have hworks : chanWorks s ch = true := by rw [chanWorks, hclock, hrun]; rfl
  simp only [boundaryOf, hnext, hworks, hfirst, bne_self_eq_false, Bool.not_true, Bool.or_self, Bool.false_eq_true, if_false]

end Sys2Proof.Proofs
end

