-- ==== Sys2Proof/Proofs/BasebandCommands.lean ====
section
/-!
SUPPORT. The GNSS baseband's events: boundaries (09 R193), a front-end period (09 R183), the end of an SPI transaction (09 R185); its
commands (09 R201), with the statement about them.
-/
namespace Sys2Proof.Proofs
open Sys2Proof Sys2Proof.Machine Sys2Proof.Claims Sys2Proof.Laws

variable {c : CmdRef} {s : State}

/-! ## Events -/

section
variable {ch : Fin 128} (hclock : chanClock s ch = true) (hrun : s.gnss.chans[ch].run = true) (hfirst : firstInCycle s ch = true)
include hclock hrun hfirst

theorem exec_dumpBoundary {k : Nat} (l : List (BitVec 4)) (hdump : s.gnss.chans[ch].samplesToDump = some k)
    (hk : s.gnss.chans[ch].since + k ≤ 125000) : exec (.dumpBoundary ch l) s =
      .next (dumpAt ch k false (s.gnss.chans[ch].laneSums s.gnss.fe[sigStream s.gnss.chans[ch].sig] k l) s) :=
  congrArg Host.Outcome.next (boundaryOf_next hclock hrun hfirst (nextBoundary_dump hdump hk) l)

theorem exec_forcedBoundary (l : List (BitVec 4))
    (hlate : ∀ k, s.gnss.chans[ch].samplesToDump = some k → 125000 < s.gnss.chans[ch].since + k) : exec (.forcedBoundary ch l) s =
      .next (dumpAt ch (125000 - s.gnss.chans[ch].since) true
        (s.gnss.chans[ch].laneSums s.gnss.fe[sigStream s.gnss.chans[ch].sig] (125000 - s.gnss.chans[ch].since) l) s) :=
  congrArg Host.Outcome.next (boundaryOf_next hclock hrun hfirst (nextBoundary_forced hlate) l)

end

/-- The interrupt and the fault of STUCK leave the baseband as the period's counts made it (09 R183). -/
theorem exec_feMagPeriod (hup : gnssUp s = true) (hclk : s.gnss.clkEn = true) (st : Fin 2) (l : List (BitVec 4)) :
    ∃ t, exec (.feMagPeriod st l) s = .next t ∧
      t.gnss = { s.gnss with fe := s.gnss.fe.set st.1 (s.gnss.fe[st].period l) } := by
  have hgfe : gfeClk s = true := by rw [gfeClk, hup, hclk]; rfl
  refine ⟨_, rfl, ?_⟩
  rw [if_neg (by rw [hgfe]; decide), faultCond_gnss]
  split
  · rw [raise_gnss]
  · rfl

theorem exec_gnssSpiDone_host {x : SpiTxn} {l : List SpiTxn} {d : CmdRef} (rx : List Byte) (hspi : s.gnss.spi = x :: l)
    (hcmd : x.cmd = some d) : exec (.gnssSpiDone rx) s = .next (raise 98 (complete d 0x501 stOk
      ((rx ++ zeros 64).take x.bytes.length ++ zeros (64 - x.bytes.length)) (spiStart { s with gnss := { s.gnss with spi := l } }))) := by
  change execGnssSpiDone rx s = _
  simp only [execGnssSpiDone, hspi, hcmd]
  rfl

/-! ## Commands -/

theorem exec_icpGnssFeConfig {a : FeConfigArgs} {k : Fin 2} (h : Ready c 0x500 0 s) (hrsv : a.rsv = false)
    (hstream : a.stream.toNat = k.1) (hen : a.enable.toNat ≤ 1) (hfmt : a.format.toNat ≤ 1) (hcap : a.capPhase.toNat ≤ 15)
    (hlat : a.feLat.toNat ≤ 15) (hif : a.ifHz.toInt.natAbs ≤ 20000000) (hsel : gnssSelected s = false) (hup : gnssUp s = true) :
    exec (.icpGnssFeConfig c a) s = ok c 0x500 [] { s with gnss := { s.gnss with fe := upd s.gnss.fe k fun f => { f with
      en := a.enable == 1#8, format := a.format == 1#8, qInv := a.qInv, iqSwap := a.iqSwap, capPhase := a.capPhase.toNat,
      feLat := a.feLat.toNat, ifHz := a.ifHz.toInt } } } := by
  have hlast : a.stream.toNat ≤ 1 := by omega
  change execIcpGnssFeConfig c a s = _
  simp only [execIcpGnssFeConfig, ok]
  refine icpDo_is h.1 (firstFail_ok ?checks) h.2 (by rw [fin?_eq_some hstream]) rfl
  case checks => simp [hrsv, hlast, hen, hfmt, hcap, hlat, beyond_false hif, hsel, hup]

/-- A transaction that finds the queue empty starts at once (09 R184, R185). -/
theorem exec_icpGnssFeSpi {a : FeSpiArgs} {u : State} (h : Taken c 0x501 s) (hcs : a.cs.toNat ≤ 1) (hmode : a.mode = 0#8 ∨ a.mode = 3#8)
    (hlen : 1 ≤ a.len.toNat) (hlen' : a.len.toNat ≤ 64) (hzero : ∀ b ∈ a.bytes.toList.drop a.len.toNat, b = 0#8)
    (hdiv : 7 ≤ a.div.toNat) (hsel : gnssSelected s = false) (hup : gnssUp s = true)
    (hu : u = { s with gnss := { s.gnss with spi := s.gnss.spi ++ [{
      cmd := some c, cs := a.cs == 1#8, mode3 := a.mode == 3#8, div := a.div.toNat, bytes := a.bytes.toList.take a.len.toNat }] } }) :
    exec (.icpGnssFeSpi c a) s = .next (if s.gnss.spi.isEmpty then spiStart u else u) := by
  have hn : a.len.toNat ≠ 0 := by omega
  have hbytes : (a.bytes.toList.drop a.len.toNat).any (· != 0#8) = false :=
    List.any_eq_false.mpr fun b hb => by simp [hzero b hb]
  have hspiMode : (a.mode != 0#8 && a.mode != 3#8) = false := by obtain hm | hm := hmode <;> simp [hm]
  have hdiv' : a.div.toNat ≤ 255 := Nat.le_of_lt_succ a.div.isLt
  subst hu
  change execIcpGnssFeSpi c a s = _
  simp only [execIcpGnssFeSpi]
  refine icp_later h (if_pos (firstFail_ok ?checks))
  case checks => simp [hcs, hspiMode, hn, hbytes, outside_false hdiv hdiv', hlen', hsel, hup]

/-- The clusters of the mask are written to GNSS_CLUSTER_EN (09 R187, R201). -/
theorem exec_icpGnssSignals {g : BitVec 16} {k : BitVec 8} (h : Ready c 0x502 0 s) (hsigs : g.toNat ≤ 2047) (hlo : 1 ≤ k.toNat)
    (hhi : k.toNat ≤ 15) : exec (.icpGnssSignals c g k false) s = ok c 0x502 [] (clusterWrite (k.setWidth 4)
      { s with gnss := { s.gnss with sigMask := g.setWidth 11, clusterMask := k.setWidth 4 } }) := by
  have hk : k ≠ 0#8 := by bv_omega
  change execIcpGnssSignals c g k false s = _
  simp only [execIcpGnssSignals, ok]
  exact icpDo_is h.1 (firstFail_ok (by simp [hsigs, hk, hhi])) h.2 rfl rfl

theorem exec_icpGnssChanStatus {f n : BitVec 8} {p : List Byte}
    (hp : p = (List.range n.toNat).flatMap fun i => (fin? 128 (f.toNat + i)).elim [] (chanBytes s)) (h : Ready c 0x503 p.length s)
    (hlo : 1 ≤ n.toNat) (hhi : n.toNat ≤ 32) (hlast : f.toNat + n.toNat ≤ 128) :
    exec (.icpGnssChanStatus c f n false) s = ok c 0x503 p s := by
  have hfirst : f.toNat ≤ 127 := by omega
  have hn : n ≠ 0#8 := by bv_omega
  change execIcpGnssChanStatus c f n false s = _
  simp only [execIcpGnssChanStatus, ok]
  exact icpDo_is h.1 (firstFail_ok (by simp [hfirst, hn, hhi, hlast])) h.2 rfl hp.symm

/-- Settles O16: one lemma for each event and command. -/
theorem basebandCommands : Obligations.BasebandCommands := by
  intro c s
  refine ⟨fun hup ch v w => ⟨exec_channelEnable hup ch v w, exec_channelApply hup ch w⟩, fun ch l x hx hclock hrun hfirst => ?boundaries,
    exec_feMagPeriod, fun rx x l d => exec_gnssSpiDone_host rx, fun a k => exec_icpGnssFeConfig, fun a u => exec_icpGnssFeSpi,
    fun g k => exec_icpGnssSignals, fun f n p => exec_icpGnssChanStatus⟩
  case boundaries =>
    subst hx
    exact ⟨fun k => exec_dumpBoundary hclock hrun hfirst l, exec_forcedBoundary hclock hrun hfirst l⟩

end Sys2Proof.Proofs
end

