-- ==== Sys2Proof/Proofs/GnssMeasurementCommands.lean ====
section
/-!
SUPPORT. The GNSS measurement engine's events: an epoch and its banks (10 R203, R205), a time solution (10 R208, R209), the monitors
(10 R212, R213), the guard's window (10 R215), the survey's end (10 R210) and the burst schedule (10 R218-R220), with the statement
about them.
-/
namespace Sys2Proof.Proofs
open Sys2Proof Sys2Proof.Machine Sys2Proof.Claims Sys2Proof.Laws

variable {s : State}

/-! ## Shared operations that leave the engine as it is -/

@[simp] theorem cfgUpdate_gnss (f : CfgBank → CfgBank) (s : State) : (cfgUpdate f s).gnss = s.gnss :=
  (cfgUpdate_moves (m := 32768) rfl (.refl _ s) f).gnss rfl

@[simp] theorem pushMeas_gnss (n : Fin 12) (raw clock : Int) (odo : Nat) (s : State) : (pushMeas n raw clock odo s).gnss = s.gnss :=
  (pushMeas_moves (m := 16) rfl (.refl _ s) n raw clock odo).gnss rfl

@[simp] theorem utcFrom_gnss (n : Fin 12) (s : State) : (utcFrom n s).gnss = s.gnss :=
  (utcFrom_moves (m := 4) rfl (.refl _ s) n).gnss rfl

/-- The interrupt that an event raises on a condition. -/
theorem raise_if_gnss (b : Prop) [Decidable b] (src : Nat) (s : State) : (if b then raise src s else s).gnss = s.gnss := by
  split
  · exact raise_gnss src s
  · rfl

/-! ## The measurement latch and its banks -/

theorem exec_measEpoch {k : Nat} (hup : timeUp s = true) (hgnss : gnssUp s = true) (hk : epochInstant s = some k)
    (hperiod : max s.time.odo (tickOf s k) ≤ s.time.bOdo + periodTicks)
    (hwindow : s.gnss.burst.active = true → s.gnss.burst.windowOpen = true) :
    exec .measEpoch s = .next (measLatch k (epochPulse (launchAt s k 0) (raiseEpoch { s with
      time := { s.time with odo := max s.time.odo (tickOf s k) }
      mile := { s.mile with epochK := s.mile.epochK + 1, epochs := s.mile.epochs + 1 } }))) := by
  have hshown : (s.gnss.burst.active && !s.gnss.burst.windowOpen) = false := by simpa using hwindow
  change execMeasEpoch s = _
  simp only [execMeasEpoch, hup, hgnss, hk, hperiod.not_gt, hshown, Bool.not_true, Bool.false_eq_true, if_false, if_true]

theorem exec_measBankClaim_full {b : Fin 2} (hgnss : gnssUp s = true) (hfull : s.gnss.bank[b].full = true) (hfree : s.gnss.claim = none) :
    exec (.measBankClaim (some b)) s = .next { s with gnss := { s.gnss with claim := some b } } := by
  change execMeasBankClaim (some b) s = _
  simp only [execMeasBankClaim, hgnss, hfull, hfree, Option.isNone_none, Bool.and_self, Bool.not_true, Bool.false_eq_true, if_false, if_true]

/-- A bank released is empty (10 R205). -/
theorem exec_measBankClaim_release {b : Fin 2} (hgnss : gnssUp s = true) (hclaim : s.gnss.claim = some b) :
    exec (.measBankClaim none) s =
      .next { s with gnss := { s.gnss with claim := none, bank := upd s.gnss.bank b fun q => { q with full := false } } } := by
  change execMeasBankClaim none s = _
  simp only [execMeasBankClaim, hgnss, hclaim, Bool.not_true, Bool.false_eq_true, if_false]

/-! ## The time solution and the survey -/

/-- The report is stored whether or not the solution is valid; what follows from a valid one leaves it (10 R208, R209). -/
theorem exec_gnssSolution (hgnss : gnssUp s = true) (r : SolReport) (l : List (List Nat)) :
    ∃ t, exec (.gnssSolution r l) s = .next t ∧ t.gnss.sol = solOf s r l := by
  refine ⟨_, rfl, ?_⟩
  simp only [hgnss, Bool.not_true, Bool.false_eq_true, if_false]
  split_ifs <;> simp only [utcFrom_gnss, pushMeas_gnss, faultEvent_gnss, raise_gnss]

theorem exec_surveyComplete (hgnss : gnssUp s = true) (hsurvey : s.gnss.posMode = some false) (hover : s.gnss.surveyLeft = 0)
    (x y z : BitVec 64) (u : Word) : ∃ t, exec (.surveyComplete x y z u) s = .next t ∧
      t.gnss = { s.gnss with posMode := some true, pos := (x.toInt, y.toInt, z.toInt), posUnc := u.toNat } := by
  have hends : (!gnssUp s || s.gnss.posMode != some false || s.gnss.surveyLeft != 0) = false := by rw [hgnss, hsurvey, hover]; rfl
  refine ⟨_, rfl, ?_⟩
  rw [if_neg (by rw [hends]; decide), raise_gnss, cfgUpdate_gnss]

/-! ## The monitors and the guard -/

theorem exec_distortionCheck (hgnss : gnssUp s = true) (x : DistIn) : ∃ t, exec (.distortionCheck [x]) s = .next t ∧
    t.gnss = { s.gnss with chans := upd s.gnss.chans x.chan (·.distSecond s.gnss.distLimit x) } := by
  refine ⟨_, rfl, ?_⟩
  rw [if_neg (by rw [hgnss]; decide), raise_if_gnss]
  rfl

theorem exec_agcCheck (hgnss : gnssUp s = true) : ∃ t, exec .agcCheck s = .next t ∧
    t.gnss = { s.gnss with fe := updAll s.gnss.fe fun _ f => f.agcSecond s.gnss.agcDev } := by
  refine ⟨_, rfl, ?_⟩
  rw [if_neg (by rw [hgnss]; decide), faultCond_gnss, raise_if_gnss]

theorem exec_guardWindowEnd (hgnss : gnssUp s = true) (hpass : s.gnss.guard.state = 1)
    (hended : s.gnss.guard.window ≤ s.gnss.guard.winAge) : exec .guardWindowEnd s = .next (withGuard { s.gnss.guard with
      tau := s.gnss.guard.winAge, dBase := s.gnss.guard.winBase, temp := s.gnss.guard.winTemp, holdBase := 0, winAge := 0
      winBase := s.sign.slots[0].fly.headD 0, winTemp := 0 } s) := by
  have hmoves : (!gnssUp s || s.gnss.guard.state != 1 || s.gnss.guard.winAge < s.gnss.guard.window) = false := by
    simp [hgnss, hpass, hended]
  change execGuardWindowEnd s = _
  simp only [execGuardWindowEnd, hmoves, Bool.false_eq_true, if_false]

/-! ## Burst tracking -/

theorem exec_snapshotEnter (hgnss : gnssUp s = true) (hen : s.gnss.burst.en = true) (hout : s.gnss.burst.active = false)
    (hatom : s.guy.atom.valid = true) (hsel : gnssSelected s = false) : exec .snapshotEnter s = .next { s with gnss := { s.gnss with
      burst := { s.gnss.burst with active := true, windowOpen := true, firstLatch := true, exitPending := 0 } } } := by
  change execSnapshotEnter s = _
  simp only [execSnapshotEnter, hgnss, hen, hout, hatom, hsel, Bool.not_true, Bool.or_self, Bool.false_eq_true, if_false]

/-- A step of the burst schedule that falls in the present steering period is run at its tick (10 R218). -/
theorem atCnt_inPeriod {t k : Nat} (f : State → State) (hk : k = max s.time.odo (tickOf s t)) (hperiod : k ≤ s.time.bOdo + periodTicks) :
    atCnt s t f = f { s with time := { s.time with odo := k } } := by
  subst hk
  exact if_neg hperiod.not_gt

section
variable {k : Nat} (hgnss : gnssUp s = true) (hin : s.gnss.burst.active = true) (hperiod : k ≤ s.time.bOdo + periodTicks)
include hgnss hin hperiod

theorem exec_burstWindowOpen (hclosed : s.gnss.burst.windowOpen = false)
    (hk : k = max s.time.odo (tickOf s (nextAtMs s (-(s.gnss.burst.lead : Int))))) :
    exec .burstWindowOpen s = .next (burstResume { s with
      time := { s.time with odo := k }
      gnss := { s.gnss with burst := { s.gnss.burst with windowOpen := true, firstLatch := true } } }) := by
  change execBurstWindowOpen s = _
  simp only [execBurstWindowOpen, hgnss, hin, hclosed, Bool.not_true, Bool.or_self, Bool.false_eq_true, if_false, atCnt_inPeriod _ hk hperiod]

/-- At the window's end every channel's open interval is discarded (10 R219). -/
theorem exec_burstWindowClose (hopen : s.gnss.burst.windowOpen = true)
    (hk : k = max s.time.odo (tickOf s (nextAtMs s ((s.gnss.burst.w : Int) - s.gnss.burst.lead)))) :
    ∃ t, exec .burstWindowClose s = .next t ∧ t.gnss.burst.windowOpen = false ∧
      t.time = { s.time with odo := k } ∧ ∀ n : Fin 128, t.gnss.chans[n].since = 0 := by
  change ∃ t, execBurstWindowClose s = _ ∧ _
  simp only [execBurstWindowClose, hgnss, hin, hopen, Bool.not_true, Bool.or_self, Bool.false_eq_true, if_false, atCnt_inPeriod _ hk hperiod]
  exact ⟨_, rfl, rfl, rfl, fun n => by simp [updAll]⟩

end

/-- The bursts stay enabled only where the command ended them, cause 3 (10 R220). -/
theorem exec_snapshotExit (hgnss : gnssUp s = true) (hin : s.gnss.burst.active = true) (hcause : s.gnss.burst.exitPending ≠ 0) :
    ∃ t, exec .snapshotExit s = .next t ∧ t.gnss.burst = { s.gnss.burst with
      active := false, windowOpen := false, firstLatch := false, exitCause := s.gnss.burst.exitPending, exitPending := 0
      en := s.gnss.burst.en && s.gnss.burst.exitPending == 3 } := by
  change ∃ t, execSnapshotExit s = _ ∧ _
  simp only [execSnapshotExit, hgnss, hin, hcause, decide_false, Bool.not_true, Bool.or_self, Bool.false_eq_true, if_false, bne, Bool.not_not]
  refine ⟨_, rfl, ?burst⟩
  case burst => split <;> simp only [raise_gnss, sticky_gnss]

/-- Settles O17: one lemma for each event, two for MEAS_BANK_CLAIM. -/
theorem gnssMeasurementCommands : Obligations.GnssMeasurementCommands := by
  intro s
  refine ⟨fun k => exec_measEpoch, fun hup b => ⟨exec_measBankClaim_full hup, exec_measBankClaim_release hup⟩, exec_gnssSolution,
    exec_distortionCheck, exec_agcCheck, exec_guardWindowEnd, exec_surveyComplete, exec_snapshotEnter,
    fun hup hin k => ⟨fun hclosed hk hperiod => exec_burstWindowOpen hup hin hperiod hclosed hk,
      fun hopen hk hperiod => exec_burstWindowClose hup hin hperiod hopen hk⟩, fun hup hin hcause => ?exit⟩
  case exit =>
    obtain ⟨t, hexec, hburst⟩ := exec_snapshotExit hup hin hcause
    exact ⟨t, hexec, by simp only [hburst, and_self]⟩

end Sys2Proof.Proofs
end

