-- ==== Sys2Proof/Proofs/GnssConfigCommands.lean ====
section
/-!
SUPPORT. The GNSS measurement engine's ICP commands: the reads (10 R205, R209), position (10 R210), delays and integrity (10 R209,
R224), the spoof guard (10 R214-R217) and the bursts (10 R218, R220), with the statement about them.
-/
namespace Sys2Proof.Proofs
open Sys2Proof Sys2Proof.Machine Sys2Proof.Claims Sys2Proof.Laws

section
variable {c : CmdRef} {s : State} (hup : gnssUp s = true)
include hup

/-! ## Reads -/

theorem exec_icpGnssMeasGet {p : List Byte}
    (hp : p = match s.gnss.latest with | some b => bankBytesOf s.gnss.bank[b] | none => zeros 4160) (h : Ready c 0x504 p.length s) :
    exec (.icpGnssMeasGet c) s = ok c 0x504 p s := by
  change execIcpGnssMeasGet c s = _
  simp only [execIcpGnssMeasGet, ok]
  exact icpDo_is h.1 (firstFail_ok (by simp [hup])) h.2 rfl hp.symm

theorem exec_icpGnssSolStatus (h : Ready c 0x506 48 s) : Reads (.icpGnssSolStatus c) c 0x506 48 s := by
  have hlength : (solBytes s.gnss.sol).length = 48 := by simp [solBytes]
  change ∃ p : List Byte, p.length = 48 ∧ execIcpGnssSolStatus c s = _
  simp only [execIcpGnssSolStatus, ok]
  exact ⟨_, hlength, icpDo_is h.1 (firstFail_ok (by simp [hup])) (by rw [hlength]; exact h.2) rfl rfl⟩

/-! ## Position, delays and integrity -/

section
variable {a : PositionArgs} (h : Ready c 0x505 0 s) (hrsv : a.rsv = false) (hsel : gnssSelected s = false)
include h hrsv hsel

theorem exec_icpGnssPosition_survey (hmode : a.mode = 0#8) (hlo : 3600 ≤ a.survey.toNat) (hhi : a.survey.toNat ≤ 604800) :
    exec (.icpGnssPosition c a) s = ok c 0x505 [] { s with
      gnss := { s.gnss with posMode := some false, surveyTime := a.survey.toNat, surveyLeft := a.survey.toNat } } := by
  have hsome : a.survey ≠ 0#32 := by bv_omega
  change execIcpGnssPosition c a s = _
  simp only [execIcpGnssPosition, ok]
  refine icpDo_is h.1 (firstFail_ok ?checks) h.2 (by simp only [hmode, beq_self_eq_true, if_true]) rfl
  case checks => simp [hrsv, hmode, hsome, outside_false hlo hhi, hsel, hup]

/-- The position given is also stored for the next start (10 R210). -/
theorem exec_icpGnssPosition_fixed (hmode : a.mode = 1#8) (hunc : 1 ≤ a.unc.toNat)
    (hnear : farOut a.x.toInt a.y.toInt a.z.toInt = false) : ∃ t, exec (.icpGnssPosition c a) s = ok c 0x505 [] t ∧
      t.gnss = { s.gnss with posMode := some true, pos := (a.x.toInt, a.y.toInt, a.z.toInt), posUnc := a.unc.toNat } := by
  have hsome : a.unc ≠ 0#32 := by bv_omega
  change ∃ t, execIcpGnssPosition c a s = _ ∧ _
  simp only [execIcpGnssPosition, ok]
  refine ⟨_, icpDo_is h.1 (firstFail_ok ?checks) h.2 (if_neg (by rw [hmode]; decide)) rfl, cfgUpdate_gnss _ _⟩
  case checks => simp [hrsv, hmode, hsome, hnear, hsel, hup]

end

theorem exec_icpGnssDelay {d0 d1 u : Word} (h : Ready c 0x507 0 s) (hunc : 1 ≤ u.toNat) (hd0 : d0.toInt.natAbs ≤ 10000000)
    (hd1 : d1.toInt.natAbs ≤ 10000000) (hsel : gnssSelected s = false) : exec (.icpGnssDelay c d0 d1 u false) s =
      ok c 0x507 [] { s with gnss := { s.gnss with delay0 := d0.toInt, delay1 := d1.toInt, delayUnc := u.toNat } } := by
  have hsome : u ≠ 0#32 := by bv_omega
  change execIcpGnssDelay c d0 d1 u false s = _
  simp only [execIcpGnssDelay, ok]
  exact icpDo_is h.1 (firstFail_ok (by simp [hsome, beyond_false hd0, beyond_false hd1, hsel, hup])) h.2 rfl rfl

theorem exec_icpGnssIntegrityConfig {a : IntegrityArgs} (h : Ready c 0x508 0 s) (hrsv : a.rsv = false)
    (htraim : 10 ≤ a.traimLimit.toNat) (htraim' : a.traimLimit.toNat ≤ 10000) (hexcl : 1 ≤ a.maxExcl.toNat)
    (hexcl' : a.maxExcl.toNat ≤ 8) (hmin : 1 ≤ a.distMin.toNat) (hmin' : a.distMin.toNat ≤ 32) (hlimit : 1 ≤ a.distLimit.toNat)
    (hlimit' : a.distLimit.toNat ≤ 1000) (hagc : 5 ≤ a.agcDev.toNat) (hagc' : a.agcDev.toNat ≤ 500) :
    exec (.icpGnssIntegrityConfig c a) s = ok c 0x508 [] { s with gnss := { s.gnss with
      traimLimit := a.traimLimit.toNat, traimMaxExcl := a.maxExcl.toNat, distMin := a.distMin.toNat, distLimit := a.distLimit.toNat
      agcDev := a.agcDev.toNat } } := by
  have hnonzero : a.traimLimit ≠ 0#16 ∧ a.maxExcl ≠ 0#8 ∧ a.distMin ≠ 0#8 ∧ a.distLimit ≠ 0#16 ∧ a.agcDev ≠ 0#16 := by
    refine ⟨?_, ?_, ?_, ?_, ?_⟩ <;> bv_omega
  change execIcpGnssIntegrityConfig c a s = _
  simp only [execIcpGnssIntegrityConfig, ok]
  refine icpDo_is h.1 (firstFail_ok ?checks) h.2 rfl rfl
  case checks => simp [hrsv, hnonzero, outside_false htraim htraim', hexcl', hmin', hlimit', outside_false hagc hagc', hup]

/-! ## The spoof guard -/

/-- With REF_GNSS selected the guard may be set up but not switched off (10 R224). -/
theorem exec_icpGnssGuardConfig {a : GuardArgs} {s1 : State} (h : Ready c 0x509 0 s) (hrsv : a.rsv = false)
    (hspoof : 5 ≤ a.spoofLimit.toNat) (hspoof' : a.spoofLimit.toNat ≤ 100000) (hwindow : 60 ≤ a.window.toNat)
    (hwindow' : a.window.toNat ≤ 86400) (hoff : a.enable = false → gnssSelected s = false) (hs1 : s1 = withGuard { s.gnss.guard with
      spoofLimit := a.spoofLimit.toNat, window := a.window.toNat, en := a.enable, latch := a.latch } s) :
    exec (.icpGnssGuardConfig c a) s = ok c 0x509 [] (if a.enable then s1 else guardOff s1) := by
  have hnonzero : a.spoofLimit ≠ 0#32 ∧ a.window ≠ 0#32 := by constructor <;> bv_omega
  subst hs1
  change execIcpGnssGuardConfig c a s = _
  simp only [execIcpGnssGuardConfig, ok]
  refine icpDo_is h.1 (firstFail_ok ?checks) h.2 rfl rfl
  case checks => simpa [hrsv, hnonzero, outside_false hspoof hspoof', outside_false hwindow hwindow', hup] using hoff

theorem exec_icpGnssGuardRelease (h : Ready c 0x50A 0 s) (hlatched : s.gnss.guard.state = 3) :
    exec (.icpGnssGuardRelease c) s = ok c 0x50A [] (requalify 0 0x41 (faultCond 12 false
      (withGuard (s.gnss.guard.anchored s.gnss.guard.flyAtom (s.sign.slots[0].fly.headD 0) 1) s))) := by
  change execIcpGnssGuardRelease c s = _
  simp only [execIcpGnssGuardRelease, ok]
  exact icpDo_is h.1 (firstFail_ok (by simp [hup])) h.2 (if_neg (by rw [hlatched]; decide)) rfl

/-! ## Burst tracking -/

theorem exec_icpGnssBurst_on {a : BurstArgs} (h : Ready c 0x50B 0 s) (hrsv : a.rsv = false) (hon : a.enable = 1#8)
    (hw : 20 ≤ a.w.toNat) (hw' : a.w.toNat ≤ 500) (hlead : 10 ≤ a.lead.toNat) (hlead' : a.lead.toNat ≤ a.w.toNat - 10)
    (hsel : gnssSelected s = false) (hatom : s.guy.atom.valid = true) : exec (.icpGnssBurst c a) s = ok c 0x50B [] { s with
      gnss := { s.gnss with burst := { s.gnss.burst with en := true, w := a.w.toNat, lead := a.lead.toNat } } } := by
  have hnonzero : a.w ≠ 0#16 ∧ a.lead ≠ 0#16 := by constructor <;> bv_omega
  change execIcpGnssBurst c a s = _
  simp only [execIcpGnssBurst, ok]
  refine icpDo_is h.1 (firstFail_ok ?checks) h.2 (by simp only [hon, beq_self_eq_true, if_true]) rfl
  case checks => simp [hrsv, hon, hnonzero, outside_false hw hw', outside_false hlead hlead', hsel, hatom, hup]

/-- SNAPSHOT in force ends at the next second boundary with cause 3, unless it is to end for another (10 R220). -/
theorem exec_icpGnssBurst_off {a : BurstArgs} (h : Ready c 0x50B 0 s) (hrsv : a.rsv = false) (hoff : a.enable = 0#8) :
    exec (.icpGnssBurst c a) s = ok c 0x50B [] { s with gnss := { s.gnss with burst := { s.gnss.burst with
      en := false
      exitPending := if s.gnss.burst.active && s.gnss.burst.exitPending = 0 then 3 else s.gnss.burst.exitPending } } } := by
  have hnot : (a.enable == 1#8) = false := by rw [hoff]; decide
  change execIcpGnssBurst c a s = _
  simp only [execIcpGnssBurst, ok]
  refine icpDo_is h.1 (firstFail_ok ?checks) h.2 (by simp only [hnot, Bool.false_eq_true, if_false]) rfl
  case checks => simp [hrsv, hoff, hup]

end

/-- Settles O18: one lemma for each command, two for ICP_GNSS_POSITION and for ICP_GNSS_BURST. -/
theorem gnssConfigCommands : Obligations.GnssConfigCommands := by
  intro c s hup
  exact ⟨fun p => exec_icpGnssMeasGet hup, exec_icpGnssSolStatus hup,
    fun a h hrsv hsel => ⟨exec_icpGnssPosition_survey hup h hrsv hsel, exec_icpGnssPosition_fixed hup h hrsv hsel⟩,
    fun d0 d1 u => exec_icpGnssDelay hup, fun a => exec_icpGnssIntegrityConfig hup, fun a s1 => exec_icpGnssGuardConfig hup,
    exec_icpGnssGuardRelease hup, fun a h hrsv => ⟨exec_icpGnssBurst_on hup h hrsv, exec_icpGnssBurst_off hup h hrsv⟩⟩

end Sys2Proof.Proofs
end

