-- ==== Sys2Proof/Proofs/PortEvents.lean ====
section
/-!
SUPPORT. The network ports' events: links (11 R228, R243; 12 R263), flow control (11 R237-R239), ESMC and SyncE (11 R240-R242),
receive (11 R229, R236) and host frames (11 R231-R235), with the statement about them.
-/
namespace Sys2Proof.Proofs
open Sys2Proof Sys2Proof.Machine Sys2Proof.Claims Sys2Proof.Laws

variable {s : State} {p : Fin 4}

theorem onPort_port_same (p : Fin 4) (f : PortSt → PortSt) (s : State) : (onPort p f s).port.p[p] = f s.port.p[p] := by
  simp [onPort, upd]

/-! ## Links -/

theorem exec_pcsUp (hup : portUp s p = true) (hdown : s.port.p[p].pcsUp = false) :
    exec (.pcsUp p) s = .next (holdStart p (onPort p (fun q => { q with pcsUp := true, cdrLock := true }) s)) := by
  change execPcsUp p s = _
  simp only [execPcsUp, hup, hdown, Bool.not_true, Bool.or_self, Bool.false_eq_true, if_false]

theorem exec_pcsLoss (s : State) (p : Fin 4) :
    exec (.pcsLoss p) s = .next (linkDown p (onPort p (fun q => { q with pcsUp := false, cdrLock := false }) s)) := rfl

/-- LINK_UP ends the hold timer that a PCS_UP, a relock or a regained track started (11 R228). -/
theorem exec_linkUp (hmay : linkMay s p = true) (hhold : s.port.p[p].holdRunning = true) :
    exec (.linkUp p) s = .next (linkRise p s) := by
  change execLinkUp p s = _
  simp only [execLinkUp, hmay, hhold, Bool.and_self, if_true]

/-- Clause 37 negotiates on 1000BASE-X alone, mode 3. -/
theorem exec_autonegRestart (hup : portUp s p = true) (hmode : s.port.p[p].mode = 3) (han : s.port.p[p].an = true) :
    exec (.autonegRestart p) s = .next (linkDown p (onPort p (fun q => { q with pcsUp := false }) s)) := by
  change execAutonegRestart p s = _
  simp only [execAutonegRestart, hup, hmode, han, beq_self_eq_true, Bool.and_self, if_true]

theorem exec_serdesPllLoss (hup : portUp s p = true) (hlock : s.port.p[p].pllLock = true) :
    exec (.serdesPllLoss p) s = .next (linkDown p (portConds (portHist p 0x20#32
      (onPort p (fun q => { q with pllLock := false }) s)))) := by
  change execSerdesPllLoss p s = _
  simp only [execSerdesPllLoss, hup, hlock, Bool.not_true, Bool.or_self, Bool.false_eq_true, if_false]

theorem exec_serdesPllRelock (hup : portUp s p = true) (hlost : s.port.p[p].pllLock = false) :
    exec (.serdesPllRelock p) s = .next (holdStart p (portConds (onPort p (fun q => { q with pllLock := true }) s))) := by
  change execSerdesPllRelock p s = _
  simp only [execSerdesPllRelock, hup, hlost, Bool.not_true, Bool.or_self, Bool.false_eq_true, if_false]

theorem exec_finePhaseTrackLost (hup : portUp s p = true) :
    exec (.finePhaseTrackLost p) s = .next (linkDown p (portConds (onPort p (fun q => { q with phaseLost := true }) s))) := by
  change execFinePhaseTrackLost p s = _
  simp only [execFinePhaseTrackLost, hup, Bool.not_true, Bool.false_eq_true, if_false]

theorem exec_finePhaseTrackRegained (hlost : s.port.p[p].phaseLost = true) :
    exec (.finePhaseTrackRegained p) s = .next (holdStart p (portConds (onPort p (fun q => { q with phaseLost := false }) s))) := by
  change execFinePhaseTrackRegained p s = _
  simp only [execFinePhaseTrackRegained, hlost, if_true]

/-! ## Flow control -/

theorem exec_pauseTimerExpiry {k : Nat} (hk : k = 4 * s.port.p[p].pauseAt + s.port.p[p].pauseTimer * quantumQ s.port.p[p].mode)
    (hruns : s.port.p[p].pauseTimer ≠ 0) (hperiod : inPeriod k s = true) :
    exec (.pauseTimerExpiry p) s = .next (txStart p (pauseLoad p 0 (atQ k s))) := by
  change execPauseTimerExpiry p s = _
  simp only [execPauseTimerExpiry, ← hk, hruns, hperiod, decide_false, Bool.not_true, Bool.or_self, Bool.false_eq_true, if_false]

/-- The watchdog measures while the timer runs and pause is in scope (11 R238). -/
theorem exec_pauseWatchdogTrip {k : Nat} (hk : k = 4 * (s.port.p[p].pauseSince + 781250 * s.port.p[p].pauseWd))
    (hruns : s.port.p[p].pauseTimer ≠ 0) (hscope : scopeNow s.port.p[p] ≠ 0) (hperiod : inPeriod k s = true) :
    exec (.pauseWatchdogTrip p) s = .next (txStart p (portConds (raise (132 + p.1) (portHist p 4#32
      (portCount p 24 1 none (onPort p (fun q => { q with wdTripped := true }) (atQ k s))))))) := by
  change execPauseWatchdogTrip p s = _
  simp only [execPauseWatchdogTrip, ← hk, hruns, hscope, hperiod, decide_false, Bool.not_true, Bool.or_self, Bool.false_eq_true,
    if_false]

section
variable (hen : s.port.p[p].txPause = true) (hxoff : s.port.p[p].xoffSent = true)
include hen hxoff

theorem exec_xoffRepeat (hfill : s.port.p[p].xon * 1024 < s.port.p[p].fill) :
    exec (.xoffRepeat p) s = .next (ctlSend p (.pause 0xFFFF) s) := by
  change execXoffRepeat p s = _
  simp only [execXoffRepeat, hen, hxoff, hfill, decide_true, Bool.and_self, if_true]

theorem exec_xonSend : exec (.xonSend p) s = .next (ctlSend p (.pause 0)
    (onPort p (fun q => { q with xoffSent := false, fill := min q.fill (q.xon * 1024) }) s)) := by
  change execXonSend p s = _
  simp only [execXonSend, hen, hxoff, Bool.and_self, if_true]

end

/-! ## ESMC and SyncE -/

theorem exec_esmcEventPdu (hen : s.port.p[p].esmcEn = true) (hdue : s.port.p[p].esmcEventDue = true)
    (hlink : s.port.p[p].link = true) : exec (.esmcEventPdu p) s =
      .next (ctlSend p (esmcFrame s.port.p[p] true) (onPort p (fun q => { q with esmcEventDue := false }) s)) := by
  change execEsmcEventPdu p s = _
  simp only [execEsmcEventPdu, hen, hdue, hlink, Bool.and_self, if_true]

theorem exec_syncePhaseMeasure_locked (hlink : s.port.p[p].link = true) (ps : Int) : exec (.syncePhaseMeasure p ps true true) s =
    .next (pushMeas ⟨5 + p.1, by omega⟩ (5 * rdiv ps 5) (odoTime s.time.odo) s.time.odo
      (onPort p (fun q => { q with cdrLock := true }) s)) := by
  change execSyncePhaseMeasure p ps true true s = _
  simp only [execSyncePhaseMeasure, hlink, Bool.and_self, Bool.not_true, Bool.false_eq_true, if_false, if_true]

/-! ## Receive

A frame that comes in on a link that is up, is neither too long nor too short, has a good FCS and finds room is dropped under none of
rows 1-4 of 11 R229. -/

section
variable {f : RxFrame} {s1 : State} (hlink : s.port.p[f.port].link = true) (hmin : 64 ≤ f.len)
  (hmax : f.len ≤ s.port.p[f.port].maxFrame) (hfcs : f.fcsOk = true) (hroom : f.fill + f.len ≤ 98304)
  (hs1 : s1 = onPort f.port (fun q => { q with fill := f.fill }) (atTick f.off s))
include hlink hmin hmax hfcs hroom hs1

theorem exec_frameReceive_pause {q : BitVec 16} (hbody : f.body = .macControl 1#16 q) :
    exec (.frameReceive f) s = .next (pauseFrame f.port q.toNat s1) := by
  subst hs1
  change execFrameReceive f s = _
  simp only [execFrameReceive, hlink, onPort_port_same, atTick_port, hmax.not_gt, hmin.not_gt, hfcs, hroom.not_gt, hbody,
    beq_self_eq_true, Bool.not_true, Bool.false_eq_true, if_false, if_true]

theorem exec_frameReceive_esmc {u : EsmcPdu} (hbody : f.body = .slow u) (hsub : u.subtype = 0x0A#8) :
    exec (.frameReceive f) s = .next (esmcReceive f.port f.dmac u s1) := by
  subst hs1
  change execFrameReceive f s = _
  simp only [execFrameReceive, hlink, onPort_port_same, atTick_port, hmax.not_gt, hmin.not_gt, hfcs, hroom.not_gt, hbody, hsub,
    beq_self_eq_true, Bool.not_true, Bool.false_eq_true, if_false, if_true]

/-- A slow protocol other than ESMC is classified like a frame of no kind of its own (11 R229). -/
theorem exec_frameReceive_classified (hbody : f.body = .other ∨ ∃ u, f.body = .slow u ∧ u.subtype ≠ 0x0A#8) :
    exec (.frameReceive f) s = .next (classify f (rxStamp s1 f) (rxStore f
      (portCount f.port 1 f.len none (portCount f.port 0 1 none s1)))) := by
  subst hs1
  change execFrameReceive f s = _
  simp only [execFrameReceive, hlink, onPort_port_same, atTick_port, hmax.not_gt, hmin.not_gt, hfcs, hroom.not_gt, Bool.not_true,
    Bool.false_eq_true, if_false]
  obtain hother | ⟨u, hslow, hsub⟩ := hbody
  · rw [hother]
  · simp only [hslow, beq_false_of_ne hsub, Bool.false_eq_true, if_false]

end

/-! ## Host frames -/

section
variable {d : TxDesc} {r : TxRing} {s1 : State} (hring : s.port.p[p].txRing[d.slot] = some r) (hfree : r.full = false)
  (hwrite : canWrite s d.slot = true) (hs1 : s1 = onTxRing p d.slot (TxRing.post d) s)
include hring hfree hwrite hs1

theorem exec_hostTxDescriptor_queued (hqueue : d.queue ≤ 5) : exec (.hostTxDescriptor p d) s = .next (txStart p s1) := by
  subst hs1
  change execHostTxDescriptor p d s = _
  simp only [execHostTxDescriptor, hring, hfree, hwrite, hqueue.not_gt, Bool.not_true, Bool.or_self, Bool.false_eq_true, if_false]

/-- The host has queues 0-5 (11 R231); a descriptor for any other completes with what its checks say (11 R233). -/
theorem exec_hostTxDescriptor_unqueued (hqueue : 5 < d.queue) :
    exec (.hostTxDescriptor p d) s = .next (txStart p (txEnd p { idx := r.pi, d := d } (txCheck s1 p d) s1)) := by
  subst hs1
  change execHostTxDescriptor p d s = _
  simp only [execHostTxDescriptor, hring, hfree, hwrite, hqueue, Bool.not_true, Bool.or_self, Bool.false_eq_true, if_false, if_true]

end

theorem exec_hostFrameSent_inAir {f : TxFrame} (hair : inAir s.port.p[p] = some f)
    (hperiod : inPeriod (airEnd s.port.p[p] f) s = true) :
    exec (.hostFrameSent p) s = .next (txStart p (txFinish p f (atQ (airEnd s.port.p[p] f) s))) := by
  change execHostFrameSent p s = _
  simp only [execHostFrameSent, hair, hperiod, if_true]

/-- Settles O19: one lemma for each event, three for FRAME_RECEIVE and two for HOST_TX_DESCRIPTOR. -/
theorem portEvents : Obligations.PortEvents := by
  intro s p
  refine ⟨exec_pcsUp, exec_pcsLoss s p, exec_linkUp, exec_autonegRestart, exec_serdesPllLoss, exec_serdesPllRelock,
    exec_finePhaseTrackLost, exec_finePhaseTrackRegained, fun k => exec_pauseTimerExpiry, fun k => exec_pauseWatchdogTrip,
    fun hen hxoff => ⟨exec_xoffRepeat hen hxoff, exec_xonSend hen hxoff⟩, exec_esmcEventPdu, exec_syncePhaseMeasure_locked,
    fun f s1 hport hlink hmin hmax hfcs hroom hs1 => ?receive,
    fun d r s1 hring hfree hwrite hs1 => ⟨exec_hostTxDescriptor_queued hring hfree hwrite hs1,
      exec_hostTxDescriptor_unqueued hring hfree hwrite hs1⟩, fun f => exec_hostFrameSent_inAir⟩
  case receive =>
    subst hport
    exact ⟨fun q => exec_frameReceive_pause hlink hmin hmax hfcs hroom hs1,
      fun u => exec_frameReceive_esmc hlink hmin hmax hfcs hroom hs1, exec_frameReceive_classified hlink hmin hmax hfcs hroom hs1⟩

end Sys2Proof.Proofs
end

