-- ==== Sys2Proof/Proofs/PortCommands.lean ====
section
/-!
SUPPORT. The ports' ICP commands (11 R228, R238, R242, R246, R247) and Waypoint's (12 R252, R253, R262, R266, R267), with the
statement about them.
-/
namespace Sys2Proof.Proofs
open Sys2Proof Sys2Proof.Machine Sys2Proof.Claims Sys2Proof.Laws

variable {c : CmdRef} {s : State} {p : Fin 4}

/-! ## Checks that name a port -/

theorem portArg_eq_some {v : BitVec 8} (h : v.toNat = p.1) : portArg v = some p := fin?_eq_some h

/-- Checks that all pass leave the answer to those that follow them. -/
theorem firstFail_append_of_pass {l m : List (Bool × Nat)} (h : ∀ x ∈ l, x.1 = false) : firstFail (l ++ m) = firstFail m := by
  have hpass : l.find? (·.1) = none := List.find?_eq_none.mpr fun x hx => by simp [h x hx]
  simp only [firstFail, List.find?_append, hpass, Option.none_or]

theorem portDown_false {v : BitVec 8} (h : v.toNat = p.1) (hlink : s.port.p[p].link = true) (hmode : s.port.p[p].mode ≠ 0) :
    portDown s v = false := by
  simp only [portDown, portArg_eq_some h, Option.elim_some, hlink, beq_false_of_ne hmode, Bool.not_true, Bool.or_self]

theorem calBusy_false {v : BitVec 8} (h : v.toNat = p.1) (hidle : s.wayp.p[p].cal = none) : calBusy s v = false := by
  simp only [calBusy, portArg_eq_some h, Option.elim_some, hidle, Option.isSome_none]

/-! ## The ports' commands -/

/-- The checks that need the port come after those of the arguments (11 R247). -/
theorem exec_icpPortConfig {a : PortConfigArgs} (h : Ready c 0x600 0 s) (hrsv : a.rsv = false) (hport : a.port.toNat = p.1)
    (hmode : a.mode.toNat ≤ 3) (hfec : a.fec = true → a.mode = 1#8) (han : a.an = true → a.mode = 3#8)
    (hmac : a.setMac = true → a.mac.getLsbD 40 = false ∧ a.mac ≠ 0#48) (hmin : 1518 ≤ a.maxFrame.toNat)
    (hmax : a.maxFrame.toNat ≤ 9600) (hhold : a.linkHold.toNat ≤ 10000) (hchecks : firstFail (portChecks s p a) = stOk) :
    exec (.icpPortConfig c a) s = ok c 0x600 [] (txTooLong p (onPort p (fun q => { q with
        an := a.an, maxFrame := a.maxFrame.toNat, linkHold := a.linkHold.toNat, mac := if a.setMac then a.mac else q.mac })
      (if modeChange s p a then portMode p a.mode.toNat a.fec s else s))) := by
  have harg : portArg a.port = some p := portArg_eq_some hport
  have hframe : a.maxFrame ≠ 0#16 := by bv_omega
  change execIcpPortConfig c a s = _
  simp only [execIcpPortConfig, ok, harg]
  refine icpDo_is h.1 ((firstFail_append_of_pass ?args).trans hchecks) h.2 rfl rfl
  case args => simpa [hrsv, hmode, hframe, outside_false hmin hmax, hhold] using ⟨⟨hfec, han⟩, hmac⟩

/-- Ten registers from 0x0100 on, then PORT_p_HIST and the word after it as zero (11 R246). -/
theorem exec_icpPortStatus {b : BitVec 8} (hb : b.toNat < 4) (h : Ready c 0x601 48 s) :
    Reads (.icpPortStatus c b false) c 0x601 48 s := by
  have harg : portArg b = some ⟨b.toNat, hb⟩ := portArg_eq_some rfl
  obtain ⟨htaken, hfits⟩ := h
  change ∃ p : List Byte, p.length = 48 ∧ execIcpPortStatus c b false s = _
  exact ⟨_, by simp, icpDo_ok htaken (firstFail_ok (by simp [harg])) (by simpa using hfits)⟩

theorem exec_icpPortPauseConfig {a : PauseArgs} (h : Ready c 0x602 0 s) (hrsv : a.rsv = false) (hport : a.port.toNat = p.1)
    (hscope : a.scope.toNat ≤ 2) (hwd : 1 ≤ a.wd.toNat) (hwd' : a.wd.toNat ≤ 1000) (hxoff : a.xoff.toNat ≤ 64)
    (hxon : a.xon.toNat + 8 ≤ a.xoff.toNat) : exec (.icpPortPauseConfig c a) s = ok c 0x602 [] (txStart p (xoffCheck p (portConds
      (onPort p (fun q => { q with
        pauseScope := a.scope.toNat, txPause := a.txPause, pauseWd := a.wd.toNat, xoff := a.xoff.toNat, xon := a.xon.toNat
        wdTripped := false, xoffSent := q.xoffSent && a.txPause }) s)))) := by
  have harg : portArg a.port = some p := portArg_eq_some hport
  have hnonzero : a.wd ≠ 0#16 ∧ a.xoff ≠ 0#8 := by constructor <;> bv_omega
  change execIcpPortPauseConfig c a s = _
  simp only [execIcpPortPauseConfig, ok, harg]
  refine icpDo_is h.1 (firstFail_ok ?checks) h.2 rfl rfl
  case checks => simp [hrsv, hscope, hnonzero, hwd', hxoff, hxon]

/-- With TX_QL_MODE the codes sent are held to the table "ESMC QL to rank" (11 R247). -/
theorem exec_icpPortEsmcConfig {a : EsmcArgs} (h : Ready c 0x603 0 s) (hrsv : a.rsv = false) (hport : a.port.toNat = p.1)
    (hssm : a.ssm.toNat ≤ 15) (hcodes : a.qlMode = true → esmcCodes a.ssm.toNat a.essm.toNat = true) :
    ∃ t, exec (.icpPortEsmcConfig c a) s = ok c 0x603 [] t ∧ t.port.p[p].esmcEn = a.en ∧ t.port.p[p].txQlMode = a.qlMode ∧
      t.port.p[p].extTlv = a.ext ∧ t.port.p[p].txSsm = a.ssm.toNat ∧ t.port.p[p].txEssm = a.essm.toNat := by
  have harg : portArg a.port = some p := portArg_eq_some hport
  change ∃ t, execIcpPortEsmcConfig c a s = _ ∧ _
  simp only [execIcpPortEsmcConfig, ok, harg]
  refine ⟨_, icpDo_is h.1 (firstFail_ok ?checks) h.2 rfl rfl, ?stored⟩
  case checks => simpa [hrsv, hssm] using hcodes
  case stored => simp only [onPort_port_same, and_self]

/-! The owner of a bound slot opens or closes a ring of a legal size; an operator would need a listening address on the port
(11 R247). -/

section
variable {a : RingArgs} (h : Ready c 0x604 0 s) (hrole : cmdRole c s = .owner) (hbound : pfOf s c.slot ≠ none) (hrsv : a.rsv = false)
  (hport : a.port.toNat = p.1) (hen : a.enable.toNat ≤ 1) (hmin : 16 ≤ a.count.toNat) (hmax : a.count.toNat ≤ 4096)
  (hpow : isPow2 a.count.toNat = true)
include h hrole hbound hrsv hport hen hmin hmax hpow

theorem exec_icpPortRingConfig_rx {r : Option RxRing} (hr : r = if a.enable = 1#8 then
      some { count := a.count.toNat, bufKiB := a.bufKiB.toNat, base := a.base, wb := a.wb } else none)
    (hdir : a.dir = 1#8) (hbuf : 2 ≤ a.bufKiB.toNat) (hbuf' : a.bufKiB.toNat ≤ 10)
    (hholds : s.port.p[p].maxFrame ≤ a.bufKiB.toNat * 1024) : exec (.icpPortRingConfig c a) s =
      ok c 0x604 [] (onPort p (fun q => { q with rxRing := upd q.rxRing c.slot fun _ => r }) s) := by
  have harg : portArg a.port = some p := portArg_eq_some hport
  have hlast : a.port.toNat ≤ 3 := by omega
  have hnonzero : a.count ≠ 0#16 ∧ a.bufKiB ≠ 0#16 := by constructor <;> bv_omega
  subst hr
  change execIcpPortRingConfig c a s = _
  simp only [execIcpPortRingConfig, ok, harg, hdir, beq_self_eq_true, if_true]
  refine icpDo_is h.1 (firstFail_ok ?checks) h.2 (by simp only [beq_iff_eq]) rfl
  case checks =>
    simpa [hlast, hrole, hrsv, hen, Option.isSome_iff_ne_none.mpr hbound, hnonzero, outside_false hmin hmax, hpow,
      outside_false hbuf hbuf'] using hholds

/-- What the ring that was there had pending ends first (11 R247, 12 R262). -/
theorem exec_icpPortRingConfig_tx {t : Option TxRing}
    (ht : t = if a.enable = 1#8 then some { count := a.count.toNat, base := a.base, wb := a.wb } else none) (hdir : a.dir = 0#8) :
    exec (.icpPortRingConfig c a) s =
      ok c 0x604 [] (onPort p (fun q => { q with txRing := upd q.txRing c.slot fun _ => t }) (txRingEnd p c.slot s)) := by
  have harg : portArg a.port = some p := portArg_eq_some hport
  have hlast : a.port.toNat ≤ 3 := by omega
  have hcount : a.count ≠ 0#16 := by bv_omega
  have hnotRx : (a.dir == 1#8) = false := by rw [hdir]; decide
  subst ht
  change execIcpPortRingConfig c a s = _
  simp only [execIcpPortRingConfig, ok, harg, hnotRx, Bool.false_and, Bool.false_eq_true, if_false]
  refine icpDo_is h.1 (firstFail_ok ?checks) h.2 (by simp only [beq_iff_eq]) rfl
  case checks =>
    simp [hlast, hrole, hrsv, hdir, hen, Option.isSome_iff_ne_none.mpr hbound, hcount, outside_false hmin hmax, hpow]

end

/-! ## Waypoint's commands -/

theorem exec_icpWaypConfig {m : BitVec 16} (h : Ready c 0x610 0 s) (hlo : 500 ≤ m.toNat) (hhi : m.toNat ≤ 50000) :
    exec (.icpWaypConfig c m false) s = ok c 0x610 [] { s with wayp := { s.wayp with margin := m.toNat } } := by
  have hm : m ≠ 0#16 := by bv_omega
  change execIcpWaypConfig c m false s = _
  simp only [execIcpWaypConfig, ok]
  exact icpDo_is h.1 (firstFail_ok (by simp [hm, outside_false hlo hhi])) h.2 rfl rfl

theorem exec_icpWaypTsqLimit {sl po li : BitVec 8} {i : Fin 8} (h : Ready c 0x611 0 s) (hslot : sl.toNat = i.1)
    (hport : po.toNat = p.1) (hlo : 1 ≤ li.toNat) (hhi : li.toNat ≤ 64) : exec (.icpWaypTsqLimit c sl po li false) s =
      ok c 0x611 [] (onWayp p (fun w => { w with tsqSlot := upd w.tsqSlot i fun t => { t with limit := li.toNat } }) s) := by
  have harg : portArg po = some p := portArg_eq_some hport
  have hlast : sl.toNat ≤ 7 := by omega
  have hli : li ≠ 0#8 := by bv_omega
  change execIcpWaypTsqLimit c sl po li false s = _
  simp only [execIcpWaypTsqLimit, ok, harg, fin?_eq_some hslot]
  exact icpDo_is h.1 (firstFail_ok (by simp [hlast, hli, hhi])) h.2 rfl rfl

theorem icpLater_ok {op : Nat} {chk : State → List (Bool × Nat)} {eff : State → State} (h : Taken c op s)
    (hchecks : firstFail (chk s) = stOk) : icpLater c op chk eff s = .next (eff s) :=
  icp_later h (if_pos hchecks)

/-! A calibration series starts on a port whose link is up and which runs no other (12 R266, R267). -/

section
variable {po : BitVec 8} {n : BitVec 16} (hport : po.toNat = p.1) (hlink : s.port.p[p].link = true) (hmode : s.port.p[p].mode ≠ 0)
  (hidle : s.wayp.p[p].cal = none) (hlo : 1 ≤ n.toNat) (hhi : n.toNat ≤ 1000)
include hport hlink hmode hidle hlo hhi

/-- The pulses go out with the second boundaries of PPSOUT0, which has to run (12 R253, R267). -/
theorem exec_icpWaypCalPulse (h : Taken c 0x612 s) (hpps : ppsRuns s s.mile.pps[0] = true) :
    exec (.icpWaypCalPulse c po n false) s = .next (onWayp p (fun w => { w with cal := some {
      cmd := c, loop_ := false, n := n.toNat, rx := p, left := n.toNat, start := s.time.odo } }) s) := by
  have harg : portArg po = some p := portArg_eq_some hport
  have hn : n ≠ 0#16 := by bv_omega
  change execIcpWaypCalPulse c po n false s = _
  simp only [execIcpWaypCalPulse]
  rw [icpLater_ok h (firstFail_ok ?checks)]
  case checks => simp [harg, hn, hhi, hpps, portDown_false hport hlink hmode, calBusy_false hport hidle]
  simp only [calStart, harg]
  rfl

/-- The first loop-back frame goes to the launch queue at once, so N - 1 are left (12 R253). -/
theorem exec_icpWaypLoopback {rx : BitVec 8} {r : Fin 4} (hrx : rx.toNat = r.1) (hrxLink : s.port.p[r].link = true)
    (hrxMode : s.port.p[r].mode ≠ 0) (h : Taken c 0x613 s) : exec (.icpWaypLoopback c po rx n false) s =
      .next (calLaunch p (nowQ s) (onWayp p (fun w => { w with cal := some {
        cmd := c, loop_ := true, n := n.toNat, rx := r, left := n.toNat - 1, start := s.time.odo } }) s)) := by
  have harg : portArg po = some p := portArg_eq_some hport
  have hrxArg : portArg rx = some r := portArg_eq_some hrx
  have hn : n ≠ 0#16 := by bv_omega
  change execIcpWaypLoopback c po rx n false s = _
  simp only [execIcpWaypLoopback]
  rw [icpLater_ok h (firstFail_ok ?checks)]
  case checks =>
    simp [harg, hrxArg, hn, hhi, portDown_false hport hlink hmode, portDown_false hrx hrxLink hrxMode, calBusy_false hport hidle]
  simp only [calStart, harg, hrxArg]
  rfl

end

/-- The record is of the mode and FEC option in force, and is loaded at once (12 R253). -/
theorem exec_icpWaypCalSet {a : CalSetArgs} (h : Ready c 0x614 0 s) (hrsv : a.rsv = false) (hport : a.port.toNat = p.1)
    (hunc : 1 ≤ a.unc.toNat) (hunc' : a.unc.toNat ≤ 4000) (htx : a.txLat.toNat ≤ 1000000) (hrx : a.rxLat.toNat ≤ 1000000)
    (hopen : s.regs.lk.getLsbD 3 = false) : exec (.icpWaypCalSet c a) s =
      ok c 0x614 [] (calLoad p (calStore p s.port.p[p].mode s.port.p[p].fec
        { txLat := a.txLat.toNat, rxLat := a.rxLat.toNat, unc := a.unc.toNat, conn := a.conn, eq := s.port.p[p].eq } s)) := by
  have harg : portArg a.port = some p := portArg_eq_some hport
  have hsome : a.unc ≠ 0#16 := by bv_omega
  change execIcpWaypCalSet c a s = _
  simp only [execIcpWaypCalSet, ok, harg]
  refine icpDo_is h.1 (firstFail_ok ?checks) h.2 rfl rfl
  case checks => simpa [hrsv, hsome, hunc', htx, hrx] using hopen

/-- Settles O20: one lemma for each command, two for ICP_PORT_RING_CONFIG. -/
theorem portCommands : Obligations.PortCommands := by
  intro c s
  exact ⟨fun a p => exec_icpPortConfig, fun b => exec_icpPortStatus, fun a p => exec_icpPortPauseConfig,
    fun a p => exec_icpPortEsmcConfig,
    fun a p h hrole hbound hrsv hport hen hmin hmax hpow r t hr ht =>
      ⟨exec_icpPortRingConfig_rx h hrole hbound hrsv hport hen hmin hmax hpow hr,
        exec_icpPortRingConfig_tx h hrole hbound hrsv hport hen hmin hmax hpow ht⟩,
    fun m => exec_icpWaypConfig, fun sl po li i p => exec_icpWaypTsqLimit,
    fun po p n hport hlink hmode hidle hlo hhi => ⟨exec_icpWaypCalPulse hport hlink hmode hidle hlo hhi,
      fun rx r => exec_icpWaypLoopback hport hlink hmode hidle hlo hhi⟩, fun a p => exec_icpWaypCalSet⟩

end Sys2Proof.Proofs
end

