-- ==== Sys2Proof/Proofs/InvariantKept.lean ====
section
/-!
SUPPORT. What every step keeps: the queue behind its command, the parts a command does not act on, the bounds of the severities,
the canonical form of every sparse map, and listening addresses that stay apart (13 R269). All of it is read off `exec_moves` and
`exec_moves_listed`.
-/
namespace Sys2Proof.Proofs
open Sys2Proof Sys2Proof.Machine Sys2Proof.Claims Sys2Proof.Laws

/-! ## A step and the queue -/

/-- Settles O1: `step` is a match on the queue. -/
theorem stepRunsFront : Obligations.StepRunsFront :=
  fun c q s => ⟨rfl, fun hempty => by rw [step, hempty]⟩

/-- Settles O35: `Moves` keeps the queue, so a step leaves what `step` put behind the command. -/
theorem queueKept : Obligations.QueueKept := by
  refine ⟨fun c s t h => (exec_moves c s t h).pending, fun s t h => ?_⟩
  rcases step_cases h with ⟨hempty, rfl⟩ | ⟨c, q, hqueue, hexec⟩
  · rw [hempty, List.tail_nil]
  · rw [hqueue, List.tail_cons, (exec_moves c { s with pending := q } t hexec).pending]

/-! ## The frame of a command -/

theorem partBit_injective {p q : StatePart} (h : partBit p = partBit q) : p = q := by
  have hidx : ∀ r : StatePart, partBit r = r.ctorIdx + 1 := fun r => by cases r <;> rfl
  rw [hidx, hidx] at h
  rw [← StatePart.ofNat_ctorIdx p, Nat.succ.inj h, StatePart.ofNat_ctorIdx]

theorem modeWord_testBit_partBit (p : StatePart) : Nat.testBit 0x2000001 (partBit p) = false := by cases p <;> rfl

theorem one_testBit_partBit (p : StatePart) : Nat.testBit 1 (partBit p) = false := by cases p <;> rfl

/-- A part is the same where the mask of a change has not its bit. -/
theorem same_of_moves {k : Nat} {s t : State} (h : Moves k s t) {p : StatePart} (hp : k.testBit (partBit p) = false) :
    p.same s t := by
  cases p
  case aon => exact h.aon hp
  case time => exact h.time hp
  case cairn => exact h.cairn hp
  case sign => exact h.sign hp
  case guy => exact h.guy hp
  case mile => exact h.mile hp
  case tdc => exact h.tdc hp
  case gnss => exact h.gnss hp
  case port => exact h.port hp
  case wayp => exact h.wayp hp
  case serv => exact h.serv hp
  case ptp => exact h.ptp hp
  case foot => exact h.foot hp
  case vault => exact h.vault hp
  case flash => exact h.flash hp
  case host => exact h.host hp
  case slots => exact h.slots hp
  case regs => exact h.regs hp
  case icu => exact h.icu hp
  case trail => exact h.trail hp
  case fault => exact h.fault hp
  case perf => exact h.perf hp
  case pert => exact h.pert hp
  case sys => exact h.sys hp

/-- A mask within the listed parts has no bit of a part that is not listed. -/
theorem testBit_of_withinParts {k : Nat} {c : Instr} {p : StatePart} (h : withinParts k c = true) (hp : p ∉ mayChange c) :
    k.testBit (partBit p) = false := by
  have hother : ∀ q ∈ mayChange c, partBit q ≠ partBit p := fun q hq e => hp (partBit_injective e ▸ hq)
  unfold withinParts at h
  split at h
  · exact testBit_of_within _ h (modeWord_testBit_partBit p) hother
  · exact testBit_of_within _ h (one_testBit_partBit p) hother

/-- Settles O36: a command moves within a mask of listed parts (`exec_moves_listed`). -/
theorem frameOfEveryCommand : Obligations.FrameOfEveryCommand := by
  intro c s t h p hp
  obtain ⟨k, hmoves, hlisted⟩ := exec_moves_listed c s
  exact same_of_moves (hmoves t h) (testBit_of_withinParts hlisted hp)

/-! ## The invariant -/

/-- What `Moves` keeps of each component makes up the invariant. -/
theorem inv_of_moves {k : Nat} {s t : State} (h : Moves k s t) (hs : Inv s) : Inv t := by
  obtain ⟨hsev, ⟨hsticky, hcnt, htoll, hgrants, hhops, hgen, himage, hwin⟩, hcycle⟩ := hs
  exact ⟨h.faultOn hsev, ⟨h.regsOn hsticky, h.perfOn hcnt, h.servOn.1 htoll, h.ptpOn.1 hgrants, h.ptpOn.2 hhops, h.vaultOn.2 hgen,
    h.flashOn himage, h.hostOn hwin⟩, (h.aonOn hcycle).2⟩

/-- Settles O37: every map is empty after reset, and the severities are a table of 64 numbers. -/
theorem invariantAtReset : Obligations.InvariantAtReset := by
  have hwin : ∀ i : Fin 8, mwf 0#8 State.reset.host.mbox[i].win = true := by intro i; simp [State.reset, mwf]
  have hsev : SeveritiesOk State.reset := by unfold SeveritiesOk; decide
  exact ⟨hsev, ⟨rfl, rfl, rfl, rfl, rfl, rfl, rfl, hwin⟩, by decide⟩

/-- Settles O38: an idle step leaves the state, and a command moves it (`exec_moves`). -/
theorem invariantKept : Obligations.InvariantKept := by
  intro s t hs h
  rcases step_cases h with ⟨_, rfl⟩ | ⟨c, q, _, hexec⟩
  · exact hs
  · exact inv_of_moves (exec_moves c { s with pending := q } t hexec) hs

/-! ## Listening addresses -/

/-- Two addresses clash where they share ADDR, VLAN and a port (13 R269). -/
theorem addrClash_eq_false {x y : ServAddr} :
    addrClash x y = false ↔ (x.addr = y.addr → x.vlan = y.vlan → x.ports &&& y.ports = 0#4) := by
  simp [addrClash]

theorem addressesOk_iff_apart {s : State} : AddressesOk s ↔ AddrsApart s.serv := by
  simp only [AddressesOk, AddrsApart, addrClash_eq_false]

theorem addressesOk_reset : AddressesOk State.reset := by
  intro i j k l _ x y hx _
  simp [State.reset] at hx

/-- An address of the device at another place than slot `i`'s index `n` is among those a new one is compared with. -/
theorem mem_otherAddrs {s : State} {i j : Fin 8} {n : Nat} {l : Fin 32} {y : ServAddr} (hne : (j, l.1) ≠ (i, n))
    (hy : s.serv.slots[j].addrs[l] = some y) : y ∈ otherAddrs s i n := by
  have hplace : (!(j == i && l.1 == n)) = true := by
    simpa [Prod.ext_iff, imp_iff_not_or] using hne
  simp only [otherAddrs, List.mem_flatMap, List.mem_filterMap, List.mem_filter]
  exact ⟨j, List.mem_finRange j, l, ⟨List.mem_finRange l, hplace⟩, hy⟩

/-- What ICP_SERV_ADDR_SET asks of its arguments, and of the number of addresses in the device (13 R300, R301). -/
structure AddrArgsOk (c : CmdRef) (a : AddrSetArgs) (s : State) : Prop where
  rsv : a.rsv = false
  idx : a.idx.toNat ≤ 31
  serves : (a.ntp || a.nts) = true
  ipv4 : a.ipv6 = false → a.addr.toNat % 2 ^ 96 = 0
  unicast : isUnicast (setAddr a) = true
  vlan : a.vlan.toNat ≤ 4094
  prefix6 : a.ipv6 = true → 32 ≤ a.prefix6.toNat ∧ a.prefix6.toNat ≤ 128
  ports : 1 ≤ a.ports.toNat ∧ a.ports.toNat ≤ 15
  rate : 1 ≤ a.rate.toNat ∧ a.rate.toNat ≤ 1048575
  burst : 1 ≤ a.burst.toNat ∧ a.burst.toNat ≤ 1024
  smear : a.smear = true → a.w ≠ 0#32
  window : a.w ≠ 0#32 → 3600 ≤ a.w.toNat ∧ a.w.toNat ≤ 172800
  depth : (a.burst.toNat - 1) * emission a.rate.toNat < 2 ^ 30
  quota : addrAt s c.slot a.idx.toNat = none → addrTotal s < 256

/-- The checks of ICP_SERV_ADDR_SET on its arguments. -/
def addrArgChecks (c : CmdRef) (a : AddrSetArgs) (s : State) : List (Bool × Nat) := [
  (a.rsv || decide (31 < a.idx.toNat) || (!a.ntp && !a.nts) || (!a.ipv6 && a.addr.toNat % 2 ^ 96 != 0), stBadArg),
  (!isUnicast (setAddr a) || a.vlan == 4095#16 || (a.ipv6 && decide (a.prefix6.toNat < 32)), stBadArg),
  (a.ports == 0#8 || a.rate == 0#32 || a.burst == 0#16 || (a.smear && a.w == 0#32), stBadArg),
  (decide (4095 < a.vlan.toNat) || decide (15 < a.ports.toNat) || (a.ipv6 && decide (128 < a.prefix6.toNat)), stRange),
  (decide (1048575 < a.rate.toNat) || decide (1024 < a.burst.toNat) || (a.w != 0#32 && outside a.w.toNat 3600 172800), stRange),
  (decide (2 ^ 30 ≤ (a.burst.toNat - 1) * emission a.rate.toNat), stRange),
  ((addrAt s c.slot a.idx.toNat).isNone && decide (256 ≤ addrTotal s), stQuota)]

theorem AddrArgsOk.checks_pass {c : CmdRef} {a : AddrSetArgs} {s : State} (h : AddrArgsOk c a s) :
    ∀ x ∈ addrArgChecks c a s, x.1 = false := by
  obtain ⟨hports, hports'⟩ := h.ports
  obtain ⟨hrate, hrate'⟩ := h.rate
  obtain ⟨hburst, hburst'⟩ := h.burst
  have hvlan := h.vlan
  have hnonzero : a.ports ≠ 0#8 ∧ a.rate ≠ 0#32 ∧ a.burst ≠ 0#16 ∧ a.vlan ≠ 4095#16 := by
    refine ⟨?_, ?_, ?_, ?_⟩ <;> bv_omega
  have hserves : a.ntp = false → a.nts = true := by simpa [Bool.or_eq_true, or_iff_not_imp_left] using h.serves
  simp only [addrArgChecks, List.forall_mem_cons, List.not_mem_nil, false_implies, implies_true, and_true]
  refine ⟨?_, ?_, ?_, ?_, ?_, ?_, ?_⟩
  · simpa [h.rsv, h.idx] using ⟨hserves, h.ipv4⟩
  · simpa [h.unicast, hnonzero] using fun e => (h.prefix6 e).1
  · simpa [hnonzero] using h.smear
  · simpa [show a.vlan.toNat ≤ 4095 by omega, hports'] using fun e => (h.prefix6 e).2
  · simpa [hrate', hburst', outside] using h.window
  · simpa using h.depth
  · simpa using h.quota

/-- ICP_SERV_ADDR_SET is refused with ORDER where its address would share ADDR, VLAN and a port with another (13 R269, R301). -/
theorem exec_icpServAddrSet_clash {c : CmdRef} {a : AddrSetArgs} {s : State} (h : Taken c 0x700 s) (hargs : AddrArgsOk c a s)
    (hclash : (otherAddrs s c.slot a.idx.toNat).any (addrClash (newAddr a)) = true) :
    exec (.icpServAddrSet c a) s = .next (complete c 0x700 stOrder [] s) := by
  change execIcpServAddrSet c a s = _
  simp only [execIcpServAddrSet]
  refine icpDo_fails h ((firstFail_append_of_pass hargs.checks_pass).trans ?order) (by decide) (by decide) (by decide)
  case order => rw [hclash]; rfl

/-- Settles O58: the clause on steps is the part of `Moves` about the service's addresses; the refusal is the last check's. -/
theorem addressesApart : Obligations.AddressesApart := by
  refine ⟨addressesOk_reset, fun s t hs h => ?step, ?refused⟩
  case step =>
    rcases step_cases h with ⟨_, rfl⟩ | ⟨c, q, _, hexec⟩
    · exact hs
    · exact addressesOk_iff_apart.mpr ((exec_moves c { s with pending := q } t hexec).servOn.2 (addressesOk_iff_apart.mp hs))
  case refused =>
    intro c a s j l y htaken hrsv hidx hserves hipv4 huni hvlan hprefix hports hports' hrate hrate' hburst hburst' hsmear hw hdepth
      hquota hne hy haddr hvlanEq hoverlap
    have hclash : addrClash (newAddr a) y = true := by
      simpa [addrClash, newAddr, haddr, hvlanEq, BitVec.and_comm _ y.ports] using hoverlap
    exact exec_icpServAddrSet_clash htaken
      ⟨hrsv, hidx, hserves, hipv4, huni, hvlan, hprefix, ⟨hports, hports'⟩, ⟨hrate, hrate'⟩, ⟨hburst, hburst'⟩, hsmear, hw, hdepth,
        hquota⟩
      (List.any_eq_true.mpr ⟨y, mem_otherAddrs hne hy, hclash⟩)

end Sys2Proof.Proofs
end

