-- ==== Sys2Proof/Proofs/CommandGate.lean ====
section
/-!
SUPPORT. The rows that are ICP commands run in the shared frame `icp`: it turns a command away for its slot's role or the mode
(18 R404, 16 R366, 02 R47), and it always answers a next state. The statements about commands turned away, and about no command
stopping the block.
-/
namespace Sys2Proof.Proofs
open Sys2Proof Sys2Proof.Machine Sys2Proof.Claims Sys2Proof.Laws

/-! ## The frame of the ICP commands -/

/-- A meaning runs in the frame of 18 R404, with a part of its own. -/
def InFrame (c : CmdRef) (op : Nat) (s : State) (o : Out) : Prop := ∃ body, o = icp c op body s

section
variable (c : CmdRef) (op : Nat) (s : State)

theorem InFrame.icp (body : State → IcpRes) : InFrame c op s (icp c op body s) := ⟨body, rfl⟩

theorem InFrame.icpDo (chk : State → List (Bool × Nat)) (eff : State → State) (resp : State → List Byte) :
    InFrame c op s (icpDo c op chk eff resp s) := .icp c op s _

theorem InFrame.icpGet (resp : State → List Byte) : InFrame c op s (icpGet c op resp s) := .icp c op s _

theorem InFrame.icpLater (chk : State → List (Bool × Nat)) (eff : State → State) : InFrame c op s (icpLater c op chk eff s) :=
  .icp c op s _

theorem InFrame.keyCmd (chk : List (Bool × Nat)) (k : KeyOp) : InFrame c op s (keyCmd c op chk k s) := .icp c op s _

theorem InFrame.ringList (resp : State → List Byte) : InFrame c op s (ringList c op resp s) := .icpDo c op s _ _ _

end

/-- Every row of an ICP command runs in the frame. -/
theorem inFrame_of_icpOf {i : Instr} {c : CmdRef} {op : Nat} (h : icpOf i = some (c, op)) (s : State) :
    InFrame c op s (exec i s) := by
  cases i
  case icpHello | icpQuiesce | icpPowerGate | icpTimeStep | icpSlotConfig | icpOutCalibrate | icpTdcMeasure | icpGnssFeSpi |
      icpNtsMint | icpPtpGrantLoad | icpPtpGrantCancel | icpFbHandover | icpAttest | icpFwFinish | icpFaultInject | icpTrailRead
      | icpTrailFlush | icpPerfRead =>
    cases h
    simp only [exec, execIcpHello, execIcpQuiesce, execIcpPowerGate, execIcpTimeStep, execIcpSlotConfig, execIcpOutCalibrate,
      execIcpTdcMeasure, execIcpGnssFeSpi, execIcpNtsMint, execIcpPtpGrantLoad, execIcpPtpGrantCancel, execIcpFbHandover,
      execIcpAttest, execIcpFwFinish, execIcpFaultInject, execIcpTrailRead, execIcpTrailFlush, execIcpPerfRead]
    exact .icp _ _ _ _
  case icpProvisionDone | icpResume | icpSysReset | icpModeConfig | icpTimeGet | icpLeapSet | icpStepPermit | icpRefConfig |
      icpRefPpsInput | icpRefThresh | icpRefClear | icpRefAsym | icpSelConfig | icpSwbConfig | icpLanternConfig | icpHoldConfig
      | icpHoldOscConfig | icpHoldReset | icpAtomUartConfig | icpPpsConfig | icpFreqConfig | icpTodConfig | icpMileArm |
      icpMileDisarm | icpMileCaptureConfig | icpEpochConfig | icpTdcConfig | icpTdcTimebase | icpTdcCalConfig | icpTdcSkew |
      icpGnssFeConfig | icpGnssSignals | icpGnssChanStatus | icpGnssMeasGet | icpGnssPosition | icpGnssSolStatus | icpGnssDelay
      | icpGnssIntegrityConfig | icpGnssGuardConfig | icpGnssGuardRelease | icpGnssBurst | icpPortConfig | icpPortStatus |
      icpPortPauseConfig | icpPortEsmcConfig | icpPortRingConfig | icpWaypConfig | icpWaypTsqLimit | icpWaypCalSet |
      icpServAddrSet | icpServAddrDel | icpServConfig | icpServSlotLimit | icpPtpClockConfig | icpPtpInstanceSet |
      icpPtpInstanceDel | icpPtpQuota | icpPtpBudget | icpPtpGrantRead | icpPtpClientConfig | icpFbConfig | icpFbAsym |
      icpFbTake | icpKeyEnroll | icpIdCertSet | icpVaultConfig | icpFwBegin | icpFwWrite | icpFwCommit | icpFaultConfig |
      icpCairnConfig | icpCairnLast | icpPerfDumpConfig | icpPerfAcl | icpPerturbArm | icpPerturbLive =>
    cases h
    simp only [exec, execIcpProvisionDone, execIcpResume, execIcpSysReset, execIcpModeConfig, execIcpTimeGet, execIcpLeapSet,
      execIcpStepPermit, execIcpRefConfig, execIcpRefPpsInput, execIcpRefThresh, execIcpRefClear, execIcpRefAsym,
      execIcpSelConfig, execIcpSwbConfig, execIcpLanternConfig, execIcpHoldConfig, execIcpHoldOscConfig, execIcpHoldReset,
      execIcpAtomUartConfig, execIcpPpsConfig, execIcpFreqConfig, execIcpTodConfig, execIcpMileArm, execIcpMileDisarm,
      execIcpMileCaptureConfig, execIcpEpochConfig, execIcpTdcConfig, execIcpTdcTimebase, execIcpTdcCalConfig, execIcpTdcSkew,
      execIcpGnssFeConfig, execIcpGnssSignals, execIcpGnssChanStatus, execIcpGnssMeasGet, execIcpGnssPosition,
      execIcpGnssSolStatus, execIcpGnssDelay, execIcpGnssIntegrityConfig, execIcpGnssGuardConfig, execIcpGnssGuardRelease,
      execIcpGnssBurst, execIcpPortConfig, execIcpPortStatus, execIcpPortPauseConfig, execIcpPortEsmcConfig,
      execIcpPortRingConfig, execIcpWaypConfig, execIcpWaypTsqLimit, execIcpWaypCalSet, execIcpServAddrSet, execIcpServAddrDel,
      execIcpServConfig, execIcpServSlotLimit, execIcpPtpClockConfig, execIcpPtpInstanceSet, execIcpPtpInstanceDel,
      execIcpPtpQuota, execIcpPtpBudget, execIcpPtpGrantRead, execIcpPtpClientConfig, execIcpFbConfig, execIcpFbAsym,
      execIcpFbTake, execIcpKeyEnroll, execIcpIdCertSet, execIcpVaultConfig, execIcpFwBegin, execIcpFwWrite, execIcpFwCommit,
      execIcpFaultConfig, execIcpCairnConfig, execIcpCairnLast, execIcpPerfDumpConfig, execIcpPerfAcl, execIcpPerturbArm,
      execIcpPerturbLive]
    exact .icpDo _ _ _ _ _ _
  case icpModeGet | icpSlotInfo | icpSlotList | icpRefStatus | icpHoldStatus | icpOutStatus | icpTdcStatus | icpServAddrList |
      icpServStatus | icpPtpStatus | icpFbStatus | icpIdGet | icpVaultStatus | icpFwStatus | icpFaultStatus =>
    cases h
    simp only [exec, execIcpModeGet, execIcpSlotInfo, execIcpSlotList, execIcpRefStatus, execIcpHoldStatus, execIcpOutStatus,
      execIcpTdcStatus, execIcpServAddrList, execIcpServStatus, execIcpPtpStatus, execIcpFbStatus, execIcpIdGet,
      execIcpVaultStatus, execIcpFwStatus, execIcpFaultStatus]
    exact .icpGet _ _ _ _
  case icpWaypCalPulse | icpWaypLoopback =>
    cases h
    simp only [exec, execIcpWaypCalPulse, execIcpWaypLoopback]
    exact .icpLater _ _ _ _ _
  case icpNtsKeyInstall | icpNtsKeyRotate | icpNtsKeyInvalidate | icpPtpKeyInstall | icpPtpKeyRotate | icpPtpKeyInvalidate =>
    cases h
    simp only [exec, execIcpNtsKeyInstall, execIcpNtsKeyRotate, execIcpNtsKeyInvalidate, execIcpPtpKeyInstall,
      execIcpPtpKeyRotate, execIcpPtpKeyInvalidate]
    exact .keyCmd _ _ _ _ _
  case icpNtsKeyList | icpPtpKeyList =>
    cases h
    simp only [exec, execIcpNtsKeyList, execIcpPtpKeyList]
    exact .ringList _ _ _ _
  all_goals cases h

/-! ## A command turned away -/

section
variable {i : Instr} {c : CmdRef} {op : Nat} {r : OpRow} {s : State} (hicp : icpOf i = some (c, op)) (hlock : s.aon.locked = true)
  (hnew : activeOf c s = none) (himage : loaderRuns s = false) (hrow : opRow op = some r)
include hicp hlock hnew himage hrow

theorem exec_denied_of_role (hrole : r.allows (roleOf s c.slot) = false) :
    exec i s = .next (complete c op stDenied [] (deny c.slot 5 op s)) := by
  have hgate : gate c op s = some (stDenied, true) := by simp [gate, hnew, roleMode, hrow, himage, hrole]
  obtain ⟨body, hexec⟩ := inFrame_of_icpOf hicp s
  rw [hexec, icp_turned hlock hgate, icpFail, if_pos rfl]

theorem exec_mode_of_mode (hrole : r.allows (roleOf s c.slot) = true) (hmode : r.inMode s.sys.mode = false) :
    exec i s = .next (complete c op stMode [] s) := by
  have hgate : gate c op s = some (stMode, false) := by simp [gate, hnew, roleMode, hrow, himage, hrole, hmode]
  obtain ⟨body, hexec⟩ := inFrame_of_icpOf hicp s
  rw [hexec, icp_turned hlock hgate, icpFail, if_neg Bool.false_ne_true]

end

/-- Settles O50: the gate's check of the role, then of the mode. -/
theorem turnedAway : Obligations.TurnedAway :=
  fun _ _ _ _ _ hicp hlock hnew himage hrow =>
    ⟨exec_denied_of_role hicp hlock hnew himage hrow, exec_mode_of_mode hicp hlock hnew himage hrow⟩

/-! ## Every command runs -/

/-- A meaning answers a next state. -/
def Nexts (o : Out) : Prop := ∃ t, o = .next t

theorem Nexts.next (t : State) : Nexts (.next t) := ⟨t, rfl⟩

theorem Nexts.ite {p : Prop} {_ : Decidable p} {a b : Out} (ha : Nexts a) (hb : Nexts b) : Nexts (if p then a else b) := by
  split <;> assumption

/-- The frame of the ICP commands answers a next state whatever the command's own part does (18 R403). -/
theorem Nexts.icp (c : CmdRef) (op : Nat) (body : State → IcpRes) (s : State) : Nexts (icp c op body s) := by
  unfold Machine.icp
  refine .ite (.next _) ?_
  split
  · exact .next _
  · split
    · exact .ite (.next _) (.ite (.next _) (.ite (.next _) (.next _)))
    · exact .next _

theorem InFrame.nexts {c : CmdRef} {op : Nat} {s : State} {o : Out} (h : InFrame c op s o) : Nexts o := by
  obtain ⟨body, rfl⟩ := h
  exact .icp c op body s

/-! The events that answer by a match on what they find. -/

section
variable (s : State)

theorem nexts_cairnSignDone (ok : Bool) : Nexts (execCairnSignDone ok s) := by
  unfold execCairnSignDone
  split
  · exact .next _
  · exact .next _

theorem nexts_atomUartPoll : Nexts (execAtomUartPoll s) := by
  unfold execAtomUartPoll
  split
  · exact .next _
  · exact .next _

theorem nexts_reservationDeadline (p : Fin 4) (id : Nat) : Nexts (execReservationDeadline p id s) := by
  unfold execReservationDeadline
  split
  · exact .next _
  · exact .next _

theorem nexts_launchPoolDeadline (p : Fin 4) (late : Bool) : Nexts (execLaunchPoolDeadline p late s) := by
  unfold execLaunchPoolDeadline
  split
  · exact .next _
  · exact .next _

theorem nexts_frameLaunch (p : Fin 4) : Nexts (execFrameLaunch p s) := by
  unfold execFrameLaunch
  split
  · exact .next _
  · exact .next _

theorem nexts_keyStoreCommit (ok : Bool) : Nexts (execKeyStoreCommit ok s) := by
  unfold execKeyStoreCommit
  split
  · exact .next _
  · exact .ite (.next _) (.ite (.next _) (.ite (.next _) (.next _)))

theorem nexts_keyCommandTimeout (off : BitVec 16) : Nexts (execKeyCommandTimeout off s) := by
  simp only [execKeyCommandTimeout]
  split
  · exact .ite (.next _) (.next _)
  · exact .next _

theorem nexts_atomUartResponse (bytes : List Byte) : Nexts (execAtomUartResponse bytes s) := by
  unfold execAtomUartResponse
  split
  · exact .ite (.next _) (.next _)
  · exact .next _

theorem nexts_asymCheckEnd (n : Fin 12) : Nexts (execAsymCheckEnd n s) := by
  unfold execAsymCheckEnd
  split
  · exact .next _
  · exact .ite (.next _) (.ite (.next _) (.next _))

theorem nexts_todinMessage (line : Fin 2) (ms : Nat) (bytes : List Byte) : Nexts (execTodinMessage line ms bytes s) := by
  unfold execTodinMessage
  refine .ite (.next _) (.ite (.next _) ?_)
  split
  · exact .next _
  · exact .ite (.next _) (.ite (.next _) (.next _))

end

/-- Settles O34: a meaning is the frame `icp`, or a next state on every side of its conditions. -/
theorem everyCommandRuns : Obligations.EveryCommandRuns := by
  intro c s
  change Nexts (exec c s)
  cases h : icpOf c with
  | some x => exact (inFrame_of_icpOf (c := x.1) (op := x.2) h s).nexts
  | none =>
    cases c
    case timeIncrCommit | timeSlewCommit | vaultReload | heartbeatReceive | heartbeatMiss | addressAnnounceRound |
        learnWindowEnd | tempLost | slotEvaluation | driftWindowEnd | creditRateUpdate | tollgateScrubVisit | grantVisit |
        mcastVisit | hostSpiWrite | hostSpiRead | keyDrained =>
      exact .ite (.next _) (.next _)
    case cryptoSelfTest | remaskVisit | heartbeatSend | faultLineRise =>
      exact .ite (.next _) (.ite (.next _) (.next _))
    case cairnSignDone => exact nexts_cairnSignDone ..
    case atomUartPoll => exact nexts_atomUartPoll ..
    case reservationDeadline => exact nexts_reservationDeadline ..
    case launchPoolDeadline => exact nexts_launchPoolDeadline ..
    case frameLaunch => exact nexts_frameLaunch ..
    case keyStoreCommit => exact nexts_keyStoreCommit ..
    case keyCommandTimeout => exact nexts_keyCommandTimeout ..
    case atomUartResponse => exact nexts_atomUartResponse ..
    case asymCheckEnd => exact nexts_asymCheckEnd ..
    case todinMessage => exact nexts_todinMessage ..
    case icpHello | icpModeGet | icpProvisionDone | icpQuiesce | icpResume | icpPowerGate | icpSysReset | icpModeConfig |
        icpTimeGet | icpLeapSet | icpTimeStep | icpStepPermit | icpSlotConfig | icpSlotInfo | icpSlotList | icpRefConfig |
        icpRefPpsInput | icpRefThresh | icpRefStatus | icpRefClear | icpRefAsym | icpSelConfig | icpSwbConfig | icpLanternConfig
        | icpHoldConfig | icpHoldOscConfig | icpHoldStatus | icpHoldReset | icpAtomUartConfig | icpPpsConfig | icpFreqConfig |
        icpTodConfig | icpOutCalibrate | icpMileArm | icpMileDisarm | icpMileCaptureConfig | icpEpochConfig | icpOutStatus |
        icpTdcConfig | icpTdcMeasure | icpTdcTimebase | icpTdcCalConfig | icpTdcSkew | icpTdcStatus | icpGnssFeConfig |
        icpGnssFeSpi | icpGnssSignals | icpGnssChanStatus | icpGnssMeasGet | icpGnssPosition | icpGnssSolStatus | icpGnssDelay |
        icpGnssIntegrityConfig | icpGnssGuardConfig | icpGnssGuardRelease | icpGnssBurst | icpPortConfig | icpPortStatus |
        icpPortPauseConfig | icpPortEsmcConfig | icpPortRingConfig | icpWaypConfig | icpWaypTsqLimit | icpWaypCalPulse |
        icpWaypLoopback | icpWaypCalSet | icpServAddrSet | icpServAddrDel | icpServAddrList | icpServConfig | icpServSlotLimit |
        icpServStatus | icpNtsMint | icpPtpClockConfig | icpPtpInstanceSet | icpPtpInstanceDel | icpPtpQuota | icpPtpBudget |
        icpPtpStatus | icpPtpGrantRead | icpPtpGrantLoad | icpPtpGrantCancel | icpPtpClientConfig | icpFbConfig | icpFbStatus |
        icpFbHandover | icpFbAsym | icpFbTake | icpNtsKeyInstall | icpNtsKeyRotate | icpNtsKeyInvalidate | icpNtsKeyList |
        icpPtpKeyInstall | icpPtpKeyRotate | icpPtpKeyInvalidate | icpPtpKeyList | icpIdGet | icpAttest | icpKeyEnroll |
        icpIdCertSet | icpVaultConfig | icpVaultStatus | icpFwStatus | icpFwBegin | icpFwWrite | icpFwFinish | icpFwCommit |
        icpFaultStatus | icpFaultConfig | icpFaultInject | icpTrailRead | icpTrailFlush | icpCairnConfig | icpCairnLast |
        icpPerfRead | icpPerfDumpConfig | icpPerfAcl | icpPerturbArm | icpPerturbLive =>
      cases h
    all_goals exact .next _

end Sys2Proof.Proofs
end

