-- ==== Sys2Proof/Proofs/IndirectAndLocked.lean ====
section
/-!
SUPPORT. Accesses through IND_DATA (19 R424), writes of locked registers (19 R418, R419) and writes of a request ring's window
(18 R399, R412), with the statements about them.
-/
namespace Sys2Proof.Proofs
open Sys2Proof Sys2Proof.Machine Sys2Proof.Claims Sys2Proof.Laws

variable {s : State} {rd : Fin 9}

/-! ## The addresses of the indirect space

Of the operations an access to IND_DATA runs, only `indStep` writes them. -/

/-- The indirect addresses and their AUTOINC bits are the same in two states. -/
def IndKept (s t : State) : Prop := t.regs.indAddr = s.regs.indAddr ∧ t.regs.indInc = s.regs.indInc

theorem IndKept.of_regs {s t : State} (h : t.regs = s.regs) : IndKept s t := by rw [IndKept, h]; exact ⟨rfl, rfl⟩

theorem trail_indKept (ty : Nat) (pl : List Byte) (s : State) : IndKept s (trail ty pl s) := by
  unfold trail IndKept
  dsimp only
  split <;> exact ⟨rfl, rfl⟩

theorem raiseOwn_regs (i : Fin 8) (src : Nat) (s : State) : (raiseOwn i src s).regs = s.regs :=
  (raiseOwn_moves (m := 589824) rfl (.refl _ s) i src).regs rfl

theorem deny_indKept (i : Fin 8) (kind a : Nat) (s : State) : IndKept s (deny i kind a s) := by
  unfold deny
  dsimp only
  split
  · exact ⟨rfl, rfl⟩
  · rw [IndKept, raiseOwn_regs]
    exact trail_indKept 0x13 _ _

theorem stickyTake_indKept (rd : Fin 9) (r : Nat) (s : State) : IndKept s (stickyTake rd r s) := by
  unfold stickyTake reportNow
  split_ifs <;> exact ⟨rfl, rfl⟩

theorem chanRead_indKept (rd : Fin 9) (n : Fin 128) (o : Nat) (s : State) : IndKept s (chanRead rd n o s).2 := by
  unfold chanRead shadowSet
  dsimp only
  split_ifs <;> exact ⟨rfl, rfl⟩

theorem IndKept.trans {s t u : State} (h : IndKept s t) (h' : IndKept t u) : IndKept s u :=
  ⟨h'.1.trans h.1, h'.2.trans h.2⟩

theorem chanAgain_indKept (n : Fin 128) (r : Nat) (s : State) : IndKept s (chanAgain n r s) := ⟨rfl, rfl⟩

theorem reportNow_indKept (i : Fin 8) (r : Nat) (s : State) : IndKept s (reportNow i r s) := ⟨rfl, rfl⟩

theorem reports_indKept (rs : List Report) (s : State) : IndKept s { s with regs := { s.regs with reports := rs } } := ⟨rfl, rfl⟩

theorem chanRegion_indKept (rd : Fin 9) (c : Option (Fin 128)) (o r : Nat) (s : State) : IndKept s (chanRegion rd c o r s).2 := by
  unfold chanRegion
  split
  · exact ⟨rfl, rfl⟩
  · rename_i n
    have hread := chanRead_indKept rd n o s
    dsimp only
    split
    · split_ifs
      · exact hread
      · exact hread.trans (.of_regs rfl)
    · exact ((hread.trans (chanAgain_indKept n r _)).trans (reportNow_indKept _ r _)).trans (reports_indKept _ _)

theorem latchRead_indKept (i : Fin 9) (base n a : Nat) (entry : Nat → List Word) (s : State) :
    IndKept s (latchRead i base n a entry s).2 := by
  unfold latchRead
  dsimp only
  split <;> exact ⟨rfl, rfl⟩

theorem regionWord_indKept (rd : Fin 9) (a : Nat) (s : State) : IndKept s (regionWord rd a s).2 := by
  unfold regionWord
  split
  · dsimp only
    split
    · exact stickyTake_indKept rd _ s
    · exact ⟨rfl, rfl⟩
  · exact ⟨rfl, rfl⟩
  · exact chanRegion_indKept rd _ _ _ s
  · exact latchRead_indKept rd _ _ _ _ s
  · exact latchRead_indKept rd _ _ _ _ s
  · exact ⟨rfl, rfl⟩

theorem chanWrite_indKept (n : Fin 128) (o : Nat) (v : Word) (s : State) : IndKept s (chanWrite n o v s) :=
  .of_regs ((chanWrite_moves (m := 256) rfl (.refl _ s) n o v).regs rfl)

/-- ADDR advances by 4 modulo 2^28 where AUTOINC is set, after whatever left the addresses (19 R424). -/
theorem indStep_addrStepped {t : State} (h : IndKept s t) : AddrStepped rd s (indStep rd t) := by
  obtain ⟨haddr, hinc⟩ := h
  unfold AddrStepped indStep
  rw [haddr, hinc]
  by_cases hauto : s.regs.indInc[rd] = true
  · have hmod : (s.regs.indAddr[rd].toNat + 4) % 2 ^ 28 < 2 ^ 32 := by omega
    simp only [hauto, if_true]
    refine ⟨by simpa [w32] using hmod, fun j hj => ?_, hinc⟩
    have hne : (rd : Nat) ≠ j := fun e => hj (Fin.ext e.symm)
    simp [hne]
  · simp [hauto, haddr, hinc]

theorem indRead_addrStepped : AddrStepped rd s (indRead rd s).2 := by
  unfold indRead
  dsimp only
  split
  · exact indStep_addrStepped (deny_indKept _ _ _ _)
  · split
    · exact indStep_addrStepped ⟨rfl, rfl⟩
    · exact indStep_addrStepped (regionWord_indKept _ _ _)

theorem indWrite_addrStepped (al : Nat) (v : Word) : AddrStepped rd s (indWrite rd al v s) := by
  unfold indWrite
  dsimp only
  refine indStep_addrStepped ?_
  split
  · split
    · exact ⟨rfl, rfl⟩
    · exact deny_indKept _ _ _ _
  · split
    · cases fin? 128 ((s.regs.indAddr[rd].toNat - 0x100000) / 0x200) with
      | none => exact ⟨rfl, rfl⟩
      | some n => exact chanWrite_indKept n _ _ s
    · exact ⟨rfl, rfl⟩

/-- What comes before an access, and what its data goes through after, leaves the addresses. -/
theorem AddrStepped.of_regs {r t u : State} (h : AddrStepped rd r t) (hr : r.regs = s.regs) (hu : u.regs = t.regs) :
    AddrStepped rd s u := by
  rw [AddrStepped, hu, ← hr]; exact h

theorem exec_indDataRead (h : decideAccess s rd 0xF0004 false = .ok) :
    ∃ t, exec (.indDataRead rd) s = .next t ∧ AddrStepped rd s t := by
  refine ⟨_, congrArg Host.Outcome.next ((regRead_indData rd s).trans (readBy_ok _ h)), ?_⟩
  exact AddrStepped.of_regs (indRead_addrStepped (rd := rd) (s := countReg rd 0 0xF0004 s)) (countReg_regs _ _ _ s) (give_regs _ _ _)

theorem exec_indDataWrite (v : Word) (h : decideAccess s rd 0xF0004 true = .ok) :
    ∃ t, exec (.indDataWrite rd v) s = .next t ∧ AddrStepped rd s t := by
  refine ⟨_, congrArg Host.Outcome.next (writeBy_ok _ h), ?_⟩
  have hstore : regStore rd 0xF0004 v (countReg rd 1 0xF0004 s) = indWrite rd 0 v (countReg rd 1 0xF0004 s) := by
    simp [regStore, regOf, blkOf, aliasOf, lkMask, Machine.within]
  rw [hstore]
  exact AddrStepped.of_regs (indWrite_addrStepped (rd := rd) (s := countReg rd 1 0xF0004 s) 0 v) (countReg_regs _ _ _ s) rfl

/-- Settles O49: the read, and the write. -/
theorem indirectAddress : Obligations.IndirectAddress :=
  fun _ _ => ⟨exec_indDataRead, exec_indDataWrite⟩

/-! ## Locked registers -/

section
variable {a : BitVec 20} {v : Word}

/-- A whole-word write that is permitted is carried out (19 R416). -/
theorem exec_registerWrite_ok (h : decideAccess s rd a.toNat true = .ok) :
    exec (.registerWrite rd a 0xF#4 v) s = .next (regStore rd a.toNat v (countReg rd 1 a.toNat s)) :=
  congrArg Host.Outcome.next ((if_pos rfl).trans (writeBy_ok _ h))

/-- No block's LK register is BLK_ACK. -/
theorem lkMask_blkAck (b : Nat) : lkMask b 0x3FFC = none := by simp [lkMask, Machine.within]

theorem regStore_lk {m : Word} (hal : aliasOf a.toNat = 0) (hm : lkMask (blkOf a.toNat) (regOf a.toNat) = some m) :
    regStore rd a.toNat v s = if s.regs.lk.getLsbD (blkOf a.toNat) then lockViol rd.1 a.toNat false s
      else if rd.1 = 8 then lkStore (blkOf a.toNat) (regOf a.toNat) v s else s := by
  have hack : regOf a.toNat ≠ 0x3FFC := fun e => by rw [e, lkMask_blkAck] at hm; cases hm
  simp only [regStore, hack, hm, hal, lkWrite, covers, aliasVal, beq_self_eq_true, Bool.true_or, if_true, if_false]

/-- The management processor's accesses are not counted (22 R461). -/
theorem countReg_mgmt (ev x : Nat) : countReg 8 ev x s = s := by simp [countReg]

/-- TIME_CAL_UNC[p] is at 0x70 + 4p of the TIME block (20). -/
theorem calUnc_offset {p : Fin 4} (ha : a.toNat = 0x30070 + 4 * p.1) : blkOf a.toNat = 3 ∧ regOf a.toNat = 0x70 + 4 * p.1 := by
  rw [ha, blkOf, regOf]; omega

theorem lkMask_calUnc (p : Fin 4) : lkMask 3 (0x70 + 4 * p.1) = some 0xFFFF#32 := by
  simp [lkMask, Machine.within]; omega

theorem lkStore_calUnc (p : Fin 4) : lkStore 3 (0x70 + 4 * p.1) v s =
    { s with time := { s.time with calUnc := s.time.calUnc.set p.1 (v.toNat % 65536) } } := by
  have hp : fin? 4 ((0x70 + 4 * p.1 - 0x70) / 4) = some p := fin?_eq_some (by omega)
  simp only [lkStore, hp, if_true, low]
  rfl

end

/-- Settles O55: `regStore_lk` with the lock set, with it clear for a slot, and with it clear for firmware. -/
theorem lockedRegister : Obligations.LockedRegister := by
  intro s rd a v hal hok
  refine ⟨fun m hm => ⟨fun hlk => ?locked, fun hlk hhost => ?open_⟩, fun p ha hmgmt hlk => ?firmware⟩
  case locked =>
    refine ⟨_, ?_, rfl, by simp, by simp, by simp⟩
    rw [exec_registerWrite_ok hok, regStore_lk hal hm, countReg_regs, if_pos hlk]
  case open_ =>
    have hne : rd.1 ≠ 8 := fun e => hhost (Fin.ext e)
    rw [exec_registerWrite_ok hok, regStore_lk hal hm, countReg_regs, if_neg (by rw [hlk]; decide), if_neg hne]
  case firmware =>
    obtain ⟨hblk, hreg⟩ := calUnc_offset ha
    subst hmgmt
    rw [exec_registerWrite_ok hok, regStore_lk hal (by rw [hblk, hreg]; exact lkMask_calUnc p), countReg_mgmt, hblk, hreg,
      if_neg (by rw [hlk]; decide), if_pos (show ((8 : Fin 9) : Nat) = 8 from rfl), lkStore_calUnc]

/-! ## Consecutive bytes of a sparse memory -/

/-- A byte written reads back, and every other byte as before. -/
theorem mget_mputs (d : Byte) (bs : List Byte) : ∀ (k x : Nat) (m : List (Nat × Byte)), mwf d m = true →
    mget d x (mputs d k bs m) = if k ≤ x then (bs[x - k]?).getD (mget d x m) else mget d x m := by
  induction bs with
  | nil => intro k x m _; simp [mputs]
  | cons b l ih =>
    intro k x m h
    rw [mputs, ih (k + 1) x _ (mwf_mset d k b m h)]
    by_cases hx : x = k
    · subst hx
      rw [if_neg (by omega), mget_mset_same d x b m h]
      simp
    · rw [mget_mset_other d k x b m h hx]
      by_cases hle : k + 1 ≤ x
      · have hsub : x - k = (x - (k + 1)) + 1 := by omega
        rw [if_pos hle, if_pos (by omega), hsub, List.getElem?_cons_succ]
      · rw [if_neg hle, if_neg (by omega)]

/-! ## Request ring windows -/

theorem upd_get_same {α : Type} {n : Nat} (v : Vector α n) (i : Fin n) (f : α → α) : (Machine.upd v i f)[i] = f v[i] := by
  simp [Machine.upd]

theorem upd_get_other {α : Type} {n : Nat} (v : Vector α n) {i j : Fin n} (f : α → α) (h : j ≠ i) : (Machine.upd v i f)[j] = v[j] := by
  have hne : (i : Nat) ≠ j := fun e => h (Fin.ext e.symm)
  simp [Machine.upd, hne]

/-- The window of a request ring is block 2 from 0x1000 on, below the block's second address range (18 R413, 19 R417). -/
theorem ringWindow_offset {a : Nat} (hlo : 0x21000 ≤ a) (hhi : a < 0x21800) (hword : a % 4 = 0) :
    blkOf a = 2 ∧ regOf a = a - 0x20000 ∧ aliasOf a = 0 := by
  refine ⟨?_, ?_, ?_⟩
  · rw [blkOf]; omega
  · rw [regOf]; omega
  · rw [aliasOf]; omega

/-- In its window a host word becomes four bytes of the slot's ring, little-endian (18 R399, R412). -/
theorem mboxWrite_window {i : Fin 8} {o : Nat} (v : Word) (hready : s.host.ready = true) (hbus : (pfOf s i).isNone = true)
    (hlo : 0x1000 ≤ o) (hhi : o < 0x1800) :
    mboxWrite i o 0 v s = onMbox i (fun m => { m with win := mputs 0#8 o (le 4 v.toNat) m.win }) s := by
  have hpcie : (pfOf s i).isSome = false := by simpa using hbus
  have hlk : mboxLk o = none := by
    unfold mboxLk
    split <;> try omega
    rfl
  unfold mboxWrite
  simp only [hready, hpcie, hlk, aliasVal, Bool.not_true, Bool.false_eq_true, if_false]
  split <;> try omega
  simp [hlo, hhi]

theorem le_getElem? {n v k : Nat} (h : k < n) : (le n v)[k]? = some (BitVec.ofNat 8 (v / 2 ^ (8 * k))) := by
  simp [le, h]

/-- Byte `k` of a word. -/
theorem byte_of_word (v : Word) (k : Nat) : BitVec.ofNat 8 (v.toNat / 2 ^ (8 * k)) = v.extractLsb' (8 * k) 8 := by
  rw [BitVec.extractLsb', Nat.shiftRight_eq_div_pow]

/-- Settles O56: the write is `mboxWrite_window`, and `mget_mputs` reads the window. -/
theorem ringWindowBytes : Obligations.RingWindowBytes := by
  intro s i rd a o v hrd hready hbus ho hlo hhi hword hok hwf
  obtain ⟨hblk, hreg, hal⟩ := ringWindow_offset hlo hhi hword
  have hslot : fin? 8 rd.1 = some i := fin?_eq_some hrd
  have ho1 : 0x1000 ≤ a.toNat - 0x20000 := by omega
  have ho2 : a.toNat - 0x20000 < 0x1800 := by omega
  have hstore : regStore rd a.toNat v (countReg rd 1 a.toNat s) =
      onMbox i (fun m => { m with win := mputs 0#8 o (le 4 v.toNat) m.win }) (countReg rd 1 a.toNat s) := by
    have hack : a.toNat - 0x20000 ≠ 0x3FFC := by omega
    have hlk : lkMask 2 (a.toNat - 0x20000) = none := by simp [lkMask]
    simp only [regStore, hblk, hreg, hal, hack, hslot, hlk, Option.elim_some, if_false, if_true]
    rw [ho, mboxWrite_window v (by rwa [countReg_host]) ?_ ho1 ho2]
    rwa [pfOf, countReg_slots]
  refine ⟨_, (exec_registerWrite_ok hok).trans (congrArg Host.Outcome.next hstore), fun k => ?written, fun x hx => ?rest, fun j hj => ?slots⟩
  case written =>
    simp only [onMbox, upd_get_same, countReg_host]
    rw [mget_mputs _ _ _ _ _ hwf, if_pos (by omega), Nat.add_sub_cancel_left, le_getElem? k.2, Option.getD_some, byte_of_word]
  case rest =>
    simp only [onMbox, upd_get_same, countReg_host]
    rw [mget_mputs _ _ _ _ _ hwf]
    split
    · rw [List.getElem?_eq_none (by simp; omega), Option.getD_none]
    · rfl
  case slots => simp only [onMbox, upd_get_other _ _ hj, countReg_host]

end Sys2Proof.Proofs
end

