-- ==== Sys2Proof/Proofs/HeaderAndModeWords.lean ====
section
/-!
SUPPORT. The words a response header takes from the state of timekeeping (13 R289, R290) and the words that name the operating mode
(20 R437, R438), with the statements about them.
-/
namespace Sys2Proof.Proofs
open Sys2Proof Sys2Proof.Machine Sys2Proof.Claims Sys2Proof.Laws

variable {s : State} {t : Txn} {stamp : Nat}

/-! ## Response headers -/

/-- ERRB on a port is the sum of its two bounds, saturating (03 R64). -/
theorem errbPort_eq (s : State) (p : Fin 4) : errbPort s p = min (s.time.errb + s.time.calUnc[p]) 0xFFFFFFFF := by
  unfold errbPort errbPlus satE satU
  split <;> omega

/-- Every response carries the root dispersion of its port, whatever else its header says. -/
theorem ntpHeader_rootDisp (s : State) (t : Txn) (stamp : Nat) :
    (ntpHeader s t stamp).1.rootDisp = rootDisp (errbPort s t.port) := by
  unfold ntpHeader
  dsimp only
  cases kissId t <;> rfl

/-- In NTP short format a bound is rounded up (13 R289). -/
theorem rootDisp_least {e : Nat} (h : e ≠ 0xFFFFFFFF) :
    e * 32 ≤ rootDisp e * 1953125 ∧ ∀ d : Nat, e * 32 ≤ d * 1953125 → rootDisp e ≤ d := by
  rw [rootDisp, if_neg h, cdiv]
  exact ⟨by omega, fun d hd => by omega⟩

/-- Settles O40: `rootDisp_least` of the port's ERRB. -/
theorem rootDispersion : Obligations.RootDispersion := by
  intro s t stamp
  rw [ntpHeader_rootDisp, errbPort_eq]
  exact ⟨_, rfl, fun hsat => if_pos hsat, rootDisp_least⟩

/-- Outside a Kiss-o'-Death the leap indicator of a synchronised response is that of the second of its stamp. -/
theorem ntpHeader_li (hsync : synced s = true) (hkod : kissId t = none) :
    (ntpHeader s t stamp).1.li = leapInd s t.cfg (secOf stamp) := by
  simp only [ntpHeader, hkod, hsync, if_true]

/-- Without smear the indicator tells the last day before a leap (13 R290). -/
theorem leapInd_in {a : ServAddr} {sec : Nat} {k : LeapKind} (hplain : a.smear = false) (hleap : s.time.leap = some k)
    (hfrom : s.time.leapAt ≤ sec + 86400) (huntil : sec < s.time.leapAt) :
    leapInd s a sec = (match (generalizing := false) k with | .leap61 => 1 | .leap59 => 2) := by
  cases k <;> simp [leapInd, smears, hplain, hleap, hfrom, huntil]

theorem leapInd_out {a : ServAddr} {sec : Nat}
    (h : s.time.leap = none ∨ sec + 86400 < s.time.leapAt ∨ s.time.leapAt ≤ sec) : leapInd s a sec = 0 := by
  unfold leapInd
  split
  · next hleap =>
    rw [if_neg]
    simp only [Bool.and_eq_true, decide_eq_true_eq]
    rw [hleap] at h
    rintro ⟨⟨-, hfrom⟩, huntil⟩
    obtain h | h | h := h
    · cases h
    · omega
    · omega
  · rfl

/-- Settles O48: the second of the transmit stamp decides (log 142). -/
theorem leapIndicator : Obligations.LeapIndicator := by
  intro s t stamp hsync hkod hplain
  rw [ntpHeader_li hsync hkod]
  exact ⟨fun k hleap hfrom huntil => leapInd_in hplain hleap hfrom huntil, leapInd_out⟩

/-! ## The operating mode -/

/-- An evaluation that takes a transition leaves the word of that transition. -/
theorem modeEval_takes {m : Mode} {k : Nat} (hrun : s.sys.mgmtFwRunning = true) (h : modeNext (lockCount s) = some (m, k)) :
    sysWord (modeEval s).sys = (m, s.sys.mode, k, 0) := by
  have hcount : sysWord (lockCount s).sys = sysWord s.sys := (lockCount_moves (m := allButWord) rfl (.refl _ s)).word rfl
  have heffects := (modeEffects_moves_enterMode m k (lockCount s)).word rfl
  have hmode : (lockCount s).sys.mode = s.sys.mode := congrArg Prod.fst hcount
  have heval : sysWord (modeEval s).sys = sysWord (modeEffects m k (lockCount s)).sys := by
    simp only [modeEval, hrun, h, Bool.not_true, Bool.false_eq_true, if_false]
  rw [heval, heffects, enterMode_sysWord, hmode]

/-- An evaluation that takes none leaves the word as it was. -/
theorem modeEval_stays (hrun : s.sys.mgmtFwRunning = true) (h : modeNext (lockCount s) = none) :
    sysWord (modeEval s).sys = sysWord s.sys := by
  have hcount : sysWord (lockCount s).sys = sysWord s.sys := (lockCount_moves (m := allButWord) rfl (.refl _ s)).word rfl
  rw [← hcount]
  simp only [modeEval, hrun, h, Bool.not_true, Bool.false_eq_true, if_false]

theorem modeCode_lt (m : Mode) : modeCode m < 8 := by cases m <;> decide

/-- A field from bit 16 on leaves the bits below as they are. -/
theorem highField_low (v : Nat) {k : Nat} (h : 16 ≤ k) : v * 2 ^ k % 2 ^ 32 % 2 ^ 16 = 0 := by
  have hdvd : 2 ^ 16 ∣ v * 2 ^ k := Dvd.dvd.mul_left (pow_dvd_pow 2 h) v
  rw [Nat.mod_mod_of_dvd _ (pow_dvd_pow 2 (by decide)), Nat.mod_eq_zero_of_dvd hdvd]

/-- Two fields that do not overlap join as their sum. -/
theorem or_field {x n : Nat} (v : Nat) (h : x < 2 ^ n) : x ||| v * 2 ^ n = x + v * 2 ^ n := by
  rw [Nat.or_comm, Nat.mul_comm v, ← Nat.two_pow_add_eq_or_of_lt h, Nat.add_comm]

/-- The low half of a word with fields at bits 3:0, 7:4 and 15:8. -/
theorem pack_lowHalf (m p c l a v n : Nat) (hm : m < 16) (hp : p < 16) (hc : c < 256) :
    (pack [(0, m), (4, p), (8, c), (16, l), (17, a), (18, v), (19, n)]).toNat % 2 ^ 16 = m + p * 2 ^ 4 + c * 2 ^ 8 := by
  simp only [pack, List.foldl, w32, BitVec.toNat_or, BitVec.toNat_ofNat, Nat.or_mod_two_pow]
  rw [highField_low l (by decide), highField_low a (by decide), highField_low v (by decide), highField_low n (by decide)]
  rw [← or_field (n := 4) p hm, ← or_field (n := 8) c (by rw [or_field (n := 4) p hm]; omega)]
  have h1 : m * 2 ^ 0 % 2 ^ 32 % 2 ^ 16 = m := by omega
  have h2 : p * 2 ^ 4 % 2 ^ 32 % 2 ^ 16 = p * 2 ^ 4 := by omega
  have h3 : c * 2 ^ 8 % 2 ^ 32 % 2 ^ 16 = c * 2 ^ 8 := by omega
  rw [h1, h2, h3]
  simp

/-- SYS_MODE while Ridgepole is locked (20 R437). -/
theorem sysMode_lowHalf (hlocked : s.aon.locked = true) (hcause : s.sys.cause < 256) :
    (sysMode s).toNat % 2 ^ 16 = modeCode s.sys.mode + modeCode s.sys.prev * 2 ^ 4 + s.sys.cause * 2 ^ 8 := by
  have hmode := modeCode_lt s.sys.mode
  have hprev := modeCode_lt s.sys.prev
  unfold sysMode
  rw [hlocked]
  exact pack_lowHalf _ _ _ _ _ _ _ (by omega) (by omega) hcause

/-- Settles O41: what an evaluation writes, and the two places that show it. -/
theorem modeChangesTogether : Obligations.ModeChangesTogether := by
  intro s hrun
  refine ⟨fun m k hnext => ?takes, fun hnext => ?stays, fun hlocked hcause => ?shows, fun c h => exec_icpModeGet h⟩
  case takes =>
    simpa [sysWord] using modeEval_takes hrun hnext
  case stays =>
    simpa [sysWord] using modeEval_stays hrun hnext
  case shows =>
    have hmode := modeCode_lt s.sys.mode
    have hprev := modeCode_lt s.sys.prev
    have hlow := sysMode_lowHalf hlocked hcause
    refine ⟨?_, ?_, ?_⟩ <;> omega

end Sys2Proof.Proofs
end

