-- ==== Sys2Proof/Proofs/RoleChange.lean ====
section
/-!
SUPPORT. What a change of a slot's role leaves of its interrupt target (16 R356, 19 R430, R431), with the statement about it.
-/
namespace Sys2Proof.Proofs
open Sys2Proof Sys2Proof.Machine Sys2Proof.Claims Sys2Proof.Laws

/-- The slot's own place among the nine targets. -/
abbrev slotTarget (i : Fin 8) : Fin 9 := ⟨i.1, by omega⟩

/-- A source is the slot's own where it lies among the mailboxes' (18 R409). -/
abbrev ownSource (i k : Nat) : Bool := (224 ≤ k && k ≤ 239) → ownMailbox i k

/-! ## The mask of a role -/

theorem getLsbD_bit (k : Fin 256) (n : Nat) : (1#256 <<< n).getLsbD k.1 = decide (k.1 = n) := by
  rw [BitVec.getLsbD_shiftLeft, BitVec.getLsbD_one]
  rw [Bool.eq_iff_iff]
  simp only [Bool.and_eq_true, Bool.not_eq_true', decide_eq_true_eq, decide_eq_false_iff_not]
  omega

/-- Setting the chosen bits below `n` one by one sets exactly those. -/
theorem getLsbD_setBits (p : Nat → Bool) (k : Fin 256) : ∀ n : Nat,
    ((List.range n).foldl (fun m src => if p src then m ||| (1#256 <<< src) else m) 0#256).getLsbD k.1 = (decide (k.1 < n) && p k.1)
  | 0 => by simp
  | n + 1 => by
    have ih := getLsbD_setBits p k n
    have hset : ((List.range (n + 1)).foldl (fun m src => if p src then m ||| (1#256 <<< src) else m) 0#256).getLsbD k.1 =
        (decide (k.1 < n) && p k.1 || decide (k.1 = n) && p n) := by
      rw [List.range_succ, List.foldl_append, List.foldl_cons, List.foldl_nil]
      cases p n with
      | true => rw [if_pos rfl, BitVec.getLsbD_or, ih, getLsbD_bit, Bool.and_true]
      | false => rw [if_neg Bool.false_ne_true, ih, Bool.and_false, Bool.or_false]
    rw [hset]
    by_cases hk : k.1 = n
    · simp [hk]
    · have hlt : k.1 < n + 1 ↔ k.1 < n := by omega
      simp [hk, hlt]

/-- A slot's mask holds the sources its role may receive. -/
theorem sourceMask_slot (s : State) (i : Fin 8) (k : Fin 256) :
    (sourceMask s (slotTarget i)).getLsbD k.1 = mayReceive (roleOf s i) (ownSource i.1 k.1) k.1 := by
  have hbits : sourceMask s (slotTarget i) = (List.range 256).foldl (fun m src =>
      if mayReceive (roleOf s i) (ownSource i.1 src) src then m ||| (1#256 <<< src) else m) 0#256 := by
    simp only [sourceMask, i.2, dite_true]
  rw [hbits, getLsbD_setBits, decide_eq_true k.2, Bool.true_and]

/-! ## What the evaluation of signals leaves -/

/-- What an evaluation leaves of a target of a slot with role `r`: at most a source that role may receive becomes pending. -/
structure Evaluated (r : Role) (i : Fin 8) (t t' : IcuTarget) : Prop where
  en : t'.en = t.en
  insvc : t'.insvc = t.insvc
  pend : ∀ k : Fin 256, mayReceive r (ownSource i.1 k.1) k.1 = false → t'.pend.getLsbD k.1 = t.pend.getLsbD k.1
  since : t.sigSince = true → t'.sigSince = true

theorem Evaluated.refl (r : Role) (i : Fin 8) (t : IcuTarget) : Evaluated r i t t := ⟨rfl, rfl, fun _ _ => rfl, id⟩

theorem Evaluated.trans {r : Role} {i : Fin 8} {t u v : IcuTarget} (h : Evaluated r i t u) (h' : Evaluated r i u v) :
    Evaluated r i t v :=
  ⟨h'.en.trans h.en, h'.insvc.trans h.insvc, fun k hk => (h'.pend k hk).trans (h.pend k hk), fun hs => h'.since (h.since hs)⟩

/-- A slot's second mailbox source is its own. -/
theorem ownSource_event (i : Fin 8) : ownSource i.1 (225 + 2 * i.1) = true := by
  simp [ownSource, ownMailbox]

theorem evalSlot_own (sl : SlotsSt) (odo : Nat) (again : Bool) (i : Fin 8) (p : IcuSt × HostSt) :
    Evaluated sl.s[i].role i p.1.t[slotTarget i] (evalSlot sl odo again i p).1.t[slotTarget i] := by
  unfold evalSlot
  dsimp only
  constructor
  · simp
  · simp
  · intro k hk
    have hevent (h : mayReceive sl.s[i].role true (225 + 2 * i.1) = true) : k.1 ≠ 225 + 2 * i.1 := by
      intro e
      rw [e, ownSource_event, h] at hk
      cases hk
    simp only [Fin.getElem_fin, Vector.getElem_set_self]
    split
    · next hevt =>
      simp only [Bool.and_eq_true] at hevt
      rw [BitVec.getLsbD_or, getLsbD_bit, decide_eq_false (hevent hevt.2), Bool.or_false]
    · rfl
  · intro h
    simp only [Fin.getElem_fin, Vector.getElem_set_self, Bool.or_eq_true]
    exact .inl h

theorem evalSlot_other (sl : SlotsSt) (odo : Nat) (again : Bool) {i j : Fin 8} (h : j ≠ i) (p : IcuSt × HostSt) :
    (evalSlot sl odo again j p).1.t[slotTarget i] = p.1.t[slotTarget i] := by
  have hne : (j : Nat) ≠ i := fun e => h (Fin.ext e)
  simp [evalSlot, hne]

theorem evalSlots_own (sl : SlotsSt) (odo : Nat) (i : Fin 8) : ∀ (l : List (Fin 8)) (p : IcuSt × HostSt),
    Evaluated sl.s[i].role i p.1.t[slotTarget i] (l.foldl (fun p j => evalSlot sl odo false j p) p).1.t[slotTarget i]
  | [], _ => .refl _ _ _
  | j :: l, p => by
    refine .trans ?_ (evalSlots_own sl odo i l _)
    by_cases hj : j = i
    · subst hj; exact evalSlot_own sl odo false j p
    · rw [evalSlot_other sl odo false hj]; exact .refl _ _ _

theorem icuEval_slot (s : State) (i : Fin 8) :
    Evaluated (roleOf s i) i s.icu.t[slotTarget i] (icuEval s).icu.t[slotTarget i] := by
  have hne : (8 : Nat) ≠ i := by omega
  have hslots := evalSlots_own s.slots s.time.odo i (List.finRange 8) (s.icu, s.host)
  simpa [icuEval, hne, roleOf] using hslots

/-- A target with nothing live, whose signal stood since its last claim, answers that it was withdrawn (19 R431). -/
theorem claimValue_withdrawn {t : IcuTarget} (hsince : t.sigSince = true) (hlive : t.live = 0#256) : claimValue t = 255 := by
  have hnone : lowest t.live = none := by rw [hlive]; simp [lowest]
  simp [claimValue, hnone, hsince]

/-! ## A change of role -/

/-- The slot holds the new role; one that leaves AUDITOR loses the unsolicited completions held for it. -/
def withRole (i : Fin 8) (r : Role) (s : State) : State :=
  { s with
    slots := { s.slots with s := upd s.slots.s i fun q => { q with role := r } }
    host := if roleOf s i == .auditor && r != .auditor then
        { s.host with mbox := upd s.host.mbox i fun m => { m with held := m.held.filter (!·.unsol) } }
      else s.host }

/-- The words of a target keep the sources of the mask. -/
def narrowTarget (mask : BitVec 256) (t : IcuTarget) : IcuTarget :=
  { t with pend := t.pend &&& mask, en := t.en &&& mask, insvc := t.insvc &&& mask }

/-- The slot with its new role and its words narrowed to it. -/
def narrowed (i : Fin 8) (r : Role) (s : State) : State :=
  { withRole i r s with
    icu := { s.icu with t := upd s.icu.t (slotTarget i) (narrowTarget (sourceMask (withRole i r s) (slotTarget i))) } }

/-- A change of role narrows the slot's words to what the new role may receive, then evaluates the signals (16 R356). -/
theorem setRole_eq {s : State} {i : Fin 8} {r : Role} (h : roleOf s i ≠ r) : setRole i r s = icuEval (narrowed i r s) := by
  have hne : (roleOf s i == r) = false := by simpa using h
  simp only [setRole, hne, Bool.false_eq_true, if_false]
  rfl

theorem roleOf_narrowed (i : Fin 8) (r : Role) (s : State) : roleOf (narrowed i r s) i = r := by
  simp [roleOf, narrowed, withRole, upd]

theorem sourceMask_withRole (i : Fin 8) (r : Role) (s : State) (k : Fin 256) :
    (sourceMask (withRole i r s) (slotTarget i)).getLsbD k.1 = mayReceive r (ownSource i.1 k.1) k.1 := by
  have hrole : roleOf (withRole i r s) i = r := by simp [roleOf, withRole, upd]
  rw [sourceMask_slot, hrole]

theorem setRole_target {s : State} {i : Fin 8} {r : Role} (h : roleOf s i ≠ r) :
    Evaluated r i (narrowTarget (sourceMask (withRole i r s) (slotTarget i)) s.icu.t[slotTarget i])
      (setRole i r s).icu.t[slotTarget i] := by
  have heval := icuEval_slot (narrowed i r s) i
  rw [roleOf_narrowed] at heval
  rw [setRole_eq h]
  simpa [narrowed, upd] using heval

/-- Settles O44: the mask of the new role, and `claimValue_withdrawn`. -/
theorem roleChangeClears : Obligations.RoleChangeClears := by
  intro s i r t hrole ht
  obtain ⟨hen, hinsvc, hpend, hsince⟩ := setRole_target hrole
  have hmask := sourceMask_withRole i r s
  subst ht
  refine ⟨fun k hk => ⟨?_, ?_, ?_⟩, fun k hk => ⟨?_, ?_⟩, fun hsig hlive => ?_⟩
  · rw [hpend k hk, narrowTarget, BitVec.getLsbD_and, hmask, hk, Bool.and_false]
  · rw [hen, narrowTarget, BitVec.getLsbD_and, hmask, hk, Bool.and_false]
  · rw [hinsvc, narrowTarget, BitVec.getLsbD_and, hmask, hk, Bool.and_false]
  · rw [hen, narrowTarget, BitVec.getLsbD_and, hmask, hk, Bool.and_true]
  · rw [hinsvc, narrowTarget, BitVec.getLsbD_and, hmask, hk, Bool.and_true]
  · exact claimValue_withdrawn (hsince hsig) hlive

end Sys2Proof.Proofs
end

