-- ==== Sys2Proof/Proofs/IcpAnswers.lean ====
section
/-!
SUPPORT. Commands whose answer or effect is named by nothing but their definition (18 R402, R408).
-/
namespace Sys2Proof.Proofs
open Sys2Proof Sys2Proof.Machine Sys2Proof.Claims Sys2Proof.Laws

variable {c : CmdRef} {op n : Nat} {s : State} {resp : State → List Byte}

/-- A command that only reads answers what it reads. -/
theorem icpGet_reads (h : Ready c op n s) (hlen : (resp s).length = n) :
    ∃ p, p.length = n ∧ icpGet c op resp s = ok c op p s :=
  ⟨_, hlen, icpGet_ok h.1 (by rw [hlen]; exact h.2)⟩

/-- A command whose checks pass completes from a state in which its effect has taken place. -/
theorem icpDo_reaches {P : State → Prop} {chk : State → List (Bool × Nat)} {eff : State → State} (h : Ready c op n s)
    (hchecks : firstFail (chk s) = stOk) (hlen : (resp (eff s)).length = n) (heff : P (eff s)) :
    ∃ t p, p.length = n ∧ icpDo c op chk eff resp s = ok c op p t ∧ P t :=
  ⟨_, _, hlen, icpDo_ok h.1 hchecks (by rw [hlen]; exact h.2), heff⟩

/-- A list of records of one length. -/
theorem length_flatMap_finRange {k m : Nat} (f : Fin k → List Byte) (h : ∀ i, (f i).length = m) :
    ((List.finRange k).flatMap f).length = k * m := by
  simp [List.length_flatMap, h]

end Sys2Proof.Proofs
end

