-- ==== Sys2Proof/Proofs/IdentityAndFirmware.lean ====
section
/-!
SUPPORT. The commands of identity, vault and firmware (17 R373, R377, R386-R390) and the bytes of flash they store, with the
statements about them.
-/
namespace Sys2Proof.Proofs
open Sys2Proof Sys2Proof.Machine Sys2Proof.Claims Sys2Proof.Laws

variable {c : CmdRef} {s : State}

/-! ## Identity and vault -/

theorem publicKey_length (s : State) : (publicKey s).length = 97 := by simp [publicKey]

theorem ecdsaSign_length (s : State) (m : List Byte) : (ecdsaSign s m).length = 96 := by simp [ecdsaSign]

theorem statement_length (s : State) (nonce : Vector Byte 32) : (statement s nonce.toList).length = 160 := by
  simp [statement, zeros, sha384]

theorem exec_icpIdGet {n : Nat} (hn : n = 100 + s.vault.cert.length) (h : Ready c 0xA20 n s) : Reads (.icpIdGet c) c 0xA20 n s := by
  subst hn
  have hlen : (publicKey s ++ zeros 1 ++ le 2 s.vault.cert.length ++ s.vault.cert).length = 100 + s.vault.cert.length := by
    simp [publicKey_length]; omega
  refine ⟨_, hlen, ?_⟩
  change execIcpIdGet c s = _
  exact icpGet_ok h.1 (by rw [hlen]; exact h.2)

/-- The signature, or zeros in its place, follows the 160 bytes of the statement (17 R387). -/
theorem exec_icpAttest (nonce : Vector Byte 32) (h : Ready c 0xA21 256 s) : ∃ p, p.length = 256 ∧
    exec (.icpAttest c nonce) s = ok c 0xA21 p (if canSign s then (draw s).2 else faultEvent 1 s) := by
  by_cases hsign : canSign s = true
  · have hlen : (statement s nonce.toList ++ ecdsaSign s (statement s nonce.toList)).length = 256 := by
      simp only [List.length_append, statement_length, ecdsaSign_length]
    refine ⟨_, hlen, ?_⟩
    change execIcpAttest c nonce s = _
    rw [if_pos hsign]
    exact icp_ok h.1 (if_pos hsign) (by rw [hlen]; exact h.2)
  · have hlen : (statement s nonce.toList ++ zeros 96).length = 256 := by
      simp only [List.length_append, statement_length, zeros_length]
    refine ⟨_, hlen, ?_⟩
    change execIcpAttest c nonce s = _
    rw [if_neg hsign]
    exact icp_ok h.1 (if_neg hsign) (by rw [hlen]; exact h.2)

/-- What the key store holds beside the key slots: the helper data and the two banks. -/
def storeOf (s : State) : Bool × Nat × Vector StoreBank 2 := (s.vault.enrolled, s.vault.enrollNo, s.vault.bank)

theorem putKey_storeOf (i : Fin 64) (key : List Byte) (s : State) : storeOf (putKey i key s) = storeOf s := rfl

/-- The keys derived from ROOT leave the helper data and the store's banks. -/
theorem rootKeys_storeOf (s : State) : storeOf (rootKeys s) = storeOf s := by
  have hloaded (t : State) : storeOf { t with vault := { t.vault with rootOk := true } } = storeOf t := rfl
  simp only [rootKeys, hloaded, putKey_storeOf]

theorem exec_icpKeyEnroll (h : Ready c 0xA22 97 s) (hnew : (s.aon.provN && s.vault.enrolled) = false) :
    ∃ t p, p.length = 97 ∧ exec (.icpKeyEnroll c 0xE1A00001#32) s = ok c 0xA22 p t ∧ t.vault.enrolled = true ∧
      t.vault.enrollNo = s.vault.enrollNo + 1 ∧ t.vault.bank = Vector.replicate 2 {} := by
  have hstore := rootKeys_storeOf { s with
    vault := { s.vault with
      enrolled := true, enrollNo := s.vault.enrollNo + 1, kcv := kcvOf (rootSecret (s.vault.enrollNo + 1)),
      bank := Vector.replicate 2 {}, storeLoaded := false, storeBank := false, storeCnt := 0 } }
  simp only [storeOf, Prod.mk.injEq] at hstore
  change ∃ t p, _ ∧ execIcpKeyEnroll c 0xE1A00001#32 s = _ ∧ _
  simp only [execIcpKeyEnroll]
  exact icpDo_reaches h (firstFail_ok (by simp [hnew])) (publicKey_length _) hstore

theorem exec_icpIdCertSet {l : BitVec 16} {d : List Byte} (h : Ready c 0xA23 0 s) (hlen : l.toNat = d.length) (hmax : d.length ≤ 2048) :
    exec (.icpIdCertSet c l d false) s = ok c 0xA23 [] { s with vault := { s.vault with cert := d } } := by
  change execIcpIdCertSet c l d false s = _
  simp only [execIcpIdCertSet, ok]
  exact icpDo_is h.1 (firstFail_ok (by simp [hlen, hmax])) h.2 rfl rfl

theorem exec_icpVaultConfig {p : BitVec 16} (h : Ready c 0xA24 0 s) (hlo : 1 ≤ p.toNat) (hhi : p.toNat ≤ 3600) :
    exec (.icpVaultConfig c p false) s = ok c 0xA24 [] { s with vault := { s.vault with remaskPeriod := p.toNat } } := by
  have hp : p ≠ 0#16 := by bv_omega
  change execIcpVaultConfig c p false s = _
  simp only [execIcpVaultConfig, ok]
  exact icpDo_is h.1 (firstFail_ok (by simp [hp, hhi])) h.2 rfl rfl

/-- Five registers and an entry of 8 bytes for each of the 64 key slots. -/
theorem exec_icpVaultStatus (h : Ready c 0xA25 532 s) : Reads (.icpVaultStatus c) c 0xA25 532 s := by
  change ∃ p, _ ∧ execIcpVaultStatus c s = _
  simp only [execIcpVaultStatus]
  refine icpGet_reads h ?_
  rw [List.length_append, viewBytes_length, regRun_length, length_flatMap_finRange (m := 8) _ fun i => by simp]

/-! ## Firmware -/

theorem exec_icpFwStatus (h : Ready c 0xC00 8 s) : Reads (.icpFwStatus c) c 0xC00 8 s := by
  refine ⟨le 4 (fwStat s).toNat ++ le 4 (rstCause s).toNat, by simp, ?_⟩
  change execIcpFwStatus c s = _
  exact icpGet_ok h.1 (by simpa using h.2)

theorem exec_icpFwBegin {b : BitVec 8} (h : Ready c 0xC01 0 s) (hbank : b.toNat ≤ 1) (hother : b.toNat ≠ s.aon.bank) :
    exec (.icpFwBegin c b false) s = ok c 0xC01 [] { s with
      flash := { s.flash with image := mclear (0x200000 * b.toNat) (0x200000 * (b.toNat + 1)) s.flash.image }
      vault := { s.vault with updateOpen := true, target := b == 1#8, fwOfs := 0 } } := by
  change execIcpFwBegin c b false s = _
  simp only [execIcpFwBegin, ok]
  exact icpDo_is h.1 (firstFail_ok (by simp [hbank, hother])) h.2 rfl rfl

theorem exec_icpFwWrite {a : FwWriteArgs} (h : Ready c 0xC02 0 s) (hrsv : a.rsv = false) (hlen : a.len.toNat = a.data.length)
    (hlo : 4 ≤ a.len.toNat) (hhi : a.len.toNat ≤ 4096) (hwords : a.len.toNat % 4 = 0)
    (hend : a.offset.toNat + a.len.toNat ≤ 512 + 1572864) (hopen : s.vault.updateOpen = true) (hnext : a.offset.toNat = s.vault.fwOfs) :
    exec (.icpFwWrite c a) s = ok c 0xC02 [] { s with
      flash := { s.flash with image := mputs 0xFF#8 (0x200000 * bit s.vault.target + a.offset.toNat) a.data s.flash.image }
      vault := { s.vault with fwOfs := a.offset.toNat + a.len.toNat } } := by
  have hnonzero : ¬ a.len.toNat = 0 := by omega
  change execIcpFwWrite c a s = _
  simp only [execIcpFwWrite, ok]
  refine icpDo_is h.1 (firstFail_ok ?_) h.2 rfl rfl
  intro x hx
  simp only [List.mem_cons, List.not_mem_nil, or_false] at hx
  obtain rfl | rfl | rfl | rfl := hx
  · simp [hlen]
  · simp [hrsv, hnonzero, hhi, hwords]
  · simpa using hend
  · simp [hopen, hnext]

theorem exec_icpFwFinish {act : Bool} (h : Ready c 0xC03 4 s) (hopen : s.vault.updateOpen = true)
    (hvalid : imageValid s (fwTarget s) = true) :
    exec (.icpFwFinish c act false) s = ok c 0xC03 (le 1 (bankSvn s (fwTarget s)) ++ zeros 3) (fwPass act s) := by
  change execIcpFwFinish c act false s = _
  simp only [execIcpFwFinish, ok]
  exact icp_ok h.1 (by simp [hopen, hvalid]) (by simpa using h.2)

/-- The counter stands at the running SVN after a commit, whether it had to move or not (17 R390). -/
theorem exec_icpFwCommit {f : Bool} (h : Ready c 0xC04 4 s) (hmay : s.vault.otpSvn ≠ s.vault.svn → mayCommit f s = true) :
    ∃ t, exec (.icpFwCommit c f false) s = ok c 0xC04 (le 1 s.vault.svn ++ zeros 3) t ∧ t.vault.otpSvn = s.vault.svn := by
  change ∃ t, execIcpFwCommit c f false s = _ ∧ _
  by_cases hsvn : s.vault.otpSvn = s.vault.svn
  · refine ⟨s, ?_, hsvn⟩
    simp only [execIcpFwCommit, ok]
    exact icpDo_is h.1 (firstFail_ok (by simp [hsvn])) (by simpa using h.2) (if_pos hsvn) (by rw [hsvn])
  · refine ⟨raise 218 (trailFw 3 s.aon.bank s.vault.svn { s with vault := { s.vault with otpSvn := s.vault.svn } }), ?_,
      by simp [trailFw]⟩
    simp only [execIcpFwCommit, ok]
    exact icpDo_is h.1 (firstFail_ok (by simp [hmay hsvn])) (by simpa using h.2) (if_neg hsvn) (by simp [trailFw])

/-- Settles O29: a lemma for each command. -/
theorem vaultCommands : Obligations.VaultCommands := by
  intro c s
  exact ⟨fun _ => exec_icpIdGet, exec_icpAttest, exec_icpKeyEnroll, fun _ _ => exec_icpIdCertSet, fun _ => exec_icpVaultConfig,
    exec_icpVaultStatus, exec_icpFwStatus, fun _ => exec_icpFwBegin, fun _ => exec_icpFwWrite, fun _ => exec_icpFwFinish,
    fun _ => exec_icpFwCommit⟩

/-! ## The bytes of flash -/

/-- A cleared range reads its default, and every other key as before. -/
theorem mget_mclear {α : Type} [DecidableEq α] (d : α) (lo hi x : Nat) : ∀ m : List (Nat × α), mwf d m = true →
    mget d x (mclear lo hi m) = if lo ≤ x ∧ x < hi then d else mget d x m
  | [], _ => by simp [mclear, mget]
  | (a, v) :: l, h => by
    simp only [mwf, Bool.and_eq_true, List.all_eq_true, decide_eq_true_eq] at h
    obtain ⟨⟨-, habove⟩, hl⟩ := h
    have ih := mget_mclear d lo hi x l hl
    by_cases hkeep : a < lo ∨ hi ≤ a
    · have hcons : mclear lo hi ((a, v) :: l) = (a, v) :: mclear lo hi l := List.filter_cons_of_pos (by simpa using hkeep)
      rw [hcons, mget, mget, ih]
      split_ifs <;> try omega
      all_goals rfl
    · have hdrop : mclear lo hi ((a, v) :: l) = mclear lo hi l := List.filter_cons_of_neg (by simpa using hkeep)
      rw [hdrop, ih, mget]
      split_ifs with hin hx hlt
      · rfl
      · omega
      · exact mget_above d x l fun y hy => hlt.trans (habove y hy)
      · rfl

/-- Settles O52: `mget_mputs` and `mget_mclear` of what the two commands store. -/
theorem firmwareImageBytes : Obligations.FirmwareImageBytes := by
  intro c s x hwf
  refine ⟨fun a b h hrsv hlen hlo hhi hwords hend hopen hnext hb => ?_, fun b h hbank hother => ?_⟩
  · subst hb
    exact ⟨_, exec_icpFwWrite h hrsv hlen hlo hhi hwords hend hopen hnext, mget_mputs _ _ _ _ _ hwf⟩
  · exact ⟨_, exec_icpFwBegin h hbank hother, mget_mclear _ _ _ _ _ hwf⟩

end Sys2Proof.Proofs
end

