-- ==== Sys2Proof/Proofs/VaultAndKeys.lean ====
section
/-!
SUPPORT. The vault's events (17 R372-R377, R380, R381, R385, R386, R391) and the key commands (17 R378-R381, R393, R394), with the
statements about them.
-/
namespace Sys2Proof.Proofs
open Sys2Proof Sys2Proof.Machine Sys2Proof.Claims Sys2Proof.Laws

variable {c : CmdRef} {s : State}

/-! ## Key commands -/

/-- With ROOT present an accepted key command joins the queue behind those that wait (17 R380). -/
theorem keyCmd_queues {op : Nat} {chk : List (Bool × Nat)} {k : KeyOp} (hroot : s.vault.rootOk = true) (h : Taken c op s)
    (hchecks : firstFail chk = stOk) : keyCmd c op chk k s =
      .next (keyNext { s with vault := { s.vault with queue := s.vault.queue ++ [{ cmd := c, op := k, at_ := s.time.odo }] } }) :=
  icp_later h (by simp [hchecks, hroot])

theorem badKeyNum_false {n : Word} (hlo : 1 ≤ n.toNat) (hhi : n.toNat ≤ 0x1FFFFFFF) : badKeyNum n = false := by
  have hn : n ≠ 0#32 := by bv_omega
  simp [badKeyNum, hn, hhi]

/-- One check that does not apply. -/
theorem firstFail_single {b : Bool} {st : Nat} (h : b = false) : firstFail [(b, st)] = stOk := firstFail_ok (by simp [h])

/-- Entries of 12 bytes after four bytes of header. -/
theorem keyList_length {l : List (Fin 64)} {head : List Byte} {f : Fin 64 → List Byte} {n : Nat} (hn : n = 4 + 12 * l.length)
    (hhead : head.length = 4) (hf : ∀ i, (f i).length = 12) : (head ++ l.flatMap f).length = n := by
  rw [List.length_append, hhead, List.length_flatMap, hn]
  simp [hf, Nat.mul_comm]

section
variable (hroot : s.vault.rootOk = true)
include hroot

theorem exec_icpNtsKeyInstall {a : NtsInstallArgs} (h : Taken c 0xA00 s) (hrsv : a.rsv = false) (hlo : 1 ≤ a.num.toNat)
    (hhi : a.num.toNat ≤ 0x1FFFFFFF) : Queues (.icpNtsKeyInstall c a) c (.installNts c.slot a.num.toNat a.cur a.key.toList) s :=
  keyCmd_queues hroot h (firstFail_single (by rw [hrsv, badKeyNum_false hlo hhi]; rfl))

theorem exec_icpNtsKeyRotate {n : Word} (h : Taken c 0xA01 s) (hlo : 1 ≤ n.toNat) (hhi : n.toNat ≤ 0x1FFFFFFF) :
    Queues (.icpNtsKeyRotate c n) c (.rotate c.slot false 0 n.toNat) s :=
  keyCmd_queues hroot h (firstFail_single (badKeyNum_false hlo hhi))

theorem exec_icpNtsKeyInvalidate {a : NtsInvArgs} (h : Taken c 0xA02 s) (hrsv : a.rsv = false) (hkind : a.kind.toNat ≤ 1)
    (hnum : a.all = false → 1 ≤ a.num.toNat ∧ a.num.toNat ≤ 0x1FFFFFFF) :
    Queues (.icpNtsKeyInvalidate c a) c (.invalidate c.slot false 0 a.num.toNat (a.kind == 1#8) a.all) s := by
  have hnamed : (!a.all && badKeyNum a.num) = false := by
    cases hall : a.all with
    | true => rfl
    | false => rw [badKeyNum_false (hnum hall).1 (hnum hall).2]; rfl
  exact keyCmd_queues hroot h (firstFail_single (by rw [hrsv, hnamed]; simpa using hkind))

theorem exec_icpPtpKeyInstall {a : PtpInstallArgs} (h : Taken c 0xA10 s) (hrsv : a.rsv = false) (hlo : 16 ≤ a.len.toNat)
    (hhi : a.len.toNat ≤ 64) (hzero : ∀ b ∈ a.key.toList.drop a.len.toNat, b = 0#8) : Queues (.icpPtpKeyInstall c a) c
      (.installPtp c.slot a.spp.toNat a.keyId.toNat a.cur (a.key.toList.take a.len.toNat)) s := by
  have hbeyond : (a.key.toList.drop a.len.toNat).any (· != 0#8) = false := by
    rw [List.any_eq_false]
    intro b hb
    simp [hzero b hb]
  exact keyCmd_queues hroot h (firstFail_single (by rw [hrsv, outside_false hlo hhi, hbeyond]; rfl))

theorem exec_icpPtpKeyRotate (p : BitVec 8) (n : Word) (h : Taken c 0xA11 s) :
    Queues (.icpPtpKeyRotate c p n false) c (.rotate c.slot true p.toNat n.toNat) s :=
  keyCmd_queues hroot h (firstFail_single rfl)

theorem exec_icpPtpKeyInvalidate {a : PtpInvArgs} (h : Taken c 0xA12 s) (hrsv : a.rsv = false) (hkind : a.kind.toNat ≤ 1) :
    Queues (.icpPtpKeyInvalidate c a) c (.invalidate c.slot true a.spp.toNat a.keyId.toNat (a.kind == 1#8) a.all) s :=
  keyCmd_queues hroot h (firstFail_single (by rw [hrsv]; simpa using hkind))

/-- A list of a slot's keys answers, and has no other effect. -/
theorem ringList_reads {op n : Nat} {resp : State → List Byte} (h : Ready c op n s) (hlen : (resp s).length = n) :
    ∃ p, p.length = n ∧ ringList c op resp s = ok c op p s :=
  ⟨_, hlen, icpDo_is h.1 (firstFail_single (by rw [hroot]; rfl)) (by rw [hlen]; exact h.2) rfl rfl⟩

theorem exec_icpNtsKeyList {n : Nat} (hn : n = 4 + 12 * (ringKeys s c.slot.1 false 0).length) (h : Ready c 0xA03 n s) :
    Reads (.icpNtsKeyList c) c 0xA03 n s := by
  change ∃ p, _ ∧ execIcpNtsKeyList c s = _
  simp only [execIcpNtsKeyList]
  exact ringList_reads hroot h (keyList_length hn (by simp) fun i => by simp)

theorem exec_icpPtpKeyList {n : Nat} (hn : n = 4 + 12 * ((slotKeys s c.slot.1).filter fun i => s.vault.keys[i].ptp).length)
    (h : Ready c 0xA13 n s) : Reads (.icpPtpKeyList c) c 0xA13 n s := by
  change ∃ p, _ ∧ execIcpPtpKeyList c s = _
  simp only [execIcpPtpKeyList]
  exact ringList_reads hroot h (keyList_length hn (by simp) fun i => by simp)

end

/-- Settles O28: a lemma for each command. -/
theorem keyCommands : Obligations.KeyCommands := by
  intro c s hroot
  exact ⟨fun _ => exec_icpNtsKeyInstall hroot, fun _ => exec_icpNtsKeyRotate hroot, fun _ => exec_icpNtsKeyInvalidate hroot,
    fun _ => exec_icpPtpKeyInstall hroot, exec_icpPtpKeyRotate hroot, fun _ => exec_icpPtpKeyInvalidate hroot,
    fun _ => exec_icpNtsKeyList hroot, fun _ => exec_icpPtpKeyList hroot⟩

/-! ## Events -/

theorem exec_keyStoreCommit_stored {q : KeyReq} {l : List KeyReq} (hqueue : s.vault.queue = q :: l) (hstarted : q.started = true)
    (h1 : s.vault.keys[1].faulty = false) (h2 : s.vault.keys[2].faulty = false) :
    exec (.keyStoreCommit true) s = .next (keyNext (keyApply q { s with vault := { s.vault with queue := l } })) := by
  change execKeyStoreCommit true s = _
  simp [execKeyStoreCommit, hqueue, hstarted, h1, h2]

theorem exec_keyStoreCommit_failed {q : KeyReq} {l : List KeyReq} (hqueue : s.vault.queue = q :: l) (hstarted : q.started = true)
    (h1 : s.vault.keys[1].faulty = false) (h2 : s.vault.keys[2].faulty = false) : exec (.keyStoreCommit false) s =
      .next (keyNext (complete q.cmd (keyOpcode q.op) stBusy [] (raise 213 (faultEvent 49 (sticky 0x00080 0x800000#32
        { s with vault := { s.vault with queue := l, bank := s.vault.bank.set (spareBank s).1 {} } }))))) := by
  change execKeyStoreCommit false s = _
  simp only [execKeyStoreCommit, hqueue, hstarted, h1, h2]
  rfl

theorem exec_keyDrained {i : Fin 64} {w : Fin 8} (hdrain : s.vault.keys[i].draining = true) (hold : oldUse i s = false)
    (howner : s.vault.keys[i].owner = w.1) : exec (.keyDrained i) s = .next (keyNext (drainStep i (raiseOwn w 211
      (setKey i (fun k => if k.used then { k with draining := false }
        else { k with draining := false, key := [], mask := 0, chk := 0#32, num := 0, spp := 0 }) s)))) := by
  change execKeyDrained i s = _
  simp only [execKeyDrained, hdrain, hold, fin?_eq_some howner]
  rfl

theorem exec_keyCommandTimeout {q : KeyReq} {l : List KeyReq} {off : BitVec 16} (hqueue : dropUnstarted s.vault.queue = some (q, l))
    (hwaited : q.at_ + 5 * tickSec ≤ (atOdo off s).time.odo) : exec (.keyCommandTimeout off) s =
      .next (complete q.cmd (keyOpcode q.op) stBusy []
        { atOdo off s with vault := { (atOdo off s).vault with queue := l } }) := by
  have hvault : (atOdo off s).vault = s.vault := (atOdo_moves (m := 4) rfl (.refl _ s) off).vault rfl
  have hdue : ¬ (atOdo off s).time.odo < q.at_ + 5 * tickSec := by omega
  change execKeyCommandTimeout off s = _
  simp only [execKeyCommandTimeout, hvault, hqueue, hdue, decide_false, Bool.and_false]
  rfl

theorem exec_vaultReload (hpower : powered s 9 = true) (henrolled : s.vault.enrolled = true) (hroot : s.vault.rootOk = false) :
    exec .vaultReload s = .next (raise 215 (loadStore (startKeys (rootKeys s)))) := by
  change execVaultReload s = _
  simp [execVaultReload, hpower, henrolled, hroot]

/-- What the visit of a sweep leaves of a Canister slot in use (17 R376, R377). -/
def Remasked (s t : State) (i : Fin 64) (flips : List Byte) : Prop :=
  t.vault.sweepPos = (i.1 + 1) % 64 ∧ t.vault.keys[i].key = upsetKey s.vault.keys[i].key flips ∧
  t.vault.keys[i].mask = s.vault.draws ∧
  t.vault.keys[i].faulty = (s.vault.keys[i].faulty || crc32c (upsetKey s.vault.keys[i].key flips) != s.vault.keys[i].chk)

theorem exec_remaskVisit {i : Fin 64} (flips : List Byte) (hpower : powered s 9 = true) (hpos : i.1 = s.vault.sweepPos)
    (hage : i.1 = 0 → s.vault.remaskPeriod ≤ s.vault.sweepAge) (hused : s.vault.keys[i].used = true) :
    ∃ t, exec (.remaskVisit i flips) s = .next t ∧ Remasked s t i flips := by
  have hdue : (i.1 == 0 && decide (s.vault.sweepAge < s.vault.remaskPeriod)) = false := by
    by_cases hi : i.1 = 0
    · simp [hage hi]
    · simp [hi]
  have hvisit : ¬ (!powered s 9 || i.1 != s.vault.sweepPos || (i.1 == 0 && decide (s.vault.sweepAge < s.vault.remaskPeriod))) = true := by
    rw [hpower, hdue, ← hpos]; simp
  change ∃ t, execRemaskVisit i flips s = _ ∧ _
  simp only [execRemaskVisit, if_neg hvisit, hused, Bool.true_or, Bool.not_true, Bool.false_eq_true, if_false]
  refine ⟨_, rfl, ?_⟩
  by_cases hcheck : crc32c (upsetKey s.vault.keys[i.1].key flips) = s.vault.keys[i.1].chk
  · simp [Remasked, hcheck, setKey, draw, upd]
  · simp [Remasked, hcheck, setKey, draw, upd]

theorem exec_rngReseed_failed {n : Nat} (hn : n < 1024) :
    ∃ t, exec (.rngReseed true n) s = .next t ∧ t.vault.rngOk = false ∧ t.vault.rngPass = n := by
  have hfew : min 1024 n = n := by omega
  have hne : ¬ n = 1024 := by omega
  change ∃ t, execRngReseed true n s = _ ∧ _
  refine ⟨_, rfl, ?_⟩
  simp [hfew, hne]

theorem exec_rngReseed_passed {n : Nat} (hn : 1024 ≤ s.vault.rngPass + n) : exec (.rngReseed false n) s =
    .next (faultCond 51 false { s with vault := { s.vault with rngPass := 1024, rngOk := true } }) := by
  have hall : min 1024 (s.vault.rngPass + n) = 1024 := by omega
  change execRngReseed false n s = _
  simp [execRngReseed, hall]

/-- Settles O27: a lemma for each event. -/
theorem vaultEvents : Obligations.VaultEvents := by
  intro s
  refine ⟨fun q l hq hs h1 h2 => ⟨exec_keyStoreCommit_stored hq hs h1 h2, exec_keyStoreCommit_failed hq hs h1 h2⟩,
    fun i w hdrain _ hold howner => exec_keyDrained hdrain hold howner, ?timeout, exec_vaultReload, ?visit,
    fun n => ⟨exec_rngReseed_failed, exec_rngReseed_passed⟩, rfl, rfl⟩
  case timeout =>
    intro q l off u hq _ hu hwaited
    subst hu
    exact exec_keyCommandTimeout hq hwaited
  case visit => exact fun hpower i flips hpos hage hused => exec_remaskVisit flips hpower hpos hage hused

end Sys2Proof.Proofs
end

