-- ==== Sys2Proof/Proofs/MailboxCommands.lean ====
section
/-!
SUPPORT. The mailbox's registers, its dispatch and the events of the PCIe link (18 R395, R400, R405-R413), with the statement about
them.
-/
namespace Sys2Proof.Proofs
open Sys2Proof Sys2Proof.Machine Sys2Proof.Claims Sys2Proof.Laws

variable {c : CmdRef} {s : State} {i : Fin 8}

/-! ## A slot's own registers -/

/-- A permitted write of a slot's own register (18 R412). -/
theorem mboxBy_ok {o : Nat} (v : Word) (h : decideAccess s ⟨i.1, by omega⟩ (0x20000 + o) true = .ok) :
    mboxBy i o v s = mboxWrite i o 0 v (countReg ⟨i.1, by omega⟩ 1 (0x20000 + o) s) := writeBy_ok _ h

section
variable (hready : s.host.ready = true)
include hready

theorem mboxWrite_reqPi (v : Word) : mboxWrite i 0x1C 0 v s = onMbox i (fun m => { m with reqPi := v }) s := by
  simp [mboxWrite, hready, mboxLk, aliasVal]

theorem mboxWrite_cplCi (v : Word) :
    mboxWrite i 0x40 0 v s = cairnGapEnd (flushHeld i (onMbox i (fun m => { m with cplCi := v }) s)) := by
  simp [mboxWrite, hready, mboxLk, aliasVal]

theorem mboxWrite_ctrl (v : Word) : mboxWrite i 0 0 v s = mboxCtrl i v s := by
  simp [mboxWrite, hready, mboxLk, aliasVal]

theorem mboxWrite_sleep (v : Word) :
    mboxWrite i 0x54 0 v s = if v.getLsbD 0 then sleepStart i s else sleepEnd i s := by
  simp [mboxWrite, hready, mboxLk, aliasVal]

end

section
variable (hready : s.host.ready = true)
include hready

theorem exec_requestPiWrite (v : Word) (h : decideAccess s ⟨i.1, by omega⟩ 0x2001C true = .ok) : exec (.requestPiWrite i v) s =
    .next (onMbox i (fun m => { m with reqPi := v }) (countReg ⟨i.1, by omega⟩ 1 0x2001C s)) := by
  change execRequestPiWrite i v s = _
  rw [execRequestPiWrite, mboxBy_ok v h, mboxWrite_reqPi (by simpa using hready)]

theorem exec_completionCiWrite (v : Word) (h : decideAccess s ⟨i.1, by omega⟩ 0x20040 true = .ok) :
    exec (.completionCiWrite i v) s =
      .next (cairnGapEnd (flushHeld i (onMbox i (fun m => { m with cplCi := v }) (countReg ⟨i.1, by omega⟩ 1 0x20040 s)))) := by
  change execCompletionCiWrite i v s = _
  rw [execCompletionCiWrite, mboxBy_ok v h, mboxWrite_cplCi (by simpa using hready)]

theorem exec_mboxEnable (v : Word) (h : decideAccess s ⟨i.1, by omega⟩ 0x20000 true = .ok) :
    exec (.mboxEnable i v) s = .next (mboxCtrl i v (countReg ⟨i.1, by omega⟩ 1 0x20000 s)) := by
  change execMboxEnable i v s = _
  rw [execMboxEnable, mboxBy_ok v h, mboxWrite_ctrl (by simpa using hready)]

theorem exec_sleepSet (h : decideAccess s ⟨i.1, by omega⟩ 0x20054 true = .ok) :
    exec (.sleepSet i) s = .next (sleepStart i (countReg ⟨i.1, by omega⟩ 1 0x20054 s)) := by
  change execSleepSet i s = _
  rw [execSleepSet, mboxBy_ok _ h, mboxWrite_sleep (by simpa using hready)]
  rfl

theorem exec_sleepClear (h : decideAccess s ⟨i.1, by omega⟩ 0x20054 true = .ok) :
    exec (.sleepClear i) s = .next (sleepEnd i (countReg ⟨i.1, by omega⟩ 1 0x20054 s)) := by
  change execSleepClear i s = _
  rw [execSleepClear, mboxBy_ok _ h, mboxWrite_sleep (by simpa using hready)]
  rfl

end

/-! ## Moderation, dispatch and ICP_HELLO -/

/-- What moves the Odometer changes nothing else. -/
theorem atOdo_host (off : BitVec 16) (s : State) : (atOdo off s).host = s.host := (atOdo_moves (m := 4) rfl (.refl _ s) off).host rfl

theorem timeUp_atOdo (off : BitVec 16) (s : State) : timeUp (atOdo off s) = timeUp s := by
  unfold atOdo
  split <;> rfl

theorem pfOf_atOdo (off : BitVec 16) (s : State) (i : Fin 8) : pfOf (atOdo off s) i = pfOf s i := by
  unfold atOdo
  split <;> rfl

/-- Only what a function makes of the slot's own mailbox counts. -/
theorem onMbox_congr {f g : MboxSlot → MboxSlot} (h : f s.host.mbox[i] = g s.host.mbox[i]) : onMbox i f s = onMbox i g s := by
  simp only [onMbox, upd, h]

/-- A hold whose time has passed ends in a signal (18 R409, log 197). -/
theorem exec_moderationTimeout {off : BitVec 16} (hhold : s.host.mbox[i].hold ≠ none)
    (hpassed : timeUp s = true → s.host.mbox[i].holdAt + cdiv (s.host.mbox[i].modUs * 3125) 4 ≤ (atOdo off s).time.odo) :
    exec (.moderationTimeout i off) s = .next (onMbox i (fun m => m.signal (pfOf s i).isSome) (atOdo off s)) := by
  have hover : holdOver (atOdo off s) s.host.mbox[i] = true := by
    unfold holdOver
    rw [timeUp_atOdo, Option.isSome_iff_ne_none.mpr hhold]
    cases hup : timeUp s with
    | true => simpa using hpassed hup
    | false => rfl
  change execModerationTimeout i off s = _
  simp only [execModerationTimeout, pfOf_atOdo]
  refine congrArg Host.Outcome.next (onMbox_congr ?_)
  rw [atOdo_host, if_pos hover]

theorem exec_commandDispatch (htake : mayTakeReq s i = true) (hturn : hasTurn s i = true) (h : ReqHdr) :
    exec (.commandDispatch i h) s = .next (reqTake i (hdrAt s i h) s) := by
  change execCommandDispatch i h s = _
  rw [execCommandDispatch, htake, hturn]
  rfl

/-- Major version 1 is the one there is (18 R405). -/
theorem exec_icpHello {v : Word} {n : Nat}
    (hn : n = min (min (ringSize s c.slot s.host.mbox[c.slot].reqSize) (ringSize s c.slot s.host.mbox[c.slot].cplSize) * 64) 0xFFFF)
    (h : Ready c 0x100 12 s) (hoffer : v.getLsbD 1 = true) : exec (.icpHello c v) s =
      ok c 0x100 (le 1 1 ++ zeros 3 ++ le 4 2 ++ le 2 n ++ [16#8, 0#8]) (onMbox c.slot (fun m => { m with major := 1 }) s) := by
  have hv : v ≠ 0#32 := by rintro rfl; simp at hoffer
  subst hn
  change execIcpHello c v s = _
  simp only [execIcpHello, ok]
  exact icp_ok h.1 (by rw [if_neg hv, if_pos hoffer]) (by simpa using h.2)

/-! ## The PCIe link -/

/-- The functions an event takes down stop answering, and the link with them (18 R395). -/
def linkLost (k : LossKind) (s : State) : State :=
  { s with host := { s.host with
    pf := updAll s.host.pf fun f p => if lossHits k f then { p with busMaster := false, d0 := true } else p
    pcieUp := match k with | .flr _ => s.host.pcieUp | _ => false
    perst := s.host.perst || k == .perst } }

theorem exec_slotLoss (k : LossKind) : exec (.slotLoss k) s = .next (if (lossSlots k s).isEmpty then linkLost k s else
    faultEvent 52 ((lossSlots k s).foldl (fun s i => slotLose i s) (linkLost k s))) := by
  change execSlotLoss k s = _
  cases hslots : lossSlots k s with
  | nil => simp only [execSlotLoss, hslots]; rfl
  | cons j l => simp only [execSlotLoss, hslots]; rfl

theorem exec_pcieConfigWrite_perst (bm d0 pme l2 : Bool) (h : s.host.perst = true) :
    exec (.pcieConfigWrite i bm d0 pme l2) s = .next s := by
  change execPcieConfigWrite i bm d0 pme l2 s = _
  simp [execPcieConfigWrite, h]

/-- A function no slot is bound to brings up the link and nothing else (18 R395; log 84). -/
theorem exec_pcieConfigWrite_unbound (bm d0 pme l2 : Bool) (h : s.host.perst = false) (hfree : ∀ j, pfOf s j ≠ some i) :
    exec (.pcieConfigWrite i bm d0 pme l2) s = .next { s with host := { s.host with
      pcieUp := true, pf := upd s.host.pf i fun p => { p with busMaster := bm, d0 := d0, pmeEn := pme, l2 := l2 } } } := by
  change execPcieConfigWrite i bm d0 pme l2 s = _
  simp only [execPcieConfigWrite, h, Bool.false_eq_true, if_false]
  refine congrArg Host.Outcome.next (List.foldl_fixed' (fun j => ?_) _)
  have hother : (pfOf s j == some i) = false := by simpa using hfree j
  exact if_neg (by rw [Bool.not_eq_true]; exact hother)

/-- Settles O30: a lemma for each register, command and event. -/
theorem mailboxCommands : Obligations.MailboxCommands := by
  intro s i v
  refine ⟨fun hready => ⟨exec_requestPiWrite hready v, exec_completionCiWrite hready v, exec_mboxEnable hready v,
      fun h => ⟨exec_sleepSet hready h, exec_sleepClear hready h⟩⟩,
    ?moderation, exec_commandDispatch, fun c n hn h hoffer => exec_icpHello hn h hoffer, ?loss,
    fun bm d0 pme l2 => ⟨exec_pcieConfigWrite_perst bm d0 pme l2, exec_pcieConfigWrite_unbound bm d0 pme l2⟩, rfl⟩
  case moderation =>
    intro off u hu hhold hpassed
    subst hu
    exact exec_moderationTimeout hhold hpassed
  case loss =>
    intro k s1 hs1
    subst hs1
    refine ⟨fun hnone => ?_, fun hsome => ?_⟩
    · rw [exec_slotLoss, hnone]; rfl
    · rw [exec_slotLoss, if_neg (by simpa using hsome)]; rfl

end Sys2Proof.Proofs
end

