-- ==== Sys2Proof/Proofs/BusCommands.lean ====
section
/-!
SUPPORT. Transactions of the host SPI and the SMBus (18 R396, R397), with the statement about them.
-/
namespace Sys2Proof.Proofs
open Sys2Proof Sys2Proof.Machine Sys2Proof.Claims Sys2Proof.Laws

variable {s : State} {a : BitVec 24}

/-! ## Host SPI -/

theorem exec_hostSpiWrite (h : spiAddrOk a = true) (d : List Word) :
    exec (.hostSpiWrite a d false) s = .next (busWrites 8 a.toNat d s) := by
  change execHostSpiWrite a d false s = _
  simp [execHostSpiWrite, h]

theorem exec_hostSpiRead (h : spiAddrOk a = true) (n : Nat) : exec (.hostSpiRead a n []) s =
    .next { (busReads 8 [] n 0 a.toNat s).2 with
      host := { (busReads 8 [] n 0 a.toNat s).2.host with spiOut := (busReads 8 [] n 0 a.toNat s).1 } } := by
  change execHostSpiRead a n [] s = _
  simp [execHostSpiRead, h]

/-- A misaligned transaction carries nothing: its line latches (21 R443). -/
theorem exec_hostSpiWrite_misaligned (h : a.toNat % 4 ≠ 0) (d : List Word) (p : Bool) :
    exec (.hostSpiWrite a d p) s = .next (faultEvent 54 s) := by
  have hbad : spiAddrOk a = false := by simp [spiAddrOk, h]
  change execHostSpiWrite a d p s = _
  simp [execHostSpiWrite, hbad, spiBad, h]

/-! ## SMBus -/

section
variable {p : Word} {pec : Option Byte}

theorem exec_smbusSetPointer (h : pecOk s 0xA0#8 (le 4 p.toNat) pec = true) :
    exec (.smbusSetPointer p pec) s = .next { s with host := { s.host with smbPtr := p } } := by
  change execSmbusSetPointer p pec s = _
  rw [execSmbusSetPointer, if_pos h]

theorem exec_smbusSetPointer_badPec (h : pecOk s 0xA0#8 (le 4 p.toNat) pec = false) :
    exec (.smbusSetPointer p pec) s = .next (smbusDiscard s) := by
  change execSmbusSetPointer p pec s = _
  rw [execSmbusSetPointer, h]
  rfl

end

section
variable {d : List Byte} {pec : Option Byte}

theorem exec_smbusBlockWrite_badPec (h : pecOk s 0xA1#8 d pec = false) :
    exec (.smbusBlockWrite d pec) s = .next (smbusDiscard s) := by
  change execSmbusBlockWrite d pec s = _
  simp [execSmbusBlockWrite, h]

/-- A block of one to eight whole words is written from the pointer on, which moves past it. -/
theorem exec_smbusBlockWrite (h : pecOk s 0xA1#8 d pec = true) (hwords : d.length % 4 = 0) (hlo : 4 ≤ d.length) (hhi : d.length ≤ 32) :
    exec (.smbusBlockWrite d pec) s = .next { busWrites 9 s.host.smbPtr.toNat (wordsOf d) s with
      host := { (busWrites 9 s.host.smbPtr.toNat (wordsOf d) s).host with smbPtr := s.host.smbPtr + w32 d.length } } := by
  have hgood : ¬ (!pecOk s 0xA1#8 d pec || d.length % 4 != 0 || outside d.length 4 32) = true := by
    rw [h, hwords, outside_false hlo hhi]; decide
  change execSmbusBlockWrite d pec s = _
  rw [execSmbusBlockWrite, if_neg hgood]

end

/-- A host that clocks a PEC gets one byte more. -/
theorem exec_smbusBlockRead_pec : ∃ t, exec (.smbusBlockRead true) s = .next t ∧
    t.host.smbOut.length = (busReads 9 [] 8 0 s.host.smbPtr.toNat s).1.length + 1 ∧ t.host.smbPtr = s.host.smbPtr + 32#32 := by
  change ∃ t, execSmbusBlockRead true s = _ ∧ _
  exact ⟨_, rfl, by simp, rfl⟩

/-- While the pin is asserted the device answers with its own address (18 R397; log 92). -/
theorem exec_smbusAlertResponse {i : Fin 8} (hbound : boundTo s 9 = some i) (hpin : s.host.mbox[i].pin = true) :
    exec .smbusAlertResponse s = .next { s with host := { s.host with smbOut := [if s.aon.unitB then 0x9A#8 else 0x98#8] } } := by
  have haddr : smbAddr s false = if s.aon.unitB then 0x9A#8 else 0x98#8 := by
    unfold smbAddr
    split <;> rfl
  change execSmbusAlertResponse s = _
  simp only [execSmbusAlertResponse, hbound, Option.elim_some, hpin, if_true, haddr]

/-- Settles O32: a lemma for each transaction. -/
theorem busCommands : Obligations.BusCommands := by
  intro s a
  exact ⟨exec_hostSpiWrite, exec_hostSpiRead, exec_hostSpiWrite_misaligned, rfl,
    fun p pec => ⟨exec_smbusSetPointer, exec_smbusSetPointer_badPec⟩,
    fun d pec hwords hlo hhi => ⟨exec_smbusBlockWrite_badPec, fun h => exec_smbusBlockWrite h hwords hlo hhi⟩, rfl,
    exec_smbusBlockRead_pec, fun _ => exec_smbusAlertResponse⟩

end Sys2Proof.Proofs
end

