-- ==== Sys2Proof/Proofs/SlotAndCounterCommands.lean ====
section
/-!
SUPPORT. The commands of slots, counters and perturbations (16 R355, R356, R370, R371; 22 R460-R467) and the signing of a Cairn record
(03 R68), with the statement about them.
-/
namespace Sys2Proof.Proofs
open Sys2Proof Sys2Proof.Machine Sys2Proof.Claims Sys2Proof.Laws

variable {c : CmdRef} {s : State}

/-! ## Slots -/

section
variable {a : SlotConfigArgs} {i : Fin 8} {s1 s2 : State} (hslot : a.slot.toNat = i.1) (hchecks : firstFail (slotChecks a i s) = stOk)
  (hs1 : s1 = setBind i (bindOf a.bind) (trail 0x23 ([BitVec.ofNat 8 i.1, a.bind, a.role, BitVec.ofNat 8 (bit a.purge)] ++ zeros 4) s))
  (hs2 : s2 = cfgUpdate (fun k => { k with slots := some ((provision s1).set i.1 (roleOfCode a.role.toNat, bindOf a.bind)) }) s1)
include hslot hchecks hs1 hs2

/-- Without PURGE the role is set last. -/
theorem exec_icpSlotConfig (hpurge : a.purge = false) (h : Ready c 0x130 0 s) :
    exec (.icpSlotConfig c a) s = ok c 0x130 [] (setRole i (roleOfCode a.role.toNat) s2) := by
  subst hs1 hs2
  change execIcpSlotConfig c a s = _
  simp only [execIcpSlotConfig, ok]
  refine icp_ok h.1 ?_ h.2
  simp [fin?_eq_some hslot, hchecks, slotApply, hpurge]

/-- With PURGE the role waits for the purge, and the command with it. -/
theorem exec_icpSlotConfig_purge (hpurge : a.purge = true) (h : Taken c 0x130 s) :
    exec (.icpSlotConfig c a) s = .next (purgeDone i { purgeNow i s2 with
      slots := { (purgeNow i s2).slots with s := upd (purgeNow i s2).slots.s i fun q => { q with
        purge := some (c, roleOfCode a.role.toNat) } } }) := by
  subst hs1 hs2
  change execIcpSlotConfig c a s = _
  simp only [execIcpSlotConfig]
  refine icp_later h ?_
  simp [fin?_eq_some hslot, hchecks, slotApply, hpurge]

end

theorem slotInfo_length (s : State) (i : Fin 8) : (slotInfo s i).length = 16 := by simp [slotInfo]

theorem exec_icpSlotInfo (h : Ready c 0x131 16 s) : Reads (.icpSlotInfo c) c 0x131 16 s := by
  change ∃ p, _ ∧ execIcpSlotInfo c s = _
  exact icpGet_reads h (slotInfo_length s c.slot)

theorem exec_icpSlotList (h : Ready c 0x132 128 s) : Reads (.icpSlotList c) c 0x132 128 s := by
  change ∃ p, _ ∧ execIcpSlotList c s = _
  exact icpGet_reads h (length_flatMap_finRange _ (slotInfo_length s))

/-! ## Counters -/

section
variable {a : PerfReadArgs} (hchecks : firstFail (perfChecks c a s) = stOk)
include hchecks

theorem exec_icpPerfRead (hprog : progIdx a.first = none) (h : Ready c 0xB20 (16 + 8 * a.count.toNat) s) :
    ∃ p, p.length = 16 + 8 * a.count.toNat ∧ exec (.icpPerfRead c a) s =
      ok c 0xB20 p (if a.clear then cntZero a.first.toNat a.count.toNat s else s) := by
  have hentry (x : Nat) : (cntEntry s (cmdRole c s) c.slot.1 a.master.toNat a.roles.toNat a.classes.toNat (a.first.toNat + x)).length = 8 := by
    simp [cntEntry]
  have hlen : (le 8 s.time.odo ++ le 2 a.count.toNat ++ zeros 6 ++ (List.range a.count.toNat).flatMap fun x =>
      cntEntry s (cmdRole c s) c.slot.1 a.master.toNat a.roles.toNat a.classes.toNat (a.first.toNat + x)).length
      = 16 + 8 * a.count.toNat := by
    rw [List.length_append, List.length_flatMap]
    simp [hentry, Nat.mul_comm]
  refine ⟨_, hlen, ?_⟩
  change execIcpPerfRead c a s = _
  simp only [execIcpPerfRead, ok]
  exact icp_ok h.1 (by simp only [hchecks, hprog]; rfl) (by rw [hlen]; exact h.2)

variable {k : Fin 64} (hprog : progIdx a.first = some k) (h : Ready c 0xB20 0 s)
include hprog h

theorem exec_icpPerfRead_bind (hkind : a.kind = 1#8) :
    exec (.icpPerfRead c a) s = ok c 0xB20 [] (perfBind k (some (bindOfArgs a)) s) := by
  change execIcpPerfRead c a s = _
  simp only [execIcpPerfRead, ok]
  exact icp_ok h.1 (by simp [hchecks, hprog, hkind]) h.2

theorem exec_icpPerfRead_unbind (hkind : a.kind = 2#8) :
    exec (.icpPerfRead c a) s = ok c 0xB20 [] (perfBind k none s) := by
  change execIcpPerfRead c a s = _
  simp only [execIcpPerfRead, ok]
  exact icp_ok h.1 (by simp [hchecks, hprog, hkind]) h.2

end

theorem exec_icpPerfDumpConfig {a : DumpConfigArgs} (h : Ready c 0xB21 0 s) (hrsv : a.rsv = false) (hbase : a.base.toNat % 64 = 0)
    (hperiod : a.period.toNat ≤ 4095) (horder : a.first.toNat ≤ a.last.toNat) (hlast : a.last.toNat ≤ 1023)
    (hlock : s.regs.lk.getLsbD 14 = false) (hpf : a.period = 0#16 ∨ pfOf s 0 ≠ none) :
    exec (.icpPerfDumpConfig c a) s = ok c 0xB21 [] { s with perf := { s.perf with
      dumpPeriod := a.period.toNat, dumpFirst := a.first.toNat, dumpLast := a.last.toNat, dumpBase := a.base, nextBuf := false
      dumpAt := s.time.odo + a.period.toNat * 7812500 } } := by
  have hfirst : a.first.toNat ≤ 1023 := by omega
  have hdumps : (a.period != 0#16 && (pfOf s 0).isNone) = false := by
    obtain hzero | hsome := hpf
    · simp [hzero]
    · rw [Option.isNone_eq_false_iff.mpr (Option.isSome_iff_ne_none.mpr hsome), Bool.and_false]
  change execIcpPerfDumpConfig c a s = _
  simp only [execIcpPerfDumpConfig, ok]
  refine icpDo_is h.1 (firstFail_ok fun x hx => ?_) h.2 rfl rfl
  simp only [List.mem_cons, List.not_mem_nil, or_false] at hx
  obtain rfl | rfl | rfl | rfl := hx
  · simp [hrsv, hbase]
  · simp [hperiod, hfirst, hlast]
  · exact hlock
  · rw [hdumps]; simp [horder]

theorem exec_icpPerfAcl {x y : BitVec 16} (h : Ready c 0xB22 0 s) (hx : x.toNat ≤ 511) (hy : y.toNat ≤ 511)
    (hlock : s.regs.lk.getLsbD 14 = false) : exec (.icpPerfAcl c x y) s =
      ok c 0xB22 [] { s with perf := { s.perf with acl := pack [(0, x.toNat), (16, y.toNat)] } } := by
  change execIcpPerfAcl c x y s = _
  simp only [execIcpPerfAcl, ok]
  refine icpDo_is h.1 (firstFail_ok fun e he => ?_) h.2 rfl rfl
  simp only [List.mem_cons, List.not_mem_nil, or_false] at he
  obtain rfl | rfl := he
  · simp [hx, hy]
  · exact hlock

theorem canDump_atOdo (off : BitVec 16) (s : State) : canDump (atOdo off s) = canDump s := by
  unfold atOdo
  split <;> rfl

/-! A dump falls due at its instant, or at once while nothing measures it (22 R462). -/

section
variable {off : BitVec 16} (hperiod : s.perf.dumpPeriod ≠ 0) (hdue : timeUp s = true → s.perf.dumpAt ≤ (atOdo off s).time.odo)
include hperiod hdue

/-- Where a dump waits for nothing. -/
theorem dump_due : ¬ (decide ((atOdo off s).perf.dumpPeriod = 0) ||
    (timeUp (atOdo off s) && decide ((atOdo off s).time.odo < (atOdo off s).perf.dumpAt))) = true := by
  have hperf : (atOdo off s).perf = s.perf := (atOdo_moves (m := 4) rfl (.refl _ s) off).perf rfl
  rw [hperf, timeUp_atOdo]
  cases hup : timeUp s with
  | true =>
    have hreached := hdue hup
    simp [hperiod, hreached]
  | false => simp [hperiod]

theorem exec_perfDump (hcan : canDump s = true) : ∃ t, exec (.perfDump off) s = .next t ∧
    t.perf.dumpAt = s.perf.dumpAt + s.perf.dumpPeriod * 7812500 ∧ t.perf.dumpSeq = low 32 (s.perf.dumpSeq + 1) ∧
    t.perf.nextBuf = !s.perf.nextBuf := by
  have hperf : (atOdo off s).perf = s.perf := (atOdo_moves (m := 4) rfl (.refl _ s) off).perf rfl
  have hgo : ¬ (!canDump (atOdo off s)) = true := by rw [canDump_atOdo, hcan]; decide
  change ∃ t, execPerfDump off s = _ ∧ _
  simp only [execPerfDump]
  rw [if_neg (dump_due hperiod hdue), if_neg hgo]
  exact ⟨_, rfl, by simp only [hperf], by simp only [hperf], by simp only [hperf]⟩

theorem exec_perfDump_skipped (hcan : canDump s = false) : exec (.perfDump off) s = .next (sticky 0xE0004 4#32 { atOdo off s with
    perf := { (atOdo off s).perf with dumpAt := (atOdo off s).perf.dumpAt + (atOdo off s).perf.dumpPeriod * 7812500 } }) := by
  have hskip : (!canDump (atOdo off s)) = true := by rw [canDump_atOdo, hcan]; rfl
  change execPerfDump off s = _
  simp only [execPerfDump]
  rw [if_neg (dump_due hperiod hdue), if_pos hskip]

end

/-! ## Perturbations -/

theorem exec_icpPerturbArm {a : PerturbArgs} {k : Fin 4} (h : Ready c 0xB30 0 s) (hkind : a.kind.toNat = k.1)
    (hchecks : firstFail (pertChecks a s) = stOk) : exec (.icpPerturbArm c a) s =
      ok c 0xB30 [] (if a.action = 0#8 then pertArm k a s else if a.action = 1#8 then pertStop k s else pertEnd s) := by
  change execIcpPerturbArm c a s = _
  simp only [execIcpPerturbArm, ok, fin?_eq_some hkind]
  exact icpDo_is h.1 hchecks h.2 rfl rfl

theorem exec_icpPerturbLive_open (h : Ready c 0xB31 0 s) :
    exec (.icpPerturbLive c 0xA11E0001#32) s = ok c 0xB31 [] (pertLive true s) := by
  change execIcpPerturbLive c 0xA11E0001#32 s = _
  exact icpDo_is h.1 (firstFail_ok (by simp)) h.2 rfl rfl

theorem exec_icpPerturbLive_close (h : Ready c 0xB31 0 s) : exec (.icpPerturbLive c 0#32) s = ok c 0xB31 []
    (pertLive false (if s.sys.mode == .serve || s.sys.mode == .holdover then pertEnd s else s)) := by
  change execIcpPerturbLive c 0#32 s = _
  exact icpDo_is h.1 (firstFail_ok (by simp)) h.2 rfl rfl

theorem exec_perturbExpiry {k : Fin 4} {off : BitVec 16} (h : pertLeft (atOdo off s) k = 0) :
    exec (.perturbExpiry k off) s = .next (pertStop k (atOdo off s)) := by
  change execPerturbExpiry k off s = _
  simp only [execPerturbExpiry, h, if_true]

/-! ## Signing a Cairn record -/

/-- The records that wait for their signature, and the last one signed. -/
def signing (s : State) : List CairnRec × Option CairnRec := (s.cairn.unsigned, s.cairn.last)

theorem cairnRoom_signing (s : State) : signing (cairnRoom s) = signing s := by
  unfold cairnRoom
  split
  · rfl
  · split
    · simp [signing]
    · rfl

theorem cairnGapEnd_signing (s : State) : signing (cairnGapEnd s) = signing s := by
  unfold cairnGapEnd
  split
  · rfl
  · simp [signing]

/-- Sending a record to its slots leaves what waits for a signature. -/
theorem deliverAll_signing (x : Msg) : ∀ (l : List (Fin 8)) (s : State),
    signing (l.foldl (fun s i => cairnRoom (deliver i x s)) s) = signing s
  | [], _ => rfl
  | i :: l, s => by
    rw [List.foldl_cons, deliverAll_signing x l, cairnRoom_signing, signing, deliver_cairn, signing]

theorem exec_cairnSignDone {r : CairnRec} {l : List CairnRec} (hqueue : s.cairn.unsigned = r :: l) (hsign : canSign s = true) :
    ∃ t, exec (.cairnSignDone true) s = .next t ∧ t.cairn.unsigned = l ∧
      t.cairn.last = some { r with sig := some (ecdsaSign s (recBytes r)) } := by
  change ∃ t, execCairnSignDone true s = _ ∧ _
  simp only [execCairnSignDone, hqueue, hsign, Bool.and_self, if_true]
  refine ⟨_, rfl, ?_⟩
  rw [← Prod.mk.injEq]
  exact (deliverAll_signing _ _ _).trans (cairnGapEnd_signing _)

/-- Settles O33: a lemma for each command and event. -/
theorem slotAndCounterCommands : Obligations.SlotAndCounterCommands := by
  intro c s
  refine ⟨fun a i s1 s2 hslot hchecks hs1 hs2 => ⟨exec_icpSlotConfig hslot hchecks hs1 hs2, exec_icpSlotConfig_purge hslot hchecks hs1 hs2⟩,
    exec_icpSlotInfo, exec_icpSlotList,
    fun a hchecks => ⟨exec_icpPerfRead hchecks, fun k hprog h => ⟨exec_icpPerfRead_bind hchecks hprog h, exec_icpPerfRead_unbind hchecks hprog h⟩⟩,
    fun _ => exec_icpPerfDumpConfig, fun _ _ => exec_icpPerfAcl, ?dump, fun _ _ => exec_icpPerturbArm,
    fun h => ⟨exec_icpPerturbLive_open h, exec_icpPerturbLive_close h⟩, ?expiry, fun _ _ => exec_cairnSignDone⟩
  case dump =>
    intro off u hu hperiod hdue
    subst hu
    exact ⟨exec_perfDump hperiod hdue, exec_perfDump_skipped hperiod hdue⟩
  case expiry =>
    intro k off u hu h
    subst hu
    exact exec_perturbExpiry h

end Sys2Proof.Proofs
end

