-- ==== Sys2Proof/Proofs/WaypointEvents.lean ====
section
/-!
SUPPORT. Waypoint's events: reservations, the launch queue, the timestamp queue and calibration (12 R250-R266), with the statement
about them.
-/
namespace Sys2Proof.Proofs
open Sys2Proof Sys2Proof.Machine Sys2Proof.Claims Sys2Proof.Laws

variable {s : State} {p : Fin 4}

/-! ## Reservations -/

section
variable {id : Nat} {a : Int} (hopen : unreserved s p id = some a) (hin : inPeriod (lateQ a) s = true)
include hopen hin

/-- A transaction that has not reserved in time is freed as late (12 R256). -/
theorem exec_reservationDeadline_txn {x : Txn} (hx : txnOf s id = some x) :
    exec (.reservationDeadline p id) s = .next (freeTxn id (servLate x (waitEnd p id (atQ (lateQ a) s)))) := by
  change execReservationDeadline p id s = _
  simp [execReservationDeadline, hopen, hin, hx]

theorem exec_reservationDeadline_msg {m : PtpMsg} (hx : txnOf s id = none) (hm : msgOf s id = some m) :
    exec (.reservationDeadline p id) s = .next (freeTxn id (ptpLate m (waitEnd p id (atQ (lateQ a) s)))) := by
  change execReservationDeadline p id s = _
  simp [execReservationDeadline, hopen, hin, hx, hm]

end

/-! ## The launch queue -/

section
variable {e : LaunchEnt}

/-- The first unchecked entry whose frame is ready passes its check (12 R257). -/
theorem exec_launchPoolDeadline (hfirst : s.wayp.p[p].launch.find? (!·.checked) = some e) (hin : inPeriod (e.d - 512) s = true)
    (hspeaks : isSilent s e = false) (hready : e.ready ≤ e.d - 512) : exec (.launchPoolDeadline p false) s =
      .next (onWayp p (fun w => { w with
        launch := w.launch.map fun x => if x == e then { x with checked := true } else x }) (atQ (e.d - 512) s)) := by
  have hintime : ¬ e.d - 512 < e.ready := by omega
  change execLaunchPoolDeadline p false s = _
  simp only [execLaunchPoolDeadline, hfirst, hin, hspeaks, hintime, decide_false, Bool.or_false, Bool.not_true, Bool.false_eq_true,
    if_false]

variable (hhead : s.wayp.p[p].launch.head? = some e) (hin : inPeriod e.d s = true)
include hhead hin

/-- A checked frame goes out at D where its link and pause allow it (12 R257, R259). -/
theorem exec_frameLaunch (hcal : e.cal = false) (hspeaks : isSilent s e = false) (hchecked : e.checked = true)
    (hlink : s.port.p[p].link = true) (hpause : scopeNow s.port.p[p] = 2 → s.port.p[p].pauseTimer = 0) :
    exec (.frameLaunch p) s = .next (txStart p
      (freeTxn e.txn (launchFree p e (launchOut e (waypCount p 0 1 none (wireOut p e (atQ e.d s))))))) := by
  have hfree : ¬ (decide (scopeNow s.port.p[p] = 2) && s.port.p[p].pauseTimer != 0) = true := by
    by_cases hscope : scopeNow s.port.p[p] = 2
    · rw [hpause hscope]; simp
    · rw [decide_eq_false hscope, Bool.false_and]; decide
  change execFrameLaunch p s = _
  simp only [execFrameLaunch, hhead, hin, hcal, hspeaks, hchecked, hlink, if_neg hfree, Bool.not_true, Bool.false_and,
    Bool.false_eq_true, if_false]

/-- A calibration frame goes out with its stamp (12 R266). -/
theorem exec_frameLaunch_cal (hcal : e.cal = true) : exec (.frameLaunch p) s = .next (txStart p (calSent p e
    (onPort p (fun q => { q with lastCtl := some (.calibration e.stamp) }) (launchFree p e (wireOut p e (atQ e.d s)))))) := by
  change execFrameLaunch p s = _
  simp only [execFrameLaunch, hhead, hin, hcal, Bool.not_true, Bool.false_eq_true, if_false, if_true]

end

/-! ## The timestamp queue -/

section
variable {i : Fin 8}

theorem exec_tsqPop {e : TsqEnt} (hok : decideAccess s ⟨i.1, by omega⟩ (0x90110 + 0x40 * p.1) false = .ok)
    (hfirst : s.wayp.p[p].tsq.find? (·.slot == i) = some e) : ∃ t, exec (.tsqPop ⟨i.1, by omega⟩ p) s = .next t ∧
      t.wayp.p[p].tsq = s.wayp.p[p].tsq.erase e ∧ t.wayp.p[p].tsqSlot[i].shadow = e := by
  change ∃ t, execTsqPop ⟨i.1, by omega⟩ p s = _ ∧ _
  have hslot : fin? 8 i.1 = some i := fin?_eq_some rfl
  rw [execTsqPop, readBy_ok _ hok]
  refine ⟨_, rfl, ?_⟩
  simp only [hslot, countReg_wayp, hfirst, give_wayp]
  simp [onWayp, upd]

/-- A read latches the count of a slot's lost timestamps; in the modes in which a read clears it, it starts again (12 R262). -/
theorem exec_tsqLostRead (hok : decideAccess s ⟨i.1, by omega⟩ (0x90128 + 0x40 * p.1) false = .ok) :
    ∃ t, exec (.tsqLostRead ⟨i.1, by omega⟩ p) s = .next t ∧
      t.wayp.p[p].tsqSlot[i].ovf = (if modeNormal s.sys.mode then 0 else s.wayp.p[p].tsqSlot[i].ovf) ∧
      t.wayp.p[p].tsqSlot[i].ovfShadow = s.wayp.p[p].tsqSlot[i].ovf := by
  change ∃ t, execTsqLostRead ⟨i.1, by omega⟩ p s = _ ∧ _
  have hslot : fin? 8 i.1 = some i := fin?_eq_some rfl
  have htake (u : State) : (stickyTake ⟨i.1, by omega⟩ (0x90128 + 0x40 * p.1) u).wayp = u.wayp :=
    (stickyTake_moves (m := 262144) rfl (.refl _ u) _ _).wayp rfl
  simp only [execTsqLostRead]
  rw [readBy_ok _ hok]
  refine ⟨_, rfl, ?_⟩
  simp only [hslot, give_wayp]
  simp [onWayp, upd, htake]

end

/-! ## Calibration series -/

section
variable {k : WaypCal} (hseries : s.wayp.p[p].cal = some k)
include hseries

/-- A loop-back ends with the mean and r.m.s. of its results once all frames returned (12 R266). -/
theorem exec_waypCalDone_loop (hloop : k.loop_ = true) (hall : k.n ≤ k.results.length) : exec (.waypCalDone p) s =
    ok k.cmd 0x613 (leI 4 (calMean k.results).1 ++ le 4 (calMean k.results).2)
      (onWayp p (fun w => { w with cal := none, launch := w.launch.filter (!·.cal) }) s) := by
  change execWaypCalDone p s = _
  simp only [execWaypCalDone, hseries, hloop, hall, if_true, ok]

/-- A loop-back of which frames are missing after a second is given up. -/
theorem exec_waypCalDone_late (hloop : k.loop_ = true) (hmissing : k.results.length < k.n) (hsecond : k.start + tickSec ≤ s.time.odo) :
    exec (.waypCalDone p) s = .next (complete k.cmd 0x613 stBusy []
      (onWayp p (fun w => { w with cal := none, launch := w.launch.filter (!·.cal) }) s)) := by
  have hsome : ¬ k.n ≤ k.results.length := by omega
  change execWaypCalDone p s = _
  simp only [execWaypCalDone, hseries, hloop, hsome, hsecond, if_true, if_false]

/-- A pulse series ends once its last frame is gone. -/
theorem exec_waypCalDone_pulse (hpulse : k.loop_ = false) (hleft : k.left = 0) (hgone : ∀ e ∈ s.wayp.p[p].launch, e.cal = false)
    (hresults : k.results ≠ []) : exec (.waypCalDone p) s =
      ok k.cmd 0x612 (leI 4 (calMean k.results).1 ++ le 4 (calMean k.results).2)
        (onWayp p (fun w => { w with cal := none, launch := w.launch.filter (!·.cal) }) s) := by
  have hnone : s.wayp.p[p].launch.any (·.cal) = false := by
    rw [List.any_eq_false]
    intro e he
    simp [hgone e he]
  have hsome : k.results.isEmpty = false := by simpa using hresults
  change execWaypCalDone p s = _
  simp only [execWaypCalDone, hseries, hpulse, hleft, hnone, hsome, bne_self_eq_false, Bool.or_false, Bool.false_eq_true, if_false, ok]

end

/-- Settles O21: a lemma for each event. -/
theorem waypointEvents : Obligations.WaypointEvents := by
  intro s p
  refine ⟨rfl, ?deadline, fun _ => exec_launchPoolDeadline, fun _ => exec_frameLaunch, fun _ => exec_frameLaunch_cal,
    fun _ _ => exec_tsqPop, fun _ => exec_tsqLostRead, ?series⟩
  case deadline =>
    intro id a hopen hin u hu
    subst hu
    exact ⟨fun _ => exec_reservationDeadline_txn hopen hin, fun _ => exec_reservationDeadline_msg hopen hin⟩
  case series =>
    intro k u hseries hu
    subst hu
    exact ⟨exec_waypCalDone_loop hseries, exec_waypCalDone_late hseries, exec_waypCalDone_pulse hseries⟩

end Sys2Proof.Proofs
end

