-- ==== Sys2Proof/Proofs/ServiceCommands.lean ====
section
/-!
SUPPORT. The time service's events and commands (13 R269-R301), with the statement about them.
-/
namespace Sys2Proof.Proofs
open Sys2Proof Sys2Proof.Machine Sys2Proof.Claims Sys2Proof.Laws

variable {c : CmdRef} {s : State}

/-! ## Events -/

section
variable {id : Nat} {x x1 : Txn} {cur late : Option (Fin 64)} {s1 : State}
  (hfind : s.serv.inflight.find? (fun t => t.id == id && t.nts && t.authOk = 0) = some x) (hkod : x.kodR = false)
  (hcur : cur = currentKey s x.slot.1 false 0) (hlate : late = (if x.sealNum.isSome then none else cur))
  (hx1 : x1 = { x with
    sealNum := x.sealNum.orElse fun _ => late.map fun j => s.vault.keys[j].num
    sealKey := late.elim x.sealKey fun j => s.vault.keys[j].key
    sealAt := late.elim x.sealAt fun j => some (j.1, s.vault.keys[j].gen)
    authOk := authResult cur.isSome x, draw0 := s.vault.draws, silent := authResult cur.isSome x != 1 && !s.serv.nakEn })
  (hs1 : s1 = onTxn id (fun _ => x1) { s with vault := { s.vault with draws := s.vault.draws + x.cookies + 1 } })
include hfind hkod hcur hlate hx1 hs1

/-- The work list of a request leads to its reservation; a cookie or tag that does not open counts as rejected (13 R282, R283). -/
theorem exec_ntsCryptoDone : exec (.ntsCryptoDone id) s = .next (servReserve x1 (if authResult cur.isSome x = 1 then s1 else
    servReject x.slot (txnCount x (if authResult cur.isSome x = 2 then 10 else 11) 1 s1))) := by
  subst hcur hlate hx1 hs1
  change execNtsCryptoDone id s = _
  simp only [execNtsCryptoDone, hfind, hkod, Bool.false_or, Bool.false_and, Bool.or_false, decide_eq_true_eq]

end

/-- CREDIT_RATE follows from the measured processing time (13 R276). -/
theorem exec_creditRateUpdate (hrun : s.sys.mgmtFwRunning = true) (hpert : (s.pert.k[1]).armed = false) {n : Nat}
    (hn : n = if (fillPools s).serv.resCnt = 0 then 4000 else (fillPools s).serv.resSum / (fillPools s).serv.resCnt) :
    ∃ t, exec .creditRateUpdate s = .next t ∧ t.serv.tProc = n ∧ t.serv.pool.rate =
      min ((fillPools s).serv.creditMax * ones (fillPools s).serv.aesLanes / 8) (512000000 / (n + (fillPools s).wayp.margin)) := by
  have hcalm : ((fillPools s).pert.k[1]).armed = false := hpert
  subst hn
  change ∃ t, execCreditRateUpdate s = _ ∧ _
  simp only [execCreditRateUpdate, hrun, Bool.not_true, Bool.false_eq_true, if_false, hcalm]
  exact ⟨_, rfl, rfl, rfl⟩

/-- A sweep in time scrubs its bucket and goes on to the next (13 R275). -/
theorem exec_tollgateScrubVisit (hup : timeUp s = true) (htime : s.time.odo ≤ s.serv.sweepStart + 468750000000) {b : BitVec 18}
    (hpos : b.toNat = s.serv.sweepPos) (hmore : b.toNat + 1 < 262144) : exec (.tollgateScrubVisit b) s =
      .next (onServ (fun v => { v with sweepPos := v.sweepPos + 1 }) (bucketSet b.toNat ((bucketAt s b.toNat).scrub s) s)) := by
  have hintime : ¬ 468750000000 < s.time.odo - s.serv.sweepStart := by omega
  have hnext : s.serv.sweepPos + 1 < 262144 := by omega
  change execTollgateScrubVisit b s = _
  simp only [execTollgateScrubVisit, hup, bucketSet, onServ, hpos, hintime, hnext, bne_self_eq_false, Bool.not_true,
    Bool.false_eq_true, if_false, if_true]

theorem exec_smearWindowEdge {i : Fin 8} {k : Fin 32} {a : ServAddr} (haddr : s.serv.slots[i].addrs[k] = some a)
    (hedge : smearOpenNow s a ≠ a.smearOpen) : exec (.smearWindowEdge i k) s =
      .next (raiseOwn i 163 (servHist i 0x10#32 (onServSlot i (fun q => { q with
        addrs := q.addrs.set k.1 (some { a with smearOpen := !a.smearOpen }) }) s))) := by
  have hne : (smearOpenNow s a == a.smearOpen) = false := by simpa using hedge
  change execSmearWindowEdge i k s = _
  simp only [execSmearWindowEdge, haddr, hne, Bool.false_eq_true, if_false]

/-- A lane that fails its test leaves service (13 R295). -/
theorem exec_cryptoSelfTest (hpower : powered s 5 = true) {x : BitVec 8} (h : BitVec 4)
    (hfails : s.serv.aesLanes &&& x ≠ s.serv.aesLanes) : exec (.cryptoSelfTest x h) s =
      .next (authTrim (authCap (faultCond 25 (s.serv.shaEng &&& h != 0xF#4)
        (faultCond 24 (s.serv.aesLanes &&& x != 0xFF#8) (raise 165
          (onServ (fun v => { v with aesLanes := v.aesLanes &&& x, shaEng := v.shaEng &&& h }) s)))))) := by
  change execCryptoSelfTest x h s = _
  simp only [execCryptoSelfTest, hpower, hfails, decide_false, Bool.false_and, Bool.not_true, Bool.false_eq_true, if_false]
  rfl

/-! ## Listening addresses -/

/-- An address all of whose checks pass is stored; whether its window is open stays (13 R269, R300, R301). -/
theorem exec_icpServAddrSet {a : AddrSetArgs} {k : Fin 32} (h : Ready c 0x700 0 s) (hargs : AddrArgsOk c a s) (hk : a.idx.toNat = k.1)
    (hapart : ∀ b ∈ otherAddrs s c.slot k.1, addrClash (newAddr a) b = false) (hlock : smearLocked s c.slot a = false) :
    exec (.icpServAddrSet c a) s = ok c 0x700 [] (onServSlot c.slot (fun q => { q with
      addrs := q.addrs.set k.1 (some { newAddr a with smearOpen := (addrAt s c.slot k.1).elim false (·.smearOpen) }) }) s) := by
  have hnone : (otherAddrs s c.slot a.idx.toNat).any (addrClash (newAddr a)) = false := by
    rw [hk, List.any_eq_false]
    intro b hb
    simp [hapart b hb]
  change execIcpServAddrSet c a s = _
  simp only [execIcpServAddrSet, ok]
  refine icpDo_is h.1 ((firstFail_append_of_pass hargs.checks_pass).trans ?last) h.2 ?effect rfl
  case last => rw [hnone, hlock]; rfl
  case effect => rw [fin?_eq_some hk]

theorem exec_icpServAddrDel {b : BitVec 8} {k : Fin 32} (h : Ready c 0x701 0 s) (hk : b.toNat = k.1) :
    exec (.icpServAddrDel c b false) s =
      ok c 0x701 [] (if (s.serv.slots[c.slot].addrs[k]).isSome then addrDelete c.slot k s else s) := by
  have hlast : b.toNat ≤ 31 := by omega
  change execIcpServAddrDel c b false s = _
  simp only [execIcpServAddrDel, ok]
  exact icpDo_is h.1 (firstFail_ok (by simp [hlast])) h.2 (by rw [fin?_eq_some hk]) rfl

theorem exec_icpServAddrList {p : List Byte} (hp : p = le 1 (addrCount s.serv.slots[c.slot]) ++ zeros 3 ++
    ((List.finRange 32).flatMap fun k => s.serv.slots[c.slot].addrs[k].elim [] (addrRecord k.1))) (h : Ready c 0x702 p.length s) :
    exec (.icpServAddrList c) s = ok c 0x702 p s := by
  subst hp
  change execIcpServAddrList c s = _
  exact icpGet_ok h.1 h.2

/-! ## Configuration, status and minting -/

theorem exec_icpServConfig {a : ServConfigArgs} (h : Ready c 0x703 0 s) (hrsv : a.rsv = false) (hlo : 1 ≤ a.creditMax.toNat)
    (hhi : a.creditMax.toNat ≤ 32000) (hcookies : 1 ≤ a.maxCookies.toNat) (hcookies' : a.maxCookies.toNat ≤ 8) :
    exec (.icpServConfig c a) s = ok c 0x703 [] { s with
      serv := { s.serv with creditMax := a.creditMax.toNat, maxCookies := a.maxCookies.toNat, nakEn := a.nakEn } } := by
  have hcredit : a.creditMax ≠ 0#16 := by bv_omega
  have hmax : a.maxCookies ≠ 0#8 := by bv_omega
  change execIcpServConfig c a s = _
  simp only [execIcpServConfig, ok]
  exact icpDo_is h.1 (firstFail_ok (by simp [hrsv, hcredit, hmax, hhi, hcookies'])) h.2 rfl rfl

theorem exec_icpServSlotLimit {b : BitVec 8} {i : Fin 8} {l : BitVec 16} (h : Ready c 0x704 0 s) (hslot : b.toNat = i.1)
    (hlo : 1 ≤ l.toNat) (hhi : l.toNat ≤ 32000) : exec (.icpServSlotLimit c b l false) s =
      ok c 0x704 [] (onServSlot i (fun q => { q with pool := { q.pool with rate := l.toNat } }) (fillPools s)) := by
  have hlast : b.toNat ≤ 7 := by omega
  have hl : l ≠ 0#16 := by bv_omega
  change execIcpServSlotLimit c b l false s = _
  simp only [execIcpServSlotLimit, ok]
  exact icpDo_is h.1 (firstFail_ok (by simp [hlast, hl, hhi])) h.2 (by rw [fin?_eq_some hslot]) rfl

theorem exec_icpServStatus (h : Ready c 0x705 40 s) : Reads (.icpServStatus c) c 0x705 40 s := by
  change ∃ p, _ ∧ execIcpServStatus c s = _
  exact icpGet_reads h (by simp)

theorem sealCookie_length (key nonce plain : List Byte) (kid : Nat) (hnonce : nonce.length = 16) :
    (sealCookie key kid nonce plain).length = 104 := by
  simp [sealCookie, hnonce]

/-- Eight bytes of header, and a cookie of 104 bytes each. -/
theorem mintAnswer_length (n : Nat) (head key plain : List Byte) (kid draws : Nat) (hhead : head.length = 8) :
    (head ++ (List.range n).flatMap fun j => sealCookie key kid (randBytes (draws + j) 16) plain).length = 8 + 104 * n := by
  have hcookie (j : Nat) : (sealCookie key kid (randBytes (draws + j) 16) plain).length = 104 :=
    sealCookie_length _ _ _ _ (by simp [randBytes])
  rw [List.length_append, hhead, List.length_flatMap]
  simp [hcookie, Nat.mul_comm]

/-- One to eight cookies are sealed under the CURRENT key (13 R285, R301). -/
theorem exec_icpNtsMint {a : MintArgs} {k : Fin 64} (h : Ready c 0x710 (8 + 104 * a.count.toNat) s) (hrsv : a.rsv = false)
    (halg : a.alg = 15#16) (hlo : 1 ≤ a.count.toNat) (hhi : a.count.toNat ≤ 8) (hloaded : s.vault.storeLoaded = true)
    (hkey : currentKey s c.slot.1 false 0 = some k) (hup : ntsUp s = true) :
    ∃ p, p.length = 8 + 104 * a.count.toNat ∧ exec (.icpNtsMint c a) s = ok c 0x710 p (countN (192 + 17) (some c.slot) a.count.toNat
      { s with vault := { s.vault with draws := s.vault.draws + a.count.toNat } }) := by
  have hcount : a.count ≠ 0#8 := by bv_omega
  have hfew : ¬ 8 < a.count.toNat := by omega
  have hlen := mintAnswer_length a.count.toNat (le 1 a.count.toNat ++ zeros 3 ++ le 4 (keyId c.slot.1 s.vault.keys[k].num))
    s.vault.keys[k].key (cookiePlain a.c2s.toList a.s2c.toList) (keyId c.slot.1 s.vault.keys[k].num) s.vault.draws (by simp)
  refine ⟨_, hlen, ?_⟩
  change execIcpNtsMint c a s = _
  simp only [execIcpNtsMint, ok]
  exact icp_ok h.1 (by simp [hrsv, hcount, halg, hfew, hloaded, hkey, hup]) (by rw [hlen]; exact h.2)

/-- Settles O22: a lemma for each event and command. -/
theorem serviceCommands : Obligations.ServiceCommands := by
  intro c s
  refine ⟨?crypto, fun hrun hpert _ => exec_creditRateUpdate hrun hpert, fun hup htime _ => exec_tollgateScrubVisit hup htime,
    fun _ _ _ => exec_smearWindowEdge, fun hpower _ h => exec_cryptoSelfTest hpower h, ?addrSet, fun _ _ => exec_icpServAddrDel,
    fun _ => exec_icpServAddrList, fun _ => exec_icpServConfig, fun _ _ _ => exec_icpServSlotLimit, exec_icpServStatus,
    fun _ _ => exec_icpNtsMint⟩
  case crypto =>
    intro id x x1 cur late hfind hkod hcur hlate hx1 s1 hs1
    rw [exec_ntsCryptoDone hfind hkod hcur hlate hx1 hs1]
    refine ⟨fun h => ?_, fun h => ?_, fun h => ?_⟩
    · rw [if_pos h]
    · rw [if_neg (by omega), if_pos h]
    · rw [if_neg (by omega), if_neg (by omega)]
  case addrSet =>
    intro a k h hrsv hk hserves hipv4 huni hvlan hprefix hports hports' hrate hrate' hburst hburst' hsmear hw hdepth hquota hapart hlock
    have hargs : AddrArgsOk c a s := ⟨hrsv, by omega, hserves, hipv4, huni, hvlan, hprefix, ⟨hports, hports'⟩, ⟨hrate, hrate'⟩,
      ⟨hburst, hburst'⟩, hsmear, hw, hdepth, by rw [hk]; exact hquota⟩
    exact exec_icpServAddrSet h hargs hk hapart hlock

end Sys2Proof.Proofs
end

