-- ==== Sys2Proof/Proofs/PtpCommands.lean ====
section
/-!
SUPPORT. The PTP engine's events and commands (14 R308-R328), with the statement about them.
-/
namespace Sys2Proof.Proofs
open Sys2Proof Sys2Proof.Machine Sys2Proof.Claims Sys2Proof.Laws

variable {c : CmdRef} {s : State}

/-! ## Visits -/

section
variable {i : BitVec 17} {off : BitVec 16} {k : PtpInst} {s1 : State} {g : Grant} (hs1 : s1 = atTick off s) (hg : g = grantGet s1 i.toNat)
  (hup : timeUp s = true) (hlands : landsEvery s1 gridFrame (i.toNat * 7808500 * 2 ^ 31) = true) (hheld : g.free = false)
  (hinst : s.ptp.inst[g.inst] = some k)
include hs1 hg hup hlands hheld hinst

/-- A grant that has expired is removed and counted (14 R313). -/
theorem exec_grantVisit_expired (hexp : g.expired s1 = true) :
    exec (.grantVisit i off) s = .next (ptpCount g.port 18 k.owner (grantPut i.toNat {} s1)) := by
  subst hg hs1
  change execGrantVisit i off s = _
  simp only [execGrantVisit, hup, hlands, hheld, hexp, atTick_ptp, hinst, Bool.not_true, Bool.or_self, Bool.false_eq_true, if_false,
    if_true]

/-- One that runs is served while the service is open (14 R314, R316). -/
theorem exec_grantVisit_due (hruns : g.expired s1 = false) (hopen : servOpen s1 = true)
    (hrecent : -16384 ≤ (g.dreqTat - dreqTime s1).toInt) : exec (.grantVisit i off) s =
      .next (emitDue g.inst k i.toNat g.logSync g.logAnn
        { port := g.port, dst := some g.addr, mac := mget 0#48 g.nh s1.ptp.nextHop } s1) := by
  have hyoung : ¬ (g.dreqTat - dreqTime s1).toInt < -16384 := by omega
  subst hg hs1
  change execGrantVisit i off s = _
  simp only [execGrantVisit, hup, hlands, hheld, hruns, hopen, hyoung, atTick_ptp, hinst, decide_false, Bool.not_true, Bool.or_self,
    Bool.false_eq_true, if_false, if_true]

end

/-- At its visit for a port a multicast stream emits what is due (14 R314). -/
theorem exec_mcastVisit {k : Fin 16} {p : Fin 4} {off : BitVec 16} {q : PtpInst} (hup : timeUp s = true)
    (hlands : landsEvery (atTick off s) gridFrame (7808500 * nsU + (16 * p.1 + k.1) * 125 * 2 ^ 47) = true)
    (hinst : s.ptp.inst[k] = some q) (hopen : servOpen (atTick off s) = true) (hmcast : q.unicast = false)
    (hport : q.ports.getLsbD p.1 = true) : exec (.mcastVisit k p off) s =
      .next (emitDue k q (16 * p.1 + k.1) q.logSync q.logAnn { port := p, mac := ptpMac q.transport q.nonfwd } (atTick off s)) := by
  change execMcastVisit k p off s = _
  simp only [execMcastVisit, hup, hlands, hopen, hmcast, hport, atTick_ptp, hinst, Bool.not_true, Bool.not_false, Bool.or_self,
    Bool.and_self, Bool.false_eq_true, if_false, if_true]

/-! ## Clock, instances, quotas and budget -/

theorem exec_icpPtpClockConfig (ident : BitVec 64) (h : Ready c 0x800 0 s) :
    exec (.icpPtpClockConfig c ident) s = ok c 0x800 [] { s with ptp := { s.ptp with clockId := ident } } := by
  change execIcpPtpClockConfig c ident s = _
  exact icpDo_is h.1 rfl h.2 rfl rfl

/-- What ICP_PTP_INSTANCE_SET asks of its arguments (14 R309, R328). -/
structure InstArgsOk (c : CmdRef) (a : InstArgs) (k : PtpInst) (s : State) : Prop where
  own : notOwn c a.idx s = false
  rsv : a.rsv = false
  idx : a.idx.toNat ≤ 15
  profile : a.profile.toNat ≤ 2
  transport : a.transport.toNat ≤ 2
  ports : a.ports.toNat ≤ 15
  transportOk : transportOk k.profile k.transport k.unicast = true
  unicast : k.unicast = true → instAddr s k ≠ none
  mcast : k.unicast = false → c.slot = 0 ∧ 1 ≤ a.ports.toNat ∧ breaksBudget a.idx k s = false
  domain : domainOk k.profile k.domain = true
  announce : annOk k.profile k.logAnn = true
  sync : syncOk k.profile k.unicast k.logSync = true
  prio : k.profile ≠ 0 → k.prio1 = 128
  clockClass : classOk k.profile k.oosClass = true
  accuracy : 0x17 ≤ k.accFloor ∧ k.accFloor ≤ 0x30
  duration : 10 ≤ k.durMax ∧ k.durMax ≤ 1000
  client : clientClash s k = false
  auth : k.auth = true → ringKeys s c.slot.1 true k.spp ≠ []
  grants : ∀ x, instAt s a.idx = some x → (instMoved x k && hasGrants s a.idx) = false

/-- What is set keeps the pace of the multicast stream that stood there before. -/
theorem exec_icpPtpInstanceSet {a : InstArgs} {k : PtpInst} (h : Ready c 0x801 0 s) (hk : k = newInst c a) (hargs : InstArgsOk c a k s) :
    exec (.icpPtpInstanceSet c a) s = ok c 0x801 [] (putInst a.idx (some { k with
      mcastTat := (instAt s a.idx).elim k.mcastTat (·.mcastTat) }) s) := by
  obtain ⟨hmin, hmax⟩ := hargs.accuracy
  obtain ⟨hdlo, hdhi⟩ := hargs.duration
  have hports (hu : k.unicast = false) : a.ports ≠ 0#8 := by
    have := (hargs.mcast hu).2.1
    bv_omega
  have hduration : ¬ k.durMax = 0 := by omega
  have hmoved : ((instAt s a.idx).elim false fun o => instMoved o k && hasGrants s a.idx) = false := by
    cases hinst : instAt s a.idx with
    | none => rfl
    | some x => exact hargs.grants x hinst
  subst hk
  change execIcpPtpInstanceSet c a s = _
  simp only [execIcpPtpInstanceSet, ok]
  refine icpDo_is h.1 (firstFail_ok fun x hx => ?_) h.2 rfl rfl
  simp only [List.mem_cons, List.not_mem_nil, or_false] at hx
  obtain rfl | rfl | rfl | rfl | rfl | rfl | rfl | rfl | rfl := hx
  · exact hargs.own
  · simp [hargs.rsv, hargs.idx, hargs.profile, hargs.transport]
  · rw [hargs.transportOk]
    cases hu : (newInst c a).unicast with
    | true => simpa [Option.isSome_iff_ne_none] using hargs.unicast hu
    | false => simp [(hargs.mcast hu).1]
  · simpa [hargs.ports, hduration] using hports
  · rw [hargs.domain, hargs.announce, hargs.sync, hargs.clockClass, outside_false hmin hmax, outside_false hdlo hdhi]
    simpa using hargs.prio
  · exact hargs.client
  · simpa [List.isEmpty_iff] using hargs.auth
  · exact hmoved
  · simpa using fun hu => (hargs.mcast hu).2.2

theorem exec_icpPtpInstanceDel {idx : BitVec 8} (h : Ready c 0x802 0 s) (hown : notOwn c idx s = false) (hlast : idx.toNat ≤ 15) :
    exec (.icpPtpInstanceDel c idx false) s = ok c 0x802 [] (instDelete idx s) := by
  change execIcpPtpInstanceDel c idx false s = _
  simp only [execIcpPtpInstanceDel, ok]
  exact icpDo_is h.1 (firstFail_ok (by simp [hown, hlast])) h.2 rfl rfl

theorem exec_icpPtpQuota {b : BitVec 8} {i : Fin 8} {g r : Word} (h : Ready c 0x803 0 s) (hslot : b.toNat = i.1)
    (hgrants : g.toNat ≤ 131072) (hrate : r.toNat ≤ 16000000) : exec (.icpPtpQuota c b g r false) s =
      ok c 0x803 [] (onPtpSlot i (fun q => { q with grantQuota := g.toNat, rateQuota := 8 * r.toNat }) s) := by
  have hlast : b.toNat ≤ 7 := by omega
  change execIcpPtpQuota c b g r false s = _
  simp only [execIcpPtpQuota, ok]
  exact icpDo_is h.1 (firstFail_ok (by simp [hlast, hgrants, hrate])) h.2 (by rw [fin?_eq_some hslot]) rfl

theorem exec_icpPtpBudget {b : Word} (h : Ready c 0x804 0 s) (hlo : 1000 ≤ b.toNat) (hhi : b.toNat ≤ 16000000) :
    exec (.icpPtpBudget c b) s = ok c 0x804 [] (authCap { s with ptp := { s.ptp with budget := 8 * b.toNat } }) := by
  have hb : b ≠ 0#32 := by bv_omega
  change execIcpPtpBudget c b s = _
  simp only [execIcpPtpBudget, ok]
  exact icpDo_is h.1 (firstFail_ok (by simp [hb, outside_false hlo hhi])) h.2 rfl rfl

/-! ## Status and grants -/

theorem exec_icpPtpStatus (h : Ready c 0x805 88 s) : Reads (.icpPtpStatus c) c 0x805 88 s := by
  change ∃ p, _ ∧ execIcpPtpStatus c s = _
  exact icpGet_reads h (by simp)

theorem exec_icpPtpGrantRead {f : Word} {n : BitVec 16} {l : List (Nat × Grant)} {p : List Byte}
    (hl : l = s.ptp.grants.filter (fun e => f.toNat ≤ e.1)) (hlo : 1 ≤ n.toNat) (hhi : n.toNat ≤ 100)
    (hp : p = le 2 (l.take n.toNat).length ++ zeros 2 ++ le 4 ((l.drop n.toNat).head?.elim 0xFFFFFFFF (·.1)) ++
      ((l.take n.toNat).flatMap fun e => grantRecord s e.2)) (h : Ready c 0x806 p.length s) :
    exec (.icpPtpGrantRead c f n false) s = ok c 0x806 p s := by
  have hn : n ≠ 0#16 := by bv_omega
  subst hl hp
  change execIcpPtpGrantRead c f n false s = _
  simp only [execIcpPtpGrantRead, ok]
  exact icpDo_is h.1 (firstFail_ok (by simp [hn, hhi])) h.2 rfl rfl

theorem exec_icpPtpGrantLoad {n : BitVec 16} {l : List GrantRec} (h : Ready c 0x807 4 s) (hlo : 1 ≤ n.toNat) (hhi : n.toNat ≤ 100)
    (hinst : ∀ r ∈ l, r.inst.toNat ≤ 15) : exec (.icpPtpGrantLoad c n l false) s =
      ok c 0x807 (le 2 (grantLoads l s).1 ++ le 2 (l.length - (grantLoads l s).1)) (grantLoads l s).2 := by
  have hn : n ≠ 0#16 := by bv_omega
  have hall : (l.any fun r => decide (15 < r.inst.toNat)) = false := by
    rw [List.any_eq_false]
    intro r hr
    simp [hinst r hr]
  have hfew : ¬ 100 < n.toNat := by omega
  change execIcpPtpGrantLoad c n l false s = _
  simp only [execIcpPtpGrantLoad, ok]
  exact icp_ok h.1 (by simp [hn, hall, hfew]) (by simpa using h.2)

theorem exec_icpPtpGrantCancel {b : BitVec 8} (h : Ready c 0x808 4 s) (hown : notOwn c b s = false) (hname : b.toNat ≤ 15 ∨ b = 0xFF#8) :
    exec (.icpPtpGrantCancel c b false) s =
      ok c 0x808 (le 4 (s.ptp.grants.filter fun e => cancelNames c b s e.2.inst).length) (cancelAll (cancelNames c b s) s) := by
  have hlegal : (decide (15 < b.toNat) && b != 0xFF#8) = false := by
    obtain hle | hall := hname
    · simp [hle]
    · simp [hall]
  change execIcpPtpGrantCancel c b false s = _
  simp only [execIcpPtpGrantCancel, ok]
  exact icp_ok h.1 (by simp [hown, hlegal]) (by simpa using h.2)

/-- Settles O23: a lemma for each visit and command. -/
theorem ptpCommands : Obligations.PtpCommands := by
  intro c s
  refine ⟨?grant, ?mcast, exec_icpPtpClockConfig, ?setting, fun _ => exec_icpPtpInstanceDel, fun _ _ _ _ => exec_icpPtpQuota,
    fun _ => exec_icpPtpBudget, exec_icpPtpStatus, fun _ _ _ _ => exec_icpPtpGrantRead, fun _ _ => exec_icpPtpGrantLoad,
    fun _ => exec_icpPtpGrantCancel⟩
  case grant =>
    intro i off k s1 hs1 hup hlands hheld hinst
    exact ⟨exec_grantVisit_expired hs1 rfl hup hlands hheld hinst, exec_grantVisit_due hs1 rfl hup hlands hheld hinst⟩
  case mcast =>
    intro k p off q s1 hs1 hup hlands hinst hopen hmcast hport
    subst hs1
    exact exec_mcastVisit hup hlands hinst hopen hmcast hport
  case setting =>
    intro a k h hk hown hrsv hidx hprofile htransport hports htransportOk hunicast hmcast hdomain hann hsync hprio hclass hacc hacc'
      hdur hdur' hclient hauth hgrants
    exact exec_icpPtpInstanceSet h hk ⟨hown, hrsv, hidx, hprofile, htransport, hports, htransportOk, hunicast, hmcast, hdomain, hann,
      hsync, hprio, hclass, ⟨hacc, hacc'⟩, ⟨hdur, hdur'⟩, hclient, hauth, hgrants⟩

end Sys2Proof.Proofs
end

