-- ==== Sys2Proof/Proofs/ClientCommands.lean ====
section
/-!
SUPPORT. The PTP client's events and command (14 R320-R322, R328), with the statement about them.
-/
namespace Sys2Proof.Proofs
open Sys2Proof Sys2Proof.Machine Sys2Proof.Claims Sys2Proof.Laws

variable {s : State} {k : Fin 2}

/-! ## Events -/

section
variable (hruns : clientRuns s k = true)
include hruns

section
variable (huni : s.ptp.client[k].unicast = true) {j : Fin 4} {x : PtpCand} (hcand : s.ptp.client[k].cands[j.1]? = some x)
include huni hcand

/-- While a unicast client runs its candidates ask. -/
theorem clientCand_eq : clientCand s k j = some x := by
  simp only [clientCand, hruns, huni, Bool.and_self, if_true, hcand]

/-- A grant is asked for again at half its duration (14 R320). -/
theorem exec_clientRenewal {n : Fin 3} {g : Int × Nat × Nat} (hasked : x.asked.contains (clientKind n) = false)
    (hgrant : candGrant x (clientKind n) = some g) (hin : inPeriod (4 * g.2.1 + 2 * g.2.2 * tickSec) s = true) :
    exec (.clientRenewal k j n) s =
      .next (clientAsk k j.1 [clientKind n] 0 (atQ (4 * g.2.1 + 2 * g.2.2 * tickSec) s)) := by
  change execClientRenewal k j n s = _
  simp only [execClientRenewal, clientCand_eq hruns huni hcand, Option.bind_some, hasked, hgrant, hin, Bool.false_eq_true, if_false,
    if_true]

theorem exec_clientRequestRetry (hin : inPeriod (4 * askDue x) s = true) : exec (.clientRequestRetry k j) s =
    .next (clientAsk k j.1 (askAgain (atQ (4 * askDue x) s) x)
      (if x.asked = [] then 0 else if x.retry = 0 then 1 else min 64 (2 * x.retry)) (atQ (4 * askDue x) s)) := by
  change execClientRequestRetry k j s = _
  simp only [execClientRequestRetry, clientCand_eq hruns huni hcand, hin, if_true, List.isEmpty_iff, nextWait]

end

/-- A Delay_Req goes to the chosen master, one interval after the one before (14 R322; log 151). -/
theorem exec_clientDelayReqSend (huni : s.ptp.client[k].unicast = true) {j t : Nat} {x : PtpCand} {l : Int} {u : State}
    (hbest : s.ptp.client[k].best = some j) (hcand : s.ptp.client[k].cands[j]? = some x) (hheld : candHeld s x .delayResp = some l)
    (ht : t = 4 * (s.ptp.client[k].dreqAt.elim 0 fun t => t + logTicks l)) (hin : inPeriod t s = true) (hu : u = atQ t s)
    (hstill : candHeld u x .delayResp ≠ none) : exec (.clientDelayReqSend k) s = .next (clientSend k
      { kind := .delayReq, seq := s.ptp.client[k].dreqSeq, log := 127, dst := some x.addr, mac := 0#48 }
      (onClient k (fun q => { q with dreqSeq := (q.dreqSeq + 1) % 65536, dreqAt := some u.time.odo }) u)) := by
  subst hu ht
  change execClientDelayReqSend k s = _
  simp only [execClientDelayReqSend, hruns, hbest, hcand, dreqLog, huni, hheld, if_true, Option.bind_some, Option.elim_some, hin]
  rw [Option.filter_some_pos (by simpa [Option.isSome_iff_ne_none] using hstill)]

/-- A candidate whose Announce messages stop being current starts a new choice (14 R321). -/
theorem exec_clientAnnounceTimeout {j t : Nat} {x : PtpCand} (hcand : s.ptp.client[k].cands[j]? = some x)
    (hend : candEnd s.ptp.client[k] x = some t) (hin : inPeriod (4 * t) s = true) :
    exec (.clientAnnounceTimeout k j) s = .next (clientChoose k (atQ (4 * t) s)) := by
  change execClientAnnounceTimeout k j s = _
  simp only [execClientAnnounceTimeout, hruns, hcand, hend, hin, if_true, Option.bind_some]

end

/-! ## The command -/

/-- What ICP_PTP_CLIENT_CONFIG asks of its arguments (14 R328). -/
structure ClientArgsOk (a : ClientArgs) (n : PtpClient) (s : State) : Prop where
  rsv : a.rsv = false
  enable : a.enable.toNat ≤ 1
  profile : a.profile.toNat ≤ 2
  transport : a.transport.toNat ≤ 2
  port : a.port.toNat ≤ 3
  transportOk : transportOk n.profile n.transport n.unicast = true
  unicast : a.unicast = true → 1 ≤ a.cands.toNat
  cands : a.cands.toNat ≤ 4
  duration : 1 ≤ a.duration.toNat
  domain : domainOk n.profile n.domain = true
  announce : annOk n.profile n.logAnn = true
  sync : syncOk n.profile n.unicast n.logSync = true
  delay : syncOk n.profile n.unicast n.logDreq = true
  serving : n.en = true → instClash s n = false
  auth : n.auth = true → ringKeys s 0 true n.spp ≠ []

theorem exec_icpPtpClientConfig {c : CmdRef} {a : ClientArgs} {n : PtpClient} (h : Ready c 0x810 0 s) (hn : n = newClient a {})
    (hclient : a.client.toNat = k.1) (hargs : ClientArgsOk a n s) :
    exec (.icpPtpClientConfig c a) s = ok c 0x810 [] (clientSet k a s) := by
  have hlast : a.client.toNat ≤ 1 := by omega
  have hduration : a.duration ≠ 0#16 := by
    have := hargs.duration
    bv_omega
  have hcands (hu : a.unicast = true) : a.cands ≠ 0#8 := by
    have := hargs.unicast hu
    bv_omega
  subst hn
  change execIcpPtpClientConfig c a s = _
  simp only [execIcpPtpClientConfig, ok]
  refine icpDo_is h.1 (firstFail_ok fun x hx => ?_) h.2 (by rw [fin?_eq_some hclient]) rfl
  simp only [List.mem_cons, List.not_mem_nil, or_false] at hx
  obtain rfl | rfl | rfl | rfl | rfl := hx
  · simp [hargs.rsv, hlast, hargs.enable, hargs.profile, hargs.transport, hargs.port]
  · simpa [hargs.transportOk, hduration] using hcands
  · simp [hargs.cands, hargs.domain, hargs.announce, hargs.sync, hargs.delay]
  · simpa using hargs.serving
  · simpa [List.isEmpty_iff] using hargs.auth

/-- Settles O24: a lemma for each event and the command. -/
theorem clientCommands : Obligations.ClientCommands := by
  intro s k
  refine ⟨fun hruns huni j x hcand => ⟨?renewal, exec_clientRequestRetry hruns huni hcand⟩,
    fun hruns huni _ _ _ _ _ => exec_clientDelayReqSend hruns huni, fun hruns _ _ _ => exec_clientAnnounceTimeout hruns, ?config⟩
  case renewal =>
    intro n g q t hq hasked hgrant ht hin
    subst hq ht
    exact exec_clientRenewal hruns huni hcand hasked hgrant hin
  case config =>
    intro c a n hn h hrsv hclient henable hprofile htransport hport htransportOk hunicast hcands hdur hdomain hann hsync hdelay hinst hauth
    exact exec_icpPtpClientConfig h hn hclient ⟨hrsv, henable, hprofile, htransport, hport, htransportOk, hunicast, hcands, hdur, hdomain,
      hann, hsync, hdelay, hinst, hauth⟩

end Sys2Proof.Proofs
end

