-- ==== Sys2Proof/Proofs/FootbridgeEvents.lean ====
section
/-!
SUPPORT. Footbridge's heartbeats, takes and announcements (15 R330-R347), with the statement about them.
-/
namespace Sys2Proof.Proofs
open Sys2Proof Sys2Proof.Machine Sys2Proof.Claims Sys2Proof.Laws

variable {s : State} {off : BitVec 16} {ck : Nat}

/-! ## Heartbeats and the link -/

/-- Unperturbed, a heartbeat goes out with the next sequence number (15 R330). -/
theorem exec_heartbeatSend (ck : Nat) (hruns : footRuns s = true) (hlands : landsEvery (atTick off s) msU 0 = true)
    (hpert : (s.pert.k[3]).armed = false) : ∃ t, exec (.heartbeatSend off ck) s = .next t ∧ t.foot.hbSeq = s.foot.hbSeq + 1#32 := by
  change ∃ t, execHeartbeatSend off ck s = _ ∧ _
  simp only [execHeartbeatSend, hruns, hlands, hpert, Bool.not_true, Bool.or_self, Bool.false_eq_true, if_false]
  exact ⟨_, rfl, rfl⟩

theorem exec_heartbeatReceive {f : FbFrame} (hruns : footRuns s = true) (hkind : f.kind = 1) : exec (.heartbeatReceive f off ck) s =
    .next (conflictCheck (hbReady f (hbLease f (s.foot.peer.elim false (·.lease))
      (hbStrap f (hbAck f (hbLink f (hbPhase f (atCk ck (atTick off s))))))))) := by
  change execHeartbeatReceive f off ck s = _
  simp only [execHeartbeatReceive, hruns, hkind, bne_self_eq_false, Bool.not_true, Bool.or_self, Bool.false_eq_true, if_false]

/-- What a miss leaves: it counts, and the good run ends. -/
def MissCounted (s t : State) : Prop :=
  t.foot.missNow = satU 16 (s.foot.missNow + 1) ∧ t.foot.missed = satU 16 (s.foot.missed + 1) ∧ t.foot.goodRun = 0

/-- The miss itself, with the interrupt of the first one in a second. -/
def missNoted (ck : Nat) (s : State) : State :=
  let counted := footHist 8#32 { atCk ck s with foot := { (atCk ck s).foot with
    missNow := satU 16 (s.foot.missNow + 1), missed := satU 16 (s.foot.missed + 1), goodRun := 0, lastMiss := some (atCk ck s).foot.ck } }
  if s.foot.lastMiss.elim true fun m => decide (m + 25000000 ≤ (atCk ck s).foot.ck) then raise 196 counted else counted

theorem missNoted_counted (ck : Nat) (s : State) : MissCounted s (missNoted ck s) := by
  unfold missNoted
  dsimp only
  split <;> simp [MissCounted, footHist]

/-- A miss counts; the tenth in a row takes the link down (15 R330). -/
theorem exec_heartbeatMiss {v : Nat} (hruns : footRuns s = true) (hvalid : s.foot.lastValid = some v)
    (hlate : v + 31250 + 25000 * s.foot.missNow ≤ ck) : exec (.heartbeatMiss ck) s =
      .next (if s.foot.link && 9 ≤ s.foot.missNow then footLinkDown (missNoted ck s) else missNoted ck s) := by
  have hdue : ¬ ck < v + 31250 + 25000 * s.foot.missNow := by omega
  change execHeartbeatMiss ck s = _
  simp only [execHeartbeatMiss, hruns, hvalid, Option.elim_some, hdue, decide_false, Bool.not_true, Bool.or_self, Bool.false_eq_true,
    if_false]
  rfl

theorem exec_fbLinkDown (hen : s.foot.en = true) (hlink : s.foot.link = true) :
    exec (.fbLinkDown ck) s = .next (faultCond 40 true (raise 195 (footHist 4#32 { atCk ck s with
      foot := { (atCk ck s).foot with link := false, aligned := false, goodRun := 0, clearRun := 0 } }))) := by
  change execFbLinkDown ck s = _
  simp only [execFbLinkDown, hen, hlink, Bool.and_self, if_true]
  rfl

/-! ## Relinquish and takes -/

section
variable {u : State} {e : Nat} (hu : u = atCk ck (atTick off s)) (hhold : s.foot.lstate = .hold) (harmed : s.foot.ackArmed = true)
  (hend : armedEnd s = some e)
include hu hhold harmed hend

/-- At the latest moment before the limit at which OE_TIMING may fall, it falls with the lease (15 R333). -/
theorem exec_leaseRelinquish_moment (hearly : u.foot.ck < e) (hmoment : oeMoment u u.time.odo = true)
    (hlast : oeLater u u.time.odo ((e - u.foot.ck) * 125 / 4) = false) : exec (.leaseRelinquish off ck) s =
      .next (conflictCheck (raise 202 (footHist 128#32 (setOe false (relinquish 2 .retake u))))) := by
  subst hu
  change execLeaseRelinquish off ck s = _
  simp only [execLeaseRelinquish, hhold, harmed, hend, hmoment, hlast, hearly, beq_self_eq_true, decide_true, Bool.and_self,
    Bool.not_false, Bool.not_true, Bool.and_false, Bool.false_eq_true, if_true, if_false]

/-- At the limit the lease goes in any case (15 R333; log 192). -/
theorem exec_leaseRelinquish_limit (hlimit : e ≤ u.foot.ck) (hmoment : oeMoment u u.time.odo = false) :
    exec (.leaseRelinquish off ck) s = .next (conflictCheck (raise 202 (footHist 128#32 (relinquish 2 .retake u)))) := by
  have hnow : ¬ u.foot.ck < e := by omega
  subst hu
  change execLeaseRelinquish off ck s = _
  simp only [execLeaseRelinquish, hhold, harmed, hend, hmoment, hnow, beq_self_eq_true, decide_false, Bool.and_self, Bool.false_and,
    Bool.false_eq_true, if_true, if_false]

end

/-- A follower takes once LEASE and GUARD have passed since it last heard of the lease (15 R334). -/
theorem exec_expiryTake {l : Nat} (hfollow : s.foot.lstate = .follow) (hlast : s.foot.lastLease = some l)
    (hexpired : l + bigLease s + bigGuard s ≤ (atCk ck s).foot.ck) (hlow : s.foot.peerOwnLowSince + bigGuard s ≤ (atCk ck s).foot.ck) :
    exec (.expiryTake ck) s = .next (takeDue false (atCk ck s)) := by
  have hdue : leaseExpired (atCk ck s).foot.ck s = true := by
    rw [leaseExpired, hlast, Option.elim_some]
    exact decide_eq_true hexpired
  change execExpiryTake ck s = _
  rw [execExpiryTake, if_pos]
  rw [hfollow, hdue, decide_eq_true hlow]
  rfl

theorem exec_relinquishTake {r : Nat} (hfollow : s.foot.lstate = .follow) (hrelinq : s.foot.relinq = some r)
    (hguard : r + bigGuard s ≤ (atCk ck s).foot.ck) : exec (.relinquishTake ck) s = .next (takeDue false (atCk ck s)) := by
  have hdue : (s.foot.relinq.elim false fun r => decide (r + bigGuard s ≤ (atCk ck s).foot.ck)) = true := by
    rw [hrelinq, Option.elim_some]
    exact decide_eq_true hguard
  change execRelinquishTake ck s = _
  rw [execRelinquishTake, if_pos]
  rw [hfollow, hdue]
  rfl

theorem exec_coldStartTake (hcold : s.foot.lstate = .cold)
    (htimer : s.foot.coldAt + (if s.aon.unitB then 3 else 2) * s.foot.leaseMs * 25000 ≤ (atCk ck s).foot.ck) :
    exec (.coldStartTake ck) s = .next (takeDue false (atCk ck s)) := by
  change execColdStartTake ck s = _
  simp only [execColdStartTake, hcold, htimer, beq_self_eq_true, decide_true, Bool.and_self, if_true]

theorem exec_retakeTake (hretake : s.foot.lstate = .retake) (hlow : s.foot.peerOwn = false)
    (htimer : max s.foot.retakeAt s.foot.peerOwnLowSince + 50 * guardUs s + 50000 ≤ (atCk ck s).foot.ck) :
    exec (.retakeTake ck) s = .next (takeDue false (atCk ck s)) := by
  change execRetakeTake ck s = _
  simp only [execRetakeTake, hretake, hlow, htimer, beq_self_eq_true, decide_true, Bool.not_false, Bool.and_self, if_true]

theorem exec_deferredTake (hblocked : s.foot.takeBlocked = true) : exec (.deferredTake ck) s = .next (takeDue false (atCk ck s)) := by
  change execDeferredTake ck s = _
  simp only [execDeferredTake, hblocked, if_true]

/-- A low FB_PEEROWN blocks no take. -/
theorem exec_peerownChange_low : exec (.peerownChange false ck) s = .next (conflictCheck { atCk ck s with
    foot := { (atCk ck s).foot with peerOwn := false, peerOwnLowSince := (atCk ck s).foot.ck } }) := by
  change execPeerownChange false ck s = _
  simp only [execPeerownChange, Bool.not_false, Bool.and_true, Bool.or_true, Bool.true_or, Bool.false_eq_true, if_true, if_false]
  rfl

/-! ## Announcements -/

/-- The next round comes ANNOUNCE_GAP after this one (15 R347). -/
theorem exec_addressAnnounceRound (hmore : s.foot.roundsLeft ≠ 0) (hin : inPeriod (4 * s.foot.roundAt) s = true) :
    ∃ t, exec .addressAnnounceRound s = .next t ∧ t.foot.roundsLeft = s.foot.roundsLeft - 1 ∧
      t.foot.roundAt = s.foot.roundAt + s.foot.annGap * 781250 := by
  change ∃ t, execAddressAnnounceRound s = _ ∧ _
  simp only [execAddressAnnounceRound, hmore, hin, decide_false, Bool.not_true, Bool.or_self, Bool.false_eq_true, if_false]
  refine ⟨_, rfl, ?_⟩
  split
  · rw [raise_foot]; exact ⟨rfl, rfl⟩
  · exact ⟨rfl, rfl⟩

/-- Settles O25: a lemma for each event. -/
theorem footbridgeEvents : Obligations.FootbridgeEvents := by
  intro s off ck u hu
  refine ⟨exec_heartbeatSend ck, ?receive, ?miss, exec_fbLinkDown,
    fun _ hhold harmed hend => ⟨exec_leaseRelinquish_moment hu hhold harmed hend, exec_leaseRelinquish_limit hu hhold harmed hend⟩,
    fun _ => exec_expiryTake, fun _ => exec_relinquishTake, exec_coldStartTake, exec_retakeTake, exec_deferredTake,
    exec_peerownChange_low, exec_addressAnnounceRound⟩
  case receive =>
    intro f hruns hkind
    subst hu
    exact exec_heartbeatReceive hruns hkind
  case miss =>
    intro v hruns hvalid hlate
    refine ⟨_, exec_heartbeatMiss hruns hvalid hlate, fun hfew => ?_, fun hlink hten => ?_⟩
    · have hstays : ¬ (s.foot.link && decide (9 ≤ s.foot.missNow)) = true := by
        obtain hdown | hfew := hfew
        · simp [hdown]
        · simp [hfew]
      rw [if_neg hstays]
      exact missNoted_counted ck s
    · rw [if_pos (by simp [hlink, hten])]
      exact ⟨_, rfl, missNoted_counted ck s⟩

end Sys2Proof.Proofs
end

