-- ==== Sys2Proof/Proofs/FootbridgeHandover.lean ====
section
/-!
SUPPORT. The planned handover and Footbridge's commands (15 R335-R352), with the statement about them.
-/
namespace Sys2Proof.Proofs
open Sys2Proof Sys2Proof.Machine Sys2Proof.Claims Sys2Proof.Laws

variable {c : CmdRef} {s : State} {off : BitVec 16} {ck : Nat}

/-! ## The handover -/

theorem fbBytes_ne_nil (f : FbFrame) (spoil : Bool) : fbBytes f spoil ≠ [] := by
  intro h
  have hlen := congrArg List.length h
  simp [fbBytes] at hlen

/-- A READY follower answers an offer with ACCEPT (15 R343 step 3). -/
theorem exec_fbOffer {f : FbFrame} (ck : Nat) (hruns : footRuns s = true) (hkind : f.kind = 2) (hready : s.foot.ready = true)
    (hfollow : s.foot.lstate = .follow) : ∃ t, exec (.fbOffer f ck) s = .next t ∧
      t.foot.h = some (f.hSec * 1000000000 + f.hNs) ∧ t.foot.hAccepted = true ∧ t.foot.lastTx ≠ [] := by
  have hanswers : (footRuns s && f.kind == 2 && s.foot.ready && s.foot.lstate == .follow) = true := by
    rw [hruns, hkind, hready, hfollow]; rfl
  change ∃ t, execFbOffer f ck s = _ ∧ _
  rw [execFbOffer, if_pos hanswers]
  exact ⟨_, rfl, rfl, rfl, fbBytes_ne_nil _ _⟩

section
variable (hruns : footRuns s = true) (hpending : s.foot.hPending = true)
include hruns hpending

theorem exec_fbAccept {f : FbFrame} {ck : Nat} (hkind : f.kind = 3) (hhold : s.foot.lstate = .hold) (hintime : ck ≤ s.foot.offerAt + 50000) :
    exec (.fbAccept f ck) s =
      .next { atCk ck s with foot := { (atCk ck s).foot with lstate := .handover, hPending := false } } := by
  have haccepts : (footRuns s && f.kind == 3 && s.foot.hPending && s.foot.lstate == .hold && decide (ck ≤ s.foot.offerAt + 50000)) = true := by
    rw [hruns, hkind, hpending, hhold, decide_eq_true hintime]; rfl
  change execFbAccept f ck s = _
  rw [execFbAccept, if_pos haccepts]

theorem exec_fbAbort (off : BitVec 16) (hbefore : beforeH (atTick off s) = true) :
    exec (.fbAbort off) s = .next (handoverFail (atTick off s)) := by
  change execFbAbort off s = _
  simp only [execFbAbort, hruns, hbefore, hpending, Bool.not_true, Bool.or_self, Bool.true_or, Bool.false_eq_true, if_true, if_false]

end

theorem exec_acceptTimeout (hpending : s.foot.hPending = true) (hlate : s.foot.offerAt + 50000 ≤ ck) :
    exec (.acceptTimeout ck) s = .next (handoverFail (atCk ck s)) := by
  change execAcceptTimeout ck s = _
  simp only [execAcceptTimeout, hpending, hlate, decide_true, Bool.and_self, if_true]

section
variable {u v : State} (hu : u = atCk ck (atTick off s))
include hu

/-- At H the holder drops the lease and OE_TIMING together (15 R343 step 5). -/
theorem exec_handoverInstant (hstate : s.foot.lstate = .handover) (hlands : landsAt u (hAt s) 0 = true)
    (hv : v = setOe false (relinquish 1 .follow u)) :
    exec (.handoverInstant off ck) s = .next { v with foot := { v.foot with former := true, lastLease := none } } := by
  have hnow : (s.foot.lstate == .handover && landsAt u (hAt s) 0) = true := by rw [hstate, hlands]; rfl
  subst hu hv
  change execHandoverInstant off ck s = _
  simp only [execHandoverInstant]
  rw [if_pos hnow]

/-- The peer takes at H + 64 ticks (15 R343 step 6). -/
theorem exec_plannedTake (hen : s.foot.en = true) (haccepted : s.foot.hAccepted = true) (hlands : landsAt u (hAt s) 64 = true)
    (hv : v = takeDue true { u with foot := { u.foot with hAccepted := false } }) :
    exec (.plannedTake off ck) s = .next (if holds v then handoverDone v else v) := by
  have hnow : (s.foot.en && s.foot.hAccepted && landsAt u (hAt s) 64) = true := by rw [hen, haccepted, hlands]; rfl
  subst hu hv
  change execPlannedTake off ck s = _
  simp only [execPlannedTake]
  rw [if_pos hnow]

/-- Without a sign of the peer's ownership the former holder takes back, and the handover has failed (15 R344). -/
theorem exec_handoverRetake (hformer : s.foot.former = true) (hfollow : s.foot.lstate = .follow) (hlow : s.foot.peerOwn = false)
    (hnone : s.foot.lastLease = none) (hlate : hAt s + 2 * msU ≤ cntNow u) : exec (.handoverRetake off ck) s =
      .next (handoverEnd false (handoverFlag (takeDue false { u with foot := { u.foot with former := false } }))) := by
  have hnow : (s.foot.former && s.foot.lstate == .follow && !s.foot.peerOwn && s.foot.lastLease.isNone &&
      decide (hAt s + 2 * msU ≤ cntNow u)) = true := by
    rw [hformer, hfollow, hlow, hnone, decide_eq_true hlate]; rfl
  subst hu
  change execHandoverRetake off ck s = _
  simp only [execHandoverRetake]
  rw [if_pos hnow]

end

/-! ## Commands -/

/-- What ICP_FB_CONFIG asks of its arguments (15 R352). -/
structure FbArgsOk (a : FbConfigArgs) (s : State) : Prop where
  rsv : a.rsv = false
  enable : a.enable.toNat ≤ 1
  lease : 8 ≤ a.leaseMs.toNat ∧ a.leaseMs.toNat ≤ 1000
  xtal : 10 ≤ a.xtalPpm.toNat ∧ a.xtalPpm.toNat ≤ 500
  base : 2000 ≤ a.guardBase.toNat ∧ a.guardBase.toNat ≤ 100000
  guard : guardOf a.guardBase.toNat a.xtalPpm.toNat a.leaseMs.toNat + 3000 ≤ a.leaseMs.toNat * 1000
  annCount : 1 ≤ a.annCount.toNat ∧ a.annCount.toNat ≤ 10
  annGap : 10 ≤ a.annGap.toNat ∧ a.annGap.toNat ≤ 2000
  ready : 100 ≤ a.readyPs.toNat ∧ a.readyPs.toNat ≤ 100000
  standby : s.sys.mode = .standby → (a.enable == 1#8) = s.foot.en

theorem exec_icpFbConfig {a : FbConfigArgs} (h : Ready c 0x900 0 s) (hargs : FbArgsOk a s) :
    exec (.icpFbConfig c a) s = ok c 0x900 [] (footEnable (a.enable == 1#8) { s with foot := { s.foot with
      autoHo := a.autoHo, annCount := a.annCount.toNat, leaseMs := a.leaseMs.toNat, xtalPpm := a.xtalPpm.toNat,
      guardBase := a.guardBase.toNat, annGap := a.annGap.toNat, readyPs := a.readyPs.toNat } }) := by
  obtain ⟨hlease, hlease'⟩ := hargs.lease
  obtain ⟨hxtal, hxtal'⟩ := hargs.xtal
  obtain ⟨hbase, hbase'⟩ := hargs.base
  obtain ⟨hcount, hcount'⟩ := hargs.annCount
  obtain ⟨hgap, hgap'⟩ := hargs.annGap
  obtain ⟨hready, hready'⟩ := hargs.ready
  have hnonzero : a.leaseMs.toNat ≠ 0 ∧ a.xtalPpm.toNat ≠ 0 ∧ a.guardBase.toNat ≠ 0 ∧ a.annCount.toNat ≠ 0 ∧ a.annGap.toNat ≠ 0 ∧
      a.readyPs.toNat ≠ 0 := by omega
  have hguard : ¬ a.leaseMs.toNat * 1000 < guardOf a.guardBase.toNat a.xtalPpm.toNat a.leaseMs.toNat + 3000 := by
    have := hargs.guard
    omega
  change execIcpFbConfig c a s = _
  simp only [execIcpFbConfig, ok]
  refine icpDo_is h.1 (firstFail_ok fun x hx => ?_) h.2 rfl rfl
  simp only [List.mem_cons, List.not_mem_nil, or_false] at hx
  obtain rfl | rfl | rfl := hx
  · simp [hargs.rsv, hargs.enable, hnonzero]
  · simp [outside_false, hlease, hlease', hxtal, hxtal', hbase, hbase', hgap, hgap', hready, hready', hcount', hguard]
  · simpa using hargs.standby

theorem exec_icpFbStatus (h : Ready c 0x901 64 s) : Reads (.icpFbStatus c) c 0x901 64 s := by
  change ∃ p, _ ∧ execIcpFbStatus c s = _
  exact icpGet_reads h (by simp)

/-- A holder with a READY peer starts a handover, which completes the command later (15 R343, R352). -/
theorem exec_icpFbHandover {l : BitVec 16} (h : Taken c 0x902 s) (hlo : 10 ≤ l.toNat) (hhi : l.toNat ≤ 1000)
    (hhold : s.foot.lstate = .hold) (hpeer : peerReady s = true) (hidle : s.foot.hPending = false) :
    exec (.icpFbHandover c l false) s = .next (startHandover l.toNat (some c) s) := by
  have hl : l ≠ 0#16 := by bv_omega
  have hchecks : firstFail [(false || l == 0#16, stBadArg), (outside l.toNat 10 1000, stRange), (s.foot.lstate != .hold, stOrder),
      (!peerReady s || s.foot.hPending, stBusy)] = stOk :=
    firstFail_ok (by simp [hl, outside_false hlo hhi, hhold, hpeer, hidle])
  change execIcpFbHandover c l false s = _
  simp only [execIcpFbHandover]
  exact icp_later h (if_pos hchecks)

theorem exec_icpFbAsym {a : Word} (h : Ready c 0x903 0 s) (hsmall : a.toInt.natAbs ≤ 1000000) :
    exec (.icpFbAsym c a) s = ok c 0x903 [] { s with foot := { s.foot with asym := a.toInt } } := by
  change execIcpFbAsym c a s = _
  simp only [execIcpFbAsym, ok]
  exact icpDo_is h.1 (firstFail_ok (by simp [beyond_false hsmall])) h.2 rfl rfl

theorem exec_icpFbTake (h : Ready c 0x904 0 s) (hstate : s.foot.lstate = .cold ∨ s.foot.lstate = .retake) (hlow : s.foot.peerOwn = false) :
    exec (.icpFbTake c 0xF0B70001#32) s = ok c 0x904 [] (takeDue false s) := by
  have hwaits : (s.foot.lstate == .cold || s.foot.lstate == .retake) = true := by
    obtain hcold | hretake := hstate
    · rw [hcold]; rfl
    · rw [hretake]; rfl
  change execIcpFbTake c 0xF0B70001#32 s = _
  simp only [execIcpFbTake, ok]
  exact icpDo_is h.1 (firstFail_ok (by simp [hwaits, hlow])) h.2 rfl rfl

/-- Settles O26: a lemma for each event and command. -/
theorem footbridgeHandover : Obligations.FootbridgeHandover := by
  intro c s
  refine ⟨fun _ => exec_fbOffer, fun hruns hpending => ⟨fun _ _ => exec_fbAccept hruns hpending, exec_fbAbort hruns hpending⟩,
    fun _ => exec_acceptTimeout, fun off ck u v hu => ⟨exec_handoverInstant hu, exec_plannedTake hu, exec_handoverRetake hu⟩,
    ?config, exec_icpFbStatus, fun _ => exec_icpFbHandover, fun _ => exec_icpFbAsym, exec_icpFbTake⟩
  case config =>
    intro a h hrsv henable hlease hlease' hxtal hxtal' hbase hbase' hguard hcount hcount' hgap hgap' hready hready' hstandby
    exact exec_icpFbConfig h ⟨hrsv, henable, ⟨hlease, hlease'⟩, ⟨hxtal, hxtal'⟩, ⟨hbase, hbase'⟩, hguard, ⟨hcount, hcount'⟩,
      ⟨hgap, hgap'⟩, ⟨hready, hready'⟩, hstandby⟩

end Sys2Proof.Proofs
end
